-- ==== Sys2Proof/Word.lean ====
section
/-!
DEFINITION. Sys2Proof/Word.lean: the word types of the GX-7256.
A word is 32 bits and a byte 8 (spec/00_scope.md section 0.7).
-/
namespace Sys2Proof

/-- A 32-bit word. -/
abbrev Word := BitVec 32

/-- A byte. -/
abbrev Byte := BitVec 8

/-- The cores of Table 1.2: 0 is the keeper K, 1 to 4 are the foragers F0 to F3. -/
abbrev CoreId := Fin 5

/-- A tenant number, T0 to T31 (section 3.1). -/
abbrev Tid := Fin 32

/-- A list of words: a parameter block, a frame, an image. -/
abbrev Words := List Word

/-- Sensor instance: 0 ACC_A, 1 ACC_B, 2 GYRO, 3 to 10 EXT_0 to EXT_7 (Table 2.11). -/
abbrev SensorId := Fin 11

/-- Lane instance (Table 2.11). -/
abbrev LaneId := Fin 24

/-- Recognizer instance, event source ID less 0x20 (Table 2.11). -/
abbrev RecogId := Fin 14

/-- Ring instance (Table 2.11). -/
abbrev RingId := Fin 64

/-- Queue instance (Table 2.11). -/
abbrev QueueId := Fin 64

/-- Port instance (Table 2.11). -/
abbrev PortId := Fin 3

/-- Line engine instance (Table 2.11). -/
abbrev EngineId := Fin 8

/-- A word from a natural number, modulo 2^32. -/
abbrev toWord (n : Nat) : Word := BitVec.ofNat 32 n

end Sys2Proof
end

