-- ==== Sys2Proof/Config.lean ====
section
/-!
DEFINITION. Sys2Proof/Config.lean: what an implementation fixes and the values the manual leaves open.
Every free value is an opaque constant applied to the counter `free` of State, which a step reads and advances;
nothing is known of it (log entry 2).
-/
namespace Sys2Proof.Config

/-- Free value: a word. -/
opaque freeWord : Nat → Word

/-- Free value: a Bool. -/
opaque freeBool : Nat → Bool

/-- Free value: a byte. -/
opaque freeByte : Nat → Byte

/-- A byte of the factory block, its digest or the UID at a flash offset (Table 16.5): fixed for one device. -/
opaque factoryByte : Nat → Byte

/-- Level that the board puts on a LINE ball at the capture that a clock sees, where no command of that clock tells it. -/
opaque lineLevel (clk ball : Nat) : Bool

end Sys2Proof.Config
end

