-- ==== Sys2Proof/Syntax.lean ====
section
/-!
DEFINITION. Sys2Proof/Syntax.lean: the commands of the GX-7256, one constructor per row of
spec/opcode_table.json, with their operands. Core instructions carry the core that runs them and the raw
fields of their form (Table 2.1); the device's own events carry what the environment supplies.
-/
namespace Sys2Proof

/-- Source operand of an ALU instruction: a register with its MOD field (form R), or imm14 (form I). -/
inductive AluSrc where
  | reg (rb : BitVec 4) (mod : BitVec 8)
  | imm (imm14 : BitVec 14)
  deriving DecidableEq, Repr, Inhabited

/-- Fields of an ALU instruction that has the forms R and I (Table 2.5). -/
structure AluForm where
  rd : BitVec 4
  ra : BitVec 4
  b : AluSrc
  deriving DecidableEq, Repr, Inhabited

/-- Form R (Table 2.1); FN is the row's own. -/
structure RForm where
  rd : BitVec 4
  ra : BitVec 4
  rb : BitVec 4
  mod : BitVec 8
  deriving DecidableEq, Repr, Inhabited

/-- Form I of the MEM class (Table 2.1); FN is the row's own. -/
structure IForm where
  rd : BitVec 4
  ra : BitVec 4
  imm14 : BitVec 14
  deriving DecidableEq, Repr, Inhabited

/-- Form L (Table 2.1); `zero` is bits [19:16]. -/
structure LForm where
  rd : BitVec 4
  zero : BitVec 4
  imm16 : BitVec 16
  deriving DecidableEq, Repr, Inhabited

/-- Form B (Table 2.1); FN is the row's own. -/
structure BForm where
  ra : BitVec 4
  off18 : BitVec 18
  deriving DecidableEq, Repr, Inhabited

/-- Form U (Table 2.1); FN is the row's own. -/
structure UForm where
  rd : BitVec 4
  ra : BitVec 4
  rb : BitVec 4
  inst : BitVec 8
  deriving DecidableEq, Repr, Inhabited

/-- The functions of the READY and FAIL words, in the order of Table 4.3. -/
inductive Func where
  | keeper | f0 | f1 | f2 | f3 | flash | journal | comb | accA | accB | gyro | xfe | aout | radio
  | ports | line | queues | lanes | thermal
  deriving DecidableEq, Repr, Inhabited

/-- The power domains, in the order of Table 6.3. -/
inductive Domain where
  | aon | core | sramCode | sramData | comb | sense | xfe | aout | radio | flash | ports | line
  deriving DecidableEq, Repr, Inhabited

/-- A host instruction packet as PORT_0 receives it (spec/13_serial_ports.md). -/
structure HostPkt where
  /-- TAG byte -/
  tag : Byte
  /-- payload words after the opcode and tag -/
  words : Words
  /-- bits received beyond the last whole word, 0 for a packet of the exact length -/
  extra : Nat
  deriving DecidableEq, Repr, Inhabited

/-- What the radio wake listener hears in one window (R199). -/
structure RfWindow where
  /-- energy in dBm held for 128 microseconds -/
  dbm : Int
  /-- mode of the frame that arrives while the receiver is on -/
  hr : Bool
  /-- its PSDU; empty with no frame -/
  psdu : List Byte
  /-- UID of its sender -/
  uid : Nat
  deriving DecidableEq, Repr, Inhabited

/-- True temperatures at the six sensors, in 1/16 degree (R217), and at the three diodes of R232. -/
structure ThermRead where
  t0 : Int
  t1 : Int
  t2 : Int
  t3 : Int
  t4 : Int
  t5 : Int
  d1 : Int
  d4 : Int
  d5 : Int
  deriving DecidableEq, Repr, Inhabited

/-- Raw conversion codes of a sensor instant. -/
structure RawTriple where
  x : Int
  y : Int
  z : Int
  deriving DecidableEq, Repr, Inhabited

/-- What an impedance measurement returns (R269 to R272). -/
structure ToneMeas where
  c : Nat
  g : Nat
  gain : Nat
  deriving DecidableEq, Repr, Inhabited

/-- A frame as the radio receives it (spec/15_hive_fabric.md): its PSDU, FCS included, the link quality and power of
Table 15.11, and the ticks since the end of its SFD. -/
structure RxFrame where
  /-- the SFD is that of HR, 0x7A; else that of STD, 0xA7 (R408) -/
  hr : Bool
  psdu : List Byte
  lqi : Byte
  rssi : Byte
  ago : Nat
  deriving DecidableEq, Repr, Inhabited

/-- A chain segment as the line carries it: SEGW words and the marker (R377). -/
structure Seg where
  words : Words
  marker : BitVec 16
  deriving DecidableEq, Repr, Inhabited

/-- A TAP data register scan: ball levels at capture and the bits shifted in (R515). -/
structure DrScan where
  levels : List Bool
  bits : List Bool
  deriving DecidableEq, Repr, Inhabited

/-- The commands of the block, one per row of the table of operations and events. -/
inductive Instr where
  /-- ADD (R64): Adds a register or immediate to a register, optionally saturating, and sets Z, N, C and V. -/
  | add (c : CoreId) (f : AluForm)
  /-- SUB (R64): Subtracts a register or immediate from a register, optionally saturating, and sets Z, N, C and V. -/
  | sub (c : CoreId) (f : AluForm)
  /-- AND (R64): Bitwise AND of a register with a register or zero-extended immediate. -/
  | and (c : CoreId) (f : AluForm)
  /-- OR (R64): Bitwise OR of a register with a register or zero-extended immediate. -/
  | or (c : CoreId) (f : AluForm)
  /-- XOR (R64): Bitwise XOR of a register with a register or zero-extended immediate. -/
  | xor (c : CoreId) (f : AluForm)
  /-- SHL (R65): Shifts a register left by a register or immediate amount and sets C to the last bit out. -/
  | shl (c : CoreId) (f : AluForm)
  /-- SHR (R65): Shifts a register right with zero fill. -/
  | shr (c : CoreId) (f : AluForm)
  /-- SHA (R65): Shifts a register right with sign fill. -/
  | sha (c : CoreId) (f : AluForm)
  /-- SLT (R64): Writes 1 when the first operand is signed-less than the second, else 0. -/
  | slt (c : CoreId) (f : AluForm)
  /-- SLTU (R64): Writes 1 when the first operand is unsigned-less than the second, else 0. -/
  | sltu (c : CoreId) (f : AluForm)
  /-- MUL (R64): Writes the low 32 bits of a product and sets V on signed overflow. -/
  | mul (c : CoreId) (f : RForm)
  /-- MULH (R64): Writes the high 32 bits of a signed product. -/
  | mulh (c : CoreId) (f : RForm)
  /-- MULQ (R66): Rounded, saturated Q31 or Q15 fractional multiply. -/
  | mulq (c : CoreId) (f : RForm)
  /-- MACQ (R66): Adds or subtracts a fractional product to the 72-bit accumulator, optionally clearing it first. -/
  | macq (c : CoreId) (f : RForm)
  /-- SAT (R66): Rounds and saturates the accumulator to Q31 or Q15 into a register, optionally clearing it. -/
  | sat (c : CoreId) (f : RForm)
  /-- MOVL (R64): Writes a zero-extended 16-bit immediate to a register. -/
  | movl (c : CoreId) (f : LForm)
  /-- MOVH (R64): Writes a 16-bit immediate into the upper half of a register. -/
  | movh (c : CoreId) (f : LForm)
  /-- MOVS (R64): Writes a sign-extended 16-bit immediate to a register. -/
  | movs (c : CoreId) (f : LForm)
  /-- VADD (R67): Per-lane saturated vector addition. -/
  | vadd (c : CoreId) (f : RForm)
  /-- VSUB (R67): Per-lane saturated vector subtraction selected by MOD[0] of VADD. -/
  | vsub (c : CoreId) (f : RForm)
  /-- VMUL (R67): Per-lane fractional vector multiply as MULQ. -/
  | vmul (c : CoreId) (f : RForm)
  /-- VDOT (R67): Rounded, saturated dot product of two vectors into a register. -/
  | vdot (c : CoreId) (f : RForm)
  /-- VCROSS (R67): Rounded, saturated cross product of two vectors. -/
  | vcross (c : CoreId) (f : RForm)
  /-- VNORM (R68): Normalises a vector to unit length in Q31. -/
  | vnorm (c : CoreId) (f : RForm)
  /-- VINS (R67): Inserts a register into one lane of a vector. -/
  | vins (c : CoreId) (f : RForm)
  /-- VEXT (R67): Extracts one lane of a vector into a register. -/
  | vext (c : CoreId) (f : RForm)
  /-- LDW (R69): Loads a word from memory or a status window, with ECC, capability, region and stall rules. -/
  | ldw (c : CoreId) (f : IForm)
  /-- STW (R69): Stores a word to data SRAM under region, alignment and window checks. -/
  | stw (c : CoreId) (f : IForm)
  /-- LDV (R70): Loads three consecutive words into a vector register, all checked before any moves. -/
  | ldv (c : CoreId) (f : IForm)
  /-- STV (R70): Stores a vector register to three consecutive words, all checked before any moves. -/
  | stv (c : CoreId) (f : IForm)
  /-- BRA (R71): Unconditional PC-relative branch. -/
  | bra (c : CoreId) (f : BForm)
  /-- BZ (R71): PC-relative branch taken when a register is zero. -/
  | bz (c : CoreId) (f : BForm)
  /-- BNZ (R71): PC-relative branch taken when a register is not zero. -/
  | bnz (c : CoreId) (f : BForm)
  /-- CALL (R73): PC-relative call that pushes the return address on the return stack. -/
  | call (c : CoreId) (f : BForm)
  /-- BZ_ST (R71): Branch taken when FL.STAT equals ST_OK. -/
  | bzSt (c : CoreId) (f : BForm)
  /-- BNZ_ST (R71): Branch taken when FL.STAT differs from ST_OK. -/
  | bnzSt (c : CoreId) (f : BForm)
  /-- BRA_REG (R72): Jumps to the address held in a register. -/
  | braReg (c : CoreId) (f : RForm)
  /-- CALL_REG (R73): Calls the address held in a register. -/
  | callReg (c : CoreId) (f : RForm)
  /-- RET (R73): Pops the return stack and jumps, faulting on an empty stack. -/
  | ret (c : CoreId) (f : RForm)
  /-- NOP (R72): Does nothing. -/
  | nop (c : CoreId) (f : RForm)
  /-- UNDEFINED_INSTRUCTION (R54): A fetched word with an undefined major opcode, function or vector register raises FLT_OPCODE. -/
  | undefinedInstruction (c : CoreId) (w : Word)
  /-- BIND (R75): Installs a binding from a three-word block into the lowest free binding and returns its index. -/
  | bind (c : CoreId) (f : RForm)
  /-- UNBIND (R44): Removes a binding and discards its pending events. -/
  | unbind (c : CoreId) (f : RForm)
  /-- WAIT (R77): Saves the invocation until a source raises an event or a timeout expires. -/
  | wait (c : CoreId) (f : RForm)
  /-- RAISE (R78): Produces an event on a source the tenant may raise. -/
  | raise (c : CoreId) (f : RForm)
  /-- YIELD (R42): Saves the invocation in the context store and lets it compete again. -/
  | yield (c : CoreId) (f : RForm)
  /-- EXIT (R51): Ends the invocation and sets its binding's FRUN to zero. -/
  | exit (c : CoreId) (f : RForm)
  /-- TIME (R79): Writes hive time low word and latches the high word per core. -/
  | time (c : CoreId) (f : RForm)
  /-- TIME_H (R79): Writes the latched high word of hive time. -/
  | timeH (c : CoreId) (f : RForm)
  /-- ALARM_AT (R81): Arms a timer to expire once at an absolute hive time, optionally as a wake compare. -/
  | alarmAt (c : CoreId) (f : RForm)
  /-- ALARM_EVERY (R81): Arms a timer to expire periodically. -/
  | alarmEvery (c : CoreId) (f : RForm)
  /-- ALARM_OFF (R81): Disarms a timer atomically. -/
  | alarmOff (c : CoreId) (f : RForm)
  /-- LEVEL (R171): Requests a performance level change, starting the transition sequence. -/
  | level (c : CoreId) (f : RForm)
  /-- SLEEP (R202): Checks refusers and starts sleep entry into Hibernate or Dormant. -/
  | sleep (c : CoreId) (f : RForm)
  /-- VOTE (R86): Casts or withdraws the tenant's stay-awake vote. -/
  | vote (c : CoreId) (f : RForm)
  /-- HOLDREL (R215): Releases the pad hold of a pad group. -/
  | holdrel (c : CoreId) (f : RForm)
  /-- INVAL (R422): Invalidates one or all route-cache lines. -/
  | inval (c : CoreId) (f : RForm)
  /-- FLAGS (R87): Copies FL into a register. -/
  | flags (c : CoreId) (f : RForm)
  /-- SPOOL (R114): Checks a tenant spool image and starts its load. -/
  | spool (c : CoreId) (f : RForm)
  /-- GRANT (R102): Installs a capability record for a tenant. -/
  | grant (c : CoreId) (f : RForm)
  /-- REVOKE (R124): Withdraws a tenant's capabilities, bindings, invocations, vote and timers. -/
  | revoke (c : CoreId) (f : RForm)
  /-- SENSE_SET (R239): Loads sensor settings, powering the sensor to READY. -/
  | senseSet (c : CoreId) (f : UForm)
  /-- SENSE_START (R245): Starts conversions of a sensor. -/
  | senseStart (c : CoreId) (f : UForm)
  /-- SENSE_STOP (R245): Ends conversions of a sensor at once. -/
  | senseStop (c : CoreId) (f : UForm)
  /-- SENSE_HOLD (R250): Takes a sensor out of service, optionally starting its self-test. -/
  | senseHold (c : CoreId) (f : UForm)
  /-- SENSE_RETURN (R252): Returns a held sensor to service and increments the epoch of its lanes. -/
  | senseReturn (c : CoreId) (f : UForm)
  /-- SENSE_OFF (R530): Powers a sensor down, including a sensor in FAULT. -/
  | senseOff (c : CoreId) (f : UForm)
  /-- TONE (R268): Sets or stops the impedance check period of an EXT channel. -/
  | tone (c : CoreId) (f : UForm)
  /-- CALPUT (R301): Writes a calibration slot of a sensor from a block. -/
  | calput (c : CoreId) (f : UForm)
  /-- CALSWAP (R305): Makes a lane use another calibration slot from its next sample boundary. -/
  | calswap (c : CoreId) (f : UForm)
  /-- CALPUT_P (R309): Writes the estimator's proposal into a calibration slot and clears it. -/
  | calputP (c : CoreId) (f : UForm)
  /-- LANE_BUILD (R291): Builds a lane's stage chain and copies its coefficient table. -/
  | laneBuild (c : CoreId) (f : UForm)
  /-- LANE_LOAD (R298): Replaces a lane's coefficient shadows from a new table. -/
  | laneLoad (c : CoreId) (f : UForm)
  /-- LANE_START (R310): Starts a lane streaming from zero stage state. -/
  | laneStart (c : CoreId) (f : UForm)
  /-- LANE_SUSPEND (R310): Suspends a lane to HELD. -/
  | laneSuspend (c : CoreId) (f : UForm)
  /-- LANE_RESUME (R311): Resumes a held lane and returns the count of missed samples. -/
  | laneResume (c : CoreId) (f : UForm)
  /-- LANE_STOP (R310): Stops a lane to READY. -/
  | laneStop (c : CoreId) (f : UForm)
  /-- LANE_CLEAR (R90): Removes a lane's stages, returning it to OFF. -/
  | laneClear (c : CoreId) (f : UForm)
  /-- RECOG_SET (R315): Sets a recognizer's parameters. -/
  | recogSet (c : CoreId) (f : UForm)
  /-- RECOG_ARM (R322): Arms a recognizer. -/
  | recogArm (c : CoreId) (f : UForm)
  /-- RECOG_DISARM (R322): Disarms a recognizer and zeroes its state. -/
  | recogDisarm (c : CoreId) (f : UForm)
  /-- RECOG_CLEAR (R90): Clears a recognizer's parameters, returning it to OFF. -/
  | recogClear (c : CoreId) (f : UForm)
  /-- RING_SET (R327): Allocates a ring in the comb buffer from a settings block. -/
  | ringSet (c : CoreId) (f : UForm)
  /-- RING_ARM (R328): Starts a new capture of a ring. -/
  | ringArm (c : CoreId) (f : UForm)
  /-- RING_TRIG (R329): Triggers a ring's capture by instruction. -/
  | ringTrig (c : CoreId) (f : UForm)
  /-- RING_DISARM (R90): Disarms a capturing ring to READY. -/
  | ringDisarm (c : CoreId) (f : UForm)
  /-- RING_FREE (R90): Frees a ring to OFF. -/
  | ringFree (c : CoreId) (f : UForm)
  /-- AOUT_SET (R278): Loads AOUT channel settings. -/
  | aoutSet (c : CoreId) (f : UForm)
  /-- AOUT_START (R279): Makes an AOUT channel follow writes. -/
  | aoutStart (c : CoreId) (f : UForm)
  /-- AOUT_WRITE (R280): Writes a clamped output code to an AOUT channel. -/
  | aoutWrite (c : CoreId) (f : UForm)
  /-- AOUT_DIAG (R283): Forces an AOUT channel to a diagnostic band. -/
  | aoutDiag (c : CoreId) (f : UForm)
  /-- AOUT_RELEASE (R279): Releases a held AOUT channel to RUN. -/
  | aoutRelease (c : CoreId) (f : UForm)
  /-- AOUT_STOP (R279): Stops an AOUT channel to READY at the low band. -/
  | aoutStop (c : CoreId) (f : UForm)
  /-- QSET (R337): Allocates a queue's banks from a settings block. -/
  | qset (c : CoreId) (f : UForm)
  /-- QEN (R351): Enables a queue with both banks empty. -/
  | qen (c : CoreId) (f : UForm)
  /-- QDIS (R351): Disables a queue, discarding its words. -/
  | qdis (c : CoreId) (f : UForm)
  /-- QFREE (R338): Frees a queue's region. -/
  | qfree (c : CoreId) (f : UForm)
  /-- QPUT (R343): Writes one word into the fill bank, taking one credit. -/
  | qput (c : CoreId) (f : UForm)
  /-- QPUT_T (R343): Writes one tagged word into the fill bank, taking one credit. -/
  | qputT (c : CoreId) (f : UForm)
  /-- QGET (R345): Delivers the oldest word of the drain bank. -/
  | qget (c : CoreId) (f : UForm)
  /-- QCRED (R342): Grants credits to a queue's producer. -/
  | qcred (c : CoreId) (f : UForm)
  /-- QFLUSH (R351): Discards every word of a queue without changing its state. -/
  | qflush (c : CoreId) (f : UForm)
  /-- JPUT (R462): Gathers a record into the journal gather buffer. -/
  | jput (c : CoreId) (f : UForm)
  /-- JCOMMIT (R465): Starts committing the tenant's gathered records as one group. -/
  | jcommit (c : CoreId) (f : UForm)
  /-- JGET (R468): Copies the newest visible record of a key. -/
  | jget (c : CoreId) (f : UForm)
  /-- SEAL_ARM (R476): First SEAL step with the arming word arms the seal. -/
  | sealArm (c : CoreId) (f : UForm)
  /-- SEAL_BURN (R476): Second SEAL step with the confirmation word starts the fuse burn. -/
  | sealBurn (c : CoreId) (f : UForm)
  /-- JPROG (R453): Starts programming up to 256 bytes of flash. -/
  | jprog (c : CoreId) (f : UForm)
  /-- JERASE (R454): Starts erasing a flash sector. -/
  | jerase (c : CoreId) (f : UForm)
  /-- FJOIN (R411): Starts the radio and tether and begins the swarm call. -/
  | fjoin (c : CoreId) (f : UForm)
  /-- FLEAVE (R412): Takes the hive to OFF and releases the address. -/
  | fleave (c : CoreId) (f : UForm)
  /-- FSEND (R424): Queues a hive message for transmission. -/
  | fsend (c : CoreId) (f : UForm)
  /-- WAGGLE_BURST (R446): FSEND with WAG starts a burst of waggle frames. -/
  | waggleBurst (c : CoreId) (f : UForm)
  /-- FRECV (R427): Maps a fabric port to a queue or removes the mapping. -/
  | frecv (c : CoreId) (f : UForm)
  /-- FROUTE (R421): Writes or removes a route-table entry. -/
  | froute (c : CoreId) (f : UForm)
  /-- FROUTE_INVAL (R421): FROUTE with INST 1 also invalidates the cache line of that address. -/
  | frouteInval (c : CoreId) (f : UForm)
  /-- PORT_SET (R355): Loads port settings. -/
  | portSet (c : CoreId) (f : UForm)
  /-- PORT_START (R356): Starts a port transferring from its queues. -/
  | portStart (c : CoreId) (f : UForm)
  /-- PORT_STOP (R90): Stops a port, abandoning a frame in progress. -/
  | portStop (c : CoreId) (f : UForm)
  /-- PORT_CLR (R384): Clears a latched MMF and returns the port to READY. -/
  | portClr (c : CoreId) (f : UForm)
  /-- LINE_LOAD (R393): Loads a line engine's program and pin maps. -/
  | lineLoad (c : CoreId) (f : UForm)
  /-- LINE_START (R394): Starts a line engine from its entry point. -/
  | lineStart (c : CoreId) (f : UForm)
  /-- LINE_STOP (R395): Stops a line engine to READY. -/
  | lineStop (c : CoreId) (f : UForm)
  /-- LINE_TX (R401): Writes a word to the engine's TAKE holding register. -/
  | lineTx (c : CoreId) (f : UForm)
  /-- LINE_RX (R401): Reads a word from the engine's GIVE holding register. -/
  | lineRx (c : CoreId) (f : UForm)
  /-- STATUS (R371): Host opcode 0x00 or a short frame only polls the status byte. -/
  | hostStatus (opc : Byte) (whole : Bool)
  /-- EXECUTE (R373): Host packet executing one instruction as T0. -/
  | hostExecute (p : HostPkt)
  /-- READ_QUEUE (R373): Host packet performing QGET up to a count. -/
  | hostReadQueue (p : HostPkt)
  /-- GRANT_CREDIT (R371): Host packet performing QCRED. -/
  | hostGrantCredit (p : HostPkt)
  /-- READ_STATUS_WINDOW (R373): Host packet reading status window words. -/
  | hostReadWindow (p : HostPkt)
  /-- READ_REPLY (R375): Host packet returning the status byte and the last reply. -/
  | hostReadReply (p : HostPkt)
  /-- HALT (R395): Engine instruction that stops the engine to READY. -/
  | leHalt (e : EngineId)
  /-- DRIVE (R397): Engine instruction setting one output pin's value and enable. -/
  | leDrive (e : EngineId)
  /-- DRIVE_ALL (R397): Engine instruction setting all output pins. -/
  | leDriveAll (e : EngineId)
  /-- SAMPLE (R397): Engine instruction shifting n input pins into SR. -/
  | leSample (e : EngineId) (lv : Byte)
  /-- SHOUT (R397): Engine instruction shifting one SR bit out to a pin, optionally toggling a clock pin. -/
  | leShout (e : EngineId)
  /-- SHIN (R397): Engine instruction shifting one input bit into SR, optionally toggling a clock pin. -/
  | leShin (e : EngineId) (lv : Byte)
  /-- TAKE_SR (R402): Engine TAKE loading SR from TH. -/
  | leTakeSr (e : EngineId)
  /-- TAKE_C (R402): Engine TAKE loading C0 and C1 from TH. -/
  | leTakeC (e : EngineId)
  /-- TAKE_MARK_ADD (R402): Engine TAKE adding TH to MARK. -/
  | leTakeMarkAdd (e : EngineId)
  /-- TAKE_MARK_ABS (R402): Engine TAKE setting MARK absolutely from TH near hive time now. -/
  | leTakeMarkAbs (e : EngineId)
  /-- GIVE_SR (R402): Engine GIVE writing SR to GH and clearing SR. -/
  | leGiveSr (e : EngineId)
  /-- GIVE_C (R402): Engine GIVE writing C1:C0 to GH. -/
  | leGiveC (e : EngineId)
  /-- GIVE_MARK_LO (R402): Engine GIVE writing MARK low word to GH. -/
  | leGiveMarkLo (e : EngineId)
  /-- GIVE_MARK_HI (R402): Engine GIVE writing MARK high word to GH. -/
  | leGiveMarkHi (e : EngineId)
  /-- BRANCH (R398): Engine branch on a condition of Table 14.5. -/
  | leBranch (e : EngineId) (lv : Byte)
  /-- COUNT_LOAD (R397): Engine loads a counter with an immediate. -/
  | leCountLoad (e : EngineId)
  /-- COUNT_INC (R397): Engine increments a counter, saturating. -/
  | leCountInc (e : EngineId)
  /-- COUNT_DEC (R397): Engine decrements a counter, saturating at zero. -/
  | leCountDec (e : EngineId)
  /-- COUNT_ADD (R397): Engine adds an immediate to a counter, saturating. -/
  | leCountAdd (e : EngineId)
  /-- AWAIT (R398): Engine begins waiting for a condition or for MARK. -/
  | leAwait (e : EngineId) (prev : Byte) (lv : Byte)
  /-- AWAIT_END (R398): A waiting AWAIT ends on its condition, an edge or its timeout. -/
  | leAwaitEnd (e : EngineId) (prev : Byte) (lv : Byte)
  /-- STAMP_NOW (R397): Engine sets MARK to hive time now. -/
  | leStampNow (e : EngineId)
  /-- STAMP_EDGE (R397): Engine sets MARK to EDGT. -/
  | leStampEdge (e : EngineId)
  /-- STAMP_ADDI (R397): Engine adds an immediate in 125 ns units to MARK. -/
  | leStampAddi (e : EngineId)
  /-- STAMP_ADDC1 (R397): Engine adds C1 microseconds to MARK. -/
  | leStampAddc1 (e : EngineId)
  /-- STAMP_ADDSR (R397): Engine adds SR ticks to MARK. -/
  | leStampAddsr (e : EngineId)
  /-- STAMP_ADDC0 (R397): Engine adds C0 units of 125 ns to MARK. -/
  | leStampAddc0 (e : EngineId)
  /-- ENGINE_STALL_END (R402): A blocking TAKE or GIVE executes when its holding register reaches the required state. -/
  | leStallEnd (e : EngineId)
  /-- TIMED_ACTION (R400): In timed mode a waiting pin action executes when hive time reaches MARK. -/
  | leTimedAction (e : EngineId) (lv : Byte)
  /-- DISPATCH (R39): A free core selects the next pending event, saved invocation or host packet and starts it. -/
  | dispatch (c : CoreId)
  /-- WAIT_TIMEOUT (R77): A WAIT timeout expires and the invocation resumes with ST_TIMEOUT. -/
  | waitTimeout (k : Fin 16)
  /-- TIMER_EXPIRY (R81): An armed timer expires and raises event 0x90 + n. -/
  | timerExpiry (n : Fin 8)
  /-- BUDGET_EXHAUSTED (R46): Counted cycles reach the budget and the invocation ends with FLT_BUDGET. -/
  | budgetExhausted (c : CoreId)
  /-- QUOTA_EXHAUSTED (R109): A tenant's charged cycles reach its quota and its invocations end with FLT_QUOTA. -/
  | quotaExhausted (t : Tid)
  /-- QUOTA_PERIOD (R108): A quota period begins and QUSED and QOUT are cleared. -/
  | quotaPeriod (t : Tid)
  /-- STALL_END (R34): A domain or function becomes ready and the stalled instruction is checked again from order 4. -/
  | stallEnd (c : CoreId)
  /-- STALL_TIMEOUT (R49): A stall exceeds twice the ready time and the instruction retires with ST_NOTREADY. -/
  | stallTimeout (c : CoreId)
  /-- DOMAIN_IDLE_OFF (R191): An on-demand domain powers down after its idle condition has held for its time. -/
  | domainIdleOff (d : Domain)
  /-- POWER_ON_RESET (R130): PGOOD rising starts a power-on reset. -/
  | powerOnReset
  /-- PGOOD_LOW (R487): A recognised PGOOD low stops flash work, cuts domains and resets balls. -/
  | pgoodLow (ns : Nat)
  /-- EXTERNAL_RESET (R131): A RESET_N low lasting the filter delay becomes an external reset. -/
  | externalReset (ns : Nat)
  /-- RESET_RELEASE (R135): The reset release point arrives, the straps are sampled and L1 runs. -/
  | resetRelease (modeBall : Bool) (testEn : Bool)
  /-- FUNCTION_READY (R138): A function completes its start-up and sets its READY bit. -/
  | functionReady (f : Func)
  /-- FUNCTION_FAIL (R138): A function fails its self-test or misses its Max time and sets FAIL. -/
  | functionFail (f : Func)
  /-- BOOT_ATTEMPT (R148): The boot ROM starts an owner spool attempt on the next slot or host image. -/
  | bootAttempt
  /-- DOORBELL_STORE (R151): A store to the tethered boot doorbell arms an attempt 64 clocks later. -/
  | doorbellStore (w : Word)
  /-- OWNER_LOAD_DONE (R146): A successful owner load installs bindings, makes T0 ACTIVE and raises 0xB8. -/
  | ownerLoadDone
  /-- SPOOL_LOAD_DONE (R116): A tenant load ends, installs its bindings and makes the tenant ACTIVE. -/
  | spoolLoadDone
  /-- SPOOL_LOAD_FAIL (R118): A load fails on ECC, signature or bindings and starts clean-up. -/
  | spoolLoadFail
  /-- LOAD_CLEANUP_END (R118): The loader's clean-up writes end and the tenant state settles. -/
  | loadCleanupEnd
  /-- SRL_FRAME_START (R174): A supply request frame starts at the next 1 µs boundary after its decision. -/
  | srlFrameStart
  /-- SRQ_ACK (R176): SRQ_ACK high is detected after blanking and the frame is acknowledged. -/
  | srqAck
  /-- SRL_TIMEOUT (R180): A frame is not acknowledged in 400 µs and the level is restored. -/
  | srlTimeout
  /-- CLOCK_SWITCH (R161): The system clock switches level at a common edge. -/
  | clockSwitch
  /-- AON_ADVANCE (R163): At a phase-counter wrap in Hibernate hive time advances and carried compares are tested. -/
  | aonAdvance
  /-- WAKE_ACTIVITY (R195): A select asserted for 50 ns latches an activity wake. -/
  | wakeActivity (p : Fin 2) (ns : Nat)
  /-- WAKE_WAGGLE (R196): A waggle detector finds 0xA55A_C33C after an SCK edge. -/
  | wakeWaggle (p : Fin 2) (b : Bool)
  /-- WAKE_LINE (R198): A selected edge on an enabled LINE wake pin latches. -/
  | wakeLine (pin : Fin 48) (lvl : Bool)
  /-- LISTENER_WINDOW (R199): The radio wake listener powers RADIO and listens for energy or a waggle frame. -/
  | listenerWindow (r : RfWindow)
  /-- WAKE_EVENT (R210): A wake writes the wake record, starts the crystal, requests L1 and releases reset. -/
  | wakeEvent
  /-- THERMAL_ROUND (R217): Each 1 ms the thermal unit reads sensors, cross-checks and decides thresholds. -/
  | thermalRound (r : ThermRead)
  /-- THERMAL_CUT (R232): The analogue comparator trips at CUT and makes the immediate cut. -/
  | thermalCut (r : ThermRead)
  /-- THERMAL_RESTART (R235): All diodes below RPOINT make a thermal restart. -/
  | thermalRestart (r : ThermRead)
  /-- CONVERSION (R241): A sensor instant is reached and the conversion is taken. -/
  | conversion (k : SensorId) (v : RawTriple)
  /-- SENSOR_SAMPLE_DELIVERY (R242): A sample is delivered to lanes and the status window. -/
  | sensorSampleDelivery (k : SensorId)
  /-- SELF_TEST_END (R253): A self-test ends, writes its results and may enter FAULT. -/
  | selfTestEnd (k : SensorId) (v : RawTriple)
  /-- TONE_MEAS_START (R269): An impedance measurement starts at a multiple of the check period. -/
  | toneMeasStart (ch : Fin 8)
  /-- TONE_RESULT (R271): A measurement result is written, flags tested and 0xB0 raised. -/
  | toneResult (ch : Fin 8) (r : ToneMeas)
  /-- AOUT_TIMEOUT (R282): No write within TMO forces an AOUT channel to HELD. -/
  | aoutTimeout (a : Fin 4)
  /-- LANE_RECORD (R295): A lane produces an output record and delivers it to its consumers. -/
  | laneRecord (l : LaneId)
  /-- RECOG_DECIDE (R319): A recognizer evaluates a record and may raise its event. -/
  | recogDecide (r : RecogId)
  /-- EVT_PULSE_END (R323): An EVT pulse width expires. -/
  | evtPulseEnd (b : Fin 8)
  /-- RING_WRITE (R330): A record passes the write queue into a ring entry. -/
  | ringWrite
  /-- SCRUB_LINE (R334): The scrubber reads and corrects one comb buffer line every 16 µs. -/
  | scrubLine
  /-- QUEUE_SWAP (R339): At the end of a clock the banks of a queue swap. -/
  | queueSwap (q : QueueId)
  /-- MASTER_FRAME_START (R364): A master starts a frame when its words are in the drain bank. -/
  | masterFrameStart (p : PortId) (rx : Words)
  /-- MASTER_RESUME (R364): A paused master resumes when words or credit arrive. -/
  | masterResume (p : PortId)
  /-- MASTER_FRAME_END (R363): A master frame ends and the select is released. -/
  | masterFrameEnd (p : PortId)
  /-- SLAVE_SELECT_ASSERT (R367): A select assertion starts a slave frame with the status byte. -/
  | slaveSelectAssert (p : PortId)
  /-- SLAVE_WORD (R368): A slave hands a received word to the system clock. -/
  | slaveWord (p : PortId) (w : Word)
  /-- SLAVE_SELECT_RELEASE (R369): A slave frame ends at select release, delivering a PART word if any. -/
  | slaveSelectRelease (p : PortId) (bits : Nat) (w : Word)
  /-- MMF_DETECT (R384): Another master's select abandons the frame and holds the port. -/
  | mmfDetect (p : PortId)
  /-- MEMBER_CAPTURE (R378): A chain member loads its register from its stage at SEL assertion. -/
  | memberCapture (p : PortId)
  /-- MEMBER_LATCH (R379): A member latches and checks its segment at SEL release. -/
  | memberLatch (p : PortId) (bits : Nat) (seg : Seg)
  /-- SWEEP_START (R439): A sweep master asserts SEL and starts a sweep. -/
  | sweepStart (p : PortId)
  /-- SWEEP_END (R381): A sweep master delivers segments by position and reports gaps. -/
  | sweepEnd (p : PortId) (segs : List Seg)
  /-- CLAIM_SEND (R413): At its swarm-call times the node chooses and claims an address. -/
  | claimSend
  /-- SWARM_DECIDE (R413): At t0 + 240 ms the address is held or the call retries. -/
  | swarmDecide
  /-- CALL_RX (R413): A received CALL schedules a RENEW answer. -/
  | callRx (f : RxFrame)
  /-- RENEW_ANSWER (R413): A node answers a CALL with RENEW after its UID delay. -/
  | renewAnswer
  /-- CLAIM_RX (R415): A received CLAIM for a held address is answered by DEFEND. -/
  | claimRx (f : RxFrame)
  /-- DEFEND_RX (R415): A received DEFEND defeats a claim or makes a holder yield. -/
  | defendRx (f : RxFrame)
  /-- RENEW_RX (R419): A received RENEW updates leases, links and the root. -/
  | renewRx (f : RxFrame)
  /-- RENEW_SEND (R416): A node in RUN sends RENEW at its phase every 10 s. -/
  | renewSend
  /-- LEASE_EXPIRY (R416): A lease entry expires and its routes are removed. -/
  | leaseExpiry (k : Fin 128)
  /-- ROUTEADV_SEND (R420): A node sends ROUTEADV on each link. -/
  | routeadvSend
  /-- ROUTEADV_RX (R420): A received ROUTEADV updates unpinned routes. -/
  | routeadvRx (f : RxFrame)
  /-- ROUTE_EXPIRY (R420): A route not confirmed for 35 s is removed. -/
  | routeExpiry (a : Fin 128)
  /-- CACHE_LINE_EXPIRY (R422): A route cache line expires 2 s after its fill. -/
  | cacheLineExpiry (k : Fin 32)
  /-- FRAME_TRANSMIT (R425): A frame is sent on a link after CSMA-CA. -/
  | frameTransmit (dbm : Int)
  /-- FLOOD_RELAY (R417): A flooded frame is relayed once after the UID delay. -/
  | floodRelay
  /-- MAC_ACK_RX (R425): A MAC acknowledgement ends a unicast message on its first link. -/
  | macAckRx (f : RxFrame)
  /-- MAC_ACK_TIMEOUT (R425): An awaited acknowledgement times out and the frame is retried or fails. -/
  | macAckTimeout
  /-- DATA_RX (R428): A DATA frame is forwarded or written to the mapped queue. -/
  | dataRx (f : RxFrame)
  /-- NACK_RX (R429): A NACK ends a message or raises a late NACK event. -/
  | nackRx (f : RxFrame)
  /-- DELIV_RX (R425): A DELIV ends an E2E message with ST_OK. -/
  | delivRx (f : RxFrame)
  /-- E2E_TIMEOUT (R425): An E2E message ends with ST_TIMEOUT after 1 s. -/
  | e2eTimeout
  /-- LEAVE_RX (R447): A heard LEAVE removes the sender's lease and routes. -/
  | leaveRx (f : RxFrame)
  /-- WAGGLE_FRAME (R446): One waggle frame is sent every 2 ms during a burst. -/
  | waggleFrame
  /-- SYNC_SREQ (R432): A radio child sends SREQ to its parent once per sync period. -/
  | syncSreq (dbm : Int)
  /-- SREQ_RX (R432): A parent stamps a received SREQ and schedules SRESP. -/
  | sreqRx (f : RxFrame)
  /-- SRESP_SEND (R432): The parent sends SRESP at t2 + 384,000 ticks. -/
  | srespSend (dbm : Int)
  /-- SRESP_RX (R434): A child computes θ and d and steps or trims hive time. -/
  | srespRx (f : RxFrame)
  /-- CAPTURE_SWITCH (R436): A stronger preamble makes the receiver abandon a frame and lock to it. -/
  | captureSwitch (strongerDb : Nat)
  /-- COMMIT_DONE (R466): A commit mark ends, the group becomes visible and 0xA8 is raised. -/
  | commitDone
  /-- FLASH_OP_DONE (R455): A JPROG or JERASE ends and 0xA8 is raised. -/
  | flashOpDone
  /-- FLASH_OP_TIMEOUT (R455): A flash operation exceeds its Max time and is stopped. -/
  | flashOpTimeout
  /-- FLASH_OP_RESUME (R456): A suspended flash operation resumes after tRES. -/
  | flashOpResume
  /-- GC_STEP (R469): Garbage collection copies live tail records and erases the tail. -/
  | gcStep
  /-- CHECKPOINT_WRITE (R471): The journal writes an index checkpoint as a background step. -/
  | checkpointWrite
  /-- SCAN_END (R474): A journal scan ends, the journal enters READY and 0xA8 is raised. -/
  | scanEnd
  /-- SEAL_BURN_DONE (R476): The fuse burn ends after 2 ms and SEALED reads 1. -/
  | sealBurnDone
  /-- SEAL_ARM_EXPIRY (R476): An arming step lapses 1 s after it retired. -/
  | sealArmExpiry
  /-- TAP_RESET (R512): TRST_N low or a reset puts the TAP in Test-Logic-Reset. -/
  | tapReset
  /-- EXTEST (R515): Drives balls with cells from the boundary register. -/
  | tapExtest
  /-- SAMPLE_PRELOAD (R513): Captures and preloads the boundary register with functional balls. -/
  | tapSamplePreload
  /-- IDCODE (R514): Selects the 32-bit identification register. -/
  | tapIdcode
  /-- CLAMP (R516): Drives balls from the cells as last updated with bypass selected. -/
  | tapClamp
  /-- HIGHZ (R516): Releases every ball with an output cell. -/
  | tapHighz
  /-- BYPASS (R513): Selects the 1-bit bypass register. -/
  | tapBypass
  /-- TAP_PRIVATE (R513): Codes 0x5 to 0xE act as bypass with TEST_EN low and as factory instructions with it high. -/
  | tapPrivate
  /-- SLEEP_ENTRY_STEP_END (R204): A sleep entry step ends by itself, the next abort point is tested, and after step 5 the device is in sleep. -/
  | sleepEntryStepEnd
  /-- ORDERLY_STOP_STEP_END (R229): A step of the orderly stop ends or hits its limit, the next step begins, and after step 6 the device is in the post-stop state. -/
  | orderlyStopStepEnd
  /-- SCAN_START (R155): In free-flying flight the journal scan starts when step 3 of the booting slot's load ends. -/
  | scanStart
  /-- FOREIGN_FRAME_RX (R418): A received frame with a foreign PAN ID, version, reserved type or unsupported option is discarded and counted in NFOREIGN. -/
  | foreignFrameRx (f : RxFrame)
  /-- NO_LATCH_PERIOD (R440): A tether member counts a 1 ms period with no latch as a sweep with no valid segment toward marking the link down. -/
  | noLatchPeriod (p : PortId)
  /-- TETHER_SYNC_SAMPLE (R441): At the end of each sync period a tether member takes the mean theta as one sample and steps or trims hive time. -/
  | tetherSyncSample
  /-- IO_BANK_SUPPLY_CHANGE (R216): A VIO_H or VIO_L bank loses or regains power, and held latches float and then drive their values again. -/
  | ioBankSupplyChange (bank : Fin 2) (mv : Nat)
  /-- VAOUT_CHANGE (R284): VAOUT falls below or rises above 2.7 V while the device runs, and VLOW follows with no state change. -/
  | vaoutChange (mv : Nat)
  /-- DR_SCAN (R515): A TAP data register scan captures ball levels into the boundary register and updates its output and control cells. -/
  | drScan (d : DrScan)
  deriving DecidableEq, Repr

end Sys2Proof
end

