-- ==== Sys2Proof/Machine/Parts/CoreParts.lean ====
section
/-!
DEFINITION. Sys2Proof/Machine/Parts/CoreParts.lean: the state of the cores, dispatch, timers and tenants
(spec/01_programmers_model.md, 02_instruction_reference.md, 03_tenants_and_spools.md).
-/
namespace Sys2Proof.Machine

/-- Unit states of R15. -/
inductive UState where
  | off | ready | run | held | fault
  deriving DecidableEq, Repr, Inhabited

/-- A vector register: the lanes X, Y and Z (R18). -/
structure XYZ where
  /-- lane X. R18; reset 0 (section 1.8, Edges) -/
  x : Word
  /-- lane Y. R18; reset 0 -/
  y : Word
  /-- lane Z. R18; reset 0 -/
  z : Word
  deriving DecidableEq, Repr, Inhabited

/-- The flag word FL of Table 1.3; its reserved bits read zero. -/
structure Flags where
  /-- result was zero. Table 1.3 [0]; reset 0 -/
  z : Bool
  /-- result was negative. Table 1.3 [1]; reset 0 -/
  n : Bool
  /-- carry out, or no borrow. Table 1.3 [2]; reset 0 -/
  c : Bool
  /-- signed overflow. Table 1.3 [3]; reset 0 -/
  v : Bool
  /-- sticky saturation. Table 1.3 [4]; reset 0 -/
  q : Bool
  /-- poisoned word delivered. Table 1.3 [5]; reset 0 -/
  p : Bool
  /-- status of the last status-writing instruction. Table 1.3 [15:8]; reset 0 -/
  stat : BitVec 8
  /-- tenant of the running invocation. Table 1.3 [20:16]; reset 0 -/
  ten : BitVec 5
  /-- this core. Table 1.3 [23:21]; reset 0 -/
  core : BitVec 3
  /-- priority of the running invocation. Table 1.3 [26:24]; reset 0 -/
  prio : BitVec 3
  deriving DecidableEq, Repr, Inhabited

/-- The register set of one core (R18), with the TIME latch (R79) and the address of the next instruction. -/
structure Regs where
  /-- w0 to w15. R18; reset 0 -/
  w : Vector Word 16
  /-- v0 to v7. R18; reset 0 -/
  v : Vector XYZ 8
  /-- the accumulator. R18; reset 0 -/
  acc : BitVec 72
  /-- the flag word. R18, Table 1.3; reset 0 -/
  fl : Flags
  /-- the return stack, innermost first, at most 8 entries. R18; reset empty -/
  stack : List Word
  /-- latched hive time [63:32] of TIME. R79; reset 0 -/
  latch : Word
  /-- address of the next instruction (R50, R71); reset 0, DESIGN CHOICE, log entry 3 -/
  pc : Word
  deriving DecidableEq, Repr, Inhabited

/-- An invocation (section 1.6): one handler run for one event, or one host packet. -/
structure Inv where
  /-- tenant it belongs to (section 3.1) -/
  tenant : Tid
  /-- its binding index; none for a host instruction packet (R7) -/
  bind : Option (Fin 256)
  /-- which installation of that binding it came from, so that a later binding at the same index is another one -/
  serial : Nat
  /-- its priority (Table 1.7) -/
  prio : BitVec 3
  /-- the binding's CORE field (Table 1.7), which decides where it may resume -/
  coreSel : BitVec 3
  /-- the binding's BUDGET (Table 1.7) -/
  budget : BitVec 16
  /-- cycles counted against the budget so far (R45) -/
  used : Nat
  /-- hive time of the event that started it (R39, R42) -/
  evTime : Nat
  /-- its tenant was revoked: it ends with FLT_REVOKED at its next boundary (R124) -/
  revoked : Bool
  /-- its tenant's quota ran out while it ran: it ends with FLT_QUOTA at its next boundary (R109) -/
  quotaOut : Bool
  /-- the orderly stop ends it at its next boundary (Table 7.5, step 1) -/
  stopped : Bool
  deriving DecidableEq, Repr, Inhabited

/-- What a stall waits for. -/
inductive StallWhy where
  /-- the READY bit of its function (R47, R143) -/
  | start
  /-- a domain or a cold sensor to wake up, by this physical instant (Table 1.8, R247) -/
  | wake (by_ : Nat)
  /-- a read of `n` bytes of flash from an offset to be served beside a program or erase: suspended, or ended where the
  read meets its range (R456, R457); its cycles are charged as fill time -/
  | flashOp (off n : Nat)
  /-- the LEAVE frames of an FLEAVE to end (R412) -/
  | leaving
  deriving DecidableEq, Repr, Inhabited

/-- A stall at order 5 of Table 1.5, or of a fetch on FLASH (R47, R49). -/
structure Stall where
  /-- the instruction that stalls -/
  instr : Instr
  /-- true: the fetch of the instruction stalls, not the instruction (R49) -/
  fetch : Bool
  /-- the function touched -/
  fn : Func
  /-- physical instant at which the stall began -/
  start : Nat
  /-- system clock count at which the stall began (R48) -/
  startClk : Nat
  /-- the stall has already been counted as long (R48) -/
  long : Bool
  /-- what it waits for -/
  why : StallWhy
  deriving DecidableEq, Repr

/-- One core. -/
structure Core where
  /-- its registers -/
  regs : Regs
  /-- the invocation it holds; none while free. R39; reset none -/
  inv : Option Inv
  /-- the stall it is in. R47; reset none -/
  stall : Option Stall
  /-- paused by step 1 of sleep entry. Table 6.8; reset false -/
  paused : Bool
  /-- the stalled instruction is being checked again from order 4. R34; reset false -/
  resuming : Bool
  /-- cycles of the instruction in progress that the clocks so far have charged already. R108; reset 0 -/
  paid : Nat
  /-- clock count before which the invocation's next instruction does not begin; of a free core, from which it is free
  (R41, R63); reset 0 -/
  goAt : Nat
  /-- domains that the instruction in progress has woken or waited for: they stay powered until it retires or refuses.
  R192; reset none -/
  woke : List Domain
  /-- that instruction has retired or refused in this clock, and the idle conditions count again from the next. R192;
  reset false -/
  wokeEnd : Bool
  deriving DecidableEq, Repr

/-- How a saved invocation stands (R42, R77). -/
inductive SavedKind where
  /-- yielded, or released from a WAIT: it competes under R39 -/
  | ready
  /-- waiting for a source, with an optional deadline in hive ticks, the destination register of WAIT, and whether
  the deadline has expired in this clock, which an event of the same clock still beats (R77) -/
  | waiting (src : BitVec 8) (deadline : Option Nat) (rd : Fin 16) (expired : Bool)
  deriving DecidableEq, Repr, Inhabited

/-- One entry of the context store (R42). -/
structure Saved where
  /-- the saved registers -/
  regs : Regs
  /-- the saved invocation -/
  inv : Inv
  /-- how it stands -/
  kind : SavedKind
  /-- order in which entries were saved (R39) -/
  order : Nat
  /-- clock count from which it can be selected: that of its release, or the one after its YIELD (R39, R63) -/
  since : Nat
  deriving DecidableEq, Repr, Inhabited

/-- A stored event (R38): argument, hive time, and whether RAISE produced it (R40). -/
structure Ev where
  /-- the 32-bit argument -/
  arg : Word
  /-- hive time of the event -/
  time : Nat
  /-- RAISE produced it -/
  raised : Bool
  /-- system clock count of the clock in which it was raised (R41) -/
  clk : Nat
  deriving DecidableEq, Repr, Inhabited

/-- A binding in use (Table 1.7); EN is 1 exactly while one is held. -/
structure Binding where
  /-- event source ID. Table 1.7 word 0 [7:0]; reset 0 -/
  src : BitVec 8
  /-- owning tenant. Table 1.7 word 0 [12:8]; reset 0 -/
  tenant : Tid
  /-- priority. Table 1.7 word 0 [15:13]; reset 0 -/
  prio : BitVec 3
  /-- core choice. Table 1.7 word 0 [18:16]; reset 0 -/
  coreSel : BitVec 3
  /-- held after repeated faults. Table 1.7 word 0 [20]; reset 0 -/
  held : Bool
  /-- handler address. Table 1.7 word 1; reset 0 -/
  handler : Word
  /-- cycle budget in units of 16. Table 1.7 word 2 [15:0]; reset 0 -/
  budget : BitVec 16
  /-- pending events, oldest first, at most 4. Table 1.7 word 2 [18:16]; reset empty -/
  pend : List Ev
  /-- consecutive faulted invocations, 0 to 8. Table 1.7 word 2 [23:19]; reset 0 -/
  frun : Nat
  /-- events lost. Table 1.7 word 2 [31:24]; reset 0 -/
  ovr : BitVec 8
  /-- which installation this is (model's own tag for R44) -/
  serial : Nat
  deriving DecidableEq, Repr, Inhabited

/-- Tenant states of R99. -/
inductive TState where
  | vacant | granted | loading | active
  deriving DecidableEq, Repr, Inhabited

/-- One tenant: the fields of its status window (Table 3.9), its record and its vote. -/
structure Tenant where
  /-- STATE. Table 3.9 0x000 [1:0]; reset VACANT (R99) -/
  state : TState
  /-- LOADST. Table 3.9 0x000 [15:8]; reset 0 -/
  loadst : BitVec 8
  /-- QUSED, 32 bits. Table 3.9 0x004; reset 0 -/
  qused : Nat
  /-- QOUT. Table 3.9 0x008 [0]; reset 0 -/
  qout : Bool
  /-- number of the quota period last begun (R108): hive time divided by the period -/
  qperiod : Nat
  /-- NSTATE. Table 3.9 0x00C [15:0]; reset 0 -/
  nstate : BitVec 16
  /-- NCAP. Table 3.9 0x00C [31:16]; reset 0 -/
  ncap : BitVec 16
  /-- NSTALL. Table 3.9 0x010 [15:0]; reset 0 -/
  nstall : BitVec 16
  /-- NFAULT. Table 3.9 0x010 [31:16]; reset 0 -/
  nfault : BitVec 16
  /-- FCODE. Table 3.9 0x014 [3:0]; reset 0 -/
  fcode : BitVec 4
  /-- FBIND. Table 3.9 0x014 [15:8]; reset 0 -/
  fbind : BitVec 8
  /-- FADDR. Table 3.9 0x018; reset 0 -/
  faddr : Word
  /-- FTIME. Table 3.9 0x01C; reset 0 -/
  ftime : Word
  /-- VERSION. Table 3.9 0x020; reset 0 -/
  version : Word
  /-- LOADCLK. Table 3.9 0x024; reset 0 -/
  loadclk : Word
  /-- SIGFAIL. Table 3.9 0x028 [7:0]; reset 0 -/
  sigfail : BitVec 8
  /-- the capability record, 24 words. Table 3.2, Table 3.9 0x040; reset zero -/
  record : Vector Word 24
  /-- the stay-awake vote (Table 2.10 VOTE); reset withdrawn, DESIGN CHOICE, log entry 4 -/
  vote : Bool
  deriving DecidableEq, Repr, Inhabited

/-- The setting of a timer (R80, R81). -/
inductive TimerKind where
  | off
  /-- expire once at a hive time; the flag is WAKE -/
  | at (cmp : Nat) (wake : Bool)
  /-- expire every `period` ticks, next at `next` -/
  | every (period next : Nat)
  deriving DecidableEq, Repr, Inhabited

/-- One timer TIMER_n. -/
structure Timer where
  /-- its setting. R80; reset disarmed (R129: every reset clears it; DESIGN CHOICE, log entry 4) -/
  kind : TimerKind
  /-- tenant whose ALARM made the setting in force (R124) -/
  owner : Tid
  /-- expiries since arming (R81) -/
  count : Nat
  /-- clock count of the ALARM, or of a step of hive time that passed the compare: an expiry comes in a later clock
  (R81, R82); reset 0 -/
  since : Nat
  /-- hive time after a forward step that passed the compare of an ALARM.AT, which stamps its expiry (R82); reset none -/
  passed : Option Nat
  /-- stamp of an expiry of this clock, which an ALARM of the same clock discards (R81); reset none -/
  due : Option Nat
  deriving DecidableEq, Repr, Inhabited

/-- One section of a spool image, read at issue (Table 3.5). -/
structure Section where
  /-- DEST -/
  dest : Nat
  /-- LENGTH in bytes -/
  len : Nat
  /-- TYPE 0 to 3 -/
  typ : Nat
  /-- the section's bytes as read (types 0, 1 and 3), zeros for type 2 -/
  data : List Byte
  deriving DecidableEq, Repr, Inhabited

/-- What a load works for: a tenant's SPOOL, or the owner spool of the boot ROM. -/
inductive LoadFor where
  | tenant (t : Tid)
  | owner
  deriving DecidableEq, Repr, Inhabited

/-- Phases of the loader (Table 3.7, R118, R127). -/
inductive LoadPhase where
  /-- steps 1 to 6 -/
  | loading
  /-- clean-up after a failure or REVOKE: ends at the given clock -/
  | cleanup (endClk : Nat)
  deriving DecidableEq, Repr, Inhabited

/-- The loader (R116). -/
structure Loader where
  /-- what it loads -/
  target : LoadFor
  /-- clock at which the load began (SPOOL retirement, or the attempt's step 7) -/
  startClk : Nat
  /-- H, clocks of the image pass (R115) -/
  h : Nat
  /-- lines of 32 bytes in type 3 sections (R115) -/
  xipLines : Nat
  /-- lines whose fill cost is settled by an earlier level (R116) -/
  xipDone : Nat
  /-- clocks those lines take -/
  xipBase : Nat
  /-- clocks of each later line at the level in force -/
  xipCost : Nat
  /-- Z, clocks of the zero writes (R115) -/
  z : Nat
  /-- clocks of the pass whose writes are already in memory -/
  copied : Nat
  /-- number of bindings, NBIND -/
  nbind : Nat
  /-- the sections -/
  sections : List Section
  /-- image bytes 0 to TOTAL - 65, as read at issue (R113) -/
  head : List Byte
  /-- PUBKEY -/
  pubkey : List Byte
  /-- the 64-byte signature -/
  sig : List Byte
  /-- binding entries, three words each -/
  binds : List (Word × Word × Word)
  /-- VERSION -/
  version : Word
  /-- clocks into the pass at which it meets a double-bit error in an image word, none without one (R118) -/
  eccBad : Option Nat
  /-- bytes of TOTAL -/
  total : Nat
  /-- address of the image -/
  image : Nat
  /-- phase -/
  phase : LoadPhase
  /-- bytes that the clean-up has written -/
  wiped : Nat
  /-- LOADST or BOOTST to set when the clean-up ends -/
  result : BitVec 8
  /-- code SRAM window that the load fills and a clean-up clears: base and bytes; (0, 0) for the owner (R145) -/
  win : Nat × Nat
  /-- true: REVOKE stops it, in the clock after, and STATE becomes VACANT after the clean-up (R127) -/
  revoked : Bool
  deriving DecidableEq, Repr, Inhabited

/-- A host request accepted by the packet decoder (R371, R372). -/
structure HostReq where
  /-- OPC: 0x30, 0x40, 0x41 or 0x50 (Table 13.5) -/
  opc : BitVec 8
  /-- TAG -/
  tag : BitVec 5
  /-- request words -/
  words : Words
  /-- instructions of the request still to run (R373) -/
  left : Nat
  /-- words delivered so far (Table 13.6) -/
  got : Words
  /-- tags of those words (Table 13.6) -/
  tags : List Nat
  /-- destination register of the instruction, for word 1 of the reply -/
  rd : Fin 16
  /-- fault code once the request has faulted -/
  fcode : Nat
  /-- the value of word 1 before the instruction -/
  before : Word
  deriving DecidableEq, Repr, Inhabited

/-- The packet decoder of tethered flight (section 13.6). -/
structure HostSt where
  /-- BUSY. R372; reset 0 -/
  busy : Bool
  /-- RDY. R372, R374; reset 0 -/
  rdy : Bool
  /-- DISC of the status byte. R371, R376; reset 0 -/
  disc : Bool
  /-- ERR of the status byte. R371; reset 0 -/
  err : Bool
  /-- ALERT of tethered flight: driven high from RDY to the next assertion of CS. R370; reset 0 -/
  alert : Bool
  /-- URUN of the status byte. R375; reset 0 -/
  urun : Bool
  /-- request waiting for the keeper. R39, R372; reset none -/
  req : Option HostReq
  /-- request the keeper is executing; reset none -/
  running : Option HostReq
  /-- the last reply, Table 13.6; reset empty -/
  reply : Words
  /-- the status byte of the frame in progress, formed when CS is asserted (R367); reset none -/
  status : Option Byte
  /-- what the device drives in answer to the last frame: the status byte and 0x00 of the command phase on D_1, then its
  data phase -/
  out : List Byte
  /-- lanes code and DDR of that data phase (R375); reset 0 -/
  lanes : BitVec 3
  deriving DecidableEq, Repr, Inhabited

end Sys2Proof.Machine
end

