-- ==== Sys2Proof/Machine/Parts/PowerParts.lean ====
section
/-!
DEFINITION. Sys2Proof/Machine/Parts/PowerParts.lean: start-up, clock, levels, supply link, sleep, wake, pads
and the thermal unit (spec/04 to spec/07).
-/
namespace Sys2Proof.Machine

/-- Which regime the device is in. -/
inductive PMode where
  /-- PGOOD low: the whole device held in reset (R130) -/
  | off
  /-- a reset has begun, RESET_N low included (R131), and the release point has not come (Table 4.2) -/
  | releasing
  /-- the system clock runs -/
  | running
  /-- asleep with the crystal running (Table 6.1) -/
  | hibernate
  /-- asleep with the crystal off (Table 6.1) -/
  | dormant
  /-- the post-stop state (R234) -/
  | postStop
  deriving DecidableEq, Repr, Inhabited

/-- An event raised in the present clock, to be offered at the clock's end: BIND and UNBIND of the same clock come
first (section 1.8, Edges). -/
structure Raised where
  /-- its source ID (R519) -/
  src : Nat
  /-- what a binding stores of it (R38) -/
  ev : Ev
  deriving DecidableEq, Repr, Inhabited

/-- What a rule puts in the clock after its cause. -/
inductive Later where
  /-- an event raised in the clock after its cause, and stamped with that clock's hive time (R172) -/
  | event (src : Nat) (arg : Word)
  /-- an event raised in the clock after its cause, with a stamp of its own (R308, R350, R385, R405, R429) -/
  | eventOf (src : Nat) (arg : Word) (time : Nat)
  /-- bias and assist of a level are set (R179, Tables 5.9 and 5.10) -/
  | bias (l : BitVec 2)
  /-- the assist of a level is set (R182) -/
  | assist (l : BitVec 2)
  /-- a forced change to L1 starts after the change that ended (R184) -/
  | force
  /-- a capability record is withdrawn: instructions checked from that clock on fail order 3 (R124) -/
  | withdrawn (t : Tid)
  /-- a pad group is released (R215) -/
  | holdrel (g : Nat)
  /-- a source lane has left RUN, or entered it again: its recognizers follow (R322) -/
  | laneRun (l : LaneId) (run : Bool)
  /-- a recognizer armed while its lane is not in RUN enters HELD (R322) -/
  | recogHeld (r : RecogId)
  /-- the first valid time sample steps hive time by θ (R434) -/
  | sample (theta : Int)
  deriving DecidableEq, Repr, Inhabited

/-- Clock, time and reset regime. -/
structure TimeSt where
  /-- regime; reset `releasing` (R130) -/
  mode : PMode
  /-- physical time in ticks of 1/192 microsecond since PGOOD rose (model's own clock, log entry 1); reset 0 -/
  phys : Nat
  /-- system clocks since the release point (model's own count); reset 0 -/
  clk : Nat
  /-- hive time, 64 bits. R162, R167; reset 0 -/
  hive : Nat
  /-- physical instant at which the 10-bit AON phase counter was last cleared, so that the counter reads
  ((phys - phase0) / 6) modulo 1024. R163; reset 0 -/
  phase0 : Nat
  /-- physical instant up to which hive time accounts for crystal cycles in Hibernate. R163; reset 0 -/
  hiveAt : Nat
  /-- VALID. Table 5.3 [0]; reset 0 -/
  valid : Bool
  /-- TRIMDIR: true withholds. Table 5.3 [1]; reset 0 -/
  trimDir : Bool
  /-- STEPS. Table 5.3 [15:8]; reset 0 -/
  steps : BitVec 8
  /-- TRIMRATE, trims per 2^24 ticks. Table 5.3 [31:16]; reset 0 -/
  trimRate : BitVec 16
  /-- trim accumulator: ticks counted times TRIMRATE, modulo 2^24 (R168; log entry 5); reset 0 -/
  trimAcc : Nat
  /-- ticks counted since the last trim (R168); reset 2048 -/
  sinceTrim : Nat
  /-- earliest physical instant of the release point (Table 4.2); reset 28800, 150 microseconds -/
  relAt : Option Nat
  /-- the reset in progress, or after the post-stop state the one to come, must see SRQ_ACK (R136); reset false -/
  relAck : Bool
  deriving DecidableEq, Repr, Inhabited

/-- What the boot ROM is doing (sections 4.5 to 4.9). -/
inductive BootPhase where
  /-- before KEEPER ready -/
  | start
  /-- the check of R153: waits for the third round after THERMAL ready -/
  | thermal
  /-- fixed work of R148, until this clock -/
  | fixed (endClk : Nat)
  /-- tethered: waits for a doorbell store (R151) -/
  | waiting
  /-- tethered: a doorbell store starts the attempt at this clock (R151) -/
  | armed (startClk : Nat)
  /-- free-flying: the attempt on the next slot may start at this clock -/
  | next
  /-- step 7 of Table 4.5 runs in the loader -/
  | loading
  /-- the clean-up of R145 runs -/
  | cleanup
  /-- the owner has started (R146) -/
  | done
  /-- no boot: TEST_EN was high (R134) -/
  | none
  deriving DecidableEq, Repr, Inhabited

/-- Start-up state. -/
structure BootSt where
  /-- READY word. Table 4.3; reset 0 -/
  ready : Word
  /-- FAIL word. Table 4.3; reset 0 -/
  fail : Word
  /-- CAUSE. Table 4.6 [2:0]; reset 0 (power-on) -/
  cause : BitVec 3
  /-- MODE: true free-flying. Table 4.6 [3]; reset 0, sampled at the release point -/
  mode : Bool
  /-- TEST_EN. Table 4.6 [4]; reset 0, sampled at the release point -/
  testEn : Bool
  /-- BOOTST. Table 4.6 [15:8]; reset 0x01 -/
  bootst : BitVec 8
  /-- SLOT. Table 4.6 [17:16]; reset 0 -/
  slot : BitVec 2
  /-- KEY. Table 4.6 [20:18]; reset 7 -/
  key : BitVec 3
  /-- JMODE. Table 4.6 [22:21]; reset 0 -/
  jmode : BitVec 2
  /-- HTV. Table 4.6 [23]; reset 0 -/
  htv : Bool
  /-- ATTEMPTS. Table 4.6 [31:24]; reset 0 -/
  attempts : BitVec 8
  /-- BOOTCLK. Table 4.6; reset 0 -/
  bootclk : Word
  /-- what the boot ROM does; reset `start` -/
  phase : BootPhase
  /-- clock at which KEEPER became ready; reset 0 -/
  keeperClk : Nat
  /-- physical instant of the release point; reset 0 -/
  relPhys : Nat
  /-- slots still to try, 1 for A and 2 for B (R148); reset empty -/
  order : List Nat
  /-- the checkpoint decision of R154 has been made; reset false -/
  jdecided : Bool
  /-- rounds that R153 still awaits; reset 3 -/
  rounds : Nat
  /-- digest of the key that signed the owner spool (R122, section 3.10); reset zero -/
  ownerDigest : Words
  /-- code SRAM ranges (address, length) that the owner spool loaded (R102); reset empty -/
  ownerCode : List (Nat × Nat)
  /-- digest under check by the attempt in progress -/
  tryDigest : Words
  /-- start clock of an attempt that a doorbell store asked for during the check of R153 (R151); reset none -/
  bell : Option Nat
  deriving DecidableEq, Repr, Inhabited

/-- What a supply request frame is for. -/
inductive SrlFor where
  /-- the SET frame of a level change (Tables 5.9, 5.10) -/
  | change
  /-- the SET frame that restores the old level (R180) -/
  | restore
  /-- the OFF frame of sleep entry (Table 6.8, step 4) -/
  | sleepOff
  /-- the SET frame after an abort at EP5 (R206) -/
  | abort
  /-- the SET frame of a wake (R136) -/
  | wake
  /-- the OFF frame of a stop, not awaited (Table 7.5 step 6, R231) -/
  | stopOff
  /-- a frame in progress when a stop or a cut began: what it was for has ended, and nothing awaits its acknowledgement -/
  | ended
  deriving DecidableEq, Repr, Inhabited

/-- A supply request frame decided or sent (R174). -/
structure SrlFrame where
  /-- what it is for -/
  why : SrlFor
  /-- CMD, LVL, VCODE, SEQ and CHK as sent (Table 5.7); zero SEQ and CHK until it starts -/
  word : BitVec 24
  /-- target level and voltage code -/
  lvl : BitVec 2
  /-- VCODE sent -/
  vcode : BitVec 8
  /-- physical instant of the decision -/
  decided : Nat
  /-- physical instant at which it started; none while it waits -/
  started : Option Nat
  deriving DecidableEq, Repr, Inhabited

/-- Where a level change stands (Tables 5.9, 5.10, R180, R183). -/
inductive ChangePhase where
  /-- its SET frame is to be sent or acknowledged -/
  | frame
  /-- waits for body bias (until this physical instant) and then a common edge, to raise the clock -/
  | biasUp (until_ : Nat)
  /-- downward: waits for the common edge that lowers the clock -/
  | switchDown
  /-- timed out: the restoring frame is to be acknowledged (R180) -/
  | restoreFrame
  /-- a downward change is undone: bias until this instant, then the clock goes back -/
  | restoreBias (until_ : Nat)
  /-- fixed supply: only the clock switches, after the PLL lock (R183) -/
  | fixedSwitch
  deriving DecidableEq, Repr, Inhabited

/-- A level change in progress. -/
structure LevelChange where
  /-- level before -/
  was : BitVec 2
  /-- level asked for -/
  tgt : BitVec 2
  /-- forced by the thermal unit (R184) -/
  forced : Bool
  /-- where it stands -/
  phase : ChangePhase
  /-- physical instant at which it started -/
  start : Nat
  deriving DecidableEq, Repr, Inhabited

/-- The level unit (Table 5.6). -/
structure LevelSt where
  /-- CUR. Table 5.6 [1:0]; reset 1 -/
  cur : BitVec 2
  /-- TGT. Table 5.6 [3:2]; reset 1 -/
  tgt : BitVec 2
  /-- FIXED. Table 5.6 [5]; reset 0 -/
  fixed : Bool
  /-- MAXL. Table 5.6 [7:6]; reset 3 -/
  maxl : BitVec 2
  /-- THLIM. Table 5.6 [9:8]; reset 3 -/
  thlim : BitVec 2
  /-- DECLERR. Table 5.6 [10]; reset 0 -/
  declerr : Bool
  /-- BB. Table 5.6 [12:11]; reset 2 -/
  bb : BitVec 2
  /-- AS. Table 5.6 [14:13]; reset 1 -/
  as_ : BitVec 2
  /-- VCODE. Table 5.6 [23:16]; reset 0x28 -/
  vcode : BitVec 8
  /-- SEQ. Table 5.6 [27:24]; reset 0 -/
  seq : BitVec 4
  /-- NTIMEOUT. Table 5.6 0x064 [15:0]; reset 0 -/
  ntimeout : BitVec 16
  /-- NCHANGE. Table 5.6 0x064 [31:16]; reset 0 -/
  nchange : BitVec 16
  /-- the change in progress; BUSY is 1 exactly while there is one. Table 5.6 [4]; reset none -/
  change : Option LevelChange
  /-- a forced change waits for the present one to end (R184); reset false -/
  forceNext : Bool
  /-- frames decided and not ended, in the order in which they are sent, the first in progress once it has started
  (R177); reset empty -/
  srl : List SrlFrame
  /-- clock count in which the memory assist last changed, when SRAM accesses wait one cycle. R179; reset none -/
  asClk : Option Nat
  /-- physical instant of PLL lock; none while the PLL is stopped (R159); reset some 28800 -/
  pll : Option Nat
  deriving DecidableEq, Repr, Inhabited

/-- The wake record (Table 6.12). -/
structure WakeRec where
  /-- CODE. Table 6.12 0x080 [7:0]; reset 0x01 -/
  code : BitVec 8
  /-- STATE: true Dormant. Table 6.12 0x080 [8]; reset 0 -/
  dormant : Bool
  /-- VON. Table 6.12 0x080 [9]; reset 0 -/
  von : Bool
  /-- INFO. Table 6.12 0x080 [23:16]; reset 0 -/
  info : BitVec 8
  /-- WAKEMASK. Table 6.12 0x084 [15:0]; MULTI is derived; reset 0 -/
  mask : BitVec 16
  /-- ENTRYT. Table 6.12 0x088, 0x08C; reset 0 -/
  entryt : Nat
  /-- WAKET. Table 6.12 0x090, 0x094; reset 0 -/
  waket : Nat
  /-- DISCB. Table 6.12 0x098 [11:0]; reset 0 -/
  discb : Nat
  /-- DISCR. Table 6.12 0x098 [23:16]; reset 0 -/
  discr : Nat
  /-- SLEEPS. Table 6.12 0x09C [15:0]; reset 0 -/
  sleeps : BitVec 16
  deriving DecidableEq, Repr, Inhabited

/-- The refusal and abort counters and the last refuser (Table 6.9). -/
structure RefuserRec where
  /-- NREF_VOTE to NREF_THERM. Table 6.9; reset 0 -/
  nref : Vector (BitVec 16) 6
  /-- ABORT_EP1 to ABORT_EP5. Table 6.9; reset 0 -/
  aborts : Vector (BitVec 16) 5
  /-- LASTEP. Table 6.9 0x0B4 [19:16]; reset 0 -/
  lastep : BitVec 4
  /-- LASTWAKE. Table 6.9 0x0B4 [31:24]; reset 0 -/
  lastwake : BitVec 8
  /-- NAME. Table 6.9 0x0B8; reset 0 -/
  name : Word
  /-- CLASS. Table 6.9 0x0BC [3:0]; reset 0 -/
  cls : BitVec 4
  /-- TENANT. Table 6.9 0x0BC [12:8]; reset 0 -/
  tenant : BitVec 5
  /-- INST. Table 6.9 0x0BC [23:16]; reset 0 -/
  inst : BitVec 8
  deriving DecidableEq, Repr, Inhabited

/-- A wake source that has latched: its code, its INFO value and the clock from which its flag is visible (R205). -/
structure WakeFlag where
  /-- wake code (Table 19.3) -/
  code : Nat
  /-- INFO of the wake record -/
  info : Nat
  /-- physical instant of the latch -/
  at_ : Nat
  /-- system clock count from which the flag is visible to an abort test -/
  visible : Nat
  deriving DecidableEq, Repr, Inhabited

/-- The wake detectors, armed by SLEEP (Table 6.5). -/
structure ArmedSet where
  /-- armed wake codes, bit n for code n. R194; reset 0 -/
  mask : BitVec 16
  /-- enabled LINE wake pins with their edge, true for rising. Table 6.5 word 1; reset empty -/
  pins : List (Nat × Bool)
  /-- CH. Table 6.5 word 2 [3:0]; reset 0 -/
  ch : BitVec 4
  /-- HR. Table 6.5 word 2 [4]; reset 0 -/
  hr : Bool
  /-- EDTHR. Table 6.5 word 2 [15:8]; reset 0 -/
  edthr : BitVec 8
  /-- LPER. Table 6.5 word 2 [23:16]; reset 0 -/
  lper : BitVec 8
  /-- carried compares (timer, hive time). R201; reset empty -/
  cmps : List (Nat × Nat)
  /-- sources that have latched, oldest first; reset empty -/
  flags : List WakeFlag
  /-- waggle shift register of PORT_0. R196; reset 0 -/
  wag0 : Word
  /-- waggle shift register of PORT_2. R196; reset 0 -/
  wag2 : Word
  /-- physical instant of the last listener window (R199); reset 0 -/
  lastWin : Nat
  deriving DecidableEq, Repr, Inhabited

/-- A sleep entry in progress (Table 6.8). -/
structure Entry where
  /-- true for Dormant -/
  dormant : Bool
  /-- core that issued the SLEEP -/
  core : CoreId
  /-- tenant that issued it -/
  tenant : Tid
  /-- step in progress, 0 to 5 -/
  step : Nat
  /-- clock at which the step began -/
  since : Nat
  /-- physical instant at which the step began -/
  sincePhys : Nat
  /-- groups latched by step 3 -/
  latched : BitVec 11
  /-- the OFF frame was acknowledged, so VCORE is or will be off -/
  vOff : Bool
  /-- abort point of an abort in progress (R205); 0 without one -/
  ep : Nat
  /-- clock count in which that abort ends and SLEEP retires (Table 6.10); none while its SET frame awaits its
  acknowledgement -/
  endAt : Option Nat
  deriving DecidableEq, Repr, Inhabited

/-- Output value, output enable and pull of one ball, as a pad latch keeps them (R212). -/
structure PadLatch where
  /-- name: pad group and index in the group, in the order of Table 6.13 -/
  group : Nat
  /-- index of the ball in its group -/
  idx : Nat
  /-- output value -/
  val : Bool
  /-- output enable -/
  en : Bool
  /-- pull: 0 none, 1 up, 2 down -/
  pull : Nat
  deriving DecidableEq, Repr, Inhabited

/-- Sleep, wake, domains and pad holds. -/
structure SleepSt where
  /-- bit d: domain d of Table 6.3 is powered. R193; reset 0, see log entry 6 -/
  domains : BitVec 12
  /-- physical instant at which each domain's wake-up completes, none when not waking (Table 1.8); reset none -/
  upAt : Vector (Option Nat) 12
  /-- physical instant of the last use of COMB and FLASH (Table 6.4); reset 0 -/
  combUse : Nat
  /-- last use of FLASH; reset 0 -/
  flashUse : Nat
  /-- the armed set. R194; reset empty -/
  armed : ArmedSet
  /-- sleep entry in progress. R204; reset none -/
  entry : Option Entry
  /-- wake record. Table 6.12; reset CODE 0x01, else 0 -/
  wake : WakeRec
  /-- counters and last refuser. Table 6.9; reset 0 -/
  refuse : RefuserRec
  /-- pad hold word HELD. Table 6.14; reset 0 -/
  holds : BitVec 11
  /-- pad latches of the held groups. R212; reset empty -/
  latches : List PadLatch
  /-- the SDO bypass of R197 is active; reset false -/
  bypass : Bool
  /-- gather buffer marked for discard (Table 6.8 step 2); reset false -/
  discard : Bool
  /-- physical instant at which step 5 of the last entry ended. R163, R209; reset 0 -/
  handover : Nat
  /-- physical instant up to which a listener window powers RADIO in Hibernate. R199; reset 0 -/
  listenTo : Nat
  deriving DecidableEq, Repr, Inhabited

/-- An orderly stop in progress (Table 7.5). -/
structure Stop where
  /-- step in progress, 1 to 6 -/
  step : Nat
  /-- physical instant at which the step began -/
  since : Nat
  /-- step 3 has sent LEAVE on the radio, or staged it on the tether -/
  leave : Bool
  deriving DecidableEq, Repr, Inhabited

/-- The thermal record (Table 7.6). -/
structure ThermRec where
  /-- KIND. Table 7.6 0x100 [1:0]; reset 0 -/
  kind : BitVec 2
  /-- STEP. Table 7.6 0x100 [4:2]; reset 0 -/
  step : BitVec 3
  /-- ABANDON. Table 7.6 0x100 [5]; reset 0 -/
  abandon : Bool
  /-- JDONE. Table 7.6 0x100 [6]; reset 0 -/
  jdone : Bool
  /-- LFSENT. Table 7.6 0x100 [7]; reset 0 -/
  lfsent : Bool
  /-- BROKEN. Table 7.6 0x100 [13:8]; reset 0 -/
  broken : BitVec 6
  /-- RECOV. Table 7.6 0x100 [23:16]; reset 0 -/
  recov : BitVec 8
  /-- TMAX. Table 7.6 0x104 [15:0]; reset 0 -/
  tmax : BitVec 16
  /-- TSRC. Table 7.6 0x104 [18:16]; reset 0 -/
  tsrc : BitVec 3
  /-- SLOPE. Table 7.6 0x108 [15:0]; reset 0 -/
  slope : BitVec 16
  /-- STOPT. Table 7.6 0x10C, 0x110; reset 0 -/
  stopt : Nat
  /-- RPOINT. Table 7.6 0x114 [7:0]; reset 0 -/
  rpoint : BitVec 8
  deriving DecidableEq, Repr, Inhabited

/-- The thermal unit (Table 7.7). -/
structure ThermSt where
  /-- READ_n in 1/16 degree, signed 16 bits. Table 7.7; reset 0 -/
  read : Vector Int 6
  /-- VALID_n. Table 7.7 [16]; reset 1 -/
  valid : Vector Bool 6
  /-- STRIKES_n, 0 to 3. Table 7.7 [18:17]; reset 0 -/
  strikes : Vector Nat 6
  /-- held sensors of R221; reset none -/
  heldS : Vector Bool 6
  /-- TMAX. Table 7.7 0x018 [15:0]; reset 0 -/
  tmax : Int
  /-- TSRC. Table 7.7 0x018 [18:16]; reset 0 -/
  tsrc : Fin 6
  /-- WARNC. Table 7.7 0x01C [7:0]; reset 95 -/
  warnc : BitVec 8
  /-- INWARN. Table 7.7 0x01C [8]; reset 0 -/
  inwarn : Bool
  /-- INTHROT. Table 7.7 0x01C [9]; reset 0 -/
  inthrot : Bool
  /-- DISAGREE. Table 7.7 0x01C [10]; reset 0 -/
  disagree : Bool
  /-- DECLERR. Table 7.7 0x01C [11]; reset 0 -/
  declerr : Bool
  /-- ROUNDS. Table 7.7 0x020; reset 0 -/
  rounds : Nat
  /-- number of the last round begun, hive time divided by 192,000 (R217); reset 0 -/
  lastIx : Nat
  /-- clock count in which a round began whose decisions are still to come. R217; reset none -/
  roundClk : Option Nat
  /-- Tmax of up to four earlier rounds since THERMAL ready, newest first (R228); reset empty -/
  hist : List Int
  /-- orderly stop in progress. R227; reset none -/
  stop : Option Stop
  /-- the thermal record. Table 7.6; reset 0 -/
  record : ThermRec
  /-- THERM_N is driven low. R233; reset false -/
  thermLow : Bool
  /-- WAKE_OUT is high. R141; reset false -/
  wakeOut : Bool
  /-- the lanes have stopped taking conversions (Table 7.5 step 1); reset false -/
  frozen : Bool
  deriving DecidableEq, Repr, Inhabited

end Sys2Proof.Machine
end

