-- ==== Sys2Proof/Machine/Parts/SenseParts.lean ====
section
/-!
DEFINITION. Sys2Proof/Machine/Parts/SenseParts.lean: sensors, the external front end, analogue outputs, lanes and
calibration (spec/08 to spec/10).
-/
namespace Sys2Proof.Machine

/-- Three axis values; a single lane or an EXT channel uses `x` alone. -/
structure V3 where
  /-- axis X or VALUE -/
  x : Int
  /-- axis Y -/
  y : Int
  /-- axis Z -/
  z : Int
  deriving DecidableEq, Repr, Inhabited

/-- A sensor sample (Tables 8.4 and 9.4) with its index. -/
structure Sample where
  /-- i of the instant (R241) -/
  ix : Nat
  /-- STAMP, i × P -/
  stamp : Nat
  /-- X, Y and Z, or VALUE -/
  v : V3
  /-- SAT -/
  sat : Bool
  /-- SETTLE -/
  settle : Bool
  /-- EMPTY -/
  empty : Bool
  /-- COV -/
  cov : Bool
  /-- TONE -/
  tone : Bool
  /-- STEP -/
  step : Bool
  /-- FLT -/
  flt : Bool
  /-- its lanes' epoch increases at it (R252) -/
  epochInc : Bool
  deriving DecidableEq, Repr, Inhabited

/-- A flag of Table 9.5 with its counts of consecutive fails and passes (R272). -/
structure ToneFlag where
  /-- the flag stands. Table 9.7 0x000 [9:6]; reset 0 -/
  on : Bool
  /-- consecutive fails; reset 0 -/
  fails : Nat
  /-- consecutive passes; reset 0 -/
  passes : Nat
  deriving DecidableEq, Repr, Inhabited

/-- The impedance check of an EXT channel (section 9.4, Table 9.7). -/
structure ToneSt where
  /-- issuer of the TONE that set the period (Table 6.7); reset T0 -/
  owner : Tid
  /-- TPER, period code, 0 while off. Table 9.7 0x040; reset 0 -/
  tper : Nat
  /-- hive time before which no measurement starts (R269); reset 0 -/
  notBefore : Nat
  /-- start of the measurement in progress. Table 9.7 MEAS; reset none -/
  meas : Option Nat
  /-- a sample within the measurement carried SAT (R271); reset false -/
  measSat : Bool
  /-- OPEN. Table 9.7 [6]; reset 0 -/
  fOpen : ToneFlag
  /-- SHORT. Table 9.7 [7]; reset 0 -/
  fShort : ToneFlag
  /-- LEAK. Table 9.7 [8]; reset 0 -/
  fLeak : ToneFlag
  /-- DRIFT. Table 9.7 [9]; reset 0 -/
  fDrift : ToneFlag
  /-- CMEAS. Table 9.7 0x044; reset 0 -/
  cmeas : BitVec 24
  /-- GMEAS. Table 9.7 0x048; reset 0 -/
  gmeas : Word
  /-- GAIN. Table 9.7 0x04C; reset 0 -/
  gain : Word
  /-- MTIME. Table 9.7 0x050, 0x054; reset 0 -/
  mtime : Nat
  /-- NCHECK. Table 9.7 0x058 [15:0]; reset 0 -/
  ncheck : BitVec 16
  /-- NINVAL. Table 9.7 0x058 [31:16]; reset 0 -/
  ninval : BitVec 16
  /-- NABORT. Table 9.7 0x05C; reset 0 -/
  nabort : BitVec 16
  deriving DecidableEq, Repr, Inhabited

/-- A still run of an estimator (R307, Table 10.8). -/
structure StillRun where
  /-- inputs so far; reset 0 -/
  cnt : Nat
  /-- inputs of which the CAL stage computed a value: all of them unless a DEC stage stands before it; reset 0 -/
  n : Nat
  /-- sum of the values measured; reset 0 -/
  sum : V3
  /-- STAMP of the last input; reset 0 -/
  stamp : Nat
  /-- epoch of the run; reset 0 -/
  epoch : BitVec 8
  /-- slot of the run (R306); reset 0 -/
  slot : BitVec 3
  deriving DecidableEq, Repr, Inhabited

/-- One sensor (Tables 8.5 and 9.7). -/
structure Sensor where
  /-- STATE. Table 8.5 0x000; reset OFF -/
  st : UState
  /-- state before SENSE.HOLD (Table 1.6); reset READY -/
  before : UState
  /-- an inertial sensor is powered up outside OFF's cold state (R247); reset true, in its start-up -/
  warm : Bool
  /-- physical instant at which the power-up of R247 ends; reset none -/
  warmAt : Option Nat
  /-- SETTINGS word 0. Table 8.5 0x004; reset 0 -/
  set0 : Word
  /-- SETTINGS word 1. Table 8.5 0x008; reset 0 -/
  set1 : Word
  /-- index of the next instant; none without instants (R241, R251); reset none -/
  next : Option Nat
  /-- samples still to carry SETTLE (R245); reset 0 -/
  settle : Nat
  /-- the next sample carries STEP (R244); reset false -/
  stepNext : Bool
  /-- charge mode: the first sample after SENSE.START is to come (R265); reset false -/
  dcFirst : Bool
  /-- charge mode: stamps below this carry SETTLE (R265); reset 0 -/
  dcUntil : Nat
  /-- charge mode: samples after an overload still to carry SAT (section 9.3, Edges); reset 0 -/
  ovl : Nat
  /-- own conversions start after this hive time (R256); reset 0 -/
  recover : Nat
  /-- STRUN: hive time at which the self-test in progress ends. Table 8.5 [3], R253; reset none -/
  test : Option Nat
  /-- SENSE.HOLD's epoch increment is due (R252); reset false -/
  holdInc : Bool
  /-- SENSE.RETURN's epoch increment is due (R252); reset false -/
  retInc : Bool
  /-- samples taken and not yet delivered, oldest first (R242); reset empty -/
  pend : List Sample
  /-- the last own conversion: stamp, codes, saturation per axis (R254, R258); reset none -/
  conv : Option (Nat × V3 × Bool × Bool × Bool)
  /-- stamp of the last instant taken since SENSE.START or a step (R245, R248, R254); reset none -/
  taken : Option Nat
  /-- COVERING. Table 8.5 [4]; reset 0 -/
  covering : Bool
  /-- PLAUSBAD. Table 8.5 [5]; reset 0 -/
  plausBad : Bool
  /-- LAST, four words. Table 8.5 0x010; reset 0 -/
  last : Words
  /-- STPASS. Table 8.5 0x020 [2:0]; reset 0 -/
  stpass : BitVec 3
  /-- STABORT. Table 8.5 0x020 [3]; reset 0 -/
  stabort : Bool
  /-- STDONE. Table 8.5 0x020 [4]; reset 0 -/
  stdone : Bool
  /-- STCOUNT. Table 8.5 0x020 [31:16]; reset 0 -/
  stcount : BitVec 16
  /-- DX, or ERRP. Table 8.5 0x024, Table 9.7; reset 0 -/
  dx : BitVec 16
  /-- DY, or ERRN. Table 8.5 0x024, Table 9.7; reset 0 -/
  dy : BitVec 16
  /-- DZ. Table 8.5 0x028; reset 0 -/
  dz : BitVec 16
  /-- NPLAUS. Table 8.5 0x02C; reset 0 -/
  nplaus : BitVec 16
  /-- NCOV, or NSAT of an EXT channel. Table 8.5 0x030, Table 9.7; reset 0 -/
  ncov : BitVec 16
  /-- NEMPTY. Table 8.5 0x030; reset 0 -/
  nempty : BitVec 16
  /-- NSAMP. Table 8.5 0x034; reset 0 -/
  nsamp : Word
  /-- impedance check, EXT channels alone. Section 9.4; reset off -/
  tone : ToneSt
  /-- calibration slots 0 to 7, 22 words each. R300, R302; reset slot 0 from the factory block or the identity set -/
  slots : Vector (Option Words) 8
  /-- proposal of the estimator. R308, window 0x800; reset none -/
  proposal : Option Words
  /-- still run in progress. R307; reset none -/
  run : Option StillRun
  deriving DecidableEq, Repr, Inhabited

/-- A ratiometric output (Table 9.9). -/
structure Aout where
  /-- STATE. Table 9.9 0x000; reset OFF -/
  st : UState
  /-- BAND. Table 9.9 [3]; reset 0 -/
  band : Bool
  /-- CAUSE. Table 9.9 [6:4]; reset 0 -/
  cause : BitVec 3
  /-- SETTINGS word 0. Table 9.9 0x004; reset 0 -/
  set0 : Word
  /-- SETTINGS word 1. Table 9.9 0x008; reset 0 -/
  set1 : Word
  /-- CODE. Table 9.9 0x00C; reset 0 -/
  code : BitVec 12
  /-- CLIPPED. Table 9.9 0x00C [12]; reset 0 -/
  clipped : Bool
  /-- codes written since AOUT.START or AOUT.RELEASE, newest first, each with the clock in which it reaches the output
  stage (R279, R280); reset empty -/
  outs : List (Nat × BitVec 12)
  /-- WTIME. Table 9.9 0x010; reset 0 -/
  wtime : Nat
  /-- T of the timeout (R282); reset 0 -/
  since : Nat
  /-- NCLIP. Table 9.9 0x018 [15:0]; reset 0 -/
  nclip : BitVec 16
  /-- NFORCE. Table 9.9 0x018 [31:16]; reset 0 -/
  nforce : BitVec 16
  /-- step 4 of the orderly stop drives the low band (Table 7.5); reset false -/
  low : Bool
  deriving DecidableEq, Repr, Inhabited

/-- A stage of a lane (Table 10.6) with its state. -/
structure Stage where
  /-- its descriptor (Table 10.5) -/
  desc : Word
  /-- CR up to and including this stage (R294) -/
  cr : Nat
  /-- index of its first coefficient -/
  off : Nat
  /-- inputs taken since its state was last zeroed (R312) -/
  fill : Nat
  /-- earlier inputs, newest first -/
  xs : List V3
  /-- earlier outputs, newest first -/
  ys : List V3
  /-- clock of its last input (R295) -/
  clk : Option Nat
  /-- a double-bit error zeroed it, and it is not filled again (R313) -/
  poison : Bool
  deriving DecidableEq, Repr, Inhabited

/-- An output record (Table 10.1) with the model's index and values. -/
structure LaneRec where
  /-- source index of the producing input (R286) -/
  ix : Nat
  /-- STAMP -/
  stamp : Nat
  /-- values, Q31 -/
  v : V3
  /-- FLAGS [15:0] (Table 10.2) -/
  flags : Nat
  /-- EPOCH -/
  epoch : BitVec 8
  /-- SLOT -/
  slot : BitVec 3
  /-- the words of Table 10.1 -/
  words : Words
  deriving DecidableEq, Repr, Inhabited

/-- One filter lane (Table 10.9). -/
structure Lane where
  /-- STATE. Table 10.9 [1:0]; reset OFF -/
  st : UState
  /-- BUILD, eleven words. Table 10.9 0x040; reset 0 -/
  build : Words
  /-- whether its source carries X, Y and Z (section 10.1); reset false -/
  triad : Bool
  /-- CR of the upstream lane, 1 for a sensor source (R294); reset 1 -/
  upCr : Nat
  /-- stages in order; reset empty -/
  stages : List Stage
  /-- coefficient shadows (R297); reset empty -/
  shadow : Words
  /-- table that replaces the shadows at the next sample boundary (R298); reset none -/
  nextShadow : Option Words
  /-- CTAB. Table 10.9 0x00C; reset 0 -/
  ctab : Word
  /-- CR. Table 10.9 0x004; reset 0 -/
  cr : Nat
  /-- GDLY. Table 10.9 0x008; reset 0 -/
  gdly : Nat
  /-- SLOT. Table 10.9 [5:3]; reset 0 -/
  slot : BitVec 3
  /-- pending slot; SWPEND is 1 while there is one. Table 10.9 [2], [8:6]; reset none -/
  pslot : Option (BitVec 3)
  /-- TSUB. Table 10.9 [10]; reset 0 -/
  tsub : Bool
  /-- EPOCH. Table 10.9 [23:16]; reset 0 -/
  epoch : BitVec 8
  /-- index of the previous input since LANE.START (R311); reset none -/
  prev : Option Nat
  /-- J of the previous record since LANE.START (R311); reset none -/
  lastJ : Option Nat
  /-- LANE.RESUME: the first input is a discontinuity (R311); reset false -/
  resumed : Bool
  /-- the record at the next output instant is a GAP record (R311); reset false -/
  gap : Bool
  /-- flags of the window so far (R289); reset 0 -/
  win : Nat
  /-- records computed and not yet produced, oldest first (R295); reset empty -/
  outq : List LaneRec
  /-- a double-bit error in a shadow poisons every record until the next copy (R313); reset false -/
  shPoison : Bool
  /-- errors injected in lane memory, met at the next input: stage number, or none for a shadow, and whether two bits
  are wrong (R313); reset none -/
  errs : List (Option Nat × Bool)
  /-- LAST, seven words. Table 10.9 0x010; reset 0 -/
  last : Words
  /-- NOUT. Table 10.9 0x02C; reset 0 -/
  nout : Word
  /-- NGAP. Table 10.9 0x030 [15:0]; reset 0 -/
  ngap : BitVec 16
  /-- NOVR. Table 10.9 0x030 [31:16]; reset 0 -/
  novr : BitVec 16
  /-- NCORR. Table 10.9 0x034 [15:0]; reset 0 -/
  ncorr : BitVec 16
  /-- NPOIS. Table 10.9 0x034 [31:16]; reset 0 -/
  npois : BitVec 16
  /-- NSWAP. Table 10.9 0x038 [15:0]; reset 0 -/
  nswap : BitVec 16
  /-- NLOAD. Table 10.9 0x038 [31:16]; reset 0 -/
  nload : BitVec 16
  /-- NREJ. Table 10.9 0x03C; reset 0 -/
  nrej : BitVec 16
  deriving DecidableEq, Repr, Inhabited

/-- An axis triple of zeros. -/
def V3.zero : V3 := ⟨0, 0, 0⟩

/-- A flag of Table 9.5 at reset. -/
def ToneFlag.zero : ToneFlag := ⟨false, 0, 0⟩

/-- The impedance check at reset. -/
def ToneSt.reset : ToneSt :=
  ⟨0, 0, 0, none, false, ToneFlag.zero, ToneFlag.zero, ToneFlag.zero, ToneFlag.zero, 0, 0, 0, 0, 0, 0, 0⟩

/-- The identity calibration set of R300; an EXT sensor (INST 3 up) has only M[0][0]. -/
def identitySet (inst : Nat) : Words :=
  let d : Word := if inst < 3 then 0x40000000 else 0
  [0x01900001, 0, 0, 0, 0x40000000, 0, 0, 0, d, 0, 0, 0, d, 0, 0, 0, 0, 0, 0, 0, 0, 0]

/-- A sensor at reset, before the factory block is read at the release point. -/
def Sensor.reset : Sensor :=
  { st := .off, before := .ready, warm := true, warmAt := none, set0 := 0, set1 := 0, next := none, settle := 0
    stepNext := false, dcFirst := false, dcUntil := 0, ovl := 0, recover := 0, test := none, holdInc := false
    retInc := false, pend := [], conv := none, taken := none, covering := false, plausBad := false, last := [0, 0, 0, 0]
    stpass := 0, stabort := false, stdone := false, stcount := 0, dx := 0, dy := 0, dz := 0, nplaus := 0, ncov := 0
    nempty := 0, nsamp := 0, tone := ToneSt.reset, slots := Vector.replicate 8 none, proposal := none, run := none }

/-- An analogue output at reset. -/
def Aout.reset : Aout := ⟨.off, false, 0, 0, 0, 0, false, [], 0, 0, 0, 0, false⟩

/-- A lane at reset. -/
def Lane.reset : Lane :=
  { st := .off, build := List.replicate 11 0, triad := false, upCr := 1, stages := [], shadow := [], nextShadow := none
    ctab := 0, cr := 0, gdly := 0, slot := 0, pslot := none, tsub := false, epoch := 0, prev := none, lastJ := none
    resumed := false, gap := false, win := 0, outq := [], shPoison := false, errs := [], last := List.replicate 7 0
    nout := 0, ngap := 0, novr := 0, ncorr := 0, npois := 0, nswap := 0, nload := 0, nrej := 0 }

end Sys2Proof.Machine
end

