-- ==== Sys2Proof/Machine/Parts/RecogParts.lean ====
section
/-!
DEFINITION. Sys2Proof/Machine/Parts/RecogParts.lean: recognizers, rings, the comb buffer and the credit queues
(spec/11_recognizers_and_comb_buffer.md, spec/12_credit_queues.md).
-/
namespace Sys2Proof.Machine

/-- A shock of a TAP recognizer: its start, last stamp, and the largest d with its axis and sign (R320). -/
structure Shock where
  /-- STAMP of its first record -/
  start : Nat
  /-- STAMP of its last record -/
  last : Nat
  /-- largest d, in units of 1 / 2^31 mg -/
  best : Nat
  /-- axis of the largest d -/
  axis : Nat
  /-- sign of the largest d, true negative -/
  neg : Bool
  deriving DecidableEq, Repr, Inhabited

/-- Detection state of R320; each recognizer uses the fields of its type. -/
structure Detect where
  /-- TAP: values of the previous evaluated record; reset none -/
  prev : Option V3
  /-- TAP: shock in progress; reset none -/
  shock : Option Shock
  /-- TAP: a run too long for a shock goes on; reset false -/
  long : Bool
  /-- TAP: a shock that awaits its quiet, and the STAMP from which it is quiet; reset none -/
  quiet : Option (Shock × Nat)
  /-- TAP: taps counted; reset 0 -/
  taps : Nat
  /-- TAP: first shock counted; reset none -/
  first : Option Shock
  /-- STEP: excursion in progress, its largest m and that record's STAMP; reset none -/
  exc : Option (Nat × Nat)
  /-- STEP: time of the previous candidate; reset none -/
  cand : Option Nat
  /-- STEP: candidates in the chain; reset 0 -/
  chain : Nat
  /-- FALL: STAMP since which m < THR; IMPACT: STAMP since which m < THR × 250; reset none -/
  low : Option Nat
  /-- FALL, STILL, IMPACT: STAMP at which the standing condition began. COND. Table 11.8 [2]; reset none -/
  cond : Option Nat
  /-- STILL: records of the window, newest first; reset empty -/
  hist : List (Nat × V3)
  /-- STILL: STAMP of the first record since the state was zeroed; reset none -/
  firstT : Option Nat
  /-- IMPACT: PEAK in mg; reset 0 -/
  peak : Nat
  /-- IMPACT: a record of the impact saturated; reset false -/
  sat : Bool
  /-- IMPACT: STAMP up to which the holdoff runs; reset 0 -/
  hold : Nat
  deriving DecidableEq, Repr, Inhabited

/-- One recognizer (Table 11.8). -/
structure Recog where
  /-- STATE. Table 11.8 [1:0]; reset OFF -/
  st : UState
  /-- SETTINGS word 0. Table 11.8 0x004; reset 0 -/
  set0 : Word
  /-- SETTINGS word 1. Table 11.8 0x008; reset 0 -/
  set1 : Word
  /-- sensor behind the source lane at RECOG.SET (R317); reset 0 -/
  sensor : Nat
  /-- records received and not yet decided (R319); reset empty -/
  inq : List LaneRec
  /-- detection state; reset zero -/
  det : Detect
  /-- STEP: last intervals between candidates, newest first, at most 4 (R320); reset empty -/
  ivals : List Nat
  /-- STAMP of the last evaluated record (R321); reset 0 -/
  lastEval : Nat
  /-- hive time at which the pulse in progress ends (R323); reset none -/
  pulse : Option Nat
  /-- LASTARG. Table 11.8 0x00C; reset 0 -/
  lastArg : Word
  /-- LASTT. Table 11.8 0x010; reset 0 -/
  lastT : Nat
  /-- NEVT. Table 11.8 0x018 [15:0]; reset 0 -/
  nevt : BitVec 16
  /-- NWRONG. Table 11.8 0x018 [31:16]; reset 0 -/
  nwrong : BitVec 16
  /-- COUNT. Table 11.8 0x01C; reset 0 -/
  count : Word
  /-- NRESET. Table 11.8 0x020; reset 0 -/
  nreset : BitVec 16
  deriving DecidableEq, Repr, Inhabited

/-- One ring (Table 11.9). -/
structure Ring where
  /-- STATE. Table 11.9 [2:0]; reset OFF -/
  st : UState
  /-- SETTINGS, five words. Table 11.9 0x004; reset 0 -/
  set : Words
  /-- TRIGD. Table 11.9 [3]; reset 0 -/
  trigd : Bool
  /-- the trigger entry is the next one written (R329); reset false -/
  trigNext : Bool
  /-- ARMN. Table 11.9 [8:4]; reset 0 -/
  armn : BitVec 5
  /-- TSRC. Table 11.9 [12:9]; reset 0 -/
  tsrc : BitVec 4
  /-- WPTR. Table 11.9 0x018; reset 0 -/
  wptr : Nat
  /-- TRIGIX. Table 11.9 0x01C; reset 0 -/
  trigix : Nat
  /-- PREGOT. Table 11.9 0x020; reset 0 -/
  pregot : Nat
  /-- POSTGOT. Table 11.9 0x024; reset 0 -/
  postgot : Nat
  /-- TSTAMP. Table 11.9 0x028; reset 0 -/
  tstamp : Nat
  /-- NWRIT. Table 11.9 0x030; reset 0 -/
  nwrit : Nat
  /-- NLOST. Table 11.9 0x034 [15:0]; reset 0 -/
  nlost : BitVec 16
  /-- NXTRIG. Table 11.9 0x034 [31:16]; reset 0 -/
  nxtrig : BitVec 16
  /-- the next entry carries LOSTB (R330); reset false -/
  lostNext : Bool
  deriving DecidableEq, Repr, Inhabited

/-- The comb buffer's controller (Table 11.10). -/
structure CombSt where
  /-- write queue: ring, its ARMN, and the record's words (R330); reset empty -/
  wq : List (RingId × BitVec 5 × Words)
  /-- NSCRUB. Table 11.10 0x000 [15:0]; reset 0 -/
  nscrub : BitVec 16
  /-- NDBE. Table 11.10 0x000 [31:16]; reset 0 -/
  ndbe : BitVec 16
  /-- NCORR. Table 11.10 0x004; reset 0 -/
  ncorr : BitVec 16
  /-- LASTDBE. Table 11.10 0x008; reset 0 -/
  lastdbe : Word
  /-- SCRUBIX. Table 11.10 0x00C; reset 0 -/
  scrubix : Nat
  /-- physical instant of the last scrub (R334); reset 0 -/
  lastScrub : Nat
  /-- clock of the last access to the array, by a load, a ring write or the scrubber (R330); reset none -/
  busyClk : Option Nat
  deriving DecidableEq, Repr, Inhabited

/-- One slot of queue RAM (R336). -/
structure QSlot where
  /-- the word as stored -/
  w : Word
  /-- TAG -/
  tag : BitVec 4
  /-- errors under its code: 0 none, 1 corrected, 2 or more double-bit -/
  err : Nat
  deriving DecidableEq, Repr, Inhabited

/-- One credit queue (Table 12.4). -/
structure Queue where
  /-- STATE. Table 12.4 [1:0]; reset OFF -/
  st : UState
  /-- settings word 0. Table 12.1; reset 0 -/
  set0 : Word
  /-- settings word 1. Table 12.1; reset 0 -/
  set1 : Word
  /-- CRED. Table 12.4 0x008; reset 0 -/
  cred : Nat
  /-- the fill bank's words, oldest first; FILL is their number. Table 12.4 0x00C; reset empty -/
  fill : List QSlot
  /-- the drain bank's words; DRAIN is their number. Table 12.4 0x00C; reset empty -/
  drain : List QSlot
  /-- LTAG. Table 12.4 0x010 [7:4]; reset 0 -/
  ltag : BitVec 4
  /-- FBANK: the fill bank is the upper one. Table 12.4 0x010 [8]; reset 0 -/
  fbank : Bool
  /-- NPUT. Table 12.4 0x014; reset 0 -/
  nput : Word
  /-- NGET. Table 12.4 0x018; reset 0 -/
  nget : Word
  /-- NSWAP. Table 12.4 0x01C [15:0]; reset 0 -/
  nswap : BitVec 16
  /-- NDROP. Table 12.4 0x01C [31:16]; reset 0 -/
  ndrop : BitVec 16
  /-- NCORR. Table 12.4 0x020 [15:0]; reset 0 -/
  ncorr : BitVec 16
  /-- NPOIS. Table 12.4 0x020 [31:16]; reset 0 -/
  npois : BitVec 16
  /-- NDISC. Table 12.4 0x024; reset 0 -/
  ndisc : BitVec 16
  deriving DecidableEq, Repr, Inhabited

/-- Detection state zeroed. -/
def Detect.zero : Detect :=
  { prev := none, shock := none, long := false, quiet := none, taps := 0, first := none, exc := none, cand := none
    chain := 0, low := none, cond := none, hist := [], firstT := none, peak := 0, sat := false, hold := 0 }

/-- A recognizer at reset. -/
def Recog.reset : Recog := ⟨.off, 0, 0, 0, [], Detect.zero, [], 0, none, 0, 0, 0, 0, 0, 0⟩

/-- A ring at reset. -/
def Ring.reset : Ring :=
  ⟨.off, List.replicate 5 0, false, false, 0, 0, 0, 0, 0, 0, 0, 0, 0, 0, false⟩

/-- The comb buffer's controller at reset. -/
def CombSt.reset : CombSt := ⟨[], 0, 0, 0, 0, 0, 0, none⟩

/-- A queue at reset. -/
def Queue.reset : Queue := ⟨.off, 0, 0, 0, [], [], 0, false, 0, 0, 0, 0, 0, 0, 0⟩

end Sys2Proof.Machine
end

