-- ==== Sys2Proof/Machine/Parts/PortParts.lean ====
section
/-!
DEFINITION. Sys2Proof/Machine/Parts/PortParts.lean: the state of the serial ports (spec/13_serial_ports.md).
-/
namespace Sys2Proof.Machine

/-- What a master's SCK is doing in a frame (R363, R364). -/
inductive FStage where
  /-- the select is asserted and SCK rests, one period long -/
  | lead
  /-- the command phase -/
  | cmd
  /-- the address phase -/
  | addr
  /-- the dummy cycles -/
  | dummy
  /-- the segments of a sweep (R380) -/
  | shift
  /-- a data word is on the line -/
  | word
  /-- SCK rests at a byte boundary: no word or no credit (R364) -/
  | paused
  /-- the half-period after the last edge -/
  | tail
  /-- the last half-period is over: the frame ends -/
  | done
  deriving DecidableEq, Repr, Inhabited

/-- A frame that a master sends (section 13.4), counted in half-periods of SCK. -/
structure MFrame where
  /-- where it stands -/
  stage : FStage
  /-- the select it asserts: n of CS_n -/
  cs : Nat
  /-- half-periods left in the stage -/
  left : Nat
  /-- half-periods of the whole stage -/
  total : Nat
  /-- system clocks left in the half-period in progress -/
  clks : Nat
  /-- SCK is in the half that follows the first edge of its period -/
  high : Bool
  /-- stages before the data words, each with its half-periods -/
  rest : List (FStage × Nat)
  /-- data words still to begin -/
  words : Nat
  /-- bytes in the last data word, 1 to 4 -/
  lastBytes : Nat
  /-- the data phase sends TXQ words -/
  send : Bool
  /-- the data phase delivers received words -/
  recv : Bool
  /-- the word on the line is the first received word of the frame -/
  first : Bool
  /-- CONT of the last TXQ word taken -/
  cont : Bool
  /-- a poisoned word was sent -/
  pois : Bool
  /-- a received word not yet passed on, for the last word of a frame carries END (R369), and whether it is the first -/
  newest : Option (Word × Bool)
  /-- the low CW bits of CMD (R357) -/
  cmd : BitVec 16
  /-- the low AW bits of the address word (R357) -/
  addr : Word
  /-- the word that is being sent -/
  cur : Word
  /-- what the line carries toward the port, word by word (the environment's) -/
  line : Words
  deriving DecidableEq, Repr, Inhabited

/-- The frame that a slave serves (section 13.5). -/
structure SFrame where
  /-- whole words received so far -/
  got : Nat
  /-- the last whole word, held until it is known whether it ends the frame -/
  last : Option Word
  /-- a poisoned word was sent -/
  pois : Bool
  /-- words of the transmit FIFO that it held at the last word boundary of the link (R367) -/
  early : Nat
  deriving DecidableEq, Repr, Inhabited

/-- A port PORT_p (Table 13.10). -/
structure Port where
  /-- STATE. Table 13.10 0x000 [1:0]; reset OFF, PORT_0 RUN in tethered flight (R36, R142) -/
  st : UState
  /-- SETTINGS, four words. Table 13.2; reset 0 -/
  set : Words
  /-- issuer of PORT.START (Table 6.7); reset T0 -/
  owner : Tid
  /-- the hive runs the port as a tether (R411); reset false -/
  hive : Bool
  /-- MMF. Table 13.10 [2]; reset 0 -/
  mmf : Bool
  /-- INFRAME. Table 13.10 [3]; reset 0 -/
  inframe : Bool
  /-- LINK_BREAK_UP. Table 13.10 [5]; reset 0 -/
  lbu : Bool
  /-- NFRAME. Table 13.10 0x014; reset 0 -/
  nframe : Word
  /-- NSKIP. Table 13.10 0x018 [15:0]; reset 0 -/
  nskip : BitVec 16
  /-- NPAUSE. Table 13.10 0x018 [31:16]; reset 0 -/
  npause : BitVec 16
  /-- NORUN. Table 13.10 0x01C [15:0]; reset 0 -/
  norun : BitVec 16
  /-- NURUN. Table 13.10 0x01C [31:16]; reset 0 -/
  nurun : BitVec 16
  /-- NPOIS. Table 13.10 0x020 [15:0]; reset 0 -/
  npois : BitVec 16
  /-- NMMF. Table 13.10 0x020 [31:16]; reset 0 -/
  nmmf : BitVec 16
  /-- NBREAK. Table 13.10 0x024 [15:0]; reset 0 -/
  nbreak : BitVec 16
  /-- NMARK. Table 13.10 0x024 [31:16]; reset 0 -/
  nmark : BitVec 16
  /-- CAPT. Table 13.10 0x028, 0x02C; reset 0 -/
  capt : Nat
  /-- LASTARG. Table 13.10 0x030; reset 0 -/
  lastarg : Word
  /-- NDISC. Table 13.10 0x034 [15:0]; reset 0 -/
  ndisc : BitVec 16
  /-- NERR. Table 13.10 0x034 [31:16]; reset 0 -/
  nerr : BitVec 16
  /-- NREQ. Table 13.10 0x038 [15:0]; reset 0 -/
  nreq : BitVec 16
  /-- the frame a master sends; reset none -/
  mframe : Option MFrame
  /-- the CS_n a master holds asserted after a CONT frame (R363); reset none -/
  held : Option Nat
  /-- physical instant before which no select may assert again (R363); reset 0 -/
  freeAt : Nat
  /-- the frame a RAW slave serves; reset none -/
  sframe : Option SFrame
  /-- transmit FIFO of a slave, with the poison mark, at most 16 (R368); reset empty -/
  txf : List (Word × Bool)
  /-- bytes of the transmit word in progress (R367); reset empty -/
  txb : List Byte
  /-- received words not yet written to RXQ, with their tags: the receive FIFO of a slave, at most 16 (R368), and what a
  master holds while RXQ has no credit (R364); reset empty -/
  rxf : List (Word × BitVec 4)
  /-- ORUN of the status byte. Table 13.4; reset 0 -/
  orun : Bool
  /-- URUN of the status byte. Table 13.4; reset 0 -/
  urun : Bool
  /-- words staged for the next captures or the next sweep, with the poison mark and the clock of staging (R378, R380);
  reset empty -/
  stage : List (Word × Bool × Nat)
  /-- staged words that the capture in progress has loaded (R378, R379); reset 0 -/
  loaded : Nat
  /-- the chain register: the words that the last capture or sweep loaded, in position order; reset empty -/
  reg : Words
  /-- the markers of that register's segments, in position order (R377, R380); reset empty -/
  marks : List (BitVec 16)
  /-- bytes the port drove in its last frame, status byte first for a slave; reset empty -/
  sent : List Byte
  deriving DecidableEq, Repr, Inhabited

/-- A port at reset. -/
def Port.reset : Port :=
  { st := .off, set := [0, 0, 0, 0], owner := 0, hive := false, mmf := false, inframe := false, lbu := false, nframe := 0, nskip := 0
    npause := 0, norun := 0, nurun := 0, npois := 0, nmmf := 0, nbreak := 0, nmark := 0, capt := 0, lastarg := 0
    ndisc := 0, nerr := 0, nreq := 0, mframe := none, held := none, freeAt := 0, sframe := none, txf := [], txb := []
    rxf := [], orun := false, urun := false, stage := [], loaded := 0, reg := [], marks := [], sent := [] }

end Sys2Proof.Machine
end

