-- ==== Sys2Proof/Machine/Parts/LineParts.lean ====
section
/-!
DEFINITION. Sys2Proof/Machine/Parts/LineParts.lean: the state of the line engines (spec/14_line_engines.md).
-/
namespace Sys2Proof.Machine

/-- What an engine waits for (WAITING, R399, R400, R402). -/
inductive EWait where
  | none
  /-- an AWAIT whose condition has not come -/
  | await
  /-- a blocking TAKE or GIVE -/
  | stall
  /-- a pin action in timed mode -/
  | timed
  deriving DecidableEq, Repr, Inhabited

/-- A line engine (Tables 14.1 and 14.8). -/
structure Engine where
  /-- STATE. Table 14.8 0x000 [1:0]; reset OFF -/
  st : UState
  /-- LOAD, 20 words: settings and PROG. Table 14.2, Table 14.8 0x040; reset 0 -/
  load : Words
  /-- PC. Table 14.1; reset 0 -/
  pc : BitVec 5
  /-- SR. Table 14.1; reset 0 -/
  sr : Word
  /-- SC, 0 to 32. Table 14.1; reset 0 -/
  sc : Nat
  /-- C0. Table 14.1; reset 0 -/
  c0 : BitVec 16
  /-- C1. Table 14.1; reset 0 -/
  c1 : BitVec 16
  /-- MARK, 64 bits. Table 14.1; reset 0 -/
  mark : Nat
  /-- EDGT, 64 bits. Table 14.1; reset 0 -/
  edgt : Nat
  /-- TO. Table 14.8 [5]; reset 0 -/
  tmo : Bool
  /-- STALE. Table 14.8 [4]; reset 0 -/
  stale : Bool
  /-- CONF. Table 14.8 [6]; reset 0 -/
  conf : Bool
  /-- TH. Table 14.1; reset 0 -/
  th : Word
  /-- FULL of TH. Table 14.8 [7]; reset 0 -/
  thFull : Bool
  /-- GH. Table 14.1; reset 0 -/
  gh : Word
  /-- FULL of GH. Table 14.8 [8]; reset 0 -/
  ghFull : Bool
  /-- OUTV. Table 14.8 0x020 [7:0]; reset 0 -/
  outv : Byte
  /-- OUTE. Table 14.8 0x020 [15:8]; reset 0 -/
  oute : Byte
  /-- NCONF. Table 14.8 0x024 [15:0]; reset 0 -/
  nconf : BitVec 16
  /-- NSTALE. Table 14.8 0x024 [31:16]; reset 0 -/
  nstale : BitVec 16
  /-- NSTALL. Table 14.8 0x028 [15:0]; reset 0 -/
  nstall : BitVec 16
  /-- NLATE. Table 14.8 0x028 [31:16]; reset 0 -/
  nlate : BitVec 16
  /-- CONFPIN. Table 14.8 0x02C; reset 0 -/
  confpin : Nat
  /-- LINE pins for which the engine is a loser (R389); reset none -/
  losing : List Nat
  /-- what it waits for. Table 14.8 [2]; reset nothing -/
  wait : EWait
  /-- first system clock in which it may execute its next instruction (R394, R399, R404); reset 0 -/
  at_ : Nat
  /-- clock that started with the first edge reaching MARK while a timed input action waits (R400); reset none -/
  hit : Option Nat
  deriving DecidableEq, Repr, Inhabited

/-- An engine at reset. -/
def Engine.reset : Engine :=
  { st := .off, load := List.replicate 20 0, pc := 0, sr := 0, sc := 0, c0 := 0, c1 := 0, mark := 0, edgt := 0
    tmo := false, stale := false, conf := false, th := 0, thFull := false, gh := 0, ghFull := false, outv := 0
    oute := 0, nconf := 0, nstale := 0, nstall := 0, nlate := 0, confpin := 0, losing := []
    wait := .none, at_ := 0, hit := none }

/-- What the LINE balls carry from one clock edge on, as far as the device drives them. -/
structure LineEdge where
  /-- physical instant of the edge -/
  phys : Nat
  /-- balls that are driven -/
  en : BitVec 48
  /-- their levels -/
  val : BitVec 48
  deriving DecidableEq, Repr, Inhabited

/-- The LINE balls and their synchronisers (R389, R391). -/
structure LineSt where
  /-- balls that the engines drive in the present clock. R389; reset none -/
  en : BitVec 48
  /-- the levels they drive; reset 0 -/
  val : BitVec 48
  /-- the last ten clock edges, newest first: what a capture of R391 finds on a driven ball; reset none -/
  edges : List LineEdge
  /-- levels that this clock has seen on balls that the board drives. R391; reset none -/
  seen : List (Nat × Bool)
  /-- the same for the clock before; reset none -/
  seenPrev : List (Nat × Bool)
  deriving DecidableEq, Repr, Inhabited

/-- The LINE balls at reset. -/
def LineSt.reset : LineSt := ⟨0, 0, [], [], []⟩

end Sys2Proof.Machine
end

