-- ==== Sys2Proof/Machine/Parts/JournalParts.lean ====
section
/-!
DEFINITION. Sys2Proof/Machine/Parts/JournalParts.lean: the state of the journal, the flash unit and the seal
(spec/16_journal_flash.md).
-/
namespace Sys2Proof.Machine

/-- The newest visible record of a key (R468, R471). -/
structure JEnt where
  /-- KEY -/
  key : Nat
  /-- LEN in bytes; 0 is a tombstone (R461) -/
  len : Nat
  /-- TEN -/
  ten : Nat
  /-- offset of the record in the journal area, in bytes -/
  off : Nat
  deriving DecidableEq, Repr, Inhabited

/-- A record in the gather buffer (R462). -/
structure GRec where
  /-- tenant that gathered it -/
  ten : Tid
  /-- KEY -/
  key : Nat
  /-- its LEN data bytes -/
  data : List Byte
  /-- it belongs to the group that is being committed -/
  busy : Bool
  deriving DecidableEq, Repr, Inhabited

/-- One change of the array: a program run or a sector erase at a flash offset (R450). -/
inductive JStep where
  | prog (off : Nat) (bytes : List Byte)
  | erase (off : Nat)
  deriving DecidableEq, Repr, Inhabited

/-- What an operation in RUN is (R453 to R455, R465). -/
inductive JKind where
  /-- a commit; true: of the orderly stop -/
  | commit (stop : Bool)
  | prog
  | erase
  deriving DecidableEq, Repr, Inhabited

/-- A suspension of an operation by reads of its bank (R456). -/
structure Susp where
  /-- physical instant at which the operation is suspended; it progresses until then -/
  at_ : Nat
  /-- physical instant at which it resumes -/
  until_ : Nat
  /-- a read has been served in it -/
  served : Bool
  deriving DecidableEq, Repr, Inhabited

/-- The operation that holds the journal in RUN. -/
structure JOp where
  /-- what it is -/
  kind : JKind
  /-- its issuer -/
  ten : Tid
  /-- the changes it makes, in order; empty for a commit that must first complete garbage collection (R465) -/
  steps : List JStep
  /-- where the group of a commit lies: sector of the area and offset in it -/
  at_ : Nat × Nat
  /-- physical instant by which it must end (R455) -/
  limit : Nat
  /-- the suspension asked for or in force (R456) -/
  susp : Option Susp
  /-- physical instant of the last resume; 0 before the first (R456) -/
  resumed : Nat
  deriving DecidableEq, Repr, Inhabited

/-- The journal (Table 16.7a), the gather buffer, the index and the seal. -/
structure JournalSt where
  /-- STATE. Table 16.7a 0x000 [2:0]; reset OFF until the decision of R154 -/
  st : UState
  /-- a scan runs since this physical instant (R474); reset none -/
  scan : Option Nat
  /-- SEALED: the fuse is burnt. Table 16.7a [4]; no reset clears it (R476); a new device is unsealed -/
  sealed : Bool
  /-- a seal burn runs since this physical instant (R476); reset none -/
  burn : Option Nat
  /-- hive time of the arming step. Table 16.7a [5]; reset none -/
  arm : Option Nat
  /-- DSLOT. Table 16.7a [15:8]; reset 0, DESIGN CHOICE, log entry 19 -/
  dslot : Nat
  /-- BASE. Table 16.7a 0x004 [10:0]; reset 0, DESIGN CHOICE, log entry 19 -/
  base : Nat
  /-- NSEC. Table 16.7a 0x004 [24:16]; 0 while no descriptor is valid; reset 0, DESIGN CHOICE, log entry 19 -/
  nsec : Nat
  /-- open sectors of the area, oldest first; the last is the head (section 16.7); reset none -/
  secs : List Nat
  /-- offset in the head sector at which the next group starts. HEAD of Table 16.7a 0x008; reset 0 -/
  hpos : Nat
  /-- SSEQ of the next sector opened; reset 0 -/
  sseq : Nat
  /-- GSEQ, next group sequence. Table 16.7a 0x00C; reset 0 -/
  gseq : Nat
  /-- ERASES known of sectors (Table 16.3); reset none -/
  ecount : List (Nat × Nat)
  /-- bad sectors (R470); reset none -/
  bad : List Nat
  /-- sectors with a header that is not valid, to be erased (section 16.7); reset none -/
  dirty : List Nat
  /-- the index, ascending KEY (R473); reset empty -/
  index : List JEnt
  /-- the gather buffer, in gather order (R462); reset empty (R464) -/
  gather : List GRec
  /-- garbage collection is due or in progress (R469); reset false -/
  gc : Bool
  /-- an index checkpoint is due (R471); reset false -/
  ckDue : Bool
  /-- the checkpoint sector in use, 0 or 1; reset none -/
  ckCur : Option Nat
  /-- CKSEQ of that checkpoint -/
  ckSeq : Nat
  /-- bytes of groups appended since the last checkpoint began (R471); reset 0 -/
  sinceCk : Nat
  /-- NCRC. Table 16.7a 0x020 [15:0]; reset 0 -/
  ncrc : BitVec 16
  /-- NBAD. Table 16.7a 0x020 [31:16]; reset 0 -/
  nbad : BitVec 16
  /-- NSUSP. Table 16.7a 0x024 [15:0]; reset 0 -/
  nsusp : BitVec 16
  /-- NREPAIR. Table 16.7a 0x024 [31:16]; reset 0 -/
  nrepair : BitVec 16
  /-- NCOMMIT. Table 16.7a 0x028; reset 0 -/
  ncommit : Word
  /-- the operation in RUN; reset none -/
  op : Option JOp
  /-- no background step runs: sleep entry step 2, or the orderly stop; reset false -/
  hold : Bool
  /-- step 2 of the orderly stop has committed its group (Table 7.5); reset false -/
  stopDone : Bool
  deriving DecidableEq, Repr, Inhabited

/-- The journal at reset. -/
def JournalSt.reset : JournalSt :=
  { st := .off, scan := none, sealed := false, burn := none, arm := none, dslot := 0, base := 0, nsec := 0
    secs := [], hpos := 0, sseq := 0, gseq := 0, ecount := [], bad := [], dirty := [], index := [], gather := []
    gc := false, ckDue := false, ckCur := none, ckSeq := 0, sinceCk := 0, ncrc := 0, nbad := 0, nsusp := 0
    nrepair := 0, ncommit := 0, op := none, hold := false, stopDone := false }

end Sys2Proof.Machine
end

