-- ==== Sys2Proof/Machine/Parts/HiveParts.lean ====
section
/-!
DEFINITION. Sys2Proof/Machine/Parts/HiveParts.lean: the state of the hive fabric (spec/15_hive_fabric.md).
Instants are hive times unless a field says otherwise.
-/
namespace Sys2Proof.Machine

/-- Where a frame's MAC source comes from (Table 15.7): the node's short address, or an extended address with the
frame counter that goes with it when the frame is relayed for another node. -/
inductive MacSrc where
  /-- the short address of this node -/
  | short
  /-- this node's UID -/
  | own
  /-- another node's UID and frame counter: a relayed frame with an extended source -/
  | relay (uid : Nat) (fc : Nat)
  deriving DecidableEq, Repr, Inhabited

/-- A hive frame without its MAC part (Tables 15.6 and 15.7). -/
structure HFrame where
  /-- TYPE -/
  typ : Nat
  /-- ORIG -/
  orig : Nat
  /-- FDEST -/
  fdest : Nat
  /-- E2E -/
  e2e : Bool
  /-- HLEFT -/
  hleft : Nat
  /-- HTAKEN -/
  htaken : Nat
  /-- SPORT -/
  sport : Byte
  /-- DPORT -/
  dport : Byte
  /-- MSEQ -/
  mseq : BitVec 16
  /-- body of Table 15.7 -/
  body : List Byte
  /-- MAC source -/
  src : MacSrc
  deriving DecidableEq, Repr, Inhabited

/-- What a sent frame is part of, and so what its failure does. -/
inductive TxFor where
  /-- a message of the transmit buffer, by its number -/
  | msg (id : Nat)
  /-- a DATA frame forwarded for its origin (R426) -/
  | forward
  /-- SREQ of the exchange in progress (R432) -/
  | sreq
  /-- a LEAVE frame of FLEAVE (R412) -/
  | leave
  /-- any other frame of the protocol -/
  | proto
  deriving DecidableEq, Repr, Inhabited

/-- A frame waiting for the radio, or for its acknowledgement. -/
structure TxEnt where
  /-- the frame -/
  f : HFrame
  /-- MAC destination: a node, or 0x7F for the broadcast short address -/
  dst : Nat
  /-- AR: an acknowledgement is requested -/
  ack : Bool
  /-- MAC sequence number -/
  seq : Byte
  /-- retries made -/
  tries : Nat
  /-- busy channel assessments of the present CSMA-CA run -/
  nb : Nat
  /-- backoff exponent: the next backoff is 0 to 2^be − 1 units (R409) -/
  be : Nat
  /-- physical instant at which the present CCA ends; none before its backoff begins -/
  ready : Option Nat
  /-- what it is part of -/
  for_ : TxFor
  deriving DecidableEq, Repr, Inhabited

/-- A lease entry (section 15.4). -/
structure Lease where
  /-- address -/
  addr : Nat
  /-- UID -/
  uid : Nat
  /-- expiry -/
  exp : Nat
  /-- a RENEW has been heard: the next five fields are its root information -/
  heard : Bool
  /-- own RPRIO of that node -/
  rprio : Nat
  /-- root RPRIO -/
  rootPrio : Nat
  /-- root UID -/
  rootUid : Nat
  /-- hops to root -/
  hops : Nat
  /-- flags: bit 0 tether master, bit 1 VALID -/
  flags : Byte
  /-- highest frame counter accepted, none before the first (R444) -/
  fc : Option Nat
  deriving DecidableEq, Repr, Inhabited

/-- A radio neighbour that is up (R419). -/
structure RadioNbr where
  /-- address -/
  addr : Nat
  /-- consecutive unicast frames to it that exhausted their retries -/
  fails : Nat
  deriving DecidableEq, Repr, Inhabited

/-- A frame that crosses the tether: its octets, PHR length first, and what it is part of. -/
structure TetherTx where
  octets : List Byte
  f : HFrame
  for_ : TxFor
  deriving DecidableEq, Repr, Inhabited

/-- A tether link (section 15.10): to the member at a position, or, at a member, to the master (position 0). -/
structure Peer where
  /-- position; 0 for the master -/
  pos : Nat
  /-- hive address learned from its frames; 0 before -/
  addr : Nat
  /-- the link is up (R440) -/
  up : Bool
  /-- consecutive sweeps of R440 with no valid segment or with LOST, at most 4 -/
  bad : Nat
  /-- consecutive sweeps with neither, at most 16 -/
  good : Nat
  /-- the next segment to it carries LOST (Table 15.14) -/
  lost : Bool
  /-- frames to send, the first in progress -/
  out : List TetherTx
  /-- octets of the first frame sent -/
  sent : Nat
  /-- the segment of the sweep before carried octets of the first frame, whose reception the sweep in progress tells -/
  unconf : Bool
  /-- the segment of the sweep in progress carries octets of it -/
  loaded : Bool
  /-- octets received of the frame in progress, length octet first -/
  rx : List Byte
  /-- a frame is in progress: FIRST has been seen -/
  rxOn : Bool
  deriving DecidableEq, Repr, Inhabited

/-- A frame as the radio sends it (R407, R408). -/
structure Air where
  /-- PSDU -/
  psdu : List Byte
  /-- HR mode; else STD -/
  hr : Bool
  /-- channel − 11 -/
  ch : Nat
  /-- TXPWR: −20 + TXPWR dBm -/
  pow : Nat
  /-- physical instant of the first chip -/
  start : Nat
  deriving DecidableEq, Repr, Inhabited

/-- A candidate route (R420). -/
structure RouteCand where
  /-- destination -/
  dest : Nat
  /-- next hop -/
  next : Nat
  /-- the link is the tether -/
  tlink : Bool
  /-- hops -/
  hops : Nat
  /-- last confirmed -/
  seen : Nat
  deriving DecidableEq, Repr, Inhabited

/-- A route-table entry (Table 15.8). -/
structure Route where
  /-- NEXT -/
  next : BitVec 7
  /-- TLINK -/
  tlink : Bool
  /-- HOPS -/
  hops : BitVec 3
  /-- PIN -/
  pin : Bool
  /-- VALID -/
  valid : Bool
  deriving DecidableEq, Repr, Inhabited

/-- A line of the route cache (R422). -/
structure CacheLine where
  /-- destination -/
  dest : BitVec 7
  /-- NEXT -/
  next : BitVec 7
  /-- TLINK -/
  tlink : Bool
  /-- valid -/
  valid : Bool
  /-- fill time -/
  fill : Nat
  deriving DecidableEq, Repr, Inhabited

/-- A fabric-port mapping (R427). -/
structure FMap where
  port : Byte
  queue : QueueId
  owner : Tid
  deriving DecidableEq, Repr, Inhabited

/-- A message of the transmit buffer (R424, R425). -/
structure HMsg where
  /-- number of the message (model's own) -/
  id : Nat
  /-- DEST -/
  dest : Nat
  /-- E2E -/
  e2e : Bool
  /-- MTAG -/
  tag : BitVec 16
  /-- issuer -/
  owner : Tid
  /-- frames of a broadcast still to be sent -/
  left : Nat
  /-- hive time at which it was first sent -/
  sentAt : Option Nat
  /-- burst parameters of a WAG message: channel and mode (WCH), and 2 ms frames (WDUR × 4) -/
  wag : Option (Nat × Nat)
  deriving DecidableEq, Repr, Inhabited

/-- A waggle burst in progress (R446). -/
structure Burst where
  /-- message that it belongs to -/
  id : Nat
  /-- WCH -/
  wch : Nat
  /-- frames still to send -/
  left : Nat
  /-- physical instant of the next frame, or of the end -/
  next : Nat
  deriving DecidableEq, Repr, Inhabited

/-- A key of the duplicate cache (R417): UID or ORIG, TYPE, MSEQ, and when it entered. -/
structure DupKey where
  ext : Bool
  who : Nat
  typ : Nat
  mseq : BitVec 16
  at_ : Nat
  deriving DecidableEq, Repr, Inhabited

/-- A flooded frame waiting to be relayed (R417): when, and the link it came on. -/
structure RelayDue where
  f : HFrame
  due : Nat
  /-- it came on the radio -/
  radio : Bool
  /-- position of the tether peer it came from -/
  pos : Nat
  deriving DecidableEq, Repr, Inhabited

/-- An SREQ to answer (R432). -/
structure SrespDue where
  child : Nat
  t1 : Nat
  t2 : Nat
  due : Nat
  tries : Nat
  deriving DecidableEq, Repr, Inhabited

/-- The child's exchange in progress (R432, R433). -/
structure Exchange where
  /-- t1 as written in the last SREQ sent -/
  t1 : Nat
  /-- the SREQ was retried, or a capture fell in the exchange -/
  spoiled : Bool
  deriving DecidableEq, Repr, Inhabited

/-- An exact rational, its denominator not zero. -/
structure Frac where
  num : Int
  den : Nat
  deriving DecidableEq, Repr, Inhabited

/-- The hive (Table 15.15). -/
structure HiveSt where
  /-- STATE. Table 15.15 0x000 [2:0]; reset OFF -/
  st : UState
  /-- the join block, four words. Table 15.4; reset 0 -/
  join : Words
  /-- issuer of FJOIN; reset T0 -/
  owner : Tid
  /-- ADDR, the address held; 0 none. Table 15.15 0x000 [14:8]; reset 0 -/
  addr : Nat
  /-- hive time of step 3 of the swarm call in progress, t0 + 100 ms (R413); reset 0 -/
  claimAt : Nat
  /-- the address claimed (R414); reset 0 -/
  cand : Nat
  /-- CLAIMs sent in this attempt, 0 to 3; reset 0 -/
  claims : Nat
  /-- the claim has met a DEFEND or a lower UID's CLAIM; reset false -/
  beaten : Bool
  /-- addresses that attempts of this FJOIN have failed on; reset none -/
  failed : List Nat
  /-- the lease table. Section 15.4; reset empty -/
  leases : Vector (Option Lease) 126
  /-- radio neighbours that are up; reset none -/
  nbrs : List RadioNbr
  /-- tether links; reset none -/
  peers : List Peer
  /-- candidate routes (R420); reset none -/
  cands : List RouteCand
  /-- the route table. Table 15.8; reset 0 -/
  routes : Vector Route 128
  /-- the route cache. R422; reset 0 -/
  cache : Vector CacheLine 32
  /-- cache lines in order of use, most recent first (R422); reset 0 to 31 -/
  lru : List Nat
  /-- fabric-port mappings (R427); reset none -/
  fmap : List FMap
  /-- messages in the transmit buffer, at most 32 (R424); reset none -/
  msgs : List HMsg
  /-- number of the next message (model's own); reset 0 -/
  nextMsg : Nat
  /-- frames waiting for the radio, in order; reset none -/
  txq : List TxEnt
  /-- the frame whose acknowledgement is awaited, and the physical instant at which the wait ends; reset none -/
  await : Option (TxEnt × Nat)
  /-- physical instant at which the radio's transmission ends; reset 0 -/
  busyTo : Nat
  /-- tenant of that transmission (Table 6.7); reset T0 -/
  busyFor : Tid
  /-- the last frame the radio sent (R407, R408); reset empty -/
  air : Air
  /-- the frame on air that awaits no acknowledgement: broadcast or not, what it is part of, and the physical instant at
  which it ends (R412, R425); reset none -/
  sending : Option (Bool × TxFor × Nat)
  /-- next frame counter, from FCSTART. R443; above 2^32 − 1 it is exhausted; reset 0 -/
  fc : Nat
  /-- next MAC sequence number; reset 0, DESIGN CHOICE, log entry 23 -/
  seq : Byte
  /-- MSEQ of the node's next protocol frame; reset 0, DESIGN CHOICE, log entry 23 -/
  mseq : BitVec 16
  /-- the duplicate cache, at most 64, newest first (R417); reset empty -/
  dups : List DupKey
  /-- relays that wait (R417); reset none -/
  relays : List RelayDue
  /-- when the CALLs heard are to be answered, each with a RENEW of its own (R413); reset none -/
  renewDue : List Nat
  /-- index of the last scheduled RENEW (R416); reset 0 -/
  renewIx : Nat
  /-- time of the last ROUTEADV; reset 0 -/
  advAt : Nat
  /-- the route table has changed since (R420); reset false -/
  advNew : Bool
  /-- root of R430: RPRIO and UID; reset 0 and 0 -/
  rootPrio : Nat
  rootUid : Nat
  /-- index of the last sync period (R432, R441); reset 0 -/
  syncIx : Nat
  /-- delays of this period's SREQ by a busy channel, at most 3, and the physical instant it may be tried again; none
  when no SREQ is due; reset none -/
  sreq : Option (Nat × Nat)
  /-- the exchange in progress; reset none -/
  exch : Option Exchange
  /-- SREQs to answer; reset none -/
  sresp : List SrespDue
  /-- f of R434; reset 0, and 0 at FJOIN (R411) -/
  freq : Frac
  /-- hive time of the last valid sample; reset none -/
  lastSample : Option Nat
  /-- sum of 2θ over the time segments of this period, and their number (R441); reset 0 -/
  tsum : Int
  tcount : Nat
  /-- CAPT of the capture in progress and of the one before (R441); reset none -/
  captNow : Option Nat
  /-- the link toward the sweeper as it was before the capture in progress (R379); reset none -/
  peerWas : Option Peer
  captPrev : Option Nat
  /-- master: hive time of the SEL assertion of the sweep in progress and of the one before (Table 15.14); reset none -/
  selNow : Option Nat
  selPrev : Option Nat
  /-- master: release of the last sweep, and whether it carried a data segment in (R439); reset 0 and false -/
  sweepRel : Nat
  sweepData : Bool
  /-- master: hive time over 192,000 at the last sweep; reset 0 -/
  sweepIx : Nat
  /-- member: 1 ms periods: physical instant of the last latch or counted period (R440); reset 0 -/
  latchAt : Nat
  /-- the waggle burst in progress; reset none -/
  burst : Option Burst
  /-- LEAVE frames are being sent: the address left; reset none (R412) -/
  leaving : Option Nat
  /-- LINKWHY. Table 15.15 0x000 [31:28]; reset 0 -/
  linkwhy : BitVec 4
  /-- NTX. Table 15.15 0x020 [15:0]; reset 0 -/
  ntx : BitVec 16
  /-- NRX. Table 15.15 0x020 [31:16]; reset 0 -/
  nrx : BitVec 16
  /-- CAPTURE_DROP. Table 15.15 0x024 [15:0]; reset 0 -/
  ncapt : BitVec 16
  /-- NRETRY. Table 15.15 0x024 [31:16]; reset 0 -/
  nretry : BitVec 16
  /-- NMIC. Table 15.15 0x028 [15:0]; reset 0 -/
  nmic : BitVec 16
  /-- NREPLAY. Table 15.15 0x028 [31:16]; reset 0 -/
  nreplay : BitVec 16
  /-- NFOREIGN. Table 15.15 0x02C [15:0]; reset 0 -/
  nforeign : BitVec 16
  /-- NCOLL. Table 15.15 0x02C [31:16]; reset 0 -/
  ncoll : BitVec 16
  /-- NRXDROP. Table 15.15 0x030 [15:0]; reset 0 -/
  nrxdrop : BitVec 16
  /-- NSYNCBAD. Table 15.15 0x030 [31:16]; reset 0 -/
  nsyncbad : BitVec 16
  /-- NACKFROM. Table 15.15 0x034 [6:0]; reset 0 -/
  nackFrom : BitVec 7
  /-- NACKWHY. Table 15.15 0x034 [15:8]; reset 0 -/
  nackWhy : Byte
  /-- NACKTAG. Table 15.15 0x034 [31:16]; reset 0 -/
  nackTag : BitVec 16
  /-- THETA. Table 15.15 0x038; reset 0 -/
  theta : Word
  deriving DecidableEq, Repr, Inhabited

/-- An unused route-table entry. -/
def Route.none : Route := ⟨0, false, 0, false, false⟩

/-- An invalid cache line. -/
def CacheLine.none : CacheLine := ⟨0, 0, false, false, 0⟩

/-- The hive at reset. -/
def HiveSt.reset : HiveSt :=
  { st := .off, join := [0, 0, 0, 0], owner := 0, addr := 0, claimAt := 0, cand := 0, claims := 0, beaten := false
    failed := [], leases := Vector.replicate 126 Option.none, nbrs := [], peers := [], cands := []
    routes := Vector.replicate 128 Route.none, cache := Vector.replicate 32 CacheLine.none, lru := List.range 32
    fmap := [], msgs := [], nextMsg := 0, txq := [], await := Option.none, busyTo := 0, busyFor := 0
    air := ⟨[], false, 0, 0, 0⟩, sending := Option.none
    fc := 0, seq := 0, mseq := 0, dups := [], relays := [], renewDue := [], renewIx := 0, advAt := 0
    advNew := false, rootPrio := 0, rootUid := 0, syncIx := 0, sreq := Option.none, exch := Option.none, sresp := []
    freq := ⟨0, 1⟩, lastSample := Option.none, tsum := 0, tcount := 0, captNow := Option.none, peerWas := Option.none, captPrev := Option.none
    selNow := Option.none, selPrev := Option.none, sweepRel := 0, sweepData := false, sweepIx := 0, latchAt := 0
    burst := Option.none, leaving := Option.none, linkwhy := 0, ntx := 0, nrx := 0, ncapt := 0, nretry := 0, nmic := 0
    nreplay := 0, nforeign := 0, ncoll := 0, nrxdrop := 0, nsyncbad := 0, nackFrom := 0, nackWhy := 0, nackTag := 0
    theta := 0 }

end Sys2Proof.Machine
end

