-- ==== Sys2Proof/Machine/Parts/PadParts.lean ====
section
/-!
DEFINITION. Sys2Proof/Machine/Parts/PadParts.lean: the digital balls (Table 18.3) and the state of the TAP (section 18.7).
-/
namespace Sys2Proof.Machine

/-- The digital balls of Table 18.4 that have scan cells. -/
inductive Ball where
  | srqClk | srqDat | srqAck | pgood | resetN | mode | testEn | wakeOut | thermN
  /-- PORT_p_SCK -/
  | sck (p : PortId)
  /-- PORT_p_STB -/
  | stb (p : PortId)
  /-- PORT_0_CS, PORT_1_CS_n, PORT_2_SEL -/
  | cs (p : PortId) (n : Fin 4)
  /-- PORT_p_D_n -/
  | d (p : PortId) (n : Fin 8)
  | alert | sdi | sdo
  | evt (n : Fin 8)
  | line (n : Fin 48)
  /-- the balls of the TAP, which have no cells -/
  | tck | tms | tdi | tdo | trstN
  deriving DecidableEq, Repr, Inhabited

/-- The TAP instruction in force (Table 18.6). -/
inductive TapInstr where
  | extest | sample | idcode | clamp | highz | priv | bypass
  deriving DecidableEq, Repr, Inhabited

/-- The TAP (section 18.7). -/
structure TapSt where
  /-- instruction in force. R513; reset IDCODE -/
  ir : TapInstr
  /-- the cells of the boundary register as last updated, 0 to 258. R515; reset 0, DESIGN CHOICE, log entry 41 -/
  cells : List Bool
  /-- the pull of each ball when EXTEST, CLAMP or HIGHZ was updated. R516; reset none -/
  pulls : List Nat
  /-- bits that the last instruction or data register scan put out on TDO, first bit first; reset empty -/
  tdo : List Bool
  deriving DecidableEq, Repr, Inhabited

/-- The TAP in Test-Logic-Reset. -/
def TapSt.reset : TapSt := ⟨.idcode, List.replicate 259 false, [], []⟩

end Sys2Proof.Machine
end

