-- ==== Sys2Proof/Machine/Bits.lean ====
section
/-!
DEFINITION. Sys2Proof/Machine/Bits.lean: bit fields, sign extension, saturation and byte order.
All multi-byte quantities are little-endian (R10).
-/
namespace Sys2Proof.Machine

/-- Bit `i` of a word. -/
def bitOf (w : Word) (i : Nat) : Bool := w.getLsbD i

/-- The field `[hi:lo]` of a word, as a natural number. -/
def fieldOf (w : Word) (hi lo : Nat) : Nat := (w.toNat / 2 ^ lo) % 2 ^ (hi + 1 - lo)

/-- A Bool as the number 0 or 1. -/
def bit01 (b : Bool) : Nat := if b then 1 else 0

/-- A word with `v` placed at bit `lo` (fields do not overlap where this is summed). -/
def put (v lo : Nat) : Nat := v * 2 ^ lo

/-- The number whose bit `i` is `f i`, for `i` below a width. -/
def natOfBits (f : Nat → Bool) : Nat → Nat
  | 0 => 0
  | n + 1 => natOfBits f n + put (bit01 (f n)) n

/-- Saturating increment of a counter of any width. -/
def satInc {n : Nat} (b : BitVec n) : BitVec n := if b = BitVec.allOnes n then b else b + 1

/-- Saturating addition of a number to a counter of any width. -/
def satAdd {n : Nat} (b : BitVec n) (k : Nat) : BitVec n :=
  if b.toNat + k < 2 ^ n then BitVec.ofNat n (b.toNat + k) else BitVec.allOnes n

/-- A signed value saturated to `n` bits, two's complement. -/
def satInt (n : Nat) (i : Int) : Int :=
  if i < -(2 ^ (n - 1) : Nat) then -(2 ^ (n - 1) : Nat)
  else if ((2 ^ (n - 1) : Nat) : Int) - 1 < i then ((2 ^ (n - 1) : Nat) : Int) - 1 else i

/-- Whether a signed value lies in the `n`-bit two's complement range. -/
def fitsInt (n : Nat) (i : Int) : Bool := satInt n i == i

/-- A word from a signed value, wrapping. -/
def wordOfInt (i : Int) : Word := BitVec.ofInt 32 i

/-- The signed value of a field of `n` bits held in a natural number. -/
def signed (n v : Nat) : Int := (BitVec.ofNat n v).toInt

/-- The four bytes of a word, lowest address first (R10). -/
def wordBytes (w : Word) : List Byte :=
  [BitVec.ofNat 8 w.toNat, BitVec.ofNat 8 (w.toNat / 256), BitVec.ofNat 8 (w.toNat / 65536),
   BitVec.ofNat 8 (w.toNat / 16777216)]

/-- A natural number from bytes, lowest first. -/
def leNat : List Byte → Nat
  | [] => 0
  | b :: r => b.toNat + 256 * leNat r

/-- The `n` low bytes of a natural number, lowest first. -/
def leBytes : Nat → Nat → List Byte
  | 0, _ => []
  | n + 1, v => BitVec.ofNat 8 v :: leBytes n (v / 256)

/-- A word from its bytes, lowest first. -/
def wordOfBytes (l : List Byte) : Word := toWord (leNat l)

/-- A list of words as bytes. -/
def bytesOfWords (l : Words) : List Byte := l.flatMap wordBytes

/-- Bytes gathered into words; a last run shorter than four bytes is padded with zero. -/
def wordsOfBytes : List Byte → Words
  | a :: b :: c :: d :: r => wordOfBytes [a, b, c, d] :: wordsOfBytes r
  | [] => []
  | l => [wordOfBytes l]

/-- Element `i` of a list of words, zero past its end. -/
def wordAt (l : Words) (i : Nat) : Word := l.getD i 0

/-- The bits `lo` to `hi` of a word are zero. -/
def zeroBits (w : Word) (hi lo : Nat) : Bool := fieldOf w hi lo == 0

/-- A word of two 16-bit fields. -/
def b16 (lo hi : BitVec 16) : Word := toWord (lo.toNat + put hi.toNat 16)

/-- Division of a signed value rounded to nearest, ties toward plus infinity: an added half, then an
arithmetic shift (R66). -/
def roundShift (i : Int) (k : Nat) : Int := (i + (2 ^ (k - 1) : Nat)) / (2 ^ k : Nat)

/-- The lower of two optional instants. -/
def minOpt : Option Nat → Option Nat → Option Nat
  | none, b => b
  | a, none => a
  | some a, some b => some (min a b)

/-- Map over a list with the index. -/
def mapIdxFrom {α β : Type} (f : Nat → α → β) : Nat → List α → List β
  | _, [] => []
  | i, a :: r => f i a :: mapIdxFrom f (i + 1) r

/-- The numbers `a` to `a + n - 1`. -/
def upFrom : Nat → Nat → List Nat
  | _, 0 => []
  | a, n + 1 => a :: upFrom (a + 1) n

end Sys2Proof.Machine
end

