-- ==== Sys2Proof/Machine/Vec.lean ====
section
/-!
DEFINITION. Sys2Proof/Machine/Vec.lean: reading, writing and mapping fixed-size vectors, by way of their lists so
that Lean's kernel evaluates them.
-/
namespace Sys2Proof.Machine

variable {α β : Type} {n : Nat}

/-- Element `i`. -/
def vget (v : Vector α n) (i : Fin n) : α := v[i.val]'i.isLt

/-- The vector with element `i` replaced. -/
def vset (v : Vector α n) (i : Fin n) (x : α) : Vector α n := v.set i.val x i.isLt

/-- Every element mapped. -/
def vmap (f : α → β) (v : Vector α n) : Vector β n := ⟨⟨v.toList.map f⟩, by simp⟩

/-- The vector with element `i` changed by a function. -/
def vmod (v : Vector α n) (i : Fin n) (f : α → α) : Vector α n := vset v i (f (vget v i))

/-- Element number `i`, or a default past the end. -/
def vgetD (v : Vector α n) (i : Nat) (d : α) : α := v.toList.getD i d

/-- The vector with element number `i` replaced, unchanged past the end. -/
def vsetD (v : Vector α n) (i : Nat) (x : α) : Vector α n := if h : i < n then v.set i x h else v

/-- The indices of the elements that pass a test, ascending. -/
def vfind (v : Vector α n) (p : α → Bool) : List Nat :=
  (mapIdxFrom (fun i a => (i, p a)) 0 v.toList).filterMap (fun x => if x.2 then some x.1 else none)

/-- The register named by a 4-bit field. -/
def regIx (r : BitVec 4) : Fin 16 := ⟨r.toNat, r.isLt⟩

/-- A natural number as a `Fin n`, modulo n. -/
def finOf (n : Nat) [NeZero n] (k : Nat) : Fin n := Fin.ofNat n k

end Sys2Proof.Machine
end

