-- ==== Sys2Proof/Machine/State.lean ====
section
/-!
DEFINITION. Sys2Proof/Machine/State.lean: the whole state of the GX-7256, and the state right after a power-on
reset has begun.
-/
namespace Sys2Proof.Machine

/-- Why the block stops with a fault. -/
inductive Fault where
  /-- Raised by TAP_PRIVATE with TEST_EN high: the codes 0x5 to 0xE are factory instructions there, whose effect
  the manual does not give (R513). Safe: the model stops where the device goes on. -/
  | factoryTap
  /-- Raised by IO_BANK_SUPPLY_CHANGE when VIO_H leaves its range where R482 forbids it: the device is then in an
  undefined state until PGOOD falls (R489). Safe: the model stops where the device goes on. -/
  | undefinedSupply
  deriving DecidableEq, Repr

/-- Why the block refuses a command. -/
inductive Refusal where
  /-- The command has no meaning in this model yet. Safe: the model stops where the device goes on. -/
  | notModelled (mnemonic : String)
  deriving DecidableEq, Repr

/-- A word of SRAM, comb buffer or queue RAM that holds an error under its SECDED code (R26). -/
structure EccMark where
  /-- address of the word -/
  addr : Nat
  /-- true: two bits are wrong -/
  dbl : Bool
  /-- the data bits that read flipped -/
  flips : Word
  deriving DecidableEq, Repr, Inhabited

/-- Counters of the memory window (R527). -/
structure EccCnt where
  /-- single-bit errors corrected in code SRAM. R527 0x000 [15:0]; reset 0 -/
  codeCorr : BitVec 16
  /-- the same for data SRAM. R527 0x000 [31:16]; reset 0 -/
  dataCorr : BitVec 16
  /-- double-bit errors in code SRAM. R527 0x004 [15:0]; reset 0 -/
  codeDbl : BitVec 16
  /-- the same for data SRAM. R527 0x004 [31:16]; reset 0 -/
  dataDbl : BitVec 16
  deriving DecidableEq, Repr, Inhabited

/-- What the stores of the present clock have replaced: every core and unit still reads it until the next clock (R25). -/
structure Unseen where
  /-- the bytes as they were; reset none -/
  bytes : List Host.Cell
  /-- the error marks as they were; reset none -/
  marks : List EccMark
  deriving DecidableEq, Repr, Inhabited

/-- What status windows show: the values at the start of the present clock (R528). -/
structure Shown where
  ctx : Vector (Option Saved) 16
  bindings : Vector (Option Binding) 256
  tenants : Vector Tenant 32
  eccCnt : EccCnt
  time : TimeSt
  boot : BootSt
  level : LevelSt
  sleep : SleepSt
  therm : ThermSt
  sensors : Vector Sensor 11
  aouts : Vector Aout 4
  lanes : Vector Lane 24
  recogs : Vector Recog 14
  rings : Vector Ring 64
  comb : CombSt
  queues : Vector Queue 64
  ports : Vector Port 3
  engines : Vector Engine 8
  lines : LineSt
  journal : JournalSt
  hive : HiveSt
  deriving DecidableEq, Repr

/-- The state of the device. -/
structure State where
  /-- the five cores. Table 1.2 -/
  cores : Vector Core 5
  /-- the context store of 16 entries. R42; reset empty -/
  ctx : Vector (Option Saved) 16
  /-- order number of the next saved invocation (model's own, R39); reset 0 -/
  ctxOrder : Nat
  /-- the 256 bindings. Table 1.7; reset free -/
  bindings : Vector (Option Binding) 256
  /-- tag of the next binding installed (model's own, R44); reset 0 -/
  bindSerial : Nat
  /-- tenants T0 to T31. R99, Table 3.9; reset VACANT -/
  tenants : Vector Tenant 32
  /-- TIMER_0 to TIMER_7. R80; reset disarmed -/
  timers : Vector Timer 8
  /-- events raised in the present clock, oldest first. R38, section 1.8 Edges; reset none -/
  raised : List Raised
  /-- SRAM banks accessed in the present clock and by which core: code SRAM 0 to 3, data SRAM 4 to 11. R24; reset none -/
  bankUse : List (CoreId × Nat)
  /-- what the rules put in the next clock, in order. R172, R179, R184, R350, R405; reset none -/
  later : List Later
  /-- events of a unit's own that an instruction of this clock has let act before it, though their commands still
  wait. R95; reset none -/
  early : List Instr
  /-- the loader. R116; reset idle -/
  loader : Option Loader
  /-- the packet decoder. Section 13.6; reset idle -/
  host : HostSt
  /-- memory of the whole address space in canonical form. Table 19.5; reset nothing listed -/
  mem : List Host.Cell
  /-- what the stores of this clock have replaced. R25; reset nothing -/
  unseen : Unseen
  /-- what status windows show in this clock. R528; reset none: the present values -/
  shown : Option Shown
  /-- words that hold an error. R26; reset none -/
  ecc : List EccMark
  /-- error counters. R527; reset 0 -/
  eccCnt : EccCnt
  /-- instruction cache: the tags of each of 512 sets, most recently used first, at most 4. R23; reset empty -/
  icache : Vector (List Nat) 512
  /-- clock, time and reset regime. Section 5.3 -/
  time : TimeSt
  /-- start-up. Chapter 4 -/
  boot : BootSt
  /-- levels and supply link. Sections 5.4 to 5.8 -/
  level : LevelSt
  /-- sleep, wake, domains, pad holds. Chapter 6 -/
  sleep : SleepSt
  /-- thermal unit. Chapter 7 -/
  therm : ThermSt
  /-- sensors by INST: ACC_A, ACC_B, GYRO, EXT_0 to EXT_7. Tables 8.5, 9.7 -/
  sensors : Vector Sensor 11
  /-- the alignment matrix M of ACC_B to ACC_A, Q30, row-major. R254, R475; reset identity, loaded at release -/
  align : Words
  /-- consecutive plausibility misses. R258; reset 0 -/
  plausRun : Nat
  /-- AOUT_0 to AOUT_3. Table 9.9 -/
  aouts : Vector Aout 4
  /-- VAOUT in millivolts, an input (R284); reset 3300, DESIGN CHOICE, log entry 13 -/
  vaout : Nat
  /-- levels of EVT_0 to EVT_7, bit b for EVT_b: those of the decisions of the clock before (R323, R324); reset 0 -/
  evtBalls : BitVec 8
  /-- VAON in millivolts, a supply (R482, R486); reset 800, DESIGN CHOICE, log entry 116 -/
  vaon : Nat
  /-- LANE_0 to LANE_23. Table 10.9 -/
  lanes : Vector Lane 24
  /-- recognizers by INST. Table 11.8 -/
  recogs : Vector Recog 14
  /-- rings 0 to 63. Table 11.9 -/
  rings : Vector Ring 64
  /-- comb buffer controller. Table 11.10 -/
  comb : CombSt
  /-- Q_0 to Q_63. Table 12.4 -/
  queues : Vector Queue 64
  /-- PORT_0 to PORT_2. Table 13.10 -/
  ports : Vector Port 3
  /-- LE_0 to LE_7. Table 14.8 -/
  engines : Vector Engine 8
  /-- the LINE balls and their synchronisers. R389, R391 -/
  lines : LineSt
  /-- the journal and the seal. Table 16.7a -/
  journal : JournalSt
  /-- the hive fabric. Table 15.15 -/
  hive : HiveSt
  /-- VIO_H in millivolts, an input (R216, R482); reset 1800, DESIGN CHOICE, log entry 42 -/
  vioH : Nat
  /-- VIO_L in millivolts, an input (R216, R482); reset 3300, DESIGN CHOICE, log entry 42 -/
  vioL : Nat
  /-- the TAP. Section 18.7 -/
  tap : TapSt
  /-- index of the next free value (model's own, log entry 2); reset 0, DESIGN CHOICE -/
  free : Nat
  /-- commands waiting, first in first out (the block's queue); reset empty -/
  pending : List Instr
  deriving DecidableEq, Repr

/-- Flags at reset (Table 1.3). -/
def Flags.zero : Flags := ⟨false, false, false, false, false, false, 0, 0, 0, 0⟩

/-- Registers at reset: every register and FL hold zero (section 1.8, Edges). -/
def Regs.zero : Regs :=
  ⟨Vector.replicate 16 0, Vector.replicate 8 ⟨0, 0, 0⟩, 0, Flags.zero, [], 0, 0⟩

/-- A core at reset. -/
def Core.idle : Core := ⟨Regs.zero, none, none, false, false, 0, 0, [], false⟩

/-- A tenant at reset (Table 3.9). -/
def Tenant.vacant : Tenant :=
  ⟨.vacant, 0, 0, false, 0, 0, 0, 0, 0, 0, 0, 0, 0, 0, 0, 0, Vector.replicate 24 0, false⟩

/-- A disarmed timer. -/
def Timer.off : Timer := ⟨.off, 0, 0, 0, none, none⟩

/-- The packet decoder at reset. -/
def HostSt.reset : HostSt := ⟨false, false, false, false, false, false, none, none, [], none, [], 0⟩

/-- The clock at a power-on reset: the release point lies 150 microseconds after PGOOD (Table 4.2). -/
def TimeSt.reset : TimeSt := ⟨.releasing, 0, 0, 0, 0, 0, false, false, 0, 0, 0, 2048, some 28800, false⟩

/-- Start-up state at a power-on reset (Tables 4.3 and 4.6). -/
def BootSt.reset : BootSt :=
  ⟨0, 0, 0, false, false, 1, 0, 7, 0, false, 0, 0, .start, 0, 0, [], false, 3, List.replicate 8 0, [], [], none⟩

/-- The level unit at a power-on reset (Table 5.6). -/
def LevelSt.reset : LevelSt :=
  ⟨1, 1, false, 3, 3, false, 2, 1, 0x28, 0, 0, 0, none, false, [], none, some 28800⟩

/-- An empty armed set. -/
def ArmedSet.empty : ArmedSet := ⟨0, [], 0, false, 0, 0, [], [], 0, 0, 0⟩

/-- Sleep and pad state at a power-on reset (Tables 6.9, 6.12, 6.14; R193). -/
def SleepSt.reset : SleepSt :=
  ⟨0xFFF, Vector.replicate 12 none, 0, 0, ArmedSet.empty, none, ⟨1, false, false, 0, 0, 0, 0, 0, 0, 0⟩,
   ⟨Vector.replicate 6 0, Vector.replicate 5 0, 0, 0, 0, 0, 0, 0⟩, 0, [], false, false, 0, 0⟩

/-- The thermal unit at a power-on reset (Tables 7.6, 7.7). -/
def ThermSt.reset : ThermSt :=
  ⟨Vector.replicate 6 0, Vector.replicate 6 true, Vector.replicate 6 0, Vector.replicate 6 false, 0, 0, 95,
   false, false, false, false, 0, 0, none, [], none, ⟨0, 0, false, false, false, 0, 0, 0, 0, 0, 0, 0⟩, false, false, false⟩

/-- The identity matrix in Q30. -/
def identityM : Words := [0x40000000, 0, 0, 0, 0x40000000, 0, 0, 0, 0x40000000]

/-- The machine right after PGOOD has risen: a power-on reset has begun (R130, Table 4.2). -/
def State.reset : State where
  cores := Vector.replicate 5 Core.idle
  ctx := Vector.replicate 16 none
  ctxOrder := 0
  bindings := Vector.replicate 256 none
  bindSerial := 0
  tenants := Vector.replicate 32 Tenant.vacant
  timers := Vector.replicate 8 Timer.off
  raised := []
  bankUse := []
  later := []
  early := []
  loader := none
  host := HostSt.reset
  mem := []
  unseen := ⟨[], []⟩
  shown := none
  ecc := []
  eccCnt := ⟨0, 0, 0, 0⟩
  icache := Vector.replicate 512 []
  time := TimeSt.reset
  boot := BootSt.reset
  level := LevelSt.reset
  sleep := SleepSt.reset
  therm := ThermSt.reset
  sensors := Vector.replicate 11 Sensor.reset
  align := identityM
  plausRun := 0
  aouts := Vector.replicate 4 Aout.reset
  vaout := 3300
  vaon := 800
  evtBalls := 0
  lanes := Vector.replicate 24 Lane.reset
  recogs := Vector.replicate 14 Recog.reset
  rings := Vector.replicate 64 Ring.reset
  comb := CombSt.reset
  queues := Vector.replicate 64 Queue.reset
  ports := Vector.replicate 3 Port.reset
  engines := Vector.replicate 8 Engine.reset
  lines := LineSt.reset
  journal := JournalSt.reset
  hive := HiveSt.reset
  vioH := 1800
  vioL := 3300
  tap := TapSt.reset
  free := 0
  pending := []

end Sys2Proof.Machine
end

