-- ==== Sys2Proof/Machine/Flags.lean ====
section
/-!
DEFINITION. Sys2Proof/Machine/Flags.lean: the flag word FL and every flag computation of Tables 2.5 and 2.6.
-/
namespace Sys2Proof.Machine

/-- FL as software reads it (Table 1.3). -/
def Flags.toWord (f : Flags) : Word :=
  Sys2Proof.toWord (bit01 f.z + put (bit01 f.n) 1 + put (bit01 f.c) 2 + put (bit01 f.v) 3 + put (bit01 f.q) 4 +
    put (bit01 f.p) 5 + put f.stat.toNat 8 + put f.ten.toNat 16 + put f.core.toNat 21 + put f.prio.toNat 24)

/-- Z and N of a result. -/
def Flags.zn (f : Flags) (r : Word) : Flags := { f with z := r == 0, n := r.msb }

/-- Q, sticky. -/
def Flags.orQ (f : Flags) (q : Bool) : Flags := { f with q := f.q || q }

/-- FL.STAT written (R20). -/
def Flags.setStat (f : Flags) (st : BitVec 8) : Flags := { f with stat := st }

/-- Sum with its carry and signed overflow, saturated under S; flags Z N C V and Q (Table 2.5; R66 for V and, by
DEDUCED, C of a saturated sum: both report the unsaturated operation, log entry 7). -/
def addFlags (a b : Word) (s : Bool) (f : Flags) : Word × Flags :=
  let exact := a.toInt + b.toInt
  let v := !fitsInt 32 exact
  let r := if s then wordOfInt (satInt 32 exact) else a + b
  (r, { (f.zn r) with c := decide (2 ^ 32 ≤ a.toNat + b.toNat), v := v, q := f.q || (s && v) })

/-- Difference; C = 1 means no borrow (section 2.3). -/
def subFlags (a b : Word) (s : Bool) (f : Flags) : Word × Flags :=
  let exact := a.toInt - b.toInt
  let v := !fitsInt 32 exact
  let r := if s then wordOfInt (satInt 32 exact) else a - b
  (r, { (f.zn r) with c := decide (b.toNat ≤ a.toNat), v := v, q := f.q || (s && v) })

/-- A result that sets Z and N alone. -/
def logicFlags (r : Word) (f : Flags) : Word × Flags := (r, f.zn r)

/-- Shift left by `n`; C receives the last bit shifted out and is unchanged for 0 (R65). -/
def shlFlags (a : Word) (n : Nat) (f : Flags) : Word × Flags :=
  let r := if n < 32 then a <<< n else 0
  (r, { (f.zn r) with c := if n = 0 then f.c else if n ≤ 32 then a.getLsbD (32 - n) else false })

/-- Shift right with zero fill (R65). -/
def shrFlags (a : Word) (n : Nat) (f : Flags) : Word × Flags :=
  let r := if n < 32 then a >>> n else 0
  (r, { (f.zn r) with c := if n = 0 then f.c else if n ≤ 32 then a.getLsbD (n - 1) else false })

/-- Shift right with sign fill (R65). -/
def shaFlags (a : Word) (n : Nat) (f : Flags) : Word × Flags :=
  let r := if n < 32 then a.sshiftRight n else if a.msb then BitVec.allOnes 32 else 0
  (r, { (f.zn r) with c := if n = 0 then f.c else if n ≤ 32 then a.getLsbD (n - 1) else a.msb })

/-- Low 32 bits of the product; V when the signed product does not fit (Table 2.5). -/
def mulFlags (a b : Word) (f : Flags) : Word × Flags :=
  let r := a * b
  (r, { (f.zn r) with v := !fitsInt 32 (a.toInt * b.toInt) })

/-- The signed low halfword of a word, a Q15 operand. -/
def q15 (a : Word) : Int := signed 16 (a.toNat % 65536)

/-- A Q31 product rounded and saturated, and whether it saturated (Table 2.5 MULQ, R66). -/
def mulQ31 (a b : Word) : Word × Bool :=
  let r := roundShift (a.toInt * b.toInt) 31
  (wordOfInt (satInt 32 r), !fitsInt 32 r)

/-- A Q15 product rounded, saturated to 16 bits and sign-extended (Table 2.5 MULQ). -/
def mulQ15 (a b : Word) : Word × Bool :=
  let r := roundShift (q15 a * q15 b) 15
  (wordOfInt (satInt 16 r), !fitsInt 16 r)

/-- MULQ in the form that MOD selects. -/
def mulQ (is15 : Bool) (a b : Word) : Word × Bool := if is15 then mulQ15 a b else mulQ31 a b

/-- The product that MACQ adds, aligned to Q62 (Table 2.5). -/
def macProd (is15 : Bool) (a b : Word) : Int :=
  if is15 then q15 a * q15 b * 2 ^ 32 else a.toInt * b.toInt

/-- ACC after MACQ, and whether it saturated (R66). -/
def macStep (acc : BitVec 72) (clr neg : Bool) (p : Int) : BitVec 72 × Bool :=
  let base := if clr then 0 else acc.toInt
  let r := if neg then base - p else base + p
  (BitVec.ofInt 72 (satInt 72 r), !fitsInt 72 r)

/-- SAT: ACC rounded and saturated (Table 2.5). -/
def satAcc (is15 : Bool) (acc : BitVec 72) : Word × Bool :=
  if is15 then
    let r := roundShift acc.toInt 47
    (wordOfInt (satInt 16 r), !fitsInt 16 r)
  else
    let r := roundShift acc.toInt 31
    (wordOfInt (satInt 32 r), !fitsInt 32 r)

/-- Z of a vector result: all lanes zero; and Q (Table 2.6). -/
def vecFlags (r : XYZ) (q : Bool) (f : Flags) : Flags :=
  { f with z := r.x == 0 && r.y == 0 && r.z == 0, q := f.q || q }

/-- Integer square root by bits: the largest `r` with `r * r ≤ n`, for `r` below `2 ^ k`. -/
def isqrtBits (n : Nat) : Nat → Nat → Nat
  | 0, r => r
  | k + 1, r => if (r + 2 ^ k) * (r + 2 ^ k) ≤ n then isqrtBits n k (r + 2 ^ k) else isqrtBits n k r

/-- The floor of the Q31 quotient of one lane by the norm, given the sum of squares, and whether it is exact. -/
def normFloor (a : Int) (sum : Nat) : Int × Bool :=
  let m := a.natAbs * a.natAbs * 2 ^ 62
  let r := isqrtBits (m / sum) 32 0
  let ex := r * r * sum == m
  if a < 0 then (if ex then (-(r : Int), true) else (-(r : Int) - 1, false)) else ((r : Int), ex)

/-- One lane of VNORM: a value within 4 LSB of the exact quotient, chosen by the free word `w` (R68; log entry 8),
0x7FFF_FFFF for an exact +1.0; the Bool is its saturation to Q31 (R67), of the value chosen. -/
def normLane (a : Int) (sum : Nat) (w : Word) : Word × Bool :=
  let (fl, ex) := normFloor a sum
  if fl = 2 ^ 31 then (0x7FFFFFFF, true)
  else
    let k : Int := (w.toNat % 9 : Nat)
    let d : Int := if k = 0 ∧ ex = false then 0 else k - 4
    (wordOfInt (satInt 32 (fl + d)), !fitsInt 32 (fl + d))

end Sys2Proof.Machine
end

