-- ==== Sys2Proof/Machine/Operands.lean ====
section
/-!
DEFINITION. Sys2Proof/Machine/Operands.lean: register reads and writes and every operand form of section 2.2 to 2.6.
-/
namespace Sys2Proof.Machine

/-- Core register wa. -/
def Regs.rd (r : Regs) (a : BitVec 4) : Word := vget r.w (regIx a)

/-- The registers with wd written. -/
def Regs.wr (r : Regs) (d : BitVec 4) (x : Word) : Regs := { r with w := vset r.w (regIx d) x }

/-- Vector register va, for fields 0 to 7 (R57). -/
def Regs.rv (r : Regs) (a : BitVec 4) : XYZ := vget r.v ⟨a.toNat % 8, Nat.mod_lt _ (by decide)⟩

/-- The registers with vd written. -/
def Regs.wv (r : Regs) (d : BitVec 4) (x : XYZ) : Regs :=
  { r with v := vset r.v ⟨d.toNat % 8, Nat.mod_lt _ (by decide)⟩ x }

/-- A register field names a vector register (R57). -/
def isVec (a : BitVec 4) : Bool := a.toNat < 8

/-- imm14 sign-extended (R65, section 2.5). -/
def simm14 (i : BitVec 14) : Word := i.signExtend 32

/-- imm14 zero-extended (R65). -/
def zimm14 (i : BitVec 14) : Word := i.zeroExtend 32

/-- Source operand with a sign-extended immediate (ADD, SUB, SLT). -/
def srcS (r : Regs) : AluSrc → Word
  | .reg rb _ => r.rd rb
  | .imm i => simm14 i

/-- Source operand with a zero-extended immediate (AND, OR, XOR, SLTU). -/
def srcZ (r : Regs) : AluSrc → Word
  | .reg rb _ => r.rd rb
  | .imm i => zimm14 i

/-- Shift count: wb[7:0], or imm14[4:0] (R65). -/
def shiftN (r : Regs) : AluSrc → Nat
  | .reg rb _ => (r.rd rb).toNat % 256
  | .imm i => i.toNat % 32

/-- MOD of an ALU source is within the bits that the instruction defines (R55); an immediate has no MOD. -/
def modOk (mask : Nat) : AluSrc → Bool
  | .reg _ m => m.toNat &&& (255 - mask) == 0
  | .imm _ => true

/-- A shift's encoding: MOD zero, or imm14[13:5] zero (R55, R65). -/
def shiftOk : AluSrc → Bool
  | .reg _ m => m == 0
  | .imm i => i.toNat / 32 == 0

/-- The saturating suffix S of ADD and SUB (form R only). -/
def satS : AluSrc → Bool
  | .reg _ m => m.getLsbD 0
  | .imm _ => false

/-- Effective address wa + s(imm14) (section 2.5). -/
def effAddr (r : Regs) (f : IForm) : Word := r.rd f.ra + simm14 f.imm14

/-- Branch target: the branch's address plus 4 × s(off18) (R71). -/
def branchTarget (pc : Word) (off : BitVec 18) : Word := pc + (off.signExtend 32 <<< 2)

end Sys2Proof.Machine
end

