-- ==== Sys2Proof/Machine/Memory.lean ====
section
/-!
DEFINITION. Sys2Proof/Machine/Memory.lean: memory of the whole address space (Table 19.5) as a canonical list of
cells: addresses strictly rising, no entry equal to what an unlisted address reads as.
-/
namespace Sys2Proof.Machine

/-- The regions of Table 19.5. -/
inductive Region where
  | rom | flash | code | data | comb | window | aonWin | none
  deriving DecidableEq, Repr, Inhabited

def flashBase : Nat := 0x08000000
def flashSize : Nat := 0x00800000
def codeBase : Nat := 0x20000000
def codeSize : Nat := 0x00080000
def dataBase : Nat := 0x20100000
def dataSize : Nat := 0x00100000
def combBase : Nat := 0x30000000
def combSize : Nat := 0x00400000
def winBase : Nat := 0x40000000
def winSize : Nat := 0x00200000
def aonBase : Nat := 0x50000000
def aonSize : Nat := 0x00001000

/-- `a` lies in the `n` bytes from `b`. -/
def inSpan (b n a : Nat) : Bool := b ≤ a && a < b + n

/-- The bytes `a` to `a + len - 1` lie in the `n` bytes from `b`. -/
def spanIn (b n a len : Nat) : Bool := b ≤ a && a + len ≤ b + n

/-- The region of an address (R522). -/
def regionOf (a : Nat) : Region :=
  if a < 0x10000 then .rom
  else if inSpan flashBase flashSize a then .flash
  else if inSpan codeBase codeSize a then .code
  else if inSpan dataBase dataSize a then .data
  else if inSpan combBase combSize a then .comb
  else if inSpan winBase winSize a then .window
  else if inSpan aonBase aonSize a then .aonWin
  else .none

/-- The byte listed for an address, if any. -/
def cellAt : List Host.Cell → Nat → Option Byte
  | [], _ => none
  | (b, v) :: r, a => if b = a then some v else cellAt r a

/-- The 16 bytes of descriptor slot 0 as the factory leaves it: BASE 1,920 and NSEC 64 (R460, Table 16.2). -/
def factorySlot : List Byte :=
  bytesOfWords [0x00014A44, 1920, 64, 0x378BF894]

/-- A byte of the flash die as it leaves the factory: the descriptor of R460, the factory block with its digest and
UID, which differ from device to device (Table 16.5, R475), and 0xFF elsewhere (log entry 9). -/
def factoryFlash (off : Nat) : Byte :=
  if inSpan 0x3FF000 16 off then factorySlot.getD (off - 0x3FF000) 0xFF
  else if inSpan 0x7FF000 0xF00 off || inSpan 0x7FFF90 0x28 off then Config.factoryByte off
  else 0xFF

/-- What an unlisted address reads as: SRAM and comb buffer zero (R137, R326), flash its factory content. -/
def unlisted (a : Nat) : Byte :=
  if inSpan flashBase flashSize a then factoryFlash (a - flashBase) else 0

/-- The byte at an address. -/
def memGet (m : List Host.Cell) (a : Nat) : Byte := (cellAt m a).getD (unlisted a)

/-- The cells without any entry at `a`, with one put there in order. -/
def cellSet : List Host.Cell → Nat → Byte → List Host.Cell
  | [], a, v => [(a, v)]
  | (b, w) :: r, a, v =>
    if b < a then (b, w) :: cellSet r a v
    else if b = a then (a, v) :: r
    else (a, v) :: (b, w) :: r

/-- The cells without any entry at `a`. -/
def cellDel : List Host.Cell → Nat → List Host.Cell
  | [], _ => []
  | (b, w) :: r, a => if b < a then (b, w) :: cellDel r a else if b = a then r else (b, w) :: r

/-- One byte written, keeping the canonical form. -/
def memPut (m : List Host.Cell) (a : Nat) (v : Byte) : List Host.Cell :=
  if v = unlisted a then cellDel m a else cellSet m a v

/-- Bytes written from an address up. -/
def memPuts : List Host.Cell → Nat → List Byte → List Host.Cell
  | m, _, [] => m
  | m, a, b :: r => memPuts (memPut m a b) (a + 1) r

/-- The `n` bytes from an address. -/
def memGets (m : List Host.Cell) : Nat → Nat → List Byte
  | _, 0 => []
  | a, n + 1 => memGet m a :: memGets m (a + 1) n

/-- A span of memory returned to what it reads as unlisted. -/
def memForget (m : List Host.Cell) (a n : Nat) : List Host.Cell := m.filter (fun c => !inSpan a n c.1)

/-- A span written with zero: forgotten where unlisted bytes read zero (SRAM, comb buffer). -/
def memZero (m : List Host.Cell) (a n : Nat) : List Host.Cell := memForget m a n

/-- Addresses strictly rising from above `lo`. -/
def rising : Nat → List Host.Cell → Bool
  | _, [] => true
  | lo, (a, _) :: r => lo ≤ a && rising (a + 1) r

/-- The canonical form. -/
def Memory.wf (m : List Host.Cell) : Bool :=
  rising 0 m && m.all (fun c => c.2 != unlisted c.1)

/-- The little-endian word at an address (R10). -/
def memWord (m : List Host.Cell) (a : Nat) : Word := wordOfBytes (memGets m a 4)

end Sys2Proof.Machine
end

