-- ==== Sys2Proof/Machine/Ops.lean ====
section
/-!
DEFINITION. Sys2Proof/Machine/Ops.lean: the named operations every meaning uses: status codes, access to cores,
tenants and bindings, events (R38, R77), faults (R50), cycles and quotas (R45, R108), windows (R105, R107), SRAM
reads with ECC (R26), stalls (R47) and the order of checks (R28).
-/
namespace Sys2Proof.Machine

/-! ## Status codes (Table 19.1) and fault codes (Table 1.9) -/

def stOk : BitVec 8 := 0x00
def stPending : BitVec 8 := 0x01
def stState : BitVec 8 := 0x10
def stCap : BitVec 8 := 0x11
def stCredit : BitVec 8 := 0x12
def stBusy : BitVec 8 := 0x13
def stNotReady : BitVec 8 := 0x14
def stSelf : BitVec 8 := 0x15
def stRange : BitVec 8 := 0x16
def stSealed : BitVec 8 := 0x17
def stEcc : BitVec 8 := 0x18
def stTimeout : BitVec 8 := 0x19
def stLink : BitVec 8 := 0x1A
def stChain : BitVec 8 := 0x1B
def stTherm : BitVec 8 := 0x1C
def stSig : BitVec 8 := 0x1D
def stQuota : BitVec 8 := 0x1E
def stMmf : BitVec 8 := 0x1F

def fltOpcode : Nat := 1
def fltFetch : Nat := 2
def fltEcc : Nat := 3
def fltBudget : Nat := 4
def fltStack : Nat := 5
def fltQuota : Nat := 6
def fltRevoked : Nat := 7

/-! ## Time -/

/-- Hive-time increment and system-clock period of a level, in ticks (Table 5.2). -/
def levelInc (l : BitVec 2) : Nat :=
  if l = 0 then 24 else if l = 1 then 6 else if l = 2 then 2 else 1

/-- Increment of the level in force. -/
def State.inc (s : State) : Nat := levelInc s.level.cur

/-- Hive time modulo 2^64 (R162). -/
def wrap64 (n : Nat) : Nat := n % 2 ^ 64

/-- The next clock's hive time and trim bookkeeping: INC, plus or less one tick when a trim falls due, at most one
per 2048 ticks counted (R162, R168; the accumulator is a DESIGN CHOICE, log entry 5). -/
def countClock (inc : Nat) (t : TimeSt) : TimeSt :=
  let acc := t.trimAcc + inc * t.trimRate.toNat
  let since := t.sinceTrim + inc
  let due := decide (2 ^ 24 ≤ acc) && decide (2048 ≤ since)
  let hive := if due then (if t.trimDir then t.hive + inc - 1 else t.hive + inc + 1) else t.hive + inc
  { t with
    hive := wrap64 hive, clk := t.clk + 1, phys := t.phys + inc
    trimAcc := if due then acc - 2 ^ 24 else acc
    sinceTrim := if due then 0 else since }

/-- Hive time of the next clock, unless a step replaces it (R162, R168). -/
def State.hiveNext (s : State) : Nat := (countClock s.inc s.time).hive

/-- Ticks of a number of microseconds (section 0.7). -/
def usTicks (n : Nat) : Nat := n * 192

/-- The cores and units run: the system clock is on and no orderly stop has stopped dispatch. -/
def State.running (s : State) : Bool := s.time.mode == .running

/-! ## Access -/

def State.core (s : State) (c : CoreId) : Core := vget s.cores c

def State.setCore (s : State) (c : CoreId) (k : Core) : State := { s with cores := vset s.cores c k }

def State.regs (s : State) (c : CoreId) : Regs := (s.core c).regs

def State.setRegs (s : State) (c : CoreId) (r : Regs) : State := s.setCore c { s.core c with regs := r }

def State.tenant (s : State) (t : Tid) : Tenant := vget s.tenants t

def State.setTenant (s : State) (t : Tid) (x : Tenant) : State := { s with tenants := vset s.tenants t x }

def State.modTenant (s : State) (t : Tid) (f : Tenant → Tenant) : State := s.setTenant t (f (s.tenant t))

/-- A free value's index, advancing the counter (log entry 2). -/
def State.nextFree (s : State) : State := { s with free := s.free + 1 }

/-! ## Events (R38, R77) -/

/-- An event offered to one binding (R38). -/
def offerTo (src : BitVec 8) (e : Ev) : Option Binding → Option Binding
  | none => none
  | some b =>
    if b.src = src ∧ b.held = false then
      if b.pend.length < 4 then some { b with pend := b.pend ++ [e] }
      else some { b with ovr := satInc b.ovr }
    else some b

/-- A waiting invocation released by an event on its source in a clock (R77). -/
def releaseBy (src : BitVec 8) (arg : Word) (clk : Nat) : Option Saved → Option Saved
  | some sv =>
    match sv.kind with
    | .waiting src' _ rd _ =>
      if src' = src then
        some { sv with
          kind := .ready, since := clk
          regs := { sv.regs with w := vset sv.regs.w rd arg, fl := sv.regs.fl.setStat stOk } }
      else some sv
    | .ready => some sv
  | none => none

/-- An event on a source is raised in this clock. It reaches the bindings and the waiting invocations at the end of
the clock, after any BIND and UNBIND of the same clock (section 1.8, Edges). -/
def State.event (s : State) (src : Nat) (arg : Word) (time : Nat) (raised : Bool := false) : State :=
  { s with raised := s.raised ++ [⟨src, ⟨arg, time, raised, s.time.clk⟩⟩] }

/-- An event that its rule puts in the clock after its cause. -/
def State.eventNext (s : State) (src : Nat) (arg : Word) : State :=
  { s with later := s.later ++ [.event src arg] }

/-- An event raised in the clock after its cause, with a stamp of its own (R308). -/
def State.eventLater (s : State) (src : Nat) (arg : Word) (time : Nat) : State :=
  { s with later := s.later ++ [.eventOf src arg time] }

/-- An event raised in the clock after its cause, with the hive time of the clock of its cause (R350, R385, R405,
R429). -/
def State.eventOf (s : State) (src : Nat) (arg : Word) : State := s.eventLater src arg s.time.hive

/-- A raised event is offered to every matching binding and releases every WAIT on its source (R38, R43, R77). -/
def offerRaised (s : State) (r : Raised) : State :=
  { s with
    bindings := vmap (offerTo (BitVec.ofNat 8 r.src) r.ev) s.bindings
    ctx := vmap (releaseBy (BitVec.ofNat 8 r.src) r.ev.arg r.ev.clk) s.ctx }

/-- The defined event sources (R519, Table 19.2). -/
def srcDefined (n : Nat) : Bool :=
  n < 0x18 || (0x20 ≤ n && n ≤ 0x2D) || (0x30 ≤ n && n ≤ 0x71) || (0x78 ≤ n && n ≤ 0x7A) ||
  (0x80 ≤ n && n ≤ 0x87) || (0x90 ≤ n && n ≤ 0x97) || n == 0xA0 || n == 0xA8 || n == 0xB0 || n == 0xB8

/-! ## Capability record (Table 3.2) -/

def Tenant.word (t : Tenant) (i : Nat) : Word := vgetD t.record i 0

/-- A field of the record. -/
def Tenant.fld (t : Tenant) (w hi lo : Nat) : Nat := fieldOf (t.word w) hi lo

/-- Bit `i` of a mask that starts at word `w`, bit `lo`. -/
def Tenant.bit (t : Tenant) (w lo i : Nat) : Bool := bitOf (t.word (w + (lo + i) / 32)) ((lo + i) % 32)

/-- T0 passes every capability check (R96); another tenant passes when its record does (R98). -/
def State.may (s : State) (t : Tid) (p : Tenant → Bool) : Bool := t = 0 || p (s.tenant t)

def capSens (i : Nat) (r : Tenant) : Bool := r.bit 1 0 i
def capAout (i : Nat) (r : Tenant) : Bool := r.bit 1 16 i
def capPort (i : Nat) (r : Tenant) : Bool := r.bit 1 20 i
def capLine (i : Nat) (r : Tenant) : Bool := r.bit 1 24 i
def capLane (i : Nat) (r : Tenant) : Bool := r.bit 2 0 i
def capTimer (i : Nat) (r : Tenant) : Bool := r.bit 2 24 i
def capRecog (i : Nat) (r : Tenant) : Bool := r.bit 3 0 i
def capQueue (i : Nat) (r : Tenant) : Bool := r.bit 4 0 i
def capRing (i : Nat) (r : Tenant) : Bool := r.bit 6 0 i
def capCal (r : Tenant) : Bool := r.bit 0 4 0
def capRaise (r : Tenant) : Bool := r.bit 0 5 0
def capLevel (r : Tenant) : Bool := r.bit 0 6 0
def capVote (r : Tenant) : Bool := r.bit 0 7 0
def capSleep (r : Tenant) : Bool := r.bit 0 8 0
def capEvTherm (r : Tenant) : Bool := r.bit 0 9 0
def capEvLevel (r : Tenant) : Bool := r.bit 0 10 0
def capFabric (r : Tenant) : Bool := r.bit 0 11 0
/-- Key within JW_LO to JW_HI. A VACANT tenant's record is withdrawn and reads zero, so it holds no range
(R98, R124): VER tells it from a record whose range is 0 to 0. -/
def capJw (k : Nat) (r : Tenant) : Bool := r.fld 0 3 0 == 1 && r.fld 8 15 0 ≤ k && k ≤ r.fld 8 31 16
/-- Key within JR_LO to JR_HI. -/
def capJr (k : Nat) (r : Tenant) : Bool := r.fld 0 3 0 == 1 && r.fld 9 15 0 ≤ k && k ≤ r.fld 9 31 16
/-- The JW range is not empty. A VACANT tenant's record is withdrawn, so it holds no range (R98, R124). -/
def capJwAny (r : Tenant) : Bool := r.fld 0 3 0 == 1 && r.fld 8 15 0 ≤ r.fld 8 31 16
/-- The JR range is not empty. -/
def capJrAny (r : Tenant) : Bool := r.fld 0 3 0 == 1 && r.fld 9 15 0 ≤ r.fld 9 31 16
/-- Fabric port within FP_LO to FP_HI. -/
def capFp (p : Nat) (r : Tenant) : Bool := r.fld 0 3 0 == 1 && r.fld 10 7 0 ≤ p && p ≤ r.fld 10 15 8

/-- A tenant may receive events from a source (R106). -/
def mayReceive (s : State) (t : Tid) (n : Nat) : Bool :=
  s.may t (fun r =>
    if n < 0x18 then capLane n r
    else if 0x20 ≤ n ∧ n ≤ 0x2D then capRecog (n - 0x20) r
    else if 0x30 ≤ n ∧ n ≤ 0x6F then capQueue (n - 0x30) r
    else if n = 0x70 ∨ n = 0x71 then capFabric r
    else if 0x78 ≤ n ∧ n ≤ 0x7A then capPort (n - 0x78) r
    else if 0x80 ≤ n ∧ n ≤ 0x87 then capLine (n - 0x80) r
    else if 0x90 ≤ n ∧ n ≤ 0x97 then capTimer (n - 0x90) r
    else if n = 0xA0 then capEvTherm r
    else if n = 0xA8 then capJwAny r
    else if n = 0xB0 then fieldOf (r.word 1) 10 3 != 0
    else if n = 0xB8 then capEvLevel r
    else false)

/-- A tenant may RAISE a source (Table 3.3): a held queue or timer, with RAISE. -/
def mayRaise (s : State) (t : Tid) (n : Nat) : Bool :=
  s.may t (fun r => capRaise r &&
    (if 0x30 ≤ n ∧ n ≤ 0x6F then capQueue (n - 0x30) r
     else if 0x90 ≤ n ∧ n ≤ 0x97 then capTimer (n - 0x90) r else false))

/-! ## Windows (Table 3.2 words 11 to 13, R105, R107) -/

/-- `len` bytes from `a` lie in the tenant's code SRAM window. -/
def inCodeSram (s : State) (t : Tid) (a len : Nat) : Bool :=
  if t = 0 then spanIn codeBase codeSize a len
  else let r := s.tenant t
    spanIn (codeBase + r.fld 11 7 0 * 4096) (r.fld 11 15 8 * 4096) a len

/-- `len` bytes from `a` lie in the tenant's flash XIP window. -/
def inXip (s : State) (t : Tid) (a len : Nat) : Bool :=
  if t = 0 then spanIn flashBase flashSize a len
  else let r := s.tenant t
    spanIn (flashBase + r.fld 12 10 0 * 4096) (r.fld 12 27 16 * 4096) a len

/-- `len` bytes from `a` lie in the tenant's data SRAM window. -/
def inData (s : State) (t : Tid) (a len : Nat) : Bool :=
  if t = 0 then spanIn dataBase dataSize a len
  else let r := s.tenant t
    spanIn (dataBase + r.fld 13 7 0 * 4096) (r.fld 13 16 8 * 4096) a len

/-- An instruction address lies in the tenant's code windows (R107). -/
def inCodeWindows (s : State) (t : Tid) (a : Nat) : Bool := inCodeSram s t a 4 || inXip s t a 4

/-! ## Cycles, budgets and quotas (R45, R108, R109) -/

/-- The quota of a tenant in cycles; 0 is unlimited (Table 3.2 word 14). -/
def Tenant.quota (t : Tenant) : Nat := t.fld 14 15 0 * 64

/-- The quota period of a tenant in ticks (R108). -/
def Tenant.period (t : Tenant) : Nat := 192000 * 2 ^ t.fld 14 19 16

/-- Every running invocation of a tenant is marked to end with FLT_QUOTA (R109). -/
def markQuota (t : Tid) (k : Core) : Core :=
  match k.inv with
  | some i => if i.tenant = t then { k with inv := some { i with quotaOut := true } } else k
  | none => k

/-- A quota period has begun since the last one noted: QUSED and QOUT are cleared (R108, R109). A cycle of the
boundary's own clock is charged after this (R110). -/
def rollPeriod (t : Tid) (s : State) : State :=
  let x := s.tenant t
  let p := s.time.hive / x.period
  if x.quota ≠ 0 ∧ x.qperiod ≠ p then s.setTenant t { x with qused := 0, qout := false, qperiod := p } else s

/-- Cycles charged to a tenant's quota in this clock; reaching it sets QOUT and marks its running invocations
(R108, R109). -/
def chargeQuota (t : Tid) (n : Nat) (s : State) : State :=
  let s := rollPeriod t s
  let x := s.tenant t
  if x.quota = 0 then s
  else
    let used := x.qused + n
    if x.quota ≤ used ∧ x.qout = false then
      let s := s.setTenant t { x with qused := used, qout := true }
      { s with cores := vmap (markQuota t) s.cores }
    else s.setTenant t { x with qused := used }

/-- Cycles charged to the invocation on a core, and to its tenant's quota (R45, R108). -/
def addCycles (c : CoreId) (n : Nat) (s : State) : State :=
  match (s.core c).inv with
  | none => s
  | some i =>
    chargeQuota i.tenant n (s.setCore c { s.core c with inv := some { i with used := i.used + n } })

/-- Cycles of the instruction in progress: those that the clocks of its run have charged already (`paid`) are not
charged again (R108). -/
def chargePart (c : CoreId) (n : Nat) (s : State) : State :=
  let p := (s.core c).paid
  addCycles c (n - p) (s.setCore c { s.core c with paid := p - n })

/-- Step 1 of sleep entry has begun: each core pauses at its next boundary or in its stall (Table 6.8). -/
def pausing (s : State) : Bool :=
  match s.sleep.entry with | some e => decide (1 ≤ e.step) | none => false

/-- The last cycles of an instruction, which retires (R45, R62, R108); step 1 of sleep entry pauses the core here. -/
def charge (c : CoreId) (n : Nat) (s : State) : State :=
  let s := chargePart c n s
  s.setCore c { s.core c with paid := 0, wokeEnd := true, paused := (s.core c).paused || pausing s }

/-- Base count of a unit-class, EVENT, ALARM or SYSTEM instruction (Table 2.3). -/
def State.base (s : State) : Nat := if s.level.cur = 3 then 2 else 1

/-! ## Ending an invocation (R50, R51) -/

/-- The core is released, and free from the next clock (R39, R50.2). -/
def endInv (c : CoreId) (s : State) : State :=
  s.setCore c { s.core c with
    inv := none, stall := none, resuming := false, paid := 0, goAt := s.time.clk + 1, wokeEnd := true }

/-- A binding's FRUN after a fault; at 8 the binding is held and its pending events move into OVR (R50, R51). -/
def bindFault (b : Binding) : Binding :=
  if b.frun + 1 < 8 then { b with frun := b.frun + 1 }
  else { b with frun := 8, held := true, ovr := satAdd b.ovr b.pend.length, pend := [] }

/-- A function applied to the binding that an invocation came from, while it is still installed (R44). -/
def modBinding (i : Inv) (f : Binding → Binding) (s : State) : State :=
  match i.bind with
  | none => s
  | some k =>
    match vget s.bindings k with
    | none => s
    | some b => if b.serial = i.serial then { s with bindings := vset s.bindings k (some (f b)) } else s

/-- The fault record and counter of a tenant (R50.3, R50.4). A host packet has no binding: FBIND is written 0
(log entry 10). -/
def recordFault (i : Inv) (code : Nat) (addr : Word) (s : State) : State :=
  s.modTenant i.tenant (fun t =>
    { t with
      fcode := BitVec.ofNat 4 code
      fbind := match i.bind with | some k => BitVec.ofNat 8 k.val | none => 0
      faddr := addr
      ftime := toWord s.time.hive
      nfault := satInc t.nfault })

/-- A fault ends the invocation on a core (R50). -/
def fault (c : CoreId) (code : Nat) (addr : Word) (s : State) : State :=
  match (s.core c).inv with
  | none => s
  | some i =>
    let s := recordFault i code addr s
    let s := modBinding i bindFault s
    let s := match i.bind with
      | some _ => s
      | none =>
        match s.host.running with
        | some q => { s with host := { s.host with running := some { q with fcode := code } } }
        | none => s
    endInv c s

/-! ## Functions, domains and stalls (R47, Table 1.8) -/

/-- Bit number of a function in the READY and FAIL words (Table 4.3). -/
def Func.idx : Sys2Proof.Func → Nat
  | .keeper => 0 | .f0 => 1 | .f1 => 2 | .f2 => 3 | .f3 => 4 | .flash => 5 | .journal => 6 | .comb => 7
  | .accA => 8 | .accB => 9 | .gyro => 10 | .xfe => 11 | .aout => 12 | .radio => 13 | .ports => 14
  | .line => 15 | .queues => 16 | .lanes => 17 | .thermal => 18

/-- Bit number of a domain in the domain word (Table 6.3). -/
def Domain.idx : Sys2Proof.Domain → Fin 12
  | .aon => 0 | .core => 1 | .sramCode => 2 | .sramData => 3 | .comb => 4 | .sense => 5 | .xfe => 6
  | .aout => 7 | .radio => 8 | .flash => 9 | .ports => 10 | .line => 11

/-- The domain a function lies in (Table 6.3). -/
def funcDomain : Func → Domain
  | .flash | .journal => .flash
  | .comb => .comb
  | .accA | .accB | .gyro => .sense
  | .xfe => .xfe
  | .aout => .aout
  | .radio => .radio
  | .ports => .ports
  | .line => .line
  | _ => .core

def State.isReady (s : State) (f : Func) : Bool := bitOf s.boot.ready (Func.idx f)
def State.hasFailed (s : State) (f : Func) : Bool := bitOf s.boot.fail (Func.idx f)

/-- A domain is powered (R193). -/
def State.domOn (s : State) (d : Domain) : Bool := s.sleep.domains.getLsbD (Domain.idx d).val

/-- A domain is powered and its wake-up has completed. -/
def State.domUp (s : State) (d : Domain) : Bool :=
  s.domOn d && (vget s.sleep.upAt (Domain.idx d)).isNone

def State.setDom (s : State) (d : Domain) (on : Bool) : State :=
  let m : BitVec 12 := BitVec.twoPow 12 (Domain.idx d).val
  { s with sleep := { s.sleep with domains := if on then s.sleep.domains ||| m else s.sleep.domains &&& ~~~m } }

/-- Stall on first touch of an idle domain, in microseconds (Table 1.8); 45 ms for GYRO from cold. -/
def wakeUs : Func → Nat
  | .comb => 40
  | .flash | .journal => 60
  | .radio => 120
  | .xfe => 900
  | .accA | .accB => 3000
  | .gyro => 45000
  | _ => 0

/-- Ready times after PGOOD in microseconds, Typ (Table 4.4), with JOURNAL at its INDEXED value. -/
def readyUs : Func → Nat
  | .keeper => 180
  | .f0 | .f1 | .f2 | .f3 => 200
  | .ports => 190
  | .line | .queues | .lanes => 200
  | .thermal => 250
  | .flash => 120
  | .journal => 300
  | .radio => 400
  | .aout => 500
  | .comb => 1200
  | .xfe => 1500
  | .accA | .accB => 3000
  | .gyro => 45000

/-- A touch of an idle domain starts its wake-up and powers it (R191, R192). In SENSE each sensor wakes by itself, in
the time of its own row of Table 1.8 (R247). -/
def wakeDomain (f : Func) (s : State) : State :=
  let d := funcDomain f
  if s.domOn d then s
  else
    let s := s.setDom d true
    if d = .sense then s
    else { s with sleep := { s.sleep with
        upAt := vset s.sleep.upAt (Domain.idx d) (some (s.time.phys + usTicks (wakeUs f))) } }

/-- The function must be waited for: its READY bit is clear, or its domain is down or waking (order 5). -/
def waitsFor (f : Func) (s : State) : Option Func :=
  if !s.isReady f then some f
  else if !s.domUp (funcDomain f) then some f
  else none

/-- A SENSE.SET that stalls on a ready sensor powers it up from cold (R247). -/
def warmSensor (i : Instr) (f : Func) (s : State) : State :=
  match i with
  | .senseSet _ u =>
    if h : u.inst.toNat < 3 then
      let k : SensorId := ⟨u.inst.toNat, by omega⟩
      let x := vget s.sensors k
      if x.st = .off ∧ x.warm = false then
        { s with sensors := vset s.sensors k { x with
            warm := true, warmAt := some (s.time.phys + usTicks (wakeUs f)) } }
      else s
    else s
  | _ => s

/-- The instant at which a SENSE.SET's cold sensor is warm: an earlier SENSE.SET's, or its own time from now; none
where it powers up no inertial sensor (R247). -/
def warmBy (i : Instr) (f : Func) (s : State) : Option Nat :=
  match i with
  | .senseSet _ u =>
    if h : u.inst.toNat < 3 then
      let x := vget s.sensors ⟨u.inst.toNat, by omega⟩
      if x.st = .off then some (x.warmAt.getD (s.time.phys + usTicks (wakeUs f))) else none
    else none
  | _ => none

/-- What an instruction that touches `f` stalls for (R47, Table 1.8, R247, R412, R457). -/
def stallWhy (i : Instr) (f : Func) (s : State) : StallWhy :=
  if !s.isReady f then .start
  else match warmBy i f s with
    | some t => .wake t
    | none =>
      if !s.domUp (funcDomain f) then
        .wake ((vget s.sleep.upAt (Domain.idx (funcDomain f))).getD (s.time.phys + usTicks (wakeUs f)))
      else .leaving

/-- An instruction stalls (R47); the domain that it wakes or waits for stays powered until it retires or refuses (R192). -/
def stallOn (c : CoreId) (i : Instr) (fetch : Bool) (f : Func) (s : State) : State :=
  let why := stallWhy i f s
  let s := if s.isReady f then warmSensor i f (wakeDomain f s) else s
  let k := s.core c
  s.setCore c { k with
    stall := some ⟨i, fetch, f, s.time.phys, s.time.clk, false, why⟩, resuming := false
    paused := k.paused || pausing s, woke := funcDomain f :: k.woke, wokeEnd := false }

/-- A read of flash stalls beside an operation (R456, R457). -/
def stallRead (c : CoreId) (i : Instr) (fetch : Bool) (off n : Nat) (s : State) : State :=
  let k := s.core c
  s.setCore c { k with
    stall := some ⟨i, fetch, .flash, s.time.phys, s.time.clk, false, .flashOp off n⟩, resuming := false
    paused := k.paused || pausing s, woke := funcDomain .flash :: k.woke, wokeEnd := false }

/-- The cycles of the stall are fill time (R457). -/
def StallWhy.fill : StallWhy → Bool
  | .flashOp _ _ => true
  | _ => false

/-- Long stalls are counted once each, when their length in clocks exceeds BUDGET × 16 (R48). -/
def longStall (s : State) (c : CoreId) : State :=
  match (s.core c).stall, (s.core c).inv with
  | some st, some i =>
    if st.why.fill = false ∧ st.long = false ∧ i.budget ≠ 0 ∧ i.budget.toNat * 16 < s.time.clk - st.startClk then
      let s := s.setCore c { s.core c with stall := some { st with long := true } }
      s.modTenant i.tenant (fun t => { t with nstall := satInc t.nstall })
    else s
  | _, _ => s

def longStalls (s : State) : State := [0, 1, 2, 3, 4].foldl longStall s

/-! ## SRAM with SECDED (R26) -/

/-- What a checked read of a word delivers: the word, whether it is poisoned, and the state with its counts. -/
structure RdRes where
  w : Word
  dbl : Bool
  s : State

/-- The error mark of the word at an address. -/
def eccAt (s : State) (a : Nat) : Option EccMark := s.ecc.find? (fun e => e.addr == a)

/-- The error mark that a read in this clock meets: a store of this clock is not seen yet (R25). -/
def eccSeen (s : State) (a : Nat) : Option EccMark :=
  match s.unseen.marks.find? (fun e => e.addr == a) with
  | some e => some e
  | none => eccAt s a

/-- The byte that a read in this clock finds (R25). -/
def byteSeen (s : State) (a : Nat) : Byte :=
  match s.unseen.bytes.find? (fun c => c.1 == a) with
  | some c => c.2
  | none => memGet s.mem a

/-- The word that a read in this clock finds: what the stores of this clock have replaced is still there (R25). -/
def wordSeen (s : State) (a : Nat) : Word :=
  match s.unseen.bytes with
  | [] => memWord s.mem a
  | _ :: _ => wordOfBytes ((List.range 4).map (fun k => byteSeen s (a + k)))

/-- The counters of R527 after a read that met a mark. -/
def countEcc (a : Nat) (e : EccMark) (s : State) : State :=
  let n := s.eccCnt
  { s with eccCnt :=
    if regionOf a = .code then
      (if e.dbl then { n with codeDbl := satInc n.codeDbl } else { n with codeCorr := satInc n.codeCorr })
    else if regionOf a = .data then
      (if e.dbl then { n with dataDbl := satInc n.dataDbl } else { n with dataCorr := satInc n.dataCorr })
    else n }

/-- A word of code or data SRAM read through its code (R26). -/
def readSram (a : Nat) (s : State) : RdRes :=
  let w := wordSeen s a
  match eccSeen s a with
  | none => ⟨w, false, s⟩
  | some e => ⟨if e.dbl then w ^^^ e.flips else w, e.dbl, countEcc a e s⟩

/-- Bytes written to memory; the words they fall in lose their error marks (R26). -/
def State.putBytes (s : State) (a : Nat) (bs : List Byte) : State :=
  { s with
    mem := memPuts s.mem a bs
    ecc := s.ecc.filter (fun e => !(e.addr + 3 ≥ a && e.addr < a + bs.length)) }

/-- A store: what it replaces stays visible until the next clock (R25). -/
def State.store (s : State) (a : Nat) (bs : List Byte) : State :=
  let u := s.unseen
  let old := ((List.range bs.length).map (fun k => (a + k, byteSeen s (a + k)))).filter
    (fun c => !u.bytes.any (fun d => d.1 == c.1))
  let marks := s.ecc.filter (fun e => decide (a ≤ e.addr + 3) && decide (e.addr < a + bs.length))
  { s.putBytes a bs with unseen := ⟨u.bytes ++ old, u.marks ++ marks⟩ }

/-- A word written. -/
def State.putWord (s : State) (a : Nat) (w : Word) : State := s.putBytes a (wordBytes w)

/-- A span of SRAM or comb buffer written with zero. -/
def State.zeroSpan (s : State) (a n : Nat) : State :=
  { s with mem := memZero s.mem a n, ecc := s.ecc.filter (fun e => !inSpan a n e.addr) }

/-- The bank of an SRAM word: four of 128 KiB in code SRAM, and bits [4:2] of the address in data SRAM (Table 1.4). -/
def sramBank (a : Nat) : List Nat :=
  match regionOf a with
  | .code => [(a - codeBase) / 0x20000]
  | .data => [4 + a / 4 % 8]
  | _ => []

/-- Cycles that accesses of a core to these banks wait in this clock: each loses once to every access of another core
to its bank in the clock, and waits one more in the clock of an assist change; waits of one clock overlap (R24, R179).
Of cores that collide, the one whose command comes first is served first (DESIGN CHOICE, log entry 103). -/
def sramWait (c : CoreId) (banks : List Nat) (s : State) : Nat :=
  let one (b : Nat) : Nat :=
    (s.bankUse.filter (fun u => u.1 != c && u.2 == b)).length + (if s.level.asClk = some s.time.clk then 1 else 0)
  banks.foldl (fun m b => max m (one b)) 0

/-- The accesses of this clock noted. -/
def useBanks (c : CoreId) (banks : List Nat) (s : State) : State :=
  { s with bankUse := s.bankUse ++ banks.map (fun b => (c, b)) }

/-- A parameter block read whole, counting its errors; the Bool is a double-bit error in any word (R60, R61). -/
def readBlock : Nat → Nat → State → Words × Bool × State
  | _, 0, s => ([], false, s)
  | a, n + 1, s =>
    let r := readSram a s
    let (ws, b, s') := readBlock (a + 4) n r.s
    (r.w :: ws, r.dbl || b, s')

/-- The address of a parameter block is word-aligned and lies in code or data SRAM (R59, order 2). T0 passes every
check of order 3 (R96), so for T0 the whole block is tested here (DESIGN CHOICE, log entry 60). -/
def blockOk (t : Tid) (a n : Nat) : Bool :=
  let len := if t = 0 then 4 * n else 1
  a % 4 == 0 && (spanIn codeBase codeSize a len || spanIn dataBase dataSize a len)

/-- A parameter block lies in the tenant's data or code windows (R59, order 3). -/
def blockMay (s : State) (t : Tid) (a n : Nat) : Bool :=
  inData s t a (4 * n) || inCodeSram s t a (4 * n)

/-! ## Instruction cache and flash reads (R23, R456) -/

/-- The cache set of a flash address: 64 KiB, 4 ways, 32-byte lines make 512 sets. -/
def cacheSet (a : Nat) : Fin 512 := ⟨(a / 32) % 512, Nat.mod_lt _ (by decide)⟩

/-- The tag of a flash address. -/
def cacheTag (a : Nat) : Nat := a / 16384

/-- A fetch through the cache: hit or miss, and the set with the line most recently used (R23). -/
def cacheTouch (a : Nat) (s : State) : Bool × State :=
  let set := vget s.icache (cacheSet a)
  let tag := cacheTag a
  let hit := set.contains tag
  (hit, { s with icache := vset s.icache (cacheSet a) ((tag :: set.filter (· != tag)).take 4) })

/-- Every cache line that overlaps a span of flash is invalidated (R458). -/
def cacheInval (a n : Nat) (s : State) : State :=
  { s with icache :=
      ⟨⟨mapIdxFrom (fun i set => set.filter (fun tag =>
          let line := tag * 16384 + i * 32
          !(decide (line < a + n) && decide (a < line + 32)))) 0 s.icache.toList⟩, by
        have h : ∀ (l : List (List Nat)) (k : Nat) (f : Nat → List Nat → List Nat),
            (mapIdxFrom f k l).length = l.length := by
          intro l; induction l with
          | nil => intro k f; rfl
          | cons x r ih => intro k f; simp [mapIdxFrom, ih]
        simp [h]⟩ }

/-- Fill count of a cache line (Table 2.4). -/
def fillClks (l : BitVec 2) : Nat := if l = 0 then 3 else if l = 1 then 12 else if l = 2 then 34 else 68

end Sys2Proof.Machine
end

