-- ==== Sys2Proof/Machine/FlashRead.lean ====
section
/-!
DEFINITION. Sys2Proof/Machine/FlashRead.lean: reads of the flash array beside an operation in progress (R456, R457,
Table 6.4).
-/
namespace Sys2Proof.Machine

/-- First byte and length of a step's range. -/
def JStep.span : JStep → Nat × Nat
  | .prog off bs => (off, bs.length)
  | .erase off => (off, 4096)

/-- The bank of a flash offset: true for bank B (section 16.1). -/
def bankOf (off : Nat) : Bool := 0x400000 ≤ off

/-- A span of flash meets the range of the operation in progress (R457). -/
def opMeets (off n : Nat) (s : State) : Bool :=
  match s.journal.op with
  | none => false
  | some o => o.steps.any (fun st => decide (st.span.1 < off + n) && decide (off < st.span.1 + st.span.2))

/-- The 32-byte lines that `n` bytes from an offset touch. -/
def lineSpan (off n : Nat) : Nat × Nat := (off / 32 * 32, ((off + n - 1) / 32 + 1) * 32 - off / 32 * 32)

/-- The operation in progress works in the bank of an offset (R450). -/
def opInBank (off : Nat) (o : JOp) : Bool := o.steps.any (fun st => bankOf st.span.1 == bankOf off)

/-- The operation is suspended now. -/
def JOp.suspended (o : JOp) (now : Nat) : Bool := match o.susp with | some x => decide (x.at_ ≤ now) | none => false

/-- A read of flash can be served: no operation is in progress in its bank, or it is suspended and the read is outside
its range (R456, R457). -/
def flashServed (off n : Nat) (s : State) : Bool :=
  match s.journal.op with
  | none => true
  | some o => !opInBank off o || (o.suspended s.time.phys && !opMeets off n s)

/-- The operation erases: it began with the erase of a sector. -/
def JOp.erases (o : JOp) : Bool := match o.steps with | .erase _ :: _ => true | _ => false

/-- FLASH is in use from now on (Table 6.4). -/
def flashTouch (s : State) : State := { s with sleep := { s.sleep with flashUse := s.time.phys } }

/-- Ticks of the fill of Table 2.4 and of tRES after it, at the present level. -/
def fillResume (fill : Nat) (s : State) : Nat := fill * s.inc + usTicks 5

/-- A read asks for a suspension (R456): it comes when the no-suspend window after the last resume is over, 20 µs for a
program and 100 µs for an erase, and a latency after that, a free value up to 12 or 20 µs. -/
def suspendOp (fill : Nat) (s : State) : State :=
  match s.journal.op with
  | none => s
  | some o =>
    if o.susp.isSome then s
    else
      let from_ := if o.resumed = 0 then s.time.phys
        else max s.time.phys (o.resumed + (if o.erases then usTicks 100 else usTicks 20))
      let lat := (Config.freeWord s.free).toNat % ((if o.erases then usTicks 20 else usTicks 12) + 1)
      { s with
        free := s.free + 1
        journal := { s.journal with
          op := some { o with susp := some ⟨from_ + lat, from_ + lat + fillResume fill s, false⟩ } } }

/-- A read of the flash array that is served: an operation that it has suspended resumes tRES after its fill, and the
suspension counts once (R456). -/
def flashRead (off fill : Nat) (s : State) : State :=
  let s := flashTouch s
  match s.journal.op with
  | none => s
  | some o =>
    match o.susp with
    | some x =>
      if opInBank off o then
        { s with journal := { s.journal with
          op := some { o with susp := some ⟨x.at_, max x.until_ (s.time.phys + fillResume fill s), true⟩ }
          nsusp := if x.served then s.journal.nsusp else satInc s.journal.nsusp } }
      else s
    | none => s

/-- A core stalls for a read beside an operation. -/
def readStalls (s : State) (c : CoreId) : Option (Nat × Nat) :=
  match (s.core c).stall with
  | some st => (match st.why with | .flashOp off n => some (off, n) | _ => none)
  | none => none

/-- The reads that wait at the end of a clock suspend the operation, unless they meet its range (R456, R457). -/
def suspendClock (s : State) : State :=
  match s.journal.op with
  | none => s
  | some o =>
    if ([0, 1, 2, 3, 4] : List CoreId).any (fun c => match readStalls s c with
        | some (off, n) => opInBank off o && !opMeets off n s
        | none => false) then suspendOp (fillClks s.level.cur) s
    else s

end Sys2Proof.Machine
end

