-- ==== Sys2Proof/Machine/Issue.lean ====
section
/-!
DEFINITION. Sys2Proof/Machine/Issue.lean: how a core takes one instruction: the boundary (R46, R109, R124), the
fetch (R23, R26, R49), the order of checks (R28) and retirement (R20, R29, R30, R58, R62).
-/
namespace Sys2Proof.Machine

/-- The fault due at an instruction boundary: FLT_REVOKED, then FLT_QUOTA, then FLT_BUDGET (R124, R110, R46;
that FLT_REVOKED comes first is a DESIGN CHOICE, log entry 11). -/
def dueFault (i : Inv) : Option Nat :=
  if i.revoked then some fltRevoked
  else if i.quotaOut then some fltQuota
  else if i.budget ≠ 0 ∧ i.budget.toNat * 16 ≤ i.used then some fltBudget
  else none

/-- An instruction boundary of a core: a due fault ends the invocation, and so, with no fault, does the orderly
stop (Table 7.5). -/
def boundary (c : CoreId) (s : State) : State :=
  match (s.core c).inv with
  | none => s
  | some i =>
    if i.stopped then endInv c s
    else match dueFault i with
      | some f => fault c f (s.regs c).pc s
      | none => s

/-- The SRAM bank that a core's fetch accesses; a host packet and a resumed instruction fetch nothing. -/
def fetchBanks (c : CoreId) (s : State) : List Nat :=
  match (s.core c).inv with
  | some v => if v.bind = none ∨ (s.core c).resuming = true then [] else sramBank (s.regs c).pc.toNat
  | none => []

/-- A fetch from code SRAM is served after its waits (R24). -/
def fetchWait (c : CoreId) (s : State) : State :=
  let b := fetchBanks c s
  chargePart c (sramWait c b s) (useBanks c b s)

/-- The fetch at a core's pc: `none` when the core goes on to the instruction. A host packet is not fetched. -/
inductive Fetch where
  /-- the instruction word is there; state with counts, cache and cycles -/
  | ok (s : State)
  /-- the invocation faulted or stalls -/
  | done (s : State)

def fetch (c : CoreId) (i : Instr) (v : Inv) (s : State) : Fetch :=
  if v.bind = none then .ok s
  else
    let pc := (s.regs c).pc
    let a := pc.toNat
    if a % 4 ≠ 0 ∨ inCodeWindows s v.tenant a = false then .done (fault c fltFetch pc s)
    else if regionOf a = .code then
      let r := readSram a s
      if r.dbl then .done (fault c fltEcc pc r.s) else .ok (fetchWait c r.s)
    else
      if s.hasFailed .flash then .done (fault c fltFetch pc s)
      else match waitsFor .flash s with
        | some f => .done (stallOn c i true f s)
        | none =>
          if (vget s.icache (cacheSet a)).contains (cacheTag a) then .ok (cacheTouch a s).2
          else
            let l := lineSpan (a - flashBase) 4
            if flashServed l.1 l.2 s then
              .ok (chargePart c (fillClks s.level.cur)
                (flashRead (a - flashBase) (fillClks s.level.cur) (cacheTouch a s).2))
            else .done (stallRead c i true l.1 l.2 s)

/-- A core runs an instruction: it must hold an invocation that has reached its first instruction (R41, R63), and be
neither stalled nor paused. The instruction of a stall that has ended goes on from order 4 (R34); any other comes to a
boundary, unless clocks of its run have passed already, and to a fetch. -/
def issue (c : CoreId) (i : Instr) (s : State) (k : Inv → State → State) : State :=
  match (s.core c).inv with
  | none => s
  | some v =>
    if s.running = false ∨ (s.core c).paused = true ∨ (s.core c).stall.isSome = true ∨ s.time.clk < (s.core c).goAt then s
    else if (s.core c).resuming then k v s
    else if (s.core c).paid = 0 ∧ (v.stopped = true ∨ (dueFault v).isSome = true) then boundary c s
    else match fetch c i v s with
      | .done s => s
      | .ok s => k v s

/-- An ALU, VEC or FLOW instruction: FLT_OPCODE when its encoding is undefined (R55, R57), else its effect on the
registers, its cycles and the next address. -/
def plainInstr (c : CoreId) (i : Instr) (ok : Bool) (cyc : Nat) (f : Regs → Regs) (s : State) : State :=
  issue c i s (fun _ s =>
    if ok then
      let r := s.regs c
      charge c cyc (s.setRegs c { f r with pc := r.pc + 4 })
    else fault c fltOpcode (s.regs c).pc s)

/-- The outcome of orders 6 to 9 of Table 1.5: status, state, the registers' change besides FL.STAT and pc, the
cycles beyond the base count, and what follows retirement. -/
structure Ans where
  st : BitVec 8
  s : State
  upd : Regs → Regs := id
  extra : Nat := 0
  after : State → State := id
  /-- false: the instruction does not retire now (an entered SLEEP, R85) -/
  retires : Bool := true
  /-- SRAM banks that the instruction's data accesses use in the clock of its retirement (R24) -/
  banks : List Nat := []

/-- The counters of R30 for the issuing tenant. -/
def countRefusal (t : Tid) (st : BitVec 8) (s : State) : State :=
  if st = stState then s.modTenant t (fun x => { x with nstate := satInc x.nstate })
  else if st = stCap then s.modTenant t (fun x => { x with ncap := satInc x.ncap })
  else s

/-- An instruction retires with a status: counters, registers, FL.STAT, next address and cycles. -/
def retire (c : CoreId) (t : Tid) (st : BitVec 8) (upd : Regs → Regs) (cyc : Nat) (s : State) : State :=
  let s := countRefusal t st s
  let r := s.regs c
  let u := upd r
  let s := s.setRegs c { u with fl := u.fl.setStat st, pc := r.pc + 4 }
  let s := s.setCore c { s.core c with resuming := false }
  charge c cyc s

/-- What a status-writing instruction checks and does (Table 1.5). -/
structure Spec where
  /-- order 1, vector fields (R57) -/
  o1 : Bool := true
  /-- order 2 passes -/
  o2 : Tid → Regs → State → Bool := fun _ _ _ => true
  /-- order 3 passes -/
  o3 : Tid → Regs → State → Bool := fun _ _ _ => true
  /-- order 4: the addressed function or unit has failed -/
  failed : Tid → Regs → State → Bool := fun _ _ _ => false
  /-- order 5: the function to wait for -/
  waits : Tid → Regs → State → Option Func := fun _ _ _ => none
  /-- the span of flash that it reads beside a program or erase (R456, R457) -/
  reads : Tid → Regs → State → Option (Nat × Nat) := fun _ _ _ => none
  /-- orders 6 to 9 -/
  body : CoreId → Tid → Regs → State → Ans
  /-- the base count (Table 2.3) -/
  cyc : State → Nat := State.base

/-- The span of flash that an instruction waits to read, when it cannot be served now. -/
def readWaits (sp : Spec) (t : Tid) (r : Regs) (s : State) : Option (Nat × Nat) :=
  match sp.reads t r s with
  | some (off, n) => if flashServed off n s then none else some (off, n)
  | none => none

/-- A status-writing instruction, checked in the order of Table 1.5 (R28). -/
def specInstr (c : CoreId) (i : Instr) (sp : Spec) (s0 : State) : State :=
  issue c i s0 (fun v s =>
    let t := v.tenant
    let r := s.regs c
    let b := sp.cyc s
    let fresh := !(s.core c).resuming
    if fresh && !sp.o1 then fault c fltOpcode r.pc s
    else if fresh && !sp.o2 t r s then retire c t stRange id b s
    else if fresh && !sp.o3 t r s then retire c t stCap id b s
    else if sp.failed t r s then retire c t stNotReady id b s
    else match sp.waits t r s with
      | some f => stallOn c i false f s
      | none =>
        match readWaits sp t r s with
        | some (off, n) => stallRead c i false off n s
        | none =>
          let a := sp.body c t r s
          let w := sramWait c a.banks s0 - sramWait c (fetchBanks c s0) s0
          if a.retires then a.after (retire c t a.st a.upd (b + a.extra + w) (useBanks c a.banks a.s)) else a.s)

/-- A refusal or plain status at orders 6 to 8 with no effect (R29). -/
def Ans.status (st : BitVec 8) (s : State) (words : Nat := 0) : Ans := { st := st, s := s, extra := words }

/-- Success. -/
def Ans.ok (s : State) (words : Nat := 0) : Ans := { st := stOk, s := s, extra := words }

/-- Success with a result in rd. -/
def Ans.val (d : BitVec 4) (x : Word) (s : State) (words : Nat := 0) (st : BitVec 8 := stOk) : Ans :=
  { st := st, s := s, upd := fun r => r.wr d x, extra := words }

/-- The SRAM bank that the last of `n` words from an address uses: no word, none. -/
def blockBanks (a n : Nat) : List Nat := if n = 0 then [] else sramBank (a + 4 * (n - 1))

/-- A parameter block of `n` words at an address, read at order 7 (R60, R61): on a double-bit error the answer is
ST_ECC with the words' cycles, else what `k` makes of the words. -/
def withBlock (a n : Nat) (s : State) (k : Words → State → Ans) : Ans :=
  let (ws, bad, s) := readBlock a n s
  let x := if bad then .status stEcc s n else k ws s
  { x with banks := blockBanks a n ++ x.banks }

/-- A further block that a first block of `w` words names (R59, R62): on a double-bit error the words of both count. -/
def withMore (w a n : Nat) (s : State) (k : Words → State → Ans) : Ans :=
  let (ws, bad, s) := readBlock a n s
  let x := if bad then .status stEcc s (w + n) else k ws s
  { x with banks := blockBanks a n ++ x.banks }

/-- FLOW: an encoding check, then the whole effect given the registers. A taken target outside the tenant's code
windows, or not word-aligned, raises FLT_FETCH at the target (R72, R73). -/
def goTo (c : CoreId) (v : Inv) (target : Word) (s : State) : State :=
  let s := s.setRegs c { s.regs c with pc := target }
  if v.bind = none then s
  else if target.toNat % 4 ≠ 0 ∨ inCodeWindows s v.tenant target.toNat = false then fault c fltFetch target s
  else s

end Sys2Proof.Machine
end

