-- ==== Sys2Proof/Machine/Alu.lean ====
section
/-!
DEFINITION. Sys2Proof/Machine/Alu.lean: the ALU instructions (Table 2.5, R64 to R66).
-/
namespace Sys2Proof.Machine

/-- The outcome of every meaning. -/
abbrev Out := Host.Outcome State Fault Refusal

/-- Cycles of the multiply group (Table 2.3). -/
def mulCyc (s : State) : Nat := if s.level.cur = 3 then 2 else 1

/-- A result and flags written to wd and FL. -/
def Regs.put (r : Regs) (d : BitVec 4) (x : Word × Flags) : Regs := { (r.wr d x.1) with fl := x.2 }

/-- An ALU instruction of form R without MOD bits: FLT_OPCODE unless MOD lies within `mask` and the unused fields
are zero (R55). -/
def unusedZero (l : List (BitVec 4)) : Bool := l.all (fun b => b == 0)

/-- ADD: wd := wa + b, saturated with S (Table 2.5). -/
def execAdd (c : CoreId) (f : AluForm) (s : State) : Out :=
  .next (plainInstr c (.add c f) (modOk 1 f.b) 1 (fun r => r.put f.rd (addFlags (r.rd f.ra) (srcS r f.b) (satS f.b) r.fl)) s)

/-- SUB: wd := wa - b, saturated with S (Table 2.5). -/
def execSub (c : CoreId) (f : AluForm) (s : State) : Out :=
  .next (plainInstr c (.sub c f) (modOk 1 f.b) 1 (fun r => r.put f.rd (subFlags (r.rd f.ra) (srcS r f.b) (satS f.b) r.fl)) s)

/-- AND: wd := wa and b (Table 2.5). -/
def execAnd (c : CoreId) (f : AluForm) (s : State) : Out :=
  .next (plainInstr c (.and c f) (modOk 0 f.b) 1 (fun r => r.put f.rd (logicFlags (r.rd f.ra &&& srcZ r f.b) r.fl)) s)

/-- OR: wd := wa or b (Table 2.5). -/
def execOr (c : CoreId) (f : AluForm) (s : State) : Out :=
  .next (plainInstr c (.or c f) (modOk 0 f.b) 1 (fun r => r.put f.rd (logicFlags (r.rd f.ra ||| srcZ r f.b) r.fl)) s)

/-- XOR: wd := wa xor b (Table 2.5). -/
def execXor (c : CoreId) (f : AluForm) (s : State) : Out :=
  .next (plainInstr c (.xor c f) (modOk 0 f.b) 1 (fun r => r.put f.rd (logicFlags (r.rd f.ra ^^^ srcZ r f.b) r.fl)) s)

/-- SHL: wd := wa << n (R65). -/
def execShl (c : CoreId) (f : AluForm) (s : State) : Out :=
  .next (plainInstr c (.shl c f) (shiftOk f.b) 1 (fun r => r.put f.rd (shlFlags (r.rd f.ra) (shiftN r f.b) r.fl)) s)

/-- SHR: wd := wa >> n, zero fill (R65). -/
def execShr (c : CoreId) (f : AluForm) (s : State) : Out :=
  .next (plainInstr c (.shr c f) (shiftOk f.b) 1 (fun r => r.put f.rd (shrFlags (r.rd f.ra) (shiftN r f.b) r.fl)) s)

/-- SHA: wd := wa >> n, sign fill (R65). -/
def execSha (c : CoreId) (f : AluForm) (s : State) : Out :=
  .next (plainInstr c (.sha c f) (shiftOk f.b) 1 (fun r => r.put f.rd (shaFlags (r.rd f.ra) (shiftN r f.b) r.fl)) s)

/-- SLT: wd := 1 if signed wa < b (Table 2.5). -/
def execSlt (c : CoreId) (f : AluForm) (s : State) : Out :=
  .next (plainInstr c (.slt c f) (modOk 0 f.b) 1 (fun r => r.put f.rd (logicFlags (if (r.rd f.ra).slt (srcS r f.b) then 1 else 0) r.fl)) s)

/-- SLTU: wd := 1 if unsigned wa < b (Table 2.5). -/
def execSltu (c : CoreId) (f : AluForm) (s : State) : Out :=
  .next (plainInstr c (.sltu c f) (modOk 0 f.b) 1 (fun r => r.put f.rd (logicFlags (if (r.rd f.ra).ult (srcZ r f.b) then 1 else 0) r.fl)) s)

/-- MUL: the low 32 bits of the product (Table 2.5). -/
def execMul (c : CoreId) (f : RForm) (s : State) : Out :=
  .next (plainInstr c (.mul c f) (f.mod == 0) (mulCyc s) (fun r => r.put f.rd (mulFlags (r.rd f.ra) (r.rd f.rb) r.fl)) s)

/-- MULH: the high 32 bits of the signed product (Table 2.5). -/
def execMulh (c : CoreId) (f : RForm) (s : State) : Out :=
  .next (plainInstr c (.mulh c f) (f.mod == 0) (mulCyc s) (fun r => r.put f.rd (logicFlags (wordOfInt ((r.rd f.ra).toInt * (r.rd f.rb).toInt / 2 ^ 32)) r.fl)) s)

/-- MULQ: the rounded, saturated Q31 or Q15 product (Table 2.5). -/
def execMulq (c : CoreId) (f : RForm) (s : State) : Out :=
  .next (plainInstr c (.mulq c f) (f.mod.toNat / 2 == 0) (mulCyc s) (fun r => (let p := mulQ (f.mod.getLsbD 0) (r.rd f.ra) (r.rd f.rb); r.put f.rd (p.1, (r.fl.zn p.1).orQ p.2))) s)

/-- MACQ: the product added to or taken from ACC, saturating at 72 bits (Table 2.5, R66); rd is unused. -/
def execMacq (c : CoreId) (f : RForm) (s : State) : Out :=
  .next (plainInstr c (.macq c f) (f.mod.toNat / 8 == 0 && unusedZero [f.rd]) (mulCyc s) (fun r => (let a := macStep r.acc (f.mod.getLsbD 1) (f.mod.getLsbD 2) (macProd (f.mod.getLsbD 0) (r.rd f.ra) (r.rd f.rb)); { r with acc := a.1, fl := r.fl.orQ a.2 })) s)

/-- SAT: ACC rounded and saturated to wd; with CLR, ACC cleared after (Table 2.5); ra and rb are unused. -/
def execSat (c : CoreId) (f : RForm) (s : State) : Out :=
  .next (plainInstr c (.sat c f) (f.mod.toNat / 4 == 0 && unusedZero [f.ra, f.rb]) 1 (fun r => (let p := satAcc (f.mod.getLsbD 0) r.acc; { (r.put f.rd (p.1, (r.fl.zn p.1).orQ p.2)) with acc := if f.mod.getLsbD 1 then 0 else r.acc })) s)

/-- MOVL: wd := imm16 zero-extended (Table 2.5). -/
def execMovl (c : CoreId) (f : LForm) (s : State) : Out :=
  .next (plainInstr c (.movl c f) (f.zero == 0) 1 (fun r => r.wr f.rd (f.imm16.zeroExtend 32)) s)

/-- MOVH: the upper half of wd := imm16 (Table 2.5). -/
def execMovh (c : CoreId) (f : LForm) (s : State) : Out :=
  .next (plainInstr c (.movh c f) (f.zero == 0) 1 (fun r => r.wr f.rd ((f.imm16.zeroExtend 32 <<< 16) ||| (r.rd f.rd &&& 0xFFFF))) s)

/-- MOVS: wd := imm16 sign-extended (Table 2.5). -/
def execMovs (c : CoreId) (f : LForm) (s : State) : Out :=
  .next (plainInstr c (.movs c f) (f.zero == 0) 1 (fun r => r.wr f.rd (f.imm16.signExtend 32)) s)

end Sys2Proof.Machine
end

