-- ==== Sys2Proof/Decode.lean ====
section
/-!
DEFINITION. Sys2Proof/Decode.lean: from words to commands. The table of operations gives no row bits, so no table
word spells a command; the 32-bit instruction words of the cores (Tables 2.1 and 2.2, R52 to R57) are read by
`decodeCore`, which UNDEFINED_INSTRUCTION and host packets use, and written by `encodeCore`.
-/
namespace Sys2Proof

open Sys2Proof.Machine

/-- The command a table word spells: none, since no row of the table gives bits. -/
def decodeTableWord (_nbits _w : Nat) : Option Instr := none

/-! ## Fields (Table 2.1) -/

/-- Major opcode, bits [31:26] (R52). -/
def majorOf (w : Word) : Nat := (w.extractLsb' 26 6).toNat
/-- FN of forms R and U, bits [13:8]. -/
def fnOf (w : Word) : Nat := (w.extractLsb' 8 6).toNat
/-- FN of form I, bits [17:14]. -/
def fnIOf (w : Word) : Nat := (w.extractLsb' 14 4).toNat
/-- FN of form L, bits [21:20]. -/
def fnLOf (w : Word) : Nat := (w.extractLsb' 20 2).toNat
/-- FN of form B, bits [25:22]. -/
def fnBOf (w : Word) : Nat := (w.extractLsb' 22 4).toNat

/-- Form R. -/
def rForm (w : Word) : RForm := ⟨w.extractLsb' 22 4, w.extractLsb' 18 4, w.extractLsb' 14 4, w.extractLsb' 0 8⟩
/-- Form U. -/
def uForm (w : Word) : UForm := ⟨w.extractLsb' 22 4, w.extractLsb' 18 4, w.extractLsb' 14 4, w.extractLsb' 0 8⟩
/-- Form I. -/
def iForm (w : Word) : IForm := ⟨w.extractLsb' 22 4, w.extractLsb' 18 4, w.extractLsb' 0 14⟩
/-- Form L. -/
def lForm (w : Word) : LForm := ⟨w.extractLsb' 22 4, w.extractLsb' 16 4, w.extractLsb' 0 16⟩
/-- Form B. -/
def bForm (w : Word) : BForm := ⟨w.extractLsb' 18 4, w.extractLsb' 0 18⟩
/-- An ALU instruction in form R. -/
def aluR (w : Word) : AluForm :=
  ⟨w.extractLsb' 22 4, w.extractLsb' 18 4, .reg (w.extractLsb' 14 4) (w.extractLsb' 0 8)⟩
/-- An ALU instruction in form I. -/
def aluI (w : Word) : AluForm := ⟨w.extractLsb' 22 4, w.extractLsb' 18 4, .imm (w.extractLsb' 0 14)⟩

/-! ## Functions of each class -/

/-- ALU, form R (Table 2.5). -/
def decAluR (c : CoreId) (w : Word) : Option Instr :=
  match fnOf w with
  | 1 => some (.add c (aluR w))
  | 2 => some (.sub c (aluR w))
  | 3 => some (.and c (aluR w))
  | 4 => some (.or c (aluR w))
  | 5 => some (.xor c (aluR w))
  | 6 => some (.shl c (aluR w))
  | 7 => some (.shr c (aluR w))
  | 8 => some (.sha c (aluR w))
  | 9 => some (.slt c (aluR w))
  | 10 => some (.sltu c (aluR w))
  | 16 => some (.mul c (rForm w))
  | 17 => some (.mulh c (rForm w))
  | 18 => some (.mulq c (rForm w))
  | 19 => some (.macq c (rForm w))
  | 20 => some (.sat c (rForm w))
  | _ => none

/-- ALU, form I (Table 2.5). -/
def decAluI (c : CoreId) (w : Word) : Option Instr :=
  match fnIOf w with
  | 1 => some (.add c (aluI w))
  | 2 => some (.sub c (aluI w))
  | 3 => some (.and c (aluI w))
  | 4 => some (.or c (aluI w))
  | 5 => some (.xor c (aluI w))
  | 6 => some (.shl c (aluI w))
  | 7 => some (.shr c (aluI w))
  | 8 => some (.sha c (aluI w))
  | 9 => some (.slt c (aluI w))
  | 10 => some (.sltu c (aluI w))
  | _ => none

/-- ALU, form L (Table 2.5). -/
def decAluL (c : CoreId) (w : Word) : Option Instr :=
  match fnLOf w with
  | 0 => some (.movl c (lForm w))
  | 1 => some (.movh c (lForm w))
  | 2 => some (.movs c (lForm w))
  | _ => none

/-- VEC (Table 2.6); MOD[0] of FN 0x01 selects VSUB. -/
def decVec (c : CoreId) (w : Word) : Option Instr :=
  match fnOf w with
  | 1 => some (if w.getLsbD 0 then .vsub c (rForm w) else .vadd c (rForm w))
  | 2 => some (.vmul c (rForm w))
  | 3 => some (.vdot c (rForm w))
  | 4 => some (.vcross c (rForm w))
  | 5 => some (.vnorm c (rForm w))
  | 6 => some (.vins c (rForm w))
  | 7 => some (.vext c (rForm w))
  | _ => none

/-- MEM (Table 2.7). -/
def decMem (c : CoreId) (w : Word) : Option Instr :=
  match fnIOf w with
  | 0 => some (.ldw c (iForm w))
  | 1 => some (.stw c (iForm w))
  | 2 => some (.ldv c (iForm w))
  | 3 => some (.stv c (iForm w))
  | _ => none

/-- FLOW, form B (R71). -/
def decFlowB (c : CoreId) (w : Word) : Option Instr :=
  match fnBOf w with
  | 0 => some (.bra c (bForm w))
  | 1 => some (.bz c (bForm w))
  | 2 => some (.bnz c (bForm w))
  | 3 => some (.call c (bForm w))
  | 4 => some (.bzSt c (bForm w))
  | 5 => some (.bnzSt c (bForm w))
  | _ => none

/-- FLOW, form R (R72). -/
def decFlowR (c : CoreId) (w : Word) : Option Instr :=
  match fnOf w with
  | 1 => some (.braReg c (rForm w))
  | 2 => some (.callReg c (rForm w))
  | 3 => some (.ret c (rForm w))
  | 4 => some (.nop c (rForm w))
  | _ => none

/-- EVENT (Table 2.8). -/
def decEvent (c : CoreId) (w : Word) : Option Instr :=
  match fnOf w with
  | 1 => some (.bind c (rForm w))
  | 2 => some (.unbind c (rForm w))
  | 3 => some (.wait c (rForm w))
  | 4 => some (.raise c (rForm w))
  | 5 => some (.yield c (rForm w))
  | 6 => some (.exit c (rForm w))
  | _ => none

/-- TIME (R79, Table 2.9); MOD[0] of FN 0x01 selects TIME.H. -/
def decTime (c : CoreId) (w : Word) : Option Instr :=
  match fnOf w with
  | 1 => some (if w.getLsbD 0 then .timeH c (rForm w) else .time c (rForm w))
  | 2 => some (.alarmAt c (rForm w))
  | 3 => some (.alarmEvery c (rForm w))
  | 4 => some (.alarmOff c (rForm w))
  | _ => none

/-- SYSTEM (Table 2.10). -/
def decSystem (c : CoreId) (w : Word) : Option Instr :=
  match fnOf w with
  | 1 => some (.level c (rForm w))
  | 2 => some (.sleep c (rForm w))
  | 3 => some (.vote c (rForm w))
  | 4 => some (.holdrel c (rForm w))
  | 5 => some (.inval c (rForm w))
  | 6 => some (.flags c (rForm w))
  | 7 => some (.spool c (rForm w))
  | 8 => some (.grant c (rForm w))
  | 9 => some (.revoke c (rForm w))
  | _ => none

/-- Opcode 0x20 (Table 2.12). -/
def decSense (c : CoreId) (w : Word) : Option Instr :=
  match fnOf w with
  | 0 => some (.senseSet c (uForm w))
  | 1 => some (.senseStart c (uForm w))
  | 2 => some (.senseStop c (uForm w))
  | 3 => some (.senseHold c (uForm w))
  | 4 => some (.senseReturn c (uForm w))
  | 5 => some (.senseOff c (uForm w))
  | 8 => some (.tone c (uForm w))
  | _ => none

/-- Opcode 0x21 (Table 2.12). -/
def decCal (c : CoreId) (w : Word) : Option Instr :=
  match fnOf w with
  | 0 => some (.calput c (uForm w))
  | 1 => some (.calswap c (uForm w))
  | 2 => some (.calputP c (uForm w))
  | _ => none

/-- Opcode 0x22 (Table 2.12). -/
def decLane (c : CoreId) (w : Word) : Option Instr :=
  match fnOf w with
  | 0 => some (.laneBuild c (uForm w))
  | 1 => some (.laneLoad c (uForm w))
  | 2 => some (.laneStart c (uForm w))
  | 3 => some (.laneSuspend c (uForm w))
  | 4 => some (.laneResume c (uForm w))
  | 5 => some (.laneStop c (uForm w))
  | 6 => some (.laneClear c (uForm w))
  | _ => none

/-- Opcode 0x23 (Table 2.12). -/
def decRecog (c : CoreId) (w : Word) : Option Instr :=
  match fnOf w with
  | 0 => some (.recogSet c (uForm w))
  | 1 => some (.recogArm c (uForm w))
  | 2 => some (.recogDisarm c (uForm w))
  | 3 => some (.recogClear c (uForm w))
  | _ => none

/-- Opcode 0x24 (Table 2.12). -/
def decRing (c : CoreId) (w : Word) : Option Instr :=
  match fnOf w with
  | 0 => some (.ringSet c (uForm w))
  | 1 => some (.ringArm c (uForm w))
  | 2 => some (.ringTrig c (uForm w))
  | 3 => some (.ringDisarm c (uForm w))
  | 4 => some (.ringFree c (uForm w))
  | _ => none

/-- Opcode 0x25 (Table 2.12). -/
def decAout (c : CoreId) (w : Word) : Option Instr :=
  match fnOf w with
  | 0 => some (.aoutSet c (uForm w))
  | 1 => some (.aoutStart c (uForm w))
  | 2 => some (.aoutWrite c (uForm w))
  | 3 => some (.aoutDiag c (uForm w))
  | 4 => some (.aoutRelease c (uForm w))
  | 5 => some (.aoutStop c (uForm w))
  | _ => none

/-- Opcode 0x28 (Table 2.12). -/
def decQueue (c : CoreId) (w : Word) : Option Instr :=
  match fnOf w with
  | 0 => some (.qset c (uForm w))
  | 1 => some (.qen c (uForm w))
  | 2 => some (.qdis c (uForm w))
  | 3 => some (.qfree c (uForm w))
  | 4 => some (.qput c (uForm w))
  | 5 => some (.qputT c (uForm w))
  | 6 => some (.qget c (uForm w))
  | 7 => some (.qcred c (uForm w))
  | 8 => some (.qflush c (uForm w))
  | _ => none

/-- Opcode 0x2C (Table 2.12). The confirmation word in wa, not the encoding, tells the two steps of SEAL apart. -/
def decJournal (c : CoreId) (w : Word) : Option Instr :=
  match fnOf w with
  | 0 => some (.jput c (uForm w))
  | 1 => some (.jcommit c (uForm w))
  | 2 => some (.jget c (uForm w))
  | 3 => some (.sealArm c (uForm w))
  | 4 => some (.jprog c (uForm w))
  | 5 => some (.jerase c (uForm w))
  | _ => none

/-- Opcode 0x30 (Table 2.12). The descriptor in memory, not the encoding, tells WAGGLE_BURST from FSEND; INST 1 of FROUTE is FROUTE_INVAL. -/
def decHive (c : CoreId) (w : Word) : Option Instr :=
  match fnOf w with
  | 0 => some (.fjoin c (uForm w))
  | 1 => some (.fleave c (uForm w))
  | 2 => some (.fsend c (uForm w))
  | 3 => some (.frecv c (uForm w))
  | 4 => some (if (uForm w).inst = 1 then .frouteInval c (uForm w) else .froute c (uForm w))
  | _ => none

/-- Opcode 0x34 (Table 2.12). -/
def decPort (c : CoreId) (w : Word) : Option Instr :=
  match fnOf w with
  | 0 => some (.portSet c (uForm w))
  | 1 => some (.portStart c (uForm w))
  | 2 => some (.portStop c (uForm w))
  | 3 => some (.portClr c (uForm w))
  | _ => none

/-- Opcode 0x35 (Table 2.12). -/
def decLine (c : CoreId) (w : Word) : Option Instr :=
  match fnOf w with
  | 0 => some (.lineLoad c (uForm w))
  | 1 => some (.lineStart c (uForm w))
  | 2 => some (.lineStop c (uForm w))
  | 3 => some (.lineTx c (uForm w))
  | 4 => some (.lineRx c (uForm w))
  | _ => none

/-- The class of a word by its major opcode (Table 2.2, R54). -/
def decodeRaw (c : CoreId) (w : Word) : Option Instr :=
  match majorOf w with
  | 0x00 => decAluR c w
  | 0x01 => decAluI c w
  | 0x02 => decAluL c w
  | 0x04 => decVec c w
  | 0x08 => decMem c w
  | 0x0C => decFlowB c w
  | 0x0D => decFlowR c w
  | 0x10 => decEvent c w
  | 0x11 => decTime c w
  | 0x12 => decSystem c w
  | 0x20 => decSense c w
  | 0x21 => decCal c w
  | 0x22 => decLane c w
  | 0x23 => decRecog c w
  | 0x24 => decRing c w
  | 0x25 => decAout c w
  | 0x28 => decQueue c w
  | 0x2C => decJournal c w
  | 0x30 => decHive c w
  | 0x34 => decPort c w
  | 0x35 => decLine c w
  | _ => none

/-- The encoding of a core instruction is defined: unused bits of ALU, VEC and FLOW are zero (R55), and vector fields
hold 0 to 7 (R57). -/
def encDefined : Instr → Bool
  | .add _ f | .sub _ f => modOk 1 f.b
  | .and _ f | .or _ f | .xor _ f | .slt _ f | .sltu _ f => modOk 0 f.b
  | .shl _ f | .shr _ f | .sha _ f => shiftOk f.b
  | .mul _ f | .mulh _ f => f.mod == 0
  | .mulq _ f => f.mod.toNat / 2 == 0
  | .macq _ f => f.mod.toNat / 8 == 0 && unusedZero [f.rd]
  | .sat _ f => f.mod.toNat / 4 == 0 && unusedZero [f.ra, f.rb]
  | .movl _ f | .movh _ f | .movs _ f => f.zero == 0
  | .vadd _ f | .vsub _ f | .vmul _ f => f.mod.toNat / 2 == 0 && isVec f.rd && isVec f.ra && isVec f.rb
  | .vdot _ f => f.mod == 0 && isVec f.ra && isVec f.rb
  | .vcross _ f => f.mod == 0 && isVec f.rd && isVec f.ra && isVec f.rb
  | .vnorm _ f => f.mod == 0 && isVec f.rd && isVec f.ra && f.rb == 0
  | .vins _ f => f.mod.toNat < 3 && isVec f.rd && f.rb == 0
  | .vext _ f => f.mod.toNat < 3 && isVec f.ra && f.rb == 0
  | .ldv _ f | .stv _ f => isVec f.rd
  | .bra _ f | .call _ f | .bzSt _ f | .bnzSt _ f => f.ra == 0
  | .braReg _ f | .callReg _ f => f.mod == 0 && unusedZero [f.rd, f.rb]
  | .ret _ f | .nop _ f => f.mod == 0 && unusedZero [f.rd, f.ra, f.rb]
  | _ => true

/-- The instruction that a core reads from a word; none for an undefined one, which raises FLT_OPCODE. -/
def decodeCore (c : CoreId) (w : Word) : Option Instr := (decodeRaw c w).filter encDefined

/-! ## Encoding -/

/-- Form R. -/
def encR (op : BitVec 6) (fn : BitVec 6) (f : RForm) : Word := op ++ f.rd ++ f.ra ++ f.rb ++ fn ++ f.mod
/-- Form U. -/
def encU (op : BitVec 6) (fn : BitVec 6) (f : UForm) : Word := op ++ f.rd ++ f.ra ++ f.rb ++ fn ++ f.inst
/-- Form I of MEM. -/
def encI (fn : BitVec 4) (f : IForm) : Word := (0x08 : BitVec 6) ++ f.rd ++ f.ra ++ fn ++ f.imm14
/-- Form L. -/
def encL (fn : BitVec 2) (f : LForm) : Word := (0x02 : BitVec 6) ++ f.rd ++ fn ++ f.zero ++ f.imm16
/-- Form B. -/
def encB (fn : BitVec 4) (f : BForm) : Word := (0x0C : BitVec 6) ++ fn ++ f.ra ++ f.off18
/-- An ALU instruction of forms R and I; both FN values of Table 2.5 are one number. -/
def encAlu (fn : BitVec 4) (f : AluForm) : Word :=
  match f.b with
  | .reg rb m => (0x00 : BitVec 6) ++ f.rd ++ f.ra ++ rb ++ (0 : BitVec 2) ++ fn ++ m
  | .imm i => (0x01 : BitVec 6) ++ f.rd ++ f.ra ++ fn ++ i

/-- The word of a core instruction; none for a command that is no core instruction. -/
def encodeCore : Instr → Option Word
  | .add _ f => some (encAlu 1 f)
  | .sub _ f => some (encAlu 2 f)
  | .and _ f => some (encAlu 3 f)
  | .or _ f => some (encAlu 4 f)
  | .xor _ f => some (encAlu 5 f)
  | .shl _ f => some (encAlu 6 f)
  | .shr _ f => some (encAlu 7 f)
  | .sha _ f => some (encAlu 8 f)
  | .slt _ f => some (encAlu 9 f)
  | .sltu _ f => some (encAlu 10 f)
  | .mul _ f => some (encR 0x00 0x10 f)
  | .mulh _ f => some (encR 0x00 0x11 f)
  | .mulq _ f => some (encR 0x00 0x12 f)
  | .macq _ f => some (encR 0x00 0x13 f)
  | .sat _ f => some (encR 0x00 0x14 f)
  | .vadd _ f => some (encR 0x04 0x01 f)
  | .vsub _ f => some (encR 0x04 0x01 f)
  | .vmul _ f => some (encR 0x04 0x02 f)
  | .vdot _ f => some (encR 0x04 0x03 f)
  | .vcross _ f => some (encR 0x04 0x04 f)
  | .vnorm _ f => some (encR 0x04 0x05 f)
  | .vins _ f => some (encR 0x04 0x06 f)
  | .vext _ f => some (encR 0x04 0x07 f)
  | .braReg _ f => some (encR 0x0D 0x01 f)
  | .callReg _ f => some (encR 0x0D 0x02 f)
  | .ret _ f => some (encR 0x0D 0x03 f)
  | .nop _ f => some (encR 0x0D 0x04 f)
  | .bind _ f => some (encR 0x10 0x01 f)
  | .unbind _ f => some (encR 0x10 0x02 f)
  | .wait _ f => some (encR 0x10 0x03 f)
  | .raise _ f => some (encR 0x10 0x04 f)
  | .yield _ f => some (encR 0x10 0x05 f)
  | .exit _ f => some (encR 0x10 0x06 f)
  | .time _ f => some (encR 0x11 0x01 f)
  | .timeH _ f => some (encR 0x11 0x01 f)
  | .alarmAt _ f => some (encR 0x11 0x02 f)
  | .alarmEvery _ f => some (encR 0x11 0x03 f)
  | .alarmOff _ f => some (encR 0x11 0x04 f)
  | .level _ f => some (encR 0x12 0x01 f)
  | .sleep _ f => some (encR 0x12 0x02 f)
  | .vote _ f => some (encR 0x12 0x03 f)
  | .holdrel _ f => some (encR 0x12 0x04 f)
  | .inval _ f => some (encR 0x12 0x05 f)
  | .flags _ f => some (encR 0x12 0x06 f)
  | .spool _ f => some (encR 0x12 0x07 f)
  | .grant _ f => some (encR 0x12 0x08 f)
  | .revoke _ f => some (encR 0x12 0x09 f)
  | .movl _ f => some (encL 0 f)
  | .movh _ f => some (encL 1 f)
  | .movs _ f => some (encL 2 f)
  | .ldw _ f => some (encI 0 f)
  | .stw _ f => some (encI 1 f)
  | .ldv _ f => some (encI 2 f)
  | .stv _ f => some (encI 3 f)
  | .bra _ f => some (encB 0 f)
  | .bz _ f => some (encB 1 f)
  | .bnz _ f => some (encB 2 f)
  | .call _ f => some (encB 3 f)
  | .bzSt _ f => some (encB 4 f)
  | .bnzSt _ f => some (encB 5 f)
  | .senseSet _ f => some (encU 0x20 0x00 f)
  | .senseStart _ f => some (encU 0x20 0x01 f)
  | .senseStop _ f => some (encU 0x20 0x02 f)
  | .senseHold _ f => some (encU 0x20 0x03 f)
  | .senseReturn _ f => some (encU 0x20 0x04 f)
  | .senseOff _ f => some (encU 0x20 0x05 f)
  | .tone _ f => some (encU 0x20 0x08 f)
  | .calput _ f => some (encU 0x21 0x00 f)
  | .calswap _ f => some (encU 0x21 0x01 f)
  | .calputP _ f => some (encU 0x21 0x02 f)
  | .laneBuild _ f => some (encU 0x22 0x00 f)
  | .laneLoad _ f => some (encU 0x22 0x01 f)
  | .laneStart _ f => some (encU 0x22 0x02 f)
  | .laneSuspend _ f => some (encU 0x22 0x03 f)
  | .laneResume _ f => some (encU 0x22 0x04 f)
  | .laneStop _ f => some (encU 0x22 0x05 f)
  | .laneClear _ f => some (encU 0x22 0x06 f)
  | .recogSet _ f => some (encU 0x23 0x00 f)
  | .recogArm _ f => some (encU 0x23 0x01 f)
  | .recogDisarm _ f => some (encU 0x23 0x02 f)
  | .recogClear _ f => some (encU 0x23 0x03 f)
  | .ringSet _ f => some (encU 0x24 0x00 f)
  | .ringArm _ f => some (encU 0x24 0x01 f)
  | .ringTrig _ f => some (encU 0x24 0x02 f)
  | .ringDisarm _ f => some (encU 0x24 0x03 f)
  | .ringFree _ f => some (encU 0x24 0x04 f)
  | .aoutSet _ f => some (encU 0x25 0x00 f)
  | .aoutStart _ f => some (encU 0x25 0x01 f)
  | .aoutWrite _ f => some (encU 0x25 0x02 f)
  | .aoutDiag _ f => some (encU 0x25 0x03 f)
  | .aoutRelease _ f => some (encU 0x25 0x04 f)
  | .aoutStop _ f => some (encU 0x25 0x05 f)
  | .qset _ f => some (encU 0x28 0x00 f)
  | .qen _ f => some (encU 0x28 0x01 f)
  | .qdis _ f => some (encU 0x28 0x02 f)
  | .qfree _ f => some (encU 0x28 0x03 f)
  | .qput _ f => some (encU 0x28 0x04 f)
  | .qputT _ f => some (encU 0x28 0x05 f)
  | .qget _ f => some (encU 0x28 0x06 f)
  | .qcred _ f => some (encU 0x28 0x07 f)
  | .qflush _ f => some (encU 0x28 0x08 f)
  | .jput _ f => some (encU 0x2C 0x00 f)
  | .jcommit _ f => some (encU 0x2C 0x01 f)
  | .jget _ f => some (encU 0x2C 0x02 f)
  | .sealArm _ f => some (encU 0x2C 0x03 f)
  | .sealBurn _ f => some (encU 0x2C 0x03 f)
  | .jprog _ f => some (encU 0x2C 0x04 f)
  | .jerase _ f => some (encU 0x2C 0x05 f)
  | .fjoin _ f => some (encU 0x30 0x00 f)
  | .fleave _ f => some (encU 0x30 0x01 f)
  | .fsend _ f => some (encU 0x30 0x02 f)
  | .waggleBurst _ f => some (encU 0x30 0x02 f)
  | .frecv _ f => some (encU 0x30 0x03 f)
  | .froute _ f => some (encU 0x30 0x04 f)
  | .frouteInval _ f => some (encU 0x30 0x04 f)
  | .portSet _ f => some (encU 0x34 0x00 f)
  | .portStart _ f => some (encU 0x34 0x01 f)
  | .portStop _ f => some (encU 0x34 0x02 f)
  | .portClr _ f => some (encU 0x34 0x03 f)
  | .lineLoad _ f => some (encU 0x35 0x00 f)
  | .lineStart _ f => some (encU 0x35 0x01 f)
  | .lineStop _ f => some (encU 0x35 0x02 f)
  | .lineTx _ f => some (encU 0x35 0x03 f)
  | .lineRx _ f => some (encU 0x35 0x04 f)
  | _ => none

end Sys2Proof
end

