-- ==== Sys2Proof/Machine/Crypto.lean ====
section
/-!
DEFINITION. Sys2Proof/Machine/Crypto.lean: the hashes and signatures that spools use, SHA-256 (FIPS 180-4, R113),
SHA-512 and Ed25519 verification by the cofactored equation (RFC 8032, R113, R117), and CRC-32C (Table 16.2).
-/
namespace Sys2Proof.Machine

/-! ## SHA-2 -/

def sha256K0 : List (BitVec 32) := [0x428a2f98, 0x71374491, 0xb5c0fbcf, 0xe9b5dba5, 0x3956c25b, 0x59f111f1, 0x923f82a4, 0xab1c5ed5, 0xd807aa98, 0x12835b01, 0x243185be, 0x550c7dc3, 0x72be5d74, 0x80deb1fe, 0x9bdc06a7, 0xc19bf174]
def sha256K1 : List (BitVec 32) := [0xe49b69c1, 0xefbe4786, 0xfc19dc6, 0x240ca1cc, 0x2de92c6f, 0x4a7484aa, 0x5cb0a9dc, 0x76f988da, 0x983e5152, 0xa831c66d, 0xb00327c8, 0xbf597fc7, 0xc6e00bf3, 0xd5a79147, 0x6ca6351, 0x14292967]
def sha256K2 : List (BitVec 32) := [0x27b70a85, 0x2e1b2138, 0x4d2c6dfc, 0x53380d13, 0x650a7354, 0x766a0abb, 0x81c2c92e, 0x92722c85, 0xa2bfe8a1, 0xa81a664b, 0xc24b8b70, 0xc76c51a3, 0xd192e819, 0xd6990624, 0xf40e3585, 0x106aa070]
def sha256K3 : List (BitVec 32) := [0x19a4c116, 0x1e376c08, 0x2748774c, 0x34b0bcb5, 0x391c0cb3, 0x4ed8aa4a, 0x5b9cca4f, 0x682e6ff3, 0x748f82ee, 0x78a5636f, 0x84c87814, 0x8cc70208, 0x90befffa, 0xa4506ceb, 0xbef9a3f7, 0xc67178f2]
/-- Round constants of SHA-256. -/
def sha256K : List (BitVec 32) := sha256K0 ++ sha256K1 ++ sha256K2 ++ sha256K3

def sha512K0 : List (BitVec 64) := [0x428a2f98d728ae22, 0x7137449123ef65cd, 0xb5c0fbcfec4d3b2f, 0xe9b5dba58189dbbc, 0x3956c25bf348b538, 0x59f111f1b605d019, 0x923f82a4af194f9b, 0xab1c5ed5da6d8118, 0xd807aa98a3030242, 0x12835b0145706fbe, 0x243185be4ee4b28c, 0x550c7dc3d5ffb4e2, 0x72be5d74f27b896f, 0x80deb1fe3b1696b1, 0x9bdc06a725c71235, 0xc19bf174cf692694]
def sha512K1 : List (BitVec 64) := [0xe49b69c19ef14ad2, 0xefbe4786384f25e3, 0xfc19dc68b8cd5b5, 0x240ca1cc77ac9c65, 0x2de92c6f592b0275, 0x4a7484aa6ea6e483, 0x5cb0a9dcbd41fbd4, 0x76f988da831153b5, 0x983e5152ee66dfab, 0xa831c66d2db43210, 0xb00327c898fb213f, 0xbf597fc7beef0ee4, 0xc6e00bf33da88fc2, 0xd5a79147930aa725, 0x6ca6351e003826f, 0x142929670a0e6e70]
def sha512K2 : List (BitVec 64) := [0x27b70a8546d22ffc, 0x2e1b21385c26c926, 0x4d2c6dfc5ac42aed, 0x53380d139d95b3df, 0x650a73548baf63de, 0x766a0abb3c77b2a8, 0x81c2c92e47edaee6, 0x92722c851482353b, 0xa2bfe8a14cf10364, 0xa81a664bbc423001, 0xc24b8b70d0f89791, 0xc76c51a30654be30, 0xd192e819d6ef5218, 0xd69906245565a910, 0xf40e35855771202a, 0x106aa07032bbd1b8]
def sha512K3 : List (BitVec 64) := [0x19a4c116b8d2d0c8, 0x1e376c085141ab53, 0x2748774cdf8eeb99, 0x34b0bcb5e19b48a8, 0x391c0cb3c5c95a63, 0x4ed8aa4ae3418acb, 0x5b9cca4f7763e373, 0x682e6ff3d6b2b8a3, 0x748f82ee5defb2fc, 0x78a5636f43172f60, 0x84c87814a1f0ab72, 0x8cc702081a6439ec, 0x90befffa23631e28, 0xa4506cebde82bde9, 0xbef9a3f7b2c67915, 0xc67178f2e372532b]
def sha512K4 : List (BitVec 64) := [0xca273eceea26619c, 0xd186b8c721c0c207, 0xeada7dd6cde0eb1e, 0xf57d4f7fee6ed178, 0x6f067aa72176fba, 0xa637dc5a2c898a6, 0x113f9804bef90dae, 0x1b710b35131c471b, 0x28db77f523047d84, 0x32caab7b40c72493, 0x3c9ebe0a15c9bebc, 0x431d67c49c100d4c, 0x4cc5d4becb3e42b6, 0x597f299cfc657e2a, 0x5fcb6fab3ad6faec, 0x6c44198c4a475817]
/-- Round constants of SHA-512. -/
def sha512K : List (BitVec 64) := sha512K0 ++ sha512K1 ++ sha512K2 ++ sha512K3 ++ sha512K4

/-- Eight working variables of a SHA-2 hash with words of `n` bits. -/
structure Sha (n : Nat) where
  a : BitVec n
  b : BitVec n
  c : BitVec n
  d : BitVec n
  e : BitVec n
  f : BitVec n
  g : BitVec n
  h : BitVec n

/-- Initial value of SHA-256. -/
def sha256Init : Sha 32 := ⟨0x6a09e667, 0xbb67ae85, 0x3c6ef372, 0xa54ff53a, 0x510e527f, 0x9b05688c, 0x1f83d9ab, 0x5be0cd19⟩

/-- Initial value of SHA-512. -/
def sha512Init : Sha 64 := ⟨0x6a09e667f3bcc908, 0xbb67ae8584caa73b, 0x3c6ef372fe94f82b, 0xa54ff53a5f1d36f1, 0x510e527fade682d1, 0x9b05688c2b3e6c1f, 0x1f83d9abfb41bd6b, 0x5be0cd19137e2179⟩

/-- The rotation and shift amounts of one size of SHA-2. -/
structure ShaPar where
  s0 : Nat × Nat × Nat
  s1 : Nat × Nat × Nat
  S0 : Nat × Nat × Nat
  S1 : Nat × Nat × Nat

def sha256Par : ShaPar := ⟨(7, 18, 3), (17, 19, 10), (2, 13, 22), (6, 11, 25)⟩
def sha512Par : ShaPar := ⟨(1, 8, 7), (19, 61, 6), (28, 34, 39), (14, 18, 41)⟩

def smallSigma {n : Nat} (p : Nat × Nat × Nat) (x : BitVec n) : BitVec n :=
  x.rotateRight p.1 ^^^ x.rotateRight p.2.1 ^^^ (x >>> p.2.2)

def bigSigma {n : Nat} (p : Nat × Nat × Nat) (x : BitVec n) : BitVec n :=
  x.rotateRight p.1 ^^^ x.rotateRight p.2.1 ^^^ x.rotateRight p.2.2

/-- The message schedule's next words, newest first; `w` holds at least 16 words. -/
def shaExtend {n : Nat} (p : ShaPar) : Nat → List (BitVec n) → List (BitVec n)
  | 0, w => w
  | k + 1, w =>
    shaExtend p k
      ((smallSigma p.s1 (w.getD 1 0) + w.getD 6 0 + smallSigma p.s0 (w.getD 14 0) + w.getD 15 0) :: w)

/-- One round. -/
def shaRound {n : Nat} (p : ShaPar) (v : Sha n) (kw : BitVec n × BitVec n) : Sha n :=
  let t1 := v.h + bigSigma p.S1 v.e + ((v.e &&& v.f) ^^^ (~~~v.e &&& v.g)) + kw.1 + kw.2
  let t2 := bigSigma p.S0 v.a + ((v.a &&& v.b) ^^^ (v.a &&& v.c) ^^^ (v.b &&& v.c))
  ⟨t1 + t2, v.a, v.b, v.c, v.d + t1, v.e, v.f, v.g⟩

/-- One block of 16 words. -/
def shaBlock {n : Nat} (p : ShaPar) (K : List (BitVec n)) (v : Sha n) (blk : List (BitVec n)) : Sha n :=
  let w := (shaExtend p (K.length - 16) blk.reverse).reverse
  let r := (K.zip w).foldl (shaRound p) v
  ⟨v.a + r.a, v.b + r.b, v.c + r.c, v.d + r.d, v.e + r.e, v.f + r.f, v.g + r.g, v.h + r.h⟩

/-- A big-endian number from bytes. -/
def beNat (l : List Byte) : Nat := l.foldl (fun a b => a * 256 + b.toNat) 0

/-- The `k` low bytes of a number, highest first. -/
def beBytes (k v : Nat) : List Byte := (leBytes k v).reverse

/-- A list cut into runs of `k`, at most `fuel` of them. -/
def runsOf {α : Type} (k : Nat) : Nat → List α → List (List α)
  | 0, _ => []
  | f + 1, l => if l.isEmpty then [] else l.take k :: runsOf k f (l.drop k)

/-- A message padded for blocks of `blk` bytes with a length field of `lf` bytes. -/
def shaPad (blk lf : Nat) (m : List Byte) : List Byte :=
  m ++ [0x80] ++ List.replicate ((2 * blk - (m.length + 1 + lf) % blk) % blk) 0 ++ beBytes lf (8 * m.length)

/-- The hash over whole blocks. -/
def shaRun {n : Nat} (p : ShaPar) (K : List (BitVec n)) (wb : Nat) (iv : Sha n) (m : List Byte) : Sha n :=
  (runsOf (16 * wb) (m.length / (16 * wb) + 1) m).foldl
    (fun v b => shaBlock p K v ((runsOf wb 16 b).map (fun x => BitVec.ofNat n (beNat x)))) iv

def shaBytes {n : Nat} (wb : Nat) (v : Sha n) : List Byte :=
  [v.a, v.b, v.c, v.d, v.e, v.f, v.g, v.h].flatMap (fun x => beBytes wb x.toNat)

/-- SHA-256 of a message: 32 bytes. -/
def sha256 (m : List Byte) : List Byte := shaBytes 4 (shaRun sha256Par sha256K 4 sha256Init (shaPad 64 8 m))

/-- SHA-512 of a message: 64 bytes. -/
def sha512 (m : List Byte) : List Byte := shaBytes 8 (shaRun sha512Par sha512K 8 sha512Init (shaPad 128 16 m))

/-! ## CRC-32C -/

/-- One bit of the reflected CRC-32C. -/
def crcBit (c : BitVec 32) : BitVec 32 := if c.getLsbD 0 then (c >>> 1) ^^^ 0x82F63B78 else c >>> 1

def crcByte (c : BitVec 32) (b : Byte) : BitVec 32 :=
  let x := c ^^^ b.zeroExtend 32
  crcBit (crcBit (crcBit (crcBit (crcBit (crcBit (crcBit (crcBit x)))))))

/-- CRC-32C of a run of bytes (Castagnoli polynomial, reflected, initial and final inversion). -/
def crc32c (l : List Byte) : BitVec 32 := ~~~(l.foldl crcByte 0xFFFFFFFF)

/-! ## Ed25519 -/

def edP : Nat := 2 ^ 255 - 19
def edL : Nat := 2 ^ 252 + 27742317777372353535851937790883648493

/-- Power modulo p over the bits of the exponent, least significant first. -/
def edPow : Nat → Nat → Nat → Nat → Nat
  | 0, _, _, acc => acc
  | k + 1, b, e, acc => edPow k (b * b % edP) (e / 2) (if e % 2 = 1 then acc * b % edP else acc)

def edExp (b e : Nat) : Nat := edPow 256 (b % edP) e 1
def edInv (a : Nat) : Nat := edExp a (edP - 2)
def edSub (a b : Nat) : Nat := (a + edP - b % edP) % edP
def edD : Nat := edSub 0 121665 * edInv 121666 % edP

/-- A point in extended coordinates. -/
structure EdPt where
  x : Nat
  y : Nat
  z : Nat
  t : Nat

def edZero : EdPt := ⟨0, 1, 1, 0⟩

/-- Point addition (RFC 8032 section 5.1.4). -/
def edAdd (p q : EdPt) : EdPt :=
  let a := edSub p.y p.x * edSub q.y q.x % edP
  let b := (p.y + p.x) * (q.y + q.x) % edP
  let c := p.t * 2 * edD % edP * q.t % edP
  let d := p.z * 2 * q.z % edP
  let e := edSub b a
  let f := edSub d c
  let g := (d + c) % edP
  let h := (b + a) % edP
  ⟨e * f % edP, g * h % edP, f * g % edP, e * h % edP⟩

/-- A scalar multiple over `k` bits, most significant first. -/
def edMul : Nat → Nat → EdPt → EdPt
  | 0, _, _ => edZero
  | k + 1, n, p =>
    let q := edMul k (n / 2) p
    let q := edAdd q q
    if n % 2 = 1 then edAdd q p else q

def edEq (p q : EdPt) : Bool :=
  (p.x * q.z + edP * edP - q.x * p.z) % edP == 0 && (p.y * q.z + edP * edP - q.y * p.z) % edP == 0

/-- A point decoded from 32 bytes (RFC 8032 section 5.1.3). -/
def edDecode (b : List Byte) : Option EdPt :=
  let n := leNat b
  let y := n % 2 ^ 255
  let sign := n / 2 ^ 255
  if edP ≤ y then none
  else
    let u := edSub (y * y) 1
    let v := (edD * (y * y % edP) + 1) % edP
    let v3 := v * v % edP * v % edP
    let x0 := u * v3 % edP * edExp (u * (v3 * v3 % edP * v % edP)) ((edP - 5) / 8) % edP
    let vx := v * (x0 * x0 % edP) % edP
    let x1 := if vx = u then some x0
      else if vx = edSub 0 u then some (x0 * edExp 2 ((edP - 1) / 4) % edP) else none
    match x1 with
    | none => none
    | some x =>
      if x = 0 ∧ sign = 1 then none
      else
        let x := if x % 2 = sign then x else edSub 0 x
        some ⟨x, y, 1, x * y % edP⟩

/-- The base point: y = 4/5, x even. -/
def edBase : EdPt := (edDecode (leBytes 32 (4 * edInv 5 % edP))).getD edZero

/-- Verification by the cofactored equation; a signature with S ≥ L fails (R117). -/
def edVerify (pub msg sig : List Byte) : Bool :=
  let s := leNat (sig.drop 32)
  match edDecode pub, edDecode (sig.take 32) with
  | some a, some r =>
    if edL ≤ s then false
    else
      let k := leNat (sha512 (sig.take 32 ++ pub ++ msg)) % edL
      edEq (edMul 4 8 (edMul 253 s edBase)) (edMul 4 8 (edAdd r (edMul 253 k a)))
  | _, _ => false

end Sys2Proof.Machine
end

