-- ==== Sys2Proof/Machine/Aes.lean ====
section
/-!
DEFINITION. Sys2Proof/Machine/Aes.lean: AES-128 (FIPS 197) and CCM* with a 2-octet length field, as IEEE 802.15.4 uses
them (R442), and the frame check sequence of IEEE 802.15.4 (ITU-T CRC-16).
-/
namespace Sys2Proof.Machine

/-! ## AES-128 -/

/-- The substitution box, 64 entries to a number, entry 0 in the low byte. -/
def aesBox : List Nat := [
  0x75b227ebe28012079a059618c323c7041531d871f1e5a534ccf73f362693fdb7c072a49cafa2d4adf04759fa7dc982ca76abd7fe2b670130c56f6bf27b777c63,
  0xd2f3ff1021dab6bcf5389d928f40a351a89f3c507f02f94585334d43fbaaefd0cf584c4a39becb6a5bb1fc20ed00d153842fe329b3d63b52a05a6e1b1a2c8309,
  0x08ae7a65eaf4566ca94ed58d6d37c8e779e4959162acd3c25c2406490a3a32e0db0b5ede14b8ee4688902a22dc4f816073195d643d7ea7c41744975fec130ccd,
  0x16bb54b00f2d99416842e6bf0d89a18cdf2855cee9871e9b948ed9691198f8e19e1dc186b95735610ef6034866b53e708a8bbd4b1f74dde8c6b4a61c2e2578ba]

/-- One byte through the substitution box. -/
def aesSub (b : Byte) : Byte := BitVec.ofNat 8 (aesBox.getD (b.toNat / 64) 0 / 2 ^ (8 * (b.toNat % 64)))

/-- Multiplication by x in the field of AES. -/
def aesX (b : Byte) : Byte := (b <<< 1) ^^^ (if b.getLsbD 7 then 0x1B else 0)

/-- Bytes combined by exclusive or, as long as the shorter list. -/
def xorBytes (a b : List Byte) : List Byte := List.zipWith (· ^^^ ·) a b

/-- The next round key, with the round constant. -/
def aesNextKey (rc : Byte) (k : List Byte) : List Byte :=
  let g (i : Nat) : Byte := k.getD i 0
  let w0 := xorBytes (k.take 4) [aesSub (g 13) ^^^ rc, aesSub (g 14), aesSub (g 15), aesSub (g 12)]
  let w1 := xorBytes w0 ((k.drop 4).take 4)
  let w2 := xorBytes w1 ((k.drop 8).take 4)
  w0 ++ w1 ++ w2 ++ xorBytes w2 (k.drop 12)

/-- ShiftRows of a state held column by column. -/
def aesShift (s : List Byte) : List Byte :=
  [0, 5, 10, 15, 4, 9, 14, 3, 8, 13, 2, 7, 12, 1, 6, 11].map (fun i => s.getD i 0)

/-- MixColumns. -/
def aesMix : List Byte → List Byte
  | a :: b :: c :: d :: r =>
    let m (p q x y : Byte) : Byte := aesX p ^^^ aesX q ^^^ q ^^^ x ^^^ y
    m a b c d :: m b c d a :: m c d a b :: m d a b c :: aesMix r
  | l => l

/-- Rounds 1 to 10: `n` rounds are left, the last without MixColumns. -/
def aesRounds : Nat → Byte → List Byte → List Byte → List Byte
  | 0, _, _, s => s
  | n + 1, rc, k, s =>
    let k := aesNextKey rc k
    let t := aesShift (s.map aesSub)
    aesRounds n (aesX rc) k (xorBytes (if n = 0 then t else aesMix t) k)

/-- One block of 16 bytes enciphered. -/
def aes128 (key block : List Byte) : List Byte := aesRounds 10 1 key (xorBytes key block)

/-! ## CCM* -/

/-- Bytes padded with zero to whole blocks of 16. -/
def padBlocks (l : List Byte) : List Byte := l ++ List.replicate ((16 - l.length % 16) % 16) 0

/-- The chained blocks of the authentication value. -/
def cbcMac (key : List Byte) : List (List Byte) → List Byte → List Byte
  | [], x => x
  | b :: r, x => cbcMac key r (aes128 key (xorBytes x b))

/-- The authentication value of CCM* for `n` MIC bytes, a 13-byte nonce, header bytes and message. -/
def ccmTag (key nonce : List Byte) (n : Nat) (hdr msg : List Byte) : List Byte :=
  let flags : Byte := BitVec.ofNat 8 ((if hdr = [] then 0 else 64) + 8 * ((n - 2) / 2) + 1)
  let b0 := flags :: nonce ++ beBytes 2 msg.length
  let auth := if hdr = [] then [] else padBlocks (beBytes 2 hdr.length ++ hdr)
  let bs := b0 ++ auth ++ padBlocks msg
  (cbcMac key (runsOf 16 (bs.length / 16) bs) (List.replicate 16 0)).take n

/-- Key stream block `i`. -/
def ccmStream (key nonce : List Byte) (i : Nat) : List Byte := aes128 key ((1 : Byte) :: nonce ++ beBytes 2 i)

/-- The message combined with the key stream from block 1. -/
def ccmCrypt (key nonce msg : List Byte) : List Byte :=
  xorBytes msg ((upFrom 1 ((msg.length + 15) / 16)).flatMap (ccmStream key nonce))

/-- The encrypted MIC. -/
def ccmMic (key nonce : List Byte) (n : Nat) (hdr msg : List Byte) : List Byte :=
  xorBytes (ccmTag key nonce n hdr msg) (ccmStream key nonce 0)

/-! ## Frame check sequence -/

def fcsBit (c : BitVec 16) : BitVec 16 := if c.getLsbD 0 then (c >>> 1) ^^^ 0x8408 else c >>> 1

def fcsByte (c : BitVec 16) (b : Byte) : BitVec 16 :=
  let c := c ^^^ b.setWidth 16
  fcsBit (fcsBit (fcsBit (fcsBit (fcsBit (fcsBit (fcsBit (fcsBit c)))))))

/-- The frame check sequence of a frame's octets. -/
def fcs16 (l : List Byte) : List Byte := leBytes 2 (l.foldl fcsByte 0).toNat

end Sys2Proof.Machine
end

