-- ==== Sys2Proof/Machine/VecOps.lean ====
section
/-!
DEFINITION. Sys2Proof/Machine/VecOps.lean: the vector instructions (Table 2.6, R67, R68).
-/
namespace Sys2Proof.Machine

/-- Cycles by level: L0, L1, L2, L3 (Table 2.3). -/
def byLevel (s : State) (a b c d : Nat) : Nat :=
  if s.level.cur = 0 then a else if s.level.cur = 1 then b else if s.level.cur = 2 then c else d

/-- A value saturated to Q31, and whether it saturated. -/
def sat31 (i : Int) : Word × Bool := (wordOfInt (satInt 32 i), !fitsInt 32 i)

/-- A function applied per lane, with the saturations joined. -/
def lanes2 (f : Word → Word → Word × Bool) (a b : XYZ) : XYZ × Bool :=
  let x := f a.x b.x
  let y := f a.y b.y
  let z := f a.z b.z
  (⟨x.1, y.1, z.1⟩, x.2 || y.2 || z.2)

/-- The cross product, each difference exact and then rounded (Table 2.6). -/
def cross (a b : XYZ) : XYZ × Bool :=
  let d (p q u v : Word) := sat31 (roundShift (p.toInt * q.toInt - u.toInt * v.toInt) 31)
  let x := d a.y b.z a.z b.y
  let y := d a.z b.x a.x b.z
  let z := d a.x b.y a.y b.x
  (⟨x.1, y.1, z.1⟩, x.2 || y.2 || z.2)

/-- The sum of the lane products (Table 2.6 VDOT). -/
def dotSum (a b : XYZ) : Int := a.x.toInt * b.x.toInt + a.y.toInt * b.y.toInt + a.z.toInt * b.z.toInt

/-- VNORM of a vector with three free words (R68). -/
def vnorm (a : XYZ) (w0 w1 w2 : Word) : XYZ × Bool :=
  let sum := (dotSum a a).toNat
  if sum = 0 then (⟨0, 0, 0⟩, false)
  else
    let x := normLane a.x.toInt sum w0
    let y := normLane a.y.toInt sum w1
    let z := normLane a.z.toInt sum w2
    (⟨x.1, y.1, z.1⟩, x.2 || y.2 || z.2)

/-- A vector result written to vd, with Z and Q. -/
def Regs.putV (r : Regs) (d : BitVec 4) (x : XYZ × Bool) : Regs :=
  { (r.wv d x.1) with fl := vecFlags x.1 x.2 r.fl }

/-- A lane of a vector register. -/
def XYZ.lane (v : XYZ) (k : Nat) : Word := if k = 0 then v.x else if k = 1 then v.y else v.z

/-- A vector with one lane replaced. -/
def XYZ.setLane (v : XYZ) (k : Nat) (x : Word) : XYZ :=
  if k = 0 then { v with x := x } else if k = 1 then { v with y := x } else { v with z := x }

/-- VADD: per lane vd := sat32(va + vb); MOD[0] makes it VSUB (Table 2.6). -/
def execVadd (c : CoreId) (f : RForm) (s : State) : Out :=
  .next (plainInstr c (.vadd c f) (f.mod.toNat / 2 == 0 && isVec f.rd && isVec f.ra && isVec f.rb) 1 (fun r => r.putV f.rd (lanes2 (fun a b => sat31 (if f.mod.getLsbD 0 then a.toInt - b.toInt else a.toInt + b.toInt)) (r.rv f.ra) (r.rv f.rb))) s)

/-- VSUB: per lane vd := sat32(va - vb), the encoding of VADD with MOD[0] set (Table 2.6). -/
def execVsub (c : CoreId) (f : RForm) (s : State) : Out :=
  .next (plainInstr c (.vsub c f) (f.mod.toNat / 2 == 0 && isVec f.rd && isVec f.ra && isVec f.rb) 1 (fun r => r.putV f.rd (lanes2 (fun a b => sat31 (a.toInt - b.toInt)) (r.rv f.ra) (r.rv f.rb))) s)

/-- VMUL: per lane, as MULQ (Table 2.6). -/
def execVmul (c : CoreId) (f : RForm) (s : State) : Out :=
  .next (plainInstr c (.vmul c f) (f.mod.toNat / 2 == 0 && isVec f.rd && isVec f.ra && isVec f.rb) (byLevel s 2 2 2 3) (fun r => r.putV f.rd (lanes2 (mulQ (f.mod.getLsbD 0)) (r.rv f.ra) (r.rv f.rb))) s)

/-- VDOT: wd := the rounded, saturated dot product (Table 2.6). -/
def execVdot (c : CoreId) (f : RForm) (s : State) : Out :=
  .next (plainInstr c (.vdot c f) (f.mod == 0 && isVec f.ra && isVec f.rb) (byLevel s 2 2 2 3) (fun r => (let p := sat31 (roundShift (dotSum (r.rv f.ra) (r.rv f.rb)) 31); r.put f.rd (p.1, (r.fl.zn p.1).orQ p.2))) s)

/-- VCROSS: the cross product (Table 2.6). -/
def execVcross (c : CoreId) (f : RForm) (s : State) : Out :=
  .next (plainInstr c (.vcross c f) (f.mod == 0 && isVec f.rd && isVec f.ra && isVec f.rb) (byLevel s 2 2 3 3) (fun r => r.putV f.rd (cross (r.rv f.ra) (r.rv f.rb))) s)

/-- VINS: vd.lane := wa; no flag changes (Table 2.6). -/
def execVins (c : CoreId) (f : RForm) (s : State) : Out :=
  .next (plainInstr c (.vins c f) (f.mod.toNat < 3 && isVec f.rd && f.rb == 0) 1 (fun r => r.wv f.rd ((r.rv f.rd).setLane f.mod.toNat (r.rd f.ra))) s)

/-- VEXT: wd := va.lane (Table 2.6). -/
def execVext (c : CoreId) (f : RForm) (s : State) : Out :=
  .next (plainInstr c (.vext c f) (f.mod.toNat < 3 && isVec f.ra && f.rb == 0) 1 (fun r => r.put f.rd (logicFlags ((r.rv f.ra).lane f.mod.toNat) r.fl)) s)

/-- VNORM: vd := va / norm in Q31, each lane within 4 LSB of the exact quotient (R68; free values, log entry 8). -/
def execVnorm (c : CoreId) (f : RForm) (s : State) : Out :=
  .next (plainInstr c (.vnorm c f) (f.mod == 0 && isVec f.rd && isVec f.ra && f.rb == 0) (byLevel s 8 8 10 12)
    (fun r =>
      let p := vnorm (r.rv f.ra) (Config.freeWord s.free) (Config.freeWord (s.free + 1)) (Config.freeWord (s.free + 2))
      { (r.wv f.rd p.1) with fl := { r.fl with z := dotSum (r.rv f.ra) (r.rv f.ra) == 0, q := r.fl.q || p.2 } })
    { s with free := s.free + 3 })

end Sys2Proof.Machine
end

