-- ==== Sys2Proof/Machine/Flow.lean ====
section
/-!
DEFINITION. Sys2Proof/Machine/Flow.lean: the FLOW instructions (R71 to R73).
-/
namespace Sys2Proof.Machine

/-- A FLOW instruction: FLT_OPCODE when its encoding is undefined (R55), else its own effect. -/
def flowInstr (c : CoreId) (i : Instr) (ok : Bool) (k : Inv → Regs → State → State) (s : State) : State :=
  issue c i s (fun v s => if ok then k v (s.regs c) s else fault c fltOpcode (s.regs c).pc s)

/-- A taken branch: two cycles, then the target (Table 2.3, R72, R73). -/
def taken (c : CoreId) (v : Inv) (target : Word) (s : State) : State := goTo c v target (charge c 2 s)

/-- A branch that is not taken: one cycle (Table 2.3). -/
def notTaken (c : CoreId) (s : State) : State :=
  charge c 1 (s.setRegs c { s.regs c with pc := (s.regs c).pc + 4 })

/-- A conditional branch to a label. -/
def branchIf (c : CoreId) (v : Inv) (cond : Bool) (target : Word) (s : State) : State :=
  if cond then taken c v target s else notTaken c s

/-- A call: the address of the next instruction is pushed; a ninth nested call raises FLT_STACK (R73), also where its
target lies outside the code windows as well: R73 gives no order of the two faults (DESIGN CHOICE, log entry 109). -/
def callTo (c : CoreId) (v : Inv) (target : Word) (s : State) : State :=
  let r := s.regs c
  if 8 ≤ r.stack.length then fault c fltStack r.pc s
  else taken c v target (s.setRegs c { r with stack := (r.pc + 4) :: r.stack })

/-- BRA label (R71). -/
def execBra (c : CoreId) (f : BForm) (s : State) : Out :=
  .next (flowInstr c (.bra c f) (f.ra == 0) (fun v r s => taken c v (branchTarget r.pc f.off18) s) s)

/-- BZ wa, label: taken when wa = 0 (R71). -/
def execBz (c : CoreId) (f : BForm) (s : State) : Out :=
  .next (flowInstr c (.bz c f) true
    (fun v r s => branchIf c v (r.rd f.ra == 0) (branchTarget r.pc f.off18) s) s)

/-- BNZ wa, label: taken when wa ≠ 0 (R71). -/
def execBnz (c : CoreId) (f : BForm) (s : State) : Out :=
  .next (flowInstr c (.bnz c f) true
    (fun v r s => branchIf c v (r.rd f.ra != 0) (branchTarget r.pc f.off18) s) s)

/-- CALL label (R71, R73). -/
def execCall (c : CoreId) (f : BForm) (s : State) : Out :=
  .next (flowInstr c (.call c f) (f.ra == 0) (fun v r s => callTo c v (branchTarget r.pc f.off18) s) s)

/-- BZ ST, label: taken when FL.STAT = ST_OK (R71). -/
def execBzSt (c : CoreId) (f : BForm) (s : State) : Out :=
  .next (flowInstr c (.bzSt c f) (f.ra == 0)
    (fun v r s => branchIf c v (r.fl.stat == stOk) (branchTarget r.pc f.off18) s) s)

/-- BNZ ST, label: taken when FL.STAT ≠ ST_OK (R71). -/
def execBnzSt (c : CoreId) (f : BForm) (s : State) : Out :=
  .next (flowInstr c (.bnzSt c f) (f.ra == 0)
    (fun v r s => branchIf c v (r.fl.stat != stOk) (branchTarget r.pc f.off18) s) s)

/-- BRA wa: jump to wa (R72). -/
def execBraReg (c : CoreId) (f : RForm) (s : State) : Out :=
  .next (flowInstr c (.braReg c f) (f.mod == 0 && unusedZero [f.rd, f.rb])
    (fun v r s => taken c v (r.rd f.ra) s) s)

/-- CALL wa (R72, R73). -/
def execCallReg (c : CoreId) (f : RForm) (s : State) : Out :=
  .next (flowInstr c (.callReg c f) (f.mod == 0 && unusedZero [f.rd, f.rb])
    (fun v r s => callTo c v (r.rd f.ra) s) s)

/-- RET: pop the return stack and jump; FLT_STACK when it is empty (R72, R73). -/
def execRet (c : CoreId) (f : RForm) (s : State) : Out :=
  .next (flowInstr c (.ret c f) (f.mod == 0 && unusedZero [f.rd, f.ra, f.rb])
    (fun v r s =>
      match r.stack with
      | [] => fault c fltStack r.pc s
      | a :: rest => taken c v a (s.setRegs c { r with stack := rest })) s)

/-- NOP: no operation, no flag changes, one cycle (R72). -/
def execNop (c : CoreId) (f : RForm) (s : State) : Out :=
  .next (flowInstr c (.nop c f) (f.mod == 0 && unusedZero [f.rd, f.ra, f.rb]) (fun _ _ s => notTaken c s) s)

end Sys2Proof.Machine
end

