-- ==== Sys2Proof/Machine/Events.lean ====
section
/-!
DEFINITION. Sys2Proof/Machine/Events.lean: bindings, dispatch, EVENT and TIME instructions, budgets, quotas and
timers (sections 1.6, 1.7, 2.7, 2.8, 3.5).
-/
namespace Sys2Proof.Machine

/-! ## Bindings -/

/-- A binding block (R75): its three words. -/
structure BindBlock where
  w0 : Word
  w1 : Word
  w2 : Word

def BindBlock.src (b : BindBlock) : Nat := fieldOf b.w0 7 0
def BindBlock.tenant (b : BindBlock) : Tid := ⟨fieldOf b.w0 12 8 % 32, Nat.mod_lt _ (by decide)⟩
def BindBlock.core (b : BindBlock) : Nat := fieldOf b.w0 18 16
def BindBlock.budget (b : BindBlock) : Nat := fieldOf b.w2 15 0

/-- The ST_RANGE checks of R75. -/
def BindBlock.rangeOk (b : BindBlock) : Bool :=
  zeroBits b.w0 31 19 && zeroBits b.w1 1 0 && zeroBits b.w2 31 16 && b.core < 6 && srcDefined b.src

/-- The ST_CAP checks of R75 and R37, for an issuing tenant. -/
def BindBlock.capOk (s : State) (t : Tid) (b : BindBlock) : Bool :=
  mayReceive s t b.src && (b.tenant = t || t = 0) && inCodeWindows s b.tenant b.w1.toNat &&
  (b.core != 5 || b.tenant = 0) && (b.budget != 0 || b.tenant = 0)

/-- The lowest free binding index. -/
def freeBinding (s : State) : Option Nat := (vfind s.bindings (·.isNone)).head?

/-- A binding written at an index (R37). -/
def installBinding (k : Nat) (b : BindBlock) (s : State) : State :=
  { s with
    bindings := vsetD s.bindings k (some
      ⟨BitVec.ofNat 8 b.src, b.tenant, BitVec.ofNat 3 (fieldOf b.w0 15 13), BitVec.ofNat 3 b.core, false, b.w1,
       BitVec.ofNat 16 b.budget, [], 0, 0, s.bindSerial⟩)
    bindSerial := s.bindSerial + 1 }

/-- What BIND decides of a block after reading it (R75): a refusal, or the index it takes. -/
def bindDecide (s : State) (t : Tid) (b : BindBlock) : Except (BitVec 8) Nat :=
  if !b.rangeOk then .error stRange
  else if !b.capOk s t then .error stCap
  else match freeBinding s with
    | none => .error stRange
    | some k => .ok k

/-- BIND wd, wa (R37, R75). -/
def execBind (c : CoreId) (f : RForm) (s : State) : Out :=
  .next (specInstr c (.bind c f)
    { o2 := fun t r _ => f.mod == 0 && unusedZero [f.rb] && blockOk t (r.rd f.ra).toNat 3
      o3 := fun t r s => blockMay s t (r.rd f.ra).toNat 3
      body := fun _ t r s => withBlock (r.rd f.ra).toNat 3 s (fun ws s =>
        let b : BindBlock := ⟨wordAt ws 0, wordAt ws 1, wordAt ws 2⟩
        match bindDecide s t b with
        | .error e => .status e s 3
        | .ok k => .val f.rd (toWord k) (installBinding k b s) 3) } s)

/-- The binding that an index operand names. -/
def bindingAt (s : State) (w : Word) : Option Binding := vgetD s.bindings (w.toNat % 256) none

/-- UNBIND wa (R44, R76). -/
def execUnbind (c : CoreId) (f : RForm) (s : State) : Out :=
  .next (specInstr c (.unbind c f)
    { o2 := fun _ r _ => f.mod == 0 && unusedZero [f.rd, f.rb] && zeroBits (r.rd f.ra) 31 8
      o3 := fun t r s => match bindingAt s (r.rd f.ra) with
        | some b => b.tenant = t || t = 0
        | none => true
      body := fun _ _ r s => match bindingAt s (r.rd f.ra) with
        | none => .status stState s
        | some _ => .ok { s with bindings := vsetD s.bindings ((r.rd f.ra).toNat % 256) none } } s)

/-! ## The context store -/

/-- The lowest free context store entry (R42). -/
def freeCtx (s : State) : Option Nat := (vfind s.ctx (·.isNone)).head?

/-- The invocation of a core saved in an entry, and the core released (R42). The TIME latch is saved with the registers
and resumed with them, on another core too: R79 gives each core a latch that is zero at an invocation's start and does
not say what a resume finds there (DESIGN CHOICE, log entry 107). A mark of R109 that the saving instruction's own
cycles brought is saved too, so the invocation ends with FLT_QUOTA when it resumes (DESIGN CHOICE, log entry 108). -/
def saveCtx (c : CoreId) (k : Nat) (kind : SavedKind) (s : State) : State :=
  match (s.core c).inv with
  | none => s
  | some v =>
    let s := { s with
      ctx := vsetD s.ctx k (some ⟨s.regs c, v, kind, s.ctxOrder, s.time.clk + 1⟩), ctxOrder := s.ctxOrder + 1 }
    endInv c s

/-- WAIT wd, wa, wb (R42, R77). The deadline lies wb ticks after retirement; 0 is none. -/
def execWait (c : CoreId) (f : RForm) (s : State) : Out :=
  .next (specInstr c (.wait c f)
    { cyc := fun _ => 4
      o2 := fun _ r _ => f.mod == 0 && zeroBits (r.rd f.ra) 31 8 && srcDefined (r.rd f.ra).toNat
      o3 := fun t r s => mayReceive s t (r.rd f.ra).toNat
      body := fun c _ r s => match freeCtx s with
        | none => .status stBusy s
        | some k =>
          let dl := if r.rd f.rb = 0 then none else some (s.time.hive + (r.rd f.rb).toNat)
          { st := stOk, s := s
            after := saveCtx c k (.waiting (BitVec.ofNat 8 (r.rd f.ra).toNat) dl (regIx f.rd) false) } } s)

/-- YIELD (R42). -/
def execYield (c : CoreId) (f : RForm) (s : State) : Out :=
  .next (specInstr c (.yield c f)
    { cyc := fun _ => 4
      o2 := fun _ _ _ => f.mod == 0 && unusedZero [f.rd, f.ra, f.rb]
      body := fun c _ _ s => match freeCtx s with
        | none => .status stBusy s
        | some k => { st := stOk, s := s, after := saveCtx c k .ready } } s)

/-- RAISE wa, wb (R78): the event is stamped with hive time at retirement and marked as raised. -/
def execRaise (c : CoreId) (f : RForm) (s : State) : Out :=
  .next (specInstr c (.raise c f)
    { o2 := fun _ r _ => f.mod == 0 && unusedZero [f.rd] && zeroBits (r.rd f.ra) 31 8 && srcDefined (r.rd f.ra).toNat
      o3 := fun t r s => mayRaise s t (r.rd f.ra).toNat
      body := fun _ _ r s => .ok (s.event (r.rd f.ra).toNat (r.rd f.rb) s.time.hive true) } s)

/-- The end of an invocation at EXIT: its binding's FRUN is 0 and its core free (R51). -/
def exitInv (c : CoreId) (s : State) : State :=
  match (s.core c).inv with
  | none => s
  | some v => endInv c (modBinding v (fun b => { b with frun := 0 }) s)

/-- EXIT (R51). -/
def execExit (c : CoreId) (f : RForm) (s : State) : Out :=
  .next (specInstr c (.exit c f)
    { cyc := fun _ => 1
      o2 := fun _ _ _ => f.mod == 0 && unusedZero [f.rd, f.ra, f.rb]
      body := fun c _ _ s => { st := stOk, s := s, after := exitInv c } } s)

/-! ## TIME and ALARM -/

/-- TIME wd: hive time [31:0], with [63:32] latched (R79). The row is MOD[0] = 0. -/
def execTime (c : CoreId) (f : RForm) (s : State) : Out :=
  .next (specInstr c (.time c f)
    { cyc := fun _ => 1
      o2 := fun _ _ _ => f.mod.toNat / 2 == 0 && unusedZero [f.ra, f.rb]
      body := fun _ _ _ s =>
        { st := stOk, s := s
          upd := fun r => { (r.wr f.rd (toWord s.time.hive)) with latch := toWord (s.time.hive / 2 ^ 32) } } } s)

/-- TIME.H wd: the latch (R79). The row is MOD[0] = 1. -/
def execTimeH (c : CoreId) (f : RForm) (s : State) : Out :=
  .next (specInstr c (.timeH c f)
    { cyc := fun _ => 1
      o2 := fun _ _ _ => f.mod.toNat / 2 == 0 && unusedZero [f.ra, f.rb]
      body := fun _ _ r s => .val f.rd r.latch s } s)

/-- TIMER_n of an ALARM, n = MOD[2:0] (R80). -/
def timerOf (m : BitVec 8) : Fin 8 := ⟨m.toNat % 8, Nat.mod_lt _ (by decide)⟩

/-- The WAKE option, MOD[3] (R80). -/
def wakeOf (m : BitVec 8) : Bool := m.getLsbD 3

def setTimer (n : Fin 8) (x : Timer) (s : State) : State := { s with timers := vset s.timers n x }

/-- A timer that no longer holds the setting whose compare a sleep entry in progress carries withdraws it (R201); from the
handover of step 5 on the AON island holds the compare. -/
def withdrawCmp (n : Fin 8) (s : State) : State :=
  if (match s.sleep.entry with | some e => decide (e.step < 5) | none => false) then
    { s with sleep := { s.sleep with armed := { s.sleep.armed with
        cmps := s.sleep.armed.cmps.filter (fun p => p.1 != n.val) } } }
  else s

/-- A timer as an ALARM of this clock leaves it: it replaces the setting and discards an expiry of the same clock, and
its own expiries come in later clocks (R81). -/
def armTimer (n : Fin 8) (k : TimerKind) (t : Tid) (s : State) : State :=
  setTimer n ⟨k, t, 0, s.time.clk, none, none⟩ (withdrawCmp n s)

/-- ALARM.AT TIMER_n, wa, wb (R80, R81). -/
def execAlarmAt (c : CoreId) (f : RForm) (s : State) : Out :=
  .next (specInstr c (.alarmAt c f)
    { o2 := fun _ _ _ => f.mod.toNat / 16 == 0 && unusedZero [f.rd]
      o3 := fun t _ s => s.may t (capTimer (timerOf f.mod).val) && (!wakeOf f.mod || t = 0)
      body := fun _ t r s =>
        .ok (armTimer (timerOf f.mod) (.at ((r.rd f.ra).toNat + (r.rd f.rb).toNat * 2 ^ 32) (wakeOf f.mod)) t s) } s)

/-- ALARM.EVERY TIMER_n, wa (R80, R81). -/
def execAlarmEvery (c : CoreId) (f : RForm) (s : State) : Out :=
  .next (specInstr c (.alarmEvery c f)
    { o2 := fun _ _ _ => f.mod.toNat / 8 == 0 && unusedZero [f.rd, f.rb]
      o3 := fun t _ s => s.may t (capTimer (timerOf f.mod).val)
      body := fun _ t r s =>
        let p := (r.rd f.ra).toNat
        if p < 192 then .status stRange s
        else .ok (armTimer (timerOf f.mod) (.every p (s.time.hive + p)) t s) } s)

/-- ALARM.OFF TIMER_n (R80, R81). -/
def execAlarmOff (c : CoreId) (f : RForm) (s : State) : Out :=
  .next (specInstr c (.alarmOff c f)
    { o2 := fun _ _ _ => f.mod.toNat / 8 == 0 && unusedZero [f.rd, f.ra, f.rb]
      o3 := fun t _ s => s.may t (capTimer (timerOf f.mod).val)
      body := fun _ _ _ s => .ok (setTimer (timerOf f.mod) Timer.off (withdrawCmp (timerOf f.mod) s)) } s)

/-- A carried compare that hive time has reached while a sleep entry is in progress sets its flag, visible in that
clock (R201, R205). It is tested at every system clock, before an expiry of the clock withdraws it. -/
def noteCompares (s : State) : State :=
  match s.sleep.entry with
  | none => s
  | some e =>
    if e.step < 5 ∧ (s.sleep.armed.flags.any (fun w => w.code == 9)) = false then
      match s.sleep.armed.cmps.find? (fun p => decide (p.2 ≤ s.time.hive)) with
      | some p => { s with sleep := { s.sleep with armed := { s.sleep.armed with
          flags := s.sleep.armed.flags ++ [⟨9, p.1, s.time.phys, s.time.clk⟩] } } }
      | none => s
    else s

/-- Hive time has reached the compare of a timer, in a clock after that of its ALARM or of the step that passed it
(R81, R82, R165). -/
def Timer.reached (t : Timer) (clk hive : Nat) : Bool :=
  decide (t.since < clk) &&
  (match t.kind with | .off => false | .at cmp _ => decide (cmp ≤ hive) | .every _ next => decide (next ≤ hive))

/-- TIMER_EXPIRY: TIMER_n expires when hive time has reached its compare (R81). The expiry takes effect at the end of
the clock, so an ALARM of the same clock discards it. Its stamp is hive time of the expiry, or for a compare that a step
of hive time passed, hive time after the step (R82). -/
def execTimerExpiry (n : Fin 8) (s : State) : Out :=
  .next (
    let t := vget s.timers n
    if s.running = true ∧ t.reached s.time.clk s.time.hive = true then
      setTimer n { t with due := some (t.passed.getD s.time.hive) } s
    else s)

/-- A timer's expiry of this clock takes effect: the event, and the timer's next setting (R81). -/
def expireTimer (s : State) (n : Fin 8) : State :=
  let t := vget s.timers n
  match t.due with
  | none => s
  | some stamp =>
    let k : TimerKind := match t.kind with
      | .every p next => .every p (next + p)
      | _ => .off
    (setTimer n { t with kind := k, count := t.count + 1, passed := none, due := none } (withdrawCmp n s)).event
      (0x90 + n.val) (toWord (t.count + 1)) stamp

/-- A step of hive time from `old` to `new` in a clock: an ALARM.EVERY keeps the ticks left, and an ALARM.AT whose
compare a forward step reaches expires in the clock after it (R82). -/
def stepTimer (clk old new : Nat) (t : Timer) : Timer :=
  match t.kind with
  | .every p next => { t with kind := .every p (new + (next - old)), due := none }
  | .at cmp _ =>
    if old < cmp ∧ cmp ≤ new then { t with since := clk, passed := some new, due := none }
    else if new < cmp then { t with due := none } else t
  | .off => t

/-- A step of hive time keeps the ticks left of a WAIT timeout (R77, R82). -/
def stepSaved (old new : Nat) : Option Saved → Option Saved
  | some sv =>
    match sv.kind with
    | .waiting src (some d) rd _ => some { sv with kind := .waiting src (some (new + (d - old))) rd false }
    | _ => some sv
  | none => none

/-- WAIT_TIMEOUT: hive time has reached the deadline of a WAIT. It ends the WAIT at the end of the clock, if no event of
the clock has done so by then (R77). -/
def execWaitTimeout (k : Fin 16) (s : State) : Out :=
  .next (match vget s.ctx k with
    | some sv =>
      match sv.kind with
      | .waiting src (some d) rd _ =>
        if s.running = true ∧ d ≤ s.time.hive then
          { s with ctx := vset s.ctx k (some { sv with kind := .waiting src (some d) rd true }) }
        else s
      | _ => s
    | none => s)

/-- A WAIT whose deadline has expired in this clock, and which no event has released, resumes with ST_TIMEOUT (R77). -/
def timeoutSaved (clk : Nat) : Option Saved → Option Saved
  | some sv =>
    match sv.kind with
    | .waiting _ _ _ true => some { sv with
        kind := .ready, since := clk, regs := { sv.regs with fl := sv.regs.fl.setStat stTimeout } }
    | _ => some sv
  | none => none

/-- What takes effect at the end of a clock: the timers' expiries, then every event of the clock, then the WAIT
timeouts that no event has beaten (R38, R77, R81). -/
def endEvents (s : State) : State :=
  let s := ([0, 1, 2, 3, 4, 5, 6, 7] : List (Fin 8)).foldl expireTimer s
  let s := s.raised.foldl offerRaised s
  { s with ctx := vmap (timeoutSaved s.time.clk) s.ctx, raised := [] }

/-! ## Dispatch (R39 to R41) -/

/-- A core may run a binding with a CORE field (Table 1.7). -/
def coreMay (c : CoreId) (sel : BitVec 3) : Bool :=
  if sel = 0 then c != 0 else if sel = 5 then c = 0 else c.val = sel.toNat

/-- A candidate for dispatch: its place in the order of R39 and what it is. -/
structure Cand where
  prio : Nat
  time : Nat
  pendingEv : Bool
  bindIx : Nat
  order : Nat
  ix : Nat

/-- `a` goes before `b` (R39): priority, event time, saved before pending, binding index, order of saving. -/
def Cand.before (a b : Cand) : Bool :=
  if a.prio ≠ b.prio then b.prio < a.prio
  else if a.time ≠ b.time then a.time < b.time
  else if a.pendingEv ≠ b.pendingEv then b.pendingEv
  else if a.bindIx ≠ b.bindIx then a.bindIx < b.bindIx
  else a.order < b.order

/-- Pending events that a core may run; a tenant with QOUT set is not selected (R109). -/
def pendCand (s : State) (c : CoreId) (k : Nat) : Option Binding → Option Cand
  | some b =>
    match b.pend with
    | e :: _ =>
      if coreMay c b.coreSel ∧ (s.tenant b.tenant).qout = false then
        some ⟨b.prio.toNat, e.time, true, k, 0, k⟩ else none
    | [] => none
  | none => none

/-- Saved invocations that a core may run. -/
def savedCand (s : State) (c : CoreId) (k : Nat) : Option Saved → Option Cand
  | some sv =>
    if sv.kind = .ready ∧ coreMay c sv.inv.coreSel ∧ (s.tenant sv.inv.tenant).qout = false then
      some ⟨sv.inv.prio.toNat, sv.inv.evTime, false,
        match sv.inv.bind with | some b => b.val | none => 256, sv.order, k⟩
    else none
  | none => none

/-- The candidate that goes first. -/
def bestCand : List (Option Cand) → Option Cand
  | [] => none
  | none :: r => bestCand r
  | some a :: r =>
    match bestCand r with
    | none => some a
    | some b => if b.before a then some b else some a

/-- The next invocation for a core (R39). -/
def selectFor (s : State) (c : CoreId) : Option Cand :=
  bestCand (mapIdxFrom (savedCand s c) 0 s.ctx.toList ++ mapIdxFrom (pendCand s c) 0 s.bindings.toList)

/-- FL at the first instruction of an invocation (R21). -/
def Flags.start (t : Tid) (c : CoreId) (prio : BitVec 3) : Flags :=
  { Flags.zero with ten := BitVec.ofNat 5 t.val, core := BitVec.ofNat 3 c.val, prio := prio }

/-- Registers at the first instruction of an invocation (R40). -/
def startRegs (c : CoreId) (b : Binding) (e : Ev) : Regs :=
  { Regs.zero with
    w := (((Regs.zero.w.set 0 (toWord (b.src.toNat + put (bit01 e.raised) 8))).set 1 e.arg).set 2
      (toWord e.time)).set 3 (toWord (e.time / 2 ^ 32))
    fl := Flags.start b.tenant c b.prio
    pc := b.handler }

/-- The clock from which a dispatched invocation's next instruction runs: 12 clocks after its selection, which falls in
the clock of its event or release on a core that is free then, and in the core's first free clock where that is later;
a DISPATCH given after the clock that follows selects in its own clock (R39, R41, R63; log entry 49). -/
def startClk (c : CoreId) (since : Nat) (s : State) : Nat :=
  let k := max since (s.core c).goAt
  if s.time.clk ≤ k + 1 then k + 12 else s.time.clk + 12

/-- A new invocation for the oldest pending event of a binding (R39, R40). -/
def startBinding (c : CoreId) (k : Nat) (s : State) : State :=
  match vgetD s.bindings k none with
  | none => s
  | some b =>
    match b.pend with
    | [] => s
    | e :: rest =>
      let s := { s with bindings := vsetD s.bindings k (some { b with pend := rest }) }
      s.setCore c { s.core c with
        regs := startRegs c b e
        inv := some ⟨b.tenant, some (finOf 256 k), b.serial, b.prio, b.coreSel, b.budget, 0, e.time, false, false, false⟩
        stall := none, resuming := false, paid := 0, goAt := startClk c e.clk s }

/-- A saved invocation resumed on a core (R42, R63); FL.CORE names the core it now runs on (Table 1.3). -/
def resumeSaved (c : CoreId) (k : Nat) (s : State) : State :=
  match vgetD s.ctx k none with
  | none => s
  | some sv =>
    let s := { s with ctx := vsetD s.ctx k none }
    s.setCore c { s.core c with
      regs := { sv.regs with fl := { sv.regs.fl with core := BitVec.ofNat 3 c.val } }
      inv := some sv.inv, stall := none, resuming := false, paid := 0, goAt := startClk c sv.since s }

/-- The READY bit of a core (Table 4.3). -/
def coreFunc (c : CoreId) : Func :=
  if c = 0 then .keeper else if c = 1 then .f0 else if c = 2 then .f1 else if c = 3 then .f2 else .f3

/-- Dispatch is on: the device runs, the core is ready and free, and neither sleep entry nor the orderly stop has
stopped it (Tables 6.8 and 7.5). -/
def canDispatch (s : State) (c : CoreId) : Bool :=
  s.running && s.isReady (coreFunc c) && (s.core c).inv.isNone && !(s.core c).paused && s.therm.stop.isNone &&
  (match s.sleep.entry with | some e => e.step == 0 | none => true)

/-- The invocation that a core takes next, host packets apart (R39). -/
def dispatchHandler (c : CoreId) (s : State) : State :=
  match selectFor s c with
  | none => s
  | some d => if d.pendingEv then startBinding c d.ix s else resumeSaved c d.ix s

/-! ## Budgets and quotas -/

/-- BUDGET_EXHAUSTED: the counted cycles have reached BUDGET × 16, and the boundary ends the invocation with
FLT_BUDGET (R46), or with FLT_QUOTA where both limits are due (R110). -/
def execBudgetExhausted (c : CoreId) (s : State) : Out :=
  .next (match (s.core c).inv with
    | some v =>
      if s.running = true ∧ (s.core c).stall = none ∧ (s.core c).paused = false ∧
          (s.core c).paid = 0 ∧ v.budget ≠ 0 ∧ v.budget.toNat * 16 ≤ v.used then boundary c s
      else s
    | none => s)

/-- A running invocation of a tenant that is at a boundary ends with FLT_QUOTA (R109). -/
def quotaEnd (t : Tid) (s : State) (c : CoreId) : State :=
  match (s.core c).inv with
  | some v =>
    if v.tenant = t ∧ v.quotaOut = true ∧ (s.core c).stall = none ∧ (s.core c).paused = false ∧ (s.core c).paid = 0 then
      boundary c s
    else s
  | none => s

/-- QUOTA_EXHAUSTED: the charged sum has reached the quota; running invocations end at their boundary (R109). -/
def execQuotaExhausted (t : Tid) (s : State) : Out :=
  .next (if s.running = true ∧ (s.tenant t).qout = true then [0, 1, 2, 3, 4].foldl (quotaEnd t) s else s)

/-- QUOTA_PERIOD: a period of the tenant has begun; QUSED and QOUT are cleared (R108, R109). -/
def execQuotaPeriod (t : Tid) (s : State) : Out :=
  .next (if s.running then rollPeriod t s else s)

/-! ## What a clock charges and ends -/

/-- One clock of a core: it charges the invocation that the core holds one cycle, unless it is paused, has not reached
its first instruction, or stalls otherwise than for a fill (R45, R108, R457); an invocation that is due to end at the
boundary where its core stands ends. -/
def clockCore (s : State) (c : CoreId) : State :=
  let k := s.core c
  match k.inv with
  | none => s
  | some v =>
    if k.paused = true ∨ s.time.clk < k.goAt then s
    else match k.stall with
      | some st => if st.why.fill then addCycles c 1 s else s
      | none =>
        if k.paid = 0 ∧ (v.stopped = true ∨ (dueFault v).isSome = true) then boundary c s
        else addCycles c 1 (s.setCore c { k with paid := k.paid + 1 })

/-- One clock of every core. -/
def clockCores (s : State) : State := ([0, 1, 2, 3, 4] : List CoreId).foldl clockCore s

end Sys2Proof.Machine
end

