-- ==== Sys2Proof/Machine/Units.lean ====
section
/-!
DEFINITION. Sys2Proof/Machine/Units.lean: what unit-class instructions share: instance numbers (R89), unused register
fields (R56), unit states and their outcome at order 6 (Table 1.6), and access to units.
-/
namespace Sys2Proof.Machine

/-- The instance number of a unit-class instruction, within the class count (R89). -/
def UForm.num (n : Nat) [NeZero n] (f : UForm) : Fin n := finOf n f.inst.toNat

/-- Order 2 of a unit-class instruction: its instance exists and its unused register fields are zero. -/
def unitOk (n : Nat) (f : UForm) (unused : List (BitVec 4)) : Bool := f.inst.toNat < n && unusedZero unused

/-- Number of a unit state in a status window. -/
def UState.num : UState → Nat
  | .off => 0 | .ready => 1 | .run => 2 | .held => 3 | .fault => 4

def State.sensor (s : State) (i : SensorId) : Sensor := vget s.sensors i
def State.setSensor (s : State) (i : SensorId) (x : Sensor) : State := { s with sensors := vset s.sensors i x }
def State.modSensor (s : State) (i : SensorId) (f : Sensor → Sensor) : State := s.setSensor i (f (s.sensor i))

def State.lane (s : State) (l : LaneId) : Lane := vget s.lanes l
def State.setLane (s : State) (l : LaneId) (x : Lane) : State := { s with lanes := vset s.lanes l x }
def State.modLane (s : State) (l : LaneId) (f : Lane → Lane) : State := s.setLane l (f (s.lane l))

def State.aout (s : State) (a : Fin 4) : Aout := vget s.aouts a
def State.setAout (s : State) (a : Fin 4) (x : Aout) : State := { s with aouts := vset s.aouts a x }

def State.recog (s : State) (r : RecogId) : Recog := vget s.recogs r
def State.setRecog (s : State) (r : RecogId) (x : Recog) : State := { s with recogs := vset s.recogs r x }

def State.ring (s : State) (n : RingId) : Ring := vget s.rings n
def State.setRing (s : State) (n : RingId) (x : Ring) : State := { s with rings := vset s.rings n x }

def State.queue (s : State) (q : QueueId) : Queue := vget s.queues q
def State.setQueue (s : State) (q : QueueId) (x : Queue) : State := { s with queues := vset s.queues q x }

def State.port (s : State) (p : PortId) : Port := vget s.ports p
def State.setPort (s : State) (p : PortId) (x : Port) : State := { s with ports := vset s.ports p x }
def State.modPort (s : State) (p : PortId) (f : Port → Port) : State := s.setPort p (f (s.port p))

/-- A body that runs only in the states listed, and otherwise retires with ST_STATE (Table 1.6). -/
def inStates (st : UState) (ok : List UState) (s : State) (k : Ans) : Ans :=
  if ok.contains st then k else .status stState s

/-- Every instance of a class, ascending. -/
def allIx (n : Nat) [NeZero n] : List (Fin n) := (List.range n).map (finOf n)

/-- A step applied to each of a list in order. -/
def forEach {α : Type} (l : List α) (f : α → State → State) (s : State) : State := l.foldl (fun s a => f a s) s

/-! ## Events of a unit's own in the clock of an instruction (R95) -/

/-- An instruction lets the events of its unit's own whose commands still wait act first: every command that waits
falls in this clock (log entries 1 and 50). `mine` says what such a command does; one that has acted early already is
passed over. -/
def ownFirst (mine : Instr → Option (State → State)) (s : State) : State :=
  (s.pending.foldl (fun (p : State × List Instr) i =>
    if p.2.contains i then (p.1, p.2.erase i)
    else match mine i with
      | some f => (let t := f p.1; { t with early := t.early ++ [i] }, p.2)
      | none => p) (s, s.early)).1

/-- The same for the command that a test picks out. -/
def unlessEarlyIf (p : Instr → Bool) (k : State → State) (s : State) : State :=
  if s.early.any p then { s with early := s.early.eraseP p } else k s

/-- The command of an event that has acted already does nothing more. -/
def unlessEarly (i : Instr) (k : State → State) (s : State) : State :=
  if s.early.contains i then { s with early := s.early.erase i } else k s

end Sys2Proof.Machine
end

