-- ==== Sys2Proof/Machine/SensorMath.lean ====
section
/-!
DEFINITION. Sys2Proof/Machine/SensorMath.lean: sensor settings (Tables 8.1 to 8.3, 9.1 to 9.3), rounding (R293) and
the sensor behind a lane.
-/
namespace Sys2Proof.Machine

/-- Rounding half away from zero of a quotient (R293). -/
def roundAway (n : Int) (d : Nat) : Int :=
  if n < 0 then -((2 * n.natAbs + d) / (2 * d) : Nat) else ((2 * n.natAbs + d) / (2 * d) : Nat)

/-- The function of a sensor (Table 4.3). -/
def sensorFunc (i : SensorId) : Func :=
  if i = 0 then .accA else if i = 1 then .accB else if i = 2 then .gyro else .xfe

/-- An inertial sensor. -/
def inertial (i : SensorId) : Bool := i.val < 3

/-- Fields of the inertial settings block (Table 8.1). -/
def Sensor.range (x : Sensor) : Nat := fieldOf x.set0 3 0
def Sensor.odr (x : Sensor) : Nat := fieldOf x.set0 7 4
def Sensor.bw (x : Sensor) : Nat := fieldOf x.set0 9 8
def Sensor.cover (x : Sensor) : Bool := bitOf x.set0 10
def Sensor.plaus (x : Sensor) : Bool := bitOf x.set0 11
def Sensor.pthr (x : Sensor) : Nat := fieldOf x.set1 5 0

/-- Fields of the XFE settings block (Table 9.1). -/
def Sensor.voltage (x : Sensor) : Bool := bitOf x.set0 8
def Sensor.filt (x : Sensor) : Bool := bitOf x.set0 9
def Sensor.nom (x : Sensor) : Nat := fieldOf x.set1 15 0
def Sensor.dthr (x : Sensor) : Nat := fieldOf x.set1 23 16
def Sensor.rlim (x : Sensor) : Nat := fieldOf x.set1 28 24

/-- Period in ticks of an XFE rate code (Table 9.2). -/
def xfePeriod (r : Nat) : Nat :=
  [7500, 12000, 15000, 24000, 30000, 48000, 60000, 96000, 120000, 192000, 240000, 384000, 480000, 960000,
    1920000].getD r 1920000

/-- P in ticks of the settings in force (Tables 8.2 and 9.2). -/
def periodOf (i : SensorId) (x : Sensor) : Nat :=
  if i = 1 then 15000 * 2 ^ x.odr
  else if inertial i then 30000 * 2 ^ x.odr
  else xfePeriod x.odr

/-- Full scale of the range in force, in g or degrees per second (Table 8.2). -/
def fullScale (i : SensorId) (x : Sensor) : Nat :=
  if i = 0 then 2 * 2 ^ x.range
  else if i = 1 then (if x.range = 0 then 64 else 200)
  else 125 * 2 ^ x.range

/-- SETTLE count after SENSE.START (Tables 8.3 and 9.3). -/
def settleCount (i : SensorId) (x : Sensor) : Nat :=
  if inertial i then (if x.bw = 0 then 4 else if x.bw = 1 then 6 else 12) else if x.filt then 4 else 8

/-- Largest code plus one of a sensor (R238, R264). -/
def codeFull (i : SensorId) : Nat := if i = 1 then 8192 else if inertial i then 32768 else 8388608

/-- A settings block of an inertial sensor passes R239. -/
def inertialSetOk (i : SensorId) (w0 w1 : Word) : Bool :=
  let rmax := if i = 0 then 3 else if i = 1 then 1 else 5
  let omax := if i = 1 then 5 else 9
  fieldOf w0 3 0 ≤ rmax && fieldOf w0 7 4 ≤ omax && fieldOf w0 9 8 ≤ 2 && zeroBits w0 31 12 && zeroBits w1 31 6 &&
  !(i = 2 && (bitOf w0 10 || bitOf w0 11)) && !(bitOf w0 11 && fieldOf w1 5 0 == 0)

/-- A settings block of an EXT channel passes R263. -/
def xfeSetOk (w0 w1 : Word) : Bool :=
  let volt := bitOf w0 8
  (if volt then fieldOf w0 3 0 ≤ 1 else fieldOf w0 3 0 ≤ 2) && fieldOf w0 7 4 ≤ 14 &&
  (if volt then fieldOf w0 11 10 == 0 else fieldOf w0 11 10 ≤ 2) && fieldOf w1 15 0 != 0 &&
  fieldOf w1 23 16 ≤ 100 && fieldOf w1 28 24 ≤ 24 && (!volt || (fieldOf w1 23 16 == 0 && fieldOf w1 28 24 == 0)) &&
  zeroBits w0 31 13 && zeroBits w1 31 29

/-- A stalled SENSE.SET awaits a sensor (R247). -/
def awaited (i : SensorId) (s : State) : Bool :=
  s.cores.toList.any (fun k => match k.stall with
    | some st => (match st.instr with | .senseSet _ u => u.inst.toNat == i.val | _ => false)
    | none => false)

/-! ## Temperature (R219, R304) -/

/-- Neighbours (Table 7.2). -/
def neighbours (n : Nat) : List Nat :=
  match n with
  | 0 => [1, 3, 4] | 1 => [0, 2, 4] | 2 => [1, 3, 5] | 3 => [0, 2, 5] | 4 => [0, 1, 5] | _ => [2, 3, 4]

/-- The middle of three. -/
def mid3 (a b c : Int) : Int := max (min a b) (min (max a b) c)

/-- The median of up to three readings: the middle of three, the mean of two rounded toward zero (R219). -/
def median : List Int → Option Int
  | [a, b, c] => some (mid3 a b c)
  | [a, b] => some ((a + b).tdiv 2)
  | _ => none

/-- The median of a sensor's valid neighbours. -/
def neighbourMedian (read : Vector Int 6) (valid : Vector Bool 6) (n : Nat) : Option Int :=
  median (((neighbours n).filter (fun m => vgetD valid m false)).map (fun m => vgetD read m 0))

/-- Temperature sensor of a sensor (R304). -/
def tempSensor (i : SensorId) : Nat := if i.val < 3 then 4 else (i.val - 3) / 2

/-- The reading for a CAL stage in 1/16 degree, and whether it is substituted; none before the first round (R304). -/
def calTemp (s : State) (i : SensorId) : Option (Int × Bool) :=
  let n := tempSensor i
  if s.therm.rounds = 0 then none
  else if vgetD s.therm.valid n true then some (vgetD s.therm.read n 0, false)
  else match neighbourMedian s.therm.read s.therm.valid n with
    | some t => some (t, true)
    | none =>
      match (neighbours n).filter (fun m => vgetD s.therm.valid m false) with
      | m :: _ => some (vgetD s.therm.read m 0, true)
      | [] => none

/-! ## Lane sources -/

/-- SRC of a lane's build block (Table 10.4). -/
def Lane.src (x : Lane) : Nat := fieldOf (wordAt x.build 0) 5 0

/-- The sensor at the head of a chain of lane sources, by a search of at most `n` lanes (section 11.1). -/
def headOf (s : State) : Nat → Nat → Option SensorId
  | 0, _ => none
  | n + 1, l =>
    let x := vgetD s.lanes l Lane.reset
    if x.st = .off then none
    else if x.src < 11 then some (finOf 11 x.src)
    else if 32 ≤ x.src ∧ x.src - 32 < l then headOf s n (x.src - 32)
    else none

/-- The sensor behind LANE_l. -/
def sensorBehind (s : State) (l : Nat) : Option SensorId := headOf s 24 l

/-- The lanes not in OFF that a sensor feeds (R255). -/
def lanesFed (s : State) (i : SensorId) : List LaneId :=
  (allIx 24).filter (fun l => (s.lane l).st != .off && (s.lane l).src == i.val)

end Sys2Proof.Machine
end

