-- ==== Sys2Proof/Machine/Recogs.lean ====
section
/-!
DEFINITION. Sys2Proof/Machine/Recogs.lean: recognizers, event balls, rings and the comb buffer's scrubber
(spec/11_recognizers_and_comb_buffer.md).
-/
namespace Sys2Proof.Machine

/-! ## Types and parameters (Tables 11.1 and 11.2) -/

/-- The types of recognizer. -/
inductive RKind where
  | tap | step | fall | still | impact
  deriving DecidableEq, Repr, Inhabited

/-- Type of a recognizer by INST (Table 11.1). -/
def rkind (r : Nat) : RKind :=
  if r < 4 then .tap else if r < 6 then .step else if r < 8 then .fall else if r < 12 then .still else .impact

/-- A sensor that may stand behind a recognizer's source lane (Table 11.1). -/
def rkindSensor (k : RKind) (i : Nat) : Bool :=
  match k with
  | .still => i < 3
  | .impact => i == 1
  | _ => i < 2

def inRange (lo hi v : Nat) : Bool := lo ≤ v && v ≤ hi

/-- A parameter block within Table 11.2 (R315). -/
def recogFieldsOk (k : RKind) (w0 w1 : Word) : Bool :=
  let f (hi lo : Nat) := fieldOf w1 hi lo
  fieldOf w0 4 0 < 24 && zeroBits w0 31 16 &&
  !(bitOf w0 9 && (k == .tap || k == .step)) &&
  (fieldOf w0 15 10 != 0 || !bitOf w0 8 || bitOf w0 9) &&
  (match k with
   | .tap => inRange 1 511 (f 8 0) && inRange 1 63 (f 14 9) && inRange 1 255 (f 22 15) && inRange 5 100 (f 29 23) &&
      inRange 1 3 (f 31 30)
   | .step => inRange 2 125 (f 8 0) && f 9 9 == 0 && inRange 15 100 (f 17 10) && inRange 30 250 (f 25 18) &&
      f 17 10 < f 25 18 && inRange 1 15 (f 29 26) && f 31 30 == 0
   | .fall => inRange 100 600 (f 9 0) && f 17 10 ≤ 125 && inRange 10 500 (f 26 18) && f 31 27 == 0
   | .still => inRange 1 4095 (f 11 0) && inRange 10 1000 (f 23 12) && f 31 24 == 0
   | .impact => inRange 4 400 (f 9 0) && inRange 1 1000 (f 19 10) && inRange 1 100 (f 26 20) && f 31 27 == 0)

def Recog.srcLane (x : Recog) : Nat := fieldOf x.set0 4 0
def Recog.ball (x : Recog) : Nat := fieldOf x.set0 7 5
def Recog.ballEn (x : Recog) : Bool := bitOf x.set0 8
def Recog.level (x : Recog) : Bool := bitOf x.set0 9
def Recog.pw (x : Recog) : Nat := fieldOf x.set0 15 10
def Recog.par (x : Recog) (hi lo : Nat) : Nat := fieldOf x.set1 hi lo

/-- Ticks of a number of milliseconds. -/
def msTicks (n : Nat) : Nat := n * 192000

/-! ## Rings (R326 to R331) -/

def Ring.src (x : Ring) : Nat := fieldOf (wordAt x.set 0) 4 0
def Ring.block (x : Ring) : Nat := fieldOf (wordAt x.set 1) 9 0
def Ring.size (x : Ring) : Nat := fieldOf (wordAt x.set 1) 26 16
def Ring.pre (x : Ring) : Nat := fieldOf (wordAt x.set 2) 23 0
def Ring.post (x : Ring) : Nat := fieldOf (wordAt x.set 3) 23 0
def Ring.mask (x : Ring) : Nat := fieldOf (wordAt x.set 4) 13 0
/-- Capacity N in entries. -/
def Ring.cap (x : Ring) : Nat := x.size * 128
/-- First byte of a ring's storage. -/
def Ring.base (x : Ring) : Nat := combBase + x.block * 4096
/-- Address of an entry. -/
def Ring.entry (x : Ring) (k : Nat) : Nat := x.base + 32 * (k % max 1 x.cap)

/-- A settings block within Table 11.5 (R327), overlap apart. -/
def ringFieldsOk (ws : Words) : Bool :=
  let base := fieldOf (wordAt ws 1) 9 0
  let size := fieldOf (wordAt ws 1) 26 16
  let pre := fieldOf (wordAt ws 2) 23 0
  let post := fieldOf (wordAt ws 3) 23 0
  fieldOf (wordAt ws 0) 4 0 < 24 && zeroBits (wordAt ws 0) 31 5 && zeroBits (wordAt ws 1) 15 10 &&
  zeroBits (wordAt ws 1) 31 27 && zeroBits (wordAt ws 2) 31 24 && zeroBits (wordAt ws 3) 31 24 &&
  zeroBits (wordAt ws 4) 31 14 && 1 ≤ size && size ≤ 1024 && base + size ≤ 1024 && 1 ≤ pre && pre + post ≤ size * 128

/-- The blocks meet those of another ring not in OFF (R327). -/
def ringOverlaps (s : State) (n : RingId) (ws : Words) : Bool :=
  (allIx 64).any (fun k =>
    let x := s.ring k
    let b := fieldOf (wordAt ws 1) 9 0
    let m := fieldOf (wordAt ws 1) 26 16
    k != n && x.st != .off && decide (b < x.block + x.size) && decide (x.block < b + m))

/-- STAMP of the entry at an index. -/
def entryStamp (s : State) (x : Ring) (k : Nat) : Nat :=
  (memWord s.mem (x.entry k + 8)).toNat + (memWord s.mem (x.entry k + 12)).toNat * 2 ^ 32

/-- Bits set in word 7 of an entry. -/
def orWord7 (x : Ring) (k : Nat) (bits : Word) (s : State) : State :=
  let a := x.entry k + 28
  { s with mem := memPuts s.mem a (wordBytes (memWord s.mem a ||| bits)) }

/-- A ring notice on its source lane's source ID, raised in the next clock (R331). -/
def ringNotice (n : RingId) (kind stamp : Nat) (s : State) : State :=
  s.eventLater ((s.ring n).src) (toWord (n.val + put kind 28 + put 1 31)) stamp

/-- A capture that has its post entries is complete: HELD and KIND 4 (R329, R331). -/
def ringDone (n : RingId) (s : State) : State :=
  let x := s.ring n
  if x.st = .run ∧ x.trigd = true ∧ x.trigNext = false ∧ x.post ≤ x.postgot then
    ringNotice n 4 (entryStamp s x (x.trigix + x.post)) (s.setRing n { x with st := .held })
  else s

/-- How many entries back from the newest lies the newest entry of this capture whose STAMP is no later than `t`;
a search over at most `k` entries from `back` on (R329). -/
def findTrigger (s : State) (x : Ring) (t : Nat) : Nat → Nat → Option Nat
  | 0, _ => none
  | k + 1, back =>
    if entryStamp s x (x.wptr + x.cap - 1 - back) ≤ t then some back else findTrigger s x t k (back + 1)

/-- A trigger reaches a ring (R329): the trigger entry is selected and marked, and the post entries already written
are marked; a later trigger is counted in NXTRIG. -/
def ringTrigger (n : RingId) (src stamp : Nat) (s : State) : State :=
  let x := s.ring n
  if x.st ≠ .run then s
  else if x.trigd then s.setRing n { x with nxtrig := satInc x.nxtrig }
  else
    let have_ := min x.nwrit x.cap
    let y := { x with trigd := true, tstamp := stamp, tsrc := BitVec.ofNat 4 src }
    let s := match findTrigger s x stamp have_ 0 with
      | none => s.setRing n { y with trigNext := true }
      | some back =>
        let ix := (x.wptr + x.cap - 1 - back) % x.cap
        let s := orWord7 x ix 0x01000000 s
        let s := (List.range back).foldl (fun s k => orWord7 x (ix + 1 + k) 0x02000000 s) s
        s.setRing n { y with trigix := ix, pregot := min x.pre (x.nwrit - back), postgot := min back x.post }
    ringDone n (ringNotice n 3 stamp s)

/-- A record of a lane is offered to a ring in RUN: into the write queue, or lost (R330). -/
def ringOffer (l : LaneId) (ws : Words) (n : RingId) (s : State) : State :=
  let x := s.ring n
  if x.st = .run ∧ x.src = l.val then
    if s.comb.wq.length < 16 then { s with comb := { s.comb with wq := s.comb.wq ++ [(n, x.armn, ws)] } }
    else s.setRing n { x with nlost := satInc x.nlost, lostNext := true }
  else s

/-- An entry written whole at WPTR (R328, Table 11.6). -/
def writeEntry (n : RingId) (ws : Words) (s : State) : State :=
  let x := s.ring n
  let nw := x.nwrit + 1
  let isTrig := x.trigNext
  let isPost := x.trigd && !x.trigNext
  let w7 := toWord (nw % 2 ^ 24 + put (bit01 isTrig) 24 + put (bit01 isPost) 25 + put (bit01 x.lostNext) 26 +
    put x.armn.toNat 27)
  let s := s.putBytes (x.entry x.wptr) (bytesOfWords ((List.range 7).map (wordAt ws) ++ [w7]))
  let y := { x with
    wptr := (x.wptr + 1) % max 1 x.cap, nwrit := nw, lostNext := false, trigNext := false
    trigix := if isTrig then x.wptr else x.trigix
    pregot := if isTrig then min x.pre nw else x.pregot
    postgot := if isPost then x.postgot + 1 else x.postgot }
  ringDone n (s.setRing n y)

/-- The COMB array takes an access: it serves one in a clock (R330). -/
def State.combTaken (s : State) : State := { s with comb := { s.comb with busyClk := some s.time.clk } }

/-- The COMB array is free in this clock. -/
def State.combFree (s : State) : Bool := s.comb.busyClk != some s.time.clk

/-- The oldest record of the write queue goes into its ring's entry, if its capture still runs (R330). -/
def ringWrite (s : State) : State :=
  match s.comb.wq with
  | [] => s
  | (n, a, ws) :: r =>
    if s.running = true ∧ s.combFree = true then
      let s := { s.combTaken with comb := { s.combTaken.comb with wq := r } }
      if (s.ring n).st = .run ∧ (s.ring n).armn = a then writeEntry n ws s else s
    else s

/-- RING_WRITE: the COMB array serves a ring write; it waits in a clock that serves another access (R330). -/
def execRingWrite (s : State) : Out := .next (unlessEarly .ringWrite ringWrite s)

/-! ## Recognizer events (R319, R321, R323) -/

/-- A recognizer raises an event: its window, its count of KIND 1 events, its pulse, and the rings it triggers. -/
def recogEvent (r : RecogId) (kind : Nat) (arg : Nat) (stamp : Nat) (s : State) : State :=
  let x := s.recog r
  let w := toWord (arg + put kind 28)
  let x := { x with
    lastArg := w, lastT := stamp, nevt := satInc x.nevt
    count := if kind = 1 ∧ rkind r.val ≠ .step then x.count + 1 else x.count
    pulse := if kind = 1 ∧ x.ballEn = true ∧ x.level = false then some (s.time.hive + x.pw * 3072) else x.pulse }
  let s := (s.setRecog r x).event (0x20 + r.val) w stamp
  if kind = 1 then
    forEach (allIx 64) (fun n s => if (s.ring n).mask / 2 ^ r.val % 2 = 1 then ringTrigger n (r.val + 1) stamp s else s) s
  else s

/-- PEAK in 0.1 g, and SAT, of an impact (Table 11.3). -/
def impactArg (d : Detect) : Nat := min 65535 (d.peak / 100) + put (bit01 d.sat) 16

/-- Fields of the KIND 2 event of a standing condition, with its duration to `t` (Table 11.3). -/
def endArg (k : RKind) (d : Detect) (t : Nat) : Nat :=
  let ms := (t - d.cond.getD t) / 192000
  match k with
  | .fall => min 65535 ms
  | .still => min 16777215 ms
  | .impact => impactArg d + put (min 1023 ms) 17
  | _ => 0

/-- A standing condition ends early with ABRT (R321). -/
def abortCond (r : RecogId) (s : State) : State :=
  let x := s.recog r
  if x.det.cond.isSome then
    recogEvent r 2 (endArg (rkind r.val) x.det x.lastEval + put 1 27) x.lastEval
      (s.setRecog r { x with det := { x.det with cond := none } })
  else s

/-- Detection state zeroed, a standing condition ended (R317, R321, R322). -/
def zeroDetect (r : RecogId) (s : State) : State :=
  let s := abortCond r s
  s.setRecog r { s.recog r with det := Detect.zero }

/-! ## Detection (R316, R320) -/

/-- Units per 2^31 of a record value: mg for an accelerometer, 0.01 degrees per second for GYRO (R316). -/
def unitScale (i : SensorId) (x : Sensor) : Nat := fullScale i x * (if i = 2 then 100 else 1000)

/-- m in mg: the integer square root of the sum of the squared axes (R316). -/
def magnitude (k : Nat) (v : V3) : Nat :=
  isqrtBits (((v.x * v.x + v.y * v.y + v.z * v.z).toNat * k * k) / 2 ^ 62) 22 0

/-- The largest |a(n) - a(n-1)| over the axes, in units of 1 / 2^31 mg, with its axis and sign; the lowest axis on a
tie. -/
def largestDelta (k : Nat) (a b : V3) : Nat × Nat × Bool :=
  let d (p q : Int) (ax : Nat) : Nat × Nat × Bool := ((p - q).natAbs * k, ax, decide (p < q))
  let m (p q : Nat × Nat × Bool) := if p.1 < q.1 then q else p
  m (m (d a.x b.x 0) (d a.y b.y 1)) (d a.z b.z 2)

/-- The outcome of evaluating a record: detection state and an event (kind, fields, stamp). -/
abbrev Decided := Detect × Option (Nat × Nat)

/-- A tap is counted when its shock starts within the window of the first one (R320). -/
def countTap (win : Nat) (sh : Shock) (d : Detect) : Detect :=
  match d.first with
  | none => { d with taps := 1, first := some sh }
  | some f => if sh.start - f.start ≤ win then { d with taps := d.taps + 1 } else d

/-- The report of a TAP recognizer: at MAXT taps, or at the first record past the window (R320). -/
def tapReport (win maxt t : Nat) (v : V3) (d : Detect) : Decided :=
  match d.first with
  | some f =>
    if maxt ≤ d.taps ∨ win < t - f.start then
      ({ Detect.zero with prev := some v }, some (1, d.taps + put f.axis 2 + put (bit01 f.neg) 4))
    else (d, none)
  | none => (d, none)

/-- TAP (R320). -/
def decideTap (x : Recog) (k t : Nat) (v : V3) : Decided :=
  let d := x.det
  match d.prev with
  | none => ({ d with prev := some v }, none)
  | some p =>
    let thr := x.par 8 0 * 2 ^ 31
    let win := msTicks (x.par 29 23 * 10)
    let (q, ax, neg) := largestDelta k v p
    let high := decide (thr * 8 ≤ q)
    let d := { d with prev := some v }
    let d :=
      if high then
        match d.shock with
        | some sh =>
          if msTicks (x.par 14 9) < t - sh.start then
            { d with shock := none, long := true, quiet := none, taps := 0, first := none }
          else
            { d with shock := some (if sh.best < q then { sh with last := t, best := q, axis := ax, neg := neg }
              else { sh with last := t }) }
        | none =>
          if d.long = false ∧ thr * 16 ≤ q then { d with shock := some ⟨t, t, q, ax, neg⟩, quiet := none }
          else { d with quiet := none }
      else
        let d := { d with long := false }
        match d.shock with
        | some sh => { d with shock := none, quiet := some (sh, t) }
        | none => d
    let d := match d.quiet with
      | some (sh, t0) =>
        if msTicks (x.par 22 15) ≤ t - t0 then countTap win sh { d with quiet := none } else d
      | none => d
    tapReport win (x.par 31 30) t v d

/-- STEP: steps per minute from the last intervals, rounded to nearest (R320). -/
def cadence (ivals : List Nat) : Nat :=
  let sum := ivals.foldl (· + ·) 0
  if sum = 0 then 0 else min 2047 ((2 * 60000 * 192000 * ivals.length + sum) / (2 * sum))

/-- STEP: what a candidate at time `tc` does; answers the recognizer and how many steps it counts (R320). -/
def stepCandidate (x : Recog) (tc : Nat) : Recog × Nat :=
  let deb := x.par 29 26
  let chainOf (n : Nat) (iv : List Nat) : Recog × Nat :=
    let y := { x with det := { x.det with cand := some tc, chain := n }, ivals := iv }
    (y, if n < deb then 0 else if n = deb then deb else 1)
  match x.det.cand with
  | none => chainOf 1 x.ivals
  | some p =>
    if tc - p < msTicks (x.par 17 10 * 10) then (x, 0)
    else if msTicks (x.par 25 18 * 10) < tc - p then chainOf 1 x.ivals
    else chainOf (x.det.chain + 1) (((tc - p) :: x.ivals).take 4)

/-- STEP (R320): the recognizer after a record, and the event's fields when steps are counted. -/
def decideStep (x : Recog) (k t : Nat) (v : V3) : Recog × Option (Nat × Nat) :=
  let m := magnitude k v
  let setExc (e : Option (Nat × Nat)) : Recog := { x with det := { x.det with exc := e } }
  match x.det.exc with
  | some (best, tb) =>
    if m < 1000 then
      let (y, n) := stepCandidate (setExc none) tb
      if n = 0 then (y, none)
      else
        let y := { y with count := y.count + toWord n }
        (y, some (1, y.count.toNat % 65536 + put (cadence y.ivals) 16))
    else if best < m then (setExc (some (m, t)), none) else (x, none)
  | none => if 1000 + x.par 8 0 * 16 < m then (setExc (some (m, t)), none) else (x, none)

/-- FALL (R320). -/
def decideFall (x : Recog) (k t : Nat) (v : V3) : Decided :=
  let d := x.det
  let m := magnitude k v
  let thr := x.par 9 0
  match d.cond with
  | some t0 =>
    if thr + x.par 17 10 * 4 ≤ m then
      ({ d with cond := none, low := none }, some (2, min 65535 ((t - t0) / 192000)))
    else (d, none)
  | none =>
    if m < thr then
      let t0 := d.low.getD t
      if msTicks (x.par 26 18) ≤ t - t0 then ({ d with low := some t0, cond := some t0 }, some (1, x.par 26 18))
      else ({ d with low := some t0 }, none)
    else ({ d with low := none }, none)

/-- The span of one axis over the window's records is at most THR (R320). -/
def spanOk (k thr : Nat) (l : List Int) : Bool :=
  match l.max?, l.min? with
  | some a, some b => decide ((a - b).toNat * k ≤ thr * 2 ^ 31)
  | _, _ => true

/-- STILL (R320). -/
def decideStill (x : Recog) (k t : Nat) (v : V3) : Decided :=
  let d := x.det
  let win := msTicks (x.par 23 12 * 10)
  let thr := x.par 11 0
  let first := d.firstT.getD t
  let hist := ((t, v) :: d.hist).filter (fun p => decide (t ≤ p.1 + win))
  let vs := hist.map (fun p => p.2)
  let ok := spanOk k thr (vs.map (·.x)) && spanOk k thr (vs.map (·.y)) && spanOk k thr (vs.map (·.z)) &&
    decide (win ≤ t - first)
  let d := { d with hist := hist, firstT := some first }
  match d.cond with
  | some t0 =>
    if ok then (d, none) else ({ d with cond := none }, some (2, min 16777215 ((t - t0) / 192000)))
  | none => if ok then ({ d with cond := some t }, some (1, 0)) else (d, none)

/-- IMPACT (R320). -/
def decideImpact (x : Recog) (k t : Nat) (v : V3) (sat : Bool) : Decided :=
  let d := x.det
  let m := magnitude k v
  let thr := x.par 9 0
  match d.cond with
  | some t0 =>
    let d := { d with peak := max d.peak m, sat := d.sat || sat }
    if m < thr * 250 then
      let lo := d.low.getD t
      if msTicks (x.par 26 20) ≤ t - lo then
        ({ d with cond := none, low := none, hold := t + msTicks (x.par 19 10) },
          some (2, impactArg d + put (min 1023 ((t - t0) / 192000)) 17))
      else ({ d with low := some lo }, none)
    else ({ d with low := none }, none)
  | none =>
    if thr * 500 ≤ m ∧ d.hold ≤ t then
      let d := { d with cond := some t, peak := m, sat := sat, low := none }
      (d, some (1, impactArg d))
    else (d, none)

/-- One record evaluated: the recognizer, and an event's kind and fields. -/
def evaluate (kind : RKind) (k : Nat) (x : Recog) (rec' : LaneRec) : Recog × Option (Nat × Nat) :=
  let t := rec'.stamp
  let y := { x with lastEval := t }
  let wrap (p : Decided) : Recog × Option (Nat × Nat) := ({ y with det := p.1 }, p.2)
  match kind with
  | .tap => wrap (decideTap x k t rec'.v)
  | .step => decideStep y k t rec'.v
  | .fall => wrap (decideFall x k t rec'.v)
  | .still => wrap (decideStill x k t rec'.v)
  | .impact => wrap (decideImpact x k t rec'.v (rec'.flags / 32 % 2 == 1))

/-- A record carries none of GAP, EMPTY, SETTLING and POISON (R317). -/
def evaluable (flags : Nat) : Bool := flags &&& (1 + 2 + 16 + 64) == 0

/-- A recognizer takes its oldest record and decides at most once (R317, R319). -/
def recogDecide (r : RecogId) (s : State) : State :=
  let x := s.recog r
  match x.inq with
  | [] => s
  | rec' :: rest =>
    if s.running = false ∨ x.st ≠ .run then s
    else
      let x := { x with inq := rest }
      let s := s.setRecog r x
      match sensorBehind s x.srcLane with
      | some i =>
        if i.val ≠ x.sensor then
          let s := zeroDetect r s
          s.setRecog r { s.recog r with nwrong := satInc (s.recog r).nwrong }
        else if !evaluable rec'.flags then
          let s := zeroDetect r s
          s.setRecog r { s.recog r with nreset := satInc (s.recog r).nreset }
        else
          let (y, ev) := evaluate (rkind r.val) (unitScale i (s.sensor i)) x rec'
          let s := s.setRecog r y
          match ev with
          | some (kind, arg) => recogEvent r kind arg rec'.stamp s
          | none => s
      | none =>
        let s := zeroDetect r s
        s.setRecog r { s.recog r with nwrong := satInc (s.recog r).nwrong }

/-- RECOG_DECIDE: a recognizer takes its oldest record (R317, R319). -/
def execRecogDecide (r : RecogId) (s : State) : Out := .next (unlessEarly (.recogDecide r) (recogDecide r) s)

/-! ## RUN and HELD (R322) -/

/-- A recognizer leaves RUN: its state is zeroed and its undecided records go. -/
def recogLeave (r : RecogId) (st : UState) (s : State) : State :=
  let s := zeroDetect r s
  s.setRecog r { s.recog r with st := st, inq := [] }

/-- The source lane has left RUN: its recognizers enter HELD in the next clock (R322). -/
def laneLeft (l : LaneId) (s : State) : State := { s with later := s.later ++ [.laneRun l false] }

/-- The source lane has entered RUN: its recognizers return to RUN in the next clock (R322). -/
def laneEntered (l : LaneId) (s : State) : State := { s with later := s.later ++ [.laneRun l true] }

/-- The recognizers of a lane that has left RUN enter HELD (R322). -/
def recogsHold (l : LaneId) (s : State) : State :=
  forEach (allIx 14) (fun r s =>
    if (s.recog r).st = .run ∧ (s.recog r).srcLane = l.val then recogLeave r .held s else s) s

/-- The recognizers of a lane that has entered RUN return to RUN (R322). -/
def recogsRun (l : LaneId) (s : State) : State :=
  forEach (allIx 14) (fun r s =>
    if (s.recog r).st = .held ∧ (s.recog r).srcLane = l.val then s.setRecog r { s.recog r with st := .run } else s) s

/-- A STILL recognizer in RUN asserts its stillness output (R307, R322). -/
def anyStill (s : State) : Bool :=
  (allIx 14).any (fun r => rkind r.val == .still && (s.recog r).st == .run && (s.recog r).det.cond.isSome)

/-! ## What an instruction of the unit finds done (R95) -/

/-- The ring writes and the recognizers' decisions, and so the triggers, of a clock. -/
def recogFirst : Instr → Option (State → State)
  | .ringWrite => some ringWrite
  | .recogDecide r => some (recogDecide r)
  | _ => none

/-! ## Ring instructions (R327 to R329) -/

/-- What every ring instruction shares: it touches COMB (Table 1.8), and finds the events of its clock done (R95). -/
def ringInstr (c : CoreId) (i : Instr) (f : UForm) (unused : List (BitVec 4)) (blk : Bool)
    (body : RingId → Tid → Regs → State → Ans) (s : State) : Out :=
  .next (specInstr c i
    { o2 := fun t r _ => unitOk 64 f unused && (!blk || blockOk t (r.rd f.ra).toNat 5)
      o3 := fun t r s => s.may t (capRing f.inst.toNat) && (!blk || blockMay s t (r.rd f.ra).toNat 5)
      failed := fun _ _ s => s.hasFailed .comb || (s.ring (UForm.num 64 f)).st == .fault
      waits := fun _ _ s => waitsFor .comb s
      body := fun _ t r s => body (UForm.num 64 f) t r { s with sleep := { s.sleep with combUse := s.time.phys } } } (ownFirst recogFirst s))

/-- RING.SET n, wa (R327). -/
def execRingSet (c : CoreId) (f : UForm) (s : State) : Out :=
  ringInstr c (.ringSet c f) f [f.rd, f.rb] true (fun n _ r s =>
    inStates (s.ring n).st [.off, .ready] s (withBlock (r.rd f.ra).toNat 5 s (fun ws s =>
      if !ringFieldsOk ws || ringOverlaps s n ws then .status stRange s 5
      else .ok (s.setRing n { s.ring n with st := .ready, set := ws }) 5))) s

/-- RING.ARM n (R328): from READY or HELD. LOSTB of the next entry stays due when an entry was lost (R330). -/
def execRingArm (c : CoreId) (f : UForm) (s : State) : Out :=
  ringInstr c (.ringArm c f) f [f.rd, f.ra, f.rb] false (fun n _ _ s =>
    inStates (s.ring n).st [.ready, .held] s (.ok (s.setRing n { s.ring n with
      st := .run, wptr := 0, nwrit := 0, pregot := 0, postgot := 0, trigd := false, trigNext := false
      armn := (s.ring n).armn + 1 }))) s

/-- RING.TRIG n (R329): the trigger is stamped with the retirement time. -/
def execRingTrig (c : CoreId) (f : UForm) (s : State) : Out :=
  ringInstr c (.ringTrig c f) f [f.rd, f.ra, f.rb] false (fun n _ _ s =>
    inStates (s.ring n).st [.run] s (.ok (ringTrigger n 0 s.time.hive s))) s

/-- RING.DISARM n (Table 1.6). -/
def execRingDisarm (c : CoreId) (f : UForm) (s : State) : Out :=
  ringInstr c (.ringDisarm c f) f [f.rd, f.ra, f.rb] false (fun n _ _ s =>
    inStates (s.ring n).st [.run] s (.ok (s.setRing n { s.ring n with st := .ready }))) s

/-- RING.FREE n (Table 1.6). -/
def execRingFree (c : CoreId) (f : UForm) (s : State) : Out :=
  ringInstr c (.ringFree c f) f [f.rd, f.ra, f.rb] false (fun n _ _ s =>
    inStates (s.ring n).st [.ready, .held] s (.ok (s.setRing n { s.ring n with st := .off }))) s

/-! ## Recognizer instructions (R315, R318, R322) -/

/-- What every recognizer instruction shares (LANES is its function, Table 4.3). -/
def recogInstr (c : CoreId) (i : Instr) (f : UForm) (unused : List (BitVec 4)) (blk : Bool)
    (body : RecogId → Tid → Regs → State → Ans) (s : State) : Out :=
  .next (specInstr c i
    { o2 := fun t r _ => unitOk 14 f unused && (!blk || blockOk t (r.rd f.ra).toNat 2)
      o3 := fun t r s => s.may t (capRecog f.inst.toNat) && (!blk || blockMay s t (r.rd f.ra).toNat 2)
      waits := fun _ _ s => waitsFor .lanes s
      body := fun _ t r s => body (UForm.num 14 f) t r s } (ownFirst recogFirst s))

/-- The source lane of a parameter block fits the recognizer (R315). -/
def recogSource (s : State) (r : RecogId) (l : Nat) : Option SensorId :=
  let x := vgetD s.lanes l Lane.reset
  if x.st = .off ∨ x.triad = false then none
  else match sensorBehind s l with
    | some i => if rkindSensor (rkind r.val) i.val then some i else none
    | none => none

/-- RECOG.SET r, wa (R315, R318). -/
def execRecogSet (c : CoreId) (f : UForm) (s : State) : Out :=
  recogInstr c (.recogSet c f) f [f.rd, f.rb] true (fun r t g s =>
    inStates (s.recog r).st [.off, .ready] s (withBlock (g.rd f.ra).toNat 2 s (fun ws s =>
      let l := fieldOf (wordAt ws 0) 4 0
      if decide (l < 24) && !s.may t (capLane l) then .status stCap s 2
      else if !recogFieldsOk (rkind r.val) (wordAt ws 0) (wordAt ws 1) then .status stRange s 2
      else match recogSource s r l with
        | none => .status stRange s 2
        | some i => .ok (s.setRecog r { s.recog r with
            st := .ready, set0 := wordAt ws 0, set1 := wordAt ws 1, sensor := i.val
            det := Detect.zero, inq := [] }) 2))) s

/-- RECOG.ARM r (R322): RUN, and HELD in the next clock while the lane is not in RUN. -/
def execRecogArm (c : CoreId) (f : UForm) (s : State) : Out :=
  recogInstr c (.recogArm c f) f [f.rd, f.ra, f.rb] false (fun r _ _ s =>
    inStates (s.recog r).st [.ready] s
      (let up := (vgetD s.lanes (s.recog r).srcLane Lane.reset).st == .run
       let t := s.setRecog r { s.recog r with st := .run, count := 0, det := Detect.zero, inq := [] }
       .ok (if up then t else { t with later := t.later ++ [.recogHeld r] }))) s

/-- RECOG.DISARM r (R321, R322): the STEP count is zeroed too. -/
def execRecogDisarm (c : CoreId) (f : UForm) (s : State) : Out :=
  recogInstr c (.recogDisarm c f) f [f.rd, f.ra, f.rb] false (fun r _ _ s =>
    inStates (s.recog r).st [.run, .held] s
      (let s := recogLeave r .ready s
       .ok (s.setRecog r { s.recog r with
        count := if rkind r.val = .step then 0 else (s.recog r).count }))) s

/-- RECOG.CLEAR r (Table 1.6); the cadence history goes with the settings (log entry 117). -/
def execRecogClear (c : CoreId) (f : UForm) (s : State) : Out :=
  recogInstr c (.recogClear c f) f [f.rd, f.ra, f.rb] false (fun r _ _ s =>
    inStates (s.recog r).st [.ready] s (.ok (s.setRecog r { s.recog r with st := .off, ivals := [] }))) s

/-! ## Event balls (R323, R324) -/

/-- A recognizer's ball output (R323). -/
def Recog.out (x : Recog) : Bool :=
  x.st != .off && x.ballEn && (if x.level then x.det.cond.isSome else x.pulse.isSome)

/-- Level that the recognizers give EVT_b; the ball shows it from the next clock on (R324). -/
def ballLevel (s : State) (b : Nat) : Bool := s.recogs.toList.any (fun x => x.out && x.ball == b)

/-- The EVT balls take the levels of the clock that ends (R324). -/
def noteBalls (s : State) : State :=
  { s with evtBalls := BitVec.ofNat 8 (((List.range 8).map (fun b => put (bit01 (ballLevel s b)) b)).foldl (· + ·) 0) }

/-- A step of hive time changes no pulse's width (R168, R323). -/
def stepPulse (old new : Nat) (x : Recog) : Recog := { x with pulse := x.pulse.map (fun t => t + new - old) }

/-- EVT_PULSE_END: pulses on EVT_b whose width has passed end (R323). -/
def execEvtPulseEnd (b : Fin 8) (s : State) : Out :=
  .next (if s.running then
      { s with recogs := vmap (fun x =>
          match x.pulse with
          | some t => if x.ball = b.val ∧ t ≤ s.time.hive then { x with pulse := none } else x
          | none => x) s.recogs }
    else s)

/-! ## Scrubbing (R334) -/

/-- SCRUB_LINE: every 3,072 ticks, while COMB is powered and ready, one line is read; single-bit errors are corrected,
a double-bit error is left and recorded. -/
def execScrubLine (s : State) : Out :=
  .next (if s.running = true ∧ s.isReady .comb = true ∧ s.domUp .comb = true ∧ s.combFree = true ∧
      s.comb.lastScrub + 3072 ≤ s.time.phys then
      let a := combBase + 32 * s.comb.scrubix
      let here := s.ecc.filter (fun e => inSpan a 32 e.addr)
      let cb := { s.comb with lastScrub := s.time.phys, busyClk := some s.time.clk, scrubix := (s.comb.scrubix + 1) % 131072 }
      match (here.filter (fun e => e.dbl)).map (fun e => e.addr) with
      | [] =>
        if here.isEmpty then { s with comb := cb }
        else
          { s with
            comb := { cb with nscrub := satInc cb.nscrub }
            ecc := s.ecc.filter (fun e => !inSpan a 32 e.addr) }
      | b :: r => { s with comb := { cb with ndbe := satInc cb.ndbe, lastdbe := toWord (r.foldl min b) } }
    else s)

/-! ## Status windows (Tables 11.8 to 11.10) -/

def recogWindow (s : State) (x : Recog) (off : Nat) : Word :=
  match off with
  | 0x00 => toWord (x.st.num + put (bit01 x.det.cond.isSome) 2 + put (bit01 x.out) 3)
  | 0x04 => x.set0
  | 0x08 => x.set1
  | 0x0C => x.lastArg
  | 0x10 => toWord x.lastT
  | 0x14 => toWord (x.lastT / 2 ^ 32)
  | 0x18 => b16 x.nevt x.nwrong
  | 0x1C => x.count
  | 0x20 => toWord x.nreset.toNat
  | 0x40 => toWord s.evtBalls.toNat
  | _ => 0

def ringWindow (x : Ring) (off : Nat) : Word :=
  match off with
  | 0x00 => toWord (x.st.num + put (bit01 x.trigd) 3 + put x.armn.toNat 4 + put x.tsrc.toNat 9)
  | 0x04 => wordAt x.set 0
  | 0x08 => wordAt x.set 1
  | 0x0C => wordAt x.set 2
  | 0x10 => wordAt x.set 3
  | 0x14 => wordAt x.set 4
  | 0x18 => toWord x.wptr
  | 0x1C => toWord x.trigix
  | 0x20 => toWord x.pregot
  | 0x24 => toWord x.postgot
  | 0x28 => toWord x.tstamp
  | 0x2C => toWord (x.tstamp / 2 ^ 32)
  | 0x30 => toWord x.nwrit
  | 0x34 => b16 x.nlost x.nxtrig
  | _ => 0

def combWindow (x : CombSt) (off : Nat) : Word :=
  match off with
  | 0x00 => b16 x.nscrub x.ndbe
  | 0x04 => toWord x.ncorr.toNat
  | 0x08 => x.lastdbe
  | 0x0C => toWord x.scrubix
  | 0x10 => toWord x.wq.length
  | _ => 0

end Sys2Proof.Machine
end

