-- ==== Sys2Proof/Machine/LaneMath.lean ====
section
/-!
DEFINITION. Sys2Proof/Machine/LaneMath.lean: stage arithmetic of the filter lanes (sections 10.3 and 10.5).
-/
namespace Sys2Proof.Machine

/-! ## Flags of a record (Table 10.2) -/

def fSettling : Nat := 1
def fGap : Nat := 2
def fTsub : Nat := 4
def fClipped : Nat := 8
def fPoison : Nat := 16
def fSat : Nat := 32
def fEmpty : Nat := 64
def fCov : Nat := 128
def fTone : Nat := 256
def fFlt : Nat := 512
def fStep : Nat := 1024

/-- The flags that a downstream lane takes over from a record: those of Table 10.2 that speak of an input. -/
def fWindow : Nat := fSettling + fPoison + fSat + fEmpty + fCov + fTone + fFlt + fStep

def flagIf (b : Bool) (f : Nat) : Nat := if b then f else 0

/-! ## Stage descriptors (Table 10.5) -/

def sType (d : Word) : Nat := fieldOf d 3 0
def sP1 (d : Word) : Nat := fieldOf d 10 4
def sP2 (d : Word) : Nat := fieldOf d 13 11
def sEst (d : Word) : Bool := bitOf d 14
def sSettle (d : Word) : Nat := fieldOf d 23 16
def sGdq (d : Word) : Nat := fieldOf d 31 24

/-- A stage descriptor within Table 10.5 (R291). -/
def stageOk (d : Word) : Bool :=
  let z1 := sP1 d == 0
  let z2 := sP2 d == 0
  let zs := sSettle d == 0
  let zg := sGdq d == 0
  !bitOf d 15 &&
  (match sType d with
   | 1 => inRange 2 64 (sP1 d) && inRange 1 4 (sP2 d) && !sEst d && zs && zg
   | 2 => z1 && z2 && !sEst d
   | 3 => inRange 1 64 (sP1 d) && z2 && !sEst d && zs
   | 4 => inRange 2 64 (sP1 d) && z2 && !sEst d && zs && zg
   | 5 => z1 && z2 && !sEst d
   | 6 => z1 && z2 && !sEst d && zs && zg
   | 7 => sP1 d < 8 && z2 && zs && zg
   | 8 => z1 && z2 && !sEst d && zs && zg
   | _ => false)

/-- Coefficients that a stage takes from the table (Table 10.6). -/
def stageCoefs (d : Word) : Nat :=
  match sType d with | 2 => 5 | 3 => sP1 d | 5 => 1 | 6 => 9 | 8 => 2 | _ => 0

/-- Settle count S (Table 10.6). -/
def stageSettle (d : Word) : Nat :=
  match sType d with | 1 => sP2 d * sP1 d | 2 => sSettle d | 3 => sP1 d - 1 | 4 => sP1 d - 1 | 5 => sSettle d | _ => 0

/-- Cost in clocks (Table 10.6). -/
def stageCost (d : Word) : Nat :=
  match sType d with | 1 => 1 | 2 => 5 | 3 => sP1 d + 1 | 4 => 2 | 5 => 2 | 6 => 3 | 7 => 8 | _ => 1

/-- Group delay in quarter input periods (Table 10.6). -/
def stageDelay (d : Word) : Nat :=
  match sType d with | 1 => 2 * sP2 d * (sP1 d - 1) | 2 => sGdq d | 3 => sGdq d | 4 => 2 * (sP1 d - 1) | 5 => sGdq d | _ => 0

/-- RATIO of a DEC stage, 1 for any other. -/
def stageRatio (d : Word) : Nat := if sType d = 1 then sP1 d else 1

/-! ## Arithmetic (R293) -/

/-- Saturation to Q31, with the SAT flag (R293). -/
def satQ (i : Int) : Int × Nat := (satInt 32 i, flagIf (!fitsInt 32 i) fSat)

/-- A sum rounded from `2^k` units and saturated (R293). -/
def roundQ (k : Nat) (i : Int) : Int × Nat := satQ (roundAway i (2 ^ k))

/-- Axis `a` of a triple. -/
def V3.get (v : V3) (a : Nat) : Int := if a = 0 then v.x else if a = 1 then v.y else v.z

/-- A function of the axis number over the axes that a lane carries. -/
def onAxes (triad : Bool) (f : Nat → Int × Nat) : V3 × Nat :=
  let x := f 0
  if triad then
    let y := f 1
    let z := f 2
    (⟨x.1, y.1, z.1⟩, x.2 ||| y.2 ||| z.2)
  else (⟨x.1, 0, 0⟩, x.2)

/-- Signed coefficient `k` of a table. -/
def coefAt (cs : Words) (k : Nat) : Int := (wordAt cs k).toInt

/-- The sum of `f 0` to `f (n - 1)`. -/
def sumTo (n : Nat) (f : Nat → Int) : Int := (List.range n).foldl (fun a k => a + f k) 0

/-- A list convolved with a run of `r` ones. -/
def boxcar (r : Nat) (l : List Nat) : List Nat :=
  (List.range (l.length + r - 1)).map (fun k =>
    (List.range r).foldl (fun a j => if j ≤ k then a + l.getD (k - j) 0 else a) 0)

/-- Impulse response of a CIC of ratio `r` and order `n`; its sum is `r ^ n` (Table 10.6, Example 10.A). -/
def cicWeights (r : Nat) : Nat → List Nat
  | 0 => [1]
  | n + 1 => boxcar r (cicWeights r n)

/-- Element `k` of a history whose newest element is the current input. -/
def histAt (x : V3) (xs : List V3) (k a : Nat) : Int :=
  match k with
  | 0 => x.get a
  | k + 1 => (xs.getD k V3.zero).get a

/-- What a stage computes: its state, its output unless it holds it back, and the flags it sets. -/
structure StageOut where
  st : Stage
  y : Option V3
  flags : Nat

/-- The calibration a CAL stage applies: output, the values d, and flags. -/
abbrev CalFn := V3 → V3 × V3 × Nat

/-- One stage on one input (Table 10.6, R293, R294). -/
def runStage (triad : Bool) (coefs : Words) (ix : Nat) (cal : CalFn) (x : V3) (st : Stage) : StageOut :=
  let d := st.desc
  let cs := coefs.drop st.off
  let keep (n : Nat) : List V3 := (x :: st.xs).take n
  match sType d with
  | 1 =>
    let st' := { st with xs := keep (sP2 d * (sP1 d - 1)) }
    if (ix + 1) % st.cr ≠ 0 then ⟨st', none, 0⟩
    else
      let w := cicWeights (sP1 d) (sP2 d)
      let r := onAxes triad (fun a =>
        satQ (roundAway (sumTo w.length (fun k => ((w.getD k 0 : Nat) : Int) * histAt x st.xs k a)) (sP1 d ^ sP2 d)))
      ⟨st', some r.1, r.2⟩
  | 2 =>
    let r := onAxes triad (fun a => roundQ 30
      (coefAt cs 0 * x.get a + coefAt cs 1 * histAt x st.xs 1 a + coefAt cs 2 * histAt x st.xs 2 a -
        coefAt cs 3 * (st.ys.getD 0 V3.zero).get a - coefAt cs 4 * (st.ys.getD 1 V3.zero).get a))
    ⟨{ st with xs := keep 2, ys := (r.1 :: st.ys).take 2 }, some r.1, r.2⟩
  | 3 =>
    let r := onAxes triad (fun a => roundQ 30 (sumTo (sP1 d) (fun k => coefAt cs k * histAt x st.xs k a)))
    ⟨{ st with xs := keep (sP1 d - 1) }, some r.1, r.2⟩
  | 4 =>
    let r := onAxes triad (fun a => satQ (roundAway (sumTo (sP1 d) (fun k => histAt x st.xs k a)) (sP1 d)))
    ⟨{ st with xs := keep (sP1 d - 1) }, some r.1, r.2⟩
  | 5 =>
    let r := onAxes triad (fun a => roundQ 31
      (coefAt cs 0 * ((st.ys.getD 0 V3.zero).get a + x.get a - histAt x st.xs 1 a)))
    ⟨{ st with xs := keep 1, ys := [r.1] }, some r.1, r.2⟩
  | 6 =>
    let r := onAxes triad (fun a => roundQ 30 (sumTo 3 (fun j => coefAt cs (3 * a + j) * x.get j)))
    ⟨st, some r.1, r.2⟩
  | 7 =>
    let (y, _, fl) := cal x
    ⟨st, some y, fl⟩
  | _ =>
    let r := onAxes triad (fun a =>
      let y := min (max (x.get a) (coefAt cs 0)) (coefAt cs 1)
      (y, flagIf (y != x.get a) fClipped))
    ⟨st, some r.1, r.2⟩

/-- A stage's state and fill count zeroed (R311, R312). -/
def Stage.zero (st : Stage) : Stage := { st with fill := 0, xs := [], ys := [] }

/-! ## The CAL stage (R303) -/

/-- The Q31 product of MULQ on signed values, with its saturation. -/
def mulqInt (a b : Int) : Int × Nat :=
  let r := roundShift (a * b) 31
  (satInt 32 r, flagIf (!fitsInt 32 r) fSat)

/-- R303 for a calibration set and a temperature; a single lane computes axis X only. `mulq` rounds as MULQ does, and
each line's sum is exact (DEDUCED, log entry 14). -/
def calStage (triad : Bool) (set : Words) (t : Option (Int × Bool)) : CalFn := fun x =>
  let t0 : Int := signed 16 (fieldOf (wordAt set 0) 31 16)
  let sub := match t with | some p => p.2 | none => true
  let temp := match t with | some p => p.1 | none => t0
  let c (k : Nat) : Int := coefAt set k
  let (u, f0) := satQ ((temp - t0) * 2 ^ 20)
  let (uu, f1) := mulqInt u u
  let dOf (a : Nat) : Int × Nat :=
    let p := mulqInt (c (13 + a)) u
    let q := mulqInt (c (16 + a)) uu
    let r := satQ (x.get a - (c (1 + a) + p.1 + q.1))
    (r.1, p.2 ||| q.2 ||| r.2)
  let d := onAxes triad dOf
  let yOf (a : Nat) : Int × Nat :=
    let m := roundAway (c (4 + 3 * a) * d.1.x + c (5 + 3 * a) * d.1.y + c (6 + 3 * a) * d.1.z) (2 ^ 30)
    let su := mulqInt (c (19 + a)) u
    let p := mulqInt m su.1
    let r := satQ (m + p.1)
    (r.1, su.2 ||| p.2 ||| r.2)
  let y := onAxes triad yOf
  (y.1, d.1, f0 ||| f1 ||| d.2 ||| y.2 ||| flagIf sub fTsub)

/-! ## One input through a chain (R294, R295, R311, R312) -/

/-- What the stages make of one input. -/
structure ChainOut where
  /-- stages after it -/
  stages : List Stage
  /-- values at the chain's end, none where a DEC stage holds them back -/
  y : Option V3
  /-- flags that stages set -/
  flags : Nat
  /-- a stage it met was not yet filled -/
  settling : Bool
  /-- a stage it met is poisoned -/
  poison : Bool
  /-- what the CAL stage made of it: its output y and the values d (Table 10.8) -/
  cal : Option (V3 × V3)

/-- One input through the rest of a chain; stages past a DEC that holds it back are not met. -/
def runChain (triad : Bool) (coefs : Words) (ix : Nat) (cal : CalFn) : V3 → List Stage → ChainOut
  | x, [] => ⟨[], some x, 0, false, false, none⟩
  | x, st :: r =>
    let st := { st with fill := st.fill + 1 }
    let full := decide (stageSettle st.desc ≤ st.fill)
    let o := runStage triad coefs ix cal x st
    let st' := { o.st with poison := o.st.poison && !full }
    match o.y with
    | none => ⟨st' :: r, none, o.flags, !full, st'.poison, none⟩
    | some y =>
      let q := runChain triad coefs ix cal y r
      let mine : Option (V3 × V3) := if sType st.desc = 7 then some (y, (cal x).2.1) else q.cal
      ⟨st' :: q.stages, q.y, o.flags ||| q.flags, !full || q.settling, st'.poison || q.poison, mine⟩

/-- The stages that an input of index `ix` meets: up to the first DEC that holds it back (R294). -/
def reached (ix : Nat) : List Stage → Nat
  | [] => 0
  | st :: r => if sType st.desc = 1 ∧ (ix + 1) % st.cr ≠ 0 then 1 else reached ix r + 1

/-- A stage that the input meets has taken its previous input less than its cost ago (R295). -/
def overrun (clk : Nat) (l : List Stage) : Bool :=
  l.any (fun st => match st.clk with | some c => decide (clk - c < stageCost st.desc) | none => false)

/-- The clock of the input noted in the stages that it meets. -/
def noteClk (clk : Nat) : Nat → List Stage → List Stage
  | n + 1, st :: r => { st with clk := some clk } :: noteClk clk n r
  | _, l => l

end Sys2Proof.Machine
end

