-- ==== Sys2Proof/Machine/Queues.lean ====
section
/-!
DEFINITION. Sys2Proof/Machine/Queues.lean: the credit queues (spec/12_credit_queues.md).
-/
namespace Sys2Proof.Machine

/-! ## Settings (Table 12.1) -/

def Queue.bankWords (q : Queue) : Nat := fieldOf q.set0 6 0 * 16
def Queue.base (q : Queue) : Nat := fieldOf q.set0 19 8
def Queue.swapm (q : Queue) : Nat := fieldOf q.set0 21 20
def Queue.acred (q : Queue) : Bool := bitOf q.set0 22
def Queue.prod (q : Queue) : Nat := fieldOf q.set1 2 0
def Queue.pinst (q : Queue) : Nat := fieldOf q.set1 7 3
def Queue.cons (q : Queue) : Nat := fieldOf q.set1 10 8
def Queue.cinst (q : Queue) : Nat := fieldOf q.set1 15 11
def Queue.swcnt (q : Queue) : Nat := fieldOf q.set1 26 16

/-- ROOM (section 12.4). -/
def Queue.room (q : Queue) : Nat := q.bankWords - q.cred - q.fill.length

/-- The region of a settings word: first word and length (R337). -/
def queueRegion (w0 : Word) : Nat × Nat := (fieldOf w0 19 8 * 16, 2 * fieldOf w0 6 0 * 16)

/-- Fields of a settings block within Table 12.1. -/
def queueFieldsOk (w0 w1 : Word) : Bool :=
  let bw := fieldOf w0 6 0
  let prod := fieldOf w1 2 0
  let pinst := fieldOf w1 7 3
  let cons := fieldOf w1 10 8
  let cinst := fieldOf w1 15 11
  let cnt := fieldOf w1 26 16
  1 ≤ bw && bw ≤ 64 && !bitOf w0 7 && fieldOf w0 21 20 ≤ 2 && zeroBits w0 31 26 && prod ≤ 3 &&
  (if prod = 1 then pinst < 24 else if prod = 3 then pinst < 3 else pinst == 0) &&
  cons ≤ 1 && (if cons = 1 then cinst < 3 else cinst == 0) &&
  (if fieldOf w0 21 20 = 2 then 1 ≤ cnt && cnt ≤ bw * 16 else cnt == 0) && zeroBits w1 31 27 &&
  fieldOf w0 19 8 * 16 + 2 * bw * 16 ≤ 65536

/-- The region meets that of another queue not in OFF (R337). -/
def queueOverlaps (s : State) (q : QueueId) (w0 : Word) : Bool :=
  (allIx 64).any (fun k =>
    let x := s.queue k
    let (a, n) := queueRegion w0
    let (b, m) := queueRegion x.set0
    k != q && x.st != .off && decide (a < b + m) && decide (b < a + n))

/-- The LANE or PORT bits that a block's producer and consumer need (R337). -/
def queueUnitsMay (s : State) (t : Tid) (w1 : Word) : Bool :=
  let pinst := fieldOf w1 7 3
  let cinst := fieldOf w1 15 11
  (if fieldOf w1 2 0 = 1 ∧ pinst < 24 then s.may t (capLane pinst)
   else if fieldOf w1 2 0 = 3 ∧ pinst < 3 then s.may t (capPort pinst) else true) &&
  (if fieldOf w1 10 8 = 1 ∧ cinst < 3 then s.may t (capPort cinst) else true)

/-! ## Events (R350) -/

/-- Event of a queue with its KIND, when EVMASK enables it: bit 23 SWAP, 24 CREDIT, 25 DROP; it is raised in the next
clock with the stamp of this one (R350). -/
def queueEvent (q : QueueId) (kind lo hi : Nat) (s : State) : State :=
  if bitOf (s.queue q).set0 (22 + kind) then
    s.eventOf (0x30 + q.val) (toWord (lo % 2048 + put (hi % 2048) 11 + put kind 28))
  else s

/-- CRED has risen from `old`: a CREDIT event when it rose from 0 (R350). -/
def creditRaised (q : QueueId) (old : Nat) (s : State) : State :=
  let x := s.queue q
  if old = 0 ∧ x.cred ≠ 0 then queueEvent q 2 x.cred x.room s else s

/-! ## Items of unit producers and consumers (R346 to R349) -/

/-- Words with their tags as slots without error. -/
def slotsOf (l : List (Word × BitVec 4)) : List QSlot := l.map (fun p => ⟨p.1, p.2, 0⟩)

/-- What a unit producer's item does: written whole, dropped, or nothing in a queue not in RUN (R346, R348). -/
def writeItem (q : QueueId) (item : List QSlot) (s : State) : State :=
  let x := s.queue q
  if x.st ≠ .run then s
  else if item.length ≤ x.cred then
    s.setQueue q { x with
      fill := x.fill ++ item, cred := x.cred - item.length, nput := x.nput + toWord item.length }
  else queueEvent q 3 item.length 0 (s.setQueue q { x with ndrop := satInc x.ndrop })

/-- Tags of a lane's record: the first word 1, the last word 8 (Table 12.2). -/
def recordItem (ws : Words) : List QSlot :=
  slotsOf (mapIdxFrom (fun i w => (w, if i = 0 then 1 else if i + 1 = ws.length then 8 else 0)) 0 ws)

/-- The oldest word of the drain bank, removed and counted (R345, R349). -/
def takeWord (q : QueueId) (s : State) : Option QSlot × State :=
  let x := s.queue q
  match x.drain with
  | [] => (none, s)
  | d :: r =>
    (some d, s.setQueue q { x with
      drain := r, ltag := d.tag, nget := x.nget + 1
      ncorr := if d.err = 1 then satInc x.ncorr else x.ncorr
      npois := if 2 ≤ d.err then satInc x.npois else x.npois })

/-! ## Swaps (R339, R344) -/

/-- The swap condition of a queue (R339). -/
def Queue.swaps (x : Queue) : Bool :=
  x.st == .run && x.drain.isEmpty &&
  (if x.swapm = 0 then !x.fill.isEmpty
   else if x.swapm = 1 then x.fill.any (fun d => d.tag.getLsbD 3)
   else decide (x.swcnt ≤ x.fill.length))

/-- The banks of a queue swap when its condition holds (R339, R344, R350). -/
def queueSwap (q : QueueId) (s : State) : State :=
  let x := s.queue q
  if s.running = true ∧ x.swaps = true then
    let y := { x with
      drain := x.fill, fill := [], fbank := !x.fbank, nswap := satInc x.nswap
      cred := if x.acred then x.bankWords else x.cred }
    creditRaised q x.cred (queueEvent q 1 y.drain.length y.room (s.setQueue q y))
  else s

/-- The swaps at the end of a clock, after its writes and reads (R339). -/
def queueSwaps (s : State) : State := forEach (allIx 64) queueSwap s

/-- QUEUE_SWAP: a queue's swap at the end of a clock, in which no further command touches it; the end of a clock makes
every swap that is due of itself (R339, log entry 50). -/
def execQueueSwap (q : QueueId) (s : State) : Out := .next (queueSwap q s)

/-! ## Status window (Table 12.4) -/

def queueWindow (x : Queue) (off : Nat) : Word :=
  match off with
  | 0x00 => toWord (x.st.num + put x.swapm 2 + put (bit01 x.acred) 4 + put x.prod 5 + put x.pinst 8 + put x.cons 13 +
      put x.cinst 16)
  | 0x04 => toWord (fieldOf x.set0 6 0 + put x.base 8)
  | 0x08 => toWord (x.cred + put x.room 16)
  | 0x0C => toWord (x.fill.length + put x.drain.length 16)
  | 0x10 => toWord ((match x.drain with | d :: _ => d.tag.toNat | [] => 0) + put x.ltag.toNat 4 + put (bit01 x.fbank) 8)
  | 0x14 => x.nput
  | 0x18 => x.nget
  | 0x1C => b16 x.nswap x.ndrop
  | 0x20 => b16 x.ncorr x.npois
  | 0x24 => toWord x.ndisc.toNat
  | 0x28 => toWord x.swcnt
  | _ => 0

end Sys2Proof.Machine
end

