-- ==== Sys2Proof/Machine/Lanes.lean ====
section
/-!
DEFINITION. Sys2Proof/Machine/Lanes.lean: filter lanes, calibration slots, epochs and estimators
(spec/10_filter_lanes_and_calibration.md).
-/
namespace Sys2Proof.Machine

/-! ## Lane settings -/

def Lane.evt (x : Lane) : Bool := bitOf (wordAt x.build 0) 12
def Lane.ctlen (x : Lane) : Nat := fieldOf (wordAt x.build 2) 9 0
/-- The CAL stage's descriptor, if the chain has one. -/
def Lane.calDesc (x : Lane) : Option Word := (x.stages.find? (fun st => sType st.desc == 7)).map (fun st => st.desc)
def Lane.hasCal (x : Lane) : Bool := x.calDesc.isSome
/-- The lane is the estimator base for its sensor (Table 10.5 EST). -/
def Lane.est (x : Lane) : Bool := match x.calDesc with | some d => sEst d | none => false

/-- Slot `k` of a sensor. -/
def slotOf (s : State) (i k : Nat) : Option Words :=
  vgetD (vgetD s.sensors i Sensor.reset).slots k none

/-! ## Estimators (R307, R308, Table 10.8) -/

/-- The largest `k` with `k * k * den ≤ num`. -/
def rootQuot (num den : Nat) : Nat := isqrtBits (num / den) 64 0

/-- A count `a` over the root of `t`, rounded half away from zero, with the sign given. -/
def roundRoot (neg : Bool) (a t f : Nat) : Int :=
  let k := rootQuot (4 * a * a) (t * f * f)
  let r : Int := (((k + 1) / 2 : Nat) : Int)
  if neg then -r else r

/-- A word of a set replaced. -/
def setWord (ws : Words) (k : Nat) (w : Word) : Words := ws.set k w

/-- GYRO: B0[a] plus the rounded mean of d[a]. -/
def gyroProposal (ws : Words) (run : StillRun) : Words :=
  let b (ws : Words) (a : Nat) : Words :=
    setWord ws (1 + a) (wordOfInt (satInt 32 (coefAt ws (1 + a) + roundAway (run.sum.get a) run.n)))
  b (b (b ws 0) 1) 2

/-- ACC_A, ACC_B: every element of M × f, f being g over the norm of the mean of y; none outside 0.9 to 1.1. -/
def accProposal (fs : Nat) (ws : Words) (run : StillRun) : Option Words :=
  let t := (run.sum.x * run.sum.x + run.sum.y * run.sum.y + run.sum.z * run.sum.z).toNat
  let g := 2 ^ 31 * run.n
  if t = 0 then none
  else if (10 * g) * (10 * g) < 81 * t * fs * fs then none
  else if 121 * t * fs * fs < (10 * g) * (10 * g) then none
  else some ((List.range 9).foldl (fun ws k =>
    let m := coefAt ws (4 + k)
    setWord ws (4 + k) (wordOfInt (satInt 32 (roundRoot (decide (m < 0)) (m.natAbs * g) t fs)))) ws)

/-- EXT_n: M[0][0] × 65,536 / GAIN; none outside 0.9 to 1.1. -/
def extProposal (ws : Words) (gain : Nat) : Option Words :=
  if gain = 0 ∨ 655360 < 9 * gain ∨ 11 * gain < 655360 then none
  else some (setWord ws 4 (wordOfInt (satInt 32 (roundAway (coefAt ws 4 * 65536) gain))))

/-- A proposal replaces the one before and raises KIND 2 on the base lane; a rejected one counts in NREJ (R308). -/
def offerProposal (i : SensorId) (l : LaneId) (stamp : Nat) (epoch : BitVec 8) (slot : BitVec 3) (p : Option Words)
    (s : State) : State :=
  let x := s.lane l
  match p with
  | none => s.setLane l { x with nrej := satInc x.nrej }
  | some ws =>
    (s.modSensor i (fun y => { y with proposal := some ws })).eventLater l.val
      (toWord (slot.toNat + put epoch.toNat 8 + put i.val 16 + put 2 28)) stamp

/-- A still run ends: from 1,024 inputs on it yields a proposal, formed from the run's slot over the values that CAL
computed (R307, R308); with none there is nothing to form one from. -/
def endRun (i : SensorId) (l : LaneId) (s : State) : State :=
  let y := s.sensor i
  match y.run with
  | none => s
  | some run =>
    let s := s.setSensor i { y with run := none }
    if run.cnt < 1024 ∨ run.n = 0 then s
    else match slotOf s i.val run.slot.toNat with
      | none => s
      | some ws =>
        let p := if i = 2 then some (gyroProposal ws run) else accProposal (fullScale i y) ws run
        offerProposal i l run.stamp run.epoch run.slot p s

def V3.add (a b : V3) : V3 := ⟨a.x + b.x, a.y + b.y, a.z + b.z⟩

/-- The base lane of an inertial sensor has taken an input: the still run goes on, ends or begins (R307). -/
def runInput (i : SensorId) (l : LaneId) (stamp : Nat) (epoch : BitVec 8) (slot : BitVec 3) (flags : Nat)
    (cal : Option (V3 × V3)) (s : State) : State :=
  let ok := anyStill s && flags &&& (fSat + fEmpty + fSettling + fCov) == 0
  let v : V3 := match cal with | some p => (if i = 2 then p.2 else p.1) | none => V3.zero
  let s := match (s.sensor i).run with
    | some run => if ok = false ∨ run.epoch ≠ epoch then endRun i l s else s
    | none => s
  if ok then
    let run := match (s.sensor i).run with
      | some run => { run with cnt := run.cnt + 1, n := run.n + bit01 cal.isSome, sum := run.sum.add v, stamp := stamp }
      | none => ⟨1, bit01 cal.isSome, v, stamp, epoch, slot⟩
    let s := s.modSensor i (fun y => { y with run := some run })
    if run.cnt = 65536 then endRun i l s else s
  else s

/-- The base lane leaves RUN: its estimator stops, and the run in progress yields nothing. -/
def stopRun (l : LaneId) (s : State) : State :=
  let x := s.lane l
  if x.est = true ∧ x.src < 11 then s.modSensor (finOf 11 x.src) (fun y => { y with run := none }) else s

/-! ## Inputs and records (R286 to R295, R311, R312) -/

/-- An input at a sample boundary. -/
structure LaneIn where
  ix : Nat
  stamp : Nat
  v : V3
  flags : Nat
  epoch : BitVec 8
  slot : BitVec 3

/-- The words of an output record (Tables 10.1 and 10.2). -/
def recWords (l : LaneId) (triad : Bool) (epoch : BitVec 8) (slot : BitVec 3) (j flags missed stamp : Nat) (v : V3) :
    Words :=
  [toWord (l.val + put (bit01 triad) 5 + put epoch.toNat 8 + put (j % 256) 16 + put slot.toNat 24),
   toWord (flags + put missed 16), toWord stamp, toWord (stamp / 2 ^ 32), wordOfInt v.x] ++
  (if triad then [wordOfInt v.y, wordOfInt v.z] else [])

/-- Errors injected in lane memory, met at this input (R313): corrected ones are counted, a double one zeroes its stage
or poisons the records until the next copy. -/
def meetErrs (x : Lane) : Lane :=
  x.errs.foldl (fun x e =>
    if e.2 = false then { x with ncorr := satInc x.ncorr }
    else match e.1 with
      | none => { x with npois := satInc x.npois, shPoison := true }
      | some k =>
        { x with
          npois := satInc x.npois, win := x.win ||| fPoison
          stages := mapIdxFrom (fun j (st : Stage) => if j = k then { st.zero with poison := true } else st) 0 x.stages })
    { x with errs := [] }

/-- The record that an input produces, given the chain's values (R294, R311, R312). -/
def emitRecord (l : LaneId) (x : Lane) (u : LaneIn) (y : V3) (empty : Bool) (more : Nat) : Lane :=
  let j := (u.ix + 1) / max 1 x.cr - 1
  let missed := match x.lastJ with
    | some p => if x.gap then min 65535 (j - p - 1) else 0
    | none => 0
  let v := if x.gap || empty then V3.zero else y
  let flags := x.win ||| more ||| flagIf x.gap fGap
  { x with
    outq := x.outq ++ [⟨u.ix, u.stamp, v, flags, u.epoch, u.slot, recWords l x.triad u.epoch u.slot j flags missed u.stamp v⟩]
    lastJ := some j, gap := false, win := 0 }

/-- The shadows are replaced as one: errors that lay in the old ones are gone with them (R297, R298, R313). -/
def Lane.copyShadow (x : Lane) (t : Words) : Lane :=
  { x with shadow := t, nextShadow := none, shPoison := false, errs := x.errs.filter (·.1.isSome) }

/-- A lane takes an input: discontinuity, overrun, the chain, and the record if one falls here. Answers the lane and
what its CAL stage computed. -/
def takeInput (l : LaneId) (clk : Nat) (cal : CalFn) (x : Lane) (u : LaneIn) : Lane × Option (V3 × V3) :=
  let x := match x.nextShadow with
    | some t => x.copyShadow t
    | none => x
  let disc := x.resumed || (match x.prev with | some p => u.ix != p + x.upCr | none => false)
  let x := { x with resumed := false, prev := some u.ix }
  let x := if disc then { x with stages := x.stages.map Stage.zero, gap := true } else x
  let x := meetErrs x
  let n := reached u.ix x.stages
  let late := overrun clk (x.stages.take n)
  let x := { x with stages := noteClk clk n x.stages, novr := if late then satInc x.novr else x.novr }
  let flags := u.flags ||| flagIf late fEmpty
  if flags / fEmpty % 2 = 1 then
    let x := { x with stages := x.stages.map Stage.zero, win := x.win ||| flags }
    if (u.ix + 1) % max 1 x.cr = 0 then (emitRecord l x u V3.zero true (flagIf (x.shPoison || x.stages.any (·.poison)) fPoison), none) else (x, none)
  else
    let o := runChain x.triad x.shadow u.ix cal u.v x.stages
    let x := { x with
      stages := o.stages, win := x.win ||| flags ||| o.flags
      tsub := if o.cal.isSome then o.flags / fTsub % 2 == 1 else x.tsub }
    match o.y with
    | none => (x, o.cal)
    | some y =>
      (emitRecord l x u y false (flagIf o.settling fSettling ||| flagIf (o.poison || x.shPoison) fPoison), o.cal)

/-- The calibration that a lane applies to an input with a slot (R303, R304); a slot is never empty in use. -/
def laneCal (s : State) (x : Lane) (slot : BitVec 3) : CalFn :=
  let i := x.src
  calStage x.triad ((slotOf s i slot.toNat).getD (identitySet i)) (calTemp s (finOf 11 i))

/-- A sample boundary of a lane in RUN (R287); step 1 of the orderly stop has ended input (Table 7.5). -/
def laneTake (l : LaneId) (u : LaneIn) (s : State) : State :=
  let x := s.lane l
  if x.st ≠ .run ∨ s.therm.frozen = true then s
  else
    let (y, cal) := takeInput l s.time.clk (laneCal s x u.slot) x u
    let s := s.setLane l y
    if y.est = true ∧ y.src < 3 then
      runInput (finOf 11 y.src) l u.stamp u.epoch u.slot ((u.flags ||| flagIf (y.novr != x.novr) fEmpty)) cal s
    else s

/-- The boundary's effect on epoch and slot (R305): a pending swap adds 1, but not where an increment of R252 has added
it at the instant of this input. -/
def boundaryEpoch (inc : Bool) (x : Lane) : Lane :=
  match x.pslot with
  | some k => { x with
      slot := k, pslot := none, epoch := if inc then x.epoch else x.epoch + 1, nswap := satInc x.nswap }
  | none => x

/-- Sensor codes as Q31 (R285). -/
def codeShift (i : SensorId) : Nat := if i = 1 then 2 ^ 18 else if inertial i then 2 ^ 16 else 2 ^ 8

def V3.scale (v : V3) (k : Nat) : V3 := ⟨v.x * k, v.y * k, v.z * k⟩

/-- Flags of a sample as Table 10.2 names them. -/
def sampleFlags (m : Sample) : Nat :=
  flagIf m.settle fSettling ||| flagIf m.sat fSat ||| flagIf m.empty fEmpty ||| flagIf m.cov fCov |||
  flagIf m.tone fTone ||| flagIf m.flt fFlt ||| flagIf m.step fStep

/-- A sample delivered to one lane that its sensor feeds (R242, R287, R305); `later` increments of R252 belong to
instants taken since. -/
def laneSample (i : SensorId) (m : Sample) (later : Nat) (l : LaneId) (s : State) : State :=
  let x := boundaryEpoch m.epochInc (s.lane l)
  laneTake l ⟨m.ix, m.stamp, m.v.scale (codeShift i), sampleFlags m, x.epoch - BitVec.ofNat 8 later, x.slot⟩
    (s.setLane l x)

/-- An upstream record delivered to a lane that names LANE_m as its source (R285, R287, R306). -/
def laneFromLane (m : LaneId) (r : LaneRec) (l : LaneId) (s : State) : State :=
  let x := s.lane l
  if x.st ≠ .off ∧ x.src = 32 + m.val then
    laneTake l ⟨r.ix, r.stamp, r.v, r.flags &&& fWindow, r.epoch, r.slot⟩
      (s.setLane l { x with epoch := r.epoch, slot := r.slot })
  else s

/-- The argument of a KIND 1 lane event (Table 10.3). -/
def laneArg (r : LaneRec) : Word :=
  toWord (fieldOf (wordAt r.words 0) 23 16 + put r.epoch.toNat 8 + put (r.flags % 256) 16 + put 1 28)

/-- The words of a sample (Tables 8.4 and 9.4). -/
def sampleWords (i : SensorId) (m : Sample) : Words :=
  let h (v : Int) : Nat := (BitVec.ofInt 16 v).toNat
  let fl := put (bit01 m.sat) 16 + put (bit01 m.settle) 17 + put (bit01 m.empty) 18 +
    put (bit01 (if inertial i then m.cov else m.tone)) 19 + put (bit01 m.step) 20 + put (bit01 m.flt) 21 +
    put (m.ix % 256) 24
  let low := if inertial i then toWord (h m.v.x + put (h m.v.y) 16) else wordOfInt m.v.x
  [low, toWord ((if inertial i then h m.v.z else 0) + fl), toWord m.stamp, toWord (m.stamp / 2 ^ 32)]

/-- The oldest sample taken reaches the status window and the lanes (R242, R248, R266). -/
def delivery (i : SensorId) (s : State) : State :=
  let x := s.sensor i
  match x.pend with
  | [] => s
  | m :: rest =>
    if s.running = false then s
    else
      let s := s.setSensor i { x with
        pend := rest, last := sampleWords i m, nsamp := x.nsamp + 1
        ncov := if (if inertial i then m.cov else m.sat) then satInc x.ncov else x.ncov
        nempty := if m.empty then satInc x.nempty else x.nempty }
      forEach (lanesFed s i) (laneSample i m (rest.countP (·.epochInc))) s

/-- SENSOR_SAMPLE_DELIVERY: the oldest sample taken reaches the status window and the lanes (R242, R248, R266). -/
def execSensorSampleDelivery (i : SensorId) (s : State) : Out :=
  .next (unlessEarly (.sensorSampleDelivery i) (delivery i) s)

/-- A lane produces its oldest computed record: its window, its event, and every consumer (R288, R290). -/
def laneRecord (l : LaneId) (s : State) : State :=
  let x := s.lane l
  match x.outq with
  | [] => s
  | r :: rest =>
    if s.running = false then s
    else
      let s := s.setLane l { x with
        outq := rest, last := (r.words ++ [0, 0]).take 7, nout := x.nout + 1
        ngap := if r.flags / fGap % 2 = 1 then satInc x.ngap else x.ngap }
      let s := if x.evt then s.event l.val (laneArg r) r.stamp else s
      let s := forEach (allIx 14) (fun k s =>
        let y := s.recog k
        if y.st = .run ∧ y.srcLane = l.val then s.setRecog k { y with inq := y.inq ++ [r] } else s) s
      let s := forEach (allIx 64) (ringOffer l r.words) s
      let s := forEach (allIx 64) (fun q s =>
        if (s.queue q).prod = 1 ∧ (s.queue q).pinst = l.val then writeItem q (recordItem r.words) s else s) s
      forEach (allIx 24) (laneFromLane l r) s

/-- LANE_RECORD: a lane produces its oldest computed record (R288, R290). -/
def execLaneRecord (l : LaneId) (s : State) : Out := .next (unlessEarly (.laneRecord l) (laneRecord l) s)

/-- The sample boundaries of a clock: a lane instruction of that clock finds its input taken (R95, R298, R305, R310). -/
def laneFirst : Instr → Option (State → State)
  | .sensorSampleDelivery i => some (delivery i)
  | .laneRecord l => some (laneRecord l)
  | _ => none

/-! ## LANE.BUILD (R291, R292) -/

/-- Stages from their descriptors, with CR_k and coefficient offsets (R294). -/
def mkStages : Nat → Nat → Words → List Stage
  | _, _, [] => []
  | cr, off, d :: r =>
    let cr' := cr * stageRatio d
    ⟨d, cr', off, 0, [], [], none, false⟩ :: mkStages cr' (off + stageCoefs d) r

/-- Every CLIP pair has LO not above HI (R291). -/
def clipsOk (sts : List Stage) (tab : Words) : Bool :=
  sts.all (fun st => sType st.desc != 8 || decide (coefAt tab st.off ≤ coefAt tab (st.off + 1)))

/-- Σ group delay × CR_(k-1), in quarters of P (R295). -/
def delaySum : Nat → List Stage → Nat
  | _, [] => 0
  | cr, st :: r => stageDelay st.desc * cr + delaySum st.cr r

/-- Upstream of a build: whether it carries a triad, its CR and its group delay. A source lane in OFF has no chain:
single, CR 1, delay 0 (DEDUCED, log entry 15). -/
def upstream (s : State) (src : Nat) : Bool × Nat × Nat :=
  if src < 11 then (decide (src < 3), 1, 0)
  else
    let x := vgetD s.lanes (src - 32) Lane.reset
    if x.st = .off then (false, 1, 0) else (x.triad, x.cr, x.gdly)

/-- Words of a set that belong to axes Y and Z (R291, R301). -/
def yzWords : List Nat := [2, 3, 5, 6, 7, 8, 9, 10, 11, 12, 14, 15, 17, 18, 20, 21]

/-- A set whose Y and Z entries are zero. -/
def yzZero (ws : Words) : Bool := yzWords.all (fun k => wordAt ws k == 0)

/-- The fields of a build block (R291), the table and slots apart; `up` is the upstream lane or sensor. -/
def buildFieldsOk (l : LaneId) (ws : Words) (up : Bool × Nat × Nat) : Bool :=
  let w0 := wordAt ws 0
  let src := fieldOf w0 5 0
  let n := fieldOf w0 11 8
  let ctlen := fieldOf (wordAt ws 2) 9 0
  let ds := (ws.drop 3).take n
  let sts := mkStages up.2.1 0 ds
  let cals := ds.filter (fun d => sType d == 7)
  (src < 11 || (32 ≤ src && src - 32 < l.val)) && zeroBits w0 7 6 && zeroBits w0 31 13 && inRange 1 8 n &&
  zeroBits (wordAt ws 2) 31 10 && ctlen ≤ 512 && !(ctlen == 0 && wordAt ws 1 != 0) && ds.all stageOk &&
  (ws.drop (3 + n)).all (fun d => d == 0) && ctlen == ds.foldl (fun a d => a + stageCoefs d) 0 &&
  (up.1 || ds.all (fun d => sType d != 6)) && (src < 11 || cals.isEmpty) && cals.length ≤ 1 &&
  (match sts.getLast? with | some st => st.cr ≤ 4096 | none => false)

/-- What LANE.BUILD decides after its block and table (R291, R292): a refusal or nothing. -/
def buildRefusal (s : State) (l : LaneId) (ws : Words) (sts : List Stage) (tab : Words) : Option (BitVec 8) :=
  let src := fieldOf (wordAt ws 0) 5 0
  let cal := (sts.find? (fun st => sType st.desc == 7)).map (fun st => st.desc)
  if !clipsOk sts tab then some stRange
  else match cal with
    | none => none
    | some d =>
      let set := slotOf s src (sP1 d % 8)
      if 3 ≤ src ∧ (match set with | some ws => yzZero ws | none => true) = false then some stRange
      else if set.isNone then some stState
      else if sEst d = true ∧ (allIx 24).any (fun k =>
          k != l && (s.lane k).st != .off && (s.lane k).est && (s.lane k).src == src) = true then some stState
      else none

/-- The lane that a build leaves (R292, R295, R297). GDLY is a free value while the source sensor has no settings, for
then no P is given (log entry 2). -/
def builtLane (s : State) (x : Lane) (ws : Words) (up : Bool × Nat × Nat) (tab : Words) : Lane :=
  let src := fieldOf (wordAt ws 0) 5 0
  let sts := mkStages up.2.1 0 ((ws.drop 3).take (fieldOf (wordAt ws 0) 11 8))
  let slotNew := (sts.find? (fun st => sType st.desc == 7)).map (fun st => sP1 st.desc % 8)
  let slotOld := if x.hasCal then some x.slot.toNat else none
  let head : Option SensorId := if src < 11 then some (finOf 11 src) else sensorBehind s (src - 32)
  let period : Option Nat := match head with
    | some i => if (s.sensor i).st = .off then none else some (periodOf i (s.sensor i))
    | none => none
  { x with
    st := .ready, build := ws, triad := up.1, upCr := up.2.1, stages := sts, shadow := tab, nextShadow := none
    shPoison := false, errs := [], ctab := wordAt ws 1, cr := (match sts.getLast? with | some st => st.cr | none => up.2.1)
    gdly := (match period with
      | some p => up.2.2 + p * delaySum up.2.1 sts / 4
      | none => (Config.freeWord s.free).toNat)
    slot := BitVec.ofNat 3 (slotNew.getD 0), pslot := none
    epoch := if x.st = .off then 0 else if slotNew = slotOld then x.epoch else x.epoch + 1
    prev := none, lastJ := none, resumed := false, gap := false, win := 0 }

/-- What every lane instruction shares (LANES is its function, Table 4.3). -/
def laneInstr (c : CoreId) (i : Instr) (f : UForm) (unused : List (BitVec 4)) (blk : LaneId → State → Option Nat)
    (body : LaneId → Tid → Regs → State → Ans) (s : State) : Out :=
  let l := UForm.num 24 f
  .next (specInstr c i
    { o2 := fun t r s => unitOk 24 f unused &&
        (match blk l s with | some n => blockOk t (r.rd f.ra).toNat n | none => true)
      o3 := fun t r s => s.may t (capLane f.inst.toNat) &&
        (match blk l s with | some n => blockMay s t (r.rd f.ra).toNat n | none => true)
      waits := fun _ _ s => waitsFor .lanes s
      body := fun _ t r s => body l t r s } (ownFirst laneFirst s))

/-- The SENS or LANE bit of the source that a build block names (Table 3.3). -/
def sourceMay (s : State) (t : Tid) (src : Nat) : Bool :=
  if src < 11 then s.may t (capSens src)
  else if 32 ≤ src ∧ src < 56 then s.may t (capLane (src - 32)) else true

/-- The coefficient table of a block read (R59, R61): a status, or its words. -/
def readTable (t : Tid) (a n : Nat) (s : State) : Except (BitVec 8) Words × State :=
  if n = 0 then (.ok [], s)
  else if !blockOk t a n then (.error stRange, s)
  else if !blockMay s t a n then (.error stCap, s)
  else
    let (ws, bad, s) := readBlock a n s
    (if bad then .error stEcc else .ok ws, s)

/-- LANE.BUILD l, wa (R291, R292). The source's capability bit is known once the block is read, and decides before its
fields. -/
def execLaneBuild (c : CoreId) (f : UForm) (s : State) : Out :=
  laneInstr c (.laneBuild c f) f [f.rd, f.rb] (fun _ _ => some 11) (fun l t r s =>
    inStates (s.lane l).st [.off, .ready] s (withBlock (r.rd f.ra).toNat 11 s (fun ws s =>
      let up := upstream s (fieldOf (wordAt ws 0) 5 0)
      let n := fieldOf (wordAt ws 2) 9 0
      if !sourceMay s t (fieldOf (wordAt ws 0) 5 0) then .status stCap s 11
      else if !buildFieldsOk l ws up then .status stRange s 11
      else match readTable t (wordAt ws 1).toNat n s with
        | (.error e, s) => .status e s (if e = stEcc then 11 + n else 11)
        | (.ok tab, s) =>
          let sts := mkStages up.2.1 0 ((ws.drop 3).take (fieldOf (wordAt ws 0) 11 8))
          let x : Ans := match buildRefusal s l ws sts tab with
            | some e => .status e s (11 + n)
            | none => .ok ((s.setLane l (builtLane s (s.lane l) ws up tab)).nextFree) (11 + n)
          { x with banks := blockBanks (wordAt ws 1).toNat n }))) s

/-- LANE.LOAD l, wa (R298). -/
def execLaneLoad (c : CoreId) (f : UForm) (s : State) : Out :=
  laneInstr c (.laneLoad c f) f [f.rd, f.rb] (fun l s => some (s.lane l).ctlen) (fun l _ r s =>
    let x := s.lane l
    inStates x.st [.ready, .run, .held] s (withBlock (r.rd f.ra).toNat x.ctlen s (fun tab s =>
      if !clipsOk x.stages tab then .status stRange s x.ctlen
      else
        let y := { s.lane l with ctab := r.rd f.ra, nload := satInc x.nload }
        .ok (s.setLane l (if x.st = .run then { y with nextShadow := some tab }
          else y.copyShadow tab)) x.ctlen))) s

/-- A lane that streams with zero stage state from its recorded table (R297, R299). -/
def startLane (l : LaneId) (t : Tid) (s : State) (k : Lane → State → Ans) : Ans :=
  let x := s.lane l
  match readTable t x.ctab.toNat x.ctlen s with
  | (.error e, s) => .status e s (if e = stEcc then x.ctlen else 0)
  | (.ok tab, s) =>
    { k { s.lane l with
        st := .run, shadow := tab, nextShadow := none, shPoison := false, errs := []
        stages := x.stages.map (fun st => { st.zero with clk := none, poison := false }) } s with
      banks := blockBanks x.ctab.toNat x.ctlen }

/-- LANE.START l (R299, R310). -/
def execLaneStart (c : CoreId) (f : UForm) (s : State) : Out :=
  laneInstr c (.laneStart c f) f [f.rd, f.ra, f.rb] (fun _ _ => none) (fun l t _ s =>
    inStates (s.lane l).st [.ready] s (startLane l t s (fun x s =>
      .ok (laneEntered l (s.setLane l { x with
        prev := none, lastJ := none, resumed := false, gap := false, win := 0 })) x.ctlen))) s

/-- LANE.SUSPEND l (R310). -/
def execLaneSuspend (c : CoreId) (f : UForm) (s : State) : Out :=
  laneInstr c (.laneSuspend c f) f [f.rd, f.ra, f.rb] (fun _ _ => none) (fun l _ _ s =>
    inStates (s.lane l).st [.run] s
      (.ok (laneLeft l (stopRun l (s.setLane l { s.lane l with st := .held }))))) s

/-- Index of the first input of the original sensor not yet delivered to LANE_l, by a search of at most `n` lanes; none
where its chain does not stream. -/
def nextInput (s : State) : Nat → Nat → Option Nat
  | 0, _ => none
  | n + 1, l =>
    let x := vgetD s.lanes l Lane.reset
    if x.src < 11 then
      let y := vgetD s.sensors x.src Sensor.reset
      match y.pend with
      | m :: _ => some m.ix
      | [] => y.next
    else
      let u := vgetD s.lanes (x.src - 32) Lane.reset
      match u.outq with
      | r :: _ => some r.ix
      | [] => if u.st = .run then nextInput s n (x.src - 32) else none

/-- MISSED that the GAP record after a resume will carry (R311): output instants between the previous record and the
first one whose input is delivered after it. A free value where no input is in sight (log entry 2). -/
def resumeMissed (s : State) (l : LaneId) : Nat :=
  let x := s.lane l
  match nextInput s 24 l.val with
  | none => (Config.freeWord s.free).toNat
  | some i =>
    let cr := max 1 x.cr
    let j := (i + cr) / cr - 1
    match x.lastJ with
    | some p => min 65535 (j - p - 1)
    | none => 0

/-- LANE.RESUME wd, l (R299, R311). -/
def execLaneResume (c : CoreId) (f : UForm) (s : State) : Out :=
  laneInstr c (.laneResume c f) f [f.ra, f.rb] (fun _ _ => none) (fun l t _ s =>
    inStates (s.lane l).st [.held] s (startLane l t s (fun x s =>
      .val f.rd (toWord (resumeMissed s l))
        (laneEntered l ((s.setLane l { x with resumed := true }).nextFree)) x.ctlen))) s

/-- LANE.STOP l (R310). -/
def execLaneStop (c : CoreId) (f : UForm) (s : State) : Out :=
  laneInstr c (.laneStop c f) f [f.rd, f.ra, f.rb] (fun _ _ => none) (fun l _ _ s =>
    inStates (s.lane l).st [.run, .held] s
      (.ok (laneLeft l (stopRun l (s.setLane l { s.lane l with st := .ready }))))) s

/-- LANE.CLEAR l (Table 1.6): the stages go; the counters stay. -/
def execLaneClear (c : CoreId) (f : UForm) (s : State) : Out :=
  laneInstr c (.laneClear c f) f [f.rd, f.ra, f.rb] (fun _ _ => none) (fun l _ _ s =>
    inStates (s.lane l).st [.ready] s (.ok (s.setLane l { s.lane l with
      st := .off, stages := [], shadow := [], nextShadow := none, pslot := none, cr := 0, gdly := 0, outq := []
      errs := [], shPoison := false }))) s

/-! ## Calibration (R301, R305, R309) -/

/-- A lane in RUN or HELD uses the slot, or a CALSWAP holds it pending (R301). -/
def slotBusy (s : State) (i k : Nat) : Bool :=
  (allIx 24).any (fun l =>
    let x := s.lane l
    x.st != .off && x.src == i && x.hasCal &&
      (((x.st == .run || x.st == .held) && x.slot.toNat == k) ||
       (match x.pslot with | some p => p.toNat == k | none => false)))

/-- A slot written. -/
def writeSlot (i : SensorId) (k : Nat) (ws : Words) (s : State) : State :=
  s.modSensor i (fun y => { y with slots := vsetD y.slots k (some ws) })

/-- A calibration set within Table 10.7 for its sensor (R301). -/
def setOk (i : SensorId) (ws : Words) : Bool :=
  fieldOf (wordAt ws 0) 15 0 == 1 && (inertial i || yzZero ws)

/-- What CALPUT and CALPUT.P share: a sensor in FAULT answers ST_NOTREADY; slots lie with the lanes (DEDUCED, log
entry 16). -/
def calInstr (c : CoreId) (i : Instr) (f : UForm) (unused : List (BitVec 4)) (blk cal : Bool)
    (body : SensorId → Tid → Regs → State → Ans) (s : State) : Out :=
  let k := UForm.num 11 f
  .next (specInstr c i
    { o2 := fun t r _ => unitOk 11 f unused && (!blk || blockOk t (r.rd f.rb).toNat 22)
      o3 := fun t r s => s.may t (fun x => capSens f.inst.toNat x && (!cal || capCal x)) &&
        (!blk || blockMay s t (r.rd f.rb).toNat 22)
      failed := fun _ _ s => s.hasFailed (sensorFunc k) || (s.sensor k).st == .fault
      waits := fun _ _ s => waitsFor .lanes s
      body := fun _ t r s => body k t r s } (ownFirst laneFirst s))

/-- CALPUT s, wa, wb (R301). -/
def execCalput (c : CoreId) (f : UForm) (s : State) : Out :=
  calInstr c (.calput c f) f [f.rd] true false (fun i _ r s =>
    let k := (r.rd f.ra).toNat % 8
    if slotBusy s i.val k then .status stState s
    else withBlock (r.rd f.rb).toNat 22 s (fun ws s =>
      if setOk i ws then .ok (writeSlot i k ws s) 22 else .status stRange s 22)) s

/-- CALPUT.P s, wa (R309). -/
def execCalputP (c : CoreId) (f : UForm) (s : State) : Out :=
  calInstr c (.calputP c f) f [f.rd, f.rb] false true (fun i _ r s =>
    let k := (r.rd f.ra).toNat % 8
    match (s.sensor i).proposal with
    | none => .status stState s
    | some ws =>
      if slotBusy s i.val k then .status stState s
      else .ok ((writeSlot i k ws s).modSensor i (fun y => { y with proposal := none }))) s

/-- The epoch that a swap at the next boundary of a lane gives: an increment of R252 at the instant of that input counts
for both (R305 and its Edges). -/
def swapEpoch (s : State) (x : Lane) : BitVec 8 :=
  match (vgetD s.sensors x.src Sensor.reset).pend with
  | m :: rest => x.epoch - BitVec.ofNat 8 (rest.countP (·.epochInc)) + (if m.epochInc then 0 else 1)
  | [] => x.epoch + 1

/-- CALSWAP wd, l, wa (R305): in RUN at the next sample boundary, in READY and HELD at once. A second one before the
boundary replaces the pending slot, be it by the one in use, and the one increment stays (log entry 71). -/
def calSwap (l : LaneId) (k : BitVec 3) (d : BitVec 4) (s : State) : Ans :=
  let x := s.lane l
  if x.hasCal = false ∨ (slotOf s x.src k.toNat).isNone = true then .status stState s
  else if k = x.slot ∧ x.pslot = none then .val d (toWord x.epoch.toNat) s
  else if x.st = .run then .val d (toWord (swapEpoch s x).toNat) (s.setLane l { x with pslot := some k })
  else
    .val d (toWord (x.epoch + 1).toNat)
      (s.setLane l { x with slot := k, pslot := none, epoch := x.epoch + 1, nswap := satInc x.nswap })

/-- CALSWAP wd, l, wa (R305). -/
def execCalswap (c : CoreId) (f : UForm) (s : State) : Out :=
  let l := UForm.num 24 f
  .next (specInstr c (.calswap c f)
    { o2 := fun _ _ _ => unitOk 24 f [f.rb]
      o3 := fun t _ s => s.may t (fun x => capLane f.inst.toNat x && capCal x)
      waits := fun _ _ s => waitsFor .lanes s
      body := fun _ _ r s =>
        inStates (s.lane l).st [.ready, .run, .held] s (calSwap l (BitVec.ofNat 3 (r.rd f.ra).toNat) f.rd s) }
    (ownFirst laneFirst s))

/-! ## Status window (Table 10.9) -/

def laneWindow (x : Lane) (off : Nat) : Word :=
  if off = 0 then
    toWord (x.st.num + put (bit01 x.pslot.isSome) 2 + put x.slot.toNat 3 +
      put (match x.pslot with | some p => p.toNat | none => 0) 6 + put (bit01 x.est) 9 + put (bit01 x.tsub) 10 +
      put x.epoch.toNat 16)
  else if off = 4 then toWord x.cr
  else if off = 8 then toWord x.gdly
  else if off = 0xC then x.ctab
  else if 0x10 ≤ off ∧ off ≤ 0x28 then wordAt x.last ((off - 0x10) / 4)
  else if off = 0x2C then x.nout
  else if off = 0x30 then b16 x.ngap x.novr
  else if off = 0x34 then b16 x.ncorr x.npois
  else if off = 0x38 then b16 x.nswap x.nload
  else if off = 0x3C then toWord x.nrej.toNat
  else if 0x40 ≤ off ∧ off ≤ 0x68 then wordAt x.build ((off - 0x40) / 4)
  else 0

end Sys2Proof.Machine
end

