-- ==== Sys2Proof/Machine/SenseOwn.lean ====
section
/-!
DEFINITION. Sys2Proof/Machine/SenseOwn.lean: what the sensors, the EXT channels and the outputs do of their own
(spec/08_inertial_sensing.md, sections 9.3, 9.4 and 9.6): conversions, samples, self-tests, impedance measurements, and
the forces of the outputs. An instruction of such a unit finds the events of its own clock done (R95).
-/
namespace Sys2Proof.Machine

/-! ## Impedance measurement abandoned (R274) -/

/-- A measurement in progress is abandoned and counted in NABORT. -/
def abandonTone (x : ToneSt) : ToneSt :=
  if x.meas.isSome then { x with meas := none, measSat := false, nabort := satInc x.nabort } else x

/-- The check period cleared, with a measurement in progress abandoned (R268, R274). -/
def clearTone (x : ToneSt) : ToneSt := { (abandonTone x) with tper := 0 }

/-! ## Notices (R255, R256) -/

/-- The argument of a sensor notice (Table 8.6). -/
def noticeArg (kind : Nat) (i : SensorId) (x : Sensor) : Word :=
  toWord (x.stpass.toNat + put i.val 24 + put kind 28 + put 1 31)

/-- A sensor notice on every lane that the sensor feeds, raised in the next clock and stamped with the hive time of this
one, in which the self-test ends (R253, R255, R256). -/
def sensorNotice (kind : Nat) (i : SensorId) (s : State) : State :=
  forEach (lanesFed s i) (fun l s => s.eventOf l.val (noticeArg kind i (s.sensor i))) s

/-- A self-test in progress is aborted (R256). -/
def abortTest' (i : SensorId) (s : State) : State :=
  let x := s.sensor i
  match x.test with
  | none => s
  | some _ =>
    sensorNotice 2 i (s.setSensor i { x with test := none, stabort := true, stdone := true, stpass := 0 })

/-! ## Conversions (R241 to R245, R251 to R258) -/

/-- A sensor yields a conversion of its own at a stamp (R251, R256). -/
def ownAt (x : Sensor) (stamp : Nat) : Bool := x.st == .run && (x.recover == 0 || decide (x.recover < stamp))

/-- A raw value clamped to the code range, with its saturation: at the limit for an inertial axis, beyond it for an EXT
channel (R238, Table 9.4). -/
def clampCode (i : SensorId) (v : Int) : Int × Bool :=
  let m : Int := codeFull i
  let c := max (-m) (min (m - 1) v)
  (c, if inertial i then decide (v ≤ -m) || decide (m - 1 ≤ v) else c != v)

/-- Codes and saturations of an inertial conversion. -/
def codesOf (i : SensorId) (r : RawTriple) : V3 × Bool × Bool × Bool :=
  let x := clampCode i r.x
  let y := clampCode i r.y
  let z := clampCode i r.z
  (⟨x.1, y.1, z.1⟩, x.2, y.2, z.2)

/-- The other accelerometer. -/
def otherAcc (i : SensorId) : SensorId := if i = 0 then 1 else 0

/-- A held or failed accelerometer receives cover at a stamp (R254). -/
def covers (s : State) (h : SensorId) (stamp : Nat) : Bool :=
  let x := s.sensor h
  let o := otherAcc h
  let y := s.sensor o
  let ph := periodOf h x
  let po := periodOf o y
  decide (h.val < 2) && x.cover && y.test.isNone && y.next.isSome && ownAt y stamp && ph % po == 0 &&
  (List.range 20).any (fun k => ph == po * 2 ^ k)

/-- Element (a, j) of the alignment matrix M. -/
def alignAt (s : State) (a j : Nat) : Int := coefAt s.align (3 * a + j)

/-- The covered sample's codes from the other sensor's (R254), with its saturation. -/
def coverCodes (s : State) (h : SensorId) (c : V3) (csat : Bool) : V3 × Bool :=
  let o := otherAcc h
  let num : Int := codeFull h * fullScale o (s.sensor o)
  let den : Nat := 2 ^ 30 * codeFull o * fullScale h (s.sensor h)
  let one (a : Nat) : Int × Bool :=
    let m : Int := codeFull h
    let v := roundAway ((alignAt s a 0 * c.x + alignAt s a 1 * c.y + alignAt s a 2 * c.z) * num) den
    let k := max (-m) (min (m - 1) v)
    (k, k != v)
  let x := one 0
  let y := one 1
  let z := one 2
  (⟨x.1, y.1, z.1⟩, csat || x.2 || y.2 || z.2)

/-- ACC_B, aligned by M, differs from ACC_A on an axis by more than the threshold (R258). -/
def plausMiss (s : State) (a b : V3 × Bool × Bool × Bool) : Bool :=
  let sa := s.sensor 0
  let sb := s.sensor 1
  let thr := max sa.pthr sb.pthr * 16
  let satA (k : Nat) : Bool := if k = 0 then a.2.1 else if k = 1 then a.2.2.1 else a.2.2.2
  let satB (k : Nat) : Bool := if k = 0 then b.2.1 else if k = 1 then b.2.2.1 else b.2.2.2
  [0, 1, 2].any (fun k =>
    if satA k || satB k then false
    else
      let pa : Int := a.1.get k * fullScale 0 sa * 1000 * (8192 * 2 ^ 30)
      let m := alignAt s k 0 * b.1.x + alignAt s k 1 * b.1.y + alignAt s k 2 * b.1.z
      let pb : Int := m * fullScale 1 sb * 1000 * 32768
      decide (thr * (32768 * 8192 * 2 ^ 30) < (pa - pb).natAbs))

/-- The plausibility check at an instant common to both accelerometers (R258). -/
def plausCheck (s : State) : State :=
  let a := s.sensor 0
  let b := s.sensor 1
  match a.conv, b.conv with
  | some (ta, va), some (tb, vb) =>
    if ta = tb ∧ a.st = .run ∧ b.st = .run ∧ a.test = none ∧ b.test = none ∧ a.plaus = true ∧ b.plaus = true then
      if plausMiss s va vb then
        let n := s.plausRun + 1
        let s := { s with plausRun := n }
        if n = 16 then
          let f (x : Sensor) : Sensor := { x with nplaus := satInc x.nplaus, plausBad := true }
          (s.modSensor 0 f).modSensor 1 f
        else s
      else
        let f (x : Sensor) : Sensor := { x with plausBad := false }
        (({ s with plausRun := 0 }).modSensor 0 f).modSensor 1 f
    else s
  | _, _ => s

/-- Length of a measurement in ticks (R269). -/
def toneTicks : Nat := 6291456

/-- OPEN or SHORT stands (R273). -/
def ToneSt.flt (x : ToneSt) : Bool := x.fOpen.on || x.fShort.on

/-- A stamp lies within the measurement in progress (R270). -/
def ToneSt.within (x : ToneSt) (stamp : Nat) : Bool :=
  match x.meas with | some m => decide (m ≤ stamp) && decide (stamp < m + toneTicks) | none => false

/-- The sample of an instant, apart from SETTLE, STEP and the epoch: of the sensor's own, covered, or EMPTY. -/
def sampleAt (i : SensorId) (k stamp : Nat) (r : RawTriple) (s : State) : Sample × Option (V3 × Bool × Bool × Bool) :=
  let x := s.sensor i
  let base : Sample := ⟨k, stamp, V3.zero, false, false, false, false, false, false, false, false⟩
  if ownAt x stamp then
    let c := codesOf i r
    if inertial i then ({ base with v := c.1, sat := c.2.1 || c.2.2.1 || c.2.2.2 }, some c)
    else
      ({ base with
          v := ⟨c.1.x, 0, 0⟩, sat := c.2.1 || decide (0 < x.ovl), tone := x.tone.within stamp, flt := x.tone.flt }, some c)
  else if covers s i stamp then
    let o := otherAcc i
    let c : V3 × Bool := match (s.sensor o).conv with
      | some (t, v, a, b, d) => if t = stamp then (v, a || b || d) else
          (let q := codesOf o r; (q.1, q.2.1 || q.2.2.1 || q.2.2.2))
      | none => (let q := codesOf o r; (q.1, q.2.1 || q.2.2.1 || q.2.2.2))
    let v := coverCodes s i c.1 c.2
    ({ base with v := v.1, sat := v.2, cov := true }, none)
  else ({ base with
      empty := true, tone := !inertial i && x.tone.within stamp, flt := !inertial i && x.tone.flt }, none)

/-- A sensor has an instant at a stamp: one to come or the one it took last (R241, R251). -/
def instantAt (i : SensorId) (x : Sensor) (stamp : Nat) : Bool :=
  match x.next with
  | none => false
  | some k => x.taken == some stamp || (stamp % periodOf i x == 0 && decide (k * periodOf i x ≤ stamp))

/-- An increment of R252 reaches every lane that the sensor feeds, at the sensor's instant (R305). -/
def bumpLanes (i : SensorId) (s : State) : State :=
  forEach (lanesFed s i) (fun l s => s.modLane l (fun y => { y with epoch := y.epoch + 1 })) s

/-- An instant's sample taken into the sensor's delivery list (R241, R244, R245, R252, R265). -/
def takeSample (i : SensorId) (k : Nat) (r : RawTriple) (s : State) : State :=
  let x := s.sensor i
  let stamp := k * periodOf i x
  let (m, conv) := sampleAt i k stamp r s
  let own := conv.isSome
  let dcUntil := if x.dcFirst then stamp + msTicks 100 else x.dcUntil
  let m := { m with
    settle := decide (0 < x.settle) || decide (stamp < dcUntil), step := x.stepNext
    epochInc := x.holdInc || (own && x.retInc) }
  let ovl := match conv with
    | some c => if !inertial i && !x.voltage && c.2.1 then 2 else x.ovl - 1
    | none => x.ovl - 1
  let covering := own && decide (i.val < 2) &&
    (let h := otherAcc i
     let y := s.sensor h
     instantAt h y stamp && !ownAt y stamp && covers s h stamp)
  let s := s.setSensor i { x with
    next := some (k + 1), settle := x.settle - 1, stepNext := false, dcFirst := false, dcUntil := dcUntil, ovl := ovl
    holdInc := false, retInc := x.retInc && !own, pend := x.pend ++ [m]
    taken := some stamp, conv := (match conv with | some c => some (stamp, c) | none => x.conv)
    covering := if i.val < 2 then covering else x.covering
    tone := { x.tone with measSat := x.tone.measSat || (m.tone && m.sat) } }
  let s := if m.epochInc then bumpLanes i s else s
  if own && decide (i.val < 2) then plausCheck s else s

/-- The sensor's next instant, if hive time has reached it (R241). -/
def conversion (i : SensorId) (v : RawTriple) (s : State) : State :=
  match (s.sensor i).next with
  | none => s
  | some k => if s.running = true ∧ k * periodOf i (s.sensor i) ≤ s.time.hive then takeSample i k v s else s

/-- CONVERSION: hive time has reached the sensor's next instant; the operand holds the converter's raw codes, those of
the covering sensor at a covered instant that it has not yet converted (R241, R254). -/
def execConversion (i : SensorId) (v : RawTriple) (s : State) : Out :=
  .next (unlessEarly (.conversion i v) (conversion i v) s)

/-- A step of hive time moves a sensor's next instant past the new time, and the first sample after it carries STEP,
whenever that comes (R244); what was converted before it is no sample at a stamp after it. -/
def stepSensor (new : Nat) (i : SensorId) (x : Sensor) : Sensor :=
  { x with next := x.next.map (fun _ => new / periodOf i x + 1), stepNext := true, conv := none, taken := none }

/-! ## Self-test (R253, R255, R257, R267) -/

/-- Pass limits of an inertial self-test delta (Table 8.9). -/
def deltaOk (i : SensorId) (d : Int) : Bool :=
  let (lo, hi) : Int × Int := if i = 0 then (300, 1500) else if i = 1 then (5000, 25000) else (1000, 3000)
  decide (lo ≤ d) && decide (d ≤ hi)

/-- The self-test ends in the first clock at which hive time reaches its end (R253, R267). -/
def selfTestEnd (i : SensorId) (v : RawTriple) (s : State) : State :=
  let x := s.sensor i
  match x.test with
  | none => s
  | some e =>
    if s.running = false ∨ s.time.hive < e then s
    else
      let errOk (d : Int) : Bool := decide (d.natAbs ≤ 200)
      let pass : Nat := if inertial i then
          bit01 (deltaOk i v.x) + put (bit01 (deltaOk i v.y)) 1 + put (bit01 (deltaOk i v.z)) 2
        else bit01 (errOk v.x && errOk v.y)
      let good := pass == (if inertial i then 7 else 1)
      sensorNotice 1 i (s.setSensor i { x with
        test := none, stpass := BitVec.ofNat 3 pass, stdone := true, stcount := satInc x.stcount
        dx := BitVec.ofInt 16 v.x, dy := BitVec.ofInt 16 v.y, dz := if inertial i then BitVec.ofInt 16 v.z else x.dz
        st := if good then x.st else .fault })

/-- SELF_TEST_END: the self-test ends; the operand holds the deltas, or an EXT channel's two step errors in 0.01 %. -/
def execSelfTestEnd (i : SensorId) (v : RawTriple) (s : State) : Out :=
  .next (unlessEarly (.selfTestEnd i v) (selfTestEnd i v) s)

/-! ## Impedance check (R268 to R274) -/

/-- EXT_n as a sensor instance. -/
def extOf (n : Fin 8) : SensorId := finOf 11 (n.val + 3)

/-- Check period in ticks of a period code (R268). -/
def tonePeriod (k : Nat) : Nat := 48000000 * 2 ^ (k - 1)

/-- A measurement starts once hive time has reached a multiple of the check period (R269); none starts outside RUN. -/
def toneStart (ch : Fin 8) (s : State) : State :=
  let i := extOf ch
  let x := s.sensor i
  let p := tonePeriod x.tone.tper
  let m := s.time.hive / p * p
  if s.running = true ∧ x.st = .run ∧ x.tone.tper ≠ 0 ∧ x.tone.meas = none ∧ x.tone.notBefore ≤ m then
    s.setSensor i { x with tone := { x.tone with meas := some m, measSat := false, notBefore := m + 1 } }
  else s

/-- TONE_MEAS_START: hive time has reached a multiple of the check period (R269). -/
def execToneMeasStart (ch : Fin 8) (s : State) : Out :=
  .next (unlessEarly (.toneMeasStart ch) (toneStart ch) s)

/-! ## Outputs forced by the watch (R281, R283) -/

def Aout.cliplo (x : Aout) : Nat := fieldOf x.set0 11 0
def Aout.cliphi (x : Aout) : Nat := fieldOf x.set0 23 12
def Aout.wen (x : Aout) : Bool := bitOf x.set0 24
def Aout.wsrc (x : Aout) : Nat := fieldOf x.set0 27 25
def Aout.wband (x : Aout) : Bool := bitOf x.set0 28
def Aout.tmo (x : Aout) : Nat := fieldOf x.set1 7 0
def Aout.tband (x : Aout) : Bool := bitOf x.set1 8

/-- A channel forced to HELD at a band by its watch (2) or its timeout (3). -/
def Aout.force (x : Aout) (band : Bool) (cause : BitVec 3) : Aout :=
  { x with st := .held, band := band, cause := cause, nforce := satInc x.nforce }

/-- OPEN or SHORT of a channel has set: every watching output in RUN is forced (R281). -/
def watchForce (ch : Nat) (s : State) : State :=
  { s with aouts := vmap (fun x =>
      if x.st = .run ∧ x.wen = true ∧ x.wsrc = ch then x.force x.wband 2 else x) s.aouts }

/-! ## Results (R271 to R273) -/

/-- A flag after a test that failed or passed (R272). -/
def flagTest (fail : Bool) (setAt clearAt : Nat) (x : ToneFlag) : ToneFlag :=
  if fail then
    let n := x.fails + 1
    { on := x.on || decide (setAt ≤ n), fails := n, passes := 0 }
  else
    let n := x.passes + 1
    { on := x.on && decide (n < clearAt), fails := 0, passes := n }

/-- The flag tests of Table 9.5 on a valid result, in its order (R272). -/
def flagTests (x : Sensor) (cm gm : Nat) (t : ToneSt) : ToneSt :=
  let nom := x.nom
  if x.voltage then { t with fOpen := flagTest (decide (nom < cm)) 1 2 t.fOpen }
  else
    let short := decide (10000000 < gm)
    let t := { t with fShort := flagTest short 1 2 t.fShort }
    if short then t
    else
      let opn := decide (4 * cm < nom * 10)
      let t := { t with fOpen := flagTest opn 1 2 t.fOpen }
      if opn then t
      else
        let leak := x.rlim != 0 && decide (100000000 < gm * 2 ^ x.rlim)
        let t := { t with fLeak := flagTest leak 2 2 t.fLeak }
        let drift := x.dthr != 0 && decide (x.dthr * nom * 10 < ((cm : Int) - nom * 10).natAbs * 100)
        { t with fDrift := flagTest drift 3 1 t.fDrift }

/-- FLAGS of event 0xB0 (Table 9.6). -/
def toneFlags (t : ToneSt) : Nat :=
  bit01 t.fOpen.on + put (bit01 t.fShort.on) 1 + put (bit01 t.fLeak.on) 2 + put (bit01 t.fDrift.on) 3

/-- The base lane's estimator takes a valid result (Table 10.8). -/
def toneEstimate (i : SensorId) (stamp gain : Nat) (s : State) : State :=
  match (allIx 24).find? (fun l => (s.lane l).st == .run && (s.lane l).est && (s.lane l).src == i.val) with
  | none => s
  | some l =>
    match slotOf s i.val (s.lane l).slot.toNat with
    | none => s
    | some ws => offerProposal i l stamp (s.lane l).epoch (s.lane l).slot (extProposal ws gain) s

/-- A valid result is written and tested (R271 to R273, R281, R308). -/
def validResult (ch : Fin 8) (m : Nat) (r : ToneMeas) (s : State) : State :=
  let i := extOf ch
  let x := s.sensor i
  let t := x.tone
  let cm := if x.voltage then min r.c 10000 else min r.c (2 ^ 24 - 1)
  let gm := min r.g (2 ^ 32 - 1)
  let t1 := { t with
    meas := none, measSat := false, mtime := m, ncheck := satInc t.ncheck, cmeas := BitVec.ofNat 24 cm
    gmeas := if x.voltage then t.gmeas else toWord gm
    gain := if x.voltage then t.gain else toWord r.gain }
  let t2 := flagTests x cm gm t1
  let s := s.setSensor i { x with tone := t2 }
  let s := if (t2.fOpen.on && !t.fOpen.on) || (t2.fShort.on && !t.fShort.on) then watchForce ch.val s else s
  let s := s.event 0xB0
    (toWord (ch.val + put (toneFlags t2) 4 + put (bit01 (toneFlags t2 != toneFlags t)) 8)) (m + toneTicks)
  if x.voltage then s else toneEstimate i (m + toneTicks) r.gain s

/-- An INVALID result (R271). -/
def invalidResult (ch : Fin 8) (m : Nat) (s : State) : State :=
  let i := extOf ch
  let t := (s.sensor i).tone
  (s.modSensor i (fun x => { x with tone := { t with meas := none, measSat := false, ninval := satInc t.ninval } })).event
    0xB0 (toWord (ch.val + put (toneFlags t) 4 + put 1 9)) (m + toneTicks)

/-- The result of a measurement, once hive time has reached its end plus 192 ticks (R271). -/
def toneResult (ch : Fin 8) (r : ToneMeas) (s : State) : State :=
  let t := (s.sensor (extOf ch)).tone
  match t.meas with
  | none => s
  | some m =>
    if s.running = false ∨ s.time.hive < m + toneTicks + 192 then s
    else if t.measSat then invalidResult ch m s else validResult ch m r s

/-- TONE_RESULT: hive time has reached the measurement's end plus 192 ticks; the operand holds what was measured. -/
def execToneResult (ch : Fin 8) (r : ToneMeas) (s : State) : Out :=
  .next (unlessEarly (.toneResult ch r) (toneResult ch r) s)

/-! ## Write timeout (R282, R283) -/

/-- The results of a clock, whose forces come before its timeouts and instructions (R283). -/
def watchFirst : Instr → Option (State → State)
  | .toneResult ch r => some (toneResult ch r)
  | _ => none

/-- The write timeout of an output expires once hive time has reached T + TMO × 48,000 (R282). -/
def aoutTimeout (a : Fin 4) (s : State) : State :=
  let x := s.aout a
  if s.running = true ∧ x.st = .run ∧ x.tmo ≠ 0 ∧ x.since + x.tmo * 48000 ≤ s.time.hive then
    s.setAout a (x.force x.tband 3)
  else s

/-- AOUT_TIMEOUT: hive time has reached T + TMO × 48,000 (R282). -/
def execAoutTimeout (a : Fin 4) (s : State) : Out :=
  .next (unlessEarly (.aoutTimeout a) (fun s => aoutTimeout a (ownFirst watchFirst s)) s)

/-! ## What an instruction of the unit finds done (R95) -/

/-- The sensor's own events: its conversions, the end of its self-test, and its measurements and their results. -/
def senseFirst (i : SensorId) : Instr → Option (State → State)
  | .conversion k v => if k = i then some (conversion k v) else none
  | .selfTestEnd k v => if k = i then some (selfTestEnd k v) else none
  | .toneMeasStart ch => if extOf ch = i then some (toneStart ch) else none
  | .toneResult ch r => if extOf ch = i then some (toneResult ch r) else none
  | _ => none

/-- The output's own event: its timeout. -/
def aoutFirst (a : Fin 4) : Instr → Option (State → State)
  | .aoutTimeout b => if b = a then some (aoutTimeout b) else none
  | _ => none


end Sys2Proof.Machine
end

