-- ==== Sys2Proof/Machine/Sense.lean ====
section
/-!
DEFINITION. Sys2Proof/Machine/Sense.lean: the SENSE instructions and the status windows of
every sensor (spec/08_inertial_sensing.md, sections 9.1 to 9.5).
-/
namespace Sys2Proof.Machine

/-! ## SENSE instructions -/

/-- The function that a SENSE.SET waits for: its READY bit, its power-up from cold, or its domain (R143, R247). -/
def senseSetWaits (i : SensorId) (s : State) : Option Func :=
  let f := sensorFunc i
  let x := s.sensor i
  match waitsFor f s with
  | some f => some f
  | none => if inertial i && x.st == .off && (!x.warm || x.warmAt.isSome) then some f else none

/-- What every SENSE instruction shares; the sensor's own events of its clock come first (R95). -/
def senseInstr (c : CoreId) (i : Instr) (f : UForm) (unused : List (BitVec 4)) (lo : Nat) (blk off : Bool)
    (waits : SensorId → State → Option Func) (body : SensorId → Tid → Regs → State → Ans) (s : State) : Out :=
  let k := UForm.num 11 f
  .next (specInstr c i
    { o2 := fun t r _ => unitOk 11 f unused && decide (lo ≤ f.inst.toNat) && (!blk || blockOk t (r.rd f.ra).toNat 2)
      o3 := fun t r s => s.may t (capSens f.inst.toNat) && (!blk || blockMay s t (r.rd f.ra).toNat 2)
      failed := fun _ _ s => !off && (s.hasFailed (sensorFunc k) || (s.sensor k).st == .fault)
      waits := fun _ _ s => if off && (s.hasFailed (sensorFunc k) || (s.sensor k).st == .fault) then none else waits k s
      body := fun _ t r s => body k t r s } (ownFirst (senseFirst k) s))

def senseWaits (i : SensorId) (s : State) : Option Func := waitsFor (sensorFunc i) s

/-- A sensor in OFF that stays there is cold again, unless another SENSE.SET awaits it (R192, R247; DEDUCED, log
entry 77). -/
def coolSensor (i : SensorId) (s : State) : State :=
  if (s.sensor i).st = .off ∧ awaited i s = false then s.modSensor i (fun x => { x with warm := false, warmAt := none }) else s

/-- SENSE.SET s, wa (R239, R263): OFF or READY to READY. -/
def execSenseSet (c : CoreId) (f : UForm) (s : State) : Out :=
  senseInstr c (.senseSet c f) f [f.rd, f.rb] 0 true false senseSetWaits (fun i _ r s =>
    inStates (s.sensor i).st [.off, .ready] s
      (let (ws, bad, s) := readBlock (r.rd f.ra).toNat 2 s
       let w0 := wordAt ws 0
       let w1 := wordAt ws 1
       let x : Ans :=
         if bad then .status stEcc (coolSensor i s) 2
         else if !(if inertial i then inertialSetOk i w0 w1 else xfeSetOk w0 w1) then .status stRange (coolSensor i s) 2
         else .ok (s.modSensor i (fun x => { x with st := .ready, set0 := w0, set1 := w1 })) 2
       { x with banks := sramBank ((r.rd f.ra).toNat + 4) })) s

/-- SENSE.START s (R245, R265): the first sample falls at the first instant at least one period later. -/
def execSenseStart (c : CoreId) (f : UForm) (s : State) : Out :=
  senseInstr c (.senseStart c f) f [f.rd, f.ra, f.rb] 0 false false senseWaits (fun i _ _ s =>
    let x := s.sensor i
    let p := periodOf i x
    inStates x.st [.ready] s (.ok (s.setSensor i { x with
      st := .run, next := some ((s.time.hive + p + p - 1) / p), settle := settleCount i x
      dcFirst := !inertial i && !x.voltage, dcUntil := 0, ovl := 0, conv := none, taken := none }))) s

/-- SENSE.STOP s (R245, R256, R268): instants end at once. -/
def execSenseStop (c : CoreId) (f : UForm) (s : State) : Out :=
  senseInstr c (.senseStop c f) f [f.rd, f.ra, f.rb] 0 false false senseWaits (fun i _ _ s =>
    inStates (s.sensor i).st [.run, .held] s
      (.ok ((abortTest' i s).modSensor i (fun x => { x with st := .ready, next := none, tone := clearTone x.tone })))) s

/-- SENSE.HOLD s, wa (R250, R252, R253, R267): out of service, with self-test when wa[0] is 1. -/
def execSenseHold (c : CoreId) (f : UForm) (s : State) : Out :=
  senseInstr c (.senseHold c f) f [f.rd, f.rb] 0 false false senseWaits (fun i _ r s =>
    let x := s.sensor i
    let test := bitOf (r.rd f.ra) 0
    inStates x.st [.ready, .run] s
      (if !zeroBits (r.rd f.ra) 31 1 then .status stRange s
       else
        let ms := if i.val < 2 then 12 else if i = 2 then 40 else 20
        let y := { x with st := .held, before := x.st, holdInc := true, tone := abandonTone x.tone }
        let y := if test then { y with
          test := some (s.time.hive + msTicks ms), stpass := 0, stabort := false, stdone := false } else y
        { st := if test then stPending else stOk, s := s.setSensor i y })) s

/-- SENSE.RETURN s (R252, R256): back to the state before SENSE.HOLD; after an abort, own conversions wait 2 ms. -/
def execSenseReturn (c : CoreId) (f : UForm) (s : State) : Out :=
  senseInstr c (.senseReturn c f) f [f.rd, f.ra, f.rb] 0 false false senseWaits (fun i _ _ s =>
    let aborted := (s.sensor i).test.isSome
    inStates (s.sensor i).st [.held] s
      (.ok ((abortTest' i s).modSensor i (fun x => { x with
        st := x.before, retInc := true, recover := if aborted then s.time.hive + msTicks 2 else x.recover
        tone := { x.tone with notBefore := max x.tone.notBefore (s.time.hive + 1) } })))) s

/-- SENSE.OFF s (R246, R530): READY to OFF; a sensor in FAULT is powered down and stays in FAULT. -/
def execSenseOff (c : CoreId) (f : UForm) (s : State) : Out :=
  senseInstr c (.senseOff c f) f [f.rd, f.ra, f.rb] 0 false true senseWaits (fun i _ _ s =>
    inStates (s.sensor i).st [.ready, .fault] s
      (.ok (s.modSensor i (fun x => { x with
        st := if x.st = .fault then .fault else .off, next := none, warm := false, warmAt := none
        tone := clearTone x.tone })))) s

/-! ## Status windows (Tables 8.5 and 9.7, R302, R308) -/

/-- Calibration slots and the proposal in a sensor's window. -/
def slotWindow (x : Sensor) (off : Nat) : Word :=
  if 0x400 ≤ off ∧ off < 0x800 then
    let k := (off - 0x400) / 0x80
    let o := (off - 0x400) % 0x80
    match vgetD x.slots k none with
    | some ws => if o < 0x58 then wordAt ws (o / 4) else if o = 0x58 then 1 else 0
    | none => 0
  else if 0x800 ≤ off ∧ off ≤ 0x854 then
    (match x.proposal with | some ws => wordAt ws ((off - 0x800) / 4) | none => 0)
  else if off = 0x858 then toWord (bit01 x.proposal.isSome)
  else 0

def sensorWindow (i : SensorId) (x : Sensor) (off : Nat) : Word :=
  let st := x.tone
  let flags := bit01 st.fOpen.on + put (bit01 st.fShort.on) 1 + put (bit01 st.fLeak.on) 2 + put (bit01 st.fDrift.on) 3
  if off = 0 then
    (if inertial i then
      toWord (x.st.num + put (bit01 x.test.isSome) 3 + put (bit01 x.covering) 4 + put (bit01 x.plausBad) 5)
     else
      toWord (x.st.num + put (bit01 x.test.isSome) 3 + put (bit01 (st.tper != 0)) 4 + put (bit01 st.meas.isSome) 5 +
        put flags 6))
  else if off = 4 then x.set0
  else if off = 8 then x.set1
  else if 0x10 ≤ off ∧ off ≤ 0x1C then wordAt x.last ((off - 0x10) / 4)
  else if off = 0x20 then
    toWord (x.stpass.toNat + put (bit01 x.stabort) 3 + put (bit01 x.stdone) 4 + put x.stcount.toNat 16)
  else if off = 0x24 then b16 x.dx x.dy
  else if off = 0x28 then toWord x.dz.toNat
  else if off = 0x2C then toWord x.nplaus.toNat
  else if off = 0x30 then b16 x.ncov x.nempty
  else if off = 0x34 then x.nsamp
  else if off = 0x40 then toWord st.tper
  else if off = 0x44 then toWord st.cmeas.toNat
  else if off = 0x48 then st.gmeas
  else if off = 0x4C then st.gain
  else if off = 0x50 then toWord st.mtime
  else if off = 0x54 then toWord (st.mtime / 2 ^ 32)
  else if off = 0x58 then b16 st.ncheck st.ninval
  else if off = 0x5C then toWord st.nabort.toNat
  else slotWindow x off

end Sys2Proof.Machine
end

