-- ==== Sys2Proof/Machine/Front.lean ====
section
/-!
DEFINITION. Sys2Proof/Machine/Front.lean: TONE, the AOUT instructions, and the analogue balls (sections
9.1, 9.4 and 9.6).
-/
namespace Sys2Proof.Machine

/-- TONE e, wa (R268, R269, R274). -/
def execTone (c : CoreId) (f : UForm) (s : State) : Out :=
  senseInstr c (.tone c f) f [f.rd, f.rb] 3 false false senseWaits (fun i t r s =>
    let k := (r.rd f.ra).toNat
    inStates (s.sensor i).st [.run] s
      (if 9 < k then .status stRange s
       else if k = 0 then .ok (s.modSensor i (fun x => { x with tone := clearTone x.tone }))
       else .ok (s.modSensor i (fun x => { x with
        tone := { x.tone with owner := t, tper := k, notBefore := s.time.hive + 192000 } })))) s

/-! ## AOUT instructions (R278 to R283) -/

/-- What every AOUT instruction shares; a force of its clock comes first, a watch before a timeout (R95, R283). -/
def aoutInstr (c : CoreId) (i : Instr) (f : UForm) (unused : List (BitVec 4)) (blk : Bool)
    (body : Fin 4 → Tid → Regs → State → Ans) (s : State) : Out :=
  let a := UForm.num 4 f
  .next (specInstr c i
    { o2 := fun t r _ => unitOk 4 f unused && (!blk || blockOk t (r.rd f.ra).toNat 2)
      o3 := fun t r s => s.may t (capAout f.inst.toNat) && (!blk || blockMay s t (r.rd f.ra).toNat 2)
      failed := fun _ _ s => s.hasFailed .aout || (s.aout a).st == .fault
      waits := fun _ _ s => waitsFor .aout s
      body := fun _ t r s => body a t r s } (ownFirst (aoutFirst a) (ownFirst watchFirst s)))

/-- AOUT.SET a, wa (R278). -/
def execAoutSet (c : CoreId) (f : UForm) (s : State) : Out :=
  aoutInstr c (.aoutSet c f) f [f.rd, f.rb] true (fun a _ r s =>
    inStates (s.aout a).st [.off, .ready] s (withBlock (r.rd f.ra).toNat 2 s (fun ws s =>
      let w0 := wordAt ws 0
      let w1 := wordAt ws 1
      if fieldOf w0 23 12 < fieldOf w0 11 0 ∨ zeroBits w0 31 29 = false ∨ zeroBits w1 31 9 = false then
        .status stRange s 2
      else .ok (s.setAout a { s.aout a with st := .ready, band := false, set0 := w0, set1 := w1 }) 2))) s

/-- AOUT.START a (R279, R282). -/
def execAoutStart (c : CoreId) (f : UForm) (s : State) : Out :=
  aoutInstr c (.aoutStart c f) f [f.rd, f.ra, f.rb] false (fun a _ _ s =>
    inStates (s.aout a).st [.ready] s (.ok (s.setAout a { s.aout a with
      st := .run, outs := [], since := s.time.hive, cause := 0 }))) s

/-- A code written in a clock reaches the output stage two clocks later (R280); codes that it and later ones have
displaced are forgotten. -/
def reach (clk : Nat) (n : BitVec 12) (outs : List (Nat × BitVec 12)) : List (Nat × BitVec 12) :=
  (clk + 2, n) :: (outs.filter (fun o => decide (clk < o.1)) ++ (outs.find? (fun o => decide (o.1 ≤ clk))).toList)

/-- AOUT.WRITE a, wa (R280, R282). -/
def execAoutWrite (c : CoreId) (f : UForm) (s : State) : Out :=
  aoutInstr c (.aoutWrite c f) f [f.rd, f.rb] false (fun a _ r s =>
    let x := s.aout a
    let n := (r.rd f.ra).toNat
    inStates x.st [.run] s
      (if 4096 ≤ n then .status stRange s
       else
        let k := max x.cliplo (min x.cliphi n)
        .ok (s.setAout a { x with
          code := BitVec.ofNat 12 k, outs := reach s.time.clk (BitVec.ofNat 12 k) x.outs, clipped := k != n, wtime := s.time.hive, since := s.time.hive
          nclip := if k = n then x.nclip else satInc x.nclip }))) s

/-- AOUT.DIAG a, wa (R279, R283); bits wa[31:1] are ignored (DEDUCED, log entry 88). -/
def execAoutDiag (c : CoreId) (f : UForm) (s : State) : Out :=
  aoutInstr c (.aoutDiag c f) f [f.rd, f.rb] false (fun a _ r s =>
    inStates (s.aout a).st [.ready, .run, .held] s (.ok (s.setAout a { s.aout a with
      st := .held, band := bitOf (r.rd f.ra) 0, cause := 1 }))) s

/-- AOUT.RELEASE a (R279, R281, R282). -/
def execAoutRelease (c : CoreId) (f : UForm) (s : State) : Out :=
  aoutInstr c (.aoutRelease c f) f [f.rd, f.ra, f.rb] false (fun a _ _ s =>
    inStates (s.aout a).st [.held] s (.ok (s.setAout a { s.aout a with
      st := .run, outs := [], since := s.time.hive, cause := 0 }))) s

/-- AOUT.STOP a (R279): the low band. -/
def execAoutStop (c : CoreId) (f : UForm) (s : State) : Out :=
  aoutInstr c (.aoutStop c f) f [f.rd, f.ra, f.rb] false (fun a _ _ s =>
    inStates (s.aout a).st [.run, .held] s (.ok (s.setAout a { s.aout a with
      st := .ready, band := false, cause := 0 }))) s

/-- VAOUT_CHANGE: the supply VAOUT has a new value in millivolts; VLOW follows it, and no state changes (R284). -/
def execVaoutChange (mv : Nat) (s : State) : Out := .next { s with vaout := mv }

/-! ## Balls (sections 9.1 and 9.6, Table 18.4) -/

/-- What the device does at an analogue ball. -/
inductive Analog where
  /-- high impedance -/
  | open
  /-- pulled to VSSA through 200 kΩ -/
  | pulled
  /-- driven at so many millivolts -/
  | volts (mv : Rat)
  /-- an input of a pair held at XFE_CM by the charge amplifier, true with the test tone on it -/
  | held (tone : Bool)
  /-- an input of a pair tied to XFE_CM through 1 MΩ, true with the test tone on it -/
  | tied (tone : Bool)
  /-- driven to the mean of AINP_n and AINN_n -/
  | pairMean
  deriving DecidableEq, Repr

/-- What an output stage gives (R276, R279). -/
inductive AoutDrive where
  /-- stage off, pulled to VSSA -/
  | off
  /-- a diagnostic band, true for high -/
  | band (high : Bool)
  /-- a code -/
  | code (n : BitVec 12)
  deriving DecidableEq, Repr

/-- The code at the output stage in a clock: the newest that has reached it (R280). -/
def Aout.atStage (x : Aout) (clk : Nat) : Option (BitVec 12) := (x.outs.find? (fun o => decide (o.1 ≤ clk))).map (·.2)

/-- The drive of an output in each state (R279), with step 4 of the orderly stop (Table 7.5). -/
def Aout.drive (x : Aout) (clk : Nat) : AoutDrive :=
  match x.st with
  | .off => .off
  | .fault => .off
  | .ready => .band false
  | .run => if x.low then .band false else match x.atStage clk with | some n => .code n | none => .band false
  | .held => if x.low then .band false else .band x.band

/-- The voltage of a drive at a VAOUT in millivolts (R276). -/
def AoutDrive.analog (mv : Nat) : AoutDrive → Analog
  | .off => .pulled
  | .band false => .volts (mv * 2 / 100)
  | .band true => .volts (mv * 98 / 100)
  | .code n => .volts (mv * (5 / 100 + 90 / 100 * n.toNat / 4095))

/-- VAOUT is within its range (Table 17.2). -/
def vaoutOn (s : State) : Bool := decide (3000 ≤ s.vaout) && decide (s.vaout ≤ 5500)

/-- An AOUT ball: while group 10 is held the clamp drives the low band, and floats without VAOUT; released, the output
stage drives it (R214 to R216, R276, R279; log entry 116). No ball is driven with VAON below 0.60 V (R486). -/
def aoutBall (s : State) (a : Fin 4) : Analog :=
  if s.vaon < 600 then .open
  else if s.sleep.holds.getLsbD 10 then
    (if vaoutOn s then (AoutDrive.band false).analog s.vaout else .open)
  else if s.domOn .aout then ((s.aout a).drive s.time.clk).analog s.vaout
  else .pulled

/-- EXT_n has its bias and shield drive: it is not in OFF, and the device runs with XFE powered. -/
def extOn (s : State) (n : Fin 8) : Bool :=
  decide (600 ≤ s.vaon) && s.running && s.domOn .xfe && (s.sensor (extOf n)).st != .off

/-- XFE_CM, or XFE_REF: 0.900 V or 1.200 V while any channel is on (R261). -/
def xfeBall (s : State) (ref : Bool) : Analog :=
  if (allIx 8).any (extOn s) then .volts (if ref then 1200 else 900) else .open

/-- AINP_n, or AINN_n: the bias and, on AINP_n within a measurement, the test tone; a self-test disconnects the pair
(R260, R267, R270). -/
def ainBall (s : State) (n : Fin 8) (p : Bool) : Analog :=
  let x := s.sensor (extOf n)
  if extOn s n = false ∨ x.test.isSome = true then .open
  else if x.voltage then .tied (p && x.tone.meas.isSome && x.tone.within s.time.hive)
  else .held (p && x.tone.meas.isSome && x.tone.within s.time.hive)

/-- SHLD_n (R262). -/
def shldBall (s : State) (n : Fin 8) : Analog :=
  if extOn s n = false then .open
  else if bitOf (s.sensor (extOf n)).set0 12 then .pairMean else xfeBall s false

/-- The status window of an output (Table 9.9). -/
def aoutWindow (s : State) (x : Aout) (off : Nat) : Word :=
  match off with
  | 0x00 => toWord (x.st.num +
      put (bit01 (match x.drive s.time.clk with | .band b => b | _ => false)) 3 + put x.cause.toNat 4 +
      put (bit01 (decide (s.vaout < 2700))) 7)
  | 0x04 => x.set0
  | 0x08 => x.set1
  | 0x0C => toWord (x.code.toNat + put (bit01 x.clipped) 12)
  | 0x10 => toWord x.wtime
  | 0x14 => toWord (x.wtime / 2 ^ 32)
  | 0x18 => b16 x.nclip x.nforce
  | _ => 0

end Sys2Proof.Machine
end

