-- ==== Sys2Proof/Machine/Ports.lean ====
section
/-!
DEFINITION. Sys2Proof/Machine/Ports.lean: the serial ports (spec/13_serial_ports.md): settings, masters in RAW mode,
RAW slaves, multi-master detection and the parts that chains share. Masters count half-periods of SCK in system clocks.
-/
namespace Sys2Proof.Machine

/-! ## Settings (Table 13.2) -/

def Port.w (x : Port) (i : Nat) : Word := wordAt x.set i
def Port.slave (x : Port) : Bool := bitOf (x.w 0) 0
def Port.mode (x : Port) : Nat := fieldOf (x.w 0) 2 1
def Port.cpol (x : Port) : Bool := bitOf (x.w 0) 3
def Port.headFrm (x : Port) : Bool := bitOf (x.w 0) 5
def Port.mmd (x : Port) : Bool := bitOf (x.w 0) 6
def Port.txq (x : Port) : QueueId := finOf 64 (fieldOf (x.w 0) 13 8)
def Port.txen (x : Port) : Bool := bitOf (x.w 0) 14
def Port.rxq (x : Port) : QueueId := finOf 64 (fieldOf (x.w 0) 20 15)
def Port.rxen (x : Port) : Bool := bitOf (x.w 0) 21
def Port.div (x : Port) (l : BitVec 2) : Nat := fieldOf (x.w 1) (8 * l.toNat + 7) (8 * l.toNat)
def Port.cw (x : Port) : Nat := fieldOf (x.w 2) 4 0
def Port.cl (x : Port) : Nat := fieldOf (x.w 2) 6 5
def Port.cd (x : Port) : Bool := bitOf (x.w 2) 7
def Port.aw (x : Port) : Nat := fieldOf (x.w 2) 13 8
def Port.al (x : Port) : Nat := fieldOf (x.w 2) 15 14
def Port.ad (x : Port) : Bool := bitOf (x.w 2) 16
def Port.dc (x : Port) : Nat := fieldOf (x.w 2) 21 17
def Port.dl (x : Port) : Nat := fieldOf (x.w 2) 23 22
def Port.dd (x : Port) : Bool := bitOf (x.w 2) 24
def Port.pos (x : Port) : Nat := fieldOf (x.w 3) 5 0
def Port.segw (x : Port) : Nat := fieldOf (x.w 3) 10 6

/-- The packet decoder owns PORT_0 in tethered flight (R36, HOSTDEC); in test mode no packet is decoded (R510). -/
def hostOwns (s : State) (p : PortId) : Bool := p == 0 && !s.boot.mode && !s.boot.testEn

/-- Lowest divider of a limit at each level (Table 13.3). -/
def minDiv (p : PortId) (ddr : Bool) (l : Nat) : Nat :=
  if p = 2 then [2, 2, 4, 8].getD l 8
  else if ddr then [2, 2, 3, 5].getD l 5
  else [2, 2, 2, 4].getD l 4

/-- The settings meet R355. -/
def portSetOk (p : PortId) (ws : Words) : Bool :=
  let x : Port := { Port.reset with set := ws }
  let w0 := wordAt ws 0
  let w2 := wordAt ws 2
  let raw := x.mode == 0
  let cddr := x.cd && x.cw != 0
  let addr := x.ad && x.aw != 0
  let anyD := cddr || addr || x.dd
  zeroBits w0 31 26 && x.mode != 3 && x.cw ≤ 16 && x.aw ≤ 32 && zeroBits w2 31 25 && zeroBits (x.w 3) 31 11 &&
  x.segw ≤ 16 && (p != 1 || !x.slave) && (p == 2 || raw) && (p != 2 || (x.cl == 0 && x.al == 0 && x.dl == 0)) &&
  (p != 2 || !anyD) && !(anyD && bitOf w0 4) &&
  (if x.slave then x.w 1 == 0 && x.cw == 0 && x.aw == 0 && x.dc == 0 && x.dl == 0
   else [0, 1, 2, 3].all (fun l =>
     let d := x.div (BitVec.ofNat 2 l)
     decide (2 ≤ d) && decide (minDiv p anyD l ≤ d))) &&
  (x.headFrm || (x.cw == 0 && x.aw == 0)) &&
  (if raw then x.w 3 == 0 else x.pos != 0 && x.segw != 0 && w2 == 0)

/-! ## Events (R385, Table 13.9) -/

def portArg (kind : Nat) (st : BitVec 8) (bits : Nat) (part pois gaps : Bool) (brk : Nat) : Word :=
  toWord (st.toNat + put bits 8 + put (bit01 part) 13 + put (bit01 pois) 14 + put (bit01 gaps) 15 + put brk 16 + put kind 28)

/-- A port event: LASTARG always, the event when EVM enables its KIND, in the next clock with this one's stamp (R385). -/
def portEvent (p : PortId) (kind : Nat) (arg : Word) (s : State) : State :=
  let s := s.modPort p (fun x => { x with lastarg := arg })
  if bitOf ((s.port p).w 0) (21 + kind) then s.eventOf (0x78 + p.val) arg else s

/-! ## The link side -/

/-- A port whose link side is at rest; words received and not yet written stay (R364, R368). -/
def Port.cleared (x : Port) : Port :=
  { x with inframe := false, mframe := none, held := none, sframe := none, txf := [], txb := [], stage := [], loaded := 0 }

/-! ## Words received and sent -/

def rxTag (head part gap fin : Bool) : BitVec 4 :=
  BitVec.ofNat 4 (bit01 head + put (bit01 part) 1 + put (bit01 gap) 2 + put (bit01 fin) 3)

/-- RXQ is the port's own to fill: it names it as its producer (R338, R356). -/
def rxOurs (s : State) (p : PortId) : Bool :=
  let r := s.queue (s.port p).rxq
  (s.port p).rxen && r.st != .off && r.prod == 3 && r.pinst == p.val

/-- TXQ is the port's own to drain. -/
def txOurs (s : State) (p : PortId) : Bool :=
  let t := s.queue (s.port p).txq
  (s.port p).txen && t.st != .off && t.cons == 1 && t.cinst == p.val

/-- A word to RXQ with its tags (R346, R348); none leaves a port without an RXQ of its own. -/
def deliver (p : PortId) (w : Word) (tag : BitVec 4) (s : State) : State :=
  if rxOurs s p then writeItem (s.port p).rxq [⟨w, tag, 0⟩] s else s

/-- The first `n` bits of a word on the line as a number (R357, R369). -/
def firstBits (w : Word) (n : Nat) : Word :=
  toWord (leNat (wordBytes w).reverse / 2 ^ (32 - n))

/-- The next word of TXQ, if its drain bank holds one for the port (R364). -/
def nextTx (s : State) (p : PortId) : Option QSlot :=
  let q := s.queue (s.port p).txq
  if txOurs s p = true ∧ q.st = .run then q.drain.head? else none

/-- A word taken from TXQ and whether it is poisoned (R349, R366). -/
def takeTx (p : PortId) (s : State) : Option (QSlot × Bool) × State :=
  if (nextTx s p).isNone then (none, s)
  else match takeWord (s.port p).txq s with
    | (none, s) => (none, s)
    | (some d, s) => (some (d, decide (2 ≤ d.err)), s)

/-! ## Bits on the line (R354, R357, R358) -/

/-- The low `n` bits of a number, the most significant first. -/
def msbBits (n v : Nat) : List Bool := (List.range n).map (fun i => v.testBit (n - 1 - i))

/-- The bits of data words in the order of the line: bytes ascending, each most significant bit first. -/
def lineBits' (ws : Words) : List Bool := (bytesOfWords ws).flatMap (fun b => msbBits 8 b.toNat)

/-- The bits of a segment: its words, then its marker (R377). -/
def segLine (ws : Words) (mark : BitVec 16) : List Bool := lineBits' ws ++ msbBits 16 mark.toNat

/-- What beat `k` of a phase puts on D_n: D_(L-1) carries the first of the beat's L bits. -/
def beatBit (lanes : Nat) (bits : List Bool) (k n : Nat) : Option Bool :=
  if n < 2 ^ lanes then bits[k * 2 ^ lanes + (2 ^ lanes - 1 - n)]? else none

/-- SCK periods of a phase of `bits` bits (R358). -/
def phasePeriods (bits lanes : Nat) (ddr : Bool) : Nat :=
  let beats := (bits + 2 ^ lanes - 1) / 2 ^ lanes
  if ddr then (beats + 1) / 2 else beats

/-! ## Masters in RAW mode (section 13.4) -/

/-- System clocks of one half-period of SCK at the level in force: with DIV odd SCK is high for the shorter one (section
13.2). -/
def halfClks (s : State) (x : Port) (first : Bool) : Nat :=
  let d := x.div s.level.cur
  if first != x.cpol then d / 2 else d - d / 2

/-- Physical instant two SCK periods from now (R363). -/
def twoPeriods (s : State) (x : Port) : Nat := s.time.phys + 2 * x.div s.level.cur * s.inc

/-- Words received that RXQ has not yet taken (R364). -/
def unwritten (x : Port) (m : MFrame) : Nat := x.rxf.length + (if m.newest.isSome then 1 else 0)

/-- The next data word of the frame may begin (R364). -/
def wordReady (s : State) (p : PortId) (m : MFrame) : Bool :=
  let x := s.port p
  let r := s.queue x.rxq
  (!m.send || (nextTx s p).isSome) && (!m.recv || (rxOurs s p && r.st == .run && decide (unwritten x m < r.cred)))

/-- Bytes of the next data word. -/
def MFrame.nextBytes (m : MFrame) : Nat := if m.words = 1 then m.lastBytes else 4

/-- Bytes of the data word on the line. -/
def MFrame.curBytes (m : MFrame) : Nat := if m.words = 0 then m.lastBytes else 4

/-- A stage of a frame begins. -/
def enterStage (s : State) (x : Port) (st : FStage) (n : Nat) (m : MFrame) : MFrame :=
  { m with stage := st, left := n, total := n, clks := halfClks s x true, high := true }

/-- The next data word begins: a sent word leaves TXQ, and a 1-lane read sends ones (R361, R364, R366). -/
def beginWord (p : PortId) (m : MFrame) (s : State) : State :=
  let x := s.port p
  let nb := m.nextBytes
  let m := { enterStage s x .word (2 * phasePeriods (8 * nb) x.dl x.dd) m with words := m.words - 1 }
  if m.send then
    match takeTx p s with
    | (some (d, bad), s) =>
      s.modPort p (fun x => { x with
        npois := if bad then satInc x.npois else x.npois
        sent := x.sent ++ (wordBytes d.w).take nb
        mframe := some { m with cur := d.w, cont := d.tag.getLsbD 0, pois := m.pois || bad } })
    | (none, s) => s
  else s.modPort p (fun x => { x with
    sent := if x.dl = 0 then x.sent ++ List.replicate nb 0xFF else x.sent, mframe := some m })

/-- A stage has ended: the next one before the data, the next word, a pause, or the tail (R363, R364). -/
def nextStage (p : PortId) (m : MFrame) (s : State) : State :=
  let x := s.port p
  match m.rest with
  | (st, n) :: r => s.setPort p { x with mframe := some { enterStage s x st n m with rest := r } }
  | [] =>
    if m.words = 0 then
      s.setPort p { x with mframe := some { m with
        stage := .tail, left := 1, total := 1, clks := halfClks s x false, high := false } }
    else if wordReady s p m then beginWord p m s
    else s.setPort p { x with npause := satInc x.npause, mframe := some { m with stage := .paused } }

/-- What an undriven data input reads (section 18.4): PORT_2's SDI has a pull-up, D_n pull-downs. -/
def idleLine (p : PortId) : Word := if p = 2 then 0xFFFFFFFF else 0

/-- The word that a master held back, which is or is not its frame's last, joins those to be written (R365, R369). -/
def pushNewest (fin : Bool) (m : MFrame) (x : Port) : Port :=
  match m.newest with
  | some (w, first) => { x with rxf := x.rxf ++ [(w, rxTag first false false fin)] }
  | none => x

/-- What a master has received goes to RXQ as credit allows; it drops none (R364). -/
def masterFlush (p : PortId) : Nat → State → State
  | 0, s => s
  | n + 1, s =>
    let r := s.queue (s.port p).rxq
    match (s.port p).rxf with
    | [] => s
    | (w, tag) :: rest =>
      if rxOurs s p = true ∧ r.st = .run ∧ r.cred ≠ 0 then
        masterFlush p n (deliver p w tag (s.modPort p (fun x => { x with rxf := rest })))
      else s

/-- A data word ends: a received word joins what the port holds for RXQ (R360, R361, R365). -/
def wordDone (p : PortId) (m : MFrame) (s : State) : State :=
  let w := toWord ((m.line.headD (idleLine p)).toNat % 2 ^ (8 * m.curBytes))
  let fin := m.words == 0
  let m' := { m with line := m.line.tail, first := false, newest := if m.recv && !fin then some (w, m.first) else none }
  let take (x : Port) : Port :=
    if m.recv then
      let x := pushNewest false m x
      if fin then pushNewest true { m with newest := some (w, m.first) } x else x
    else x
  nextStage p m' (s.modPort p (fun x => { take x with mframe := some m' }))

/-- One system clock of a master's frame or sweep. -/
def frameClock (p : PortId) (s : State) : State :=
  let x := s.port p
  match x.mframe with
  | none => s
  | some m =>
    if m.stage = .paused ∨ m.stage = .done then s
    else if 1 < m.clks then s.setPort p { x with mframe := some { m with clks := m.clks - 1 } }
    else if 1 < m.left then
      s.setPort p { x with mframe := some { m with left := m.left - 1, high := !m.high, clks := halfClks s x (!m.high) } }
    else match m.stage with
      | .word => wordDone p m s
      | .tail => s.setPort p { x with mframe := some { m with stage := .done } }
      | _ => nextStage p m s

/-- One system clock of a master: its frame, and the words it holds for RXQ. -/
def masterClock (p : PortId) (s : State) : State :=
  if (s.port p).slave then s
  else
    let s := frameClock p s
    masterFlush p (s.port p).rxf.length s

/-- A HEAD word that may start a frame (R361). -/
def headOk (p : PortId) (d : QSlot) : Bool :=
  d.tag.getLsbD 1 && fieldOf d.w 28 16 ≤ 4096 && (p == 1 || zeroBits d.w 31 30)

/-- Words that may not start a frame are discarded and counted (R361, R362). -/
def skipHeads : Nat → PortId → State → State
  | 0, _, s => s
  | n + 1, p, s =>
    match nextTx s p with
    | none => s
    | some d =>
      if headOk p d then s
      else skipHeads n p ((takeTx p s).2.modPort p (fun x => { x with nskip := satInc x.nskip }))

/-- A frame begins with its select asserted, one SCK period before the first edge; one that CONT holds goes on with its
phases (R363). `bad` poisoned words have been taken for it (R366). -/
def beginFrame (p : PortId) (m : MFrame) (phases : List (FStage × Nat)) (bad : Nat) (s : State) : State :=
  let x := s.port p
  let lead := if x.held.isSome then [] else [(FStage.lead, 2)]
  let m := { m with rest := lead ++ phases.filter (fun q => q.2 != 0), pois := bad != 0 }
  nextStage p m (s.setPort p { x with inframe := true, held := none, sent := [], npois := satAdd x.npois bad })

/-- A frame before it begins. -/
def MFrame.idle : MFrame :=
  { stage := .lead, cs := 0, left := 0, total := 0, clks := 0, high := true, rest := [], words := 0, lastBytes := 4
    send := false, recv := false, first := true, cont := false, pois := false, newest := none, cmd := 0, addr := 0
    cur := 0, line := [] }

/-- A HEAD-framed frame starts when its HEAD word, and its address word when AW is nonzero, are there (R361, R364). -/
def startHead (p : PortId) (rx : Words) (s : State) : State :=
  let x := s.port p
  match nextTx s p with
  | none => s
  | some d =>
    let cs := fieldOf d.w 31 30
    if x.aw ≠ 0 ∧ (s.queue x.txq).drain.length < 2 then s
    else if x.held.isSome = true ∧ x.held ≠ some cs then
      s.setPort p { x with held := none, inframe := false, freeAt := twoPeriods s x }
    else if x.held = none ∧ s.time.phys < x.freeAt then s
    else
      let (h, s) := takeTx p s
      let (a, s) := if x.aw ≠ 0 then takeTx p s else (none, s)
      let poison (o : Option (QSlot × Bool)) : Nat := match o with | some (_, b) => bit01 b | none => 0
      let last := match a with | some (w, _) => w | none => d
      let dlen := fieldOf d.w 28 16
      let rd := bitOf d.w 29
      let m := { MFrame.idle with
        cs := cs, words := (dlen + 3) / 4, lastBytes := if dlen % 4 = 0 then 4 else dlen % 4
        send := !rd, recv := rd && x.rxen, cont := last.tag.getLsbD 0
        cmd := BitVec.ofNat 16 (d.w.toNat % 2 ^ x.cw)
        addr := toWord ((match a with | some (w, _) => w.w | none => 0).toNat % 2 ^ x.aw), line := rx }
      beginFrame p m [(.cmd, 2 * phasePeriods x.cw x.cl x.cd), (.addr, 2 * phasePeriods x.aw x.al x.ad),
        (.dummy, 2 * x.dc)] (poison h + poison a) s

/-- A WORD-framed frame: one TXQ word (R360). -/
def startWord (p : PortId) (rx : Words) (s : State) : State :=
  let x := s.port p
  if (nextTx s p).isNone = true ∨ (x.held = none ∧ s.time.phys < x.freeAt) then s
  else
    beginFrame p { MFrame.idle with words := 1, send := true, recv := x.rxen && x.dl == 0, line := rx }
      [(.dummy, 2 * x.dc)] 0 s

/-- A master in RAW mode that runs from its queues. -/
def rawMaster (s : State) (p : PortId) : Bool :=
  let x := s.port p
  s.running && !hostOwns s p && x.st == .run && !x.slave && x.mode == 0

/-- A master starts the frame at the head of TXQ (R360 to R364). -/
def frameStart (p : PortId) (rx : Words) (s : State) : State :=
  let x := s.port p
  if rawMaster s p = false ∨ x.mframe.isSome = true then s
  else if x.headFrm then startHead p rx (skipHeads (s.queue x.txq).drain.length p s)
  else startWord p rx s

/-- MASTER_FRAME_START: a master starts the frame at the head of TXQ; `rx` is what the line will carry toward it
(R360 to R364). -/
def execMasterFrameStart (p : PortId) (rx : Words) (s : State) : Out :=
  .next (unlessEarly (.masterFrameStart p rx) (frameStart p rx) s)

/-- A paused master goes on when its word and its credit are there (R364). -/
def frameResume (p : PortId) (s : State) : State :=
  match (s.port p).mframe with
  | some m => if rawMaster s p = true ∧ m.stage = .paused ∧ wordReady s p m = true then beginWord p m s else s
  | none => s

/-- MASTER_RESUME: a paused master goes on when its word and its credit are there (R364). -/
def execMasterResume (p : PortId) (s : State) : Out := .next (unlessEarly (.masterResume p) (frameResume p) s)

/-- The frame's last half-period is over; the select is released unless CONT holds it (R363). -/
def frameEnd (p : PortId) (s : State) : State :=
  let x := s.port p
  match x.mframe with
  | some m =>
    if rawMaster s p = true ∧ m.stage = .done then
      portEvent p 1 (portArg 1 stOk 0 false m.pois false 0) (s.setPort p { x with
        mframe := none, nframe := x.nframe + 1, inframe := m.cont
        held := if m.cont then some m.cs else none
        freeAt := if m.cont then x.freeAt else twoPeriods s x })
    else s
  | none => s

/-- MASTER_FRAME_END: the frame's last half-period is over (R363). -/
def execMasterFrameEnd (p : PortId) (s : State) : Out := .next (unlessEarly (.masterFrameEnd p) (frameEnd p) s)

/-- Sampling edges that a master has passed in the stage in progress: CPHA selects the edge of a beat, LATE moves it a
half-period on, and DDR samples on each (section 13.2, R358). -/
def sampledBeats (x : Port) (m : MFrame) (ddr : Bool) : Nat :=
  let e := m.total - m.left
  if ddr then e + 1
  else (e + 2 - bit01 (bitOf (x.w 0) 4) - bit01 (bitOf (x.w 0) 7)) / 2

/-- Bits of the word on the line that a master has received. -/
def masterBits (x : Port) (m : MFrame) : Nat :=
  if m.stage = .word ∧ m.recv = true then min (8 * m.curBytes) (sampledBeats x m x.dd * 2 ^ x.dl) else 0

/-- A frame is abandoned: the bits received of an unfinished word are delivered under R369, or the last whole word ends
it. The answer has BITS. -/
def abandonFrame (p : PortId) (s : State) : Nat × State :=
  let x := s.port p
  match x.mframe with
  | none => (0, s.setPort p { x.cleared with freeAt := twoPeriods s x })
  | some m =>
    let w := m.line.headD (idleLine p)
    let bits := masterBits x m
    let whole := decide (0 < bits) && bits == 8 * m.curBytes
    let n := if whole then 0 else bits
    let x := pushNewest (bits == 0) m x
    let x := if bits = 0 then x
      else if whole then pushNewest true { m with newest := some (toWord (w.toNat % 2 ^ bits), m.first) } x
      else { x with rxf := x.rxf ++ [(firstBits w n, rxTag m.first true false true)] }
    let s := s.setPort p { x.cleared with freeAt := twoPeriods s x }
    (n, masterFlush p (s.port p).rxf.length s)

/-! ## Multi-master detection (section 13.8) -/

/-- A select that the port holds deasserted read asserted in two clocks (R384). In a frame only another CS_n of PORT_1
can be seen. -/
def mmfDetect (p : PortId) (s : State) : State :=
  let x := s.port p
  if s.running = true ∧ hostOwns s p = false ∧ x.st = .run ∧ x.slave = false ∧ x.mmd = true ∧
      (x.inframe = false ∨ p = 1) then
    let pois := match x.mframe with | some m => m.pois | none => false
    let (n, s) := abandonFrame p s
    portEvent p 4 (portArg 4 stMmf n (n != 0) pois false 0)
      (s.modPort p (fun x => { x with st := .held, mmf := true, nmmf := satInc x.nmmf }))
  else s

/-- MMF_DETECT: another master's select abandons the frame and holds the port (R384). -/
def execMmfDetect (p : PortId) (s : State) : Out := .next (unlessEarly (.mmfDetect p) (mmfDetect p) s)

/-! ## RAW slaves (section 13.5) -/

/-- The owner spool runs (OWN). -/
def ownerRuns (s : State) : Bool := s.boot.phase == .done

/-- The status byte of a RAW slave (Table 13.4). -/
def slaveStatus (s : State) (x : Port) : Byte :=
  BitVec.ofNat 8 (bit01 (!x.txf.isEmpty) + put (bit01 x.orun) 2 + put (bit01 x.urun) 3 +
    put (bit01 (ownerRuns s)) 4 + 128)

/-- The status byte of the packet decoder (Table 13.4). -/
def hostStatus (s : State) : Byte :=
  BitVec.ofNat 8 (bit01 s.host.rdy + put (bit01 s.host.busy) 1 + put (bit01 s.host.disc) 2 + put (bit01 s.host.err) 3 +
    put (bit01 (ownerRuns s)) 4 + put (bit01 s.host.urun) 5 + 128)

def rawSlave (s : State) (p : PortId) : Bool :=
  let x := s.port p
  s.running && !hostOwns s p && x.st == .run && x.slave && x.mode == 0

/-- A slave's frame starts with its status byte (R367). In tethered flight the status byte is formed, the assertion of
CS ends ALERT, and one before PORTS is ready sets DISC (R370, R376). -/
def selectAssert (p : PortId) (s : State) : State :=
  if hostOwns s p then
    if s.isReady .ports && s.running then
      { (s.modPort p (fun x => { x with inframe := true })) with
        host := { s.host with alert := false, status := some (hostStatus s) } }
    else if s.time.mode != .off then { s with host := { s.host with disc := true } }
    else s
  else if rawSlave s p = true ∧ (s.port p).inframe = false then
    s.modPort p (fun x => { x with
      inframe := true, sframe := some ⟨0, none, false, x.txf.length⟩, sent := [slaveStatus s x] })
  else s

/-- SLAVE_SELECT_ASSERT: a select is asserted (R367, R370, R376). -/
def execSlaveSelectAssert (p : PortId) (s : State) : Out :=
  .next (unlessEarly (.slaveSelectAssert p) (selectAssert p) s)

/-- The sticky bits that the frame's status byte carries are cleared at its eighth edge (section 13.5). -/
def clearSticky (x : Port) : Port :=
  let b := x.sent.headD 0
  { x with orun := x.orun && !b.getLsbD 2, urun := x.urun && !b.getLsbD 3 }

/-- A slave sends `n` bytes: the word in progress, then the transmit FIFO, then 0xFF (R367, R366). A word is fetched when
its first byte is due; one that has entered the FIFO since the last word boundary of the link came before that byte or
after it, as a free value says, `k` being its number (log entry 118). -/
def slaveSend : Nat → Nat → SFrame → Port → SFrame × Port
  | 0, _, f, x => (f, x)
  | n + 1, k, f, x =>
    match x.txb, x.txf with
    | b :: r, _ => slaveSend n (k + 1) f { x with txb := r, sent := x.sent ++ [b] }
    | [], (w, bad) :: r =>
      if 0 < f.early ∨ Config.freeBool k = true then
        slaveSend n (k + 1) { f with pois := f.pois || bad, early := f.early - 1 } { x with
          txf := r, txb := (wordBytes w).tail, sent := x.sent ++ (wordBytes w).take 1
          npois := if bad then satInc x.npois else x.npois }
      else slaveSend n (k + 1) f { x with sent := x.sent ++ [0xFF], nurun := satInc x.nurun, urun := true }
    | [], [] => slaveSend n (k + 1) f { x with sent := x.sent ++ [0xFF], nurun := satInc x.nurun, urun := true }

/-- A received word enters the receive FIFO, or is lost (R368). -/
def pushRx (w : Word) (tag : BitVec 4) (x : Port) : Port :=
  if x.rxf.length < 16 then { x with rxf := x.rxf ++ [(w, tag)] }
  else { x with norun := satInc x.norun, orun := true }

/-- The word held back, which is not the frame's last. -/
def pushHeld (f : SFrame) (x : Port) : Port :=
  match f.last with
  | some w => pushRx w (rxTag (f.got == 1) false false false) x
  | none => x

/-- The word held back ends its frame (R369). -/
def pushLast (f : SFrame) (x : Port) : Port :=
  match f.last with
  | some w => pushRx w (rxTag (f.got == 1) false false true) x
  | none => x

/-- A slave has received a whole word and sent four bytes (R367, R368). -/
def slaveWord (p : PortId) (w : Word) (s : State) : State :=
  let x := s.port p
  match x.sframe with
  | some f =>
    if rawSlave s p then
      let x := if f.got = 0 then clearSticky x else x
      let (f, x) := slaveSend (if f.got = 0 then 3 else 4) s.free f x
      let y := { (pushHeld f x) with
        sframe := some { f with got := f.got + 1, last := some w, early := x.txf.length } }
      { s.setPort p y with free := s.free + 4 }
    else s
  | none => s

/-- SLAVE_WORD: a slave hands a received word over (R353, R367, R368). -/
def execSlaveWord (p : PortId) (w : Word) (s : State) : Out := .next (unlessEarly (.slaveWord p w) (slaveWord p w) s)

/-- A slave's frame ends; `bits` bits of an unfinished word, first bit most significant in `w`, go out as a PART word
(R369). What is left of a transmit word in progress is kept or dropped as a free value says, since the manual does not
(log entry 17). -/
def selectRelease (p : PortId) (bits : Nat) (w : Word) (s : State) : State :=
  let x := s.port p
  match x.sframe with
  | some f =>
    if rawSlave s p then
      let n := bits % 32
      let x := if f.got = 0 ∧ 8 ≤ n then clearSticky x else x
      let bytes := (n + 7) / 8
      let (f, x) := slaveSend (if f.got = 0 then bytes - 1 else bytes) (s.free + 1) f x
      let x := if n = 0 then pushLast f x
        else pushRx (toWord (w.toNat % 2 ^ n)) (rxTag (f.got == 0) true false true) (pushHeld f x)
      portEvent p 1 (portArg 1 stOk n (n != 0) f.pois false 0) { (s.setPort p { x with
        sframe := none, inframe := false, nframe := x.nframe + 1
        txb := if Config.freeBool s.free then x.txb else [] }) with free := s.free + 5 }
    else s
  | none => s

/-- SLAVE_SELECT_RELEASE: a select is released after `bits` bits of an unfinished word (R369). -/
def execSlaveSelectRelease (p : PortId) (bits : Nat) (w : Word) (s : State) : Out :=
  .next (unlessEarly (.slaveSelectRelease p bits w) (selectRelease p bits w) s)

/-- One clock of a slave's transmit FIFO: a word of TXQ enters it; those of a queue that is freed are never sent (R368,
section 13.5 Edges). -/
def txClock (p : PortId) (s : State) : State :=
  if rawSlave s p = false then s
  else if txOurs s p = false then s.modPort p (fun x => { x with txf := [], txb := [] })
  else if (s.port p).txf.length < 16 then
    match takeTx p s with
    | (some (d, bad), s) => s.modPort p (fun x => { x with txf := x.txf ++ [(d.w, bad)] })
    | (none, s) => s
  else s

/-- One clock of a slave's receive FIFO: a received word goes to RXQ; one that meets a freed RXQ is lost and counted
(R368, section 13.5 Edges). -/
def rxClock (p : PortId) (s : State) : State :=
  let x := s.port p
  match x.rxf with
  | [] => s
  | (w, tag) :: r =>
    if s.running = false ∨ x.slave = false then s
    else
      let y := { x with rxf := r }
      if x.rxen = true ∧ rxOurs s p = false then s.setPort p { y with norun := satInc x.norun, orun := true }
      else deliver p w tag (s.setPort p y)

/-- One clock of a slave's FIFOs. -/
def slaveClock (p : PortId) (s : State) : State := rxClock p (txClock p s)

/-! ## Chains (section 13.7): what DAISY and TETHER share -/

/-- Words a DAISY port stages ahead: two segments for a member, one sweep for a master (R378, R380). -/
def stageRoom (x : Port) : Nat := if x.slave then 2 * x.segw else x.pos * x.segw

/-- One clock of staging from TXQ in DAISY mode; words of a queue that is freed are never sent (section 13.4, Edges). -/
def stageClock (p : PortId) (s : State) : State :=
  let x := s.port p
  if s.running = false ∨ x.st ≠ .run ∨ x.mode ≠ 1 then s
  else if txOurs s p = false then s.setPort p { x with stage := x.stage.take x.loaded }
  else if x.stage.length < stageRoom x + x.loaded then
    match takeTx p s with
    | (some (d, bad), s) => s.modPort p (fun x => { x with stage := x.stage ++ [(d.w, bad, s.time.clk)] })
    | (none, s) => s
  else s

/-- One clock of a port. -/
def portClock (p : PortId) (s : State) : State := stageClock p (slaveClock p (masterClock p s))

/-- A segment's words, padded with zero to SEGW. -/
def padWords (n : Nat) (ws : Words) : Words := (ws ++ List.replicate n 0).take n

/-- The marker of a segment (R377). -/
def markerOf (pois short : Bool) (pos : Nat) : BitVec 16 :=
  BitVec.ofNat 16 (pos % 64 + put (bit01 short) 6 + put (bit01 pois) 7 + 0x5A00)

/-- A marker that belongs to a position: [15:8] is 0x5A and [5:0] the position (R379, R381). -/
def markerFor (mk : BitVec 16) (pos : Nat) : Bool := mk.toNat / 256 == 0x5A && mk.toNat % 64 == pos

/-- A capture loads the chain register from what the stage held at the edge of SEL, `d` clocks before the clock `clk`
that sees it; CAPT is the hive time of that clock (R378). The stage keeps the words until SCK has moved them (R379). -/
def captureStage (x : Port) (d clk hive : Nat) : Port :=
  let ws := (x.stage.take x.segw).takeWhile (fun w => decide (w.2.2 + d ≤ clk))
  { x with
    loaded := ws.length
    reg := padWords x.segw (ws.map (·.1))
    marks := [markerOf (ws.any (·.2.1)) (decide (ws.length < x.segw)) x.pos]
    capt := hive, inframe := true }

/-- The words that a capture has loaded leave the stage, once SCK has moved them (R379). -/
def captureSent (x : Port) : Port :=
  { x with
    stage := x.stage.drop x.loaded, loaded := 0
    npois := satAdd x.npois ((x.stage.take x.loaded).countP (·.2.1)) }

/-- Words of a valid segment with their tags: HEAD first, END last (R379). -/
def segmentItem (n : Nat) (ws : Words) : List (Word × BitVec 4) :=
  mapIdxFrom (fun i w => (w, rxTag (i == 0) false false (i + 1 == n))) 0 (padWords n ws)

/-- The words of an item delivered one by one (Table 12.2: a port's item is one word). -/
def deliverAll (p : PortId) (l : List (Word × BitVec 4)) (s : State) : State :=
  l.foldl (fun s a => deliver p a.1 a.2 s) s

/-! ## Status window (Table 13.10) -/

def portWindow (s : State) (p : PortId) (off : Nat) : Word :=
  let x := s.port p
  match off with
  | 0x00 => toWord (x.st.num + put (bit01 x.mmf) 2 + put (bit01 x.inframe) 3 +
      put (bit01 (match x.mframe with | some m => m.stage == .paused | none => false)) 4 +
      put (bit01 x.lbu) 5 + put (bit01 (hostOwns s p)) 6)
  | 0x04 => x.w 0
  | 0x08 => x.w 1
  | 0x0C => x.w 2
  | 0x10 => x.w 3
  | 0x14 => x.nframe
  | 0x18 => b16 x.nskip x.npause
  | 0x1C => b16 x.norun x.nurun
  | 0x20 => b16 x.npois x.nmmf
  | 0x24 => b16 x.nbreak x.nmark
  | 0x28 => toWord x.capt
  | 0x2C => toWord (x.capt / 2 ^ 32)
  | 0x30 => x.lastarg
  | 0x34 => b16 x.ndisc x.nerr
  | 0x38 => toWord x.nreq.toNat
  | _ => 0

/-! ## Host replies (R374, Table 13.6) -/

/-- Tags packed into words, eight a word, the first in bits [3:0]. -/
def tagWords : Nat → List Nat → Words
  | 0, _ => []
  | _, [] => []
  | n + 1, l => toWord ((l.take 8).foldr (fun t k => t % 16 + 16 * k) 0) :: tagWords n (l.drop 8)

/-- The reply to a request, from the keeper's registers after its last instruction. -/
def replyWords (q : HostReq) (r : Regs) (s : State) : Words :=
  let stat := if q.fcode = 0 then r.fl.stat.toNat else 0
  let head := toWord (stat + put (q.fcode % 16) 8 + put q.tag.toNat 16 + put q.opc.toNat 24)
  head ::
    (if q.opc = 0x30 then [if q.fcode = 0 then vget r.w q.rd else q.before, r.fl.toWord]
     else if q.opc = 0x41 then [toWord (s.queue (finOf 64 (fieldOf (wordAt q.words 0) 5 0))).cred]
     else toWord q.got.length :: q.got ++ (if q.opc = 0x40 then tagWords 32 q.tags else []))

/-- The request that the keeper executes is over: the reply is written, BUSY cleared, RDY set and ALERT raised, and the
keeper is free (R370, R374). -/
def hostEnd (s : State) : State :=
  match s.host.running with
  | none => s
  | some q =>
    let w := replyWords q (s.regs 0) s
    endInv 0 { s with host := { s.host with running := none, busy := false, rdy := true, alert := true, reply := w } }

end Sys2Proof.Machine
end

