-- ==== Sys2Proof/Machine/Lines.lean ====
section
/-!
DEFINITION. Sys2Proof/Machine/Lines.lean: the line engines (spec/14_line_engines.md). An engine command runs the
instruction at the engine's PC when that is the command's instruction, at most one in a system clock (R399).
-/
namespace Sys2Proof.Machine

/-! ## Instruction encodings (Table 14.3) -/

/-- An engine instruction. -/
inductive EOp where
  | halt
  | drive (j : Nat) (oe v : Bool)
  | driveAll (v8 : Byte)
  | sample (n : Nat)
  | shout (j : Nat) (lsbf : Bool) (tgl : Option Nat)
  | shin (j : Nat) (lsbf : Bool) (tgl : Option Nat)
  | take (ev n : Bool) (dst : Nat)
  | give (ev n : Bool) (src : Nat)
  | branch (cond j target : Nat)
  | count (k : Bool) (op imm : Nat)
  | await (cond : Nat) (t : Bool) (j : Nat)
  | stamp (op imm : Nat)
  | reserved
  deriving DecidableEq, Repr, Inhabited

/-- The instruction that a 16-bit code spells; `reserved` where a field breaks Tables 14.3 to 14.5. -/
def decodeEngine (w : Nat) : EOp :=
  let f (hi lo : Nat) : Nat := (w / 2 ^ lo) % 2 ^ (hi + 1 - lo)
  let b (i : Nat) : Bool := f i i == 1
  let keep (ok : Bool) (op : EOp) : EOp := if ok then op else .reserved
  let tgl : Option Nat := if b 6 then some (f 5 3) else none
  match f 15 12 with
  | 0 => keep (f 11 0 == 0) .halt
  | 1 => if b 11 then keep (f 10 8 == 0) (.driveAll (BitVec.ofNat 8 (f 7 0)))
         else keep (f 7 2 == 0) (.drive (f 10 8) (b 1) (b 0))
  | 2 => keep (f 11 4 == 0 && f 3 0 != 0 && f 3 0 ≤ 8) (.sample (f 3 0))
  | 3 => keep (!b 11 && f 2 0 == 0 && (b 6 || f 5 3 == 0)) (.shout (f 10 8) (b 7) tgl)
  | 4 => keep (!b 11 && f 2 0 == 0 && (b 6 || f 5 3 == 0)) (.shin (f 10 8) (b 7) tgl)
  | 5 => keep (f 11 4 == 0) (.take (b 3) (b 0) (f 2 1))
  | 6 => keep (f 11 4 == 0) (.give (b 3) (b 0) (f 2 1))
  | 7 => keep (f 11 8 ≤ 9 && (f 11 8 == 3 || f 11 8 == 4 || f 7 5 == 0)) (.branch (f 11 8) (f 7 5) (f 4 0))
  | 8 => keep (f 10 9 == 0 || f 10 9 == 3 || f 8 0 == 0) (.count (b 11) (f 10 9) (f 8 0))
  | 9 => keep (f 4 0 == 0 && f 11 9 ≤ 6 && ((1 ≤ f 11 9 && f 11 9 ≤ 4) || f 7 5 == 0) && (f 11 9 != 0 || !b 8))
      (.await (f 11 9) (b 8) (f 7 5))
  | 10 => keep (f 11 9 ≤ 5 && (f 11 9 == 2 || f 8 0 == 0)) (.stamp (f 11 9) (f 8 0))
  | _ => .reserved

/-- The pins that an instruction names lie within the maps (R393). -/
def enginePinsOk (ocnt icnt : Nat) : EOp → Bool
  | .drive j _ _ => j < ocnt
  | .driveAll v => v.toNat < 2 ^ ocnt
  | .sample n => n ≤ icnt
  | .shout j _ t => j < ocnt && (match t with | some k => k < ocnt | none => true)
  | .shin j _ t => j < icnt && (match t with | some k => k < ocnt | none => true)
  | .branch c j _ => (c != 3 && c != 4) || j < icnt
  | .await c _ j => c == 0 || 5 ≤ c || j < icnt
  | .reserved => false
  | _ => true

/-! ## Settings (Table 14.2) -/

def Engine.w (x : Engine) (i : Nat) : Word := wordAt x.load i
def Engine.timed (x : Engine) : Bool := bitOf (x.w 0) 0
def Engine.entry (x : Engine) : Nat := fieldOf (x.w 0) 5 1
def Engine.obase (x : Engine) : Nat := fieldOf (x.w 1) 5 0
def Engine.ocnt (x : Engine) : Nat := fieldOf (x.w 1) 9 6
def Engine.od (x : Engine) : Bool := bitOf (x.w 1) 10
def Engine.ibase (x : Engine) : Nat := fieldOf (x.w 1) 16 11
def Engine.icnt (x : Engine) : Nat := fieldOf (x.w 1) 20 17
def Engine.pull (x : Engine) : Nat := fieldOf (x.w 1) 22 21

/-- Instruction `i` of a load block. -/
def engineCode (ws : Words) (i : Nat) : Nat := fieldOf (wordAt ws (4 + i / 2)) (16 * (i % 2) + 15) (16 * (i % 2))

/-- The load block meets R393. -/
def engineLoadOk (ws : Words) : Bool :=
  let x : Engine := { Engine.reset with load := ws }
  zeroBits (x.w 0) 31 6 && x.obase ≤ 47 && x.ocnt ≤ 8 && x.ibase ≤ 47 && x.icnt ≤ 8 && x.pull != 3 &&
  zeroBits (x.w 1) 31 23 && zeroBits (x.w 2) 31 16 && x.w 3 == 0 &&
  fieldOf (x.w 2) 7 0 < 2 ^ x.ocnt && fieldOf (x.w 2) 15 8 < 2 ^ x.ocnt &&
  (List.range 32).all (fun i => enginePinsOk x.ocnt x.icnt (decodeEngine (engineCode ws i)))

def State.engine (s : State) (e : EngineId) : Engine := vget s.engines e
def State.setEngine (s : State) (e : EngineId) (x : Engine) : State := { s with engines := vset s.engines e x }
def State.modEngine (s : State) (e : EngineId) (f : Engine → Engine) : State := s.setEngine e (f (s.engine e))

/-! ## Events and pins (R388 to R391, R405) -/

/-- An engine event (Table 14.7a), raised in the next clock with the stamp of this one (R405). -/
def engineEvent (e : EngineId) (kind pc pin : Nat) (s : State) : State :=
  s.eventOf (0x80 + e.val) (toWord (pc + put pin 8 + put kind 28))

/-- The output pin index of an engine that maps LINE_p, if its window contains it (R388). -/
def Engine.outPin (x : Engine) (p : Nat) : Option Nat :=
  let k := (p + 48 - x.obase) % 48
  if k < x.ocnt then some k else none

/-- The ball of input pin k (R388). -/
def Engine.inBall (x : Engine) (k : Nat) : Nat := (x.ibase + k) % 48

/-- An engine drives LINE_p (R389). -/
def Engine.drives (x : Engine) (p : Nat) : Bool :=
  x.st == .run && (match x.outPin p with | some k => x.oute.getLsbD k | none => false)

/-- The lowest-numbered driver of LINE_p (R389). -/
def lineDriver (s : State) (p : Nat) : Option EngineId := (allIx 8).find? (fun e => (s.engine e).drives p)

/-- Pins for which an engine is a loser (R389). -/
def losersOf (s : State) (e : EngineId) : List Nat :=
  (List.range 48).filter (fun p =>
    (s.engine e).drives p && (match lineDriver s p with | some d => d != e | none => false))

/-- An engine's new conflicts in a clock: CONF, NCONF, CONFPIN and KIND 5 (R389, R405). -/
def settleLoser (e : EngineId) (s : State) : State :=
  let now := losersOf s e
  let x := s.engine e
  let fresh := now.filter (fun p => !x.losing.contains p)
  let s := s.setEngine e { x with
    losing := now, conf := x.conf || !fresh.isEmpty, nconf := satAdd x.nconf fresh.length
    confpin := fresh.getLastD x.confpin }
  match x.conf, fresh with
  | false, _ :: _ => engineEvent e 5 0 (fresh.getLastD 0) s
  | _, _ => s

/-- What the engines put on LINE_p: level and whether it is driven; with OD a 1 is left open (R389, R390). -/
def engineDrive (s : State) (p : Nat) : Bool × Bool :=
  match lineDriver s p with
  | none => (false, false)
  | some e =>
    let x := s.engine e
    let v := match x.outPin p with | some k => x.outv.getLsbD k | none => false
    (v, !(x.od && v))

/-- A bit of each LINE ball. -/
def lineBits (f : Nat → Bool) : BitVec 48 := BitVec.ofNat 48 (natOfBits f 48)

/-- A timed input action waits, and this clock starts with the first edge that reaches MARK (R400). -/
def noteHit (e : EngineId) (s : State) : State :=
  let x := s.engine e
  if x.wait = .timed ∧ x.hit = none ∧ x.mark ≤ s.time.hive then s.setEngine e { x with hit := some s.time.clk } else s

/-- The balls of a clock that starts: a drive set in the clock before shows, and conflicts are judged by it (R389,
R399). -/
def lineClock (s : State) : State :=
  let l := s.lines
  let s := { s with lines := { l with
    en := lineBits (fun p => (engineDrive s p).2), val := lineBits (fun p => (engineDrive s p).1)
    seen := [], seenPrev := l.seen } }
  forEach (allIx 8) noteHit (forEach (allIx 8) settleLoser s)

/-- What drives LINE_p in this clock: value, output enable and pull (R389, R390); the reset pull is down. -/
def lineBall (s : State) (p : Nat) : Bool × Bool × Nat :=
  let pull := match (allIx 8).find? (fun e =>
      let x := s.engine e
      x.st == .run && decide ((p + 48 - x.ibase) % 48 < x.icnt)) with
    | some e => (s.engine e).pull
    | none => 2
  (s.lines.val.getLsbD p, s.lines.en.getLsbD p, pull)

/-- The drives that a capture at an edge finds: those in force up to 5 ticks before it, within the output and input
delays of Table 14.7, or since the edge before it. -/
def drivesAt (c : Nat) : List LineEdge → List LineEdge
  | [] => []
  | x :: r => x :: (if c < x.phys + 5 then drivesAt c r else [])

/-- The level that the first stage captured on LINE_p `k` clocks before the present clock's, where the device itself
has driven the ball without a change for long enough (R388, R391). -/
def capturedDrive (s : State) (k p : Nat) : Option Bool :=
  match s.lines.edges.drop (2 + k) with
  | c :: r =>
    match drivesAt c.phys r with
    | x :: xs => if (x :: xs).all (fun y => y.en.getLsbD p && y.val.getLsbD p == x.val.getLsbD p) then
        some (x.val.getLsbD p) else none
    | [] => none
  | [] => none

/-- A level already seen on a ball in a clock. -/
def seenOn (l : List (Nat × Bool)) (p : Nat) : Option Bool := (l.find? (fun x => x.1 == p)).map (·.2)

/-- The level that this clock sees on LINE_p: what the device drives there, else what the clock has seen there already,
else what the board puts there (R391). -/
def levelSeen (s : State) (p : Nat) (board : Bool) : Bool :=
  (capturedDrive s 0 p).getD ((seenOn s.lines.seen p).getD board)

/-- The level that the clock before saw on LINE_p (R391). -/
def levelBefore (s : State) (p : Nat) (board : Bool) : Bool :=
  (capturedDrive s 1 p).getD ((seenOn s.lines.seenPrev p).getD board)

/-- Input pins of an engine as one byte. -/
def pinsByte (x : Engine) (f : Nat → Bool) : Byte := BitVec.ofNat 8 (natOfBits f x.icnt)

/-- The levels that an engine's input pins show in this clock; `board` holds what the board puts on them. -/
def inLevels (s : State) (e : EngineId) (board : Byte) : Byte :=
  let x := s.engine e
  pinsByte x (fun k => levelSeen s (x.inBall k) (board.getLsbD k))

/-- The levels that they showed in the clock before. -/
def inBefore (s : State) (e : EngineId) (board : Byte) : Byte :=
  let x := s.engine e
  pinsByte x (fun k => levelBefore s (x.inBall k) (board.getLsbD k))

/-- What an engine has seen in this clock is what every engine sees in it. -/
def noteSeen (e : EngineId) (lv : Byte) (s : State) : State :=
  let x := s.engine e
  let new := ((List.range x.icnt).map (fun k => (x.inBall k, lv.getLsbD k))).filter
    (fun y => (seenOn s.lines.seen y.1).isNone)
  { s with lines := { s.lines with seen := s.lines.seen ++ new } }

/-! ## Execution (R397 to R403) -/

/-- The instruction at an engine's PC. -/
def Engine.op (x : Engine) : EOp := decodeEngine (engineCode x.load x.pc.toNat)

/-- The engine goes on at the next instruction, in the next clock. -/
def Engine.advance (x : Engine) (clk : Nat) : Engine :=
  { x with pc := x.pc + 1, wait := .none, at_ := clk + 1, hit := none }

/-- An engine that may execute an instruction in this clock. -/
def engineGoes (s : State) (e : EngineId) : Bool :=
  s.running && (s.engine e).st == .run && decide ((s.engine e).at_ ≤ s.time.clk)

/-- An engine's instruction runs: `k` for the instruction at PC when the engine waits for nothing. -/
def engineRun (e : EngineId) (k : EOp → Engine → State → State) (s : State) : Out :=
  .next (if engineGoes s e = true ∧ (s.engine e).wait = .none then k (s.engine e).op (s.engine e) s else s)

/-- An instruction whose effect is a change of the engine alone. -/
def engineDo (e : EngineId) (x : Engine) (s : State) : State := s.setEngine e (x.advance s.time.clk)

def setPin (b : Byte) (j : Nat) (v : Bool) : Byte :=
  let m : Byte := BitVec.twoPow 8 j
  if v then b ||| m else b &&& ~~~m

def togglePin (t : Option Nat) (b : Byte) : Byte :=
  match t with | some k => b ^^^ BitVec.twoPow 8 k | none => b

/-- The effect of a pin action (R397), with the levels of the input pins. -/
def pinAction (lv : Byte) (x : Engine) : EOp → Engine
  | .drive j oe v => { x with oute := setPin x.oute j oe, outv := setPin x.outv j v }
  | .driveAll v => { x with outv := v, oute := BitVec.ofNat 8 (2 ^ x.ocnt - 1) }
  | .sample n => { x with
      sr := (x.sr <<< n) ||| toWord (lv.toNat % 2 ^ n), sc := min (x.sc + n) 32 }
  | .shout j lsbf t =>
    let y := if lsbf then { x with outv := setPin x.outv j (x.sr.getLsbD 0), sr := x.sr >>> 1 }
      else { x with outv := setPin x.outv j (x.sr.getLsbD 31), sr := x.sr <<< 1 }
    { y with sc := x.sc - 1, outv := togglePin t y.outv }
  | .shin j lsbf t =>
    let b : Word := if lv.getLsbD j then 1 else 0
    { x with
      sr := if lsbf then (x.sr >>> 1) ||| (b <<< 31) else (x.sr <<< 1) ||| b
      sc := min (x.sc + 1) 32, outv := togglePin t x.outv }
  | _ => x

/-- The pin action reads inputs. -/
def EOp.input : EOp → Bool
  | .sample _ => true
  | .shin _ _ _ => true
  | _ => false

/-- A pin action comes up: in timed mode it waits for MARK, or is late (R400). An output action executes in the clock
that ends at the first edge reaching MARK. -/
def pinComesUp (e : EngineId) (op : EOp) (lv : Byte) (x : Engine) (s : State) : State :=
  if x.timed = false then engineDo e (pinAction lv x op) s
  else if x.mark ≤ s.time.hive then engineDo e (pinAction lv { x with nlate := satInc x.nlate } op) s
  else if x.mark ≤ s.hiveNext ∧ op.input = false then engineDo e (pinAction lv x op) s
  else s.setEngine e { x with wait := .timed, at_ := s.time.clk + 1 }

/-- TIMED_ACTION: the waiting action executes. An input action enters SR two clocks after the edge that reaches MARK
(R400). -/
def execLeTimedAction (e : EngineId) (lv : Byte) (s : State) : Out :=
  .next (
    let x := s.engine e
    if engineGoes s e = true ∧ x.wait = .timed ∧
        (if x.op.input then (match x.hit with | some c => decide (c + 2 ≤ s.time.clk) | none => false)
         else decide (x.mark ≤ s.hiveNext)) = true then
      let lv := inLevels s e lv
      engineDo e (pinAction lv x x.op) (if x.op.input then noteSeen e lv s else s)
    else s)

/-- HALT: to READY with KIND 2; whether PC shows the HALT or the instruction after it the manual does not say
(R395, log entry 18). -/
def execLeHalt (e : EngineId) (s : State) : Out :=
  engineRun e (fun op x s =>
    match op with
    | .halt =>
      engineEvent e 2 x.pc.toNat 0 ({ s with free := s.free + 1 }.setEngine e
        { x with st := .ready, pc := if Config.freeBool s.free then x.pc + 1 else x.pc })
    | _ => s) s

/-- DRIVE j, oe, v (R397). -/
def execLeDrive (e : EngineId) (s : State) : Out :=
  engineRun e (fun op x s => match op with
    | .drive _ _ _ => pinComesUp e op 0 x s
    | _ => s) s

/-- DRIVE.ALL v8 (R397). -/
def execLeDriveAll (e : EngineId) (s : State) : Out :=
  engineRun e (fun op x s => match op with
    | .driveAll _ => pinComesUp e op 0 x s
    | _ => s) s

/-- SAMPLE n (R397); `lv` holds the levels of the input pins (R391). -/
def execLeSample (e : EngineId) (lv : Byte) (s : State) : Out :=
  engineRun e (fun op x s => match op with
    | .sample _ =>
      let lv := inLevels s e lv
      pinComesUp e op lv x (noteSeen e lv s)
    | _ => s) s

/-- SHOUT j (R397). -/
def execLeShout (e : EngineId) (s : State) : Out :=
  engineRun e (fun op x s => match op with
    | .shout _ _ _ => pinComesUp e op 0 x s
    | _ => s) s

/-- SHIN j (R397). -/
def execLeShin (e : EngineId) (lv : Byte) (s : State) : Out :=
  engineRun e (fun op x s => match op with
    | .shin _ _ _ =>
      let lv := inLevels s e lv
      pinComesUp e op lv x (noteSeen e lv s)
    | _ => s) s

/-! ### TAKE and GIVE (R402, R403) -/

/-- STALE sets: NSTALE counts, and KIND 4 when it was clear (R403, R405). -/
def setStale (e : EngineId) (pc : Nat) (s : State) : State :=
  let was := (s.engine e).stale
  let s := s.modEngine e (fun x => { x with stale := true, nstale := satInc x.nstale })
  if was then s else engineEvent e 4 pc 0 s

/-- MARK.ABS: the value with low word `w` that lies nearest hive time, -2^31 to 2^31 - 1 ticks away (R397). -/
def markAbs (hive : Nat) (w : Word) : Nat :=
  wrap64 (hive + 2 ^ 64 + (w - toWord hive).toNat - (if (w - toWord hive).toNat < 2 ^ 31 then 0 else 2 ^ 32))

/-- What TAKE writes. -/
def takeInto (dst : Nat) (hive : Nat) (w : Word) (x : Engine) : Engine :=
  match dst with
  | 0 => { x with sr := w, sc := 32 }
  | 1 => { x with c0 := BitVec.ofNat 16 w.toNat, c1 := BitVec.ofNat 16 (w.toNat / 65536) }
  | 2 => { x with mark := wrap64 (x.mark + w.toNat) }
  | _ => { x with mark := markAbs hive w }

/-- A TAKE executes with TH full. -/
def takeFull (e : EngineId) (ev : Bool) (dst : Nat) (x : Engine) (s : State) : State :=
  let s' := s.setEngine e ((takeInto dst s.time.hive x.th { x with thFull := false }).advance s.time.clk)
  if ev then engineEvent e 3 x.pc.toNat 0 s' else s'

/-- TAKE comes up (R402, R403). -/
def takeComesUp (e : EngineId) (ev n : Bool) (dst : Nat) (x : Engine) (s : State) : State :=
  if x.thFull then takeFull e ev dst x s
  else if n then setStale e x.pc.toNat (takeFull e ev dst x s)
  else s.setEngine e { x with wait := .stall, nstall := satInc x.nstall, at_ := s.time.clk + 1 }

/-- The word that GIVE passes. -/
def giveWord (src : Nat) (x : Engine) : Word :=
  match src with
  | 0 => x.sr
  | 1 => toWord (x.c0.toNat + put x.c1.toNat 16)
  | 2 => toWord x.mark
  | _ => toWord (x.mark / 2 ^ 32)

/-- GIVE SR clears SR and SC (R397). -/
def giveClear (src : Nat) (x : Engine) : Engine := if src = 0 then { x with sr := 0, sc := 0 } else x

/-- A GIVE executes with GH empty. -/
def giveEmpty (e : EngineId) (ev : Bool) (src : Nat) (x : Engine) (s : State) : State :=
  let s' := s.setEngine e ((giveClear src { x with gh := giveWord src x, ghFull := true }).advance s.time.clk)
  if ev then engineEvent e 1 x.pc.toNat 0 s' else s'

/-- GIVE comes up (R402, R403). -/
def giveComesUp (e : EngineId) (ev n : Bool) (src : Nat) (x : Engine) (s : State) : State :=
  if !x.ghFull then giveEmpty e ev src x s
  else if n then setStale e x.pc.toNat (s.setEngine e ((giveClear src x).advance s.time.clk))
  else s.setEngine e { x with wait := .stall, nstall := satInc x.nstall, at_ := s.time.clk + 1 }

/-- A TAKE with destination `d` comes up. -/
def takeTo (d : Nat) (e : EngineId) (op : EOp) (x : Engine) (s : State) : State :=
  match op with
  | .take ev n dst => if dst = d then takeComesUp e ev n d x s else s
  | _ => s

/-- A GIVE of source `d` comes up. -/
def giveFrom (d : Nat) (e : EngineId) (op : EOp) (x : Engine) (s : State) : State :=
  match op with
  | .give ev n src => if src = d then giveComesUp e ev n d x s else s
  | _ => s

/-- TAKE SR. -/
def execLeTakeSr (e : EngineId) (s : State) : Out := engineRun e (takeTo 0 e) s
/-- TAKE C. -/
def execLeTakeC (e : EngineId) (s : State) : Out := engineRun e (takeTo 1 e) s
/-- TAKE MARK.ADD. -/
def execLeTakeMarkAdd (e : EngineId) (s : State) : Out := engineRun e (takeTo 2 e) s
/-- TAKE MARK.ABS. -/
def execLeTakeMarkAbs (e : EngineId) (s : State) : Out := engineRun e (takeTo 3 e) s
/-- GIVE SR. -/
def execLeGiveSr (e : EngineId) (s : State) : Out := engineRun e (giveFrom 0 e) s
/-- GIVE C. -/
def execLeGiveC (e : EngineId) (s : State) : Out := engineRun e (giveFrom 1 e) s
/-- GIVE MARK.LO. -/
def execLeGiveMarkLo (e : EngineId) (s : State) : Out := engineRun e (giveFrom 2 e) s
/-- GIVE MARK.HI. -/
def execLeGiveMarkHi (e : EngineId) (s : State) : Out := engineRun e (giveFrom 3 e) s

/-- ENGINE_STALL_END: a waiting TAKE or GIVE executes when its register is in the required state (R402). -/
def execLeStallEnd (e : EngineId) (s : State) : Out :=
  .next (
    let x := s.engine e
    if engineGoes s e = true ∧ x.wait = .stall then
      match x.op with
      | .take ev _ dst => if x.thFull then takeFull e ev dst x s else s
      | .give ev _ src => if x.ghFull then s else giveEmpty e ev src x s
      | _ => s
    else s)

/-! ### BRANCH, COUNT, AWAIT and STAMP -/

/-- A BRANCH condition (Table 14.5). -/
def branchHolds (cond j : Nat) (lv : Byte) (x : Engine) : Bool :=
  match cond with
  | 0 => true
  | 1 => x.c0 != 0
  | 2 => x.c1 != 0
  | 3 => lv.getLsbD j
  | 4 => !lv.getLsbD j
  | 5 => x.sc == 0
  | 6 => x.sc == 32
  | 7 => x.thFull
  | 8 => !x.ghFull
  | _ => x.tmo

/-- BRANCH cond, j, target (R397, R398). -/
def execLeBranch (e : EngineId) (lv : Byte) (s : State) : Out :=
  engineRun e (fun op x s => match op with
    | .branch cond j t =>
      let y := x.advance s.time.clk
      let lv := inLevels s e lv
      let s := if cond = 3 ∨ cond = 4 then noteSeen e lv s else s
      s.setEngine e { y with pc := if branchHolds cond j lv x then BitVec.ofNat 5 t else y.pc }
    | _ => s) s

/-- A COUNT operation on a counter (R397). -/
def countOp (op imm : Nat) (c : BitVec 16) : BitVec 16 :=
  match op with
  | 0 => BitVec.ofNat 16 imm
  | 1 => satInc c
  | 2 => if c = 0 then 0 else c - 1
  | _ => satAdd c imm

/-- A COUNT whose operation is `d`. -/
def countBy (d : Nat) (e : EngineId) (op : EOp) (x : Engine) (s : State) : State :=
  match op with
  | .count k o imm =>
    if o = d then
      engineDo e (if k then { x with c1 := countOp d imm x.c1 } else { x with c0 := countOp d imm x.c0 }) s
    else s
  | _ => s

/-- COUNT k, LOAD, imm. -/
def execLeCountLoad (e : EngineId) (s : State) : Out := engineRun e (countBy 0 e) s
/-- COUNT k, INC. -/
def execLeCountInc (e : EngineId) (s : State) : Out := engineRun e (countBy 1 e) s
/-- COUNT k, DEC. -/
def execLeCountDec (e : EngineId) (s : State) : Out := engineRun e (countBy 2 e) s
/-- COUNT k, ADD, imm. -/
def execLeCountAdd (e : EngineId) (s : State) : Out := engineRun e (countBy 3 e) s

/-- An AWAIT condition in one clock, from the levels that the clock before and this clock see (Table 14.5). -/
def awaitHolds (cond j hive : Nat) (prev lv : Byte) (x : Engine) : Bool :=
  match cond with
  | 0 => decide (x.mark ≤ hive)
  | 1 => !prev.getLsbD j && lv.getLsbD j
  | 2 => prev.getLsbD j && !lv.getLsbD j
  | 3 => lv.getLsbD j
  | 4 => !lv.getLsbD j
  | 5 => x.thFull
  | _ => !x.ghFull

/-- One clock of an AWAIT: it ends on its condition, or with T when hive time has reached MARK; an edge sets EDGT to
the capture two clocks before (R391, R398). -/
def awaitClock (e : EngineId) (cond j : Nat) (t : Bool) (prev lv : Byte) (x : Engine) (s : State) : State :=
  let h := s.time.hive
  if awaitHolds cond j h prev lv x then
    s.setEngine e ({ x with
      edgt := if cond = 1 ∨ cond = 2 then wrap64 (h + 2 ^ 64 - 2 * s.inc) else x.edgt }.advance s.time.clk)
  else if t = true ∧ x.mark ≤ h then s.setEngine e ({ x with tmo := true }.advance s.time.clk)
  else s.setEngine e { x with wait := .await, at_ := s.time.clk + 1 }

/-- One clock of an AWAIT with the levels that this clock and the one before see (R391); `prev` and `lv` hold what the
board puts on the pins. -/
def awaitPins (e : EngineId) (cond j : Nat) (t : Bool) (prev lv : Byte) (x : Engine) (s : State) : State :=
  let now := inLevels s e lv
  awaitClock e cond j t (inBefore s e prev) now x (if 1 ≤ cond ∧ cond ≤ 4 then noteSeen e now s else s)

/-- AWAIT cond, j [, T] (R397, R398). -/
def execLeAwait (e : EngineId) (prev lv : Byte) (s : State) : Out :=
  engineRun e (fun op x s => match op with
    | .await cond t j => awaitPins e cond j t prev lv { x with tmo := false } s
    | _ => s) s

/-- AWAIT_END: a waiting AWAIT meets its condition or its timeout (R398, R399). -/
def execLeAwaitEnd (e : EngineId) (prev lv : Byte) (s : State) : Out :=
  .next (
    let x := s.engine e
    if engineGoes s e = true ∧ x.wait = .await then
      match x.op with
      | .await cond t j => awaitPins e cond j t prev lv x s
      | _ => s
    else s)

/-- What STAMP writes to MARK (Table 14.4). -/
def stampMark (op imm hive : Nat) (x : Engine) : Nat :=
  match op with
  | 0 => hive
  | 1 => x.edgt
  | 2 => wrap64 (x.mark + imm * 24)
  | 3 => wrap64 (x.mark + x.c1.toNat * 192)
  | 4 => wrap64 (x.mark + x.sr.toNat)
  | _ => wrap64 (x.mark + x.c0.toNat * 24)

/-- A STAMP whose operation is `d`. -/
def stampBy (d : Nat) (e : EngineId) (op : EOp) (x : Engine) (s : State) : State :=
  match op with
  | .stamp o imm => if o = d then engineDo e { x with mark := stampMark d imm s.time.hive x } s else s
  | _ => s

/-- STAMP NOW. -/
def execLeStampNow (e : EngineId) (s : State) : Out := engineRun e (stampBy 0 e) s
/-- STAMP EDGE. -/
def execLeStampEdge (e : EngineId) (s : State) : Out := engineRun e (stampBy 1 e) s
/-- STAMP ADDI. -/
def execLeStampAddi (e : EngineId) (s : State) : Out := engineRun e (stampBy 2 e) s
/-- STAMP ADDC1. -/
def execLeStampAddc1 (e : EngineId) (s : State) : Out := engineRun e (stampBy 3 e) s
/-- STAMP ADDSR. -/
def execLeStampAddsr (e : EngineId) (s : State) : Out := engineRun e (stampBy 4 e) s
/-- STAMP ADDC0. -/
def execLeStampAddc0 (e : EngineId) (s : State) : Out := engineRun e (stampBy 5 e) s

/-! ## Core access (R393 to R395, R401) -/

/-- The engine and the meaning of an engine's own command. -/
def engineCmd : Instr → Option (EngineId × (State → Out))
  | .leHalt e => some (e, execLeHalt e)
  | .leDrive e => some (e, execLeDrive e)
  | .leDriveAll e => some (e, execLeDriveAll e)
  | .leSample e v => some (e, execLeSample e v)
  | .leShout e => some (e, execLeShout e)
  | .leShin e v => some (e, execLeShin e v)
  | .leTakeSr e => some (e, execLeTakeSr e)
  | .leTakeC e => some (e, execLeTakeC e)
  | .leTakeMarkAdd e => some (e, execLeTakeMarkAdd e)
  | .leTakeMarkAbs e => some (e, execLeTakeMarkAbs e)
  | .leGiveSr e => some (e, execLeGiveSr e)
  | .leGiveC e => some (e, execLeGiveC e)
  | .leGiveMarkLo e => some (e, execLeGiveMarkLo e)
  | .leGiveMarkHi e => some (e, execLeGiveMarkHi e)
  | .leBranch e v => some (e, execLeBranch e v)
  | .leCountLoad e => some (e, execLeCountLoad e)
  | .leCountInc e => some (e, execLeCountInc e)
  | .leCountDec e => some (e, execLeCountDec e)
  | .leCountAdd e => some (e, execLeCountAdd e)
  | .leAwait e p v => some (e, execLeAwait e p v)
  | .leAwaitEnd e p v => some (e, execLeAwaitEnd e p v)
  | .leStampNow e => some (e, execLeStampNow e)
  | .leStampEdge e => some (e, execLeStampEdge e)
  | .leStampAddi e => some (e, execLeStampAddi e)
  | .leStampAddc1 e => some (e, execLeStampAddc1 e)
  | .leStampAddsr e => some (e, execLeStampAddsr e)
  | .leStampAddc0 e => some (e, execLeStampAddc0 e)
  | .leStallEnd e => some (e, execLeStallEnd e)
  | .leTimedAction e v => some (e, execLeTimedAction e v)
  | _ => none

/-- The engine acts before a core's instruction that is checked in the same clock (R95, R395, R404). An engine executes
once in a clock, so its command does nothing more when it comes to the front. -/
def engineFirst (e : EngineId) (s : State) : State :=
  s.pending.foldl (fun s i =>
    match engineCmd i with
    | some (d, f) => if d = e then (match f s with | .next s => s | _ => s) else s
    | none => s) s

/-- What the LINE instructions share. -/
def lineInstr (c : CoreId) (i : Instr) (f : UForm) (unused : List (BitVec 4)) (blk : Bool)
    (body : EngineId → Regs → State → Ans) (s : State) : Out :=
  .next (specInstr c i
    { o2 := fun t r _ => unitOk 8 f unused && (!blk || blockOk t (r.rd f.ra).toNat 20)
      o3 := fun t r s => s.may t (capLine f.inst.toNat) && (!blk || blockMay s t (r.rd f.ra).toNat 20)
      failed := fun _ _ s => s.hasFailed .line
      waits := fun _ _ s => waitsFor .line s
      body := fun _ _ r s => body (UForm.num 8 f) r (engineFirst (UForm.num 8 f) s) } s)

/-- LINE.LOAD e, wa (R393). -/
def execLineLoad (c : CoreId) (f : UForm) (s : State) : Out :=
  lineInstr c (.lineLoad c f) f [f.rd, f.rb] true (fun e r s =>
    inStates (s.engine e).st [.off, .ready] s (withBlock (r.rd f.ra).toNat 20 s (fun ws s =>
      if !engineLoadOk ws then .status stRange s 20
      else .ok (s.modEngine e (fun x => { x with st := .ready, load := ws })) 20))) s

/-- LINE.START e (R394). -/
def execLineStart (c : CoreId) (f : UForm) (s : State) : Out :=
  lineInstr c (.lineStart c f) f [f.rd, f.ra, f.rb] false (fun e _ s =>
    inStates (s.engine e).st [.ready] s
      (.ok (s.modEngine e (fun x => { x with
        st := .run, pc := BitVec.ofNat 5 x.entry, sr := 0, sc := 0, c0 := 0, c1 := 0, tmo := false, stale := false
        conf := false, mark := s.time.hive, edgt := 0, th := 0, thFull := false, gh := 0, ghFull := false
        outv := BitVec.ofNat 8 (fieldOf (x.w 2) 7 0), oute := BitVec.ofNat 8 (fieldOf (x.w 2) 15 8)
        losing := [], wait := .none, at_ := s.time.clk + 1, hit := none })))) s

/-- LINE.STOP e (R395). -/
def execLineStop (c : CoreId) (f : UForm) (s : State) : Out :=
  lineInstr c (.lineStop c f) f [f.rd, f.ra, f.rb] false (fun e _ s =>
    inStates (s.engine e).st [.run] s
      (.ok (s.modEngine e (fun x => { x with st := .ready, wait := .none, hit := none })))) s

/-- LINE.TX e, wa (R94, R401, R404). -/
def execLineTx (c : CoreId) (f : UForm) (s : State) : Out :=
  lineInstr c (.lineTx c f) f [f.rd, f.rb] false (fun e r s =>
    let x := s.engine e
    inStates x.st [.run] s
      (if x.thFull then .status stBusy s
       else .ok (s.setEngine e { x with th := r.rd f.ra, thFull := true, at_ := s.time.clk + 1 }))) s

/-- LINE.RX wd, e (R94, R401, R404). -/
def execLineRx (c : CoreId) (f : UForm) (s : State) : Out :=
  lineInstr c (.lineRx c f) f [f.ra, f.rb] false (fun e _ s =>
    let x := s.engine e
    inStates x.st [.run] s
      (if !x.ghFull then .status stBusy s
       else .val f.rd x.gh (s.setEngine e { x with ghFull := false, at_ := s.time.clk + 1 }))) s

/-! ## Status window (Table 14.8) -/

/-- IN in the present clock; where neither the device nor this clock's commands fix a ball, its level is a free value
of the clock and the ball (log entry 2). -/
def engineIn (s : State) (e : EngineId) : Byte :=
  let x := s.engine e
  pinsByte x (fun k => levelSeen s (x.inBall k) (Config.lineLevel s.time.clk (x.inBall k)))

def engineWindow (s : State) (e : EngineId) (off : Nat) : Word :=
  let x := s.engine e
  if 0x40 ≤ off ∧ off < 0x90 ∧ off % 4 = 0 then x.w ((off - 0x40) / 4)
  else match off with
    | 0x00 => toWord (x.st.num + put (bit01 (x.wait != .none)) 2 + put (bit01 x.timed) 3 + put (bit01 x.stale) 4 +
        put (bit01 x.tmo) 5 + put (bit01 x.conf) 6 + put (bit01 x.thFull) 7 + put (bit01 x.ghFull) 8 + put x.pc.toNat 16)
    | 0x04 => x.sr
    | 0x08 => toWord x.sc
    | 0x0C => b16 x.c0 x.c1
    | 0x10 => toWord x.mark
    | 0x14 => toWord (x.mark / 2 ^ 32)
    | 0x18 => toWord x.edgt
    | 0x1C => toWord (x.edgt / 2 ^ 32)
    | 0x20 => toWord (x.outv.toNat + put x.oute.toNat 8 + put (engineIn s e).toNat 16)
    | 0x24 => b16 x.nconf x.nstale
    | 0x28 => b16 x.nstall x.nlate
    | 0x2C => toWord x.confpin
    | _ => 0

end Sys2Proof.Machine
end

