-- ==== Sys2Proof/Machine/Clock.lean ====
section
/-!
DEFINITION. Sys2Proof/Machine/Clock.lean: hive time, levels and level changes (spec/05_clock_time_and_levels.md).
-/
namespace Sys2Proof.Machine

/-! ## Hive time -/

/-- The AON phase counter (R163). -/
def TimeSt.phase (t : TimeSt) : Nat := ((t.phys - t.phase0) / 6) % 1024

/-- An instant moved by a step of hive time. -/
def moveBy (d : Int) (t : Nat) : Nat := ((t : Int) + d).toNat

/-- The hive's running durations keep the ticks left at a step of hive time; the fill times of cache lines are hive
times that R422 compares and stay (DEDUCED, log entry 24). -/
def shiftFabric (d : Int) (h : HiveSt) : HiveSt :=
  let m := moveBy d
  { h with
    claimAt := m h.claimAt, advAt := m h.advAt, sweepRel := m h.sweepRel
    leases := vmap (Option.map (fun l => { l with exp := m l.exp })) h.leases
    cands := h.cands.map (fun c => { c with seen := m c.seen })
    msgs := h.msgs.map (fun x => { x with sentAt := x.sentAt.map m })
    dups := h.dups.map (fun k => { k with at_ := m k.at_ })
    relays := h.relays.map (fun r => { r with due := m r.due })
    renewDue := h.renewDue.map m
    sresp := h.sresp.map (fun r => { r with t2 := m r.t2, due := m r.due })
    captNow := h.captNow.map m, captPrev := h.captPrev.map m
    selNow := h.selNow.map m, selPrev := h.selPrev.map m
    exch := none }

/-- A round starts when hive time reaches a multiple of 192,000 ticks with THERMAL ready, until step 6 of the orderly
stop (R217, R227). -/
def noteRound (s : State) : State :=
  let ix := s.time.hive / 192000
  if s.therm.lastIx = ix then s
  else
    let runs := s.isReady .thermal && (match s.therm.stop with | some st => st.step != 6 | none => true)
    { s with therm := { s.therm with lastIx := ix, roundClk := if runs then some s.time.clk else s.therm.roundClk } }

/-- A step of hive time (R168, R82): replaced in one clock, only while VALID is 0; sets VALID and counts STEPS;
armed ALARM.EVERY timers and WAIT timeouts keep the ticks left, and an event of the same clock carries the value after
the step (section 5.3, Edges). -/
def stepHive (new : Nat) (s : State) : State :=
  if s.time.valid then s
  else
    let old := s.time.hive
    let new := wrap64 new
    noteRound { s with
      time := { s.time with hive := new, valid := true, steps := satInc s.time.steps }
      raised := s.raised.map (fun r => if r.ev.time = old then { r with ev := { r.ev with time := new } } else r)
      timers := vmap (stepTimer s.time.clk old new) s.timers
      ctx := vmap (stepSaved old new) s.ctx
      therm := { s.therm with
        lastIx := if new < old then new / 192000 else s.therm.lastIx }
      recogs := vmap (stepPulse old new) s.recogs
      sensors := (allIx 11).foldl (fun v i => vmod v i (stepSensor new i)) s.sensors
      hive := shiftFabric ((new : Int) - (old : Int)) s.hive }

/-- The trim in force (Table 5.3, R168): direction and rate, bounded to one trim per 2048 ticks. -/
def setTrim (withhold : Bool) (rate : Nat) (s : State) : State :=
  { s with time := { s.time with trimDir := withhold, trimRate := BitVec.ofNat 16 (min rate 8192) } }

/-! ## Levels (Table 5.4) -/

def levelVcode (l : BitVec 2) : BitVec 8 := if l = 0 then 0x1E else if l = 1 then 0x28 else if l = 2 then 0x3C else 0x54
def levelBb (l : BitVec 2) : BitVec 2 := if l = 0 then 3 else if l = 1 then 2 else if l = 2 then 1 else 0
def levelAs (l : BitVec 2) : BitVec 2 := if l = 0 ∨ l = 1 then 1 else 2

/-- A rising edge of every level's clock: every 24 ticks (section 5.2). -/
def State.commonEdge (s : State) : Bool := s.time.phys % 24 == 0

/-- The PLL is locked. -/
def State.pllLocked (s : State) : Bool :=
  match s.level.pll with | some p => p ≤ s.time.phys | none => false

/-- A SET frame decided now or later (R174). -/
def setFrame (why : SrlFor) (l : BitVec 2) (decided : Nat) : SrlFrame := ⟨why, 0, l, levelVcode l, decided, none⟩

/-- An OFF frame (Table 5.7). -/
def offFrame (why : SrlFor) (decided : Nat) : SrlFrame := ⟨why, 0, 0, 0, decided, none⟩

def isOff (w : SrlFor) : Bool := w == .sleepOff || w == .stopOff

/-- The 24 bits of a frame with its SEQ and CHK (Table 5.7). -/
def frameWord (f : SrlFrame) (seq : BitVec 4) : BitVec 24 :=
  let n4 : Nat := 0xB
  let n3 : Nat := (if isOff f.why then 4 else 0) + f.lvl.toNat
  let n2 : Nat := f.vcode.toNat / 16
  let n1 : Nat := f.vcode.toNat % 16
  let n0 : Nat := seq.toNat
  BitVec.ofNat 24 (n4 * 2 ^ 20 + n3 * 2 ^ 16 + n2 * 2 ^ 12 + n1 * 2 ^ 8 + n0 * 2 ^ 4 + (n4 ^^^ n3 ^^^ n2 ^^^ n1 ^^^ n0))

/-- A frame's place among those that have not started: the SET frame of an abort goes first (R206), those of a level
change before the OFF frame of sleep entry, which waits for the change (section 5.6, Edges; R177, R180). -/
def SrlFor.rank : SrlFor → Nat
  | .abort => 0
  | .change => 1
  | .restore => 1
  | _ => 2

/-- A frame put behind the one in progress, at its place. -/
def insertFrame (f : SrlFrame) : List SrlFrame → List SrlFrame
  | [] => [f]
  | g :: r => if g.started = none ∧ f.why.rank < g.why.rank then f :: g :: r else g :: insertFrame f r

def State.pushFrame (s : State) (f : SrlFrame) : State :=
  { s with level := { s.level with srl := insertFrame f s.level.srl } }

/-- The argument of event 0xB8 (Table 5.5). -/
def levelArg (now was : BitVec 2) (forced : Bool) (st : BitVec 8) : Word :=
  toWord (now.toNat + put was.toNat 2 + put (bit01 forced) 4 + put st.toNat 8)

/-- A change of level begins; leaving L0 starts the PLL (Tables 5.9 and 5.10 step 1, R183). -/
def startChange (n : BitVec 2) (forced : Bool) (s : State) : State :=
  let L := s.level
  let up := decide (L.cur.toNat < n.toNat)
  let pll := if L.cur = 0 then some (s.time.phys + usTicks 40) else L.pll
  let ph : ChangePhase := if L.fixed then .fixedSwitch else if up then .frame else .switchDown
  let s := { s with level := { L with
    tgt := n, pll := pll, change := some ⟨L.cur, n, forced, ph, s.time.phys⟩ } }
  if !L.fixed && up then s.pushFrame (setFrame .change n s.time.phys) else s

/-- A forced change to L1 starts when none is in progress, and otherwise after the present one (R184). -/
def forceL1 (s : State) : State :=
  if s.level.change.isSome then { s with level := { s.level with forceNext := true } }
  else if 1 < s.level.cur.toNat then startChange 1 true { s with level := { s.level with forceNext := false } }
  else { s with level := { s.level with forceNext := false } }

/-- A change ends: BUSY 0, NCHANGE counted, event 0xB8 in the next clock; a forced change that waits, or that
timed out, starts in the next clock too (R172, R180, R184). -/
def endChange (ch : LevelChange) (st : BitVec 8) (s : State) : State :=
  let L := s.level
  let now := L.cur
  let was := if st = stTimeout then now else ch.was
  let again := L.forceNext || (ch.forced && st == stTimeout)
  let s := { s with level := { L with tgt := now, change := none, nchange := satInc L.nchange } }
  let s := s.eventNext 0xB8 (levelArg now was ch.forced st)
  if again then { s with later := s.later ++ [.force] } else s

/-- The assist of a level is set in this clock; a change makes this clock's SRAM accesses wait (R169, R179). -/
def applyAssist (l : BitVec 2) (s : State) : State :=
  { s with level := { s.level with
    as_ := levelAs l, asClk := if s.level.as_ = levelAs l then s.level.asClk else some s.time.clk } }

/-- Bias and assist of a level are set in this clock (R169). -/
def applyBias (l : BitVec 2) (s : State) : State :=
  applyAssist l { s with level := { s.level with bb := levelBb l } }

/-- Bias and assist of a level are to be set in the next clock, unless a fixed supply holds them at MAXL (Tables 5.9 and
5.10, R182). -/
def biasNext (l : BitVec 2) (s : State) : State :=
  if s.level.fixed then s else { s with later := s.later ++ [.bias l] }

/-- The instant at which a bias ramp that starts in the next clock has settled (Tables 5.9 and 5.10). Example 5.A counts
the 20 µs from the clock in which the assist changes (DEDUCED, log entry 110). -/
def rampEnd (s : State) : Nat := s.time.phys + s.inc + usTicks 20

/-- The loader's later lines of type 3 take the fill cost of the new level; a line begun keeps its own (R116). -/
def recostLoader (s : State) : State :=
  match s.loader with
  | none => s
  | some l =>
    let cost := max 32 (fillClks s.level.cur)
    let e := (s.time.clk - l.startClk) - (512 + l.h + l.xipBase)
    let begun := min (l.xipLines - l.xipDone) ((e + l.xipCost - 1) / l.xipCost)
    { s with loader := some { l with
      xipDone := l.xipDone + begun, xipBase := l.xipBase + begun * l.xipCost, xipCost := cost } }

/-- The clock becomes that of level `n` at a common edge; the PLL stops at L0 (R159, R161). -/
def switchClock (n : BitVec 2) (s : State) : State :=
  let s := { s with level := { s.level with cur := n, pll := if n = 0 then none else s.level.pll } }
  recostLoader (longStalls s)

/-- The clock of the change in progress switches at a common edge, when its bias has settled and the PLL has locked
(R161, Tables 5.9 and 5.10, R180, R183). -/
def clockSwitch (s : State) : State :=
  match s.level.change with
    | none => s
    | some ch =>
      if s.running = false ∨ s.commonEdge = false then s
      else match ch.phase with
        | .biasUp u =>
          if u ≤ s.time.phys ∧ s.pllLocked = true then endChange ch stOk (switchClock ch.tgt s) else s
        | .switchDown =>
          if ch.start < s.time.phys then
            let s := biasNext ch.tgt (switchClock ch.tgt s)
            let s := { s with level := { s.level with change := some { ch with phase := .frame } } }
            s.pushFrame (setFrame .change ch.tgt (rampEnd s))
          else s
        | .restoreBias u =>
          if u ≤ s.time.phys ∧ s.pllLocked = true then endChange ch stTimeout (switchClock ch.was s) else s
        | .fixedSwitch =>
          if ch.start < s.time.phys ∧ (s.level.cur ≠ 0 ∨ s.pllLocked = true) then
            endChange ch stOk (switchClock ch.tgt s)
          else s
        | .frame => s
        | .restoreFrame => s

/-- CLOCK_SWITCH. -/
def execClockSwitch (s : State) : Out := .next (unlessEarly .clockSwitch clockSwitch s)

/-- A SET frame of a level change is acknowledged (Tables 5.9 step 4 and 5.10 step 6). -/
def changeAck (ch : LevelChange) (s : State) : State :=
  let s := { s with level := { s.level with vcode := levelVcode ch.tgt } }
  if ch.was.toNat < ch.tgt.toNat then
    let s := biasNext ch.tgt s
    { s with level := { s.level with change := some { ch with phase := .biasUp (rampEnd s) } } }
  else endChange ch stOk s

/-- The restoring frame is acknowledged: an upward change has changed nothing; a downward change is undone (R180). -/
def restoreAck (ch : LevelChange) (s : State) : State :=
  let s := { s with level := { s.level with vcode := levelVcode ch.was } }
  if ch.was.toNat < ch.tgt.toNat then endChange ch stTimeout s
  else
    let pll := if s.level.cur = 0 then some (s.time.phys + usTicks 40) else s.level.pll
    let s := biasNext ch.was { s with level := { s.level with pll := pll } }
    { s with level := { s.level with change := some { ch with phase := .restoreBias (rampEnd s) } } }

/-- The frame of a change, or its restoring frame, times out: the old level's frame is sent, again and again (R180). -/
def changeTimeout (ch : LevelChange) (s : State) : State :=
  let s := { s with level := { s.level with change := some { ch with phase := .restoreFrame } } }
  s.pushFrame (setFrame .restore ch.was s.time.phys)

/-- The level word and the link counters (Table 5.6). -/
def levelWord (L : LevelSt) : Word :=
  toWord (L.cur.toNat + put L.tgt.toNat 2 + put (bit01 L.change.isSome) 4 + put (bit01 L.fixed) 5 +
    put L.maxl.toNat 6 + put L.thlim.toNat 8 + put (bit01 L.declerr) 10 + put L.bb.toNat 11 +
    put L.as_.toNat 13 + put L.vcode.toNat 16 + put L.seq.toNat 24)

def linkWord (L : LevelSt) : Word := toWord (L.ntimeout.toNat + put L.nchange.toNat 16)

/-- The time status word (Table 5.3). -/
def timeWord (t : TimeSt) : Word :=
  toWord (bit01 t.valid + put (bit01 t.trimDir) 1 + put t.steps.toNat 8 + put t.trimRate.toNat 16)

/-- The supply declaration (R181, R182): FIXED, MAXL and DECLERR for the word, bad when it held a double-bit error, and
for a fixed supply the code of MAXL and its body bias; the assist follows in the next clock. -/
def supplyDecl (w : Word) (bad : Bool) (L : LevelSt) : LevelSt :=
  if bad = false ∧ w = 0 then { L with fixed := false, maxl := 3 }
  else
    let ok := bad = false ∧ (w = 0xF5ED0001 ∨ w = 0xF5ED0002 ∨ w = 0xF5ED0003)
    let m : BitVec 2 := if ok then BitVec.ofNat 2 w.toNat else 1
    { L with
      fixed := true, maxl := m, declerr := if ok then L.declerr else true
      vcode := levelVcode m, bb := levelBb m }

end Sys2Proof.Machine
end

