-- ==== Sys2Proof/Machine/JournalFmt.lean ====
section
/-!
DEFINITION. Sys2Proof/Machine/JournalFmt.lean: the flash array (R450) and the formats of the journal: descriptor,
sectors, records, groups and checkpoints (Tables 16.2 to 16.4), written and read back (R459, R461, R467, R471 to R474).
-/
namespace Sys2Proof.Machine

/-! ## The array (R450, R458) -/

/-- `n` bytes at a flash offset. -/
def flashBytes (s : State) (off n : Nat) : List Byte := memGets s.mem (flashBase + off) n

/-- The word at a flash offset. -/
def flashWord (s : State) (off : Nat) : Word := memWord s.mem (flashBase + off)

/-- A program: the AND of old and new content, byte by byte (R450). -/
def andBytes : List Byte → List Byte → List Byte
  | a :: r, b :: t => (a &&& b) :: andBytes r t
  | _, _ => []

/-- One change of the array made whole, with the cache lines over it invalidated (R450, R458). -/
def applyStep (st : JStep) (s : State) : State :=
  match st with
  | .prog off bs =>
    cacheInval (flashBase + off) bs.length
      { s with mem := memPuts s.mem (flashBase + off) (andBytes (flashBytes s off bs.length) bs) }
  | .erase off =>
    cacheInval (flashBase + off) 4096
      { s with mem := memPuts s.mem (flashBase + off) (List.replicate 4096 0xFF) }

def applySteps (l : List JStep) (s : State) : State := l.foldl (fun s st => applyStep st s) s

/-- Free bytes from index `k` on. -/
def freeBytes : Nat → Nat → List Byte
  | _, 0 => []
  | k, n + 1 => Config.freeByte k :: freeBytes (k + 1) n

/-- The ranges of steps filled with undefined content (R455). -/
def scrambleSteps (l : List JStep) (s : State) : State :=
  l.foldl (fun s st =>
    let (off, n) := st.span
    cacheInval (flashBase + off) n
      { s with mem := memPuts s.mem (flashBase + off) (freeBytes s.free n), free := s.free + n }) s

/-- Steps cut by a loss of power after `k` bytes of programming: the first `k` bytes are programmed, in ascending
order (R453); the byte after them, and an erase not ended, leave undefined content (R467). -/
def cutSteps : List JStep → Nat → State → State
  | [], _, s => s
  | .prog off bs :: r, k, s =>
    if bs.length ≤ k then cutSteps r (k - bs.length) (applyStep (.prog off bs) s)
    else
      let s := applyStep (.prog off (bs.take k)) s
      let old := (flashBytes s (off + k) 1).headD 0xFF
      let part := old &&& ((bs.drop k).headD 0xFF ||| Config.freeByte s.free)
      { s with mem := memPut s.mem (flashBase + off + k) part, free := s.free + 1 }
  | .erase off :: r, k, s => if k = 0 then scrambleSteps [.erase off] s else cutSteps r (k - 1) (applyStep (.erase off) s)

/-- Units of progress of steps: a byte programmed or a sector erased. -/
def stepUnits : List JStep → Nat
  | [] => 0
  | .prog _ bs :: r => bs.length + stepUnits r
  | .erase _ :: r => 1 + stepUnits r

/-- All bytes read 0xFF. -/
def blank (s : State) (off n : Nat) : Bool := (flashBytes s off n).all (· == 0xFF)

/-! ## Descriptor (R459) -/

/-- The area that descriptor slot `i` declares, when it is valid: BASE and NSEC. -/
def descriptor (s : State) (i : Nat) : Option (Nat × Nat) :=
  let o := 0x3FF000 + 16 * i
  let w1 := flashWord s (o + 4)
  let w2 := flashWord s (o + 8)
  let base := fieldOf w1 10 0
  let nsec := fieldOf w2 8 0
  let last := base + nsec + 1
  if flashWord s o = 0x00014A44 ∧ zeroBits w1 31 11 = true ∧ zeroBits w2 31 9 = true ∧
      flashWord s (o + 12) = crc32c (flashBytes s o 12) ∧ 2 ≤ nsec ∧ nsec ≤ 256 ∧ last < 2048 ∧
      (last < 1023 ∨ 1023 < base) ∧ last ≠ 2047 then some (base, nsec)
  else none

/-- The valid slot with the highest index: slot, BASE, NSEC. -/
def findDescriptor (s : State) : Option (Nat × Nat × Nat) :=
  (List.range 256).foldl (fun a i => match descriptor s i with | some (b, n) => some (i, b, n) | none => a) none

/-! ## Sectors (Table 16.3) -/

/-- Flash offset of sector `k` of the area. -/
def secOff (j : JournalSt) (k : Nat) : Nat := (j.base + k) * 4096

/-- SSEQ and ERASES of a sector with a valid header. -/
def sectorHeader (s : State) (k : Nat) : Option (Nat × Nat) :=
  let o := secOff s.journal k
  if flashWord s o = 0x4C4A5348 ∧ flashWord s (o + 12) = crc32c (flashBytes s o 12) ∧ blank s (o + 16) 16 = true then
    some ((flashWord s (o + 4)).toNat, (flashWord s (o + 8)).toNat)
  else none

/-- A sector header. -/
def sectorHeaderBytes (sseq erases : Nat) : List Byte :=
  let b := bytesOfWords [0x4C4A5348, toWord sseq, toWord erases]
  b ++ wordBytes (crc32c b)

/-! ## Records and groups -/

/-- R of a record of LEN bytes (R461). -/
def recSize (len : Nat) : Nat := 8 + 4 * ((len + 3) / 4)

/-- A record's bytes (Table 16.3). -/
def recordBytes (key ten : Nat) (data : List Byte) : List Byte :=
  let b := wordBytes (toWord (key + put data.length 16 + put ten 27)) ++ data ++
    List.replicate ((4 - data.length % 4) % 4) 0
  b ++ wordBytes (crc32c b)

/-- A group's bytes with COMMIT open. -/
def groupBytes (gseq : Nat) (body : List Byte) : List Byte :=
  let h := bytesOfWords [toWord (0x6A47 + put (body.length / 4) 16), toWord gseq]
  h ++ wordBytes (crc32c (h ++ body)) ++ [0xFF, 0xFF, 0xFF, 0xFF] ++ body

/-- Records read from the body of a group at an area offset: none when one is malformed or its RCRC is wrong. -/
def parseRecords : Nat → Nat → List Byte → Option (List JEnt)
  | 0, _, _ => none
  | fuel + 1, off, b =>
    match b with
    | [] => some []
    | _ =>
      let w := wordOfBytes (b.take 4)
      let len := fieldOf w 26 16
      let r := recSize len
      if b.length < r ∨ wordOfBytes ((b.drop (r - 4)).take 4) ≠ crc32c (b.take (r - 4)) then none
      else match parseRecords fuel (off + r) (b.drop r) with
        | some l => some (⟨fieldOf w 15 0, len, fieldOf w 31 27, off⟩ :: l)
        | none => none

/-- A group found in a sector: GSEQ and, when it is visible, its records (R467). -/
structure Found where
  gseq : Nat
  recs : Option (List JEnt)
  size : Nat

/-- The group at an area offset with `room` bytes to the sector's end. -/
def groupAt (s : State) (off room : Nat) : Option Found :=
  let o := s.journal.base * 4096 + off
  let w0 := flashWord s o
  let n := 4 * fieldOf w0 31 16
  if room < 16 + n ∨ fieldOf w0 15 0 ≠ 0x6A47 then none
  else
    let body := flashBytes s (o + 16) n
    let ok := fieldOf (flashWord s (o + 12)) 15 0 == 0 &&
      flashWord s (o + 8) == crc32c (flashBytes s o 8 ++ body)
    some ⟨(flashWord s (o + 4)).toNat, if ok then parseRecords (n / 8 + 1) (off + 16) body else none, 16 + n⟩

/-- The groups of a sector from a position on: after one that is not visible the walk goes on at the next page
boundary, where the next append started (R467). -/
def walkSector : Nat → State → Nat → Nat → List Found
  | 0, _, _, _ => []
  | fuel + 1, s, k, pos =>
    if 4096 < pos + 16 then []
    else match groupAt s (k * 4096 + pos) (4096 - pos) with
      | none => walkSector fuel s k ((pos / 256 + 1) * 256)
      | some g => g :: walkSector fuel s k (if g.recs.isSome then pos + g.size else (pos / 256 + 1) * 256)

/-- The index with an entry put in place of any of its key, ascending KEY. -/
def indexPut (e : JEnt) : List JEnt → List JEnt
  | [] => [e]
  | x :: r => if x.key < e.key then x :: indexPut e r else if x.key = e.key then e :: r else e :: x :: r

/-- The records of visible groups taken over into an index, in order. -/
def applyGroups (gs : List Found) (ix : List JEnt) : List JEnt :=
  gs.foldl (fun ix g => (g.recs.getD []).foldl (fun ix e => indexPut e ix) ix) ix

/-- The highest GSEQ of groups, visible or not (R467). -/
def topSeq (gs : List Found) (top : Option Nat) : Option Nat :=
  gs.foldl (fun t g => match t with | some n => some (max n g.gseq) | none => some g.gseq) top

/-! ## Checkpoints (Table 16.4, R472) -/

/-- What a checkpoint sector holds. -/
inductive CkRead where
  | none
  | invalid
  | valid (ckseq head hsseq lastg : Nat) (entries : List JEnt)

/-- Entries of a checkpoint. -/
def ckEntries : Words → List JEnt
  | a :: b :: r => ⟨fieldOf a 15 0, fieldOf a 26 16, fieldOf a 31 27, fieldOf b 19 0⟩ :: ckEntries r
  | _ => []

/-- Checkpoint sector `k`, 0 or 1. -/
def readCk (s : State) (k : Nat) : CkRead :=
  let j := s.journal
  let o := (j.base + j.nsec + k) * 4096
  if flashWord s o ≠ 0x4B434A31 then .none
  else
    let n := fieldOf (flashWord s (o + 20)) 15 0
    let head := (flashWord s (o + 8)).toNat
    let hsseq := (flashWord s (o + 12)).toNat
    if n ≤ 508 ∧ fieldOf (flashWord s (o + 20)) 31 16 = j.base ∧ fieldOf (flashWord s (o + 24)) 7 0 = j.nsec - 1 ∧
        flashWord s (o + 28) = crc32c (flashBytes s o 28 ++ flashBytes s (o + 32) (8 * n)) ∧
        head < j.nsec * 4096 + 1 ∧
        (sectorHeader s (head / 4096)).map (·.1) = some hsseq then
      .valid (flashWord s (o + 4)).toNat head hsseq (flashWord s (o + 16)).toNat
        (ckEntries (wordsOfBytes (flashBytes s (o + 32) (8 * n))))
    else .invalid

/-- HEAD: the offset of the head in the area (Table 16.7a). -/
def JournalSt.head (j : JournalSt) : Nat := match j.secs.getLast? with | some k => k * 4096 + j.hpos | none => 0

/-- A checkpoint's bytes. -/
def ckBytes (j : JournalSt) (ckseq hsseq : Nat) : List Byte :=
  let h := bytesOfWords [0x4B434A31, toWord ckseq, toWord j.head, toWord hsseq, toWord (j.gseq + 2 ^ 32 - 1),
      toWord (j.index.length + put j.base 16)] ++ [BitVec.ofNat 8 (j.nsec - 1), 0xFF, 0xFF, 0xFF]
  let e := bytesOfWords (j.index.flatMap (fun x =>
    [toWord (x.key + put x.len 16 + put x.ten 27), toWord x.off]))
  h ++ wordBytes (crc32c (h ++ e)) ++ e

/-! ## Power-up (R154, R473, R474) -/

/-- Insertion of a sector by its SSEQ. -/
def bySeq (k q : Nat) : List (Nat × Nat) → List (Nat × Nat)
  | [] => [(k, q)]
  | (a, p) :: r => if q < p then (k, q) :: (a, p) :: r else (a, p) :: bySeq k q r

/-- The first page boundary after the last programmed byte of a sector (R467). -/
def appendPos (bs : List Byte) : Nat :=
  let n := (bs.reverse.dropWhile (· == 0xFF)).length
  if n = 0 then 0 else min 4096 (((n - 1) / 256 + 1) * 256)

/-- A free starting value for a sequence that the manual gives no first value, below 2^31 (log entry 20). -/
def freeStart (k : Nat) : Nat := (Config.freeWord k).toNat % 2 ^ 31

/-- The layout of the area as its sector headers show it: open sectors by SSEQ, sectors to erase, erase counts, the
append position and the next SSEQ. -/
def readLayout (s : State) : State :=
  let n := s.journal.nsec
  let hs := (List.range n).filterMap (fun k => (sectorHeader s k).map (fun h => (k, h.1, h.2)))
  let order := hs.foldl (fun l h => bySeq h.1 h.2.1 l) []
  let secs := order.map (·.1)
  let dirty := (List.range n).filter (fun k => (sectorHeader s k).isNone && !blank s (secOff s.journal k) 4096)
  { s with
    free := s.free + 1
    journal := { s.journal with
      secs := secs, dirty := dirty, ecount := hs.map (fun h => (h.1, h.2.2))
      sseq := match order.getLast? with | some (_, q) => q + 1 | none => freeStart s.free
      hpos := match secs.getLast? with | some k => appendPos (flashBytes s (secOff s.journal k) 4096) | none => 0
      gc := decide (secs.length + dirty.length = n) && dirty.isEmpty } }

/-- The groups of all open sectors, oldest sector first, from HEAD in the sector that holds it. -/
def groupsFrom (s : State) (head : Nat) (fromSec : Option Nat) : List Found :=
  let secs := match fromSec with
    | none => s.journal.secs
    | some k => s.journal.secs.dropWhile (· != k)
  secs.flatMap (fun k => walkSector 300 s k (if some k = fromSec then max 32 (head % 4096) else 32))

/-- The GSEQ of the next group: one above the highest found (R467); with none found a free value (log entry 20). -/
def nextSeq (top : Option Nat) (k : Nat) : Nat := match top with | some n => (n + 1) % 2 ^ 32 | none => freeStart k

/-- INDEXED power-up from a checkpoint (R473). -/
def loadCk (k : Nat) (ckseq head lastg : Nat) (ents : List JEnt) (s : State) : State :=
  let gs := (groupsFrom s head (some (head / 4096))).filter (fun g => lastg < g.gseq)
  { s with journal := { s.journal with
      st := .ready, ckCur := some k, ckSeq := ckseq
      index := applyGroups gs ents, gseq := nextSeq (topSeq gs (some lastg)) 0 } }

/-- The journal's decision at reset: the state, JMODE and whether READY sets now (Table 4.7, R154, R155). In tethered
flight a scan starts at once. -/
def decideJournal (s : State) : State × Bool :=
  let jmode (n : BitVec 2) (s : State) : State := { s with boot := { s.boot with jmode := n } }
  match findDescriptor s with
  | none => (jmode 0 s, true)
  | some (i, b, n) =>
    let s := readLayout { s with journal := { s.journal with dslot := i, base := b, nsec := n } }
    let held (m : BitVec 2) : State × Bool :=
      (jmode m { s with journal := { s.journal with
        st := .held, scan := if s.boot.mode then none else some s.time.phys } }, false)
    match readCk s 0, readCk s 1 with
    | .valid q h _ l e, .valid q' h' _ l' e' =>
      (jmode 1 (if q < q' then loadCk 1 q' h' l' e' s else loadCk 0 q h l e s), true)
    | .valid q h _ l e, _ => (jmode 1 (loadCk 0 q h l e s), true)
    | _, .valid q h _ l e => (jmode 1 (loadCk 1 q h l e s), true)
    | .none, .none => held 2
    | _, _ => held 3

end Sys2Proof.Machine
end

