-- ==== Sys2Proof/Machine/Journal.lean ====
section
/-!
DEFINITION. Sys2Proof/Machine/Journal.lean: the journal's instructions and events, JPROG, JERASE and the seal
(spec/16_journal_flash.md).
-/
namespace Sys2Proof.Machine

def State.setJ (s : State) (j : JournalSt) : State := { s with journal := j }
def State.modJ (s : State) (f : JournalSt → JournalSt) : State := s.setJ (f s.journal)

/-- Argument of event 0xA8 (Table 16.6). -/
def journalArg (kind : Nat) (st : BitVec 8) (ten : Tid) (nrec : Nat) : Word :=
  toWord (st.toNat + put ten.val 8 + put (nrec % 256) 16 + put kind 28)

/-- Event 0xA8 in this clock. -/
def journalEvent (kind : Nat) (st : BitVec 8) (ten : Tid) (nrec : Nat) (s : State) : State :=
  s.event 0xA8 (journalArg kind st ten nrec) s.time.hive

/-! ## Gather buffer and limits (R462, R463) -/

def GRec.size (g : GRec) : Nat := recSize g.data.length

def gatherBytes (l : List GRec) : Nat := (l.map GRec.size).foldl (· + ·) 0

/-- Live bytes of the committed content. -/
def JournalSt.live (j : JournalSt) : Nat := (j.index.map (fun e => recSize e.len)).foldl (· + ·) 0

/-- C, less the capacity of bad sectors (R463, R470). -/
def JournalSt.cap (j : JournalSt) : Nat := 3072 * (j.nsec - 1 - j.bad.length) - 2048

/-- Keys with a live record, a tombstone or a gathered record, `k` included. -/
def JournalSt.keys (j : JournalSt) (k : Nat) : Nat :=
  ((j.index.map (·.key) ++ j.gather.map (·.key) ++ [k]).eraseDups).length

/-- A record of `len` bytes fits the gather buffer and the projection (R92, R462, R463). -/
def gatherFits (j : JournalSt) (key len : Nat) : Bool :=
  let r := recSize len
  let g := gatherBytes j.gather
  decide (g + r ≤ 2048) && decide (j.live + g + r ≤ j.cap) && decide (j.keys key ≤ 508)

/-! ## Placing and writing groups (R465, R469) -/

/-- The next sector to open: the erased one, or one to be erased first, that follows the head (R465). -/
def nextSector (j : JournalSt) : Option Nat :=
  let first := match j.secs.getLast? with | some k => k + 1 | none => 0
  ((List.range j.nsec).map (fun i => (first + i) % j.nsec)).find?
    (fun k => !j.secs.contains k && !j.bad.contains k)

/-- No erased sector is left (R469). -/
def JournalSt.full (j : JournalSt) : Bool := (nextSector j).isNone

/-- Page runs of `bytes` from an offset (R453). -/
def pageRuns : Nat → Nat → List Byte → List JStep
  | 0, _, _ => []
  | fuel + 1, off, bs =>
    match bs with
    | [] => []
    | _ =>
      let n := 256 - off % 256
      .prog off (bs.take n) :: pageRuns fuel (off + n) (bs.drop n)

/-- The ERASES a sector's header will carry; unknown counts are free values (log entry 20). -/
def erasesOf (j : JournalSt) (k : Nat) (free : Nat) : Nat :=
  match j.ecount.find? (fun e => e.1 == k) with
  | some e => e.2
  | none => (Config.freeWord free).toNat

/-- Room for a group of `size` bytes: its sector and position and the steps that open the sector, with the journal
after them; none when no sector is left. -/
def placeGroup (size : Nat) (s : State) : Option ((Nat × Nat) × List JStep × State) :=
  let j := s.journal
  let here : Option (Nat × Nat) :=
    match j.secs.getLast? with
    | some k => if j.hpos + size ≤ 4096 then some (k, j.hpos) else none
    | none => none
  match here with
  | some p => some (p, [], s.setJ { j with hpos := j.hpos + size })
  | none =>
    match nextSector j with
    | none => none
    | some k =>
      let er := erasesOf j k s.free + (if j.dirty.contains k then 1 else 0)
      let pre := (if j.dirty.contains k then [JStep.erase (secOff j k)] else []) ++
        [JStep.prog (secOff j k) (sectorHeaderBytes j.sseq er)]
      let j := { j with
        secs := j.secs ++ [k], dirty := j.dirty.filter (· != k), hpos := 32 + size, sseq := (j.sseq + 1) % 2 ^ 32
        ecount := (k, er) :: j.ecount.filter (fun e => e.1 != k) }
      some ((k, 32), pre, { (s.setJ { j with gc := j.gc || j.full }) with free := s.free + 1 })

/-- The steps of a group at a place: its page runs and its commit mark (R465). -/
def groupSteps (j : JournalSt) (at_ : Nat × Nat) (body : List Byte) : List JStep :=
  let off := secOff j at_.1 + at_.2
  pageRuns 17 off (groupBytes j.gseq body) ++ [.prog (off + 12) [0, 0]]

/-- The body of a group of records (key, tenant, data). -/
def groupBody (l : List (Nat × Nat × List Byte)) : List Byte := l.flatMap (fun r => recordBytes r.1 r.2.1 r.2.2)

/-- Index entries of a group's records, from the area offset of the first. -/
def groupEntries : Nat → List (Nat × Nat × List Byte) → List JEnt
  | _, [] => []
  | off, (k, t, d) :: r => ⟨k, d.length, t, off⟩ :: groupEntries (off + recSize d.length) r

/-- A group's commit mark ends: its records are visible, NCOMMIT counts, and a checkpoint may fall due (R466, R471). -/
def groupVisible (at_ : Nat × Nat) (recs : List (Nat × Nat × List Byte)) (j : JournalSt) : JournalSt :=
  let size := 16 + (groupBody recs).length
  let since := j.sinceCk + size
  { j with
    index := (groupEntries (at_.1 * 4096 + at_.2 + 16) recs).foldl (fun ix e => indexPut e ix) j.index
    gseq := (j.gseq + 1) % 2 ^ 32, ncommit := j.ncommit + 1, sinceCk := since
    ckDue := j.ckDue || decide (8192 ≤ since) }

/-! ## Background steps (R469 to R471) -/

/-- The tail's records that garbage collection copies: the newest of their keys, tombstones apart. -/
def tailLive (j : JournalSt) (tail : Nat) : List JEnt := j.index.filter (fun e => e.off / 4096 == tail && e.len != 0)

/-- The first records of a list within 2,048 record bytes. -/
def takeRecs : Nat → List JEnt → List JEnt
  | _, [] => []
  | room, e :: r => if recSize e.len ≤ room then e :: takeRecs (room - recSize e.len) r else []

/-- The data of an indexed record. -/
def recData (s : State) (e : JEnt) : List Byte := flashBytes s (s.journal.base * 4096 + e.off + 4) e.len

/-- A sector of the area is erased: its erase count rises and, where it was the tail, its tombstones go (R469). -/
def sectorErased (k : Nat) (s : State) : State :=
  let j := s.journal
  { (applyStep (.erase (secOff j k)) (s.setJ { j with
      secs := j.secs.filter (· != k), dirty := j.dirty.filter (· != k)
      index := j.index.filter (fun e => e.off / 4096 != k)
      ecount := (k, erasesOf j k s.free + 1) :: j.ecount.filter (fun e => e.1 != k) })) with free := s.free + 1 }

/-- The flash steps of a step of garbage collection. -/
def gcSteps (s : State) : List JStep :=
  match s.journal.secs with
  | tail :: _ :: _ =>
    match takeRecs 2048 (tailLive s.journal tail) with
    | [] => [.erase (secOff s.journal tail)]
    | es =>
      let body := groupBody (es.map (fun e => (e.key, e.ten, recData s e)))
      match placeGroup (16 + body.length) s with
      | some (p, pre, s) => pre ++ groupSteps s.journal p body
      | none => []
  | _ => []

/-- The checkpoint that is due: its sector, CKSEQ and flash steps (R471, Table 16.4). -/
def ckPlan (s : State) : Nat × Nat × List JStep :=
  let j := s.journal
  let k := match j.ckCur with | some 0 => 1 | _ => 0
  let off := (j.base + j.nsec + k) * 4096
  let q := match j.ckCur with | some _ => (j.ckSeq + 1) % 2 ^ 32 | none => freeStart s.free
  let hs := match j.secs.getLast? with
    | some h => (match sectorHeader s h with | some (x, _) => x | none => 0)
    | none => (Config.freeWord s.free).toNat
  (k, q, .erase off :: pageRuns 17 off (ckBytes j q hs))

/-- The flash steps of the background step in progress or suspended; none when none is (R469 to R471). -/
def bgSteps (s : State) : List JStep :=
  let j := s.journal
  if j.st ≠ .ready ∧ j.st ≠ .run then []
  else if j.gc then gcSteps s
  else match j.dirty with
    | k :: _ => [.erase (secOff j k)]
    | [] => if j.ckDue then (ckPlan s).2.2 else []

/-- One step of garbage collection: a group of the tail's live records is copied and committed, or, with none left,
the tail is erased and becomes the reserve. The Bool says whether anything was done. -/
def gcStep (s : State) : Bool × State :=
  let j := s.journal
  match j.secs with
  | tail :: _ :: _ =>
    match takeRecs 2048 (tailLive j tail) with
    | [] => (true, (sectorErased tail s).modJ (fun j => { j with gc := false }))
    | es =>
      let recs := es.map (fun e => (e.key, e.ten, recData s e))
      match placeGroup (16 + (groupBody recs).length) s with
      | none => (false, s)
      | some (p, pre, s) =>
        (true, (applySteps (pre ++ groupSteps s.journal p (groupBody recs)) s).modJ (groupVisible p recs))
  | _ => (false, s)

/-- A background step may run (R470). -/
def bgMay (s : State) : Bool :=
  s.running && s.journal.st == .ready && s.journal.op.isNone && !s.journal.hold && s.therm.stop.isNone

/-- GC_STEP: garbage collection copies a group or erases the tail; with none due, a sector whose header is not valid
is erased (R469, section 16.7). -/
def execGcStep (s : State) : Out :=
  .next (if bgMay s then
      if s.journal.gc then (gcStep s).2
      else match s.journal.dirty with
        | k :: _ => sectorErased k s
        | [] => s
    else s)

/-- CHECKPOINT_WRITE: the older checkpoint sector is erased and programmed (R471). -/
def execCheckpointWrite (s : State) : Out :=
  .next (if bgMay s = true ∧ s.journal.ckDue = true then
      let (k, q, steps) := ckPlan s
      let s := applySteps steps s
      { (s.modJ (fun j => { j with ckDue := false, sinceCk := 0, ckCur := some k, ckSeq := q })) with
        free := s.free + 1 }
    else s)

/-! ## Commits (R465, R466) -/

/-- The gathered records that a commit takes. -/
def busyRecs (j : JournalSt) : List (Nat × Nat × List Byte) :=
  (j.gather.filter (·.busy)).map (fun g => (g.key, g.ten.val, g.data))

/-- A commit of the records marked busy starts: RUN, with its group placed where there is room (R465). -/
def startCommit (ten : Tid) (stop : Bool) (s : State) : State :=
  let body := groupBody (busyRecs s.journal)
  let op (steps : List JStep) (p : Nat × Nat) (s : State) : State :=
    s.modJ (fun j => { j with st := .run, op := some ⟨.commit stop, ten, steps, p, s.time.phys, none, 0⟩ })
  match placeGroup (16 + body.length) s with
  | some (p, pre, s) => op (pre ++ groupSteps s.journal p body) p s
  | none => op [] (0, 0) s

/-- Garbage collection completed until a group of `size` bytes finds room (R465). -/
def collectFor : Nat → Nat → State → Option ((Nat × Nat) × List JStep × State)
  | 0, _, _ => none
  | n + 1, size, s =>
    match placeGroup size s with
    | some r => some r
    | none =>
      match gcStep s with
      | (true, s) => collectFor n size s
      | (false, _) => none

/-- Records of each tenant, ascending tenant, each in gather order, all marked for one group (section 16.6 Edges). -/
def markAll (l : List GRec) : List GRec :=
  (allIx 32).flatMap (fun t => (l.filter (fun g => g.ten == t)).map (fun g => { g with busy := true }))

/-- Step 2 of the orderly stop commits what is gathered as one group, once nothing else runs (Table 7.5). -/
def stopGroup (s : State) : State :=
  if s.journal.gather.isEmpty ∨ s.journal.st ≠ .ready then s
  else startCommit 0 true (s.modJ (fun j => { j with gather := markAll j.gather }))

/-- Whether step 2 of the orderly stop runs. -/
def inStopCommit (s : State) : Bool := match s.therm.stop with | some t => t.step == 2 | none => false

/-- An operation has ended: READY again, and in step 2 of the orderly stop the next group starts. -/
def opEnded (s : State) : State :=
  let s := s.modJ (fun j => { j with st := .ready, op := none })
  if inStopCommit s then stopGroup s else s

/-- COMMIT_DONE: the commit mark ends; the records are visible and leave the gather buffer, and 0xA8 KIND 1 is raised
in the next clock (R466). A commit that no sector can hold ends with ST_TIMEOUT (log entry 21). -/
def commitDone (s : State) : State :=
  match s.journal.op with
    | some o =>
      match o.kind with
      | .commit stop =>
        if s.running = false ∨ o.suspended s.time.phys = true then s
        else
          let recs := busyRecs s.journal
          let place := if o.steps.isEmpty then
              (match collectFor 2000 (16 + (groupBody recs).length) s with
               | some (p, pre, s) => some (p, pre ++ groupSteps s.journal p (groupBody recs), s)
               | none => none)
            else some (o.at_, o.steps, s)
          match place with
          | some (p, steps, s) =>
            let s := (applySteps steps s).modJ (groupVisible p recs)
            let s := s.modJ (fun j => { j with
              gather := j.gather.filter (fun g => !g.busy), stopDone := j.stopDone || inStopCommit s })
            opEnded (s.eventNext 0xA8 (journalArg 1 stOk (if stop then 0 else o.ten) recs.length))
          | none =>
            opEnded ((s.modJ (fun j => { j with gather := j.gather.map (fun g => { g with busy := false }) })).eventNext 0xA8
              (journalArg 1 stTimeout (if stop then 0 else o.ten) 0))
      | .prog => s
      | .erase => s
    | none => s

/-- COMMIT_DONE. -/
def execCommitDone (s : State) : Out :=
  .next (unlessEarlyIf (fun i => match i with | .commitDone => true | _ => false) commitDone s)

/-! ## JPROG and JERASE (R451 to R457) -/

/-- KIND of 0xA8 for an operation. -/
def JKind.num : JKind → Nat
  | .commit _ => 1
  | .prog => 2
  | .erase => 3

/-- Max time of steps in ticks (Table 16.7): 80 µs a page run and 0.75 µs a byte; 120 ms an erase. -/
def maxTime : List JStep → Nat
  | [] => 0
  | .prog _ bs :: r => usTicks 80 + 144 * bs.length + maxTime r
  | .erase _ :: r => usTicks 120000 + maxTime r

/-- FLASH_OP_DONE: a JPROG or JERASE ends within its Max time (R455). -/
def flashOpDone (s : State) : State :=
  match s.journal.op with
    | some o =>
      if s.running = true ∧ o.suspended s.time.phys = false ∧ o.kind.num ≠ 1 ∧ s.time.phys ≤ o.limit then
        opEnded (journalEvent o.kind.num stOk o.ten 0 (applySteps o.steps s))
      else s
    | none => s

/-- FLASH_OP_DONE. -/
def execFlashOpDone (s : State) : Out :=
  .next (unlessEarlyIf (fun i => match i with | .flashOpDone => true | _ => false) flashOpDone s)

/-- FLASH_OP_TIMEOUT: a JPROG or JERASE that has not ended within its Max time is stopped, its range undefined (R455);
with none in progress, the erase of a background step exceeds it: the sector is bad (R470). -/
def flashOpTimeout (s : State) : State :=
  match s.journal.op with
    | some o =>
      if s.running = true ∧ o.suspended s.time.phys = false ∧ o.kind.num ≠ 1 ∧ o.limit < s.time.phys then
        opEnded (journalEvent o.kind.num stTimeout o.ten 0 (scrambleSteps o.steps s))
      else s
    | none =>
      let bad (k : Nat) (s : State) : State :=
        (scrambleSteps [.erase (secOff s.journal k)] s).modJ (fun j => { j with
          bad := j.bad ++ [k], nbad := satInc j.nbad, secs := j.secs.filter (· != k)
          dirty := j.dirty.filter (· != k), index := j.index.filter (fun e => e.off / 4096 != k) })
      if bgMay s then
        if s.journal.gc then
          match s.journal.secs with
          | tail :: _ :: _ => if (tailLive s.journal tail).isEmpty then bad tail s else s
          | _ => s
        else match s.journal.dirty with
          | k :: _ => bad k s
          | [] => s
      else s

/-- FLASH_OP_TIMEOUT. -/
def execFlashOpTimeout (s : State) : Out :=
  .next (unlessEarlyIf (fun i => match i with | .flashOpTimeout => true | _ => false) flashOpTimeout s)

/-- FLASH_OP_RESUME: a suspended operation goes on tRES after the last fill; its time grows by the suspension (R456). -/
def execFlashOpResume (s : State) : Out :=
  .next (match s.journal.op with
    | some o =>
      match o.susp with
      | some x =>
        if s.running = true ∧ x.until_ ≤ s.time.phys then
          s.modJ (fun j => { j with op := some { o with
            susp := none, limit := o.limit + (s.time.phys - x.at_), resumed := s.time.phys } })
        else s
      | none => s
    | none => s)

/-! ## The seal (R476, R477) -/

/-- The arming step is live: within 192,000,000 ticks (R476). -/
def sealLive (s : State) : Bool :=
  match s.journal.arm with | some a => s.time.hive - a ≤ 192000000 | none => false

/-- SEAL_BURN_DONE: the burn ends after 2 ms; the device is sealed (R476). -/
def sealBurnDone (s : State) : State :=
  match s.journal.burn with
    | some p =>
      if s.running = true ∧ p + usTicks 2000 ≤ s.time.phys then
        journalEvent 5 stOk 0 0 (s.modJ (fun j => { j with burn := none, sealed := true }))
      else s
    | none => s

/-- SEAL_BURN_DONE. -/
def execSealBurnDone (s : State) : Out :=
  .next (unlessEarlyIf (fun i => match i with | .sealBurnDone => true | _ => false) sealBurnDone s)

/-- SEAL_ARM_EXPIRY: an arming step is no longer live (R476). -/
def sealArmExpiry (s : State) : State :=
  if s.running = true ∧ s.journal.arm.isSome = true ∧ sealLive s = false then
    s.modJ (fun j => { j with arm := none }) else s

/-- SEAL_ARM_EXPIRY. -/
def execSealArmExpiry (s : State) : Out :=
  .next (unlessEarlyIf (fun i => match i with | .sealArmExpiry => true | _ => false) sealArmExpiry s)

/-! ## Scans (R155, R474) -/

/-- Ticks of a scan: 48 ms per MiB of journal area (R155). -/
def scanTicks (j : JournalSt) : Nat := 192 * 48000 * (j.nsec * 4096) / 2 ^ 20

/-- The instant after which a scan can no longer set READY: the Max of Table 4.4, twice 0.3 ms and the scan's own time;
in free-flying flight, where the scan starts later, 0.3 ms and twice its time from its start (R140, R155; the latter
DEDUCED, log entry 112). -/
def scanMax (s : State) (start : Nat) : Nat :=
  let d := scanTicks s.journal
  if s.boot.mode then start + usTicks 300 + 2 * d else s.boot.relPhys + usTicks 450 + 2 * d

/-- SCAN_END: the scan ends, within its Max time: the index is built, the journal enters READY and sets READY[6], 0xA8
KIND 4 is raised, and a checkpoint falls due (R140, R155, R471, R474, Table 4.7). -/
def scanEnd (s : State) : State :=
    let inTime := match s.journal.scan with
      | some t => decide (t + scanTicks s.journal ≤ s.time.phys) && decide (s.time.phys ≤ scanMax s t)
      | none => false
    if s.running = true ∧ s.journal.st = .held ∧ inTime = true ∧ s.hasFailed .journal = false then
      let gs := groupsFrom s 0 none
      let s := { (s.modJ (fun j => { j with
          st := .ready, scan := none, index := applyGroups gs []
          gseq := nextSeq (topSeq gs none) s.free, nrepair := satAdd j.nrepair j.dirty.length, ckDue := true })) with
        free := s.free + 1
        boot := { s.boot with ready := s.boot.ready ||| BitVec.twoPow 32 (Func.idx .journal) } }
      journalEvent 4 stOk 0 0 s
    else s

/-- SCAN_END. -/
def execScanEnd (s : State) : Out :=
  .next (unlessEarlyIf (fun i => match i with | .scanEnd => true | _ => false) scanEnd s)

/-! ## Loss of power (R467, R477) -/

/-- Some of a list of flash steps are done, in order: how far they have come is a free value. -/
def cutPart (steps : List JStep) (s : State) : State :=
  cutSteps steps ((Config.freeWord s.free).toNat % (stepUnits steps + 1)) { s with free := s.free + 1 }

/-- The flash die and the fuse when power or the reset cuts what runs: the progress of an operation and of a background
step is a free value, and a burn either completes or not. -/
def cutFlash (s : State) : State :=
  let s := match s.journal.op with
    | some o => (cutPart o.steps s).modJ (fun j => { j with op := none })
    | none => s
  let s := cutPart (bgSteps s) s
  match s.journal.burn with
  | some _ => { (s.modJ (fun j => { j with
      burn := none, sealed := j.sealed || Config.freeBool s.free })) with free := s.free + 1 }
  | none => s

/-! ## Status window (Table 16.7a) -/

def journalWindow (s : State) (off : Nat) : Word :=
  let j := s.journal
  match off with
  | 0x00 => toWord (j.st.num + put (bit01 (j.gc || j.ckDue || !j.dirty.isEmpty)) 3 + put (bit01 j.sealed) 4 +
      put (bit01 (sealLive s)) 5 + put j.dslot 8)
  | 0x04 => toWord (j.base + put j.nsec 16)
  | 0x08 => toWord j.head
  | 0x0C => toWord j.gseq
  | 0x10 => toWord j.live
  | 0x14 => toWord (j.live + gatherBytes j.gather)
  | 0x18 => toWord j.index.length
  | 0x1C => toWord (gatherBytes j.gather % 4096 + put (j.gather.length % 256) 16)
  | 0x20 => b16 j.ncrc j.nbad
  | 0x24 => b16 j.nsusp j.nrepair
  | 0x28 => j.ncommit
  | 0x2C => toWord ((j.ecount.map (·.2)).foldl max 0)
  | _ => 0

end Sys2Proof.Machine
end

