-- ==== Sys2Proof/Machine/HiveFmt.lean ====
section
/-!
DEFINITION. Sys2Proof/Machine/HiveFmt.lean: the join block (Table 15.4) and the frames of the hive: the subset of
IEEE 802.15.4 that R409 honours, security (R442) and the hive header (Table 15.6). Field places of the MAC frame are
those of IEEE 802.15.4-2006, which the manual cites (PRESUMED, log entry 25).
-/
namespace Sys2Proof.Machine

/-! ## Join block (Table 15.4) -/

def HiveSt.w (h : HiveSt) (i : Nat) : Word := wordAt h.join i
def HiveSt.hiveId (h : HiveSt) : Nat := fieldOf (h.w 0) 15 0
def HiveSt.hr (h : HiveSt) : Bool := bitOf (h.w 0) 20
def HiveSt.radio (h : HiveSt) : Bool := bitOf (h.w 0) 21
def HiveSt.teth (h : HiveSt) : Nat := fieldOf (h.w 0) 23 22
def HiveSt.sec (h : HiveSt) : Bool := bitOf (h.w 0) 24
def HiveSt.mic64 (h : HiveSt) : Bool := bitOf (h.w 0) 25
def HiveSt.ch (h : HiveSt) : Nat := fieldOf (h.w 0) 19 16
def HiveSt.txpwr (h : HiveSt) : Nat := fieldOf (h.w 1) 20 16
def HiveSt.ccathr (h : HiveSt) : Nat := fieldOf (h.w 2) 7 0
def HiveSt.minbe (h : HiveSt) : Nat := fieldOf (h.w 2) 13 11
def HiveSt.maxbe (h : HiveSt) : Nat := fieldOf (h.w 2) 16 14
def HiveSt.pref (h : HiveSt) : Nat := fieldOf (h.w 1) 6 0
def HiveSt.rprio (h : HiveSt) : Nat := fieldOf (h.w 1) 15 8
def HiveSt.capthr (h : HiveSt) : Nat := fieldOf (h.w 1) 24 21
def HiveSt.capen (h : HiveSt) : Bool := bitOf (h.w 1) 25
def HiveSt.retry (h : HiveSt) : Nat := fieldOf (h.w 2) 10 8
def HiveSt.maxbo (h : HiveSt) : Nat := fieldOf (h.w 2) 19 17
def HiveSt.syncper (h : HiveSt) : Nat := fieldOf (h.w 2) 22 20
def HiveSt.lqimin (h : HiveSt) : Nat := fieldOf (h.w 2) 31 24

/-- Ts, the sync period in ticks (R432). -/
def HiveSt.ts (h : HiveSt) : Nat := 48000000 * 2 ^ h.syncper

/-- Every field of a join block lies within Table 15.4, and a link is chosen (R410). -/
def joinOk (ws : Words) : Bool :=
  let w0 := wordAt ws 0
  let w1 := wordAt ws 1
  let w2 := wordAt ws 2
  let txpwr := fieldOf w1 20 16
  let capthr := fieldOf w1 24 21
  let ccathr := fieldOf w2 7 0
  let minbe := fieldOf w2 13 11
  let maxbe := fieldOf w2 16 14
  fieldOf w0 15 0 != 0xFFFF && fieldOf w0 23 22 != 3 && zeroBits w0 31 26 && (bitOf w0 21 || fieldOf w0 23 22 != 0) &&
  fieldOf w1 6 0 != 0x7F && !bitOf w1 7 && txpwr ≤ 28 && 3 ≤ capthr && capthr ≤ 12 && zeroBits w1 31 26 &&
  5 ≤ ccathr && ccathr ≤ 60 && 3 ≤ maxbe && maxbe ≤ 8 && minbe ≤ maxbe && fieldOf w2 19 17 ≤ 5 &&
  fieldOf w2 22 20 ≤ 5 && !bitOf w2 23

/-! ## Identity and key -/

/-- The UID of the device (Table 16.5). -/
def uidOf (s : State) : Nat := leNat (flashBytes s 0x7FFFB0 8)

/-- The network key of the sealed page (Table 3.8). -/
def netKey (s : State) : List Byte := flashBytes s 0x7FFF80 16

/-- The network key slot is empty (R122). -/
def keyEmpty (s : State) : Bool := (netKey s).all (· == 0xFF)

/-! ## Security (R442) -/

/-- Security level of the frames that a node sends. -/
def HiveSt.level (h : HiveSt) : Nat := if h.sec then (if h.mic64 then 6 else 5) else 0

/-- MIC octets of a level. -/
def micOctets (level : Nat) : Nat := if level = 6 then 8 else if level = 5 then 4 else 0

/-- The nonce: UID, frame counter and level, highest octet first. -/
def ccmNonce (uid fc level : Nat) : List Byte := beBytes 8 uid ++ beBytes 4 fc ++ [BitVec.ofNat 8 level]

/-! ## Frames -/

/-- The hive header and body (Table 15.6). -/
def HFrame.payload (f : HFrame) : List Byte :=
  [BitVec.ofNat 8 (f.typ + 16), BitVec.ofNat 8 f.orig, BitVec.ofNat 8 (f.fdest + put (bit01 f.e2e) 7),
   BitVec.ofNat 8 (f.hleft + put f.htaken 3), f.sport, f.dport] ++ leBytes 2 f.mseq.toNat ++ f.body

/-- The hive frame of a payload, with the source given; none when VER is not 1 (R418). -/
def readPayload (src : MacSrc) (l : List Byte) : Option HFrame :=
  let g (i : Nat) : Nat := (l.getD i 0).toNat
  if l.length < 8 ∨ g 0 / 16 ≠ 1 then none
  else some
    { typ := g 0 % 16, orig := g 1 % 128, fdest := g 2 % 128, e2e := decide (128 ≤ g 2), hleft := g 3 % 8
      htaken := g 3 / 8 % 8, sport := l.getD 4 0, dport := l.getD 5 0, mseq := BitVec.ofNat 16 (g 6 + 256 * g 7)
      body := l.drop 8, src := src }

/-- The MAC header up to the addresses. -/
def macHeader (level : Nat) (ack : Bool) (ext : Bool) (seq : Byte) (pan dst src : Nat) : List Byte :=
  let fcf := 1 + (if level = 0 then 0 else 8 + 4096) + (if ack then 32 else 0) + 64 + 2048 +
    (if ext then 3 else 2) * 16384
  leBytes 2 fcf ++ [seq] ++ leBytes 2 pan ++ leBytes 2 (if dst = 0x7F then 0xFFFF else dst) ++
  leBytes (if ext then 8 else 2) src

/-- A PSDU: header, auxiliary security header, secured payload, FCS. `uid` and `fc` make the nonce. -/
def buildPsdu (key : List Byte) (level uid fc : Nat) (hdr payload : List Byte) : List Byte :=
  let m :=
    if level = 0 then hdr ++ payload
    else
      let h := hdr ++ [BitVec.ofNat 8 (level + 8)] ++ leBytes 4 fc ++ [1]
      let nonce := ccmNonce uid fc level
      h ++ ccmCrypt key nonce payload ++ ccmMic key nonce (micOctets level) h payload
  m ++ fcs16 m

/-- The acknowledgement of a sequence number. -/
def ackPsdu (seq : Byte) : List Byte := [2, 0, seq] ++ fcs16 [2, 0, seq]

/-- A data frame as the MAC reads it. -/
structure MacData where
  ack : Bool
  seq : Byte
  pan : Nat
  dst : Nat
  ext : Bool
  src : Nat
  level : Nat
  fc : Nat
  /-- octets before the payload -/
  hdr : List Byte
  /-- payload, secured or not, MIC apart -/
  payload : List Byte
  mic : List Byte

/-- What a received PSDU is to the MAC (Table 15.3). -/
inductive MacRes where
  /-- too short, or its FCS fails: no frame -/
  | bad
  /-- an option marked "no" in Table 15.3 (R409) -/
  | foreign
  | ack (seq : Byte)
  | data (m : MacData)

/-- Addresses read; the auxiliary security header and payload follow. -/
def readSecured (m : MacData) (rest : List Byte) : MacRes :=
  let c := (rest.getD 0 0).toNat
  let lv := c % 8
  if (lv ≠ 5 ∧ lv ≠ 6) ∨ c / 8 ≠ 1 ∨ rest.getD 5 0 ≠ 1 then .foreign
  else
    let p := rest.drop 6
    let n := p.length - micOctets lv
    if rest.length < 6 + micOctets lv then .bad
    else .data { m with
      level := lv, fc := leNat ((rest.drop 1).take 4), hdr := m.hdr ++ rest.take 6, payload := p.take n, mic := p.drop n }

/-- The MAC's reading of a PSDU. -/
def readPsdu (l : List Byte) : MacRes :=
  let body := l.take (l.length - 2)
  if l.length < 5 ∨ 127 < l.length ∨ l.drop (l.length - 2) ≠ fcs16 body then .bad
  else
    let fcf := leNat (l.take 2)
    let sec := fcf / 8 % 2 = 1
    let ver := fcf / 4096 % 4
    let sm := fcf / 16384
    if fcf % 8 = 2 then (if l.length = 5 ∧ ver < 2 then .ack (l.getD 2 0) else .foreign)
    else if fcf % 8 ≠ 1 ∨ 2 ≤ ver ∨ fcf / 64 % 2 = 0 ∨ fcf / 1024 % 4 ≠ 2 ∨ sm < 2 ∨ (sec ∧ ver = 0) then .foreign
    else
      let n := if sm = 3 then 15 else 9
      let dst := leNat ((l.drop 5).take 2)
      if body.length < n then .bad
      else if sm = 3 ∧ dst ≠ 0xFFFF then .foreign
      else
        let m : MacData :=
          { ack := fcf / 32 % 2 == 1, seq := l.getD 2 0, pan := leNat ((l.drop 3).take 2), dst := dst, ext := sm == 3
            src := leNat ((l.drop 7).take (n - 7)), level := 0, fc := 0, hdr := l.take n, payload := body.drop n, mic := [] }
        if sec then readSecured m (body.drop n) else .data m

/-! ## Leases (section 15.4) -/

/-- The leases held, in the order of the table. -/
def HiveSt.leaseList (h : HiveSt) : List Lease := h.leases.toList.filterMap id

/-- The lowest UID's lease of an address (R415; which of two entries resolves an address is DEDUCED, log entry 26). -/
def pickLease : List Lease → Option Lease
  | [] => none
  | l :: r => match pickLease r with
    | none => some l
    | some m => if l.uid ≤ m.uid then some l else some m

def HiveSt.leaseAt (h : HiveSt) (addr : Nat) : Option Lease := pickLease (h.leaseList.filter (fun l => l.addr == addr))

def HiveSt.leaseOf (h : HiveSt) (uid : Nat) : Option Lease := h.leaseList.find? (fun l => l.uid == uid)

/-- One lease entry changed. -/
def modLease (uid : Nat) (g : Lease → Lease) (h : HiveSt) : HiveSt :=
  { h with leases := vmap (Option.map (fun l => if l.uid = uid then g l else l)) h.leases }

/-! ## Receiving: security and the header (R418, R442, R444) -/

/-- A frame that passed the MAC. -/
structure RxPkt where
  f : HFrame
  ext : Bool
  src : Nat
  uid : Option Nat
  fc : Nat
  sec : Bool
  ack : Bool
  seq : Byte
  bcast : Bool

/-- What becomes of a received PSDU. -/
inductive RxClass where
  /-- not for this node, or no frame -/
  | ignore
  | foreign
  | mic
  | replay
  | frame (p : RxPkt)

/-- MacSrc of a received frame, for a relay of it. -/
def MacData.macSrc (m : MacData) : MacSrc := if m.ext then .relay m.src m.fc else .short

/-- The header of a payload that has been read in the clear. -/
def classHeader (m : MacData) (uid : Option Nat) (clear : List Byte) : RxClass :=
  match readPayload m.macSrc clear with
  | none => .foreign
  | some f =>
    if 12 ≤ f.typ then .foreign
    else .frame ⟨f, m.ext, m.src, uid, m.fc, m.level != 0, m.ack, m.seq, m.dst == 0xFFFF⟩

/-- The payload in the clear of a secured frame from a UID, none when its MIC fails. -/
def unsecure (key : List Byte) (uid : Nat) (m : MacData) : Option (List Byte) :=
  let nonce := ccmNonce uid m.fc m.level
  let clear := ccmCrypt key nonce m.payload
  if ccmMic key nonce (micOctets m.level) m.hdr clear = m.mic then some clear else none

/-- UID that a frame's source names. -/
def sourceUid (h : HiveSt) (m : MacData) : Option Nat :=
  if m.ext then some m.src else (h.leaseAt m.src).map (·.uid)

/-- A waggle frame heard by a node that is awake: it carries the broadcast PAN ID and TYPE 11 (R418, R445). -/
def isWaggle (s : State) (m : MacData) : Bool :=
  m.pan == 0xFFFF && m.dst == 0xFFFF &&
  (match (if m.level = 0 then some m.payload
          else (sourceUid s.hive m).bind (fun u => unsecure (netKey s) u m)) with
   | some c => match readPayload .short c with | some f => f.typ == 11 | none => false
   | none => false)

/-- The MAC and the hive header's reading of a PSDU (R409, R418, R442, R444). The address filter of IEEE 802.15.4
takes frames for this node or for all. -/
def classify (s : State) (psdu : List Byte) : RxClass :=
  let h := s.hive
  match readPsdu psdu with
  | .bad => .ignore
  | .ack _ => .ignore
  | .foreign => .foreign
  | .data m =>
    if m.pan ≠ h.hiveId then (if isWaggle s m then .ignore else .foreign)
    else if m.dst ≠ 0xFFFF ∧ (h.addr = 0 ∨ m.dst ≠ h.addr) then .ignore
    else if (m.level ≠ 0) ≠ (h.sec = true) then .mic
    else if m.level = 0 then classHeader m (sourceUid h m) m.payload
    else match sourceUid h m with
      | none => .mic
      | some uid =>
        let old := (h.leaseOf uid).bind (·.fc)
        if (match old with | some c => decide (m.fc ≤ c) | none => false) then .replay
        else match unsecure (netKey s) uid m with
          | none => .mic
          | some clear => classHeader m (some uid) clear

/-- Microseconds that a PSDU of `n` octets is on air (section 15.1). -/
def airUs (hr : Bool) (n : Nat) : Nat := if hr then 160 + (1 + n) * 8 else (6 + n) * 32

/-! ## The frame on air (R407, R408) -/

/-- Chips of a value, the first in its highest bit. -/
def chipsOf (w v : Nat) : List Bool := (List.range w).map (fun i => v.testBit (w - 1 - i))

/-- The chips of an HR symbol (Table 15.1). -/
def hrChips (sym : Nat) : List Bool :=
  chipsOf 8 ([0xD8, 0x6C, 0x36, 0x1B, 0x8D, 0xC6, 0x63, 0xB1, 0x27, 0x93, 0xC9, 0xE4, 0x72, 0x39, 0x9C, 0x4E].getD sym 0)

/-- The chips of an STD symbol: symbol 0, rotated right by four chips a symbol, and from symbol 8 on with the odd-indexed
chips inverted, as IEEE 802.15.4 has them (PRESUMED, log entry 25). -/
def stdChips (sym : Nat) : List Bool :=
  let c := chipsOf 32 0xD9C3522E
  let n := 32 - 4 * (sym % 8)
  let r := c.drop n ++ c.take n
  if sym < 8 then r else mapIdxFrom (fun i b => if i % 2 = 1 then !b else b) 0 r

/-- The chips of an octet, low nibble first. -/
def octetChips (hr : Bool) (o : Byte) : List Bool :=
  let one (n : Nat) : List Bool := if hr then hrChips n else stdChips n
  one (o.toNat % 16) ++ one (o.toNat / 16)

/-- The synchronisation header: four octets of zeros and the SFD, in STD spreading in both modes. -/
def syncHeader (hr : Bool) : List Byte := [0, 0, 0, 0, if hr then 0x7A else 0xA7]

/-- The chips of a frame: synchronisation header, PHR with the length in [6:0], PSDU. -/
def Air.chips (a : Air) : List Bool :=
  (syncHeader a.hr).flatMap (octetChips false) ++
  (BitVec.ofNat 8 (a.psdu.length % 128) :: a.psdu).flatMap (octetChips a.hr)

/-- Centre frequency of a channel in MHz (R407). -/
def carrierMHz (ch : Nat) : Nat := 2405 + 5 * ch

/-- What RF_IO carries: centre frequency, power, and the chip in progress, even-indexed on I and odd-indexed on Q. -/
structure RfOut where
  mhz : Nat
  dbm : Int
  onQ : Bool
  chip : Bool
  deriving DecidableEq, Repr

/-- RF_IO in transmission: 2 Mchip/s (R407). -/
def rfOut (s : State) : Option RfOut :=
  let a := s.hive.air
  let k := (s.time.phys - a.start) / 96
  if a.start ≤ s.time.phys ∧ s.time.phys < s.hive.busyTo then
    (a.chips)[k]?.map (fun c => ⟨carrierMHz a.ch, -20 + (a.pow : Int), k % 2 == 1, c⟩)
  else none

end Sys2Proof.Machine
end

