-- ==== Sys2Proof/Machine/Hive.lean ====
section
/-!
DEFINITION. Sys2Proof/Machine/Hive.lean: the hive fabric (spec/15_hive_fabric.md): links, leases, root, routes, sending
frames on a link, messages, and the hive instructions.
-/
namespace Sys2Proof.Machine

def State.modHive (s : State) (g : HiveSt → HiveSt) : State := { s with hive := g s.hive }

/-! ## Events (R429, Table 15.12) -/

/-- Event 0x71. -/
def linkEvent (kind addr : Nat) (tlink : Bool) (top : Nat) (s : State) : State :=
  s.eventOf 0x71 (toWord (addr % 128 + put (bit01 tlink) 7 + put top 16 + put kind 28))

/-- Event 0x70. -/
def messageEvent (kind : Nat) (tag : BitVec 16) (st : BitVec 8) (reason : Nat) (s : State) : State :=
  s.eventOf 0x70 (toWord (tag.toNat + put st.toNat 16 + put reason 24 + put kind 28))

/-! ## Units of the hive -/

/-- The node takes part: READY, RUN or HELD. -/
def HiveSt.on (h : HiveSt) : Bool := h.st == .ready || h.st == .run || h.st == .held

/-- The hive's tether runs PORT_2 (R411). -/
def tetherOn (s : State) : Bool := s.running && (s.port 2).hive && (s.port 2).st == .run

/-- The radio can transmit now: it is up, idle and in no burst. -/
def radioFree (s : State) : Bool :=
  s.running && s.isReady .radio && s.hive.radio && decide (s.hive.busyTo ≤ s.time.phys) && s.hive.await.isNone &&
  s.hive.sending.isNone && s.hive.burst.isNone

/-- The receiver runs (R448): in READY, RUN and HELD, between transmissions (R437), outside a burst (R446). -/
def listening (s : State) : Bool :=
  s.running && s.isReady .radio && s.hive.radio && s.hive.on && decide (s.hive.busyTo ≤ s.time.phys) &&
  s.hive.burst.isNone

/-- A radio neighbour that is up. -/
def HiveSt.nbrUp (h : HiveSt) (a : Nat) : Bool := h.nbrs.any (fun n => n.addr == a)

/-- The tether link to an address. -/
def HiveSt.peerAt (h : HiveSt) (a : Nat) : Option Peer := h.peers.find? (fun p => p.addr == a && a != 0)

/-- The link of a route is up (R423). -/
def HiveSt.linkUp (h : HiveSt) (next : Nat) (tlink : Bool) : Bool :=
  if tlink then (match h.peerAt next with | some p => p.up | none => false) else h.nbrUp next

def modPeer (pos : Nat) (g : Peer → Peer) (h : HiveSt) : HiveSt :=
  { h with peers := h.peers.map (fun p => if p.pos = pos then g p else p) }

/-! ## Root, parent and hops (R430, R431) -/

/-- One root goes before another: higher RPRIO, then lower UID. -/
def rootBefore (a b : Nat × Nat) : Bool := b.1 < a.1 || (a.1 == b.1 && decide (a.2 < b.2))

/-- The root among the node itself and the roots its RENEWs name. -/
def bestRoot (self : Nat × Nat) (l : List Lease) : Nat × Nat :=
  l.foldl (fun b x => if x.heard = true ∧ rootBefore (x.rootPrio, x.rootUid) b = true then (x.rootPrio, x.rootUid) else b) self

/-- The node is the root that it knows. -/
def isRoot (s : State) : Bool := s.hive.rootUid == uidOf s

/-- A parent goes before another: fewer hops, then the tether, then the lower address. -/
def parentBefore (a b : Nat × Bool × Nat) : Bool :=
  if a.2.2 ≠ b.2.2 then a.2.2 < b.2.2
  else if a.2.1 ≠ b.2.1 then a.2.1
  else a.1 < b.1

/-- The first of a list under an order. -/
def firstBy {α : Type} (before : α → α → Bool) : List α → Option α
  | [] => none
  | a :: r => match firstBy before r with
    | none => some a
    | some b => if before b a then some b else some a

/-- Neighbours that name the root: address, tether, their hops to it. -/
def parentCands (h : HiveSt) : List (Nat × Bool × Nat) :=
  let one (tl : Bool) (a : Nat) : Option (Nat × Bool × Nat) :=
    match h.leaseAt a with
    | some l => if l.heard = true ∧ l.rootUid = h.rootUid then some (a, tl, l.hops) else none
    | none => none
  h.nbrs.filterMap (fun n => one false n.addr) ++
  (h.peers.filter (fun p => p.up && p.addr != 0)).filterMap (fun p => one true p.addr)

/-- The sync parent (R431): none at the root. -/
def parentOf (s : State) : Option (Nat × Bool × Nat) :=
  if isRoot s then none else firstBy parentBefore (parentCands s.hive)

/-- Hops to the root: one more than the parent's; with no parent one more than the fewest that a RENEW held gives
(DESIGN CHOICE, log entry 27). -/
def rootHops (s : State) : Nat :=
  if isRoot s then 0
  else match parentOf s with
    | some p => p.2.2 + 1
    | none =>
      let l := (s.hive.leaseList.filter (fun l => l.heard && l.rootUid == s.hive.rootUid)).map (·.hops)
      l.foldl min 6 + 1

/-- A change of root raises KIND 3 with the root's address; the root applies no trim (R430, R434). -/
def updateRoot (s : State) : State :=
  let h := s.hive
  let self := (h.rprio, uidOf s)
  let r := bestRoot self h.leaseList
  if r = (h.rootPrio, h.rootUid) then s
  else
    let s := s.modHive (fun h => { h with rootPrio := r.1, rootUid := r.2 })
    let addr := if r = self then h.addr else match h.leaseOf r.2 with | some l => l.addr | none => 0
    let s := if r = self then setTrim false 0 s else s
    if h.rootUid = r.2 then s else linkEvent 3 addr false 0 s

/-! ## Routes (R420) -/

/-- A candidate goes before another: fewest hops, then a tether link, then the lower next hop. -/
def candBefore (a b : RouteCand) : Bool :=
  if a.hops ≠ b.hops then a.hops < b.hops
  else if a.tlink ≠ b.tlink then a.tlink
  else a.next < b.next

/-- The entry that the candidates for a destination give. -/
def bestRoute (cands : List RouteCand) (d : Nat) : Route :=
  match firstBy candBefore (cands.filter (fun c => c.dest == d)) with
  | none => Route.none
  | some c => ⟨BitVec.ofNat 7 c.next, c.tlink, BitVec.ofNat 3 c.hops, false, true⟩

/-- The entry of a destination filled again, unless it is pinned; a change is to be advertised (R420). -/
def reselect (h : HiveSt) (d : Nat) : HiveSt :=
  let old := vgetD h.routes d Route.none
  let new := bestRoute h.cands d
  if old.pin = true ∨ new = old then h else { h with routes := vsetD h.routes d new, advNew := true }

/-- Candidates removed by a test, and their destinations' entries filled again. -/
def dropCands (bad : RouteCand → Bool) (h : HiveSt) : HiveSt :=
  let gone := (h.cands.filter bad).map (·.dest)
  gone.foldl reselect { h with cands := h.cands.filter (fun c => !bad c) }

/-- A candidate route put in, or confirmed. -/
def putCand (c : RouteCand) (h : HiveSt) : HiveSt :=
  let same (x : RouteCand) : Bool := x.dest == c.dest && x.next == c.next && x.tlink == c.tlink
  reselect { h with cands := c :: h.cands.filter (fun x => !same x) } c.dest

/-! ## Links going up and down (R419, R440) -/

/-- A radio neighbour comes up. -/
def nbrRise (a : Nat) (s : State) : State :=
  if s.hive.nbrUp a then s
  else linkEvent 4 a false 0 (s.modHive (fun h => { h with nbrs := h.nbrs ++ [⟨a, 0⟩] }))

/-- A radio neighbour goes down: its routes go at once. -/
def nbrFall (a : Nat) (s : State) : State :=
  if s.hive.nbrUp a then
    linkEvent 5 a false 0 (s.modHive (fun h =>
      dropCands (fun c => !c.tlink && c.next == a) { h with nbrs := h.nbrs.filter (fun n => n.addr != a) }))
  else s

/-! ## Leases (R415, R416) -/

/-- A UID has been heard with an address, and perhaps with root information: its lease entry is made or renewed. A
node that finds the table full is not entered (log entry 28). -/
def hearUid (uid addr : Nat) (p : RxPkt) (info : Option (Nat × Nat × Nat × Nat × Byte)) (s : State) : State :=
  if uid = uidOf s ∨ addr = 0 ∨ 0x7F ≤ addr then s
  else
    s.modHive (fun h =>
      let exp := s.time.hive + 5760000000
      let fc := if p.sec then some p.fc else none
      let fill (l : Lease) : Lease :=
        let l := { l with addr := addr, exp := exp }
        match info with
        | some (rp, rootp, rootu, hops, fl) =>
          { l with heard := true, rprio := rp, rootPrio := rootp, rootUid := rootu, hops := hops, flags := fl }
        | none => l
      if (h.leaseOf uid).isSome then modLease uid fill h
      else match (vfind h.leases (·.isNone)).head? with
        | some k => { h with leases := vsetD h.leases k (some (fill ⟨addr, uid, exp, false, 0, 0, 0, 0, 0, fc⟩)) }
        | none => h)

/-- A lease entry leaves the table: every route through it goes, its radio link goes down, and the root is sought
again (R416, R419, R447). Pinned entries stay, since the protocol does not replace them (DEDUCED, log entry 29). -/
def dropLease (uid : Nat) (s : State) : State :=
  match s.hive.leaseOf uid with
  | none => s
  | some l =>
    let s := s.modHive (fun h =>
      { h with leases := vmap (fun o => match o with | some x => if x.uid = uid then none else o | none => none) h.leases })
    let s := nbrFall l.addr s
    updateRoot (s.modHive (dropCands (fun c => c.next == l.addr)))

/-! ## Messages (R425) -/

/-- A message ends: it leaves the transmit buffer, and 0x70 KIND 1 is raised. -/
def endMsg (id : Nat) (st : BitVec 8) (reason : Nat) (s : State) : State :=
  match s.hive.msgs.find? (fun m => m.id == id) with
  | none => s
  | some m =>
    messageEvent 1 m.tag st reason (s.modHive (fun h => { h with
      msgs := h.msgs.filter (fun x => x.id != id)
      txq := h.txq.filter (fun e => e.for_ != .msg id) }))

def rNoRoute : Nat := 1
def rLinkFail : Nat := 2
def rNoPort : Nat := 3
def rNoCred : Nat := 4
def rTtl : Nat := 5
def rLeft : Nat := 6
def rFcExh : Nat := 7

/-- The time at which a message was first sent. -/
def markSent (f : TxFor) (s : State) : State :=
  match f with
  | .msg id => s.modHive (fun h => { h with
      msgs := h.msgs.map (fun m => if m.id = id ∧ m.sentAt = none then { m with sentAt := some s.time.hive } else m) })
  | _ => s

/-- Every LEAVE has gone, to its last octet: the radio powers down and PORT_2 goes to READY (R412). -/
def settleLeave (s : State) : State :=
  let h := s.hive
  if h.leaving.isSome = true ∧ h.txq.isEmpty = true ∧ h.sending = none ∧ h.peers.all (fun p => p.out.isEmpty) = true then
    let s := if (s.port 2).hive then s.modPort 2 (fun x => { x.cleared with st := .ready, hive := false }) else s
    s.modHive (fun h => { h with leaving := none, peers := [] })
  else s

/-- A frame has been sent on its link: acknowledged, accepted by the tether's other end, or broadcast. -/
def frameDone (bcast : Bool) (f : TxFor) (s : State) : State :=
  match f with
  | .msg id =>
    match s.hive.msgs.find? (fun m => m.id == id) with
    | none => s
    | some m =>
      if bcast then
        if m.left ≤ 1 then endMsg id stOk 0 s
        else s.modHive (fun h => { h with msgs := h.msgs.map (fun x => if x.id = id then { x with left := x.left - 1 } else x) })
      else if m.e2e then s
      else endMsg id stOk 0 s
  | .leave => settleLeave s
  | _ => s

/-! ## Frame counter (R443) -/

/-- The next frame counter, none when it is exhausted; the milestone event at each multiple of 65,536. -/
def takeFc (s : State) : Option Nat × State :=
  let n := s.hive.fc
  if 2 ^ 32 ≤ n then (none, s)
  else
    let s := s.modHive (fun h => { h with fc := n + 1 })
    (some n, if (n + 1) % 65536 = 0 ∧ n + 1 < 2 ^ 32 then linkEvent 7 s.hive.addr false ((n + 1) / 2 ^ 24) s else s)

/-- The PSDU of a frame; none when its counter is exhausted. A relayed frame with an extended source keeps the
source's counter (DEDUCED, log entry 30). -/
def makeFrame (f : HFrame) (dst : Nat) (ack : Bool) (seq : Byte) (s : State) : Option (List Byte) × State :=
  let h := s.hive
  let lv := h.level
  let addr := match h.leaving with | some a => a | none => h.addr
  let (ext, src) : Bool × Nat := match f.src with
    | .short => (false, addr)
    | .own => (true, uidOf s)
    | .relay u _ => (true, u)
  let hdr := macHeader lv ack ext seq h.hiveId dst src
  match f.src with
  | .relay u fc => (some (buildPsdu (netKey s) lv u fc hdr f.payload), s)
  | _ =>
    if lv = 0 then (some (buildPsdu [] 0 0 0 hdr f.payload), s)
    else match takeFc s with
      | (none, s) => (none, s)
      | (some fc, s) => (some (buildPsdu (netKey s) lv (uidOf s) fc hdr f.payload), s)

/-! ## Sending -/

/-- The frame begins its CSMA-CA anew: MINBE, and no backoff yet (R409). -/
def TxEnt.anew (h : HiveSt) (e : TxEnt) : TxEnt := { e with nb := 0, be := h.minbe, ready := none }

/-- The first frame of the queue begins a backoff when the radio is free: 0 to 2^BE − 1 units of 320 µs, a free value,
then a CCA of 128 µs (section 15.2). -/
def startBackoff (s : State) : State :=
  match s.hive.txq with
  | e :: rest =>
    if e.ready = none ∧ radioFree s = true ∧ (s.hive.on = true ∨ s.hive.leaving.isSome = true) then
      let n := (Config.freeWord s.free).toNat % 2 ^ e.be
      (s.modHive (fun h => { h with
        txq := { e with ready := some (s.time.phys + n * usTicks 320 + usTicks 128) } :: rest })).nextFree
    else s
  | [] => s

/-- CCA mode 1: the channel is clear when its energy is not above CCATHR (Tables 15.3 and 15.4). -/
def channelClear (h : HiveSt) (dbm : Int) : Bool := decide (dbm ≤ -100 + (h.ccathr : Int))

/-- A frame joins the radio's queue. -/
def enqueueRadio (f : HFrame) (dst : Nat) (ack : Bool) (for_ : TxFor) (s : State) : State :=
  s.modHive (fun h => { h with
    txq := h.txq ++ [⟨f, dst, ack, h.seq, 0, 0, h.minbe, none, for_⟩], seq := h.seq + 1 })

/-- A frame joins the queue of a tether link: length octet and PSDU (R439). -/
def enqueueTether (pos : Nat) (f : HFrame) (dst : Nat) (for_ : TxFor) (s : State) : State :=
  let seq := s.hive.seq
  match makeFrame f dst false seq (s.modHive (fun h => { h with seq := h.seq + 1 })) with
  | (none, s) => match for_ with
    | .msg id => endMsg id stLink rFcExh s
    | _ => s
  | (some psdu, s) =>
    s.modHive (modPeer pos (fun p => { p with out := p.out ++ [⟨BitVec.ofNat 8 psdu.length :: psdu, f, for_⟩] }))

/-- A key enters the duplicate cache of 64 entries (R417). -/
def noteKey (k : DupKey) (s : State) : State := s.modHive (fun h => { h with dups := (k :: h.dups).take 64 })

/-- The key of a frame. -/
def keyOf (f : HFrame) (ext : Bool) (uid now : Nat) : DupKey := ⟨ext, if ext then uid else f.orig, f.typ, f.mseq, now⟩

/-- The key sits in the cache of the last 1 s. -/
def keyHeld (k : DupKey) (h : HiveSt) : Bool :=
  h.dups.any (fun x => x.ext == k.ext && x.who == k.who && x.typ == k.typ && x.mseq == k.mseq &&
    decide (k.at_ < x.at_ + 192000000))

/-- A flooded frame of this node on every link: once on the radio when it is a link, and to each tether peer that
`ok` allows. -/
def floodSend (f : HFrame) (for_ : TxFor) (ok : Peer → Bool) (s : State) : State :=
  let s := noteKey (keyOf f (f.src != .short) (uidOf s) s.time.hive) s
  let s := if s.hive.radio then enqueueRadio f 0x7F false for_ s else s
  forEach (s.hive.peers.filter ok) (fun p s => enqueueTether p.pos f 0x7F for_ s) s

/-- A protocol frame of this node, with the node's next MSEQ. -/
def protoFrame (typ fdest hleft : Nat) (src : MacSrc) (body : List Byte) (s : State) : HFrame × State :=
  (⟨typ, s.hive.addr, fdest, false, hleft, 1, 0, 0, s.hive.mseq, body, src⟩, s.modHive (fun h => { h with mseq := h.mseq + 1 }))

/-- A flooded protocol frame with the node's UID. -/
def floodOwn (typ hleft : Nat) (body : List Byte) (s : State) : State :=
  let (f, s) := protoFrame typ 0x7F hleft .own body s
  floodSend f .proto (fun _ => true) s

/-- RENEW (Table 15.7). -/
def sendRenew (s : State) : State :=
  let h := s.hive
  let flags := bit01 (h.teth == 1) + put (bit01 s.time.valid) 1
  floodOwn 6 3 ([BitVec.ofNat 8 h.addr, BitVec.ofNat 8 h.rprio, BitVec.ofNat 8 h.rootPrio] ++ leBytes 8 h.rootUid ++
    [BitVec.ofNat 8 (rootHops s), BitVec.ofNat 8 flags]) s

/-! ## Route cache (R422, R423) -/

/-- A cache line in force. -/
def lineLive (now : Nat) (l : CacheLine) : Bool := l.valid && decide (now < l.fill + 384000000)

/-- The line in force for a destination. -/
def cacheLine (s : State) (d : Nat) : Option Nat :=
  (vfind s.hive.cache (fun l => lineLive s.time.hive l && l.dest.toNat == d)).head?

/-- What a lookup would give: next hop and link, and the cache line when one is in force. -/
def peekRoute (s : State) (d : Nat) : Option (Nat × Bool × Option Nat) :=
  match cacheLine s d with
  | some k => let l := vgetD s.hive.cache k CacheLine.none; some (l.next.toNat, l.tlink, some k)
  | none =>
    let r := vgetD s.hive.routes d Route.none
    if r.valid then some (r.next.toNat, r.tlink, none) else none

/-- The line to replace: the least recently used (R422). -/
def victimLine (s : State) : Nat := s.hive.lru.getLast?.getD 0

/-- The effect of a lookup on the cache. -/
def commitRoute (d next : Nat) (tlink : Bool) (k : Option Nat) (s : State) : State :=
  let j := match k with | some k => k | none => victimLine s
  s.modHive (fun h =>
    let cache := match k with
      | some _ => h.cache
      | none => vsetD h.cache j ⟨BitVec.ofNat 7 d, BitVec.ofNat 7 next, tlink, true, s.time.hive⟩
    { h with cache := cache, lru := j :: h.lru.filter (· != j) })

/-- A unicast frame to a next hop over its link. -/
def sendVia (f : HFrame) (next : Nat) (tlink : Bool) (for_ : TxFor) (s : State) : State :=
  if tlink then
    match s.hive.peerAt next with
    | some p => enqueueTether p.pos f next for_ s
    | none => s
  else enqueueRadio f next true for_ s

/-- A frame routed to FDEST: none when it is on its way, else the reason of its failure (R423, R426). -/
def routeFrame (f : HFrame) (for_ : TxFor) (s : State) : Option Nat × State :=
  match peekRoute s f.fdest with
  | none => (some rNoRoute, s)
  | some (next, tl, k) =>
    let s := commitRoute f.fdest next tl k s
    if s.hive.linkUp next tl then (none, sendVia f next tl for_ s) else (some rLinkFail, s)

/-- A NACK to the origin of a frame (R426). -/
def sendNack (orig : Nat) (mseq : BitVec 16) (reason : Nat) (s : State) : State :=
  let (f, s) := protoFrame 1 orig 3 .short ([BitVec.ofNat 8 reason, BitVec.ofNat 8 s.hive.addr] ++ leBytes 2 mseq.toNat) s
  (routeFrame f .proto s).2

/-- A frame ends without having been sent on its link. -/
def frameFailed (f : HFrame) (for_ : TxFor) (reason : Nat) (s : State) : State :=
  match for_ with
  | .msg id =>
    if s.hive.msgs.any (fun m => m.id == id && m.e2e && m.sentAt.isSome) then s else endMsg id stLink reason s
  | .forward => if f.typ = 0 then sendNack f.orig f.mseq reason s else s
  | .sreq => s.modHive (fun h => { h with exch := none })
  | .leave => settleLeave s
  | .proto => s

/-- The instants `at0 + n × per` that hive time has reached. -/
def instants (now at0 per : Nat) : Nat := if now < at0 then 0 else (now - at0) / per + 1

/-- A burst begins when none runs (R446). -/
def startBurst (s : State) : State :=
  if s.hive.burst.isSome then s
  else match s.hive.msgs.find? (fun m => m.wag.isSome) with
    | some m => match m.wag with
      | some (ch, n) => s.modHive (fun h => { h with burst := some ⟨m.id, ch, n, s.time.phys⟩ })
      | none => s
    | none => s

/-! ## Status window (Table 15.15) -/

def routeWord (r : Route) : Word :=
  toWord (r.next.toNat + put (bit01 r.tlink) 7 + put r.hops.toNat 8 + put (bit01 r.pin) 11 + put (bit01 r.valid) 12)

/-- The words of a lease entry: address with the RENEW's flags in [15:8] (DESIGN CHOICE, log entry 33), UID, expiry. -/
def leaseWord (l : Option Lease) (i : Nat) : Word :=
  match l with
  | none => 0
  | some l => match i with
    | 0 => toWord (l.addr + put l.flags.toNat 8)
    | 1 => toWord l.uid
    | 2 => toWord (l.uid / 2 ^ 32)
    | _ => toWord l.exp

def cacheWord (now : Nat) (l : CacheLine) (hi : Bool) : Word :=
  if hi then toWord l.fill
  else toWord (l.dest.toNat + put l.next.toNat 7 + put (bit01 l.tlink) 14 + put (bit01 (lineLive now l)) 15)

def hiveWindow (s : State) (off : Nat) : Word :=
  let h := s.hive
  if 0x400 ≤ off ∧ off < 0x600 then routeWord (vgetD h.routes ((off - 0x400) / 4) Route.none)
  else if 0x600 ≤ off ∧ off < 0x700 then
    cacheWord s.time.hive (vgetD h.cache ((off - 0x600) / 8) CacheLine.none) (off % 8 == 4)
  else if 0x800 ≤ off ∧ off < 0xFE0 then leaseWord (vgetD h.leases ((off - 0x800) / 16) none) (off % 16 / 4)
  else match off with
    | 0x000 =>
      let p := if h.on then parentOf s else none
      toWord (h.st.num + put h.addr 8 + put (match p with | some (a, _, _) => a | none => 0) 16 +
        put (bit01 (match p with | some (_, t, _) => t | none => false)) 23 +
        put (if h.on then rootHops s % 8 else 0) 24 + put h.linkwhy.toNat 28)
    | 0x008 => toWord (uidOf s)
    | 0x00C => toWord (uidOf s / 2 ^ 32)
    | 0x010 => toWord h.rootUid
    | 0x014 => toWord (h.rootUid / 2 ^ 32)
    | 0x018 => toWord h.rootPrio
    | 0x01C => toWord h.fc
    | 0x020 => b16 h.ntx h.nrx
    | 0x024 => b16 h.ncapt h.nretry
    | 0x028 => b16 h.nmic h.nreplay
    | 0x02C => b16 h.nforeign h.ncoll
    | 0x030 => b16 h.nrxdrop h.nsyncbad
    | 0x034 => toWord (h.nackFrom.toNat + put h.nackWhy.toNat 8 + put h.nackTag.toNat 16)
    | 0x038 => h.theta
    | _ => 0

end Sys2Proof.Machine
end

