-- ==== Sys2Proof/Machine/HiveEv.lean ====
section
/-!
DEFINITION. Sys2Proof/Machine/HiveEv.lean: what the hive does by itself and on the frames it hears
(spec/15_hive_fabric.md): the swarm call, leases, route advertisements, transmission, floods, time synchronisation,
capture switching and waggle bursts.
-/
namespace Sys2Proof.Machine

/-! ## The radio transmits -/

/-- A PSDU goes on air on a channel after `lead` µs: the radio is busy to its end. -/
def onChannel (ch : Nat) (hr : Bool) (psdu : List Byte) (lead : Nat) (who : Tid) (s : State) : State :=
  s.modHive (fun h => { h with
    air := ⟨psdu, hr, ch, h.txpwr, s.time.phys + usTicks lead⟩
    ntx := satInc h.ntx, busyTo := s.time.phys + usTicks (lead + airUs hr psdu.length), busyFor := who })

/-- A PSDU goes on air on the hive's channel and in its mode. -/
def onAir (psdu : List Byte) (lead : Nat) (who : Tid) (s : State) : State :=
  onChannel s.hive.ch s.hive.hr psdu lead who s

/-- The issuer that Table 6.7 records for a frame. -/
def txOwner (h : HiveSt) (f : TxFor) : Tid :=
  match f with
  | .msg id => match h.msgs.find? (fun m => m.id == id) with | some m => m.owner | none => 0
  | _ => 0

/-- Hive time at the end of the SFD of a frame that starts now: the synchronisation header lasts 160 µs (R432). -/
def sfdEnd (s : State) : Nat := wrap64 (s.time.hive + usTicks 160)

/-- t1 and t3 are written in flight (R432). Neither frame has a turnaround before it: their CCA comes before their
instant. -/
def stamped (f : HFrame) (s : State) : HFrame :=
  if f.typ = 8 then { f with body := leBytes 8 (sfdEnd s) }
  else if f.typ = 9 then { f with body := f.body.take 16 ++ leBytes 8 (sfdEnd s) }
  else f

/-- An entry goes on air `lead` µs from now. With AR its acknowledgement is awaited to the end of the wait of section
15.2; without, it is done when its frame ends. -/
def transmit (lead : Nat) (e : TxEnt) (s : State) : State :=
  let h := s.hive
  let f := stamped e.f s
  match makeFrame f e.dst e.ack e.seq s with
  | (none, s) => frameFailed e.f e.for_ rFcExh s
  | (some psdu, s) =>
    let s := markSent e.for_ (onAir psdu lead (txOwner h e.for_) s)
    let s := if f.typ = 8 then
        s.modHive (fun h => { h with exch := some ⟨sfdEnd s, match h.exch with | some x => x.spoiled | none => false⟩ })
      else s
    if e.ack then
      s.modHive (fun h => { h with await := some (e, h.busyTo + usTicks (if h.hr then 544 else 864)) })
    else s.modHive (fun h => { h with sending := some (e.dst == 0x7F, e.for_, h.busyTo) })

/-- The frame on air has ended. -/
def airEnd (s : State) : State :=
  match s.hive.sending with
  | some (bcast, f, t) =>
    if t ≤ s.time.phys then frameDone bcast f (s.modHive (fun h => { h with sending := none })) else s
  | none => s

/-- What the radio does at the end of a clock: a frame on air ends, the LEAVE of FLEAVE is over, and the next frame begins
its backoff (R412, R425). -/
def radioClock (s : State) : State := if s.running then startBackoff (settleLeave (airEnd s)) else s

/-- FRAME_TRANSMIT: the CCA of the first frame of the queue ends, with the energy that it has found; on a clear channel the
frame is on air after the turnaround (R409, R425). On a busy one BE grows, to MAXBE, and another backoff begins; after
MAXBO of them a unicast frame has failed, and a broadcast begins another run (DEDUCED, log entry 34). -/
def frameTransmit (dbm : Int) (s : State) : State :=
  match s.hive.txq with
  | [] => s
  | e :: rest =>
    let due := match e.ready with | some t => decide (t ≤ s.time.phys) | none => false
    if radioFree s = false ∨ (s.hive.on = false ∧ s.hive.leaving = none) ∨ due = false then s
    else if channelClear s.hive dbm then transmit 192 e (s.modHive (fun h => { h with txq := rest }))
    else if e.nb < s.hive.maxbo then
      s.modHive (fun h => { h with txq := { e with nb := e.nb + 1, be := min (e.be + 1) h.maxbe, ready := none } :: rest })
    else if e.dst = 0x7F then s.modHive (fun h => { h with txq := e.anew h :: rest })
    else frameFailed e.f e.for_ rLinkFail (s.modHive (fun h => { h with txq := rest }))

/-- FRAME_TRANSMIT. -/
def execFrameTransmit (dbm : Int) (s : State) : Out := .next (unlessEarly (.frameTransmit dbm) (frameTransmit dbm) s)

/-- MAC_ACK_RX: the awaited acknowledgement arrives (R425). -/
def macAckRx (fr : RxFrame) (s : State) : State :=
  match s.hive.await, readPsdu fr.psdu with
  | some (e, t), .ack q =>
    if s.running = true ∧ s.hive.on = true ∧ fr.hr = s.hive.hr ∧ s.hive.busyTo ≤ s.time.phys ∧ s.time.phys ≤ t ∧ q = e.seq then
      frameDone false e.for_ (s.modHive (fun h => { h with
        await := none, nrx := satInc h.nrx
        nbrs := h.nbrs.map (fun n => if n.addr = e.dst then { n with fails := 0 } else n) }))
    else s
  | _, _ => s

/-- MAC_ACK_RX. -/
def execMacAckRx (fr : RxFrame) (s : State) : Out := .next (unlessEarly (.macAckRx fr) (macAckRx fr) s)

/-- A unicast frame to a neighbour has exhausted its retries; the third in a row takes the link down (R419). -/
def countExhausted (a : Nat) (s : State) : State :=
  let s := s.modHive (fun h => { h with nbrs := h.nbrs.map (fun n => if n.addr = a then { n with fails := n.fails + 1 } else n) })
  if s.hive.nbrs.any (fun n => n.addr == a && decide (3 ≤ n.fails)) then updateRoot (nbrFall a s) else s

/-- MAC_ACK_TIMEOUT: the wait ends: the frame is retried, or has failed after RETRY retries (R425). -/
def macAckTimeout (s : State) : State :=
  match s.hive.await with
  | some (e, t) =>
    if s.running = true ∧ t ≤ s.time.phys then
      let s := s.modHive (fun h => { h with await := none })
      if e.tries < s.hive.retry then
        s.modHive (fun h => { h with
          nretry := satInc h.nretry
          txq := { e.anew h with tries := e.tries + 1 } :: h.txq
          exch := if e.for_ = .sreq then h.exch.map (fun x => { x with spoiled := true }) else h.exch })
      else frameFailed e.f e.for_ rLinkFail (countExhausted e.dst s)
    else s
  | none => s

/-- MAC_ACK_TIMEOUT. -/
def execMacAckTimeout (s : State) : Out := .next (unlessEarly .macAckTimeout macAckTimeout s)

/-! ## Swarm call (R413, R414) -/

/-- The address to claim: PREF when no other UID's entry holds it, else the lowest that holds no entry and has not
failed; 0 when there is none. -/
def chooseAddr (h : HiveSt) : Nat :=
  let taken (a : Nat) : Bool := h.leaseList.any (fun l => l.addr == a)
  if h.pref ≠ 0 ∧ taken h.pref = false then h.pref
  else ((upFrom 1 126).filter (fun a => !taken a && !h.failed.contains a)).headD 0

/-- The hive claims: READY, or HELD reclaiming (R413, R415). -/
def claiming (s : State) : Bool := s.running && (s.hive.st == .ready || s.hive.st == .held)

/-- CLAIM_SEND: the next of the three CLAIMs is due; the first chooses the address (R413). -/
def claimSend (s : State) : State :=
  let h := s.hive
  if claiming s = true ∧ h.claims < 3 ∧ h.claimAt + h.claims * usTicks 20000 ≤ s.time.hive then
    let s := if h.claims = 0 then s.modHive (fun h => { h with cand := chooseAddr h, beaten := false }) else s
    let s := s.modHive (fun h => { h with claims := h.claims + 1 })
    if s.hive.cand = 0 then s else floodOwn 4 3 [BitVec.ofNat 8 s.hive.cand] s
  else s

/-- CLAIM_SEND. -/
def execClaimSend (s : State) : Out := .next (unlessEarly .claimSend claimSend s)

/-- Instants of RENEW that hive time has reached (R416). -/
def renewInstants (s : State) (a : Nat) : Nat := instants s.time.hive (a * 15000000) 1920000000

/-- An address is held (R413 step 5). -/
def holdAddr (s : State) : State :=
  let a := s.hive.cand
  let s := s.modHive (fun h => { h with
    st := .run, addr := a, cand := 0, claims := 0, renewIx := renewInstants s a
    syncIx := instants s.time.hive (a * 192000) h.ts, advNew := true })
  linkEvent 1 a false 0 (sendRenew s)

/-- SWARM_DECIDE: 140 ms after the first CLAIM the address is held, or the call repeats 1 s later (R413). -/
def swarmDecide (s : State) : State :=
  let h := s.hive
  if claiming s = true ∧ h.claims = 3 ∧ h.claimAt + usTicks 140000 ≤ s.time.hive then
    if h.beaten = true ∨ h.cand = 0 then
      s.modHive (fun h => { h with
        ncoll := satInc h.ncoll, failed := if h.cand = 0 then h.failed else h.cand :: h.failed
        claimAt := h.claimAt + 192000000, claims := 0, cand := 0, beaten := false })
    else holdAddr s
  else s

/-- SWARM_DECIDE. -/
def execSwarmDecide (s : State) : Out := .next (unlessEarly .swarmDecide swarmDecide s)

/-- RENEW_ANSWER: the answer to a CALL is due (R413 step 2). -/
def renewAnswer (s : State) : State :=
  match s.hive.renewDue.find? (fun t => decide (t ≤ s.time.hive)) with
  | some t =>
    if s.running = true ∧ s.hive.st = .run then sendRenew (s.modHive (fun h => { h with renewDue := h.renewDue.erase t }))
    else s
  | none => s

/-- RENEW_ANSWER. -/
def execRenewAnswer (s : State) : Out := .next (unlessEarly .renewAnswer renewAnswer s)

/-- RENEW_SEND: the node's instant of R416 is reached. -/
def renewSend (s : State) : State :=
  let n := renewInstants s s.hive.addr
  if s.running = true ∧ s.hive.st = .run ∧ s.hive.renewIx ≠ n then
    sendRenew (s.modHive (fun h => { h with renewIx := n }))
  else s

/-- RENEW_SEND. -/
def execRenewSend (s : State) : Out := .next (unlessEarly .renewSend renewSend s)

/-- LEASE_EXPIRY: lease entry k expires (R416). -/
def leaseExpiry (k : Fin 128) (s : State) : State :=
  match vgetD s.hive.leases k.val none with
  | some l => if s.running = true ∧ l.exp ≤ s.time.hive then dropLease l.uid s else s
  | none => s

/-- LEASE_EXPIRY. -/
def execLeaseExpiry (k : Fin 128) (s : State) : Out := .next (unlessEarly (.leaseExpiry k) (leaseExpiry k) s)

/-! ## Route advertisement (R420) -/

/-- The pairs that a link is told: destinations within 3 hops whose next hop is not that link. -/
def advPairs (h : HiveSt) (a : Nat) (tlink : Bool) : List (List Byte) :=
  (upFrom 1 126).filterMap (fun d =>
    let r := vgetD h.routes d Route.none
    if r.valid = true ∧ r.hops.toNat ≤ 3 ∧ (r.next.toNat ≠ a ∨ r.tlink ≠ tlink) then
      some (leBytes 2 (d + put r.hops.toNat 8))
    else none)

/-- ROUTEADV frames to one link, 46 pairs to a frame, at least one frame. -/
def advertise (a : Nat) (tlink : Bool) (s : State) : State :=
  let ps := advPairs s.hive a tlink
  let runs := if ps.isEmpty then [[]] else runsOf 46 4 ps
  forEach runs (fun l s =>
    let (f, s) := protoFrame 7 a 0 .short l.flatten s
    sendVia f a tlink .proto s) s

/-- ROUTEADV_SEND: 10 s after the last one, or after a change of the table (R420). -/
def routeadvSend (s : State) : State :=
  let h := s.hive
  if s.running = true ∧ h.st = .run ∧ (h.advNew = true ∨ h.advAt + 1920000000 ≤ s.time.hive) then
    let s := s.modHive (fun h => { h with advNew := false, advAt := s.time.hive })
    let s := forEach (h.nbrs.map (·.addr)) (fun a s => advertise a false s) s
    forEach ((h.peers.filter (fun p => p.up && p.addr != 0)).map (·.addr)) (fun a s => advertise a true s) s
  else s

/-- ROUTEADV_SEND. -/
def execRouteadvSend (s : State) : Out := .next (unlessEarly .routeadvSend routeadvSend s)

/-- ROUTE_EXPIRY: candidate routes to a destination not confirmed for 35 s go (R420). -/
def routeExpiry (a : Fin 128) (s : State) : State :=
  let old (c : RouteCand) : Bool := c.dest == a.val && decide (c.seen + 6720000000 ≤ s.time.hive)
  if s.running = true ∧ s.hive.cands.any old = true then s.modHive (dropCands old) else s

/-- ROUTE_EXPIRY. -/
def execRouteExpiry (a : Fin 128) (s : State) : Out := .next (unlessEarly (.routeExpiry a) (routeExpiry a) s)

/-- CACHE_LINE_EXPIRY: a line 2.0 s after its fill (R422). -/
def cacheLineExpiry (k : Fin 32) (s : State) : State :=
  let l := vget s.hive.cache k
  if s.running = true ∧ l.valid = true ∧ l.fill + 384000000 ≤ s.time.hive then
    s.modHive (fun h => { h with cache := vset h.cache k { l with valid := false } })
  else s

/-- CACHE_LINE_EXPIRY. -/
def execCacheLineExpiry (k : Fin 32) (s : State) : Out := .next (unlessEarly (.cacheLineExpiry k) (cacheLineExpiry k) s)

/-! ## Receiving -/

/-- How a frame came: by radio or from a tether peer, with the items of Table 15.11. -/
structure RxCtx where
  radio : Bool
  pos : Nat
  lqi : Byte
  rssi : Byte
  /-- RXT: hive time of the SFD, or of the SEL capture -/
  rxt : Nat

/-- A frame is accepted: counted, its counter kept (R444), its tether peer's address learned, its acknowledgement
sent (R428). -/
def acceptPkt (x : RxCtx) (p : RxPkt) (s : State) : State :=
  let s := s.modHive (fun h =>
    let h := { h with nrx := satInc h.nrx }
    let h := match p.uid with
      | some u => if p.sec then modLease u (fun l => { l with fc := some p.fc }) h else h
      | none => h
    if x.radio = false ∧ p.ext = false ∧ p.f.htaken ≤ 1 then modPeer x.pos (fun q => { q with addr := p.src }) h else h)
  if x.radio = true ∧ p.ack = true ∧ p.bcast = false then onAir (ackPsdu p.seq) 192 0 s else s

/-- A flooded frame: relayed once, 0 to 9 ms later (R417). A node without an address relays nothing (log entry 35). -/
def noteFlood (x : RxCtx) (p : RxPkt) (s : State) : State :=
  let key := keyOf p.f p.ext (p.uid.getD p.src) s.time.hive
  if keyHeld key s.hive then s
  else
    let s := noteKey key s
    if p.f.hleft = 0 ∨ s.hive.st ≠ .run then s
    else s.modHive (fun h => { h with relays := h.relays ++
      [⟨{ p.f with hleft := p.f.hleft - 1, htaken := (p.f.htaken + 1) % 8 },
        s.time.hive + uidOf s % 10 * usTicks 1000, x.radio, x.pos⟩] })

/-- A relayed copy that the duplicate cache discards (R417). -/
def isCopy (p : RxPkt) (s : State) : Bool :=
  decide (2 ≤ p.f.htaken) && keyHeld (keyOf p.f p.ext (p.uid.getD p.src) s.time.hive) s.hive

/-- FLOOD_RELAY: a relay is due; it goes out on every link but the one it came on (R417). On the radio, which reaches
every neighbour at once, it goes out also when it came by radio (DEDUCED, log entry 36). -/
def floodRelay (s : State) : State :=
  match s.hive.relays.find? (fun r => decide (r.due ≤ s.time.hive)) with
  | some r =>
    if s.running = true ∧ s.hive.on = true then
      let s := s.modHive (fun h => { h with relays := h.relays.erase r })
      let s := if s.hive.radio then enqueueRadio r.f 0x7F false .proto s else s
      forEach (s.hive.peers.filter (fun p => p.up && (r.radio || p.pos != r.pos)))
        (fun p s => enqueueTether p.pos r.f 0x7F .proto s) s
    else s
  | none => s

/-- FLOOD_RELAY. -/
def execFloodRelay (s : State) : Out := .next (unlessEarly .floodRelay floodRelay s)

/-- A holder yields its address and claims again from step 3 (R415). -/
def yieldAddr (s : State) : State :=
  let a := s.hive.addr
  linkEvent 2 a false 0 (s.modHive (fun h => { h with
    st := .held, addr := 0, claimAt := s.time.hive, claims := 0, cand := 0, beaten := false }))

/-- CALL (R413 step 2). -/
def onCall (s : State) : State :=
  if s.hive.st = .run then
    s.modHive (fun h => { h with renewDue := h.renewDue ++ [s.time.hive + uidOf s % 50 * usTicks 1000] })
  else s

/-- CLAIM (R413 step 5, R415). -/
def onClaim (p : RxPkt) (s : State) : State :=
  let a := (p.f.body.getD 0 0).toNat % 128
  let u := p.uid.getD p.src
  let s := hearUid u a p none s
  let h := s.hive
  if u = uidOf s then s
  else if h.st = .run ∧ a = h.addr then floodOwn 5 3 [BitVec.ofNat 8 a] s
  else if h.claims ≠ 0 ∧ a = h.cand ∧ u < uidOf s then s.modHive (fun h => { h with beaten := true })
  else s

/-- DEFEND (R413 step 5, R415). -/
def onDefend (p : RxPkt) (s : State) : State :=
  let a := (p.f.body.getD 0 0).toNat % 128
  let u := p.uid.getD p.src
  let s := hearUid u a p none s
  let h := s.hive
  if u = uidOf s then s
  else if h.st = .run ∧ a = h.addr ∧ u < uidOf s then yieldAddr s
  else if h.claims ≠ 0 ∧ a = h.cand then s.modHive (fun h => { h with beaten := true })
  else s

/-- RENEW (R415, R419, R430). -/
def onRenew (x : RxCtx) (p : RxPkt) (s : State) : State :=
  let b (i : Nat) : Nat := (p.f.body.getD i 0).toNat
  if p.f.body.length < 13 then s
  else
    let a := b 0 % 128
    let u := p.uid.getD p.src
    if u = uidOf s then s
    else
      let info := (b 1, b 2, leNat ((p.f.body.drop 3).take 8), b 11, BitVec.ofNat 8 (b 12))
      let s := hearUid u a p (some info) s
      let direct := decide (p.f.htaken ≤ 1)
      let s := if direct = true ∧ x.radio = false then s.modHive (modPeer x.pos (fun q => { q with addr := a })) else s
      let s := if direct = true ∧ x.radio = true ∧ s.hive.lqimin ≤ x.lqi.toNat ∧ a ≠ 0 ∧ a ≠ 0x7F then nbrRise a s else s
      let s := if s.hive.st = .run ∧ a = s.hive.addr ∧ u < uidOf s then yieldAddr s else s
      updateRoot s

/-- The destinations and hops of a ROUTEADV. -/
def advEntries : List Byte → List (Nat × Nat)
  | a :: b :: r => (a.toNat % 128, b.toNat % 8) :: advEntries r
  | _ => []

/-- ROUTEADV from a neighbour over a link that is up (R420). -/
def onRouteadv (x : RxCtx) (p : RxPkt) (s : State) : State :=
  if p.ext = true ∨ s.hive.linkUp p.src (!x.radio) = false then s
  else
    let cand (d hops : Nat) : RouteCand := ⟨d, p.src, !x.radio, hops, s.time.hive⟩
    let one (e : Nat × Nat) (h : HiveSt) : HiveSt :=
      if e.1 = 0 ∨ e.1 = 0x7F ∨ e.1 = h.addr ∨ e.1 = p.src ∨ 4 < e.2 + 1 then h else putCand (cand e.1 (e.2 + 1)) h
    s.modHive (fun h => (advEntries p.f.body).foldl (fun h e => one e h) (putCand (cand p.src 1) h))

/-- The item of Table 15.11. -/
def messageItem (x : RxCtx) (p : RxPkt) : List QSlot :=
  let data := wordsOfBytes p.f.body
  let w0 := toWord (p.f.orig + put (bit01 (p.f.fdest == 0x7F)) 7 + put p.f.sport.toNat 8 + put (data.length % 32) 16 +
    put (bit01 p.sec) 21 + put (bit01 (!x.radio)) 22 + put p.f.htaken 23)
  let w1 := toWord (p.f.mseq.toNat + put x.lqi.toNat 16 + put x.rssi.toNat 24)
  let ws := [w0, w1, toWord x.rxt, toWord (x.rxt / 2 ^ 32)] ++ data
  slotsOf (mapIdxFrom (fun i w => (w, if i = 0 then 1 else if i + 1 = ws.length then 8 else 0)) 0 ws)

/-- A message at its destination (R428): none when the queue took it, else the reason. -/
def deliverMsg (x : RxCtx) (p : RxPkt) (s : State) : Option Nat × State :=
  match s.hive.fmap.find? (fun m => m.port == p.f.dport) with
  | none => (some rNoPort, s)
  | some m =>
    let item := messageItem x p
    let q := s.queue m.queue
    let took := q.st == .run && q.prod == 2 && decide (item.length ≤ q.cred)
    let s := if q.prod = 2 then writeItem m.queue item s else s
    (if took then none else some rNoCred, s)

/-- A unicast frame for another node: forwarded, or answered with NACK (R426). -/
def forwardPkt (p : RxPkt) (s : State) : State :=
  let f := { p.f with src := .short }
  let nack (why : Nat) (s : State) : State := if f.typ = 0 then sendNack f.orig f.mseq why s else s
  if f.hleft = 0 then nack rTtl s
  else match routeFrame { f with hleft := f.hleft - 1, htaken := (f.htaken + 1) % 8 } .forward s with
    | (none, s) => s
    | (some why, s) => nack why s

/-- DATA (R426, R428). -/
def onData (x : RxCtx) (p : RxPkt) (s : State) : State :=
  let f := p.f
  if s.hive.st ≠ .run then s
  else if f.fdest = 0x7F then
    if f.orig = s.hive.addr then s
    else
      let s := noteFlood x p s
      match deliverMsg x p s with
      | (none, s) => s
      | (some _, s) => s.modHive (fun h => { h with nrxdrop := satInc h.nrxdrop })
  else if f.fdest = s.hive.addr then
    match deliverMsg x p s with
    | (some why, s) => sendNack f.orig f.mseq why s
    | (none, s) =>
      if f.e2e then
        let d : HFrame := ⟨2, s.hive.addr, f.orig, false, 3, 1, 0, 0, f.mseq, [], .short⟩
        (routeFrame d .proto s).2
      else s
  else forwardPkt p s

/-- A message of the buffer that a report names. -/
def reported (s : State) (tag : BitVec 16) (ok : HMsg → Bool) : Option HMsg :=
  s.hive.msgs.find? (fun m => m.e2e && m.tag == tag && m.sentAt.isSome && ok m)

/-- NACK (R425, R426, R429). -/
def onNack (p : RxPkt) (s : State) : State :=
  let f := p.f
  let b (i : Nat) : Nat := (f.body.getD i 0).toNat
  if s.hive.st ≠ .run then s
  else if f.fdest ≠ s.hive.addr then (if f.fdest = 0x7F then s else forwardPkt p s)
  else if f.body.length < 4 then s
  else
    let tag := BitVec.ofNat 16 (b 2 + 256 * b 3)
    let s := s.modHive (fun h => { h with
      nackFrom := BitVec.ofNat 7 (b 1), nackWhy := BitVec.ofNat 8 (b 0), nackTag := tag })
    match reported s tag (fun _ => true) with
    | some m => endMsg m.id stLink (b 0 % 8) s
    | none => messageEvent 2 tag stLink (b 0 % 8) s

/-- DELIV (R425). -/
def onDeliv (p : RxPkt) (s : State) : State :=
  let f := p.f
  if s.hive.st ≠ .run then s
  else if f.fdest ≠ s.hive.addr then (if f.fdest = 0x7F then s else forwardPkt p s)
  else match reported s f.mseq (fun m => m.dest == f.orig) with
    | some m => endMsg m.id stOk 0 s
    | none => s

/-- LEAVE (R447). -/
def onLeave (p : RxPkt) (s : State) : State :=
  match s.hive.leaseAt p.f.orig with
  | some l => dropLease l.uid s
  | none => nbrFall p.f.orig s

/-- SREQ at the parent (R432): SRESP is due at t2 + 384,000. -/
def onSreq (x : RxCtx) (p : RxPkt) (s : State) : State :=
  if s.hive.st ≠ .run ∨ p.ext = true ∨ x.radio = false ∨ p.f.body.length < 8 then s
  else s.modHive (fun h => { h with
    sresp := h.sresp ++ [⟨p.src, leNat (p.f.body.take 8), x.rxt, x.rxt + 384000, 0⟩] })

/-! ## Time synchronisation (R433, R434) -/

/-- A rational in lowest terms. -/
def mkFrac (n : Int) (d : Nat) : Frac :=
  let g := Nat.gcd n.natAbs d
  if g = 0 then ⟨0, 1⟩ else ⟨n / (g : Int), d / g⟩

/-- Sum of two rationals. -/
def addFrac (a b : Frac) : Frac := mkFrac (a.num * b.den + b.num * a.den) (a.den * b.den)

/-- A rational rounded to nearest, ties up (the manual's "round" and its θ of half ticks, DEDUCED, log entry 37). -/
def roundFrac (a : Frac) : Int := (2 * a.num + a.den) / (2 * (a.den : Int))

/-- The clock after the first valid sample: hive time steps by θ, and KIND 6 is raised (R434). -/
def firstSample (th : Int) (s : State) : State :=
  if s.time.valid then s
  else
    let s := stepHive (moveBy th s.time.hive) s
    linkEvent 6 s.hive.addr false 0 (s.modHive (fun h => { h with lastSample := some s.time.hive }))

/-- A valid sample: θ with the ticks since the sample before (R434). -/
def applySample (th : Frac) (tk : Nat) (s : State) : State :=
  let s := s.modHive (fun h => { h with theta := wordOfInt (roundFrac th) })
  if s.time.valid = false then
    { s with later := s.later ++ [.sample (roundFrac th)] }
  else
    let f := addFrac s.hive.freq (mkFrac th.num (th.den * 8 * tk))
    let q := addFrac s.hive.freq (addFrac (mkFrac th.num (th.den * 8 * tk)) (mkFrac th.num (th.den * 2 * tk)))
    let rate := (roundFrac (mkFrac (q.num.natAbs * 2 ^ 24) q.den)).toNat
    setTrim (decide (q.num < 0)) rate (s.modHive (fun h => { h with freq := f, lastSample := some s.time.hive }))

/-- Ticks since the sample before, at most 4 × Ts; 4 × Ts with none before (DESIGN CHOICE, log entry 38). -/
def sampleGap (s : State) : Nat :=
  match s.hive.lastSample with
  | some t => max 1 (min (s.time.hive - t) (4 * s.hive.ts))
  | none => 4 * s.hive.ts

/-- SRESP at the child (R433, R434). -/
def onSresp (x : RxCtx) (p : RxPkt) (s : State) : State :=
  let b := p.f.body
  match s.hive.exch, parentOf s with
  | some e, some (a, false, _) =>
    let t1 := leNat (b.take 8)
    if p.ext = true ∨ x.radio = false ∨ p.src ≠ a ∨ b.length < 24 ∨ t1 ≠ e.t1 then s
    else
      let t2 : Int := leNat ((b.drop 8).take 8)
      let t3 : Int := leNat ((b.drop 16).take 8)
      let t4 : Int := x.rxt
      let th2 : Int := (t2 - t1) - (t4 - t3)
      let d2 : Int := (t4 - t1) - (t3 - t2)
      let s := s.modHive (fun h => { h with exch := none })
      if d2 < 0 ∨ 1920 < d2 ∨ e.spoiled = true then s.modHive (fun h => { h with nsyncbad := satInc h.nsyncbad })
      else applySample (mkFrac th2 2) (sampleGap s) s
  | _, _ => s

/-- SREQ instants that hive time has reached (R432). -/
def sreqInstants (s : State) : Nat := instants s.time.hive (s.hive.addr * 192000) s.hive.ts

/-- SYNC_SREQ: a radio child's request is due; `dbm` is the energy that its one CCA finds. A busy channel moves it by 1 ms, at
most three times (R432). -/
def syncSreq (dbm : Int) (s : State) : State :=
  match parentOf s with
  | some (a, false, _) =>
    let h := s.hive
    let n := sreqInstants s
    let due : Option Nat := match h.sreq with
      | some (k, t) => if t ≤ s.time.phys then some k else none
      | none => if h.syncIx ≠ n then some 0 else none
    match due with
    | none => s
    | some k =>
      if s.running = false ∨ h.st ≠ .run ∨ h.radio = false then s
      else
        let s := s.modHive (fun h => { h with syncIx := n })
        if channelClear s.hive dbm = true ∧ radioFree s = true then
          let (f, s) := protoFrame 8 a 0 .short (List.replicate 8 0) s
          let seq := s.hive.seq
          transmit 0 ⟨f, a, true, seq, 0, 0, 0, none, .sreq⟩
            (s.modHive (fun h => { h with sreq := none, exch := none, seq := seq + 1 }))
        else s.modHive (fun h => { h with sreq := if k < 3 then some (k + 1, s.time.phys + usTicks 1000) else none })
  | _ => s

/-- SYNC_SREQ. -/
def execSyncSreq (dbm : Int) (s : State) : Out := .next (unlessEarly (.syncSreq dbm) (syncSreq dbm) s)

/-- SRESP_SEND: the answer to an SREQ is due, under the same CCA rule (R432). -/
def srespSend (dbm : Int) (s : State) : State :=
  match s.hive.sresp.find? (fun r => decide (r.due ≤ s.time.hive)) with
  | none => s
  | some r =>
    if s.running = false ∨ s.hive.st ≠ .run then s
    else
      let s := s.modHive (fun h => { h with sresp := h.sresp.erase r })
      if channelClear s.hive dbm = true ∧ radioFree s = true then
        let (f, s) := protoFrame 9 r.child 0 .short (leBytes 8 r.t1 ++ leBytes 8 r.t2 ++ List.replicate 8 0) s
        let seq := s.hive.seq
        transmit 0 ⟨f, r.child, true, seq, 0, 0, 0, none, .proto⟩ (s.modHive (fun h => { h with seq := seq + 1 }))
      else if r.tries < 3 then
        s.modHive (fun h => { h with sresp := h.sresp ++ [{ r with due := r.due + 192000, tries := r.tries + 1 }] })
      else s

/-- SRESP_SEND. -/
def execSrespSend (dbm : Int) (s : State) : Out := .next (unlessEarly (.srespSend dbm) (srespSend dbm) s)

/-! ## Dispatch of received frames -/

/-- What an accepted frame does by its TYPE (Table 15.7). -/
def onFrame (x : RxCtx) (p : RxPkt) (s : State) : State :=
  let s := acceptPkt x p s
  let flood (s : State) : State := noteFlood x p s
  match p.f.typ with
  | 0 => if p.f.fdest = 0x7F ∧ isCopy p s = true then s else onData x p s
  | 1 => onNack p s
  | 2 => onDeliv p s
  | 3 => onCall s
  | 4 => if isCopy p s then s else onClaim p (flood s)
  | 5 => if isCopy p s then s else onDefend p (flood s)
  | 6 => if isCopy p s then s else onRenew x p (flood s)
  | 7 => onRouteadv x p s
  | 8 => onSreq x p s
  | 9 => onSresp x p s
  | 10 => if isCopy p s then s else onLeave p (flood s)
  | _ => s

/-- A frame heard, by the class that the MAC and the header give it; `want` is the TYPE that the command names. -/
def hearFrame (x : RxCtx) (want : Nat → Bool) (psdu : List Byte) (s : State) : State :=
  match classify s psdu with
  | .ignore => s
  | .foreign => s
  | .mic => s.modHive (fun h => { h with nmic := satInc h.nmic })
  | .replay => s.modHive (fun h => { h with nreplay := satInc h.nreplay })
  | .frame p => if want p.f.typ then onFrame x p s else s

/-- The receiver has taken a frame: it runs, the SFD is that of its mode, and nothing was sent from the frame's first
chip on (R408, R437, R448). -/
def received (fr : RxFrame) (s : State) : Bool :=
  listening s && fr.hr == s.hive.hr && decide (s.hive.busyTo + fr.ago + usTicks 160 ≤ s.time.phys)

/-- A frame of a TYPE received on the radio. -/
def radioRx (typ : Nat) (fr : RxFrame) (s : State) : State :=
  if received fr s then hearFrame ⟨true, 0, fr.lqi, fr.rssi, s.time.hive - fr.ago⟩ (· == typ) fr.psdu s else s

/-- DATA_RX (R426, R428). -/
def execDataRx (fr : RxFrame) (s : State) : Out := .next (unlessEarly (.dataRx fr) (radioRx 0 fr) s)
/-- NACK_RX (R429). -/
def execNackRx (fr : RxFrame) (s : State) : Out := .next (unlessEarly (.nackRx fr) (radioRx 1 fr) s)
/-- DELIV_RX (R425). -/
def execDelivRx (fr : RxFrame) (s : State) : Out := .next (unlessEarly (.delivRx fr) (radioRx 2 fr) s)
/-- CALL_RX (R413). -/
def execCallRx (fr : RxFrame) (s : State) : Out := .next (unlessEarly (.callRx fr) (radioRx 3 fr) s)
/-- CLAIM_RX (R415). -/
def execClaimRx (fr : RxFrame) (s : State) : Out := .next (unlessEarly (.claimRx fr) (radioRx 4 fr) s)
/-- DEFEND_RX (R415). -/
def execDefendRx (fr : RxFrame) (s : State) : Out := .next (unlessEarly (.defendRx fr) (radioRx 5 fr) s)
/-- RENEW_RX (R419). -/
def execRenewRx (fr : RxFrame) (s : State) : Out := .next (unlessEarly (.renewRx fr) (radioRx 6 fr) s)
/-- ROUTEADV_RX (R420). -/
def execRouteadvRx (fr : RxFrame) (s : State) : Out := .next (unlessEarly (.routeadvRx fr) (radioRx 7 fr) s)
/-- SREQ_RX (R432). -/
def execSreqRx (fr : RxFrame) (s : State) : Out := .next (unlessEarly (.sreqRx fr) (radioRx 8 fr) s)
/-- SRESP_RX (R433, R434). -/
def execSrespRx (fr : RxFrame) (s : State) : Out := .next (unlessEarly (.srespRx fr) (radioRx 9 fr) s)
/-- LEAVE_RX (R447). -/
def execLeaveRx (fr : RxFrame) (s : State) : Out := .next (unlessEarly (.leaveRx fr) (radioRx 10 fr) s)

/-- FOREIGN_FRAME_RX: a frame that R409 or R418 discards is counted. -/
def foreignFrameRx (fr : RxFrame) (s : State) : State :=
  if received fr s then
      match classify s fr.psdu with
      | .foreign => s.modHive (fun h => { h with nforeign := satInc h.nforeign })
      | _ => s
    else s

/-- FOREIGN_FRAME_RX. -/
def execForeignFrameRx (fr : RxFrame) (s : State) : Out := .next (foreignFrameRx fr s)

/-- E2E_TIMEOUT: an E2E message ends 1 s after it was first sent (R425). -/
def e2eTimeout (s : State) : State :=
  let due (m : HMsg) : Bool := m.e2e && (match m.sentAt with | some t => decide (t + 192000000 ≤ s.time.hive) | none => false)
  if s.running then
    match s.hive.msgs.find? due with
    | some m => endMsg m.id stTimeout 0 s
    | none => s
  else s

/-- E2E_TIMEOUT. -/
def execE2eTimeout (s : State) : Out := .next (unlessEarly .e2eTimeout e2eTimeout s)

/-- CAPTURE_SWITCH: a preamble `strongerDb` above the frame in reception makes the receiver abandon it (R436, R437). -/
def captureSwitch (strongerDb : Nat) (s : State) : State :=
  if listening s = true ∧ s.hive.capen = true ∧ s.hive.capthr ≤ strongerDb then
    s.modHive (fun h => { h with
      ncapt := satInc h.ncapt, exch := h.exch.map (fun e => { e with spoiled := true }) })
  else s

/-- CAPTURE_SWITCH. -/
def execCaptureSwitch (strongerDb : Nat) (s : State) : Out := .next (captureSwitch strongerDb s)

/-! ## Waggle bursts (R445, R446) -/

/-- A waggle frame: level 5 under the network key when the sealed page holds one; none when the counter is gone. -/
def waggleFrame (s : State) : Option (List Byte) × State :=
  let h := s.hive
  let f : HFrame := ⟨11, h.addr, 0x7F, false, 0, 1, 0, 0, h.mseq, [0x3C, 0xC3, 0x5A, 0xA5], .short⟩
  let s := s.modHive (fun h => { h with mseq := h.mseq + 1, seq := h.seq + 1 })
  let lv := if keyEmpty s then 0 else 5
  let hdr := macHeader lv false false h.seq 0xFFFF 0x7F h.addr
  if lv = 0 then (some (buildPsdu [] 0 0 0 hdr f.payload), s)
  else match takeFc s with
    | (none, s) => (none, s)
    | (some fc, s) => (some (buildPsdu (netKey s) lv (uidOf s) fc hdr f.payload), s)

/-- WAGGLE_FRAME: the next frame of a burst is due, every 2 ms; after the last the burst ends with ST_OK (R446). -/
def burstFrame (s : State) : State :=
  match s.hive.burst with
  | none => s
  | some b =>
    if s.running = false ∨ s.isReady .radio = false ∨ s.time.phys < b.next then s
    else if b.left = 0 then
      startBurst (endMsg b.id stOk 0 (s.modHive (fun h => { h with burst := none })))
    else match waggleFrame s with
      | (none, s) => startBurst (endMsg b.id stLink rFcExh (s.modHive (fun h => { h with burst := none })))
      | (some psdu, s) =>
        onChannel (b.wch % 16) (decide (16 ≤ b.wch)) psdu 0 (txOwner s.hive (.msg b.id))
          (s.modHive (fun h => { h with burst := some { b with left := b.left - 1, next := b.next + usTicks 2000 } }))

/-- WAGGLE_FRAME. -/
def execWaggleFrame (s : State) : Out := .next (unlessEarly .waggleFrame burstFrame s)

end Sys2Proof.Machine
end

