-- ==== Sys2Proof/Machine/Tether.lean ====
section
/-!
DEFINITION. Sys2Proof/Machine/Tether.lean: captures, latches and sweeps of a chain in DAISY and TETHER mode (section 13.7)
and the tether links of the hive (section 15.10).
-/
namespace Sys2Proof.Machine

/-! ## Tether segments (Table 15.14) -/

/-- Control octet. -/
def ctrlOctet (kind : Nat) (first lost : Bool) : Byte := BitVec.ofNat 8 (kind + put (bit01 first) 2 + put (bit01 lost) 3)

/-- Octets of a segment: the control octet and 4 × SEGW − 1 data octets, zero beyond what is given. -/
def segOctets (segw : Nat) (ctrl : Byte) (data : List Byte) : Words :=
  wordsOfBytes ((ctrl :: data ++ List.replicate (4 * segw) 0).take (4 * segw))

/-- The first frame of a link has octets left to send. -/
def Peer.holds (p : Peer) : Bool :=
  match p.out with | t :: _ => decide (p.sent < t.octets.length) | [] => false

/-- The next segment to a peer: data, else the time given, else idle; and the peer after it is loaded (R439). A frame
starts only when the one before it has been accepted (DESIGN CHOICE, log entry 39). -/
def loadSegment (segw : Nat) (time : Option Nat) (p : Peer) : Words × Peer :=
  match p.out with
  | t :: _ =>
    if p.sent < t.octets.length then
      let data := (t.octets.drop p.sent).take (4 * segw - 1)
      (segOctets segw (ctrlOctet 1 (p.sent == 0) p.lost) data, { p with sent := p.sent + data.length, loaded := true })
    else (segOctets segw (ctrlOctet (if time.isSome then 2 else 0) false p.lost) (leBytes 7 (time.getD 0)), { p with loaded := false })
  | [] => (segOctets segw (ctrlOctet (if time.isSome then 2 else 0) false p.lost) (leBytes 7 (time.getD 0)), { p with loaded := false })

/-- A segment as received: valid or not, its control octet and data octets. -/
structure SegRead where
  valid : Bool
  kind : Nat
  first : Bool
  lost : Bool
  data : List Byte

/-- A received segment read under R379 and R381 for a position. -/
def readSegment (segw pos : Nat) (g : Seg) : SegRead :=
  let o := bytesOfWords (padWords segw g.words)
  let c := (o.headD 0).toNat
  { valid := markerFor g.marker pos, kind := c % 4, first := c / 4 % 2 == 1, lost := c / 8 % 2 == 1, data := o.drop 1 }

/-- A segment that did not arrive. -/
def SegRead.none : SegRead := ⟨false, 0, false, false, []⟩

/-! ## Tether links (R439, R440) -/

/-- Frames of a link that is down end: LINKFAIL (R423, R425; DEDUCED, log entry 40). -/
def flushPeer (pos : Nat) (s : State) : State :=
  match s.hive.peers.find? (fun p => p.pos == pos) with
  | none => s
  | some p =>
    let s := s.modHive (modPeer pos (fun q => { q with out := [], sent := 0, unconf := false, loaded := false }))
    forEach p.out (fun t s => frameFailed t.f t.for_ rLinkFail s) s

/-- A tether link goes down. -/
def peerFall (p : Peer) (s : State) : State :=
  let s := s.modHive (fun h => dropCands (fun c => c.tlink && c.next == p.addr && p.addr != 0) (modPeer p.pos (fun q => { q with up := false }) h))
  updateRoot (linkEvent 5 p.addr true 0 s)

/-- A tether link comes up. -/
def peerRise (p : Peer) (s : State) : State :=
  linkEvent 4 p.addr true 0 (s.modHive (modPeer p.pos (fun q => { q with up := true })))

/-- One sweep of a link counted: four in a row without a valid segment, or with LOST, take it down; sixteen with
neither bring it up (R440). -/
def countSweep (pos : Nat) (ok : Bool) (s : State) : State :=
  match s.hive.peers.find? (fun p => p.pos == pos) with
  | none => s
  | some p =>
    let q := if ok then { p with good := min 16 (p.good + 1), bad := 0 } else { p with bad := min 4 (p.bad + 1), good := 0 }
    let s := s.modHive (modPeer pos (fun _ => q))
    if ok then (if q.good = 16 ∧ p.up = false then peerRise q s else s)
    else if q.bad = 4 then flushPeer pos (if p.up then peerFall q s else s)
    else s

/-- What the sweep tells of the segment sent in the sweep before: its frame is accepted when its last octet has been
received, or starts again (R439). -/
def confirmSegment (pos : Nat) (r : SegRead) (s : State) : State :=
  match s.hive.peers.find? (fun p => p.pos == pos) with
  | none => s
  | some p =>
    let ok := r.valid && !r.lost
    if p.unconf = false then s.modHive (modPeer pos (fun q => { q with unconf := q.loaded, loaded := false }))
    else if ok = false then
      s.modHive (modPeer pos (fun q => { q with sent := 0, unconf := false, loaded := false }))
    else match p.out with
      | t :: rest =>
        if p.loaded = false ∧ t.octets.length ≤ p.sent then
          frameDone (t.f.fdest == 0x7F) t.for_
            (s.modHive (modPeer pos (fun q => { q with out := rest, sent := 0, unconf := false })))
        else s.modHive (modPeer pos (fun q => { q with unconf := q.loaded, loaded := false }))
      | [] => s.modHive (modPeer pos (fun q => { q with unconf := false, loaded := false }))

/-- A frame that crossed the tether is heard as one of the radio is; what R409 and R418 discard is counted. -/
def hearTether (pos : Nat) (rxt : Nat) (psdu : List Byte) (s : State) : State :=
  if s.hive.on = false then s
  else match classify s psdu with
    | .foreign => s.modHive (fun h => { h with nforeign := satInc h.nforeign })
    | _ => hearFrame ⟨false, pos, 0, 0, rxt⟩ (fun _ => true) psdu s

/-- The octets that a segment brings; the frame is heard when its last octet arrives (R439). -/
def takeSegment (pos rxt : Nat) (r : SegRead) (s : State) : State :=
  let s := s.modHive (modPeer pos (fun q => { q with lost := !r.valid, rxOn := q.rxOn && r.valid }))
  match s.hive.peers.find? (fun p => p.pos == pos) with
  | none => s
  | some p =>
    if r.valid = false ∨ r.kind ≠ 1 ∨ (r.first = false ∧ p.rxOn = false) then s
    else
      let rx := if r.first then r.data else p.rx ++ r.data
      let n := (rx.headD 0).toNat % 128
      if rx.length < n + 1 then s.modHive (modPeer pos (fun q => { q with rx := rx, rxOn := true }))
      else hearTether pos rxt ((rx.drop 1).take n) (s.modHive (modPeer pos (fun q => { q with rx := [], rxOn := false })))

/-- A sweep's segment from a peer: what it confirms, the link's count, and the octets it brings. -/
def peerSweep (pos rxt : Nat) (r : SegRead) (s : State) : State :=
  takeSegment pos rxt r (countSweep pos (r.valid && !r.lost) (confirmSegment pos r s))

/-- A frame whose first octets are in the segment has been sent for the first time. -/
def noteSent (p : Peer) (s : State) : State :=
  match p.out with | t :: _ => if p.loaded then markSent t.for_ s else s | [] => s

/-! ## Members (R378, R379) -/

/-- The hive fills this port's stages. -/
def hivePort (x : Port) : Bool := x.mode == 2 && x.hive

def isMember (s : State) (p : PortId) : Bool :=
  let x := s.port p
  s.running && x.st == .run && x.slave && x.mode != 0

/-- The segment that a tether member loads at a capture, and the times of R441. -/
def captureTether (p : PortId) (s : State) : State :=
  let x := s.port p
  let now := s.time.hive
  match s.hive.peers.find? (fun q => q.pos == 0) with
  | none => s
  | some q =>
    let (ws, q') := loadSegment x.segw none q
    let s := s.modHive (fun h => { (modPeer 0 (fun _ => q') h) with
      captPrev := h.captNow, captNow := some now, peerWas := some q })
    s.setPort p { x with reg := ws, marks := [markerOf false false x.pos], capt := now, inframe := true }

/-- A member sees SEL asserted, 2 to 3 clocks after its edge, a free value saying which (R378). -/
def memberCapture (p : PortId) (s : State) : State :=
  let x := s.port p
  if isMember s p = false ∨ x.inframe = true then s
  else if hivePort x then captureTether p s
  else (s.setPort p (captureStage x (2 + bit01 (Config.freeBool s.free)) s.time.clk s.time.hive)).nextFree

/-- MEMBER_CAPTURE: the clock that sees SEL asserted (R378). -/
def execMemberCapture (p : PortId) (s : State) : Out := .next (unlessEarly (.memberCapture p) (memberCapture p) s)

/-- The bits of a segment: SEGW words and the marker (R377). -/
def segBits (segw : Nat) : Nat := segw * 32 + 16

/-- Every bit received is a one. -/
def allOnes (segw : Nat) (g : Seg) : Bool :=
  g.marker == 0xFFFF && (padWords segw (g.words ++ List.replicate segw 0xFFFFFFFF)).all (· == 0xFFFFFFFF)

/-- A member's time sample (R441): θ = Tm − (CAPT − 5 × INC / 2), kept doubled. -/
def timeSample (r : SegRead) (s : State) : State :=
  match r.valid && r.kind == 2, parentOf s, s.hive.captPrev with
  | true, some (_, true, _), some c =>
    let tm : Int := leNat (r.data.take 7)
    s.modHive (fun h => { h with tsum := h.tsum + (2 * (tm - (c : Int)) + 5 * (s.inc : Int)), tcount := h.tcount + 1 })
  | _, _, _ => s

/-- What the hive makes of a member's latch. -/
def latchTether (ok : Bool) (g : Seg) (s : State) : State :=
  let x := s.port 2
  let r := if ok then readSegment x.segw x.pos g else SegRead.none
  let s := s.modHive (fun h => { h with latchAt := s.time.phys })
  peerSweep 0 (s.hive.captNow.getD 0) r (timeSample r s)

/-- With no SCK a tether member has sent nothing: its link keeps its segment (R379). -/
def keepSegment (s : State) : State :=
  match s.hive.peerWas with
  | some q => s.modHive (modPeer 0 (fun _ => q))
  | none => s

/-- The segment that a tether member has sent (R439). -/
def sentSegment (s : State) : State :=
  match s.hive.peers.find? (fun q => q.pos == 0) with
  | some q => noteSent q s
  | none => s

/-- SEL is released after `bits` SCK edges, with `g` in the register: the last segment of bits received (R377, R379).
SDO has carried the segment that the capture loaded, then what came in first. -/
def memberLatch (p : PortId) (bits : Nat) (g : Seg) (s : State) : State :=
  let x := s.port p
  if isMember s p = false ∨ x.inframe = false then s
  else if bits = 0 then
    let s := s.setPort p { x with inframe := false, loaded := 0 }
    if hivePort x then keepSegment s else s
  else
    let ones := allOnes x.segw g
    let good := !ones && decide (segBits x.segw ≤ bits) && markerFor g.marker x.pos
    let mark := x.marks.headD 0
    let y := { captureSent x with
      inframe := false, nframe := x.nframe + 1
      sent := (bytesOfWords x.reg ++ (leBytes 2 mark.toNat).reverse).take (bits / 8)
      reg := padWords x.segw g.words, marks := [g.marker]
      lbu := if ones then true else if good then false else x.lbu
      nbreak := if ones then satInc x.nbreak else x.nbreak
      nmark := if !ones && !good then satInc x.nmark else x.nmark }
    let s := s.setPort p y
    let s := if good = true ∧ x.mode = 1 then deliverAll p (segmentItem x.segw g.words) s else s
    let s := portEvent p 2 (portArg 2 (if ones then stChain else if good then stOk else stRange) 0 false
      (mark.getLsbD 7) false x.pos) s
    if hivePort x then latchTether good g (sentSegment s) else s

/-- MEMBER_LATCH: SEL is released (R379). -/
def execMemberLatch (p : PortId) (bits : Nat) (g : Seg) (s : State) : Out :=
  .next (unlessEarly (.memberLatch p bits g) (memberLatch p bits g) s)

/-- NO_LATCH_PERIOD: 1 ms has passed at a tether member with no latch: a sweep with no valid segment (R440). -/
def execNoLatchPeriod (p : PortId) (s : State) : Out :=
  .next (
    let x := s.port p
    if p = 2 ∧ tetherOn s = true ∧ x.slave = true ∧ s.hive.latchAt + 192000 ≤ s.time.phys then
      countSweep 0 false (s.modHive (fun h => { h with latchAt := s.time.phys }))
    else s)

/-! ## Masters (R380, R381, R439) -/

def isSweeper (s : State) (p : PortId) : Bool :=
  let x := s.port p
  s.running && x.st == .run && !x.slave && x.mode != 0

/-- A tether sweep is due (R439). -/
def sweepDue (s : State) : Bool :=
  let h := s.hive
  if h.sweepData || h.peers.any Peer.holds then decide (h.sweepRel + 384 ≤ s.time.hive)
  else h.sweepIx != s.time.hive / 192000

/-- SEL is asserted, and N segments follow, position N's first, each with its marker 0x5A00 + position (R363, R380). -/
def beginSweep (p : PortId) (ws : Words) (bad : Nat) (s : State) : State :=
  let s := s.modPort p (fun x => { x with
    reg := padWords (x.pos * x.segw) ws, marks := (List.range x.pos).map (fun k => markerOf false false (k + 1)) })
  beginFrame p MFrame.idle [(.shift, 2 * ((s.port p).pos * segBits (s.port p).segw))] bad s

/-- The segments of a tether sweep are loaded and SEL is asserted (R439). -/
def startTetherSweep (p : PortId) (s : State) : State :=
  let x := s.port p
  let now := s.time.hive
  let time := s.hive.selNow.map (· % 2 ^ 56)
  let l := s.hive.peers.map (loadSegment x.segw time)
  let s := s.modHive (fun h => { h with
    peers := l.map (·.2), selPrev := h.selNow, selNow := some now, sweepIx := now / 192000 })
  let s := forEach (l.map (·.2)) noteSent s
  beginSweep p (l.flatMap (·.1)) 0 (s.setPort p { x with capt := now })

/-- A sweep master asserts SEL when its words and its receive credit are there (R380, R381), and on the tether when a
sweep is due (R439). -/
def sweepStart (p : PortId) (s : State) : State :=
  let x := s.port p
  let n := x.pos * x.segw
  let q := s.queue x.rxq
  if isSweeper s p = false ∨ x.inframe = true ∨ s.time.phys < x.freeAt then s
  else if hivePort x then (if sweepDue s then startTetherSweep p s else s)
  else if x.mode = 1 ∧ n ≤ x.stage.length ∧ (x.rxen = false ∨ (rxOurs s p = true ∧ q.st = .run ∧ n ≤ q.cred)) then
    let ws := x.stage.take n
    beginSweep p (ws.map (·.1)) (ws.countP (·.2.1)) (s.setPort p { x with stage := x.stage.drop n, capt := s.time.hive })
  else s

/-- SWEEP_START: a sweep master asserts SEL (R380, R439). -/
def execSweepStart (p : PortId) (s : State) : Out := .next (unlessEarly (.sweepStart p) (sweepStart p) s)

/-- The segments in position order 1 to N: the first received belongs to position N (R380). -/
def byPosition (n : Nat) (segs : List Seg) : List (Nat × Option Seg) :=
  mapIdxFrom (fun k o => (k, o)) 1
    (((segs.map some) ++ List.replicate n (none : Option Seg)).take n).reverse

/-- The words of a sweep with their tags (R381). -/
def sweepWords (n segw : Nat) (l : List (Nat × Option Seg)) : List (Word × BitVec 4) :=
  l.flatMap (fun (k, o) =>
    let ok := match o with | some g => markerFor g.marker k | none => false
    let ws := match o with | some g => if ok then padWords segw g.words else List.replicate segw 0 | none => List.replicate segw 0
    mapIdxFrom (fun i w => (w, rxTag (i == 0) false (!ok) (k == n && i + 1 == segw))) 0 ws)

/-- The highest missing position; 0 with none. -/
def highestGap (l : List (Nat × Option Seg)) : Nat :=
  l.foldl (fun m (k, o) => if (match o with | some g => markerFor g.marker k | none => false) then m else max m k) 0

/-- What the hive makes of a sweep's segments. -/
def endTetherSweep (segw : Nat) (l : List (Nat × Option Seg)) (s : State) : State :=
  let rs := l.map (fun (k, o) => (k, match o with | some g => readSegment segw k g | none => SegRead.none))
  let rxt := s.hive.selNow.getD 0
  let s := s.modHive (fun h => { h with sweepRel := s.time.hive, sweepData := rs.any (fun r => r.2.valid && r.2.kind == 1) })
  forEach rs (fun r s => peerSweep r.1 rxt r.2 s) s

/-- A sweep whose last half-period is over ends: SEL is released; `segs` are the segments in the order in which the line
brought them (R363, R381). -/
def sweepEnd (p : PortId) (segs : List Seg) (s : State) : State :=
  let x := s.port p
  match x.mframe with
  | none => s
  | some m =>
    if isSweeper s p = false ∨ m.stage ≠ .done then s
    else
      let l := byPosition x.pos segs
      let brk := highestGap l
      let s := s.setPort p { x with mframe := none, inframe := false, nframe := x.nframe + 1, freeAt := twoPeriods s x }
      let s := if x.mode = 1 then deliverAll p (sweepWords x.pos x.segw l) s else s
      let s := portEvent p 3 (portArg 3 (if brk = 0 then stOk else stChain) 0 false m.pois (brk != 0) brk) s
      if hivePort x then endTetherSweep x.segw l s else s

/-- SWEEP_END: SEL is released (R381). -/
def execSweepEnd (p : PortId) (segs : List Seg) (s : State) : Out :=
  .next (unlessEarly (.sweepEnd p segs) (sweepEnd p segs) s)

/-- TETHER_SYNC_SAMPLE: a sync period of a tether member ends: the mean of its θ is one sample of R434 (R441). -/
def tetherSyncSample (s : State) : State :=
  match parentOf s with
  | some (_, true, _) =>
    let h := s.hive
    let n := sreqInstants s
    if s.running = true ∧ h.on = true ∧ h.teth = 2 ∧ h.syncIx ≠ n then
      let s := s.modHive (fun h => { h with syncIx := n, tsum := 0, tcount := 0 })
      if h.tcount = 0 then s else applySample (mkFrac h.tsum (2 * h.tcount)) h.ts s
    else s
  | _ => s

/-- TETHER_SYNC_SAMPLE. -/
def execTetherSyncSample (s : State) : Out := .next (tetherSyncSample s)

end Sys2Proof.Machine
end

