-- ==== Sys2Proof/Machine/Pads.lean ====
section
/-!
DEFINITION. Sys2Proof/Machine/Pads.lean: what each digital ball carries (sections 17.2 and 18.4): reset states, the
drive of the unit that owns it, holds (R212 to R216), unpowered banks, and the TAP (section 18.7).
-/
namespace Sys2Proof.Machine

/-! ## Banks (Table 17.2) -/

/-- VIO_H is within its range. -/
def vioHOn (s : State) : Bool := decide (1140 ≤ s.vioH) && decide (s.vioH ≤ 1980)

/-- VIO_L is within its range. -/
def vioLOn (s : State) : Bool := decide (1620 ≤ s.vioL) && decide (s.vioL ≤ 3630)

/-- The pad group of a ball and its index in it (Table 6.13). -/
def Ball.group : Ball → Option (Nat × Nat)
  | .line n => some (n.val / 8, n.val % 8)
  | .evt n => some (6, n.val)
  | .sck p => some (7 + p.val, 0)
  | .stb p => some (7 + p.val, 1)
  | .cs p n => some (7 + p.val, if p = 2 then 1 else 2 + n.val)
  | .alert => some (7, 3)
  | .d p n => some (7 + p.val, if p = 0 then 4 + n.val else 6 + n.val)
  | .sdi => some (9, 2)
  | .sdo => some (9, 3)
  | _ => none

/-- Its bank is powered; the fail-safe straps have none. -/
def Ball.powered (s : State) : Ball → Bool
  | .line _ => vioLOn s
  | .evt _ => vioLOn s
  | .pgood => true
  | .resetN => true
  | .mode => true
  | .testEn => true
  | _ => vioHOn s

/-! ## What a ball carries: value, output enable, pull (0 none, 1 up, 2 down) -/

/-- The reset state of Table 18.4. -/
def Ball.resetDrive : Ball → Bool × Bool × Nat
  | .cs _ _ => (false, false, 1)
  | .sdi => (false, false, 1)
  | .srqClk => (false, true, 0)
  | .srqDat => (false, true, 0)
  | .wakeOut => (false, true, 0)
  | .thermN => (false, false, 0)
  | .srqAck => (false, false, 0)
  | .pgood => (false, false, 0)
  | .resetN => (false, false, 0)
  | .mode => (false, false, 0)
  | .tms => (false, false, 1)
  | .tdi => (false, false, 1)
  | .tdo => (false, false, 0)
  | _ => (false, false, 2)

/-- SRQ_CLK and SRQ_DAT in a frame (R174): SRQ_CLK rises at each whole microsecond of the frame for half a
microsecond; SRQ_DAT changes at its falls. -/
def srlPins (s : State) : Bool × Bool :=
  match s.level.srl with
  | [] => (false, false)
  | f :: _ =>
    match f.started with
    | none => (false, false)
    | some t0 =>
      let t := s.time.phys - t0
      if usTicks 24 + 96 ≤ t then (false, false)
      else (decide (192 ≤ t) && decide (t % 192 < 96), f.word.getLsbD (23 - (t - 96) / 192))

/-- The port is a master that runs. -/
def masterRuns (s : State) (p : PortId) : Bool :=
  let x := s.port p
  s.running && !hostOwns s p && x.st == .run && !x.slave

/-- A master's select n is asserted. -/
def selectOn (x : Port) (p : PortId) (n : Nat) : Bool :=
  x.inframe && (if p = 1 then (match x.mframe, x.held with
    | some m, _ => m.cs == n
    | none, some k => k == n
    | none, none => false) else true)

/-- SCK moves in a stage of a frame. -/
def FStage.clocks : FStage → Bool
  | .cmd | .addr | .dummy | .word | .shift => true
  | .lead | .paused | .tail | .done => false

/-- SCK of a master: idle at CPOL but in the phases of a frame, the first edge one period after the select; it is left
open outside a frame with MMD (R363, R383). -/
def sckPin (x : Port) : Bool × Bool :=
  let run := match x.mframe with
    | some m => m.stage.clocks && m.high
    | none => false
  (x.cpol != run, !x.mmd || x.inframe)

/-- ALERT (R370). -/
def alertPin (s : State) : Bool :=
  if hostOwns s 0 then s.host.alert
  else let x := s.port 0
    x.st == .run && x.slave && !x.txf.isEmpty

/-- A phase that moves bits: its lanes, whether each edge moves a beat, whether the master sends it, and the bits sent. -/
structure Phase where
  lanes : Nat
  ddr : Bool
  sends : Bool
  bits : List Bool

/-- The data phase of a master with the word that it sends; a 1-lane read sends ones (R354, R361). -/
def dataPhase (x : Port) (m : MFrame) (w : Option Word) (nb : Nat) : Phase :=
  { lanes := x.dl, ddr := x.dd, sends := m.send || x.dl == 0
    bits := if m.send then (match w with | some w => (lineBits' [w]).take (8 * nb) | none => [])
      else List.replicate (8 * nb) true }

/-- The segments of a sweep in the order of the line, position N's first (R380). -/
def sweepBits (x : Port) : List Bool :=
  (List.range x.pos).reverse.flatMap (fun k => segLine ((x.reg.drop (k * x.segw)).take x.segw) (x.marks.getD k 0))

/-- The phase of a stage (section 13.3). -/
def phaseOf (x : Port) (m : MFrame) : FStage → Option Phase
  | .cmd => some ⟨x.cl, x.cd, true, msbBits x.cw m.cmd.toNat⟩
  | .addr => some ⟨x.al, x.ad, true, msbBits x.aw m.addr.toNat⟩
  | .word => some (dataPhase x m (some m.cur) m.curBytes)
  | .shift => some ⟨0, false, true, sweepBits x⟩
  | _ => none

/-- The phase that follows the stage in progress: its first beat stands on the line half a period before its first
edge. A word that is to be sent is the one at the head of TXQ. -/
def phaseNext (s : State) (p : PortId) (m : MFrame) : Option Phase :=
  let x := s.port p
  match m.rest with
  | (st, _) :: _ => phaseOf x m st
  | [] => if m.words = 0 then none else some (dataPhase x m ((nextTx s p).map (·.w)) m.nextBytes)

/-- The beat of a phase that stands on the line in half-period `e` of it: with CPHA 0 a beat stands from half a period
before its sampling edge, with CPHA 1 from the first edge of its period; DDR moves one at each edge (R358). -/
def beatAt (x : Port) (ph : Phase) (e : Nat) : Nat :=
  if ph.ddr then e + 1 else if bitOf (x.w 0) 4 then e / 2 else (e + 1) / 2

/-- Beats of a phase. -/
def Phase.beats (ph : Phase) : Nat := (ph.bits.length + 2 ^ ph.lanes - 1) / 2 ^ ph.lanes

/-- What a master's frame puts on D_n: the bit that R357 places, none where no rule does. -/
def frameBit (s : State) (p : PortId) (m : MFrame) (n : Nat) : Option Bool :=
  let x := s.port p
  let ahead : Option Bool :=
    if bitOf (x.w 0) 4 then none
    else match phaseNext s p m with
      | some ph => if ph.sends then beatBit ph.lanes ph.bits 0 n else none
      | none => none
  match phaseOf x m m.stage with
  | some ph =>
    let k := beatAt x ph (m.total - m.left)
    if ph.sends = false then none else if k < ph.beats then beatBit ph.lanes ph.bits k n else ahead
  | none => if m.stage = .paused ∨ m.left = 1 then ahead else none

/-- Phases that the master is still to send after the stage in progress. -/
def moreToSend (m : MFrame) : Bool := m.rest.any (fun q => q.1 == .cmd || q.1 == .addr) || (m.send && m.words != 0)

/-- Whether a master's frame drives D_n: D_0 but where several lanes carry bits toward it, and further lanes in the
phases it sends on them, and over dummy cycles and pauses between those (R354, R359). -/
def frameDrives (x : Port) (m : MFrame) (n : Nat) : Bool :=
  match phaseOf x m m.stage with
  | some ph => decide (n < 2 ^ ph.lanes) && ph.sends
  | none =>
    if n = 0 then m.send || x.dl == 0 || moreToSend m || m.stage == .lead
    else moreToSend m && decide (n < 2 ^ (if m.stage == .paused || m.rest.isEmpty then x.dl else 0))

/-- A data ball of a port while it runs. A master drives the bits of its frame; D_1 of a selected slave is driven. Where
no rule places a bit, and between the commands of a port that the other side clocks, the level is a free value (log
entries 2 and 118). -/
def dataPin (s : State) (p : PortId) (n : Nat) : Bool × Bool :=
  let x := s.port p
  let v := Config.freeBool (s.free + 8 * p.val + n)
  if masterRuns s p then
    match x.mframe with
    | some m => ((frameBit s p m n).getD v, frameDrives x m n)
    | none => (v, n == 0)
  else if rawSlave s p then (v, n == 1 && x.inframe)
  else if hostOwns s p = true ∧ s.running = true ∧ s.isReady .ports = true then (v, n == 1 && x.inframe)
  else (false, false)

/-- STB of a port: driven by a slave in a frame with DDR data, aligned to edges that the other side gives, so at a free
level (R358; log entry 118). -/
def stbPin (s : State) (p : PortId) : Bool × Bool :=
  let x := s.port p
  (Config.freeBool (s.free + 24 + p.val), rawSlave s p && x.inframe && x.dd)

/-- SDO of PORT_2 while it runs: the bits of a master, the line of a selected RAW slave, the register of a chain member
(R354, R377). -/
def sdoPin (s : State) : Bool × Bool :=
  let x := s.port 2
  if x.slave then (Config.freeBool (s.free + 16), x.mode != 0 || x.inframe) else dataPin s 2 0

/-- What the unit that owns a ball puts on it, holds and the TAP apart (R505). -/
def funcDrive (s : State) (b : Ball) : Bool × Bool × Nat :=
  let r := b.resetDrive
  match b with
  | .line n => if s.running then lineBall s n.val else r
  | .evt n => if s.running = true ∧ s.isReady .line = true then (s.evtBalls.getLsbD n.val, true, 2) else r
  | .srqClk => ((srlPins s).1, true, 0)
  | .srqDat => ((srlPins s).2, true, 0)
  | .wakeOut => (s.therm.wakeOut, true, 0)
  | .thermN => (false, s.therm.thermLow, 0)
  | .sck p => if masterRuns s p then ((sckPin (s.port p)).1, (sckPin (s.port p)).2, 2) else r
  | .cs p n =>
    if masterRuns s p then
      let x := s.port p
      let a := selectOn x p n.val
      (!a, !x.mmd || a, 1)
    else r
  | .alert =>
    if s.running = true ∧ s.isReady .ports = true then (alertPin s, true, 2) else r
  | .d p n => let v := dataPin s p n.val; (v.1, v.2, 2)
  | .sdo =>
    let x := s.port 2
    if s.running = true ∧ x.st = .run then ((sdoPin s).1, (sdoPin s).2, 2) else r
  | .stb p => let v := stbPin s p; (v.1, v.2, 2)
  | _ => r

/-- The latch that holds a ball. -/
def latchOf (s : State) (b : Ball) : Option PadLatch :=
  match b.group with
  | none => none
  | some (g, i) =>
    if s.sleep.holds.getLsbD g then s.sleep.latches.find? (fun l => l.group == g && l.idx == i) else none

/-- A ball with holds, the TAP apart (R212, R215). While PORT_2 is bypassed SDO follows SDI, whatever holds group 9
(R197): its level is then the one that the board gives SDI, a free value here (log entry 2). -/
def heldDrive (s : State) (b : Ball) : Bool × Bool × Nat :=
  if b = .sdo ∧ s.sleep.bypass = true then (Config.freeBool s.free, true, 0)
  else match latchOf s b with
    | some l => (l.val, l.en, l.pull)
    | none => funcDrive s b

/-! ## Boundary register (R515) -/

/-- The balls with cells in the order of Table 18.3. -/
def scanBalls : List Ball :=
  [.srqClk, .srqDat, .srqAck, .pgood, .resetN, .mode, .testEn, .wakeOut, .thermN,
   .sck 0, .stb 0, .cs 0 0, .sck 1, .stb 1, .cs 1 0, .d 0 0, .d 0 1, .alert, .cs 1 1, .cs 1 2, .cs 1 3,
   .d 0 2, .d 0 3, .d 0 4, .d 1 0, .d 1 1, .d 1 2, .d 0 5, .d 0 6, .d 0 7, .d 1 3, .d 1 4, .d 1 5,
   .sck 2, .cs 2 0, .d 1 6, .d 1 7, .sdi, .sdo] ++ (allIx 8).map Ball.evt ++ (allIx 48).map Ball.line

/-- A ball of the TAP. -/
def Ball.isTap : Ball → Bool
  | .tck => true
  | .tms => true
  | .tdi => true
  | .tdo => true
  | .trstN => true
  | _ => false

/-- A ball has an input cell. -/
def Ball.hasIn : Ball → Bool
  | .srqClk => false
  | .srqDat => false
  | .wakeOut => false
  | .thermN => false
  | .alert => false
  | .sdo => false
  | .evt _ => false
  | b => !b.isTap

/-- A ball has output and control cells. -/
def Ball.hasOut : Ball → Bool
  | .srqAck => false
  | .pgood => false
  | .resetN => false
  | .mode => false
  | .testEn => false
  | .sdi => false
  | b => !b.isTap

/-- Cells of a ball. -/
def Ball.cells (b : Ball) : Nat := bit01 b.hasIn + (if b.hasOut then 2 else 0)

/-- Number of the first cell of each ball of a list. -/
def cellStarts : Nat → List Ball → List (Ball × Nat)
  | _, [] => []
  | k, b :: r => (b, k) :: cellStarts (k + b.cells) r

/-- First cell of a ball. -/
def firstCell (b : Ball) : Option Nat := ((cellStarts 0 scanBalls).find? (fun x => x.1 == b)).map (·.2)

/-- Output and control cell of a ball as last updated. -/
def outCells (t : TapSt) (b : Ball) : Bool × Bool :=
  match firstCell b with
  | none => (false, false)
  | some k =>
    let k := k + bit01 b.hasIn
    (t.cells.getD k false, t.cells.getD (k + 1) false)

/-- The pull kept for a ball while the TAP drives it (R516). -/
def keptPull (t : TapSt) (b : Ball) : Nat :=
  match (scanBalls.zip t.pulls).find? (fun x => x.1 == b) with | some x => x.2 | none => 0

/-- What a ball carries: the TAP over a hold over its unit; nothing on an unpowered bank, and no drive while VAON is
below 0.60 V (R216, R486, R495, R505, R516). -/
def ballDrive (s : State) (b : Ball) : Bool × Bool × Nat :=
  let f := heldDrive s b
  if b.powered s = false then (false, false, 0)
  else if s.vaon < 600 then (false, false, f.2.2)
  else if b.hasOut = false then f
  else match s.tap.ir with
    | .highz => (f.1, false, keptPull s.tap b)
    | .extest =>
      let (v, en) := outCells s.tap b
      if b = .thermN then (false, en && !v, keptPull s.tap b) else (v, en, keptPull s.tap b)
    | .clamp =>
      let (v, en) := outCells s.tap b
      if b = .thermN then (false, en && !v, keptPull s.tap b) else (v, en, keptPull s.tap b)
    | _ => f

/-- XTAL_IN and XTAL_OUT (Table 18.4). -/
inductive Xtal where
  /-- the oscillator starts, then runs -/
  | up
  /-- sustain drive -/
  | sustain
  /-- stopped, not driven -/
  | stopped
  deriving DecidableEq, Repr

/-- The crystal's balls by the state of the device (Table 18.4, R486, R506). -/
def xtalBalls (s : State) : Xtal :=
  if s.vaon < 600 then .stopped
  else match s.time.mode with
    | .hibernate => .sustain
    | .dormant => .stopped
    | .postStop => .stopped
    | .off => .up
    | .releasing => .up
    | .running => .up

/-- RF_IO (Table 18.4). -/
inductive RfBall where
  /-- the radio is idle: a DC path to VSSRF -/
  | idle
  | receiving
  | sending (o : RfOut)
  deriving DecidableEq, Repr

/-- RF_IO: a frame on air, the receiver of the hive between transmissions, or that of a listener window (R199, R407,
R437, R448). -/
def rfBall (s : State) : RfBall :=
  match rfOut s with
  | some o => if s.running then .sending o else .idle
  | none =>
    if listening s = true ∨ (s.time.mode = .hibernate ∧ s.domOn .radio = true) then .receiving else .idle

/-- What step 3 of entry latches of a pad group (R212, R214). -/
def padsOf (g : Nat) (s : State) : List PadLatch :=
  if g = 10 then (List.range 4).map (fun i => ⟨10, i, false, true, 0⟩)
  else scanBalls.filterMap (fun b =>
    match b.group with
    | some (h, i) => if h = g then let d := ballDrive s b; some ⟨g, i, d.1, d.2.1, d.2.2⟩ else none
    | none => none)

/-! ## TAP (R512 to R516) -/

/-- The TAP responds: the device is awake and VIO_H is powered (R512). -/
def tapLive (s : State) : Bool := s.running && vioHOn s

/-- The instruction register captures 0b0001 (R513). -/
def irCapture : List Bool := [true, false, false, false]

/-- An instruction is shifted in and updated; EXTEST, CLAMP and HIGHZ keep the pulls in force (R516). -/
def tapLoad (i : TapInstr) (keep : Bool) (s : State) : State :=
  if tapLive s then
    { s with tap := { s.tap with
        ir := i, tdo := irCapture
        pulls := if keep then scanBalls.map (fun b => (ballDrive s b).2.2) else s.tap.pulls } }
  else s

/-- TAP_RESET: TRST_N is low (R512). -/
def execTapReset (s : State) : Out := .next { s with tap := { s.tap with ir := .idcode, tdo := [] } }

/-- EXTEST (R515, R516). -/
def execTapExtest (s : State) : Out := .next (tapLoad .extest true s)

/-- SAMPLE/PRELOAD (R513). -/
def execTapSamplePreload (s : State) : Out := .next (tapLoad .sample false s)

/-- IDCODE (R514). -/
def execTapIdcode (s : State) : Out := .next (tapLoad .idcode false s)

/-- CLAMP (R516). -/
def execTapClamp (s : State) : Out := .next (tapLoad .clamp true s)

/-- HIGHZ (R516). -/
def execTapHighz (s : State) : Out := .next (tapLoad .highz true s)

/-- BYPASS (R513). -/
def execTapBypass (s : State) : Out := .next (tapLoad .bypass false s)

/-- A code from 0x5 to 0xE: bypass with TEST_EN low; with it high a factory instruction whose effect the manual does
not give (R513). -/
def execTapPrivate (s : State) : Out :=
  if tapLive s = true ∧ s.boot.testEn = true then .fault .factoryTap else .next (tapLoad .priv false s)

/-- What the boundary register captures: input cells the ball levels, given ball by ball, undefined on an unpowered
bank; output and control cells, of which the manual states nothing, free values (log entry 2). -/
def captureCells (s : State) (levels : List Bool) : Nat → Nat → List Ball → List Bool
  | _, _, [] => []
  | k, i, b :: r =>
    let lvl := if b.powered s then levels.getD i false else Config.freeBool (s.free + k)
    let own := (if b.hasIn then [lvl] else []) ++
      (if b.hasOut then [Config.freeBool (s.free + k + 1), Config.freeBool (s.free + k + 2)] else [])
    own ++ captureCells s levels (k + 3) (i + bit01 b.hasIn) r

/-- A register of captured bits, cell 0 next to TDO, after bits are shifted in: what is left in it and what came out. -/
def shiftThrough (reg bits : List Bool) : List Bool × List Bool :=
  let all := reg ++ bits
  (all.drop bits.length, all.take bits.length)

/-- The bits of IDCODE, low bit first (R514). -/
def idcodeBits : List Bool := (List.range 32).map (fun i => bitOf 0x172561CB i)

/-- DR_SCAN: a data register scan under the instruction in force: capture, shift, update (R513 to R515). The bypass bit
captures 0, as IEEE 1149.1 has it (PRESUMED, log entry 43). -/
def execDrScan (d : DrScan) (s : State) : Out :=
  .next (
    if tapLive s = false then s
    else
      let boundary (s : State) : State :=
        let (reg, out) := shiftThrough (captureCells s d.levels 0 0 scanBalls) d.bits
        { s with tap := { s.tap with cells := reg, tdo := out }, free := s.free + 3 * scanBalls.length }
      let other (reg : List Bool) : State :=
        { s with tap := { s.tap with tdo := (shiftThrough reg d.bits).2 } }
      match s.tap.ir with
      | .extest => boundary s
      | .sample => boundary s
      | .idcode => other idcodeBits
      | .clamp => other [false]
      | .highz => other [false]
      | .priv => other [false]
      | .bypass => other [false])

/-! ## Bank supplies (R216, R482, R489) -/

/-- VIO_H may leave its range: in sleep with a fixed supply, in the post-stop state, or with PGOOD low (R482). -/
def vioHFree (s : State) : Bool :=
  match s.time.mode with
  | .off => true
  | .postStop => true
  | .hibernate => s.level.fixed
  | .dormant => s.level.fixed
  | .releasing => false
  | .running => false

/-- IO_BANK_SUPPLY_CHANGE: VIO_H (bank 0) or VIO_L (bank 1) is now at `mv` millivolts. Held balls of a bank that is lost
float, and the latches drive them again when it returns (R216). VIO_H lost where R482 forbids it leaves the device in an
undefined state (R489). -/
def execIoBankSupplyChange (bank : Fin 2) (mv : Nat) (s : State) : Out :=
  if bank = 1 then .next { s with vioL := mv }
  else
    let t := { s with vioH := mv }
    if vioHOn t = false ∧ vioHFree s = false then .fault .undefinedSupply
    else .next (if vioHOn t then t else { t with tap := { t.tap with ir := .idcode, tdo := [] } })

end Sys2Proof.Machine
end

