-- ==== Sys2Proof/Machine/Refusers.lean ====
section
/-!
DEFINITION. Sys2Proof/Machine/Refusers.lean: what sleep entry, the thermal stop, resets and self-tests ask of the units:
refusers (Table 6.7), idle conditions (Table 6.4), the journal at a stop (Table 7.5), FAULT (R138), and the factory
block (R475).
-/
namespace Sys2Proof.Machine

/-! ## Refusers (Table 6.7) -/

/-- A refuser present: class, tenant and instance recorded (Table 6.7). -/
abbrev Refuser := Nat × Nat × Nat

/-- Class 0x2: the journal in RUN or HELD, which a JPROG or JERASE pending is, or a seal burn. -/
def journalRefuser (s : State) : Option Refuser :=
  let j := s.journal
  if j.st = .run ∨ j.st = .held then some (2, match j.op with | some o => o.ten.val | none => 0, 0)
  else if j.burn.isSome then some (2, 0, 0)
  else none

/-- Class 0x3: the radio transmits a frame. -/
def radioRefuser (s : State) : Option Refuser :=
  if s.time.phys < s.hive.busyTo then some (3, s.hive.busyFor.val, 0) else none

/-- Class 0x4: the lowest port with a frame in progress; a host packet records tenant 0. -/
def portRefuser (s : State) : Option Refuser :=
  match (allIx 3).find? (fun p => (s.port p).inframe) with
  | some p => some (4, if hostOwns s p then 0 else (s.port p).owner.val, p.val)
  | none => none

/-- Class 0x5: the lowest channel whose impedance check is measuring. -/
def xfeRefuser (s : State) : Option Refuser :=
  match (List.range 8).find? (fun n => (s.sensor (finOf 11 (n + 3))).tone.meas.isSome) with
  | some n => some (5, (s.sensor (finOf 11 (n + 3))).tone.owner.val, n)
  | none => none

/-! ## Idle conditions (Table 6.4) -/

def ringRuns (s : State) : Bool := s.rings.toList.any (fun r => r.st == .run)

/-- ACC_A, ACC_B and GYRO are all in OFF, started up, and no power-up is awaited. -/
def sensorsOff (s : State) : Bool :=
  [(0 : SensorId), 1, 2].all (fun i =>
    let x := s.sensor i
    x.st == .off && x.warmAt.isNone && (s.isReady (sensorFunc i) || s.hasFailed (sensorFunc i)))

def extOff (s : State) : Bool :=
  (allIx 11).all (fun i => inertial i || (s.sensor i).st == .off) &&
  (s.isReady .xfe || s.hasFailed .xfe)

/-- R448: the hive in OFF, its LEAVE frames sent, or RADIO 0 with no burst in progress. -/
def hiveIdle (s : State) : Bool :=
  (s.isReady .radio || s.hasFailed .radio) &&
  ((s.hive.st == .off && s.hive.leaving.isNone && decide (s.hive.busyTo ≤ s.time.phys)) ||
    (!s.hive.radio && s.hive.burst.isNone))

/-- FLASH is in use: it starts up, the journal is in RUN or HELD, or a background step runs (Table 6.4). -/
def flashBusy (s : State) : Bool :=
  let j := s.journal
  !(s.isReady .journal || s.hasFailed .journal) || j.st == .run || j.st == .held || j.gc || j.ckDue || !j.dirty.isEmpty

/-- The inertial sensors of SENSE are cold once the domain is off (R247). -/
def coolSensors (s : State) : State :=
  forEach [(0 : SensorId), 1, 2] (fun i s => s.modSensor i (fun x => { x with warm := false, warmAt := none })) s

/-! ## The journal in sleep entry and in the orderly stop -/

def suspendBackground (s : State) : State := s.modJ (fun j => { j with hold := true })
def resumeBackground (s : State) : State := s.modJ (fun j => { j with hold := false })

/-- Bytes and records in the gather buffer (Table 6.12). -/
def gatherSize (s : State) : Nat × Nat := (gatherBytes s.journal.gather, s.journal.gather.length)

/-- The records a tenant gathered and did not commit leave the gather buffer (R124). -/
def dropGather (t : Tid) (s : State) : State :=
  s.modJ (fun j => { j with gather := j.gather.filter (fun g => g.ten != t || g.busy) })

/-- The journal's checkpoint decision (R154): true when READY sets now. -/
def journalDecide (s : State) : State × Bool := decideJournal s

/-- State of the flash die, the fuse and the inputs from the board, which no reset clears, taken over into a fresh
state; what runs on the die is cut (R467, R477). -/
def keepFlash (old new : State) : State :=
  let o := cutFlash old
  { new with
    mem := o.mem.filter (fun c => inSpan flashBase flashSize c.1)
    journal := { new.journal with sealed := o.journal.sealed }
    vaout := o.vaout, vioH := o.vioH, vioL := o.vioL, free := o.free, pending := o.pending }

/-- Step 2 of the orderly stop begins: a scan or background step is abandoned, and the gathered group is committed
(Table 7.5). -/
def stopCommit (s : State) : State :=
  stopGroup (s.modJ (fun j => { j with scan := none, hold := true, st := if j.scan.isSome then .off else j.st }))

/-- Nothing of step 2 is left to do. -/
def stopSettled (s : State) : Bool := s.journal.op.isNone

/-- Step 2 has committed its group: no gathered record is left (section 16.5, Edges). -/
def stopCommitted (s : State) : Bool := s.journal.stopDone && s.journal.gather.isEmpty

/-- Step 2 ends with its commit abandoned (R230). -/
def stopAbandon (s : State) : State := cutFlash s

/-! ## The hive and the outputs in the orderly stop -/

/-- The hive holds an address (Table 7.5 step 3). -/
def hiveHolds (s : State) : Bool := s.hive.addr != 0

/-- A frame in transmission ends at once, on the radio and on the tether (Table 7.5 step 3). -/
def dropFrames (s : State) : State :=
  s.modHive (fun h => { h with
    txq := [], await := none, sending := none, burst := none, busyTo := min h.busyTo s.time.phys
    peers := h.peers.map (fun p => { p with out := [], sent := 0, unconf := false, loaded := false }) })

/-- Step 3 begins: a frame in transmission ends at once, and LEAVE is sent once on the radio with no CSMA-CA, and
staged on the tether (Table 7.5, R447); the Bool says that a link took it. -/
def stopLeave (s : State) : Bool × State :=
  if hiveHolds s then
    let s := dropFrames s
    let f : HFrame := ⟨10, s.hive.addr, 0x7F, false, 3, 1, 0, 0, s.hive.mseq, [], .short⟩
    let s := s.modHive (fun h => { h with mseq := h.mseq + 1 })
    let onRadio := s.hive.radio && s.isReady .radio
    let (sent, s) : Bool × State := if onRadio then
        match makeFrame f 0x7F false s.hive.seq s with
        | (some psdu, s) => (true, onAir psdu 0 0 s)
        | (none, s) => (false, s)
      else (false, s)
    let up := s.hive.peers.filter (·.up)
    (sent || !up.isEmpty, forEach up (fun p s => enqueueTether p.pos f 0x7F .proto s) s)
  else (false, s)

/-- The LEAVE of step 3 is over: its last octet has left on the radio and in the tether's segments. -/
def leaveOver (s : State) : Bool :=
  decide (s.hive.busyTo ≤ s.time.phys) && s.hive.peers.all (fun p => p.out.isEmpty)

/-- Step 3 ends; at its limit the frame is truncated (Table 7.5). -/
def leaveEnd (s : State) : State := dropFrames s

/-- Every AOUT channel not in OFF is driven to the low band (Table 7.5 step 4). -/
def aoutAllLow (s : State) : State := { s with aouts := vmap (fun a => if a.st = .off then a else { a with low := true }) s.aouts }

/-! ## FAULT (R17, R138) -/

def faultSensor (i : SensorId) (s : State) : State :=
  s.modSensor i (fun x => { x with st := .fault, next := none, test := none, covering := false, tone := abandonTone x.tone })

/-- The units of a failed function enter FAULT. -/
def unitsFault (f : Func) (s : State) : State :=
  match f with
  | .accA => faultSensor 0 s
  | .accB => faultSensor 1 s
  | .gyro => faultSensor 2 s
  | .xfe => forEach ((allIx 11).filter (fun i => !inertial i)) faultSensor s
  | .comb => { s with rings := vmap (fun r => { r with st := .fault }) s.rings }
  | .aout => { s with aouts := vmap (fun a => { a with st := .fault }) s.aouts }
  | .journal => s.modJ (fun j => { j with st := .fault, scan := none })
  | .radio => s.modHive (fun h => { h with st := .fault, leaving := none, txq := [], await := none, sending := none, burst := none })
  | _ => s

/-! ## The release point (R142, R300, R475) -/

/-- The factory block is good: its SHA-256 equals FCDIG, and word 0 is its mark. -/
def factoryGood (s : State) : Bool :=
  sha256 (flashBytes s 0x7FF000 0xF00) == flashBytes s 0x7FFF90 32 && flashWord s 0x7FF000 == 0x00014643

/-- The words of a factory set, none when absent. -/
def factorySet (s : State) (i : Nat) : Option Words :=
  let off := 0x7FF004 + 88 * i
  if flashWord s off = 0xFFFFFFFF then none else some ((upFrom 0 22).map (fun k => flashWord s (off + 4 * k)))

/-- Slot 0 of every sensor and M from the factory block, or the identity. -/
def loadFactory (s : State) : State :=
  if factoryGood s then
    let s := forEach (allIx 11) (fun i s =>
      s.modSensor i (fun x => { x with slots := vset x.slots 0 (some ((factorySet s i.val).getD (identitySet i.val))) })) s
    { s with align := (upFrom 0 9).map (fun k => flashWord s (0x7FF004 + 88 * 11 + 4 * k)) }
  else
    let s := forEach (allIx 11) (fun i s =>
      s.modSensor i (fun x => { x with slots := vset x.slots 0 (some (identitySet i.val)) })) s
    { s with align := identityM }

/-- Units at the reset release point: PORT_0 in RUN in tethered flight, calibration slots from the factory block. -/
def unitsRelease (s : State) : State :=
  let s := loadFactory s
  if hostOwns s 0 then s.modPort 0 (fun x => { x with st := .run }) else s

end Sys2Proof.Machine
end

