-- ==== Sys2Proof/Machine/Sleep.lean ====
section
/-!
DEFINITION. Sys2Proof/Machine/Sleep.lean: SLEEP, VOTE, HOLDREL, sleep entry and its aborts, the wake detectors and
the idle domains (spec/06_sleep_and_wake.md), and the supply request link (section 5.5).
-/
namespace Sys2Proof.Machine

def State.setSleep (s : State) (f : SleepSt → SleepSt) : State := { s with sleep := f s.sleep }

/-! ## Refusers (Table 6.7) -/

/-- The lowest tenant whose vote is cast. -/
def voter (s : State) : Option Nat := (vfind s.tenants (fun t => t.vote)).head?

/-- Class 0x6: Tmax at or above THROTTLE, THERMAL not ready, or an orderly stop (Table 6.7, R225). -/
def thermRefuses (s : State) : Bool :=
  decide (1680 ≤ s.therm.tmax) || !s.isReady .thermal || s.therm.stop.isSome

/-- The refusers present, in class order. -/
def refusers (s : State) : List Refuser :=
  ((voter s).map (fun t => ((1, t, 0) : Refuser))).toList ++ (journalRefuser s).toList ++ (radioRefuser s).toList ++
  (portRefuser s).toList ++ (xfeRefuser s).toList ++ (if thermRefuses s then [((6, 0, 0) : Refuser)] else [])

/-- NAME of a refuser class (Table 19.4). -/
def refuserName (c : Nat) : Word :=
  match c with
  | 1 => 0x45544F56 | 2 => 0x4C4E524A | 3 => 0x49444152 | 4 => 0x54524F50 | 5 => 0x454E4F54 | _ => 0x4D524854

/-- The records of a refusal (R203). -/
def recordRefusers (l : List Refuser) (s : State) : State :=
  match l with
  | [] => s
  | (c, t, i) :: _ =>
    s.setSleep (fun p => { p with refuse := { p.refuse with
      nref := l.foldl (fun v r => vsetD v (r.1 - 1) (satInc (vgetD v (r.1 - 1) 0))) p.refuse.nref
      name := refuserName c, cls := BitVec.ofNat 4 c, tenant := BitVec.ofNat 5 t, inst := BitVec.ofNat 8 i } })

/-! ## The armed set (R194, Table 6.5) -/

/-- One word of the wake descriptor; a word with a double-bit error counts as zero (R194). -/
def descWord (k : Nat) (s : State) : Word × State :=
  let r := readSram (0x201FFFE0 + 4 * k) s
  (if r.dbl then 0 else r.w, r.s)

/-- The enabled LINE wake pins of word 1; a pin from 48 up names no ball. -/
def wakePins (w : Word) : List (Nat × Bool) :=
  [0, 1, 2, 3].filterMap (fun k =>
    let pin := fieldOf w (8 * k + 5) (8 * k)
    if bitOf w (8 * k + 7) ∧ pin < 48 then some (pin, bitOf w (8 * k + 6)) else none)

/-- Carried compares: armed ALARM.AT settings with WAKE (R201). -/
def carried (s : State) : List (Nat × Nat) :=
  (mapIdxFrom (fun n (t : Timer) => match t.kind with | .at cmp true => some (n, cmp) | _ => none) 0
    s.timers.toList).filterMap id

/-- The armed set of a SLEEP into Hibernate or Dormant. -/
def armedSet (dormant : Bool) (s : State) : ArmedSet × State :=
  let (w0, s) := descWord 0 s
  let (w1, s) := descWord 1 s
  let (w2, s) := descWord 2 s
  let (_, s) := descWord 3 s
  let pins := wakePins w1
  let cmps := if dormant then [] else carried s
  let bits := (fieldOf w0 5 2) * 4 + (if dormant then 0 else fieldOf w0 7 6 * 64) +
    (if bitOf w0 8 ∧ pins ≠ [] then 256 else 0) + (if cmps = [] then 0 else 512)
  ({ ArmedSet.empty with
      mask := BitVec.ofNat 16 bits, pins := pins, ch := BitVec.ofNat 4 (fieldOf w2 3 0), hr := bitOf w2 4
      edthr := BitVec.ofNat 8 (fieldOf w2 15 8), lper := BitVec.ofNat 8 (fieldOf w2 23 16), cmps := cmps
      lastWin := s.time.phys }, s)

def ArmedSet.armed (a : ArmedSet) (code : Nat) : Bool := a.mask.getLsbD code

/-! ## SLEEP -/

/-- Entry begins: the armed set is armed, the issuing core does not retire (R202, Table 6.8 step 0). -/
def startEntry (c : CoreId) (t : Tid) (dormant : Bool) (a : ArmedSet) (s : State) : State :=
  let s := s.setSleep (fun p => { p with
    armed := a, entry := some ⟨dormant, c, t, 0, s.time.clk, s.time.phys, 0, false, 0, none⟩ })
  s.setCore c { s.core c with paused := true, resuming := false }

/-- SLEEP #s (R202, R203). -/
def execSleep (c : CoreId) (f : RForm) (s : State) : Out :=
  .next (specInstr c (.sleep c f)
    { o2 := fun _ _ _ => f.mod.toNat / 2 == 0 && unusedZero [f.rd, f.ra, f.rb]
      o3 := fun t _ s => s.may t capSleep
      body := fun c t _ s =>
        if s.sleep.entry.isSome then .status stState s
        else
          let l := refusers s
          if l ≠ [] then .status stState (recordRefusers l s)
          else
            let (a, s) := armedSet (f.mod.getLsbD 0) s
            if a.mask = 0 then .status stState s
            else { st := stOk, s := startEntry c t (f.mod.getLsbD 0) a s, retires := false } } s)

/-- VOTE #v (R86): the tenant's stay-awake vote. -/
def execVote (c : CoreId) (f : RForm) (s : State) : Out :=
  .next (specInstr c (.vote c f)
    { o2 := fun _ _ _ => f.mod.toNat / 2 == 0 && unusedZero [f.rd, f.ra, f.rb]
      o3 := fun t _ s => s.may t capVote
      body := fun _ t _ s => .ok (s.modTenant t (fun x => { x with vote := f.mod.getLsbD 0 })) } s)

/-- A pad group is released (R215). -/
def releaseGroup (g : Nat) (p : SleepSt) : SleepSt :=
  { p with
    holds := p.holds &&& ~~~(BitVec.twoPow 11 g), latches := p.latches.filter (fun l => l.group != g) }

/-- HOLDREL #g (R86, R88): the group is released in the clock after (R215). -/
def execHoldrel (c : CoreId) (f : RForm) (s : State) : Out :=
  .next (specInstr c (.holdrel c f)
    { o2 := fun _ _ _ => f.mod.toNat < 11 && unusedZero [f.rd, f.ra, f.rb]
      o3 := fun t _ _ => t = 0
      body := fun _ _ _ s => .ok { s with later := s.later ++ [.holdrel f.mod.toNat] } } s)

/-- FLAGS wd (R87): FL as it stood, then FL.STAT is ST_OK. -/
def execFlags (c : CoreId) (f : RForm) (s : State) : Out :=
  .next (specInstr c (.flags c f)
    { cyc := fun _ => 1
      o2 := fun _ _ _ => f.mod == 0 && unusedZero [f.ra, f.rb]
      body := fun _ _ r s => .val f.rd r.fl.toWord s } s)

/-! ## Pad holds (R212 to R214) -/

/-- The groups that a latch takes: not already held, and not group 7 in tethered flight (R213). -/
def groupsToLatch (s : State) : List Nat :=
  (List.range 11).filter (fun g => !s.sleep.holds.getLsbD g && (g != 7 || s.boot.mode))

/-- Pad holds latched (R212); the result names the groups latched. -/
def latchPads (s : State) : BitVec 11 × State :=
  let gs := groupsToLatch s
  let m : BitVec 11 := gs.foldl (fun m g => m ||| BitVec.twoPow 11 g) 0
  let t := s.setSleep (fun p => { p with
    holds := p.holds ||| m, latches := p.latches ++ gs.flatMap (fun g => padsOf g s) })
  (m, { t with free := t.free + 32 })

/-! ## Entry steps and aborts (R204, R205) -/

/-- The flag that an abort test sees: the first latched among the visible ones. -/
def visibleFlag (s : State) : Option WakeFlag :=
  s.sleep.armed.flags.find? (fun w => decide (w.visible ≤ s.time.clk))

/-- Every core leaves its pause (Table 6.10). -/
def resumeCores (s : State) : State := { s with cores := vmap (fun k => { k with paused := false }) s.cores }

/-- Step 1 begins: a core at a boundary pauses there, a stalled instruction in its stall, and any other core at its next
boundary, where `charge` pauses it (Table 6.8 step 1). -/
def pauseCores (s : State) : State :=
  { s with cores := vmap (fun k => if k.stall.isSome = true ∨ k.paid = 0 then { k with paused := true } else k) s.cores }

/-- Step 1 is over: every core that holds an invocation has paused. -/
def coresPaused (s : State) : Bool := s.cores.toList.all (fun k => k.inv.isNone || k.paused)

/-- The pad holds that step 3 has latched are released, and its bypass ends (R197, Table 6.10). -/
def releaseHolds (e : Entry) (s : State) : State :=
  s.setSleep (fun p =>
    { ((List.range 11).foldl (fun p g => if e.latched.getLsbD g then releaseGroup g p else p) p) with bypass := false })

/-- The rest of what an abort undoes (Table 6.10), and the retirement of SLEEP with ST_OK. -/
def undoEntry (e : Entry) (s : State) : State :=
  let s := if 3 ≤ e.ep then resumeBackground (s.setSleep (fun p => { p with discard := false })) else s
  let s := resumeCores (s.setSleep (fun p => { p with entry := none }))
  let s := retire e.core e.tenant stOk id s.base s
  if e.core = 0 ∧ s.host.running.isSome = true then hostEnd s else s

/-- An abort at EPk (R205): the armed set and the counters at once, the rest as Table 6.10 times it. -/
def abortEntry (e : Entry) (k : Nat) (w : WakeFlag) (s : State) : State :=
  let frame := decide (k = 5) && e.vOff
  let s := s.setSleep (fun p => { p with
    armed := ArmedSet.empty
    entry := some { e with ep := k, endAt := if frame then none else some (s.time.clk + (if k ≤ 2 then 1 else 2)) }
    refuse := { p.refuse with
      aborts := vsetD p.refuse.aborts (k - 1) (satInc (vgetD p.refuse.aborts (k - 1) 0))
      lastep := BitVec.ofNat 4 k, lastwake := BitVec.ofNat 8 w.code } })
  if frame then s.pushFrame (setFrame .abort s.level.cur s.time.phys) else s

/-- Step 3 latches the pad holds in the clock after EP3, and with a wired wake of PORT_2 armed starts the bypass in the same
clock (R197, R212, Example 6.A). -/
def latchHolds (e : Entry) (s : State) : State :=
  let (m, s) := latchPads s
  let byp := s.sleep.armed.armed 4 || s.sleep.armed.armed 5
  s.setSleep (fun p => { p with entry := some { e with latched := m }, bypass := byp })

/-- What a clock brings to a sleep entry: the latching of step 3, and the end of an abort. -/
def entryClock (s : State) : State :=
  match s.sleep.entry with
  | none => s
  | some e =>
    let n := s.time.clk
    if e.ep = 0 then (if e.step = 3 ∧ n = e.since + 1 then latchHolds e s else s)
    else match e.endAt with
      | none => s
      | some c =>
        let s := if 4 ≤ e.ep ∧ n + 1 = c then releaseHolds e s else s
        if c ≤ n then undoEntry e s else s

/-- The start of step k (Table 6.8). -/
def beginStep (e : Entry) (k : Nat) (s : State) : State :=
  let e := { e with step := k, since := s.time.clk, sincePhys := s.time.phys }
  let s := s.setSleep (fun p => { p with entry := some e })
  match k with
  | 1 => pauseCores s
  | 2 => (suspendBackground s).setSleep (fun p => { p with discard := true })
  | 3 => s
  | 4 => if s.level.fixed then s else s.pushFrame (offFrame .sleepOff s.time.phys)
  | _ => { s with
    therm := { s.therm with wakeOut := false }
    sleep := { s.sleep with wake := { s.sleep.wake with
      entryt := s.time.hive, discb := (gatherSize s).1, discr := (gatherSize s).2 } } }

/-- The abort test EPk between two steps (R204). -/
def abortTest (e : Entry) (k : Nat) (s : State) : State :=
  match visibleFlag s with
  | some w => abortEntry e k w s
  | none => beginStep e k s

/-- Working state is lost: only AON status, flash content and the queue stay (R187). -/
def dropWorking (s : State) : State :=
  keepFlash s { State.reset with
    time := s.time, boot := s.boot, level := s.level, sleep := s.sleep
    therm := { ThermSt.reset with record := s.therm.record, thermLow := s.therm.thermLow, wakeOut := false } }

/-- Step 5 ends: the device is in sleep (Table 6.8; R163 for the handover). -/
def enterSleep (e : Entry) (s : State) : State :=
  let s := dropWorking s
  { s with
    time := { s.time with
      mode := if e.dormant then .dormant else .hibernate, hiveAt := s.time.phys
      valid := s.time.valid && !e.dormant }
    level := { s.level with pll := none, change := none, srl := [] }
    sleep := { s.sleep with
      entry := none, domains := 1, upAt := Vector.replicate 12 none, discard := false
      handover := s.time.phys, listenTo := 0
      wake := { s.sleep.wake with sleeps := satInc s.sleep.wake.sleeps, von := !e.vOff, dormant := e.dormant } } }

/-- A forced change to L1 is in progress, or waits for the present change: it completes before step 4 begins
(section 6.5, Edges). -/
def forcedChange (s : State) : Bool :=
  s.level.forceNext || (match s.level.change with | some ch => ch.forced | none => false) || s.later.contains .force

/-- SLEEP_ENTRY_STEP_END: a step of sleep entry that ends by itself ends (R204). Step 1 ends when every core has paused,
step 3 after its 2 clocks and a forced change in progress (log entry 114), step 4 by itself only with a fixed supply,
and step 5 at a common edge (R163). -/
def execSleepEntryStepEnd (s : State) : Out :=
  .next (match s.sleep.entry with
    | none => s
    | some e =>
      if s.running = false ∨ e.ep ≠ 0 then s
      else match e.step with
        | 0 => if e.since + 1 ≤ s.time.clk then abortTest e 1 s else s
        | 1 => if coresPaused s then abortTest e 2 s else s
        | 2 => abortTest e 3 s
        | 3 => if e.since + 2 ≤ s.time.clk ∧ forcedChange s = false then abortTest e 4 s else s
        | 4 => if s.level.fixed = true ∧ s.level.change = none then abortTest e 5 s else s
        | _ => if s.commonEdge then enterSleep e s else s)

/-! ## Supply request link (section 5.5) -/

/-- Crystal time runs: frames can be sent. After a stop it runs for the OFF frame, which is not awaited. -/
def crystalOn (s : State) : Bool :=
  s.time.mode == .running || s.time.mode == .releasing || s.time.mode == .postStop

/-- The frame in progress leaves the queue. -/
def popFrame (s : State) : State := { s with level := { s.level with srl := s.level.srl.tail } }

/-- A frame that nothing awaits. -/
def SrlFor.alone : SrlFor → Bool
  | .stopOff => true
  | .ended => true
  | _ => false

/-- A frame that nothing awaits leaves the link when its 24 periods are over. -/
def dropSent (s : State) : State :=
  match s.level.srl with
  | [] => s
  | f :: _ =>
    match f.started with
    | some t => if f.why.alone = true ∧ t + usTicks 24 + 96 ≤ s.time.phys then popFrame s else s
    | none => s

/-- The frames in progress of a link whose stop or cut begins: nothing awaits them, and none decided before is sent. -/
def endFrames (l : List SrlFrame) : List SrlFrame :=
  (l.filter (fun f => f.started.isSome)).map (fun f => { f with why := if f.why = .stopOff then .stopOff else .ended })

/-- SRL_FRAME_START: the first frame waiting starts at a 1 µs boundary later than its decision, with the next SEQ
(R174, R177). The OFF frame of sleep entry waits for a level change to end (section 5.6, Edges). -/
def execSrlFrameStart (s : State) : Out :=
  .next (match s.level.srl with
    | [] => s
    | f :: r =>
      let waits := f.why == .sleepOff && s.level.change.isSome
      if crystalOn s = true ∧ waits = false ∧ f.started = none ∧ f.decided < s.time.phys ∧ s.time.phys % 192 = 0 then
        let q := s.level.seq + 1
        { s with level := { s.level with
            seq := q, srl := { f with started := some s.time.phys, word := frameWord f q } :: r } }
      else s)

/-- Step 4 of entry ends with the OFF frame's end; then EP5 (Table 6.8, R207). -/
def offEnds (acked : Bool) (s : State) : State :=
  match s.sleep.entry with
  | none => s
  | some e => if e.step = 4 then abortTest { e with vOff := acked } 5 s else s

/-- What an acknowledgement of the frame in progress does. -/
def ackFrame (f : SrlFrame) (s : State) : State :=
  let s := popFrame s
  match f.why with
  | .change => match s.level.change with | some ch => changeAck ch s | none => s
  | .restore => match s.level.change with | some ch => restoreAck ch s | none => s
  | .sleepOff => offEnds true { s with level := { s.level with vcode := 0 } }
  | .abort =>
    let s := { s with level := { s.level with vcode := f.vcode } }
    s.setSleep (fun p => { p with entry := p.entry.map (fun e => { e with endAt := some (s.time.clk + 2) }) })
  | .wake =>
    { s with
      level := { s.level with vcode := f.vcode }
      time := { s.time with
        relAck := false
        relAt := some (max (s.time.relAt.getD 0) (s.time.phys + usTicks 10)) } }
  | .stopOff => s
  | .ended => s

/-- A high on SRQ_ACK is detected after the blanking and before the timeout of the frame in progress
(R176). With a fixed supply declared there is no frame (section 5.5, Edges). -/
def srqAck (s : State) : State :=
  match s.level.srl with
  | [] => s
  | f :: _ =>
    match f.started with
    | none => s
    | some st =>
      if f.why.alone = false ∧ st + usTicks 26 ≤ s.time.phys ∧ s.time.phys ≤ st + usTicks 424 then ackFrame f s else s

/-- SRQ_ACK. -/
def execSrqAck (s : State) : Out := .next (unlessEarly .srqAck srqAck s)

/-- SRL_TIMEOUT: no acknowledgement within 400 µs of the 24th rising edge (R176, R180, R207, R136). -/
def execSrlTimeout (s : State) : Out :=
  .next (match s.level.srl with
    | [] => s
    | f :: _ =>
      match f.started with
      | none => s
      | some st =>
        if f.why.alone = false ∧ st + usTicks 424 ≤ s.time.phys then
          let s := popFrame s
          let s := { s with level := { s.level with ntimeout := satInc s.level.ntimeout } }
          match f.why with
          | .change => match s.level.change with | some ch => changeTimeout ch s | none => s
          | .restore => match s.level.change with | some ch => changeTimeout ch s | none => s
          | .sleepOff => offEnds false s
          | .abort => s.pushFrame { f with decided := s.time.phys, started := none }
          | .wake => s.pushFrame { f with decided := s.time.phys, started := none }
          | .stopOff => s
          | .ended => s
        else s)

/-! ## Wake detectors (R195 to R201) -/

/-- The detectors are armed: an entry is in progress, the device sleeps, or a wake has not reached its release. -/
def detecting (s : State) : Bool :=
  s.sleep.entry.isSome || s.time.mode == .hibernate || s.time.mode == .dormant ||
  (s.time.mode == .releasing && s.boot.cause == 2)

/-- A wake source latches: its flag joins the list, and after the wake event WAKEMASK records it (R205, R211). -/
def latchWake (code info : Nat) (s : State) : State :=
  if detecting s = false ∨ s.sleep.armed.armed code = false ∨
      (s.sleep.armed.flags.any (fun w => w.code == code)) = true then s
  else
    let s := s.setSleep (fun p => { p with armed := { p.armed with
      flags := p.armed.flags ++ [⟨code, info, s.time.phys, s.time.clk + 2⟩] } })
    if s.time.mode = .releasing then
      s.setSleep (fun p => { p with wake := { p.wake with mask := p.wake.mask ||| BitVec.twoPow 16 code } })
    else s

/-- WAKE_ACTIVITY: the select of PORT_0 (0) or PORT_2 (1) is asserted for `ns` nanoseconds: it clears the waggle
register, and from 50 ns on fires P0ACT or P2ACT (R195, R196). They see nothing
while VIO_H is absent (section 17.6, Edges). -/
def execWakeActivity (p : Fin 2) (ns : Nat) (s : State) : Out :=
  .next (
    if vioHOn s = false then s
    else
      let s := s.setSleep (fun q => { q with armed :=
        if p = 0 then { q.armed with wag0 := 0 } else { q.armed with wag2 := 0 } })
      if 50 ≤ ns then (if p = 0 then latchWake 2 0 s else latchWake 4 2 s) else s)

/-- WAKE_WAGGLE: an SCK rising edge shifts a bit, with the select deasserted; the detector fires on 0xA55A_C33C
(R196). -/
def execWakeWaggle (p : Fin 2) (b : Bool) (s : State) : Out :=
  .next (
    let sh (w : Word) : Word := (w <<< 1) ||| (if b then 1 else 0)
    if vioHOn s = false then s
    else if p = 0 then
      let w := sh s.sleep.armed.wag0
      let s := s.setSleep (fun q => { q with armed := { q.armed with wag0 := w } })
      if w = 0xA55AC33C then latchWake 3 0 s else s
    else
      let w := sh s.sleep.armed.wag2
      let s := s.setSleep (fun q => { q with armed := { q.armed with wag2 := w } })
      if w = 0xA55AC33C then latchWake 5 2 s else s)

/-- WAKE_LINE: an edge on a LINE pin, past the filter, latches when it is the selected edge of an enabled pin
(R198). The AON island records nothing while VIO_L is absent (section 6.4, Edges). -/
def execWakeLine (pin : Fin 48) (lvl : Bool) (s : State) : Out :=
  .next (if vioLOn s = true ∧ s.sleep.armed.pins.contains (pin.val, lvl) = true then latchWake 8 pin.val s else s)

/-- The listener's energy threshold in dBm (Table 6.5). -/
def edThreshold (a : ArmedSet) : Int := -100 + ((max 5 (min 60 a.edthr.toNat) : Nat) : Int)

/-- The listener accepts a frame: a waggle frame in its mode, which with a network key passes its MIC. Neither its counter
nor its PAN ID is checked (R199, R445). The lease table does not survive sleep, so the sender's UID in the nonce comes
with the command (DESIGN CHOICE, log entry 115). -/
def listenerTakes (r : RfWindow) (s : State) : Bool :=
  r.hr == s.sleep.armed.hr &&
  (match readPsdu r.psdu with
   | .data m =>
     m.dst == 0xFFFF && !m.ack &&
     (match (if keyEmpty s then (if m.level = 0 then some m.payload else none)
             else if m.level = 0 then none else unsecure (netKey s) r.uid m) with
      | some c =>
        (match readPayload .short c with
         | some f => f.typ == 11 && f.body == [0x3C, 0xC3, 0x5A, 0xA5]
         | none => false)
      | none => false)
   | _ => false)

/-- LISTENER_WINDOW: in Hibernate, every (LPER + 1) × 8 ms, RADIO is powered for 192 µs, and with only RFWAG armed and
energy above EDTHR for up to 5 ms; the listener hears energy or a waggle frame (R199). -/
def execListenerWindow (r : RfWindow) (s : State) : Out :=
  .next (
    let a := s.sleep.armed
    let now := s.time.phys
    if s.time.mode = .hibernate ∧ (a.armed 6 = true ∨ a.armed 7 = true) ∧
        a.lastWin + (a.lper.toNat + 1) * usTicks 8000 ≤ now then
      let loud := decide (edThreshold a < r.dbm)
      let s := (s.setDom .radio true).setSleep (fun p => { p with
        armed := { p.armed with lastWin := now }
        listenTo := now + (if a.armed 6 = false ∧ loud = true then usTicks 5000 else usTicks 192) })
      if loud then
        if a.armed 6 then latchWake 6 (11 + a.ch.toNat) s
        else if listenerTakes r s then latchWake 7 (11 + a.ch.toNat) s else s
      else s
    else s)

/-- A listener window ends: RADIO powers down. -/
def endWindow (s : State) : State :=
  if s.time.mode = .hibernate ∧ s.sleep.listenTo ≤ s.time.phys then s.setDom .radio false else s

/-- A wake event is due at the last advance: a source had latched by then (R209, R211). -/
def wakeDue (s : State) : Bool :=
  decide (s.sleep.handover < s.time.hiveAt) && s.sleep.armed.flags.any (fun w => decide (w.at_ ≤ s.time.hiveAt))

/-- AON_ADVANCE: at a wrap of the phase counter in Hibernate, and on until the release point of the wake from it, hive
time advances by 6 ticks per crystal cycle since the last advance, and carried compares are tested (R163, R164, R201,
R211). The advance at which a wake is due is the last one in Hibernate. -/
def execAonAdvance (s : State) : Out :=
  .next (
    let asleep := s.time.mode == .hibernate && !wakeDue s
    let waking := s.time.mode == .releasing && s.boot.htv && s.boot.cause == 2
    if (asleep = true ∨ waking = true) ∧ s.time.phase = 0 ∧ s.time.hiveAt < s.time.phys then
      let s := { s with time := { s.time with
        hive := wrap64 (s.time.hive + (s.time.phys - s.time.hiveAt)), hiveAt := s.time.phys } }
      match s.sleep.armed.cmps.find? (fun p => decide (p.2 ≤ s.time.hive)) with
      | some p => latchWake 9 p.1 s
      | none => s
    else s)

/-- The flag that decides the wake code: the lowest code latched by the advance in Hibernate; in Dormant the lowest
of those that latched with the first (R211). -/
def wakeFlag (s : State) : Option WakeFlag :=
  match s.sleep.armed.flags with
  | [] => none
  | w :: r =>
    let l := if s.time.mode = .hibernate then r else r.filter (fun x => x.at_ == w.at_)
    some (l.foldl (fun b x => if x.code < b.code then x else b) w)

/-- WAKE_EVENT: the wake record is written and the reset begins (R210, R211, Table 4.2, R136): in Hibernate at the first
advance after the handover by which a source has latched (R209, R211), in Dormant at the latch. -/
def execWakeEvent (s : State) : Out :=
  .next (match wakeFlag s with
    | none => s
    | some w =>
      let hib := s.time.mode == .hibernate
      if (hib = true ∧ s.time.hiveAt = s.time.phys ∧ wakeDue s = true) ∨ s.time.mode = .dormant then
        let von := s.sleep.wake.von
        let mask : BitVec 16 := s.sleep.armed.flags.foldl (fun m x => m ||| BitVec.twoPow 16 x.code) 0
        let L := LevelSt.reset
        let s := { s with
          boot := { BootSt.reset with cause := 2, mode := s.boot.mode, htv := hib }
          level := { L with seq := s.level.seq, vcode := s.level.vcode }
          time := { s.time with
            mode := .releasing, relAck := !von
            relAt := some (s.time.phys + (if von then (if hib then usTicks 40 else usTicks 150)
              else if hib then 0 else usTicks 150)) }
          sleep := { s.sleep with
            bypass := false, domains := 1, listenTo := 0
            wake := { s.sleep.wake with
              code := BitVec.ofNat 8 w.code, dormant := !hib, info := BitVec.ofNat 8 w.info, mask := mask
              waket := if hib then s.time.hive else 0 } } }
        if von then s else s.pushFrame (setFrame .wake 1 s.time.phys)
      else s)

/-! ## Idle domains (Table 6.4) -/

/-- A domain's idle condition has held for its time (Table 6.4). -/
def idleDue (d : Domain) (s : State) : Bool :=
  match d with
  | .comb => !ringRuns s && decide (s.sleep.combUse + usTicks 1000 ≤ s.time.phys)
  | .sense => sensorsOff s
  | .xfe => extOff s
  | .radio => hiveIdle s
  | .flash => !flashBusy s && decide (s.sleep.flashUse + usTicks 2000 ≤ s.time.phys)
  | _ => false

/-- An instruction keeps the domains that it has woken powered until it retires or refuses, and their idle conditions
count again from the clock after (R192). -/
def domTouched (d : Domain) (s : State) : Bool := s.cores.toList.any (fun k => k.woke.contains d)

/-- The clock after an instruction has retired or refused. -/
def wokeOver (s : State) : State :=
  { s with cores := vmap (fun k => if k.wokeEnd then { k with woke := [], wokeEnd := false } else k) s.cores }

/-- What keeps COMB and FLASH from being idle in this clock (Table 6.4). -/
def noteUse (s : State) : State :=
  s.setSleep (fun p => { p with
    combUse := if ringRuns s then s.time.phys else p.combUse
    flashUse := if flashBusy s then s.time.phys else p.flashUse })

/-- DOMAIN_IDLE_OFF: an on-demand domain powers down by itself once idle for its time (R191, R192). -/
def execDomainIdleOff (d : Domain) (s : State) : Out :=
  .next (if s.running = true ∧ s.domOn d = true ∧ domTouched d s = false ∧ idleDue d s = true then
      let s := (if d = .sense then coolSensors s else s).setDom d false
      s.setSleep (fun p => { p with upAt := vset p.upAt (Domain.idx d) none })
    else s)

/-! ## AON words -/

/-- The wake record by word (Table 6.12). -/
def wakeWord (w : WakeRec) (off : Nat) : Word :=
  match off with
  | 0x80 => toWord (w.code.toNat + put (bit01 w.dormant) 8 + put (bit01 w.von) 9 +
      put (bit01 (1 < ((List.range 16).filter (fun i => w.mask.getLsbD i)).length)) 10 + put w.info.toNat 16)
  | 0x84 => toWord w.mask.toNat
  | 0x88 => toWord w.entryt
  | 0x8C => toWord (w.entryt / 2 ^ 32)
  | 0x90 => toWord w.waket
  | 0x94 => toWord (w.waket / 2 ^ 32)
  | 0x98 => toWord (w.discb % 4096 + put (w.discr % 256) 16)
  | 0x9C => toWord w.sleeps.toNat
  | _ => 0

/-- The counters and last refuser by word (Table 6.9). -/
def refuseWord (r : RefuserRec) (off : Nat) : Word :=
  let n (i : Nat) := vgetD r.nref i 0
  let a (i : Nat) := vgetD r.aborts i 0
  match off with
  | 0xA0 => b16 (n 0) (n 1)
  | 0xA4 => b16 (n 2) (n 3)
  | 0xA8 => b16 (n 4) (n 5)
  | 0xAC => b16 (a 0) (a 1)
  | 0xB0 => b16 (a 2) (a 3)
  | 0xB4 => toWord ((a 4).toNat + put r.lastep.toNat 16 + put r.lastwake.toNat 24)
  | 0xB8 => r.name
  | 0xBC => toWord (r.cls.toNat + put r.tenant.toNat 8 + put r.inst.toNat 16)
  | _ => 0

end Sys2Proof.Machine
end

