-- ==== Sys2Proof/Machine/Thermal.lean ====
section
/-!
DEFINITION. Sys2Proof/Machine/Thermal.lean: rounds, cross-check, thresholds, the orderly stop and the immediate cut
(spec/07_heat.md). Temperatures are in 1/16 of a degree.
-/
namespace Sys2Proof.Machine

/-! ## Readings and the cross-check (R217 to R222) -/

/-- A reading saturates at the range limits (R218). -/
def clampTemp (t : Int) : Int := if t < -800 then -800 else if 2400 < t then 2400 else t

/-- The six readings of a round. -/
def sixReadings (r : ThermRead) : Vector Int 6 :=
  #v[clampTemp r.t0, clampTemp r.t1, clampTemp r.t2, clampTemp r.t3, clampTemp r.t4, clampTemp r.t5]

/-- Strikes of a sensor after its check (R220, R221): unchanged when unchecked. -/
def newStrikes (read : Vector Int 6) (valid : Vector Bool 6) (strikes : Vector Nat 6) (n : Nat) : Nat :=
  let old := vgetD strikes n 0
  if vgetD valid n false then
    match neighbourMedian read valid n with
    | none => old
    | some m => if 96 < (vgetD read n 0 - m).natAbs then min 3 (old + 1) else 0
  else old

/-- Exclusions of a round, in ascending sensor number: a sensor whose strikes reach three from two is broken when at
least three valid sensors remain, and held otherwise (R221). Answers the valid set, the held set, the sensors newly
broken and newly held. -/
def exclude (old new : Vector Nat 6) : List Nat → Vector Bool 6 → Vector Bool 6 → List Nat → List Nat →
    Vector Bool 6 × Vector Bool 6 × List Nat × List Nat
  | [], valid, held, br, he => (valid, held, br, he)
  | n :: r, valid, held, br, he =>
    if vgetD valid n false = true ∧ vgetD old n 0 = 2 ∧ vgetD new n 0 = 3 then
      if 3 < (valid.toList.filter id).length then exclude old new r (vsetD valid n false) held (br ++ [n]) he
      else exclude old new r valid (vsetD held n true) br (he ++ [n])
    else exclude old new r valid (if vgetD new n 0 = 0 then vsetD held n false else held) br he

/-- Tmax and its lowest-numbered sensor over the valid sensors (R218). -/
def tmaxOf (read : Vector Int 6) (valid : Vector Bool 6) : Int × Nat :=
  let l := (List.range 6).filter (fun n => vgetD valid n false)
  match l with
  | [] => (-800, 0)
  | a :: r => r.foldl (fun b n => if b.1 < vgetD read n 0 then (vgetD read n 0, n) else b) (vgetD read a 0, a)

/-- The argument of event 0xA0 (Table 7.4). -/
def thermArg (kind sensor : Nat) (tmax : Int) : Word :=
  toWord (kind + put sensor 4 + put (BitVec.ofInt 16 tmax).toNat 16)

def thermEvent (kind sensor : Nat) (s : State) : State :=
  s.event 0xA0 (thermArg kind sensor s.therm.tmax) s.time.hive

/-- Readings, strikes and exclusions of a round (R217 to R222). -/
def crossCheck (read : Vector Int 6) (s : State) : State :=
  let T := s.therm
  let n (i : Nat) := newStrikes read T.valid T.strikes i
  let new : Vector Nat 6 := #v[n 0, n 1, n 2, n 3, n 4, n 5]
  let (valid, held, br, he) := exclude T.strikes new [0, 1, 2, 3, 4, 5] T.valid T.heldS [] []
  let (tm, src) := tmaxOf read valid
  let dis := (List.range 6).any (fun i => vgetD valid i false && vgetD held i false)
  let s := { s with therm := { T with
    read := read, strikes := new, valid := valid, heldS := held, disagree := dis
    tmax := tm, tsrc := finOf 6 src, rounds := T.rounds + 1 } }
  let s := match br with | n :: _ => thermEvent 5 n s | [] => s
  match he with | n :: _ => thermEvent 6 n s | [] => s

/-! ## Thresholds (Table 7.3) -/

def warnStep (s : State) : State :=
  let T := s.therm
  let w : Int := T.warnc.toNat * 16
  if T.inwarn = false ∧ w ≤ T.tmax then thermEvent 1 T.tsrc.val { s with therm := { T with inwarn := true } }
  else if T.inwarn = true ∧ T.tmax < w - 48 then thermEvent 2 T.tsrc.val { s with therm := { T with inwarn := false } }
  else s

/-- THROTTLE is entered or left (R184, R185, R223). The orderly stop changes no level. -/
def throttleStep (s : State) : State :=
  let T := s.therm
  if T.inthrot = false ∧ 1680 ≤ T.tmax then
    let s := thermEvent 3 T.tsrc.val { s with therm := { T with inthrot := true }, level := { s.level with thlim := 1 } }
    if T.stop.isSome then s else forceL1 s
  else if T.inthrot = true ∧ T.tmax < 1600 then
    thermEvent 4 T.tsrc.val { s with therm := { T with inthrot := false }, level := { s.level with thlim := 3 } }
  else s

/-! ## Slope, stop and cut (R227 to R232) -/

/-- Rounds back and the Tmax then (R228). -/
def slopeBase (T : ThermSt) : Nat × Int :=
  let k := min 4 T.hist.length
  (k, if k = 0 then T.tmax else T.hist.getD (k - 1) T.tmax)

/-- The projection Tmax + S × 2.5 ms reaches 125 °C, without rounding (R227). -/
def projects (T : ThermSt) : Bool :=
  let (k, old) := slopeBase T
  if k = 0 then decide (2000 ≤ T.tmax)
  else decide (4000 * (k : Int) ≤ 2 * (k : Int) * T.tmax + 5 * (T.tmax - old))

/-- SLOPE as recorded: rounded to nearest, ties away from zero, saturated to 16 bits (Table 7.6). -/
def slopeWord (T : ThermSt) : BitVec 16 :=
  let (k, old) := slopeBase T
  if k = 0 then 0
  else
    let d := T.tmax - old
    let m : Int := ((2 * d.natAbs + k) / (2 * k) : Nat)
    BitVec.ofInt 16 (satInt 16 (if d < 0 then -m else m))

/-- BROKEN of the thermal record. -/
def brokenBits (T : ThermSt) : BitVec 6 :=
  (List.range 6).foldl (fun m n => if vgetD T.valid n true then m else m ||| BitVec.twoPow 6 n) 0

/-- The record of a new stop or cut by slope (Table 7.6). -/
def stopRecord (kind step : Nat) (s : State) : ThermRec :=
  let T := s.therm
  ⟨BitVec.ofNat 2 kind, BitVec.ofNat 3 step, false, false, false, brokenBits T, 0, BitVec.ofInt 16 T.tmax,
   BitVec.ofNat 3 T.tsrc.val, slopeWord T, s.time.hive, 98⟩

/-- A PMIC is declared: the owner has started and declared no fixed supply (R181; before that the device sends no
frame, R135). -/
def pmicDeclared (s : State) : Bool := !s.level.fixed && s.boot.phase == .done

/-- VCORE is off, or may go off, or its SET frame is not yet acknowledged: asleep or in sleep entry after an acknowledged
OFF frame, an OFF frame in progress, or a wake in progress. -/
def vcoreOff (s : State) : Bool :=
  ((s.time.mode == .hibernate || s.time.mode == .dormant) && !s.sleep.wake.von) ||
  (s.time.mode == .releasing && s.time.relAck) ||
  (match s.sleep.entry with | some e => e.vOff | none => false) ||
  s.level.srl.any (fun f => f.started.isSome && isOff f.why)

/-- The AON island's part of a cut: THERM_N low, pad holds latched, domains cut, the post-stop state (R231, R234).
The OFF frame is sent only when no frame is in progress and a PMIC is declared. -/
def cutDomains (s : State) : State :=
  let (_, s) := latchPads s
  let left := endFrames s.level.srl
  let sendOff := left.isEmpty && pmicDeclared s
  let ack := sendOff || vcoreOff s
  let s := dropWorking s
  let s := { s with
    therm := { s.therm with thermLow := true, wakeOut := false }
    level := { s.level with srl := left, change := none, pll := none, forceNext := false }
    sleep := { s.sleep with
      entry := none, armed := ArmedSet.empty, domains := 1, upAt := Vector.replicate 12 none, discard := false
      bypass := false, listenTo := 0 }
    time := { s.time with mode := .postStop, relAck := ack, valid := false } }
  if sendOff then s.pushFrame (offFrame .stopOff s.time.phys) else s

/-- The immediate cut by the slope rule (R231): a running orderly stop is abandoned, and the record keeps its STEP,
JDONE, LFSENT and STOPT (Example 7.A); without one the record is new. -/
def cutBySlope (s : State) : State :=
  let R := s.therm.record
  let rec' : ThermRec := match s.therm.stop with
    | some st => { R with
        kind := 2, abandon := true, step := BitVec.ofNat 3 st.step, tmax := BitVec.ofInt 16 s.therm.tmax
        tsrc := BitVec.ofNat 3 s.therm.tsrc.val, slope := slopeWord s.therm }
    | none => stopRecord 2 0 s
  cutDomains (stopAbandon { s with therm := { s.therm with record := rec' } })

/-- A core at the start of the stop: an invocation at a boundary, or in a stalled instruction, ends at once, and any other
at its next boundary (Table 7.5 step 1). -/
def stopCore (k : Core) : Core :=
  if k.stall.isSome = true ∨ k.paid = 0 then
    { k with inv := none, stall := none, resuming := false, paused := false, paid := 0, wokeEnd := true }
  else { k with inv := k.inv.map (fun v => { v with stopped := true }), paused := false }

/-- Every invocation ends with no fault code, no record and no change to FRUN (Table 7.5 step 1). -/
def endAll (s : State) : State :=
  { s with
    cores := vmap stopCore s.cores
    ctx := Vector.replicate 16 none
    host := { s.host with running := none, req := none } }

/-- The orderly stop starts (R227, Table 7.5 step 1). A sleep entry in progress ends without retiring, and with it the
armed set and its bypass. A level change ends where it stands and no further frame is sent; one in progress goes on to
its 24th period. -/
def startStop (s : State) : State :=
  let s := { s with
    therm := { s.therm with
      record := stopRecord 1 1 s, thermLow := true, stop := some ⟨1, s.time.phys, false⟩, frozen := true }
    level := { s.level with change := none, tgt := s.level.cur, srl := endFrames s.level.srl, forceNext := false }
    later := s.later.filter (fun x => x != .force)
    sleep := { s.sleep with entry := none, armed := ArmedSet.empty, discard := false, bypass := false } }
  endAll s

/-- The stop decisions of a round (R223, R227). -/
def stopStep (s : State) : State :=
  if s.therm.stop.isSome then (if projects s.therm then cutBySlope s else s)
  else if 1840 ≤ s.therm.tmax then (if projects s.therm then cutBySlope s else startStop s)
  else s

/-! ## The restart check of R153 -/

/-- The boot after the check, and without one at the other resets: free-flying flight runs the fixed work of R148, which
has started at KEEPER ready; tethered flight waits for a doorbell, unless one has been rung (R150, R151). -/
def bootBegin (s : State) : State :=
  let ph : BootPhase :=
    if s.boot.testEn then .none
    else if s.boot.mode then .fixed (s.boot.keeperClk + 4096)
    else match s.boot.bell with
      | some c => .armed c
      | none => .waiting
  { s with boot := { s.boot with phase := ph, bell := none } }

/-- A refused restart: BOOTST ST_THERM, the post-stop state again, RPOINT lowered, RECOV counted (R153, R235). -/
def refuseRestart (s : State) : State :=
  let R := s.therm.record
  let s := { s with
    boot := { s.boot with bootst := stTherm, phase := .none }
    therm := { s.therm with record := { R with
      recov := satInc R.recov, rpoint := BitVec.ofNat 8 (max 70 (R.rpoint.toNat - 4)) } } }
  cutDomains s

/-- A round counts toward the check of R153; the third one decides. -/
def restartRound (s : State) : State :=
  if s.boot.phase = .thermal then
    if s.boot.rounds ≤ 1 then
      if 1600 ≤ s.therm.tmax then refuseRestart s
      else bootBegin { s with therm := { s.therm with thermLow := false } }
    else { s with boot := { s.boot with rounds := s.boot.rounds - 1 } }
  else s

/-- The readings of a round and its decisions, 4 clocks after the round starts (R217, R225, R227). -/
def thermalRound (r : ThermRead) (s : State) : State :=
  let live := match s.therm.stop with | some st => st.step != 6 | none => true
  if s.running = true ∧ live = true ∧ s.therm.roundClk.map (· + 4) = some s.time.clk then
    let old := s.therm.tmax
    let first := s.therm.rounds = 0
    let s := crossCheck (sixReadings r) { s with therm := { s.therm with
      roundClk := none, hist := if first then [] else (old :: s.therm.hist).take 4 } }
    let s := stopStep (throttleStep (warnStep s))
    if s.running then restartRound s else s
  else s

/-- THERMAL_ROUND. -/
def execThermalRound (r : ThermRead) (s : State) : Out := .next (unlessEarly (.thermalRound r) (thermalRound r) s)

/-- What the device does by itself in the clock in which a LEVEL is checked: a THLIM change and the end of a level change
take effect first (R185, section 5.6, Edges). -/
def levelFirst : Instr → Option (State → State)
  | .thermalRound r => some (thermalRound r)
  | .clockSwitch => some clockSwitch
  | .srqAck => some srqAck
  | _ => none

/-- LEVEL #n, checked in the order of R171. -/
def execLevel (c : CoreId) (f : RForm) (s : State) : Out :=
  .next (specInstr c (.level c f)
    { o2 := fun _ _ _ => f.mod.toNat / 4 == 0 && unusedZero [f.rd, f.ra, f.rb]
      o3 := fun t _ s => s.may t capLevel
      body := fun _ _ _ s =>
        let s := ownFirst levelFirst s
        let n : BitVec 2 := BitVec.ofNat 2 f.mod.toNat
        let L := s.level
        if L.change.isSome then .status stBusy s
        else if n = L.cur then .ok s
        else if L.maxl.toNat < n.toNat then .status stRange s
        else if L.thlim.toNat < n.toNat then .status stTherm s
        else .status stPending (startChange n false s) } s)

/-- THERMAL_CUT: the analogue comparator trips when a diode reaches 125 °C, in every state with PGOOD high (R231,
R232, R236). -/
def execThermalCut (r : ThermRead) (s : State) : Out :=
  .next (
    if s.time.mode = .off ∨ s.time.mode = .postStop ∨ (r.d1 < 2000 ∧ r.d4 < 2000 ∧ r.d5 < 2000) then s
    else
      let T := s.therm
      let rec' : ThermRec := match T.stop with
        | some st => { T.record with kind := 3, abandon := true, step := BitVec.ofNat 3 st.step }
        | none => { stopRecord 3 0 s with
            slope := 0
            tmax := if T.rounds = 0 then 0 else BitVec.ofInt 16 T.tmax
            tsrc := if T.rounds = 0 then 0 else BitVec.ofNat 3 T.tsrc.val }
      cutDomains (stopAbandon { s with therm := { T with record := rec' } }))

/-- ORDERLY_STOP_STEP_END: a step of the orderly stop ends and the next begins; after step 6 the device is in the
post-stop state (R228, R229, Table 7.5). -/
def execOrderlyStopStepEnd (s : State) : Out :=
  .next (match s.therm.stop with
    | none => s
    | some st =>
      let go (k : Nat) (s : State) : State :=
        { s with therm := { s.therm with
          stop := some { st with step := k, since := s.time.phys }
          record := { s.therm.record with step := BitVec.ofNat 3 k } } }
      if s.running = false then s
      else match st.step with
        | 1 => if st.since + 2 * s.inc ≤ s.time.phys then stopCommit (go 2 s) else s
        | 2 =>
          if stopSettled s = false ∧ s.time.phys < st.since + usTicks 1000 then s
          else
          let done := stopCommitted s && stopSettled s
          let s := if stopSettled s then s else stopAbandon s
          let (leave, s) := stopLeave (go 3 { s with therm := { s.therm with record := { s.therm.record with jdone := done } } })
          { s with therm := { s.therm with stop := s.therm.stop.map (fun x => { x with leave := leave }) } }
        | 3 =>
          if leaveOver s = false ∧ s.time.phys < st.since + usTicks 700 then s
          else
          let s := { s with therm := { s.therm with record := { s.therm.record with lfsent := st.leave && leaveOver s } } }
          aoutAllLow (go 4 (leaveEnd s))
        | 4 => (latchPads (go 5 s)).2
        | 5 =>
          if st.since + 2 * s.inc ≤ s.time.phys then
            let s := go 6 { s with therm := { s.therm with wakeOut := false } }
            if pmicDeclared s then s.pushFrame (offFrame .stopOff s.time.phys) else s
          else s
        | _ =>
          let ack := pmicDeclared s || s.time.relAck
          let left := s.level.srl
          let s := dropWorking s
          { s with
            therm := { s.therm with thermLow := true }
            level := { s.level with srl := left, pll := none }
            sleep := { s.sleep with domains := 1, upAt := Vector.replicate 12 none }
            time := { s.time with mode := .postStop, relAck := ack, valid := false } })

/-- THERMAL_RESTART: all three diodes read below RPOINT; a reset with CAUSE 3 and wake code 0x0A begins (R235,
R156, Table 4.2). -/
def execThermalRestart (r : ThermRead) (s : State) : Out :=
  .next (
    let p : Int := s.therm.record.rpoint.toNat * 16
    if s.time.mode = .postStop ∧ r.d1 < p ∧ r.d4 < p ∧ r.d5 < p then
      let ack := s.time.relAck
      let s := { s with
        boot := { BootSt.reset with cause := 3 }
        level := { LevelSt.reset with seq := s.level.seq, srl := s.level.srl.filter (fun f => f.started.isSome) }
        time := { s.time with mode := .releasing, relAt := some (s.time.phys + usTicks 150) }
        sleep := { s.sleep with wake := { s.sleep.wake with
          code := 0x0A, dormant := true, von := false, info := 0, mask := BitVec.twoPow 16 10
          entryt := 0, waket := 0, discb := 0, discr := 0 } } }
      if ack then s.pushFrame (setFrame .wake 1 s.time.phys) else s
    else s)

/-! ## Status words -/

/-- The thermal record by word (Table 7.6). -/
def thermRecWord (R : ThermRec) (off : Nat) : Word :=
  match off with
  | 0x100 => toWord (R.kind.toNat + put R.step.toNat 2 + put (bit01 R.abandon) 5 + put (bit01 R.jdone) 6 +
      put (bit01 R.lfsent) 7 + put R.broken.toNat 8 + put R.recov.toNat 16)
  | 0x104 => toWord (R.tmax.toNat + put R.tsrc.toNat 16)
  | 0x108 => toWord R.slope.toNat
  | 0x10C => toWord R.stopt
  | 0x110 => toWord (R.stopt / 2 ^ 32)
  | 0x114 => toWord R.rpoint.toNat
  | _ => 0

/-- The thermal unit's status window by word (Table 7.7). -/
def thermWindow (T : ThermSt) (off : Nat) : Word :=
  if off < 0x18 then
    let n := off / 4
    toWord ((BitVec.ofInt 16 (vgetD T.read n 0)).toNat + put (bit01 (vgetD T.valid n true)) 16 +
      put (vgetD T.strikes n 0) 17)
  else if off = 0x18 then toWord ((BitVec.ofInt 16 T.tmax).toNat + put T.tsrc.val 16)
  else if off = 0x1C then
    toWord (T.warnc.toNat + put (bit01 T.inwarn) 8 + put (bit01 T.inthrot) 9 + put (bit01 T.disagree) 10 +
      put (bit01 T.declerr) 11)
  else if off = 0x20 then toWord T.rounds
  else 0

/-- The thermal declaration (R224): WARN and DECLERR for the word, bad when it held a double-bit error. -/
def thermDecl (w : Word) (bad : Bool) (T : ThermSt) : ThermSt :=
  if bad = false ∧ w = 0 then { T with warnc := 95 }
  else if bad = false ∧ zeroBits w 31 8 = true ∧ 60 ≤ fieldOf w 7 0 ∧ fieldOf w 7 0 ≤ 104 then
    { T with warnc := BitVec.ofNat 8 (fieldOf w 7 0) }
  else { T with warnc := 95, declerr := true }

end Sys2Proof.Machine
end

