-- ==== Sys2Proof/Machine/Tenants.lean ====
section
/-!
DEFINITION. Sys2Proof/Machine/Tenants.lean: GRANT, REVOKE, SPOOL and the loader (spec/03_tenants_and_spools.md).
-/
namespace Sys2Proof.Machine

/-! ## GRANT (R100 to R104) -/

/-- Bits of each word of a capability record that must be zero (Table 3.2). -/
def recordReserved : List (Nat × Nat × Nat) :=
  [(0, 31, 12), (1, 15, 11), (1, 23, 23), (3, 31, 14), (10, 31, 16), (11, 31, 16), (12, 15, 11), (12, 31, 28),
   (13, 31, 17), (14, 31, 20), (15, 31, 0)]

/-- Two spans of bytes overlap. -/
def spansMeet (a n b m : Nat) : Bool := 0 < n && 0 < m && a < b + m && b < a + n

/-- The code SRAM window of a record: base and bytes. -/
def codeWinOf (w11 : Word) : Nat × Nat := (codeBase + fieldOf w11 7 0 * 4096, fieldOf w11 15 8 * 4096)

/-- The code SRAM window overlaps that of another tenant that is not VACANT, or a section that the owner spool
loaded into code SRAM (R102). A tenant revoked while it loads has no record and so no window, although its state is
LOADING until the clean-up ends (DESIGN CHOICE, log entry 111). -/
def codeOverlaps (s : State) (t : Nat) (w11 : Word) : Bool :=
  let (b, n) := codeWinOf w11
  (mapIdxFrom (fun i (x : Tenant) =>
    i != t && i != 0 && x.state != .vacant && spansMeet b n (codeWinOf (x.word 11)).1 (codeWinOf (x.word 11)).2)
    0 s.tenants.toList).any id ||
  s.boot.ownerCode.any (fun r => spansMeet b n r.1 r.2)

/-- A record passes R102. -/
def recordOk (s : State) (t : Nat) (ws : Words) : Bool :=
  fieldOf (wordAt ws 0) 3 0 == 1 &&
  recordReserved.all (fun r => zeroBits (wordAt ws r.1) r.2.1 r.2.2) &&
  fieldOf (wordAt ws 11) 7 0 + fieldOf (wordAt ws 11) 15 8 ≤ 128 &&
  fieldOf (wordAt ws 12) 10 0 + fieldOf (wordAt ws 12) 27 16 ≤ 2048 &&
  fieldOf (wordAt ws 13) 7 0 + fieldOf (wordAt ws 13) 16 8 ≤ 256 &&
  fieldOf (wordAt ws 14) 19 16 ≤ 10 && !codeOverlaps s t (wordAt ws 11)

/-- A list of words as a vector of `n`, zero past its end. -/
def wordsVec (n : Nat) (ws : Words) : Vector Word n := vmap id ⟨⟨(List.range n).map (wordAt ws)⟩, by simp⟩

/-- The tenant named by MOD[4:0]. -/
def tenantOf (m : BitVec 8) : Tid := ⟨m.toNat % 32, Nat.mod_lt _ (by decide)⟩

/-- MOD of GRANT, SPOOL and REVOKE names a tenant other than T0, and its other bits are zero (R56, R88). -/
def tenantMod (m : BitVec 8) : Bool := m.toNat < 32 && m != 0

/-- GRANT wa (R100 to R104). -/
def execGrant (c : CoreId) (f : RForm) (s : State) : Out :=
  .next (specInstr c (.grant c f)
    { o2 := fun t r _ => tenantMod f.mod && unusedZero [f.rd, f.rb] && blockOk t (r.rd f.ra).toNat 24
      o3 := fun t _ _ => t = 0
      body := fun _ _ r s =>
        let t := tenantOf f.mod
        let x := s.tenant t
        if x.state = .loading ∨ x.state = .active then .status stState s
        else withBlock (r.rd f.ra).toNat 24 s (fun ws s =>
          if recordOk s t.val ws then
            let x := s.tenant t
            let x := { x with state := .granted, record := wordsVec 24 ws, qused := 0, qout := false }
            let s := { s with later := s.later.filter (· != Later.withdrawn t) }
            .ok (s.setTenant t { x with qperiod := s.time.hive / x.period }) 24
          else .status stRange s 24) } s)

/-! ## The loader (R111 to R119) -/

/-- The four owner key slots hold only 0xFF (R122). -/
def sealedBytes (s : State) (off n : Nat) : List Byte := memGets s.mem (flashBase + 0x7FFF00 + off) n

def slotEmpty (b : List Byte) : Bool := b.all (fun x => x == 0xFF)

/-- The lowest non-empty owner key slot that equals a digest. -/
def keySlot (s : State) (dig : List Byte) : Option Nat :=
  [0, 1, 2, 3].find? (fun k =>
    let b := sealedBytes s (32 * k) 32
    !slotEmpty b && b == dig)

def allSlotsEmpty (s : State) : Bool := slotEmpty (sealedBytes s 0 128)

/-- The parsed header of a spool (Table 3.4). -/
structure Header where
  magic : Bool
  owner : Bool
  fmode : Bool
  total : Nat
  nsect : Nat
  nbind : Nat
  version : Word
  pubkey : List Byte
  reservedOk : Bool

def parseHeader (ws : Words) : Header :=
  let w (i : Nat) := wordAt ws i
  ⟨w 0 == 0x4C4F5053 && fieldOf (w 1) 7 0 == 1, bitOf (w 1) 8, bitOf (w 1) 9, (w 2).toNat,
   fieldOf (w 3) 7 0, fieldOf (w 3) 15 8, w 4, bytesOfWords ((ws.drop 6).take 8),
   zeroBits (w 1) 31 10 && zeroBits (w 3) 31 16 && w 5 == 0 && w 14 == 0 && w 15 == 0⟩

/-- MAGIC, HVER, reserved fields, NSECT and NBIND (Table 3.6 step 3, Table 4.5 step 2). -/
def Header.formOk (h : Header) : Bool :=
  h.magic && h.reservedOk && 1 ≤ h.nsect && h.nsect ≤ 8 && h.nbind ≤ 64

/-- Words of the section table and binding section. -/
def Header.tableWords (h : Header) : Nat := 4 * h.nsect + 3 * h.nbind

/-- A raw section entry: DEST, LENGTH, OFFSET, TYPE word (Table 3.5). -/
structure RawSect where
  dest : Nat
  len : Nat
  off : Nat
  typ : Word

def parseSects : Nat → Words → List RawSect
  | n + 1, a :: b :: c :: d :: r => ⟨a.toNat, b.toNat, c.toNat, d⟩ :: parseSects n r
  | _, _ => []

def parseBinds : Words → List (Word × Word × Word)
  | a :: b :: c :: r => (a, b, c) :: parseBinds r
  | _ => []

/-- The layout of R111 from a running offset: entries well-formed, data in order with no gaps; answers the end. -/
def layoutEnd : Nat → List RawSect → Option Nat
  | o, [] => some o
  | o, x :: r =>
    if x.dest % 4 ≠ 0 ∨ x.len % 4 ≠ 0 ∨ x.len = 0 ∨ zeroBits x.typ 31 2 = false then none
    else if x.typ.toNat < 2 then (if x.off = o then layoutEnd (o + x.len) r else none)
    else if x.off = 0 then layoutEnd o r else none

/-- The layout ends at TOTAL (R111). -/
def layoutOk (h : Header) (l : List RawSect) : Bool :=
  layoutEnd (64 + 16 * h.nsect + 12 * h.nbind) l == some (h.total - 64) && 64 ≤ h.total

/-- The sections with their bytes, as the loader reads them. -/
def loadSections (s : State) (image : Nat) (l : List RawSect) : List Section :=
  l.map (fun x => ⟨x.dest, x.len, x.typ.toNat,
    if x.typ.toNat < 2 then memGets s.mem (image + x.off) x.len
    else if x.typ.toNat = 3 then memGets s.mem x.dest x.len else []⟩)

/-- Bytes of the sections of one type. -/
def typeBytes (t : Nat) (l : List Section) : Nat := (l.filter (fun x => x.typ == t)).foldl (fun n x => n + x.len) 0

/-- 32-byte lines that a span of flash touches (R115). -/
def linesOf (a n : Nat) : Nat := (a + n + 31) / 32 - a / 32

/-- Spans of the code SRAM window that no section of type 0 covers, given the sections (R115). -/
def uncovered : List Section → Nat → Nat → List (Nat × Nat)
  | [], a, n => [(a, n)]
  | x :: r, a, n =>
    if x.typ = 0 ∧ spansMeet a n x.dest x.len then
      uncovered r a (x.dest - a) ++ uncovered r (x.dest + x.len) (a + n - (x.dest + x.len))
    else uncovered r a n

/-- A loader for an image whose header and tables have been read. -/
def mkLoader (s : State) (tgt : LoadFor) (image : Nat) (h : Header) (tbl : Words) (win : Nat × Nat) : Loader :=
  let secs := loadSections s image (parseSects h.nsect tbl)
  let lines := (secs.filter (fun x => x.typ == 3)).foldl (fun n x => n + linesOf x.dest x.len) 0
  { target := tgt, startClk := s.time.clk, h := h.total - 64, xipLines := lines, xipDone := 0, xipBase := 0
    xipCost := max 32 (fillClks s.level.cur)
    z := (typeBytes 2 secs + (uncovered secs win.1 win.2).foldl (fun n x => n + x.2) 0) / 4
    copied := 0, nbind := h.nbind, sections := secs, head := memGets s.mem image (h.total - 64)
    pubkey := h.pubkey, sig := memGets s.mem (image + (h.total - 64)) 64
    binds := parseBinds (tbl.drop (4 * h.nsect)), version := h.version
    eccBad := none
    total := h.total, image := image, phase := .loading, wiped := 0, result := 0, win := win, revoked := false }

/-- Clocks of step 3 of Table 3.7 (R115, R116). -/
def Loader.pass (l : Loader) : Nat := l.h + l.xipBase + (l.xipLines - l.xipDone) * l.xipCost + l.z

/-- C (R115). -/
def Loader.clocks (l : Loader) : Nat := 512 + l.pass + 250000 + 4 * l.nbind

/-- What the pass has written once `n` of its clocks have passed: image bytes one a clock from byte 0x40 on, then,
after the type 3 lines, the zero writes (Table 3.7; that the zero writes come last is a DESIGN CHOICE, log entry 12). -/
def writeSections (old n : Nat) : Nat → List Section → State → State
  | _, [], s => s
  | off, x :: r, s =>
    if x.typ < 2 then
      let k0 := min x.len (old + 64 - off)
      let k1 := min x.len (n + 64 - off)
      let s := if k0 < k1 then s.putBytes (x.dest + k0) ((x.data.drop k0).take (k1 - k0)) else s
      writeSections old n (off + x.len) r s
    else writeSections old n off r s

/-- Bytes `b0` to `b1` of a list of spans, counted in order, written with zero. -/
def zeroPart : Nat → Nat → List (Nat × Nat) → State → State
  | _, _, [], s => s
  | b0, b1, (a, n) :: r, s =>
    let s := if min n b0 < min n b1 then s.zeroSpan (a + min n b0) (min n b1 - min n b0) else s
    zeroPart (b0 - n) (b1 - n) r s

/-- The spans that step 3 writes with zero: the code SRAM window that no type 0 section covers, and type 2 (R115). -/
def Loader.zeros (l : Loader) : List (Nat × Nat) :=
  uncovered l.sections l.win.1 l.win.2 ++ (l.sections.filter (fun x => x.typ == 2)).map (fun x => (x.dest, x.len))

/-- Bytes of those spans written once `n` clocks of the pass have passed, at 4 bytes a clock (R115). -/
def Loader.zeroed (l : Loader) (n : Nat) : Nat := 4 * (n - (l.pass - l.z))

/-- Offset in the image of the first section's bytes. -/
def Loader.body (l : Loader) : Nat := 64 + 16 * l.sections.length + 12 * l.nbind

/-- The writes of the pass from clock `l.copied` up to clock `n`. -/
def loaderWrites (l : Loader) (n : Nat) (s : State) : State :=
  writeSections l.copied n l.body l.sections (zeroPart (l.zeroed l.copied) (l.zeroed n) l.zeros s)

/-- The image words that the pass reads from clock `k` of the pass on, `n` clocks, through their code (R26): the clock
at which it meets a double-bit error, if any (R118). -/
def passReads (l : Loader) : Nat → Nat → State → Option Nat × State
  | _, 0, s => (none, s)
  | k, n + 1, s =>
    if k % 4 = 0 ∧ k < l.h ∧ regionOf (l.image + 64 + k) ≠ .flash then
      let r := readSram (l.image + 64 + k) s
      if r.dbl then (some (k + 1), r.s) else passReads l (k + 1) n r.s
    else passReads l (k + 1) n s

/-- Clocks of the pass that have passed. -/
def Loader.passed (l : Loader) (clk : Nat) : Nat :=
  min l.pass (min (l.eccBad.getD l.pass) (clk - (l.startClk + 512)))

/-- The first `n` bytes of a list of spans. -/
def spansUpTo : Nat → List (Nat × Nat) → List (Nat × Nat)
  | _, [] => []
  | n, (a, k) :: r => if n = 0 then [] else (a, min n k) :: spansUpTo (n - k) r

/-- The bytes that the copied sections have filled. -/
def copiedSpans (l : Loader) : Nat → List Section → List (Nat × Nat)
  | _, [] => []
  | off, x :: r =>
    if x.typ < 2 then
      let got := min x.len (l.copied + 64 - off)
      (if 0 < got then [(x.dest, got)] else []) ++ copiedSpans l (off + x.len) r
    else copiedSpans l off r

/-- Bytes outside the code SRAM window that a load has written: they are data SRAM bytes, and for the owner, which has
no window, code SRAM bytes too (R118, R145). -/
def dataWritten (l : Loader) : List (Nat × Nat) :=
  (copiedSpans l l.body l.sections ++ spansUpTo (l.zeroed l.copied) l.zeros).filter
    (fun x => l.win.2 = 0 || !spanIn codeBase codeSize x.1 x.2)

/-- What a clean-up covers: the whole code SRAM window and what the load had written (R118, R127, R145). -/
def Loader.wipe (l : Loader) : List (Nat × Nat) := l.win :: dataWritten l

/-- Bytes of a list of spans. -/
def spanBytes (l : List (Nat × Nat)) : Nat := l.foldl (fun n x => n + x.2) 0

/-- The clean-up starts, at 4 bytes a clock (R118, R127, R145). -/
def startCleanup (result : BitVec 8) (l : Loader) (s : State) : State :=
  { s with loader := some { l with
    phase := .cleanup (s.time.clk + spanBytes l.wipe / 4), wiped := 0, result := result } }

/-- Bytes that a clean-up which ends at a clock has written by another clock. -/
def Loader.wipedBy (l : Loader) (endClk clk : Nat) : Nat :=
  if endClk ≤ clk then spanBytes l.wipe else 4 * (clk + spanBytes l.wipe / 4 - endClk)

/-- The loader's reads and writes catch up with the clock. -/
def loaderAdvance (s : State) : State :=
  match s.loader with
  | some l =>
    match l.phase with
    | .loading =>
      let n := l.passed s.time.clk
      if l.copied < n then
        let (bad, s) := if l.eccBad.isSome then (l.eccBad, s) else passReads l l.copied (n - l.copied) s
        let n := min n (bad.getD n)
        loaderWrites l n { s with loader := some { l with copied := n, eccBad := bad } }
      else s
    | .cleanup e =>
      let n := l.wipedBy e s.time.clk
      if l.wiped < n then zeroPart l.wiped n l.wipe { s with loader := some { l with wiped := n } } else s
  | none => s

/-- One clock of the loader: its reads and writes, and after a REVOKE its stop, in the clock after (R116, R127). -/
def loaderClock (s : State) : State :=
  let s := loaderAdvance s
  match s.loader with
  | some l => if l.phase = .loading ∧ l.revoked = true then startCleanup stCap l s else s
  | none => s

/-- The digest of a spool (R113). -/
def spoolDigest (l : Loader) : List Byte :=
  sha256 (l.head ++ (l.sections.filter (fun x => x.typ == 3)).flatMap (fun x => x.data))

/-- Step 4 of Table 3.7 (R113, R117). -/
def spoolSigned (l : Loader) : Bool := edVerify l.pubkey (spoolDigest l) l.sig

/-- Step 5: each entry checked as BIND would check it for the tenant, and taken in order (R112, Table 3.7); the
first refusal decides. -/
def installAll (t : Tid) : List (Word × Word × Word) → State → Except (BitVec 8) State
  | [], s => .ok s
  | (a, b, c) :: r, s =>
    if zeroBits a 12 8 = false then .error stRange
    else
      let blk : BindBlock := ⟨a ||| (toWord t.val <<< 8), b, c⟩
      match bindDecide s t blk with
      | .error e => .error e
      | .ok k => installAll t r (installBinding k blk s)

/-- What a load that has run its clocks comes to: an error with its status, or the state with its bindings. -/
def loadOutcome (l : Loader) (t : Tid) (s : State) : Except (BitVec 8) State :=
  if l.eccBad.isSome then .error stEcc
  else if !spoolSigned l then .error stSig
  else installAll t l.binds s

/-- Clock at which a failure of a load shows: in the pass for ECC, after step 4 for the signature, else at C. -/
def failClk (l : Loader) (e : BitVec 8) : Nat :=
  if e = stEcc then l.startClk + 512 + l.eccBad.getD 0
  else if e = stSig then l.startClk + 512 + l.pass + 250000
  else l.startClk + l.clocks

/-- LDW cost of a word of an image (Table 2.3, R115). -/
def imageWordCost (s : State) (a : Nat) : Nat :=
  if inSpan flashBase flashSize a then
    (if s.level.cur = 0 then 1 else if s.level.cur = 1 then 4 else if s.level.cur = 2 then 10 else 20)
  else 1

/-- Words of an image read in order, stopping at a double-bit error in SRAM: the words, whether it stopped, how many
were read, and the counts (R115, R118). -/
def readImage : Nat → Nat → State → Words × Bool × Nat × State
  | _, 0, s => ([], false, 0, s)
  | a, n + 1, s =>
    let r := readSram a s
    if r.dbl then ([r.w], true, 1, r.s)
    else
      let (ws, b, k, s') := readImage (a + 4) n r.s
      (r.w :: ws, b, k + 1, s')

/-- A section lies in the tenant's window of its type (Table 3.6 step 5). -/
def sectInWindow (s : State) (t : Tid) (x : RawSect) : Bool :=
  match x.typ.toNat with
  | 0 => inCodeSram s t x.dest x.len
  | 1 => inData s t x.dest x.len
  | 2 => inData s t x.dest x.len
  | _ => inXip s t x.dest x.len

/-- Step 6 of Table 3.6: PUBKEY against TKEY, or against the owner key slots when TKEY is zero. -/
def tenantKeyOk (s : State) (t : Tid) (pub : List Byte) : Bool :=
  let tkey := bytesOfWords ((s.tenant t).record.toList.drop 16)
  let dig := sha256 pub
  if tkey.all (fun b => b == 0) then (keySlot s dig).isSome else tkey == dig

/-- The whole image lies in data SRAM or flash XIP, by its TOTAL (Table 3.6 step 1). -/
def imagePlaced (s : State) (a : Nat) : Bool :=
  let total := (memWord s.mem (a + 8)).toNat
  a % 4 == 0 && ((spanIn dataBase dataSize a 64 && spanIn dataBase dataSize a total) ||
    (spanIn flashBase flashSize a 64 && spanIn flashBase flashSize a total))

/-- SPOOL wd, wa (Table 3.6, R114, R115). -/
def execSpool (c : CoreId) (f : RForm) (s : State) : Out :=
  .next (specInstr c (.spool c f)
    { o2 := fun _ r s => tenantMod f.mod && unusedZero [f.rb] && imagePlaced s (r.rd f.ra).toNat
      o3 := fun t _ _ => t = 0
      waits := fun _ r s => if inSpan flashBase flashSize (r.rd f.ra).toNat then waitsFor .flash s else none
      failed := fun _ r s => inSpan flashBase flashSize (r.rd f.ra).toNat && s.hasFailed .flash
      body := fun _ _ r s =>
        let t := tenantOf f.mod
        let a := (r.rd f.ra).toNat
        if (s.tenant t).state ≠ .granted ∨ s.loader.isSome = true then .status stState s
        else
          let cost (n : Nat) := n * imageWordCost s a + 64
          let s := if inSpan flashBase flashSize a then flashTouch s else s
          let (hw, bad, n, s) := readImage a 16 s
          if bad then .status stEcc s (cost n)
          else
            let h := parseHeader hw
            if !(h.formOk && !h.owner && !h.fmode) then .status stRange s (cost 16)
            else
              let (tb, bad, n, s) := readImage (a + 64) h.tableWords s
              if bad then .status stEcc s (cost (16 + n))
              else
                let k := cost (16 + h.tableWords)
                let sects := parseSects h.nsect tb
                if !(layoutOk h sects && h.total % 4 == 0) then .status stRange s k
                else if !(sects.all (sectInWindow s t)) then .status stQuota s k
                else if !tenantKeyOk s t h.pubkey then .status stSig s k
                else
                  let l := mkLoader s (.tenant t) a h tb (codeWinOf ((s.tenant t).word 11))
                  let s := s.modTenant t (fun x => { x with state := .loading, loadclk := toWord l.clocks })
                  .val f.rd (toWord l.clocks) { s with loader := some l } k stPending } s)

/-- SPOOL_LOAD_DONE: a tenant's load reaches clock C with its signature and bindings good (Table 3.7 step 6). -/
def execSpoolLoadDone (s : State) : Out :=
  .next (match s.loader with
    | some l =>
      match l.target, l.phase with
      | .tenant t, .loading =>
        if s.running = true ∧ l.revoked = false ∧ l.startClk + l.clocks ≤ s.time.clk then
          let s := loaderAdvance s
          match loadOutcome (s.loader.getD l) t s with
          | .ok s =>
            { (s.modTenant t (fun x => { x with state := .active, loadst := stOk, version := l.version })) with
              loader := none }
          | .error _ => s
        else s
      | _, _ => s
    | none => s)

/-- SPOOL_LOAD_FAIL: a load, tenant's or owner's, fails and its clean-up starts (R118, R145). -/
def execSpoolLoadFail (s : State) : Out :=
  .next (match s.loader with
    | some l =>
      match l.phase with
      | .loading =>
        let t : Tid := match l.target with | .tenant t => t | .owner => 0
        let s := loaderAdvance s
        let l := s.loader.getD l
        match loadOutcome l t s with
        | .error e =>
          if s.running = true ∧ l.revoked = false ∧ failClk l e ≤ s.time.clk then
            let s := startCleanup e l s
            match l.target with
            | .owner => { s with boot := { s.boot with phase := .cleanup } }
            | .tenant _ => s
          else s
        | .ok _ => s
      | .cleanup _ => s
    | none => s)

/-! ## REVOKE (R124 to R127) -/

/-- What REVOKE does to one core: a running invocation is marked, a stalled one ends at once. -/
def revokeCore (t : Tid) (s : State) (c : CoreId) : State :=
  match (s.core c).inv with
  | some v =>
    if v.tenant = t then
      if (s.core c).stall.isSome then fault c fltRevoked (s.regs c).pc s
      else s.setCore c { s.core c with inv := some { v with revoked := true } }
    else s
  | none => s

/-- A saved invocation of the tenant ends with FLT_REVOKED. -/
def revokeSaved (t : Tid) (s : State) (k : Nat) : State :=
  match vgetD s.ctx k none with
  | some sv =>
    if sv.inv.tenant = t then
      { (recordFault sv.inv fltRevoked sv.regs.pc s) with ctx := vsetD s.ctx k none }
    else s
  | none => s

/-- A timer whose setting the tenant made is disarmed. -/
def revokeTimer (t : Tid) (x : Timer) : Timer := if x.owner = t ∧ x.kind ≠ .off then Timer.off else x

/-- A binding of the tenant is freed. -/
def revokeBinding (t : Tid) : Option Binding → Option Binding
  | some b => if b.tenant = t then none else some b
  | none => none

/-- The tenant's rights are withdrawn (R124), except its state; instructions checked in this clock still meet its record
(R124, R125). QUSED and QOUT stay as the other counters do. -/
def withdraw (t : Tid) (s : State) : State :=
  let s := { s.modTenant t (fun x => { x with vote := false }) with later := s.later ++ [Later.withdrawn t] }
  let s := { s with bindings := vmap (revokeBinding t) s.bindings }
  let s := ([0, 1, 2, 3, 4] : List CoreId).foldl (revokeCore t) s
  let s := (List.range 16).foldl (revokeSaved t) s
  let s := forEach ((allIx 8).filter (fun n => decide ((vget s.timers n).owner = t))) withdrawCmp s
  dropGather t { s with timers := vmap (revokeTimer t) s.timers }

/-- REVOKE (R100, R124, R127). A loader at work stops in the next clock. Where the clean-up of a failed load already runs,
it goes on to its own end with the result ST_CAP, so a signature failure is then not counted in SIGFAIL (DESIGN CHOICE,
log entry 111). -/
def execRevoke (c : CoreId) (f : RForm) (s : State) : Out :=
  .next (specInstr c (.revoke c f)
    { o2 := fun _ _ _ => tenantMod f.mod && unusedZero [f.rd, f.ra, f.rb]
      o3 := fun t _ _ => t = 0
      body := fun _ _ _ s =>
        let t := tenantOf f.mod
        match (s.tenant t).state with
        | .vacant => .status stState s
        | .loading =>
          let s := withdraw t s
          match s.loader with
          | some l => (match l.phase with
            | .loading => .ok { s with loader := some { l with revoked := true } }
            | .cleanup _ => .ok { s with loader := some { l with revoked := true, result := stCap } })
          | none => .ok (s.modTenant t (fun x => { x with state := .vacant }))
        | _ => .ok ((withdraw t s).modTenant t (fun x => { x with state := .vacant })) } s)

/-! ## Tenant status window (Table 3.9) -/

def tstateNum : TState → Nat
  | .vacant => 0 | .granted => 1 | .loading => 2 | .active => 3

/-- The tenant's status window by word; T0's STATE reads 3 and its record area holds the owner key digest. -/
def tenantWindow (s : State) (t : Tid) (off : Nat) : Word :=
  let x := s.tenant t
  match off with
  | 0x00 => toWord ((if t = 0 then 3 else tstateNum x.state) + put x.loadst.toNat 8)
  | 0x04 => toWord x.qused
  | 0x08 => toWord (bit01 x.qout)
  | 0x0C => b16 x.nstate x.ncap
  | 0x10 => b16 x.nstall x.nfault
  | 0x14 => toWord (x.fcode.toNat + put x.fbind.toNat 8)
  | 0x18 => x.faddr
  | 0x1C => x.ftime
  | 0x20 => x.version
  | 0x24 => x.loadclk
  | 0x28 => toWord x.sigfail.toNat
  | o =>
    if 0x40 ≤ o ∧ o < 0xA0 then
      (if t = 0 then (if o < 0x60 then wordAt s.boot.ownerDigest ((o - 0x40) / 4) else 0)
       else x.word ((o - 0x40) / 4))
    else 0

end Sys2Proof.Machine
end

