-- ==== Sys2Proof/Machine/Boot.lean ====
section
/-!
DEFINITION. Sys2Proof/Machine/Boot.lean: resets, ready times, and the boot of the owner spool
(spec/04_startup_and_flight_modes.md).
-/
namespace Sys2Proof.Machine

/-! ## Resets (R129 to R132) -/

/-- A reset that keeps nothing but the flash die, the fuse and the queue (Table 4.1, power-on and external). -/
def hardReset (cause : BitVec 3) (s : State) : State :=
  keepFlash s { State.reset with boot := { BootSt.reset with cause := cause } }

/-- POWER_ON_RESET: PGOOD rises (R130); the release point is 150 µs later (Table 4.2). -/
def execPowerOnReset (s : State) : Out :=
  .next (if s.time.mode = .off then hardReset 0 s else s)

/-- PGOOD falls: the device is held in reset, what runs in flash is cut, every domain but AON is off and the balls are
in their reset state (R130, R487). The board may then take VAON away: its voltage is a free value until PGOOD rises
(R486, R488; log entry 116). -/
def powerDown (s : State) : State :=
  let r := hardReset 0 s
  { r with
    vaon := (Config.freeWord s.free).toNat, free := s.free + 1
    time := { r.time with mode := .off, relAt := none }
    level := { r.level with pll := none }
    sleep := { r.sleep with domains := 1 } }

/-- PGOOD_LOW: PGOOD is low for `ns` nanoseconds. Below 50 ns it is ignored, from 200 ns on it is a power-on reset;
between, either, a free value (R487, log entry 2). -/
def execPgoodLow (ns : Nat) (s : State) : Out :=
  .next (if s.time.mode = .off ∨ ns < 50 then s
    else if 200 ≤ ns then powerDown s
    else if Config.freeBool s.free then powerDown s.nextFree else s.nextFree)

/-- An external reset takes hold and RESET_N rises `ns` after its falling edge: everything is reset, every pad hold
released, and the release point lies 40 µs after the rise (R131, R132, Table 4.2). -/
def externalReset (s : State) : State :=
  let r := hardReset 1 s
  { r with
    time := { r.time with phys := s.time.phys, relAt := some (s.time.phys + usTicks 40) }
    level := { r.level with pll := some (s.time.phys + usTicks 40) } }

/-- EXTERNAL_RESET: RESET_N is low for `ns` nanoseconds with PGOOD high and rises. Below 100 ns it is ignored, from
1 µs on it is a reset; between, either, a free value (R131, log entry 2). -/
def execExternalReset (ns : Nat) (s : State) : Out :=
  .next (if s.time.mode = .off ∨ ns < 100 then s
    else if 1000 ≤ ns then externalReset s
    else if Config.freeBool s.free then externalReset s.nextFree else s.nextFree)

/-- Hive time at the release point: continued after Hibernate, with the crystal cycles since the last advance;
otherwise zero and invalid, with the phase counter cleared (R157, R163, R167). -/
def releaseTime (carried : Bool) (t : TimeSt) : TimeSt :=
  if carried then
    { t with
      mode := .running, clk := 0, relAt := none, relAck := false
      hive := wrap64 (t.hive + (t.phys - t.hiveAt)), hiveAt := t.phys
      steps := 0, trimDir := false, trimRate := 0, trimAcc := 0, sinceTrim := 2048 }
  else
    { TimeSt.reset with mode := .running, phys := t.phys, phase0 := t.phys, hiveAt := t.phys, relAt := none }

/-- RESET_RELEASE: the release point arrives at a common edge with the conditions of Table 4.2 met; MODE and TEST_EN
are sampled, L1 runs, and the units take their reset states (R133, R135, R142). -/
def execResetRelease (modeBall testEn : Bool) (s : State) : Out :=
  .next (
    let due := match s.time.relAt with | some t => decide (t ≤ s.time.phys) | none => false
    if s.time.mode = .releasing ∧ due = true ∧ s.time.relAck = false ∧ s.commonEdge = true then
      let carried := s.boot.htv
      let time := releaseTime carried s.time
      unitsRelease { s with
        time := time
        boot := { BootSt.reset with
          cause := s.boot.cause, htv := carried, mode := modeBall, testEn := testEn, relPhys := s.time.phys
          bootst := if testEn then stState else stPending }
        level := { LevelSt.reset with seq := s.level.seq, pll := some s.time.phys }
        sleep := { s.sleep with
          armed := ArmedSet.empty, domains := 0xFFF, upAt := Vector.replicate 12 none
          combUse := s.time.phys, flashUse := s.time.phys } }
    else s)

/-! ## Dormant after a failed boot (R149) -/

/-- No slot boots: the waggle detectors of PORT_0 and PORT_2 are armed and the device is in Dormant, VCORE on. -/
def bootDormant (st : BitVec 8) (s : State) : State :=
  let s := enterSleep ⟨true, 0, 0, 5, s.time.clk, s.time.phys, 0, false, 0, none⟩ s
  { s with
    boot := { s.boot with bootst := st, phase := .none }
    sleep := { s.sleep with armed := { ArmedSet.empty with mask := 0x28 } } }

/-! ## Functions become ready or fail (R138 to R141, R154) -/

/-- The release-relative Max time of a function in ticks: twice its Typ time, less 150 µs (R140). -/
def maxTicks (f : Func) : Nat := usTicks (2 * readyUs f - 150)

def setReady (f : Func) (s : State) : State :=
  { s with boot := { s.boot with ready := s.boot.ready ||| BitVec.twoPow 32 (Func.idx f) } }

/-- An inertial sensor's start-up ends: it stays powered only when a SENSE.SET awaits it (R247). -/
def sensorReady (f : Func) (i : SensorId) (s : State) : State :=
  let keep := awaited i s
  setReady f (s.modSensor i (fun x => { x with warm := keep, warmAt := none }))

/-- A function may still set READY: neither bit is set, and its Max time has not passed. -/
def mayBecomeReady (f : Func) (s : State) : Bool :=
  s.running && !s.isReady f && !s.hasFailed f && decide (s.time.phys ≤ s.boot.relPhys + maxTicks f)

/-- Functions that can fail: bits 5 to 13 of the FAIL word (Table 4.3). -/
def canFail (f : Func) : Bool := 5 ≤ Func.idx f && Func.idx f ≤ 13

/-- A function fails: FAIL is set and its units enter FAULT (R138, R17). -/
def failFunction (f : Func) (s : State) : State :=
  if canFail f then
    unitsFault f { s with boot := { s.boot with fail := s.boot.fail ||| BitVec.twoPow 32 (Func.idx f) } }
  else s

/-- FUNCTION_READY: a function completes its start-up and sets READY (R138). KEEPER drives WAKE_OUT high and starts
the boot (R141, R148, R153); JOURNAL makes its checkpoint decision, and with a scan to come READY waits for it (R154);
THERMAL begins its rounds (R225). An inertial sensor that nothing awaits powers down (R247), and AOUT fails with VAOUT below 2.7 V (R284). -/
def execFunctionReady (f : Func) (s : State) : Out :=
  .next (if mayBecomeReady f s then
      match f with
      | .keeper =>
        let s := setReady .keeper s
        let s := { s with
          therm := { s.therm with wakeOut := true }, boot := { s.boot with keeperClk := s.time.clk } }
        if s.boot.cause = 3 ∧ s.boot.testEn = false then { s with boot := { s.boot with phase := .thermal } }
        else bootBegin s
      | .journal =>
        if s.boot.testEn then setReady .journal s
        else if s.boot.jdecided then s
        else
          let (s, now) := journalDecide s
          let s := { s with boot := { s.boot with jdecided := true } }
          if now then setReady .journal s else s
      | .thermal =>
        let s := setReady .thermal s
        { s with therm := { s.therm with lastIx := s.time.hive / 192000, roundClk := none } }
      | .accA => sensorReady .accA 0 s
      | .accB => sensorReady .accB 1 s
      | .gyro => sensorReady .gyro 2 s
      | .aout => if s.vaout < 2700 then failFunction .aout s else setReady .aout s
      | f => setReady f s
    else s)

/-- The boot is in progress in free-flying flight; with TEST_EN high there is none (R134, R510). -/
def freeBooting (s : State) : Bool :=
  s.boot.mode && !s.boot.testEn && (match s.boot.phase with
    | .start => true | .thermal => true | .fixed _ => true | .next => true | .loading => true | .cleanup => true
    | .waiting => false | .armed _ => false | .done => false | .none => false)

/-- FUNCTION_FAIL: a function fails its self-test or misses its Max time (R138). FLASH in FAIL ends a free-flying
boot with ST_NOTREADY and Dormant (R153, section 4.10, Edges). -/
def execFunctionFail (f : Func) (s : State) : Out :=
  .next (if s.running = true ∧ s.isReady f = false ∧ s.hasFailed f = false ∧ canFail f = true then
      let s := failFunction f s
      if f = .flash ∧ freeBooting s = true then bootDormant stNotReady s else s
    else s)

/-! ## Attempts (R144 to R151) -/

/-- The image address of a boot slot (R147). -/
def slotAddr (k : Nat) : Nat := flashBase + (if k = 2 then 0x400000 else 0)

/-- A word of an image as a read through the code delivers it (R26). -/
def rawWord (s : State) (a : Nat) : Word := if regionOf a = .data then (readSram a s).w else memWord s.mem a

/-- The header of an image. -/
def headerAt (s : State) (a : Nat) : Header :=
  parseHeader ((List.range 16).map (fun i => rawWord s (a + 4 * i)))

/-- The raw section entries of an image. -/
def sectsAt (s : State) (a : Nat) (h : Header) : List RawSect :=
  parseSects h.nsect ((List.range (4 * h.nsect)).map (fun i => rawWord s (a + 64 + 4 * i)))

/-- Steps 1 to 3 of Table 4.5 for an image of at most `lim` bytes; ST_OK when they pass. -/
def bootHeaderCheck (s : State) (a lim : Nat) : BitVec 8 :=
  let h := headerAt s a
  if h.total % 4 ≠ 0 ∨ lim < h.total then stRange
  else if !(h.formOk && h.owner && layoutOk h (sectsAt s a h)) then stRange
  else if h.fmode ≠ s.boot.mode then stState
  else stOk

/-- Step 4 of Table 4.5 for one section. -/
def bootSectOk (s : State) (image total : Nat) (x : RawSect) : Bool :=
  let clash := !s.boot.mode && (spansMeet x.dest x.len image total || spansMeet x.dest x.len 0x201FFFFC 4)
  match x.typ.toNat with
  | 0 => spanIn codeBase codeSize x.dest x.len && !clash
  | 1 => spanIn dataBase dataSize x.dest x.len && !clash
  | 2 => spanIn dataBase dataSize x.dest x.len && !clash
  | _ => spanIn flashBase flashSize x.dest x.len && !spansMeet x.dest x.len (flashBase + 0x7FFF00) 256

/-- Steps 4 to 6 of Table 4.5: a refusal, or the KEY value. -/
def bootChecks (s : State) (a : Nat) : Except (BitVec 8) (BitVec 3) :=
  let h := headerAt s a
  if !((sectsAt s a h).all (bootSectOk s a h.total)) then .error stRange
  else if allSlotsEmpty s then (if s.boot.mode then .error stSig else .ok 4)
  else match keySlot s (sha256 h.pubkey) with
    | some k => .ok (BitVec.ofNat 3 k)
    | none => .error stSig

/-- Step 7 starts: the loader takes the image (R145). -/
def bootLoad (a : Nat) (key : BitVec 3) (s : State) : State :=
  let h := headerAt s a
  let tbl := (List.range h.tableWords).map (fun i => rawWord s (a + 64 + 4 * i))
  { s with
    loader := some (mkLoader s .owner a h tbl (0, 0))
    boot := { s.boot with key := key, phase := .loading, tryDigest := wordsOfBytes (sha256 h.pubkey) } }

/-- An attempt is counted and its slot recorded. -/
def beginAttempt (slot : BitVec 2) (s : State) : State :=
  { s with boot := { s.boot with
    attempts := satInc s.boot.attempts, slot := slot, bootst := stPending, key := 7 } }

/-- The order of slots: those that pass steps 1 to 3, highest VERSION first, slot A on a tie (R148). -/
def slotOrder (s : State) : List Nat :=
  let ok (k : Nat) := bootHeaderCheck s (slotAddr k) 0x100000 == stOk
  let v (k : Nat) := (headerAt s (slotAddr k)).version.toNat
  if ok 1 && ok 2 then (if v 1 < v 2 then [2, 1] else [1, 2])
  else if ok 1 then [1] else if ok 2 then [2] else []

/-- The failure to report when no slot passes steps 1 to 3: that of slot B, checked last. -/
def slotFailure (s : State) : BitVec 8 := bootHeaderCheck s (slotAddr 2) 0x100000

/-- The next slot of the order is attempted; a refusal at steps 4 to 6 has written nothing, so the one after it
follows at once; with none left the boot has failed (R148, R149). -/
def trySlots : Nat → BitVec 8 → State → State
  | 0, last, s => bootDormant last s
  | n + 1, last, s =>
    match s.boot.order with
    | [] => bootDormant last s
    | k :: r =>
      let s := beginAttempt (BitVec.ofNat 2 k) { s with boot := { s.boot with order := r } }
      match bootChecks s (slotAddr k) with
      | .ok key => bootLoad (slotAddr k) key s
      | .error e => trySlots n e { s with boot := { s.boot with bootst := e } }

/-- The boot ROM's reads of a host image's header and tables through the code of data SRAM (R26). A double-bit error
there delivers the raw word (DESIGN CHOICE, log entry 111). -/
def countReads (s : State) : List Nat → State
  | [] => s
  | a :: r => countReads (readSram a s).s r

/-- A tethered attempt from the doorbell (R151). -/
def tryHost (s : State) : State :=
  let s := countReads s ((0x201FFFFC : Nat) :: (List.range (16 + (headerAt s dataBase).tableWords)).map
    (fun i => dataBase + 4 * i))
  let bell := wordSeen s 0x201FFFFC
  let s := s.zeroSpan 0x201FFFE0 28
  let s := beginAttempt 3 s
  let bad (e : BitVec 8) (s : State) : State := { s with boot := { s.boot with bootst := e, phase := .waiting } }
  let h := headerAt s dataBase
  let st := bootHeaderCheck s dataBase 0xFFFE0
  if bell.toNat ≠ h.total then bad stRange s
  else if st ≠ stOk then bad st s
  else match bootChecks s dataBase with
    | .ok key => bootLoad dataBase key s
    | .error e => bad e s

/-- BOOT_ATTEMPT: the boot ROM starts its next attempt: in free-flying flight after the fixed work and the journal's
decision, or after a clean-up (R148); in tethered flight 64 clocks after the doorbell store (R151). -/
def execBootAttempt (s : State) : Out :=
  .next (if s.running = false ∨ s.therm.stop.isSome = true then s
    else match s.boot.phase with
      | .fixed e =>
        if e ≤ s.time.clk ∧ s.boot.jdecided = true then
          if s.hasFailed .flash then bootDormant stNotReady s
          else
            let o := slotOrder s
            trySlots 3 (slotFailure s) { s with boot := { s.boot with order := o } }
        else s
      | .next => trySlots 3 s.boot.bootst s
      | .armed c => if c ≤ s.time.clk then tryHost s else s
      | _ => s)

/-- A store to the doorbell word arms an attempt 64 clocks later, while none runs; the check of R153 comes before any
attempt, so an attempt rung during it waits for its end (R151, R153). -/
def ringDoorbell (s : State) : State :=
  match s.boot.phase with
  | .waiting => { s with boot := { s.boot with phase := .armed (s.time.clk + 64) } }
  | .thermal => if s.boot.mode then s else { s with boot := { s.boot with bell := some (s.time.clk + 64) } }
  | _ => s

/-- DOORBELL_STORE: the host stores a word to the doorbell before the owner starts (R151). -/
def execDoorbellStore (w : Word) (s : State) : Out :=
  .next (if s.running = true ∧ s.isReady .ports = true ∧ s.boot.mode = false ∧
      (s.boot.phase = .waiting ∨ (s.boot.phase = .thermal ∧ s.boot.bell = none)) then
      ringDoorbell (s.store 0x201FFFFC (wordBytes w))
    else s)

/-- The declarations that the device reads once at the owner's start (R181, R182, R224). -/
def readDeclarations (s : State) : State :=
  let r := readSram 0x201FFFF8 s
  let s := { r.s with level := supplyDecl r.w r.dbl r.s.level }
  let q := readSram 0x201FFFF4 s
  let s := { q.s with therm := thermDecl q.w q.dbl q.s.therm }
  if s.level.fixed then { s with later := s.later ++ [.assist s.level.maxl] } else s

/-- The owner starts: T0 is ACTIVE, the BOOT word and declarations are set, the doorbell is cleared, and 0xB8 with
0x8000_0001 is raised in the next clock, up to which BOOTCLK counts (R146, R151, Table 4.6). -/
def startOwner (l : Loader) (s : State) : State :=
  let s := readDeclarations s
  let s := if s.boot.mode then s else s.zeroSpan 0x201FFFFC 4
  let s := s.modTenant 0 (fun x => { x with state := .active, version := l.version })
  let s := { s with
    loader := none
    boot := { s.boot with
      phase := .done, bootst := stOk, bootclk := toWord (s.time.clk + 1 - s.boot.keeperClk)
      ownerDigest := s.boot.tryDigest
      ownerCode := (l.sections.filter (fun (x : Section) => x.typ == 0)).map (fun (x : Section) => (x.dest, x.len)) } }
  s.eventNext 0xB8 0x80000001

/-- OWNER_LOAD_DONE: the owner load reaches the last of its C clocks with its signature and bindings good: they are
installed, and the event of the next clock falls at C (R145, R146, Example 4.A; log entry 124). -/
def execOwnerLoadDone (s : State) : Out :=
  .next (match s.loader with
    | some l =>
      match l.target, l.phase with
      | .owner, .loading =>
        if s.running = true ∧ l.startClk + l.clocks ≤ s.time.clk + 1 then
          let s := loaderAdvance s
          match loadOutcome (s.loader.getD l) 0 s with
          | .ok s => startOwner l s
          | .error _ => s
        else s
      | _, _ => s
    | none => s)

/-- SCAN_START: in free-flying flight the scan starts at the end of step 3 of Table 3.7 for the slot that boots, so not
for an image whose signature or bindings fail (R155). -/
def execScanStart (s : State) : Out :=
  .next (
    let due := match s.loader with
      | some l => l.target == .owner && l.phase == .loading && decide (l.startClk + 512 + l.pass ≤ s.time.clk) &&
          (match loadOutcome l 0 s with | .ok _ => true | .error _ => false)
      | none => s.boot.phase == .done
    if s.running = true ∧ s.boot.mode = true ∧ due = true ∧ s.journal.st = .held ∧ s.journal.scan = none ∧
        s.therm.stop = none then
      s.modJ (fun j => { j with scan := some s.time.phys })
    else s)

/-- LOAD_CLEANUP_END: the clean-up's writes end and the tenant's state settles, or the attempt ends (R118, R127,
R145, R151). -/
def execLoadCleanupEnd (s : State) : Out :=
  .next (unlessEarly .loadCleanupEnd (fun s => match s.loader with
    | some l =>
      match l.phase with
      | .cleanup e =>
        if s.running = true ∧ e ≤ s.time.clk then
          let s := { (loaderAdvance s) with loader := none }
          match l.target with
          | .tenant t =>
            s.modTenant t (fun x => { x with
              loadst := l.result
              sigfail := if l.result = stSig then satInc x.sigfail else x.sigfail
              state := if l.revoked then .vacant else .granted })
          | .owner =>
            { s with boot := { s.boot with
              bootst := l.result, phase := if s.boot.mode then .next else .waiting } }
        else s
      | .loading => s
    | none => s) s)

/-- The BOOT word (Table 4.6). -/
def bootWord (b : BootSt) : Word :=
  toWord (b.cause.toNat + put (bit01 b.mode) 3 + put (bit01 b.testEn) 4 + put b.bootst.toNat 8 + put b.slot.toNat 16 +
    put b.key.toNat 18 + put b.jmode.toNat 21 + put (bit01 b.htv) 23 + put b.attempts.toNat 24)

/-- The AON status window by word (Table 19.8). -/
def aonWindow (s : State) (off : Nat) : Word :=
  if off = 0 then 0x172561CB
  else if off = 0x40 then s.boot.ready
  else if off = 0x44 then s.boot.fail
  else if off = 0x48 then bootWord s.boot
  else if off = 0x4C then s.boot.bootclk
  else if off = 0x60 then levelWord s.level
  else if off = 0x64 then linkWord s.level
  else if off = 0x68 then timeWord s.time
  else if 0x80 ≤ off ∧ off < 0xA0 then wakeWord s.sleep.wake off
  else if 0xA0 ≤ off ∧ off < 0xC0 then refuseWord s.sleep.refuse off
  else if off = 0xC0 then toWord s.sleep.holds.toNat
  else if off = 0xC4 then toWord s.sleep.domains.toNat
  else if 0x100 ≤ off ∧ off < 0x118 then thermRecWord s.therm.record off
  else 0

/-! ## Domains: IO banks -/

end Sys2Proof.Machine
end

