-- ==== Sys2Proof/Machine/PortInstr.lean ====
section
/-!
DEFINITION. Sys2Proof/Machine/PortInstr.lean: the PORT instructions (sections 13.2, 13.4, 13.5 and 13.8).
-/
namespace Sys2Proof.Machine

/-- The port's own events of a clock, which an instruction of that clock finds done (R95). -/
def portFirst (p : PortId) : Instr → Option (State → State)
  | .masterFrameStart q rx => if q = p then some (frameStart q rx) else none
  | .masterResume q => if q = p then some (frameResume q) else none
  | .masterFrameEnd q => if q = p then some (frameEnd q) else none
  | .mmfDetect q => if q = p then some (mmfDetect q) else none
  | .slaveSelectAssert q => if q = p then some (selectAssert q) else none
  | .slaveWord q w => if q = p then some (slaveWord q w) else none
  | .slaveSelectRelease q n w => if q = p then some (selectRelease q n w) else none
  | .memberCapture q => if q = p then some (memberCapture q) else none
  | .memberLatch q n g => if q = p then some (memberLatch q n g) else none
  | .sweepStart q => if q = p then some (sweepStart q) else none
  | .sweepEnd q gs => if q = p then some (sweepEnd q gs) else none
  | _ => none

/-- What the PORT instructions share. -/
def portInstr (c : CoreId) (i : Instr) (f : UForm) (blk : Bool) (body : PortId → Tid → Regs → State → Ans) (s : State) : Out :=
  .next (specInstr c i
    { o2 := fun t r _ => unitOk 3 f (if blk then [f.rd, f.rb] else [f.rd, f.ra, f.rb]) &&
        (!blk || blockOk t (r.rd f.ra).toNat 4)
      o3 := fun t r s => s.may t (capPort f.inst.toNat) && (!blk || blockMay s t (r.rd f.ra).toNat 4)
      failed := fun _ _ s => s.hasFailed .ports
      waits := fun _ _ s => waitsFor .ports s
      body := fun _ t r s =>
        let p := UForm.num 3 f
        if hostOwns s p || (s.port p).hive then .status stState s else body p t r s }
    (ownFirst (portFirst (UForm.num 3 f)) s))

/-- PORT.SET p, wa (R355). -/
def execPortSet (c : CoreId) (f : UForm) (s : State) : Out :=
  portInstr c (.portSet c f) f true (fun p _ r s =>
    inStates (s.port p).st [.off, .ready] s (withBlock (r.rd f.ra).toNat 4 s (fun ws s =>
      if !portSetOk p ws then .status stRange s 4
      else .ok (s.modPort p (fun x => { x with st := .ready, set := ws })) 4))) s

/-- The queues that a port names are its own (R356). -/
def portQueuesOk (s : State) (p : PortId) : Bool :=
  let x := s.port p
  (!x.txen || txOurs s p) && (!x.rxen || rxOurs s p)

/-- PORT.START p (R356). -/
def execPortStart (c : CoreId) (f : UForm) (s : State) : Out :=
  portInstr c (.portStart c f) f false (fun p t _ s =>
    inStates (s.port p).st [.ready] s
      (if !portQueuesOk s p then .status stRange s
       else .ok (s.modPort p (fun x => { x.cleared with st := .run, owner := t })))) s

/-- PORT.STOP p: RUN to READY; a frame in progress is abandoned, and what it received before is delivered (R369, Edges of
sections 13.4 and 13.5; log entry 118). -/
def execPortStop (c : CoreId) (f : UForm) (s : State) : Out :=
  portInstr c (.portStop c f) f false (fun p _ _ s =>
    inStates (s.port p).st [.run] s
      (let x := s.port p
       match x.mframe, x.sframe with
       | some m, _ =>
         let (n, s) := abandonFrame p s
         let s := s.modPort p (fun x => { x with st := .ready, nframe := x.nframe + 1 })
         .ok (if x.mode = 0 then portEvent p 1 (portArg 1 stOk n (n != 0) m.pois false 0) s else s)
       | none, some f => .ok (s.setPort p { (pushLast f x).cleared with st := .ready })
       | none, none => .ok (s.setPort p { x.cleared with st := .ready }))) s

/-- PORT.CLR p: HELD to READY, MMF cleared (R384). -/
def execPortClr (c : CoreId) (f : UForm) (s : State) : Out :=
  portInstr c (.portClr c f) f false (fun p _ _ s =>
    inStates (s.port p).st [.held] s
      (.ok (s.modPort p (fun x => { x with st := .ready, mmf := false })))) s

end Sys2Proof.Machine
end

