-- ==== Sys2Proof/Machine/QueueInstr.lean ====
section
/-!
DEFINITION. Sys2Proof/Machine/QueueInstr.lean: the queue instructions (spec/12_credit_queues.md).
-/
namespace Sys2Proof.Machine

/-- What unit producers write in a clock, which a queue instruction of that clock finds written (R95, R347). The end of
a port's word is the end of a clock (R368), before its instructions. -/
def queueFirst : Instr → Option (State → State)
  | .laneRecord l => some (laneRecord l)
  | .dataRx fr => some (radioRx 0 fr)
  | .memberLatch p n g => some (memberLatch p n g)
  | .sweepEnd p gs => some (sweepEnd p gs)
  | _ => none

/-- What every queue instruction shares: instance, capability, and the queue unit's READY bit. -/
def queueInstr (c : CoreId) (i : Instr) (f : UForm) (unused : List (BitVec 4)) (blk : Option Nat)
    (body : QueueId → Tid → Regs → State → Ans) (s : State) : Out :=
  .next (specInstr c i
    { o2 := fun t r _ => unitOk 64 f unused && (match blk with | some n => blockOk t (r.rd f.ra).toNat n | none => true)
      o3 := fun t r s => s.may t (capQueue f.inst.toNat) &&
        (match blk with | some n => blockMay s t (r.rd f.ra).toNat n | none => true)
      waits := fun _ _ s => waitsFor .queues s
      body := fun _ t r s => body (UForm.num 64 f) t r s } (ownFirst queueFirst s))

/-- QSET q, wa (R337): OFF to READY. -/
def execQset (c : CoreId) (f : UForm) (s : State) : Out :=
  queueInstr c (.qset c f) f [f.rd, f.rb] (some 2) (fun q t r s =>
    inStates (s.queue q).st [.off] s (withBlock (r.rd f.ra).toNat 2 s (fun ws s =>
      let w0 := wordAt ws 0
      let w1 := wordAt ws 1
      if !queueUnitsMay s t w1 then .status stCap s 2
      else if !queueFieldsOk w0 w1 || queueOverlaps s q w0 then .status stRange s 2
      else .ok (s.setQueue q { s.queue q with
        st := .ready, set0 := w0, set1 := w1, cred := 0, fill := [], drain := [], fbank := false }) 2))) s

/-- A queue with every word of both banks discarded and counted (R351). -/
def Queue.discard (x : Queue) : Queue :=
  { x with fill := [], drain := [], ndisc := satAdd x.ndisc (x.fill.length + x.drain.length) }

/-- QEN q (R351): READY to RUN with both banks empty. -/
def execQen (c : CoreId) (f : UForm) (s : State) : Out :=
  queueInstr c (.qen c f) f [f.rd, f.ra, f.rb] none (fun q _ _ s =>
    inStates (s.queue q).st [.ready] s (.ok (s.setQueue q { s.queue q with st := .run, fill := [], drain := [] }))) s

/-- QDIS q (R351): RUN to READY, every word discarded. -/
def execQdis (c : CoreId) (f : UForm) (s : State) : Out :=
  queueInstr c (.qdis c f) f [f.rd, f.ra, f.rb] none (fun q _ _ s =>
    inStates (s.queue q).st [.run] s (.ok (s.setQueue q { (s.queue q).discard with st := .ready }))) s

/-- QFREE q (R338): READY to OFF; credits, producer and consumer go. -/
def execQfree (c : CoreId) (f : UForm) (s : State) : Out :=
  queueInstr c (.qfree c f) f [f.rd, f.ra, f.rb] none (fun q _ _ s =>
    inStates (s.queue q).st [.ready] s (.ok (s.setQueue q { s.queue q with
      st := .off, cred := 0, fill := [], drain := [], set1 := (s.queue q).set1 &&& 0xFFFF0000 }))) s

/-- One word put by an instruction (R343). -/
def putWord (q : QueueId) (w : Word) (tag : BitVec 4) (s : State) : Ans :=
  let x := s.queue q
  if x.prod ≠ 0 then .status stRange s
  else if x.cred = 0 then .status stCredit s
  else .ok (s.setQueue q { x with fill := x.fill ++ [⟨w, tag, 0⟩], cred := x.cred - 1, nput := x.nput + 1 })

/-- QPUT q, wa (R343). -/
def execQput (c : CoreId) (f : UForm) (s : State) : Out :=
  queueInstr c (.qput c f) f [f.rd, f.rb] none (fun q _ r s =>
    inStates (s.queue q).st [.run] s (putWord q (r.rd f.ra) 0 s)) s

/-- QPUT.T q, wa, wb (R343). -/
def execQputT (c : CoreId) (f : UForm) (s : State) : Out :=
  queueInstr c (.qputT c f) f [f.rd] none (fun q _ r s =>
    inStates (s.queue q).st [.run] s
      (if !zeroBits (r.rd f.rb) 31 4 then .status stRange s
       else putWord q (r.rd f.ra) (BitVec.ofNat 4 (r.rd f.rb).toNat) s)) s

/-- QGET wd, q (R93, R345, R349). -/
def execQget (c : CoreId) (f : UForm) (s : State) : Out :=
  queueInstr c (.qget c f) f [f.ra, f.rb] none (fun q _ _ s =>
    inStates (s.queue q).st [.run] s
      (if (s.queue q).cons ≠ 0 then .status stRange s
       else match takeWord q s with
        | (none, _) => .status stCredit s
        | (some d, s) =>
          let bad := decide (2 ≤ d.err)
          { st := if bad then stEcc else stOk, s := s
            upd := fun r => { (r.wr f.rd d.w) with fl := { r.fl with p := bad } } })) s

/-- QCRED q, wa (R342). -/
def execQcred (c : CoreId) (f : UForm) (s : State) : Out :=
  queueInstr c (.qcred c f) f [f.rd, f.rb] none (fun q _ r s =>
    let x := s.queue q
    inStates x.st [.run] s
      (if x.room < (r.rd f.ra).toNat then .status stRange s
       else .ok (creditRaised q x.cred (s.setQueue q { x with cred := x.cred + (r.rd f.ra).toNat })))) s

/-- QFLUSH q (R351). -/
def execQflush (c : CoreId) (f : UForm) (s : State) : Out :=
  queueInstr c (.qflush c f) f [f.rd, f.ra, f.rb] none (fun q _ _ s =>
    inStates (s.queue q).st [.ready, .run] s (.ok (s.setQueue q (s.queue q).discard))) s

end Sys2Proof.Machine
end

