-- ==== Sys2Proof/Machine/HiveInstr.lean ====
section
/-!
DEFINITION. Sys2Proof/Machine/HiveInstr.lean: the hive instructions FJOIN, FLEAVE, FSEND, FRECV, FROUTE and INVAL
(spec/15_hive_fabric.md).
-/
namespace Sys2Proof.Machine

/-! ## FJOIN and FLEAVE (R410 to R412) -/

/-- The hive's own events of a clock, which a hive instruction of that clock finds done (R95). -/
def hiveFirst : Instr → Option (State → State)
  | .callRx f => some (radioRx 3 f)
  | .renewAnswer => some renewAnswer
  | .claimRx f => some (radioRx 4 f)
  | .defendRx f => some (radioRx 5 f)
  | .renewRx f => some (radioRx 6 f)
  | .renewSend => some renewSend
  | .claimSend => some claimSend
  | .swarmDecide => some swarmDecide
  | .leaseExpiry k => some (leaseExpiry k)
  | .routeadvSend => some routeadvSend
  | .routeadvRx f => some (radioRx 7 f)
  | .routeExpiry a => some (routeExpiry a)
  | .cacheLineExpiry k => some (cacheLineExpiry k)
  | .frameTransmit dbm => some (frameTransmit dbm)
  | .floodRelay => some floodRelay
  | .macAckRx f => some (macAckRx f)
  | .macAckTimeout => some macAckTimeout
  | .dataRx f => some (radioRx 0 f)
  | .nackRx f => some (radioRx 1 f)
  | .delivRx f => some (radioRx 2 f)
  | .e2eTimeout => some e2eTimeout
  | .leaveRx f => some (radioRx 10 f)
  | .waggleFrame => some burstFrame
  | .syncSreq dbm => some (syncSreq dbm)
  | .sreqRx f => some (radioRx 8 f)
  | .srespSend dbm => some (srespSend dbm)
  | .srespRx f => some (radioRx 9 f)
  | _ => none

/-- What the hive instructions share. -/
def hiveInstr (c : CoreId) (i : Instr) (f : UForm) (unused : List (BitVec 4)) (ok : Tid → Regs → State → Bool)
    (may : Tid → Regs → State → Bool) (waits : State → Option Func) (body : Tid → Regs → State → Ans) (s : State) : Out :=
  .next (specInstr c i
    { o2 := fun t r s => unitOk 2 f unused && ok t r s
      o3 := may
      failed := fun _ _ s => s.hasFailed .radio || s.hive.st == .fault
      waits := fun _ _ s => waits s
      body := fun _ t r s => body t r s } (ownFirst hiveFirst s))

/-- The radio's function is not ready yet: an instruction that does not touch its domain still waits for it (R47). -/
def radioWait (s : State) : Option Func := if s.isReady .radio then none else some .radio

/-- PORT_2 can take the tether role (R410). -/
def tetherReady (s : State) (teth : Nat) : Bool :=
  let x := s.port 2
  x.st == .ready && x.mode == 2 && !x.txen && !x.rxen && decide (2 ≤ x.segw) && x.slave == (teth == 2)

/-- A tether link at FJOIN. -/
def Peer.fresh (pos : Nat) : Peer := ⟨pos, 0, false, 0, 0, false, [], 0, false, false, [], false⟩

/-- The hive enters READY with a join block (R411); CALL is sent (R413). -/
def joinHive (t : Tid) (ws : Words) (s : State) : State :=
  let now := s.time.hive
  let s := s.modHive (fun h => { h with
    st := .ready, join := ws, owner := t, addr := 0, claimAt := now + usTicks 100000, cand := 0, claims := 0
    beaten := false, failed := [], nbrs := [], cands := [], txq := [], await := none, sending := none, relays := [], renewDue := []
    advAt := now, advNew := false, sreq := none, exch := none, sresp := [], freq := ⟨0, 1⟩, lastSample := none
    tsum := 0, tcount := 0, captNow := none, captPrev := none, selNow := none, selPrev := none, sweepRel := now
    sweepData := false, sweepIx := now / 192000, latchAt := s.time.phys, dups := [], fc := (wordAt ws 3).toNat })
  let h := s.hive
  let s := s.modHive (fun h => { h with
    rootPrio := h.rprio, rootUid := uidOf s, syncIx := now / h.ts
    peers := if h.teth = 1 then (upFrom 1 (s.port 2).pos).map Peer.fresh else if h.teth = 2 then [Peer.fresh 0] else [] })
  let s := if h.teth = 0 then s else s.modPort 2 (fun x => { x.cleared with st := .run, hive := true, owner := t })
  floodOwn 3 0 [] s

/-- FJOIN wa (R410, R411). While LEAVE frames of an FLEAVE are being sent it stalls (R412). -/
def execFjoin (c : CoreId) (f : UForm) (s : State) : Out :=
  hiveInstr c (.fjoin c f) f [f.rd, f.rb] (fun t r _ => f.inst == 0 && blockOk t (r.rd f.ra).toNat 4)
    (fun t r s => s.may t capFabric && blockMay s t (r.rd f.ra).toNat 4)
    (fun s => match waitsFor .radio s with
      | some w => some w
      | none => if s.hive.leaving.isSome then some .radio else none)
    (fun t r s => inStates s.hive.st [.off] s (withBlock (r.rd f.ra).toNat 4 s (fun ws s =>
      let teth := fieldOf (wordAt ws 0) 23 22
      if joinOk ws = false ∨ (bitOf (wordAt ws 0) 24 = true ∧ keyEmpty s = true) ∨ (teth ≠ 0 ∧ tetherReady s teth = false) then
        .status stRange s 4
      else { st := stPending, s := joinHive t ws s, extra := 4 }))) s

/-- Every message ends with reason LEFT (R412, R425). -/
def leaveMsgs (s : State) : State := forEach (s.hive.msgs.map (·.id)) (fun id s => endMsg id stLink rLeft s) s

/-- The hive goes to OFF (R412). -/
def leaveHive (s : State) : State :=
  let h := s.hive
  let a := h.addr
  let up := h.peers.filter (·.up)
  let s := leaveMsgs s
  let s := s.modHive (fun h => { h with
    st := .off, addr := 0, cand := 0, claims := 0, leases := Vector.replicate 126 none, nbrs := [], cands := []
    routes := Vector.replicate 128 Route.none, fmap := [], txq := [], await := none, relays := [], renewDue := []
    sreq := none, exch := none, sresp := [], burst := none, leaving := some a, rootPrio := 0, rootUid := 0
    peers := h.peers.map (fun p => { p with out := [], sent := 0, unconf := false, loaded := false }) })
  let s := if a = 0 then s
    else
      let f : HFrame := ⟨10, a, 0x7F, false, 3, 1, 0, 0, s.hive.mseq, [], .short⟩
      let s := s.modHive (fun h => { h with mseq := h.mseq + 1 })
      let s := if s.hive.radio then enqueueRadio f 0x7F false .leave s else s
      forEach up (fun p s => enqueueTether p.pos f 0x7F .leave s) s
  settleLeave s

/-- FLEAVE (R412). -/
def execFleave (c : CoreId) (f : UForm) (s : State) : Out :=
  hiveInstr c (.fleave c f) f [f.rd, f.ra, f.rb] (fun _ _ _ => f.inst == 0) (fun t _ s => s.may t capFabric) radioWait
    (fun _ _ s => inStates s.hive.st [.ready, .run, .held] s (.ok (leaveHive s))) s

/-! ## FSEND (R424, R446) -/

/-- Every field of a descriptor lies within Table 15.9. -/
def descOk (h : HiveSt) (ws : Words) : Bool :=
  let w0 := wordAt ws 0
  let w2 := wordAt ws 2
  let dest := fieldOf w0 6 0
  let flood := fieldOf w0 26 24
  let len := fieldOf w2 4 0
  let wch := fieldOf w2 15 8
  let wdur := fieldOf w2 23 16
  dest != 0 && dest != h.addr && (dest != 0x7F || !bitOf w0 7) && (if dest = 0x7F then 1 ≤ flood && flood ≤ 4 else flood == 0) &&
  !bitOf w0 27 && zeroBits w0 31 29 && zeroBits w2 7 5 && zeroBits w2 31 24 && zeroBits (wordAt ws 3) 31 16 &&
  (if bitOf w0 28 then wordAt ws 1 == 0 && len == 0 && wch < 32 && wdur != 0
   else (wordAt ws 1).toNat % 4 == 0 && 1 ≤ len && len ≤ 23 && wch == 0 && wdur == 0)

/-- A refusal of FSEND with ST_LINK: no side effect but LINKWHY (R424). -/
def linkRefused (why : BitVec 4) (n : Nat) (s : State) : Ans :=
  .status stLink (s.modHive (fun h => { h with linkwhy := why })) n

/-- The frame counter is needed and exhausted. -/
def fcGone (secured : Bool) (s : State) : Bool := secured && decide (2 ^ 32 ≤ s.hive.fc)

/-- A message of the buffer. -/
def newMsg (t : Tid) (ws : Words) (left : Nat) (wag : Option (Nat × Nat)) (s : State) : Nat × State :=
  let id := s.hive.nextMsg
  let w0 := wordAt ws 0
  (id, s.modHive (fun h => { h with
    nextMsg := id + 1
    msgs := h.msgs ++ [⟨id, fieldOf w0 6 0, bitOf w0 7, BitVec.ofNat 16 (wordAt ws 3).toNat, t, left, none, wag⟩] }))

/-- The DATA frame of a descriptor. -/
def dataFrame (ws data : Words) (s : State) : HFrame :=
  let w0 := wordAt ws 0
  let dest := fieldOf w0 6 0
  ⟨0, s.hive.addr, dest, bitOf w0 7, if dest = 0x7F then fieldOf w0 26 24 - 1 else 3, 1,
   BitVec.ofNat 8 (fieldOf w0 15 8), BitVec.ofNat 8 (fieldOf w0 23 16), BitVec.ofNat 16 (wordAt ws 3).toNat,
   bytesOfWords data, .short⟩

/-- An FSEND whose fields are good: the conditions of R424 and the copy of the message. The reason recorded for a full
buffer is a free value, since Table 15.10 has none (log entry 2). -/
def sendMessage (t : Tid) (ws data : Words) (s : State) : Ans :=
  let n := 4 + data.length
  let w0 := wordAt ws 0
  let dest := fieldOf w0 6 0
  let wag := bitOf w0 28
  let full := decide (32 ≤ s.hive.msgs.length)
  let fullWhy : BitVec 4 := BitVec.ofNat 4 (Config.freeWord s.free).toNat
  let pend (s : State) : Ans := { st := stPending, s := s, extra := n }
  if wag then
    if full then linkRefused fullWhy n s.nextFree
    else if fcGone (!keyEmpty s) s then linkRefused 7 n s
    else
      let w2 := wordAt ws 2
      pend (startBurst (newMsg t ws 0 (some (fieldOf w2 15 8, 4 * fieldOf w2 23 16)) s).2)
  else if dest = 0x7F then
    if full then linkRefused fullWhy n s.nextFree
    else if fcGone s.hive.sec s then linkRefused 7 n s
    else
      let up := s.hive.peers.filter (·.up)
      let left := up.length + bit01 s.hive.radio
      let (id, s) := newMsg t ws left none s
      let s := floodSend (dataFrame ws data s) (.msg id) (·.up) s
      pend (if left = 0 then endMsg id stOk 0 s else s)
  else match peekRoute s dest with
    | none => linkRefused 1 n s
    | some (next, tl, k) =>
      if s.hive.linkUp next tl = false then linkRefused 2 n s
      else if full then linkRefused fullWhy n s.nextFree
      else if fcGone s.hive.sec s then linkRefused 7 n s
      else
        let s := commitRoute dest next tl k s
        let (id, s) := newMsg t ws 1 none s
        pend (sendVia (dataFrame ws data s) next tl (.msg id) s)

/-- SPORT of the descriptor at an address lies within the tenant's fabric ports (Table 3.3, R424); a word with a
double-bit error tells nothing, and is met at order 7. -/
def sportMay (s : State) (t : Tid) (a : Nat) : Bool :=
  (match eccSeen s a with | some e => e.dbl | none => false) || s.may t (capFp (fieldOf (wordSeen s a) 15 8))

/-- What FSEND does of a descriptor: its fields and the message data (R59, R424). -/
def sendBody (t : Tid) (ws : Words) (s : State) : Ans :=
  let w0 := wordAt ws 0
  let len := fieldOf (wordAt ws 2) 4 0
  let a := (wordAt ws 1).toNat
  if !descOk s.hive ws then .status stRange s 4
  else if bitOf w0 28 then sendMessage t ws [] s
  else if !blockOk t a len then .status stRange s 4
  else if !blockMay s t a len then .status stCap s 4
  else
    let (data, bad, s) := readBlock a len s
    let x : Ans := if bad then .status stEcc s (4 + len) else sendMessage t ws data s
    { x with banks := blockBanks a len }

/-- FSEND and FSEND with WAG. -/
def fsendInstr (c : CoreId) (i : Instr) (f : UForm) (s : State) : Out :=
  hiveInstr c i f [f.rd, f.rb] (fun t r _ => f.inst == 0 && blockOk t (r.rd f.ra).toNat 4)
    (fun t r s => s.may t capFabric && blockMay s t (r.rd f.ra).toNat 4 && sportMay s t (r.rd f.ra).toNat)
    (waitsFor .radio)
    (fun t r s => inStates s.hive.st [.run] s (withBlock (r.rd f.ra).toNat 4 s (sendBody t))) s

/-- FSEND wa (R424). -/
def execFsend (c : CoreId) (f : UForm) (s : State) : Out := fsendInstr c (.fsend c f) f s

/-- FSEND wa whose descriptor has WAG (R446): the same instruction. -/
def execWaggleBurst (c : CoreId) (f : UForm) (s : State) : Out := fsendInstr c (.waggleBurst c f) f s

/-! ## FRECV, FROUTE and INVAL (R421, R422, R427) -/

/-- FRECV wa, wb (R427). wb[6] with a queue number is refused with ST_RANGE (log entry 32). -/
def execFrecv (c : CoreId) (f : UForm) (s : State) : Out :=
  hiveInstr c (.frecv c f) f [f.rd] (fun _ _ _ => f.inst == 0)
    (fun t r s => s.may t (capFp (fieldOf (r.rd f.ra) 7 0)) &&
      (bitOf (r.rd f.rb) 6 || s.may t (capQueue (fieldOf (r.rd f.rb) 5 0))))
    (waitsFor .radio)
    (fun t r s =>
      let port := BitVec.ofNat 8 (r.rd f.ra).toNat
      let b := r.rd f.rb
      let q : QueueId := finOf 64 (fieldOf b 5 0)
      let others (m : FMap) : Bool := m.port != port
      inStates s.hive.st [.run, .held] s
        (if t ≠ 0 ∧ s.hive.fmap.any (fun m => m.port == port && m.owner != t) = true then .status stState s
         else if !zeroBits b 31 7 then .status stRange s
         else if bitOf b 6 then
           (if fieldOf b 5 0 ≠ 0 then .status stRange s
            else .ok (s.modHive (fun h => { h with fmap := h.fmap.filter others })))
         else if (s.queue q).prod ≠ 2 then .status stRange s
         else .ok (s.modHive (fun h => { h with fmap := h.fmap.filter others ++ [⟨port, q, t⟩] })))) s

/-- The cache line of an address invalidated; every line for 0x7F (R422). -/
def invalLines (a : Nat) (s : State) : State :=
  s.modHive (fun h => { h with
    cache := vmap (fun l => if a = 0x7F ∨ l.dest.toNat = a then { l with valid := false } else l) h.cache })

/-- A route block is within Table 15.8. -/
def routeBlockOk (w : Word) : Bool :=
  zeroBits w 31 13 && (!bitOf w 12 ||
    (fieldOf w 6 0 != 0 && fieldOf w 6 0 != 0x7F && 1 ≤ fieldOf w 10 8 && fieldOf w 10 8 ≤ 4))

/-- The candidates for a destination after FROUTE: an entry without PIN is one of them, which ends with its link, with the
lease of its next hop, and 35 s after it was written; with VALID 0 none is left (R416, R420; DEDUCED, log entry 29). -/
def handCands (a : Nat) (e : Route) (now : Nat) (l : List RouteCand) : List RouteCand :=
  if e.valid = false then l.filter (fun c => c.dest != a)
  else if e.pin = true then l
  else ⟨a, e.next.toNat, e.tlink, e.hops.toNat, now⟩ ::
    l.filter (fun c => c.dest != a || c.next != e.next.toNat || c.tlink != e.tlink)

/-- FROUTE wa, wb, with INST 1 to invalidate the cache line too (R421). -/
def frouteInstr (c : CoreId) (i : Instr) (f : UForm) (s : State) : Out :=
  hiveInstr c i f [f.rd] (fun t r _ => blockOk t (r.rd f.rb).toNat 1) (fun t _ _ => t = 0) radioWait
    (fun _ r s =>
      let a := fieldOf (r.rd f.ra) 6 0
      withBlock (r.rd f.rb).toNat 1 s (fun ws s =>
        let w := wordAt ws 0
        if a = 0 ∨ a = 0x7F ∨ routeBlockOk w = false then .status stRange s 1
        else
          let e : Route := if bitOf w 12 then
              ⟨BitVec.ofNat 7 (fieldOf w 6 0), bitOf w 7, BitVec.ofNat 3 (fieldOf w 10 8), bitOf w 11, true⟩
            else Route.none
          let s := s.modHive (fun h => { h with
            routes := vsetD h.routes a e, cands := handCands a e s.time.hive h.cands
            advNew := h.advNew || vgetD h.routes a Route.none != e })
          .ok (if f.inst = 1 then invalLines a s else s) 1)) s

/-- FROUTE wa, wb (R421). -/
def execFroute (c : CoreId) (f : UForm) (s : State) : Out := frouteInstr c (.froute c f) f s

/-- FROUTE with INST 1 (R421): the same instruction. -/
def execFrouteInval (c : CoreId) (f : UForm) (s : State) : Out := frouteInstr c (.frouteInval c f) f s

/-- INVAL wa: the route-cache line of wa[6:0], or every line for 0x7F (R88, R422). -/
def execInval (c : CoreId) (f : RForm) (s : State) : Out :=
  .next (specInstr c (.inval c f)
    { o2 := fun _ _ _ => f.mod == 0 && unusedZero [f.rd, f.rb]
      o3 := fun t _ _ => t = 0
      body := fun _ _ r s => .ok (invalLines (fieldOf (r.rd f.ra) 6 0) s) } s)

end Sys2Proof.Machine
end

