-- ==== Sys2Proof/Machine/JournalInstr.lean ====
section
/-!
DEFINITION. Sys2Proof/Machine/JournalInstr.lean: JPUT, JCOMMIT, JGET, JPROG, JERASE and SEAL (spec/16_journal_flash.md).
-/
namespace Sys2Proof.Machine

/-! ## Instructions -/

/-- The journal's own events of a clock, which a journal instruction of that clock finds done (R95). -/
def journalFirst : Instr → Option (State → State)
  | .commitDone => some commitDone
  | .flashOpDone => some flashOpDone
  | .flashOpTimeout => some flashOpTimeout
  | .scanEnd => some scanEnd
  | .sealBurnDone => some sealBurnDone
  | .sealArmExpiry => some sealArmExpiry
  | _ => none

/-- What the journal instructions share: a scan does not stall them (R155). -/
def journalInstr (c : CoreId) (i : Instr) (o2 o3 : Tid → Regs → State → Bool)
    (reads : Regs → State → Option (Nat × Nat)) (body : Tid → Regs → State → Ans) (s : State) : Out :=
  .next (specInstr c i
    { o2 := o2, o3 := o3
      failed := fun _ _ s => s.hasFailed .journal || s.hasFailed .flash || s.journal.st == .fault
      waits := fun _ _ s =>
        if s.journal.st = .held then none
        else waitsFor .journal s
      reads := fun _ r s => reads r s
      body := fun _ t r s => body t r { s with sleep := { s.sleep with flashUse := s.time.phys } } } (ownFirst journalFirst s))

/-- Table 1.6 for the journal: OFF ST_STATE, HELD ST_BUSY, and RUN ST_BUSY but for JGET. -/
def journalStates (inRun : Bool) (s : State) (a : Ans) : Ans :=
  match s.journal.st with
  | .ready => a
  | .run => if inRun then a else .status stBusy s
  | .held => .status stBusy s
  | .off => .status stState s
  | .fault => .status stState s

/-- JPUT wa, wb (R92, R462, R463). Bits wb[31:27] are ignored (DEDUCED, log entry 88). A tombstone, of length 0, has no
block, so its address is not checked; a length above 1,024 is refused before its data is read, and no data word is
charged (DESIGN CHOICE, log entry 113). -/
def execJput (c : CoreId) (f : UForm) (s : State) : Out :=
  let len (r : Regs) := fieldOf (r.rd f.rb) 26 16
  let key (r : Regs) := fieldOf (r.rd f.rb) 15 0
  let n (r : Regs) := if len r ≤ 1024 then (len r + 3) / 4 else 0
  journalInstr c (.jput c f)
    (fun t r _ => unitOk 1 f [f.rd] && (n r == 0 || blockOk t (r.rd f.ra).toNat (n r)))
    (fun t r s => s.may t (capJw (key r)) && (n r == 0 || blockMay s t (r.rd f.ra).toNat (n r)))
    (fun _ _ => none)
    (fun t r s =>
      journalStates false s (if 1024 < len r then .status stRange s else withBlock (r.rd f.ra).toNat (n r) s (fun ws s =>
        if key r = 0xFFFF ∨ gatherFits s.journal (key r) (len r) = false then .status stRange s (n r)
        else .ok (s.modJ (fun j => { j with
          gather := j.gather ++ [⟨t, key r, (bytesOfWords ws).take (len r), false⟩] })) (n r)))) s

/-- JCOMMIT (R92, R465). -/
def execJcommit (c : CoreId) (f : UForm) (s : State) : Out :=
  journalInstr c (.jcommit c f) (fun _ _ _ => unitOk 1 f [f.rd, f.ra, f.rb])
    (fun t _ s => s.may t capJwAny) (fun _ _ => none)
    (fun t _ s =>
      journalStates false s
        (if s.journal.gather.any (fun g => g.ten == t) then
          .status stPending (startCommit t false (s.modJ (fun j => { j with
            gather := j.gather.map (fun g => if g.ten = t then { g with busy := true } else g) })))
        else .ok s)) s

/-- The 32-byte lines that a record touches. -/
def recLines (off len : Nat) : Nat := (off + recSize len - 1) / 32 + 1 - off / 32

/-- JGET wd, wa, wb (R92, R468). The destination is the block of wa[26:16] bytes at wb, of one word at
least (DEDUCED, log entry 22); bits wa[31:27] are ignored (DEDUCED, log entry 88). -/
def execJget (c : CoreId) (f : UForm) (s : State) : Out :=
  let key (r : Regs) := fieldOf (r.rd f.ra) 15 0
  let lim (r : Regs) := fieldOf (r.rd f.ra) 26 16
  let n (r : Regs) := (lim r + 3) / 4
  let ent (r : Regs) (s : State) : Option JEnt := s.journal.index.find? (fun e => e.key == key r && e.len != 0)
  let off (e : JEnt) (s : State) : Nat := s.journal.base * 4096 + e.off
  journalInstr c (.jget c f)
    (fun t r _ => unitOk 1 f [] && blockOk t (r.rd f.rb).toNat (max (n r) 1))
    (fun t r s => s.may t (fun x => capJw (key r) x || capJr (key r) x) &&
      (lim r == 0 || inData s t (r.rd f.rb).toNat (4 * n r)))
    (fun r s => (ent r s).map (fun e => lineSpan (off e s) (recSize e.len)))
    (fun _ r s =>
      journalStates true s
        (match ent r s with
         | none => .val f.rd 0xFFFFFFFF s
         | some e =>
           let o := off e s
           let lines := recLines o e.len * fillClks s.level.cur
           if lim r < e.len then .status stRange s
           else
             let s := flashRead o (recLines o e.len * fillClks s.level.cur) s
             let b := flashBytes s o (recSize e.len)
             if crc32c (b.take (b.length - 4)) ≠ wordOfBytes (b.drop (b.length - 4)) then
               .status stEcc (s.modJ (fun j => { j with ncrc := satInc j.ncrc })) lines
             else { Ans.val f.rd (toWord e.len) (s.store (r.rd f.rb).toNat ((b.drop 4).take e.len))
                 (lines + (e.len + 3) / 4) with
               banks := sramBank ((r.rd f.rb).toNat + 4 * ((e.len + 3) / 4 - 1)) })) s

/-- A range meets the journal area or its checkpoint sectors (R451 check 2). -/
def meetsArea (j : JournalSt) (off n : Nat) : Bool :=
  j.nsec != 0 && decide (off < (j.base + j.nsec + 2) * 4096) && decide (j.base * 4096 < off + n)

/-- A range meets sector `k`. -/
def meetsSector (off n k : Nat) : Bool := decide (off < (k + 1) * 4096) && decide (k * 4096 < off + n)

/-- A range meets the sector that holds the instruction; a host packet has none (R451 check 6, R452). -/
def meetsSelf (c : CoreId) (off n : Nat) (s : State) : Bool :=
  match (s.core c).inv with
  | some v =>
    let pc := (s.regs c).pc.toNat
    v.bind.isSome && regionOf pc == .flash && meetsSector off n ((pc - flashBase) / 4096)
  | none => false

/-- A JPROG or JERASE that passes: RUN, its steps and its Max time (R453, R454). -/
def startOp (k : JKind) (t : Tid) (steps : List JStep) (words : Nat) (s : State) : Ans :=
  .status stPending (s.modJ (fun j => { j with
    st := .run, op := some ⟨k, t, steps, (0, 0), s.time.phys + maxTime steps, none, 0⟩ })) words

/-- JPROG wa (R451 to R453). -/
def execJprog (c : CoreId) (f : UForm) (s : State) : Out :=
  journalInstr c (.jprog c f) (fun t r _ => unitOk 1 f [f.rd, f.rb] && blockOk t (r.rd f.ra).toNat 3)
    (fun t _ _ => t = 0) (fun _ _ => none)
    (fun t r s =>
      journalStates false s (withBlock (r.rd f.ra).toNat 3 s (fun ws s =>
        let off := (wordAt ws 0).toNat
        let src := (wordAt ws 1).toNat
        let len := (wordAt ws 2).toNat
        if off % 4 ≠ 0 ∨ len < 4 ∨ 256 < len ∨ len % 4 ≠ 0 ∨ blockOk t src (len / 4) = false ∨ flashSize < off + len then
          .status stRange s 3
        else withMore 3 src (len / 4) s (fun d s =>
          let w := 3 + len / 4
          if meetsArea s.journal off len then .status stRange s w
          else if meetsSector off len 1023 && !(off % 16 == 0 && len == 16 && blank s off 16) then .status stRange s w
          else if meetsSector off len 2047 && !(spanIn 0x7FFF00 0x90 off len && blank s off len) then .status stRange s w
          else if meetsSelf c off len s then .status stSelf s w
          else if meetsSector off len 2047 && s.journal.sealed then .status stSealed s w
          else startOp .prog t (pageRuns 2 off (bytesOfWords d)) w s)))) s

/-- JERASE wa (R451, R454). -/
def execJerase (c : CoreId) (f : UForm) (s : State) : Out :=
  journalInstr c (.jerase c f) (fun _ _ _ => unitOk 1 f [f.rd, f.rb]) (fun t _ _ => t = 0) (fun _ _ => none)
    (fun t r s =>
      let off := (r.rd f.ra).toNat
      journalStates false s
        (if off % 4096 ≠ 0 ∨ flashSize ≤ off ∨ meetsArea s.journal off 4096 = true ∨ off / 4096 = 1023 ∨
            off / 4096 = 2047 then .status stRange s
         else if meetsSelf c off 4096 s then .status stSelf s
         else startOp .erase t [.erase off] 0 s)) s

/-! ## The seal (R476, R477) -/

/-- SEAL wa: both steps and every other confirmation word (R476). -/
def sealBody (wa : Word) (s : State) : Ans :=
  let refuse : Ans := .status stState (s.modJ (fun j => { j with arm := none }))
  match s.journal.st with
  | .run => .status stBusy s
  | .held => .status stBusy s
  | _ =>
    if s.journal.sealed || s.journal.burn.isSome then .status stSealed s
    else if wa = 0x5EA1 then .ok (s.modJ (fun j => { j with arm := some s.time.hive }))
    else if wa = 0x1AE5 ∧ sealLive s = true then
      if blank s 0x7FFF00 0x80 then .status stRange s
      else .status stPending (s.modJ (fun j => { j with arm := none, burn := some s.time.phys }))
    else refuse

def sealInstr (c : CoreId) (i : Instr) (f : UForm) (s : State) : Out :=
  journalInstr c i (fun _ _ _ => unitOk 1 f [f.rd, f.rb]) (fun t _ _ => t = 0) (fun _ _ => none)
    (fun _ r s => sealBody (r.rd f.ra) s) s

/-- SEAL wa, issued to arm (R476). -/
def execSealArm (c : CoreId) (f : UForm) (s : State) : Out := sealInstr c (.sealArm c f) f s

/-- SEAL wa, issued to burn (R476). -/
def execSealBurn (c : CoreId) (f : UForm) (s : State) : Out := sealInstr c (.sealBurn c f) f s

end Sys2Proof.Machine
end

