-- ==== Sys2Proof/Machine/Mem.lean ====
section
/-!
DEFINITION. Sys2Proof/Machine/Mem.lean: the status windows (sections 19.6 and 19.7) and the MEM instructions LDW, STW,
LDV and STV (section 2.5, R22, R26, R27, R332).
-/
namespace Sys2Proof.Machine

/-! ## Status windows (Table 19.7) -/

/-- A unit status window that Table 19.7 assigns. -/
inductive Win where
  | dispatch | memory | thermal | comb | journal | hive
  | tenant (t : Tid)
  | sensor (i : SensorId)
  | aout (a : Fin 4)
  | lane (l : LaneId)
  | recog (r : RecogId)
  | ring (n : RingId)
  | queue (q : QueueId)
  | port (p : PortId)
  | engine (e : EngineId)
  deriving DecidableEq, Repr, Inhabited

/-- The window at an index (Table 19.7). -/
def winOf (ix : Nat) : Option Win :=
  if ix = 0x000 then some .dispatch
  else if ix = 0x001 then some .memory
  else if inSpan 0x010 32 ix then some (.tenant (finOf 32 (ix - 0x010)))
  else if ix = 0x030 then some .thermal
  else if inSpan 0x040 11 ix then some (.sensor (finOf 11 (ix - 0x040)))
  else if inSpan 0x050 4 ix then some (.aout (finOf 4 (ix - 0x050)))
  else if inSpan 0x060 24 ix then some (.lane (finOf 24 (ix - 0x060)))
  else if inSpan 0x080 14 ix then some (.recog (finOf 14 (ix - 0x080)))
  else if ix = 0x090 then some .comb
  else if inSpan 0x0C0 64 ix then some (.ring (finOf 64 (ix - 0x0C0)))
  else if inSpan 0x100 64 ix then some (.queue (finOf 64 (ix - 0x100)))
  else if ix = 0x140 then some .journal
  else if ix = 0x148 then some .hive
  else if inSpan 0x150 3 ix then some (.port (finOf 3 (ix - 0x150)))
  else if inSpan 0x158 8 ix then some (.engine (finOf 8 (ix - 0x158)))
  else none

/-- The window that holds an address of the unit status window region (R524). -/
def winAt (a : Nat) : Option Win := winOf ((a - winBase) / 0x1000)

/-- The binding record that a dispatch window offset falls in; none from 0xC00 up (R526). -/
def bindingOf (s : State) (off : Nat) : Option Binding := vgetD s.bindings (off / 12) none

/-- A tenant may read the word at an offset of a window (R525, R526, Table 19.7). -/
def winMay (s : State) (t : Tid) (w : Win) (off : Nat) : Bool :=
  match w with
  | .dispatch => t = 0 || (match bindingOf s off with | some b => b.tenant = t | none => true)
  | .memory | .thermal => true
  | .tenant k => t = 0 || t = k
  | .sensor i => s.may t (capSens i.val)
  | .aout a => s.may t (capAout a.val)
  | .lane l => s.may t (capLane l.val)
  | .recog r => s.may t (capRecog r.val)
  | .comb => s.may t (fun r => r.word 6 != 0 || r.word 7 != 0)
  | .ring n => s.may t (capRing n.val)
  | .queue q => s.may t (capQueue q.val)
  | .journal => s.may t (fun r => capJwAny r || capJrAny r)
  | .hive => s.may t capFabric
  | .port p => s.may t (capPort p.val)
  | .engine e => s.may t (capLine e.val)

/-- A word of a binding record (Table 1.7). -/
def bindingWord (b : Binding) (k : Nat) : Word :=
  if k = 0 then
    toWord (b.src.toNat + put b.tenant.val 8 + put b.prio.toNat 13 + put b.coreSel.toNat 16 + put 1 19 +
      put (bit01 b.held) 20)
  else if k = 1 then b.handler
  else toWord (b.budget.toNat + put b.pend.length 16 + put b.frun 19 + put b.ovr.toNat 24)

/-- The dispatch window (R526). -/
def dispatchWindow (s : State) (off : Nat) : Word :=
  if off = 0xC00 then toWord (vfind s.ctx (·.isSome)).length
  else match bindingOf s off with
    | some b => bindingWord b (off % 12 / 4)
    | none => 0

/-- The memory window (R527). -/
def memoryWindow (n : EccCnt) (off : Nat) : Word :=
  if off = 0 then b16 n.codeCorr n.dataCorr else if off = 4 then b16 n.codeDbl n.dataDbl else 0

/-- The state as status windows show it: the values at the start of the clock (R528). -/
def State.atStart (s : State) : State :=
  match s.shown with
  | none => s
  | some k => { s with
      ctx := k.ctx, bindings := k.bindings, tenants := k.tenants, eccCnt := k.eccCnt, time := k.time, boot := k.boot
      level := k.level, sleep := k.sleep, therm := k.therm, sensors := k.sensors, aouts := k.aouts, lanes := k.lanes
      recogs := k.recogs, rings := k.rings, comb := k.comb, queues := k.queues, ports := k.ports
      engines := k.engines, lines := k.lines, journal := k.journal, hive := k.hive }

/-- The word at an offset of a window; a word that no field names reads zero (R524). -/
def winWord (s : State) (w : Win) (off : Nat) : Word :=
  match w with
  | .dispatch => dispatchWindow s off
  | .memory => memoryWindow s.eccCnt off
  | .thermal => thermWindow s.therm off
  | .comb => combWindow s.comb off
  | .journal => journalWindow s off
  | .hive => hiveWindow s off
  | .tenant t => tenantWindow s t off
  | .sensor i => sensorWindow i (s.sensor i) off
  | .aout a => aoutWindow s (s.aout a) off
  | .lane l => laneWindow (s.lane l) off
  | .recog r => recogWindow s (s.recog r) off
  | .ring n => ringWindow (s.ring n) off
  | .queue q => queueWindow (s.queue q) off
  | .port p => portWindow s p off
  | .engine e => engineWindow s e off

/-! ## Loads -/

/-- The `n` word addresses of an access, wrapping at the top of the address space. -/
def accessWords (ea : Word) (n : Nat) : List Nat := (List.range n).map (fun k => (ea + BitVec.ofNat 32 (4 * k)).toNat)

/-- A load may name the address: Table 1.4 admits its region, and Table 19.7 its window (R27, R522, R524). -/
def loadable (a : Nat) : Bool :=
  match regionOf a with
  | .code | .data | .flash | .comb | .aonWin => true
  | .window => (winAt a).isSome
  | .rom | .none => false

/-- A word of the comb buffer lies in the storage of a ring, not in OFF, whose RING bit the tenant holds (R332,
Table 3.3). -/
def combMay (s : State) (t : Tid) (a : Nat) : Bool :=
  t = 0 || (allIx 64).any (fun n =>
    let x := s.ring n
    s.may t (capRing n.val) && x.st != .off && spanIn x.base (x.size * 4096) a 4)

/-- Loads from the sealed page are T0's, and none reads the network key (R123, R475). -/
def sealedMay (t : Tid) (off : Nat) : Bool :=
  if inSpan 0x7FFF80 0x10 off then false else if inSpan 0x7FFF00 0x100 off then t = 0 else true

/-- Order 3 of a load for one word (Table 3.3). -/
def loadMay (s : State) (t : Tid) (a : Nat) : Bool :=
  match regionOf a with
  | .code => inCodeSram s t a 4
  | .data => inData s t a 4
  | .flash => inXip s t a 4 && sealedMay t (a - flashBase)
  | .comb => combMay s t a
  | .window => (match winAt a with | some w => winMay s t w (a % 4096) | none => false)
  | .aonWin => true
  | .rom | .none => false

/-- A word of the comb buffer read through its code (R326, R332). -/
def readComb (a : Nat) (s : State) : RdRes :=
  let w := memWord s.mem a
  let c := s.comb
  match eccAt s a with
  | none => ⟨w, false, s⟩
  | some e =>
    if e.dbl then ⟨w ^^^ e.flips, true, { s with comb := { c with ndbe := satInc c.ndbe, lastdbe := toWord a } }⟩
    else ⟨w, false, { s with comb := { c with ncorr := satInc c.ncorr } }⟩

/-- One word loaded: it is read where it lies (R26, R332, R456, R528). -/
def loadWord (a : Nat) (s : State) : RdRes :=
  match regionOf a with
  | .flash => ⟨memWord s.mem a, false, flashRead (a - flashBase) (fillClks s.level.cur) s⟩
  | .comb => readComb a { s.combTaken with sleep := { s.sleep with combUse := s.time.phys } }
  | .window => ⟨(match winAt a with | some w => winWord s.atStart w (a % 4096) | none => 0), false, s⟩
  | .aonWin => ⟨aonWindow s.atStart (a - aonBase), false, s⟩
  | _ => readSram a s

/-- The words of an access loaded in order, and whether any was poisoned (R70). -/
def loadWords : List Nat → State → Words × Bool × State
  | [], s => ([], false, s)
  | a :: r, s =>
    let x := loadWord a s
    let (ws, bad, s) := loadWords r x.s
    (x.w :: ws, x.dbl || bad, s)

/-- Cycles of a load beyond its code and data SRAM count (Table 2.3); `vec` for LDV. -/
def loadExtra (vec : Bool) (a : Nat) (s : State) : Nat :=
  let l := s.level.cur.toNat
  match regionOf a with
  | .comb => if vec then [2, 2, 2, 4].getD l 0 else [1, 1, 1, 2].getD l 0
  | .flash => if vec then [1, 10, 28, 58].getD l 0 else [0, 3, 9, 19].getD l 0
  | .window | .aonWin => if vec then 2 else 1
  | _ => 0

/-- The function whose READY and FAIL bits an access needs (Table 1.8). -/
def loadFunc (a : Nat) : Option Func :=
  match regionOf a with
  | .comb => some .comb
  | .flash => some .flash
  | _ => none

/-- Order 5 of a load: its function (R47). -/
def loadWaits (a : Nat) (s : State) : Option Func := (loadFunc a).bind (fun f => waitsFor f s)

/-- The flash that a load of `n` words reads. -/
def loadReads (a n : Nat) : Option (Nat × Nat) :=
  if regionOf a = .flash then some (lineSpan (a - flashBase) (4 * n)) else none

/-- A load of `n` words; `upd` writes them to the destination (R69, R70, Table 2.7). -/
def loadInstr (c : CoreId) (i : Instr) (f : IForm) (n : Nat) (o1 : Bool) (upd : Words → Regs → Regs) (s : State) :
    State :=
  specInstr c i
    { o1 := o1
      o2 := fun _ r _ => (effAddr r f).toNat % 4 == 0 && (accessWords (effAddr r f) n).all loadable
      o3 := fun t r s => (accessWords (effAddr r f) n).all (loadMay s t)
      failed := fun _ r s => match loadFunc (effAddr r f).toNat with | some g => s.hasFailed g | none => false
      waits := fun _ r s => loadWaits (effAddr r f).toNat s
      reads := fun _ r _ => loadReads (effAddr r f).toNat n
      body := fun _ _ r s =>
        let (ws, bad, s') := loadWords (accessWords (effAddr r f) n) s
        { st := if bad then stEcc else stOk, s := s'
          upd := fun r => let u := upd ws r; { u with fl := { u.fl with p := bad } }
          extra := loadExtra (n == 3) (effAddr r f).toNat s
          banks := (accessWords (effAddr r f) n).flatMap sramBank }
      cyc := fun _ => if n = 3 then 2 else 1 } s

/-- LDW wd, [wa, #off] (R69). -/
def execLdw (c : CoreId) (f : IForm) (s : State) : Out :=
  .next (loadInstr c (.ldw c f) f 1 true (fun ws r => r.wr f.rd (wordAt ws 0)) s)

/-- LDV vd, [wa, #off] (R69, R70). -/
def execLdv (c : CoreId) (f : IForm) (s : State) : Out :=
  .next (loadInstr c (.ldv c f) f 3 (isVec f.rd) (fun ws r => r.wv f.rd ⟨wordAt ws 0, wordAt ws 1, wordAt ws 2⟩) s)

/-! ## Stores -/

/-- Host stores are refused from the doorbell until the attempt ends (R151). -/
def hostStoreBusy (s : State) : Bool :=
  s.boot.bell.isSome || match s.boot.phase with
  | .armed _ | .loading | .cleanup => true
  | _ => false

/-- The end of a failed attempt comes before a doorbell store of the same clock (section 4.10, Edges). -/
def attemptEnds : Instr → Option (State → State)
  | .loadCleanupEnd => some (fun s => match execLoadCleanupEnd s with | .next s => s | _ => s)
  | _ => none

/-- A store of `n` words to data SRAM, the one region that a store may name (R22, R69, R70, Table 1.4). -/
def storeInstr (c : CoreId) (i : Instr) (f : IForm) (n : Nat) (o1 : Bool) (src : Regs → Words) (s : State) : State :=
  specInstr c i
    { o1 := o1
      o2 := fun _ r _ =>
        (effAddr r f).toNat % 4 == 0 && (accessWords (effAddr r f) n).all (fun a => regionOf a == .data)
      o3 := fun t r s => inData s t (effAddr r f).toNat (4 * n)
      body := fun c _ r s =>
        let host := match (s.core c).inv with | some v => v.bind.isNone | none => false
        let s := if host then ownFirst attemptEnds s else s
        if host && hostStoreBusy s then .status stBusy s
        else
          let s := s.store (effAddr r f).toNat (bytesOfWords (src r))
          { Ans.ok (if (accessWords (effAddr r f) n).contains 0x201FFFFC then ringDoorbell s else s) with
            banks := (accessWords (effAddr r f) n).flatMap sramBank }
      cyc := fun _ => if n = 3 then 2 else 1 } s

/-- STW ws, [wa, #off] (R69). -/
def execStw (c : CoreId) (f : IForm) (s : State) : Out :=
  .next (storeInstr c (.stw c f) f 1 true (fun r => [r.rd f.rd]) s)

/-- STV vs, [wa, #off] (R69, R70). -/
def execStv (c : CoreId) (f : IForm) (s : State) : Out :=
  .next (storeInstr c (.stv c f) f 3 (isVec f.rd) (fun r => [(r.rv f.rd).x, (r.rv f.rd).y, (r.rv f.rd).z]) s)

end Sys2Proof.Machine
end

