-- ==== Sys2Proof/Machine/Resume.lean ====
section
/-!
DEFINITION. Sys2Proof/Machine/Resume.lean: the core instructions as one function, host packets executed by the keeper
(R39, R150, R372 to R374), the end of a stall (R34, R49), dispatch (R39) and undefined encodings (R54).
-/
namespace Sys2Proof.Machine

/-! ## Undefined encodings -/

/-- UNDEFINED_INSTRUCTION: a core fetches a word that encodes no instruction: FLT_OPCODE (R54, R55, R57). A word that
does encode one leaves the state as it is. -/
def execUndefinedInstruction (c : CoreId) (w : Word) (s : State) : Out :=
  .next (match decodeCore c w with
    | some _ => s
    | none => issue c (.undefinedInstruction c w) s (fun _ s => fault c fltOpcode (s.regs c).pc s))

/-! ## Core instructions -/

/-- The meaning of a core instruction; any other command leaves the state as it is. -/
def coreExec (i : Instr) (s : State) : Out :=
  match i with
  | .add c f => execAdd c f s
  | .sub c f => execSub c f s
  | .and c f => execAnd c f s
  | .or c f => execOr c f s
  | .xor c f => execXor c f s
  | .shl c f => execShl c f s
  | .shr c f => execShr c f s
  | .sha c f => execSha c f s
  | .slt c f => execSlt c f s
  | .sltu c f => execSltu c f s
  | .mul c f => execMul c f s
  | .mulh c f => execMulh c f s
  | .mulq c f => execMulq c f s
  | .macq c f => execMacq c f s
  | .sat c f => execSat c f s
  | .movl c f => execMovl c f s
  | .movh c f => execMovh c f s
  | .movs c f => execMovs c f s
  | .vadd c f => execVadd c f s
  | .vsub c f => execVsub c f s
  | .vmul c f => execVmul c f s
  | .vdot c f => execVdot c f s
  | .vcross c f => execVcross c f s
  | .vnorm c f => execVnorm c f s
  | .vins c f => execVins c f s
  | .vext c f => execVext c f s
  | .ldw c f => execLdw c f s
  | .stw c f => execStw c f s
  | .ldv c f => execLdv c f s
  | .stv c f => execStv c f s
  | .bra c f => execBra c f s
  | .bz c f => execBz c f s
  | .bnz c f => execBnz c f s
  | .call c f => execCall c f s
  | .bzSt c f => execBzSt c f s
  | .bnzSt c f => execBnzSt c f s
  | .braReg c f => execBraReg c f s
  | .callReg c f => execCallReg c f s
  | .ret c f => execRet c f s
  | .nop c f => execNop c f s
  | .bind c f => execBind c f s
  | .unbind c f => execUnbind c f s
  | .wait c f => execWait c f s
  | .raise c f => execRaise c f s
  | .yield c f => execYield c f s
  | .exit c f => execExit c f s
  | .time c f => execTime c f s
  | .timeH c f => execTimeH c f s
  | .alarmAt c f => execAlarmAt c f s
  | .alarmEvery c f => execAlarmEvery c f s
  | .alarmOff c f => execAlarmOff c f s
  | .level c f => execLevel c f s
  | .sleep c f => execSleep c f s
  | .vote c f => execVote c f s
  | .holdrel c f => execHoldrel c f s
  | .inval c f => execInval c f s
  | .flags c f => execFlags c f s
  | .spool c f => execSpool c f s
  | .grant c f => execGrant c f s
  | .revoke c f => execRevoke c f s
  | .senseSet c f => execSenseSet c f s
  | .senseStart c f => execSenseStart c f s
  | .senseStop c f => execSenseStop c f s
  | .senseHold c f => execSenseHold c f s
  | .senseReturn c f => execSenseReturn c f s
  | .senseOff c f => execSenseOff c f s
  | .tone c f => execTone c f s
  | .calput c f => execCalput c f s
  | .calswap c f => execCalswap c f s
  | .calputP c f => execCalputP c f s
  | .laneBuild c f => execLaneBuild c f s
  | .laneLoad c f => execLaneLoad c f s
  | .laneStart c f => execLaneStart c f s
  | .laneSuspend c f => execLaneSuspend c f s
  | .laneResume c f => execLaneResume c f s
  | .laneStop c f => execLaneStop c f s
  | .laneClear c f => execLaneClear c f s
  | .recogSet c f => execRecogSet c f s
  | .recogArm c f => execRecogArm c f s
  | .recogDisarm c f => execRecogDisarm c f s
  | .recogClear c f => execRecogClear c f s
  | .ringSet c f => execRingSet c f s
  | .ringArm c f => execRingArm c f s
  | .ringTrig c f => execRingTrig c f s
  | .ringDisarm c f => execRingDisarm c f s
  | .ringFree c f => execRingFree c f s
  | .aoutSet c f => execAoutSet c f s
  | .aoutStart c f => execAoutStart c f s
  | .aoutWrite c f => execAoutWrite c f s
  | .aoutDiag c f => execAoutDiag c f s
  | .aoutRelease c f => execAoutRelease c f s
  | .aoutStop c f => execAoutStop c f s
  | .qset c f => execQset c f s
  | .qen c f => execQen c f s
  | .qdis c f => execQdis c f s
  | .qfree c f => execQfree c f s
  | .qput c f => execQput c f s
  | .qputT c f => execQputT c f s
  | .qget c f => execQget c f s
  | .qcred c f => execQcred c f s
  | .qflush c f => execQflush c f s
  | .jput c f => execJput c f s
  | .jcommit c f => execJcommit c f s
  | .jget c f => execJget c f s
  | .sealArm c f => execSealArm c f s
  | .sealBurn c f => execSealBurn c f s
  | .jprog c f => execJprog c f s
  | .jerase c f => execJerase c f s
  | .fjoin c f => execFjoin c f s
  | .fleave c f => execFleave c f s
  | .fsend c f => execFsend c f s
  | .waggleBurst c f => execWaggleBurst c f s
  | .frecv c f => execFrecv c f s
  | .froute c f => execFroute c f s
  | .frouteInval c f => execFrouteInval c f s
  | .portSet c f => execPortSet c f s
  | .portStart c f => execPortStart c f s
  | .portStop c f => execPortStop c f s
  | .portClr c f => execPortClr c f s
  | .lineLoad c f => execLineLoad c f s
  | .lineStart c f => execLineStart c f s
  | .lineStop c f => execLineStop c f s
  | .lineTx c f => execLineTx c f s
  | .lineRx c f => execLineRx c f s
  | .undefinedInstruction c w => execUndefinedInstruction c w s
  | _ => .next s

/-- The next state of a core instruction, which neither faults nor refuses. -/
def coreNext (i : Instr) (s : State) : State :=
  match coreExec i s with
  | .next t => t
  | _ => s

/-! ## Host packets (R372 to R374) -/

/-- The keeper's invocation of a request (R21, R372). -/
def hostInv (s : State) : Inv := ⟨0, none, 0, 7, 5, 0, 0, s.time.hive, false, false, false⟩

/-- Registers at the start of a request: EXECUTE gives w1 upward, READ STATUS WINDOW the address in w2, GRANT CREDIT the
credits in w1 (R372; which registers the last two use is the model's, DESIGN CHOICE, log entry 44). -/
def hostRegs (q : HostReq) : Regs :=
  let vals : List Word :=
    if q.opc = 0x30 then 0 :: q.words.drop 1
    else if q.opc = 0x41 then [0, toWord (fieldOf (wordAt q.words 0) 26 16)]
    else if q.opc = 0x50 then [0, 0, wordAt q.words 0]
    else []
  { Regs.zero with
    w := ⟨⟨(List.range 16).map (wordAt vals)⟩, by simp⟩
    fl := Flags.start 0 0 7 }

/-- A request begins on the keeper. -/
def startHost (q : HostReq) (s : State) : State :=
  let r := hostRegs q
  { (s.setCore 0 { s.core 0 with regs := r, inv := some (hostInv s), stall := none, resuming := false, paid := 0, goAt := s.time.clk }) with
    host := { s.host with req := none, running := some { q with before := vget r.w q.rd } } }

/-- The instruction that a request executes next; none for an undefined one. -/
def hostInstrOf (q : HostReq) : Option Instr :=
  let inst : BitVec 8 := BitVec.ofNat 8 (fieldOf (wordAt q.words 0) 5 0)
  if q.opc = 0x30 then decodeCore 0 (wordAt q.words 0)
  else if q.opc = 0x40 then some (.qget 0 ⟨1, 0, 0, inst⟩)
  else if q.opc = 0x41 then some (.qcred 0 ⟨0, 1, 0, inst⟩)
  else some (.ldw 0 ⟨1, 2, 0⟩)

/-- LDW, LDV, STW and STV, which run before the owner starts (R150). -/
def isMem : Instr → Bool
  | .ldw _ _ | .ldv _ _ | .stw _ _ | .stv _ _ => true
  | _ => false

/-- What a host packet may not execute: FLOW, YIELD, WAIT and EXIT (R373). -/
def isFlow : Instr → Bool
  | .bra _ _ | .bz _ _ | .bnz _ _ | .call _ _ | .bzSt _ _ | .bnzSt _ _ | .braReg _ _ | .callReg _ _ | .ret _ _
  | .nop _ _ | .yield _ _ | .wait _ _ | .exit _ _ => true
  | _ => false

/-- One instruction of a request (R150, R373). -/
def hostIssue (q : HostReq) (s : State) : State :=
  match hostInstrOf q with
  | none => fault 0 fltOpcode (s.regs 0).pc s
  | some i =>
    if ownerRuns s = false ∧ isMem i = false then retire 0 0 stState id s.base s
    else if isFlow i then retire 0 0 stRange id s.base s
    else coreNext i s

/-- What a retired instruction adds to a request: its word, and whether more follow. A poisoned word is delivered and
ends the request (R93, R373, DEDUCED, log entry 45). -/
def hostNote (q : HostReq) (s : State) : HostReq :=
  let r := s.regs 0
  let st := r.fl.stat
  let more := if st = stOk then q.left - 1 else 0
  if (q.opc = 0x40 ∨ q.opc = 0x50) ∧ (st = stOk ∨ st = stEcc) then
    { q with
      left := more, got := q.got ++ [vget r.w 1]
      tags := if q.opc = 0x40 then
          q.tags ++ [(s.queue (finOf 64 (fieldOf (wordAt q.words 0) 5 0))).ltag.toNat] else q.tags }
  else { q with left := more }

/-- The keeper stands in the middle of an instruction: it stalls, or sleep entry holds it. -/
def hostHeld (s : State) : Bool := (s.core 0).stall.isSome || (s.core 0).paused

/-- After an instruction of a request: wait while it is held, end at a fault, else note it. READ STATUS WINDOW goes on
to the next address. -/
def hostAfter (s : State) : State :=
  match s.host.running with
  | none => s
  | some q =>
    if (s.core 0).inv.isNone then hostEnd s
    else if hostHeld s then s
    else
      let q := hostNote q s
      let s := { s with host := { s.host with running := some q } }
      if q.left = 0 then hostEnd s
      else
        let r := s.regs 0
        s.setRegs 0 { r with w := vset r.w 2 (if q.opc = 0x50 then vget r.w 2 + 4 else vget r.w 2) }

/-- The end of the clock of an instruction of READ QUEUE: the queue it reads swaps when its condition holds, before the
next QGET (R339). -/
def hostSwap (q : HostReq) (s : State) : State :=
  if q.opc = 0x40 then queueSwap (finOf 64 (fieldOf (wordAt q.words 0) 5 0)) s else s

/-- The instructions of a request, one after another, at most `n`. -/
def hostRun : Nat → State → State
  | 0, s => s
  | n + 1, s =>
    match s.host.running with
    | none => s
    | some q => if hostHeld s then s else hostRun n (hostAfter (hostSwap q (hostIssue q s)))

/-! ## Dispatch -/

/-- DISPATCH: a free core takes the next invocation; for K a waiting host packet comes first (R39). -/
def execDispatch (c : CoreId) (s : State) : Out :=
  .next (if canDispatch s c then
      match s.host.req with
      | some q => if c = 0 then hostRun 256 (startHost q s) else dispatchHandler c s
      | none => dispatchHandler c s
    else s)

/-! ## Stalls -/

/-- The wake-ups that a stall waits for and whose time has come are over. -/
def settleWake (st : Stall) (s : State) : State :=
  let d := Domain.idx (funcDomain st.fn)
  let s := match vget s.sleep.upAt d with
    | some t => if t ≤ s.time.phys then { s with sleep := { s.sleep with upAt := vset s.sleep.upAt d none } } else s
    | none => s
  match st.instr with
  | .senseSet _ u =>
    if h : u.inst.toNat < 3 then
      let k : SensorId := ⟨u.inst.toNat, by omega⟩
      let x := s.sensor k
      match x.warmAt with
      | some t => if t ≤ s.time.phys then s.setSensor k { x with warmAt := none } else s
      | none => s
    else s
  | _ => s

/-- A stall is over: its function has failed, or what it waits for has come. -/
def stallOver (st : Stall) (s : State) : Bool :=
  match st.why with
  | .start => s.hasFailed st.fn || s.isReady st.fn
  | .wake t => s.hasFailed st.fn || decide (t ≤ s.time.phys)
  | .flashOp off n => flashServed off n s
  | .leaving => s.hive.leaving.isNone

/-- The stalled instruction of a core goes on: from order 4, or from its fetch (R34, R49). A host request goes on with
its next instruction. -/
def resumeStall (c : CoreId) (st : Stall) (s : State) : State :=
  let s := s.setCore c { s.core c with stall := none, resuming := !st.fetch }
  let s := coreNext st.instr s
  if c = 0 ∧ s.host.running.isSome = true then hostRun 256 (hostAfter s) else s

/-- STALL_END: what a core stalls for has come (R34, R47, R48, R457). -/
def execStallEnd (c : CoreId) (s : State) : Out :=
  .next (match (s.core c).stall with
    | none => s
    | some st =>
      if s.running = false ∨ (s.core c).paused = true then s
      else
        let s' := settleWake st s
        if stallOver st s' then
          let s := longStall s' c
          resumeStall c st s
        else s)

/-- The instant after which a stall has lasted twice its time (R49): the wake-up's end and its time again, or for a
function that is not ready its Max time. A wait for a flash operation or for LEAVE frames has no such time. -/
def stallLimit (st : Stall) (s : State) : Option Nat :=
  match st.why with
  | .start => some (s.boot.relPhys + maxTicks st.fn)
  | .wake t => some (t + usTicks (wakeUs st.fn))
  | .flashOp _ _ => none
  | .leaving => none

/-- STALL_TIMEOUT: a stall has lasted twice its time: the function fails, and the instruction retires with ST_NOTREADY,
or the fetch faults with FLT_FETCH (R49, R17). -/
def execStallTimeout (c : CoreId) (s : State) : Out :=
  .next (match (s.core c).stall with
    | none => s
    | some st =>
      match stallLimit st s with
      | some t =>
        if s.running = true ∧ (s.core c).paused = false ∧ canFail st.fn = true ∧ t < s.time.phys then
          resumeStall c st (failFunction st.fn (longStall s c))
        else s
      | none => s)

end Sys2Proof.Machine
end

