-- ==== Sys2Proof/Machine/Host.lean ====
section
/-!
DEFINITION. Sys2Proof/Machine/Host.lean: the frames of host instruction packets on PORT_0 in tethered flight
(section 13.6, R150, R370 to R376). A frame's command is its select release.
-/
namespace Sys2Proof.Machine

/-- The packet decoder serves frames: tethered flight, PORTS ready (R150, R376). -/
def hostServes (s : State) : Bool := hostOwns s 0 && s.running && s.isReady .ports

/-- A status byte is sent: the sticky bits that it carries are cleared after it (Table 13.4). -/
def sendStatus (b : Byte) (s : State) : State :=
  { s with host := { s.host with
      disc := s.host.disc && !b.getLsbD 2, err := s.host.err && !b.getLsbD 3, urun := s.host.urun && !b.getLsbD 5 } }

/-- The status byte of the frame that ends: the one formed when CS was asserted. -/
def frameStatus (s : State) : Byte := s.host.status.getD (hostStatus s)

/-- The command phase of a frame, and the frame's end: the status byte and 0x00 on D_1 (section 13.6). ALERT falls with
the assertion of CS; without a SLAVE_SELECT_ASSERT before it the frame's command stands for that too (R370). -/
def hostCommand (s : State) : State :=
  let b := frameStatus s
  let s := (sendStatus b s).modPort 0 (fun x => { x with inframe := false, nframe := x.nframe + 1 })
  { s with host := { s.host with
      alert := s.host.alert && s.host.status.isSome, status := none, out := [b, 0], lanes := 0 } }

/-- A frame of the host: served by the decoder, or before PORTS is ready noted in DISC (R150, R376). -/
def hostFrame (k : State → State) (s : State) : State :=
  if hostServes s then k (hostCommand s)
  else if hostOwns s 0 = true ∧ s.time.mode ≠ .off then { s with host := { s.host with disc := true } }
  else s

/-- A request is discarded: DISC and NDISC (R371). -/
def hostDiscard (s : State) : State :=
  let s := s.modPort 0 (fun x => { x with ndisc := satInc x.ndisc })
  { s with host := { s.host with disc := true } }

/-- A malformed request is rejected: ERR and NERR (R371). -/
def hostReject (s : State) : State :=
  let s := s.modPort 0 (fun x => { x with nerr := satInc x.nerr })
  { s with host := { s.host with err := true } }

/-- A request at its select release (R371, R372): discarded while one is pending or during an orderly stop, rejected
when malformed, else accepted. -/
def hostRequest (ok : Bool) (q : HostReq) (s : State) : State :=
  if s.host.busy = true ∨ s.therm.stop.isSome = true then hostDiscard s
  else if !ok then hostReject s
  else
    let s := s.modPort 0 (fun x => { x with nreq := x.nreq + 1 })
    { s with host := { s.host with busy := true, rdy := false, reply := [], req := some q } }

/-- A request record of a packet (section 13.6). -/
def hostReqOf (opc : BitVec 8) (left : Nat) (p : HostPkt) : HostReq :=
  { opc := opc, tag := p.tag.extractLsb' 3 5, words := p.words, left := left, got := [], tags := []
    rd := finOf 16 (fieldOf (wordAt p.words 0) 25 22), fcode := 0, before := 0 }

/-- READ REPLY's data phase of `n` bytes, in the lanes and the DDR of its command: a status byte, the reply in the order
of R357, and 0xFF beyond it, or without one, which sets URUN (R375). The status byte is that of the frame (DEDUCED, log
entry 118). -/
def sendReply (n : Nat) (lanes : BitVec 3) (s : State) : State :=
  let b := s.host.out.headD 0
  let rdy := b.getLsbD 0
  let body := b :: ((if rdy then bytesOfWords s.host.reply else []) ++ List.replicate n 0xFF)
  { s with host := { s.host with
      urun := s.host.urun || !rdy, out := s.host.out ++ body.take n, lanes := lanes } }

/-- The beats of the last data phase on D_0 up: D_(L-1) carries the first bit of each (R357, R375). -/
def replyBeats (s : State) : List (List Bool) :=
  let lanes := (s.host.lanes.extractLsb' 0 2).toNat
  let bits := (s.host.out.drop 2).flatMap (fun b => msbBits 8 b.toNat)
  (List.range (phasePeriods bits.length lanes false)).map (fun k =>
    (List.range (2 ^ lanes)).map (fun n => (beatBit lanes bits k n).getD false))

/-- STATUS: opcode 0x00, or a frame released within its command phase, polls the status byte; any other opcode without
a data phase is a malformed request (R371), and 0x60 reads the reply. -/
def execHostStatus (opc : Byte) (whole : Bool) (s : State) : Out :=
  .next (hostFrame (fun s =>
    if whole = false ∨ opc = 0 then s
    else if opc = 0x60 then sendReply 0 0 s
    else hostRequest false (hostReqOf opc 0 ⟨0, [], 0⟩) s) s)

/-- EXECUTE (0x30): 1 to 16 words, an instruction and values for w1 up to w15 (Table 13.5). -/
def execHostExecute (p : HostPkt) (s : State) : Out :=
  .next (hostFrame
    (hostRequest (p.extra == 0 && decide (1 ≤ p.words.length) && decide (p.words.length ≤ 16)) (hostReqOf 0x30 1 p)) s)

/-- READ QUEUE (0x40): one word, the queue and a count of 1 to 256 (Table 13.5). -/
def execHostReadQueue (p : HostPkt) (s : State) : Out :=
  let w := wordAt p.words 0
  let n := fieldOf w 24 16
  .next (hostFrame
    (hostRequest (p.extra == 0 && p.words.length == 1 && zeroBits w 15 6 && zeroBits w 31 25 && decide (1 ≤ n) &&
      decide (n ≤ 256)) (hostReqOf 0x40 n p)) s)

/-- GRANT CREDIT (0x41): one word, the queue and the credits (Table 13.5). -/
def execHostGrantCredit (p : HostPkt) (s : State) : Out :=
  let w := wordAt p.words 0
  .next (hostFrame
    (hostRequest (p.extra == 0 && p.words.length == 1 && zeroBits w 15 6 && zeroBits w 31 27) (hostReqOf 0x41 1 p)) s)

/-- READ STATUS WINDOW (0x50): a word address and a count of 1 to 256 (Table 13.5). -/
def execHostReadWindow (p : HostPkt) (s : State) : Out :=
  let n := (wordAt p.words 1).toNat
  .next (hostFrame
    (hostRequest (p.extra == 0 && p.words.length == 2 && decide (1 ≤ n) && decide (n ≤ 256)) (hostReqOf 0x50 n p)) s)

/-- READ REPLY (0x60): the last reply, which stays readable (R374, R375); the packet's words and bits give the length of
the data phase that the host has clocked. -/
def execHostReadReply (p : HostPkt) (s : State) : Out :=
  .next (hostFrame (sendReply ((32 * p.words.length + p.extra) / 8) (p.tag.extractLsb' 0 3)) s)

end Sys2Proof.Machine
end

