-- ==== Sys2Proof/Machine/Dispatch.lean ====
section
/-!
DEFINITION. Sys2Proof/Machine/Dispatch.lean: one arm per command, each a direct call of its meaning.
-/
namespace Sys2Proof.Machine

def exec (i : Instr) (s : State) : Host.Outcome State Fault Refusal :=
  match i with
  | .add c f => Sys2Proof.Machine.execAdd c f s
  | .sub c f => Sys2Proof.Machine.execSub c f s
  | .and c f => Sys2Proof.Machine.execAnd c f s
  | .or c f => Sys2Proof.Machine.execOr c f s
  | .xor c f => Sys2Proof.Machine.execXor c f s
  | .shl c f => Sys2Proof.Machine.execShl c f s
  | .shr c f => Sys2Proof.Machine.execShr c f s
  | .sha c f => Sys2Proof.Machine.execSha c f s
  | .slt c f => Sys2Proof.Machine.execSlt c f s
  | .sltu c f => Sys2Proof.Machine.execSltu c f s
  | .mul c f => Sys2Proof.Machine.execMul c f s
  | .mulh c f => Sys2Proof.Machine.execMulh c f s
  | .mulq c f => Sys2Proof.Machine.execMulq c f s
  | .macq c f => Sys2Proof.Machine.execMacq c f s
  | .sat c f => Sys2Proof.Machine.execSat c f s
  | .movl c f => Sys2Proof.Machine.execMovl c f s
  | .movh c f => Sys2Proof.Machine.execMovh c f s
  | .movs c f => Sys2Proof.Machine.execMovs c f s
  | .vadd c f => Sys2Proof.Machine.execVadd c f s
  | .vsub c f => Sys2Proof.Machine.execVsub c f s
  | .vmul c f => Sys2Proof.Machine.execVmul c f s
  | .vdot c f => Sys2Proof.Machine.execVdot c f s
  | .vcross c f => Sys2Proof.Machine.execVcross c f s
  | .vnorm c f => Sys2Proof.Machine.execVnorm c f s
  | .vins c f => Sys2Proof.Machine.execVins c f s
  | .vext c f => Sys2Proof.Machine.execVext c f s
  | .ldw c f => Sys2Proof.Machine.execLdw c f s
  | .stw c f => Sys2Proof.Machine.execStw c f s
  | .ldv c f => Sys2Proof.Machine.execLdv c f s
  | .stv c f => Sys2Proof.Machine.execStv c f s
  | .bra c f => Sys2Proof.Machine.execBra c f s
  | .bz c f => Sys2Proof.Machine.execBz c f s
  | .bnz c f => Sys2Proof.Machine.execBnz c f s
  | .call c f => Sys2Proof.Machine.execCall c f s
  | .bzSt c f => Sys2Proof.Machine.execBzSt c f s
  | .bnzSt c f => Sys2Proof.Machine.execBnzSt c f s
  | .braReg c f => Sys2Proof.Machine.execBraReg c f s
  | .callReg c f => Sys2Proof.Machine.execCallReg c f s
  | .ret c f => Sys2Proof.Machine.execRet c f s
  | .nop c f => Sys2Proof.Machine.execNop c f s
  | .undefinedInstruction c w => Sys2Proof.Machine.execUndefinedInstruction c w s
  | .bind c f => Sys2Proof.Machine.execBind c f s
  | .unbind c f => Sys2Proof.Machine.execUnbind c f s
  | .wait c f => Sys2Proof.Machine.execWait c f s
  | .raise c f => Sys2Proof.Machine.execRaise c f s
  | .yield c f => Sys2Proof.Machine.execYield c f s
  | .exit c f => Sys2Proof.Machine.execExit c f s
  | .time c f => Sys2Proof.Machine.execTime c f s
  | .timeH c f => Sys2Proof.Machine.execTimeH c f s
  | .alarmAt c f => Sys2Proof.Machine.execAlarmAt c f s
  | .alarmEvery c f => Sys2Proof.Machine.execAlarmEvery c f s
  | .alarmOff c f => Sys2Proof.Machine.execAlarmOff c f s
  | .level c f => Sys2Proof.Machine.execLevel c f s
  | .sleep c f => Sys2Proof.Machine.execSleep c f s
  | .vote c f => Sys2Proof.Machine.execVote c f s
  | .holdrel c f => Sys2Proof.Machine.execHoldrel c f s
  | .inval c f => Sys2Proof.Machine.execInval c f s
  | .flags c f => Sys2Proof.Machine.execFlags c f s
  | .spool c f => Sys2Proof.Machine.execSpool c f s
  | .grant c f => Sys2Proof.Machine.execGrant c f s
  | .revoke c f => Sys2Proof.Machine.execRevoke c f s
  | .senseSet c f => Sys2Proof.Machine.execSenseSet c f s
  | .senseStart c f => Sys2Proof.Machine.execSenseStart c f s
  | .senseStop c f => Sys2Proof.Machine.execSenseStop c f s
  | .senseHold c f => Sys2Proof.Machine.execSenseHold c f s
  | .senseReturn c f => Sys2Proof.Machine.execSenseReturn c f s
  | .senseOff c f => Sys2Proof.Machine.execSenseOff c f s
  | .tone c f => Sys2Proof.Machine.execTone c f s
  | .calput c f => Sys2Proof.Machine.execCalput c f s
  | .calswap c f => Sys2Proof.Machine.execCalswap c f s
  | .calputP c f => Sys2Proof.Machine.execCalputP c f s
  | .laneBuild c f => Sys2Proof.Machine.execLaneBuild c f s
  | .laneLoad c f => Sys2Proof.Machine.execLaneLoad c f s
  | .laneStart c f => Sys2Proof.Machine.execLaneStart c f s
  | .laneSuspend c f => Sys2Proof.Machine.execLaneSuspend c f s
  | .laneResume c f => Sys2Proof.Machine.execLaneResume c f s
  | .laneStop c f => Sys2Proof.Machine.execLaneStop c f s
  | .laneClear c f => Sys2Proof.Machine.execLaneClear c f s
  | .recogSet c f => Sys2Proof.Machine.execRecogSet c f s
  | .recogArm c f => Sys2Proof.Machine.execRecogArm c f s
  | .recogDisarm c f => Sys2Proof.Machine.execRecogDisarm c f s
  | .recogClear c f => Sys2Proof.Machine.execRecogClear c f s
  | .ringSet c f => Sys2Proof.Machine.execRingSet c f s
  | .ringArm c f => Sys2Proof.Machine.execRingArm c f s
  | .ringTrig c f => Sys2Proof.Machine.execRingTrig c f s
  | .ringDisarm c f => Sys2Proof.Machine.execRingDisarm c f s
  | .ringFree c f => Sys2Proof.Machine.execRingFree c f s
  | .aoutSet c f => Sys2Proof.Machine.execAoutSet c f s
  | .aoutStart c f => Sys2Proof.Machine.execAoutStart c f s
  | .aoutWrite c f => Sys2Proof.Machine.execAoutWrite c f s
  | .aoutDiag c f => Sys2Proof.Machine.execAoutDiag c f s
  | .aoutRelease c f => Sys2Proof.Machine.execAoutRelease c f s
  | .aoutStop c f => Sys2Proof.Machine.execAoutStop c f s
  | .qset c f => Sys2Proof.Machine.execQset c f s
  | .qen c f => Sys2Proof.Machine.execQen c f s
  | .qdis c f => Sys2Proof.Machine.execQdis c f s
  | .qfree c f => Sys2Proof.Machine.execQfree c f s
  | .qput c f => Sys2Proof.Machine.execQput c f s
  | .qputT c f => Sys2Proof.Machine.execQputT c f s
  | .qget c f => Sys2Proof.Machine.execQget c f s
  | .qcred c f => Sys2Proof.Machine.execQcred c f s
  | .qflush c f => Sys2Proof.Machine.execQflush c f s
  | .jput c f => Sys2Proof.Machine.execJput c f s
  | .jcommit c f => Sys2Proof.Machine.execJcommit c f s
  | .jget c f => Sys2Proof.Machine.execJget c f s
  | .sealArm c f => Sys2Proof.Machine.execSealArm c f s
  | .sealBurn c f => Sys2Proof.Machine.execSealBurn c f s
  | .jprog c f => Sys2Proof.Machine.execJprog c f s
  | .jerase c f => Sys2Proof.Machine.execJerase c f s
  | .fjoin c f => Sys2Proof.Machine.execFjoin c f s
  | .fleave c f => Sys2Proof.Machine.execFleave c f s
  | .fsend c f => Sys2Proof.Machine.execFsend c f s
  | .waggleBurst c f => Sys2Proof.Machine.execWaggleBurst c f s
  | .frecv c f => Sys2Proof.Machine.execFrecv c f s
  | .froute c f => Sys2Proof.Machine.execFroute c f s
  | .frouteInval c f => Sys2Proof.Machine.execFrouteInval c f s
  | .portSet c f => Sys2Proof.Machine.execPortSet c f s
  | .portStart c f => Sys2Proof.Machine.execPortStart c f s
  | .portStop c f => Sys2Proof.Machine.execPortStop c f s
  | .portClr c f => Sys2Proof.Machine.execPortClr c f s
  | .lineLoad c f => Sys2Proof.Machine.execLineLoad c f s
  | .lineStart c f => Sys2Proof.Machine.execLineStart c f s
  | .lineStop c f => Sys2Proof.Machine.execLineStop c f s
  | .lineTx c f => Sys2Proof.Machine.execLineTx c f s
  | .lineRx c f => Sys2Proof.Machine.execLineRx c f s
  | .hostStatus opc whole => Sys2Proof.Machine.execHostStatus opc whole s
  | .hostExecute p => Sys2Proof.Machine.execHostExecute p s
  | .hostReadQueue p => Sys2Proof.Machine.execHostReadQueue p s
  | .hostGrantCredit p => Sys2Proof.Machine.execHostGrantCredit p s
  | .hostReadWindow p => Sys2Proof.Machine.execHostReadWindow p s
  | .hostReadReply p => Sys2Proof.Machine.execHostReadReply p s
  | .leHalt e => Sys2Proof.Machine.execLeHalt e s
  | .leDrive e => Sys2Proof.Machine.execLeDrive e s
  | .leDriveAll e => Sys2Proof.Machine.execLeDriveAll e s
  | .leSample e lv => Sys2Proof.Machine.execLeSample e lv s
  | .leShout e => Sys2Proof.Machine.execLeShout e s
  | .leShin e lv => Sys2Proof.Machine.execLeShin e lv s
  | .leTakeSr e => Sys2Proof.Machine.execLeTakeSr e s
  | .leTakeC e => Sys2Proof.Machine.execLeTakeC e s
  | .leTakeMarkAdd e => Sys2Proof.Machine.execLeTakeMarkAdd e s
  | .leTakeMarkAbs e => Sys2Proof.Machine.execLeTakeMarkAbs e s
  | .leGiveSr e => Sys2Proof.Machine.execLeGiveSr e s
  | .leGiveC e => Sys2Proof.Machine.execLeGiveC e s
  | .leGiveMarkLo e => Sys2Proof.Machine.execLeGiveMarkLo e s
  | .leGiveMarkHi e => Sys2Proof.Machine.execLeGiveMarkHi e s
  | .leBranch e lv => Sys2Proof.Machine.execLeBranch e lv s
  | .leCountLoad e => Sys2Proof.Machine.execLeCountLoad e s
  | .leCountInc e => Sys2Proof.Machine.execLeCountInc e s
  | .leCountDec e => Sys2Proof.Machine.execLeCountDec e s
  | .leCountAdd e => Sys2Proof.Machine.execLeCountAdd e s
  | .leAwait e prev lv => Sys2Proof.Machine.execLeAwait e prev lv s
  | .leAwaitEnd e prev lv => Sys2Proof.Machine.execLeAwaitEnd e prev lv s
  | .leStampNow e => Sys2Proof.Machine.execLeStampNow e s
  | .leStampEdge e => Sys2Proof.Machine.execLeStampEdge e s
  | .leStampAddi e => Sys2Proof.Machine.execLeStampAddi e s
  | .leStampAddc1 e => Sys2Proof.Machine.execLeStampAddc1 e s
  | .leStampAddsr e => Sys2Proof.Machine.execLeStampAddsr e s
  | .leStampAddc0 e => Sys2Proof.Machine.execLeStampAddc0 e s
  | .leStallEnd e => Sys2Proof.Machine.execLeStallEnd e s
  | .leTimedAction e lv => Sys2Proof.Machine.execLeTimedAction e lv s
  | .dispatch c => Sys2Proof.Machine.execDispatch c s
  | .waitTimeout k => Sys2Proof.Machine.execWaitTimeout k s
  | .timerExpiry n => Sys2Proof.Machine.execTimerExpiry n s
  | .budgetExhausted c => Sys2Proof.Machine.execBudgetExhausted c s
  | .quotaExhausted t => Sys2Proof.Machine.execQuotaExhausted t s
  | .quotaPeriod t => Sys2Proof.Machine.execQuotaPeriod t s
  | .stallEnd c => Sys2Proof.Machine.execStallEnd c s
  | .stallTimeout c => Sys2Proof.Machine.execStallTimeout c s
  | .domainIdleOff d => Sys2Proof.Machine.execDomainIdleOff d s
  | .powerOnReset => Sys2Proof.Machine.execPowerOnReset s
  | .pgoodLow ns => Sys2Proof.Machine.execPgoodLow ns s
  | .externalReset ns => Sys2Proof.Machine.execExternalReset ns s
  | .resetRelease modeBall testEn => Sys2Proof.Machine.execResetRelease modeBall testEn s
  | .functionReady f => Sys2Proof.Machine.execFunctionReady f s
  | .functionFail f => Sys2Proof.Machine.execFunctionFail f s
  | .bootAttempt => Sys2Proof.Machine.execBootAttempt s
  | .doorbellStore w => Sys2Proof.Machine.execDoorbellStore w s
  | .ownerLoadDone => Sys2Proof.Machine.execOwnerLoadDone s
  | .spoolLoadDone => Sys2Proof.Machine.execSpoolLoadDone s
  | .spoolLoadFail => Sys2Proof.Machine.execSpoolLoadFail s
  | .loadCleanupEnd => Sys2Proof.Machine.execLoadCleanupEnd s
  | .srlFrameStart => Sys2Proof.Machine.execSrlFrameStart s
  | .srqAck => Sys2Proof.Machine.execSrqAck s
  | .srlTimeout => Sys2Proof.Machine.execSrlTimeout s
  | .clockSwitch => Sys2Proof.Machine.execClockSwitch s
  | .aonAdvance => Sys2Proof.Machine.execAonAdvance s
  | .wakeActivity p ns => Sys2Proof.Machine.execWakeActivity p ns s
  | .wakeWaggle p b => Sys2Proof.Machine.execWakeWaggle p b s
  | .wakeLine pin lvl => Sys2Proof.Machine.execWakeLine pin lvl s
  | .listenerWindow r => Sys2Proof.Machine.execListenerWindow r s
  | .wakeEvent => Sys2Proof.Machine.execWakeEvent s
  | .thermalRound r => Sys2Proof.Machine.execThermalRound r s
  | .thermalCut r => Sys2Proof.Machine.execThermalCut r s
  | .thermalRestart r => Sys2Proof.Machine.execThermalRestart r s
  | .conversion k v => Sys2Proof.Machine.execConversion k v s
  | .sensorSampleDelivery k => Sys2Proof.Machine.execSensorSampleDelivery k s
  | .selfTestEnd k v => Sys2Proof.Machine.execSelfTestEnd k v s
  | .toneMeasStart ch => Sys2Proof.Machine.execToneMeasStart ch s
  | .toneResult ch r => Sys2Proof.Machine.execToneResult ch r s
  | .aoutTimeout a => Sys2Proof.Machine.execAoutTimeout a s
  | .laneRecord l => Sys2Proof.Machine.execLaneRecord l s
  | .recogDecide r => Sys2Proof.Machine.execRecogDecide r s
  | .evtPulseEnd b => Sys2Proof.Machine.execEvtPulseEnd b s
  | .ringWrite => Sys2Proof.Machine.execRingWrite s
  | .scrubLine => Sys2Proof.Machine.execScrubLine s
  | .queueSwap q => Sys2Proof.Machine.execQueueSwap q s
  | .masterFrameStart p rx => Sys2Proof.Machine.execMasterFrameStart p rx s
  | .masterResume p => Sys2Proof.Machine.execMasterResume p s
  | .masterFrameEnd p => Sys2Proof.Machine.execMasterFrameEnd p s
  | .slaveSelectAssert p => Sys2Proof.Machine.execSlaveSelectAssert p s
  | .slaveWord p w => Sys2Proof.Machine.execSlaveWord p w s
  | .slaveSelectRelease p bits w => Sys2Proof.Machine.execSlaveSelectRelease p bits w s
  | .mmfDetect p => Sys2Proof.Machine.execMmfDetect p s
  | .memberCapture p => Sys2Proof.Machine.execMemberCapture p s
  | .memberLatch p bits seg => Sys2Proof.Machine.execMemberLatch p bits seg s
  | .sweepStart p => Sys2Proof.Machine.execSweepStart p s
  | .sweepEnd p segs => Sys2Proof.Machine.execSweepEnd p segs s
  | .claimSend => Sys2Proof.Machine.execClaimSend s
  | .swarmDecide => Sys2Proof.Machine.execSwarmDecide s
  | .callRx f => Sys2Proof.Machine.execCallRx f s
  | .renewAnswer => Sys2Proof.Machine.execRenewAnswer s
  | .claimRx f => Sys2Proof.Machine.execClaimRx f s
  | .defendRx f => Sys2Proof.Machine.execDefendRx f s
  | .renewRx f => Sys2Proof.Machine.execRenewRx f s
  | .renewSend => Sys2Proof.Machine.execRenewSend s
  | .leaseExpiry k => Sys2Proof.Machine.execLeaseExpiry k s
  | .routeadvSend => Sys2Proof.Machine.execRouteadvSend s
  | .routeadvRx f => Sys2Proof.Machine.execRouteadvRx f s
  | .routeExpiry a => Sys2Proof.Machine.execRouteExpiry a s
  | .cacheLineExpiry k => Sys2Proof.Machine.execCacheLineExpiry k s
  | .frameTransmit dbm => Sys2Proof.Machine.execFrameTransmit dbm s
  | .floodRelay => Sys2Proof.Machine.execFloodRelay s
  | .macAckRx f => Sys2Proof.Machine.execMacAckRx f s
  | .macAckTimeout => Sys2Proof.Machine.execMacAckTimeout s
  | .dataRx f => Sys2Proof.Machine.execDataRx f s
  | .nackRx f => Sys2Proof.Machine.execNackRx f s
  | .delivRx f => Sys2Proof.Machine.execDelivRx f s
  | .e2eTimeout => Sys2Proof.Machine.execE2eTimeout s
  | .leaveRx f => Sys2Proof.Machine.execLeaveRx f s
  | .waggleFrame => Sys2Proof.Machine.execWaggleFrame s
  | .syncSreq dbm => Sys2Proof.Machine.execSyncSreq dbm s
  | .sreqRx f => Sys2Proof.Machine.execSreqRx f s
  | .srespSend dbm => Sys2Proof.Machine.execSrespSend dbm s
  | .srespRx f => Sys2Proof.Machine.execSrespRx f s
  | .captureSwitch strongerDb => Sys2Proof.Machine.execCaptureSwitch strongerDb s
  | .commitDone => Sys2Proof.Machine.execCommitDone s
  | .flashOpDone => Sys2Proof.Machine.execFlashOpDone s
  | .flashOpTimeout => Sys2Proof.Machine.execFlashOpTimeout s
  | .flashOpResume => Sys2Proof.Machine.execFlashOpResume s
  | .gcStep => Sys2Proof.Machine.execGcStep s
  | .checkpointWrite => Sys2Proof.Machine.execCheckpointWrite s
  | .scanEnd => Sys2Proof.Machine.execScanEnd s
  | .sealBurnDone => Sys2Proof.Machine.execSealBurnDone s
  | .sealArmExpiry => Sys2Proof.Machine.execSealArmExpiry s
  | .tapReset => Sys2Proof.Machine.execTapReset s
  | .tapExtest => Sys2Proof.Machine.execTapExtest s
  | .tapSamplePreload => Sys2Proof.Machine.execTapSamplePreload s
  | .tapIdcode => Sys2Proof.Machine.execTapIdcode s
  | .tapClamp => Sys2Proof.Machine.execTapClamp s
  | .tapHighz => Sys2Proof.Machine.execTapHighz s
  | .tapBypass => Sys2Proof.Machine.execTapBypass s
  | .tapPrivate => Sys2Proof.Machine.execTapPrivate s
  | .sleepEntryStepEnd => Sys2Proof.Machine.execSleepEntryStepEnd s
  | .orderlyStopStepEnd => Sys2Proof.Machine.execOrderlyStopStepEnd s
  | .scanStart => Sys2Proof.Machine.execScanStart s
  | .foreignFrameRx f => Sys2Proof.Machine.execForeignFrameRx f s
  | .noLatchPeriod p => Sys2Proof.Machine.execNoLatchPeriod p s
  | .tetherSyncSample => Sys2Proof.Machine.execTetherSyncSample s
  | .ioBankSupplyChange bank mv => Sys2Proof.Machine.execIoBankSupplyChange bank mv s
  | .vaoutChange mv => Sys2Proof.Machine.execVaoutChange mv s
  | .drScan d => Sys2Proof.Machine.execDrScan d s

end Sys2Proof.Machine
end

