-- ==== Sys2Proof/Machine/Tick.lean ====
section
/-!
DEFINITION. Sys2Proof/Machine/Tick.lean: what one clock does when no command waits (log entry 1).
-/
namespace Sys2Proof.Machine

/-- What a rule put in this clock takes effect. -/
def doLater (s : State) : Later → State
  | .event src arg => s.event src arg s.time.hive
  | .eventOf src arg time => s.event src arg time
  | .bias l => applyBias l s
  | .assist l => applyAssist l s
  | .force => forceL1 s
  | .withdrawn t => s.modTenant t (fun x => { x with record := Vector.replicate 24 0 })
  | .holdrel g => s.setSleep (releaseGroup g)
  | .laneRun l run => if run then recogsRun l s else recogsHold l s
  | .sample th => firstSample th s
  | .recogHeld r => if (s.recog r).st = .run then recogLeave r .held s else s

/-- The effects that the clock before put in this one. -/
def startOfClock (s : State) : State := s.later.foldl doLater { s with later := [] }

/-- A clock ends: queues swap, its cycles are charged, and what the rules put at its end takes effect (R45, R38, R77,
R81, R339). -/
def endClock (s : State) : State := { endEvents (clockCores (wokeOver (noteBalls (suspendClock (radioClock (queueSwaps s)))))) with
  bankUse := [], early := [], unseen := ⟨[], []⟩ }

/-- The LINE balls from the edge that starts this clock on, holds and supplies included: the captures of R391 find them. -/
def noteEdge (s : State) : State :=
  { s with lines := { s.lines with
    edges := (⟨s.time.phys, lineBits (fun p => (ballDrive s (.line (finOf 48 p))).2.1),
      lineBits (fun p => (ballDrive s (.line (finOf 48 p))).1)⟩ :: s.lines.edges).take 10 } }

/-- A clock starts: what the clock before put in it takes effect, carried compares are tested, sleep entry, rounds and the
loader go on, and the balls show the drives set in the clock before (R116, R201, R205, R217, R389, R399). -/
def startClock (s : State) : State :=
  noteEdge (lineClock (loaderClock (noteRound (noteUse (entryClock (noteCompares (startOfClock s)))))))

/-- What status windows show in the clock that starts (R528). -/
def noteShown (s : State) : State :=
  { s with shown := some {
      ctx := s.ctx, bindings := s.bindings, tenants := s.tenants, eccCnt := s.eccCnt, time := s.time, boot := s.boot
      level := s.level, sleep := s.sleep, therm := s.therm, sensors := s.sensors, aouts := s.aouts, lanes := s.lanes
      recogs := s.recogs, rings := s.rings, comb := s.comb, queues := s.queues, ports := s.ports
      engines := s.engines, lines := s.lines, journal := s.journal, hive := s.hive } }

/-- One clock passes. While the system clock runs, hive time, the clock count and the ports advance by one clock, and
stalls grow long (R48, R162, R364, R368). While it does not, one crystal cycle of 6 ticks passes, up to the next
multiple of 6; with PGOOD low nothing does. -/
def tick (s : State) : State :=
  match s.time.mode with
  | .running =>
    let s := endClock s
    let s := startClock { s with time := countClock s.inc s.time }
    noteShown (dropSent (longStalls (portClock 2 (portClock 1 (portClock 0 s)))))
  | .off => s
  | _ => dropSent (endWindow { s with time := { s.time with phys := (s.time.phys / 6 + 1) * 6 } })

end Sys2Proof.Machine
end

