-- ==== Sys2Proof/Safety.lean ====
section
/-!
DEFINITION. Sys2Proof/Safety.lean: the terms that statements use: when a core begins an instruction, how an instruction
without a status leaves its core, the plain arithmetic of Tables 2.5 and 2.6, and what counts as a safe step.
-/
namespace Sys2Proof.Machine

/-- A command has an outcome that is a next state with a property. -/
def Completes (i : Instr) (s : State) (P : State → Prop) : Prop := ∃ t, exec i s = .next t ∧ P t

/-- Core `c`, which holds invocation `v`, begins instruction `i` in state `s`: the invocation has reached the clock of its
first instruction (R41, R63), the core is neither stalled nor paused, no fault is due at the boundary (R46, R109, R124)
unless clocks of this very instruction have been charged already, and its fetch answers state `s'`. A host packet is not
fetched (R7). -/
def Begins (c : CoreId) (i : Instr) (v : Inv) (s s' : State) : Prop :=
  (s.core c).inv = some v ∧ s.running = true ∧ (s.core c).paused = false ∧ (s.core c).stall = none ∧
  (s.core c).goAt ≤ s.time.clk ∧ (s.core c).resuming = false ∧
  ((s.core c).paid ≠ 0 ∨ (v.stopped = false ∧ dueFault v = none)) ∧ fetch c i v s = .ok s'

/-- None of `n` words from an address shows an error mark to a read in this clock (R25, R26). -/
abbrev CleanAt (s : State) (a n : Nat) : Prop := ∀ i < n, eccSeen s (a + 4 * i) = none

/-- The `n` words from an address as a read in this clock finds them (R25). -/
def wordsAt (s : State) (a n : Nat) : Words := (List.range n).map (fun i => wordSeen s (a + 4 * i))

/-- Cycles that the data accesses of an instruction to these banks wait beyond the wait of its fetch, in the clock of
its retirement (R24, R179). -/
def dataWait (c : CoreId) (banks : List Nat) (s : State) : Nat := sramWait c banks s - sramWait c (fetchBanks c s) s

/-- Core `c` retires an instruction of invocation `v`, begun in `s`, whose data accesses use these SRAM banks: as
`retire`, with the cycles of their waits, and the accesses noted for the other cores of the clock. -/
def retireUsing (c : CoreId) (v : Inv) (banks : List Nat) (s : State) (st : BitVec 8) (upd : Regs → Regs) (cyc : Nat)
    (u : State) : State :=
  retire c v.tenant st upd (cyc + dataWait c banks s) (useBanks c banks u)

/-- A core goes on to the next instruction with registers `r` and `cyc` cycles charged. -/
def goesOn (c : CoreId) (cyc : Nat) (s : State) (r : Regs) : State :=
  charge c cyc (s.setRegs c { r with pc := (s.regs c).pc + 4 })

/-- A core goes to the address `a` with registers `r` and two cycles charged (Table 2.3): FLT_FETCH at the target when it
is not word-aligned or outside the tenant's code windows (R72, R73); a host packet has no next fetch. -/
def jumpsTo (c : CoreId) (v : Inv) (a : Word) (s : State) (r : Regs) : State :=
  let u := charge c 2 (s.setRegs c r)
  let w := u.setRegs c { u.regs c with pc := a }
  if v.bind ≠ none ∧ (a.toNat % 4 ≠ 0 ∨ inCodeWindows w v.tenant a.toNat = false) then fault c fltFetch a w else w

/-- A value limited to the range of `n` signed bits. -/
def clampTo (n : Nat) (x : Int) : Int := max (-(2 : Int) ^ (n - 1)) (min ((2 : Int) ^ (n - 1) - 1) x)

/-- The word that holds a value limited to `n` signed bits, sign-extended. -/
def satWord (n : Nat) (x : Int) : Word := BitVec.ofInt 32 (clampTo n x)

/-- A value lies outside the range of `n` signed bits. -/
def outside (n : Nat) (x : Int) : Bool := decide (clampTo n x ≠ x)

/-- Flags with Z and N of a result. -/
def znOf (fl : Flags) (x : Word) : Flags := { fl with z := decide (x = 0), n := decide (x.toInt < 0) }

/-- The low halfword as a signed value (Q15). -/
def half15 (a : Word) : Int := (a.truncate 16 : BitVec 16).toInt

/-- A step is safe when it answers a next state: the device goes on. -/
def SafeStep (s : State) : Prop := ∃ t, step s = .next t

end Sys2Proof.Machine
end

