-- ==== Sys2Proof/Certificates/Slice0/Obligations.lean ====
section
/-!
DEFINITION. Sys2Proof/Certificates/Slice0/Obligations.lean: the statements for the provers.
-/
open Sys2Proof Sys2Proof.Machine

/-! ## ALU, VEC, MEM and FLOW (chapter 2) -/

/-- Table 2.5 (R64 to R66): an ALU instruction with a defined encoding writes the result and the flags that the table
names, leaves every other register and flag, goes on to the next instruction and charges its cycles. So each of these
completes: add, sub, and, or, xor, shl, shr, sha, slt, sltu. -/
def Obligations.AluResults : Prop :=
  ∀ (c : CoreId) (v : Inv) (s s' : State) (rd ra : BitVec 4) (b : AluSrc),
    let r := s'.regs c
    let x := r.rd ra
    let y := srcS r b
    let z := srcZ r b
    let n := shiftN r b
    let sat := match b with | .reg _ m => m.getLsbD 0 | .imm _ => false
    let done (w : Word) (fl : Flags) : Host.Outcome State Fault Refusal :=
      .next (goesOn c 1 s' { (r.wr rd w) with fl := fl })
    let f : AluForm := ⟨rd, ra, b⟩
    (Begins c (.add c f) v s s' → modOk 1 b = true →
      exec (.add c f) s =
        let w := if sat then satWord 32 (x.toInt + y.toInt) else x + y
        done w { (znOf r.fl w) with c := decide (2 ^ 32 ≤ x.toNat + y.toNat), v := outside 32 (x.toInt + y.toInt), q := r.fl.q || (sat && outside 32 (x.toInt + y.toInt)) }) ∧
    (Begins c (.sub c f) v s s' → modOk 1 b = true →
      exec (.sub c f) s =
        let w := if sat then satWord 32 (x.toInt - y.toInt) else x - y
        done w { (znOf r.fl w) with c := decide (y.toNat ≤ x.toNat), v := outside 32 (x.toInt - y.toInt), q := r.fl.q || (sat && outside 32 (x.toInt - y.toInt)) }) ∧
    (Begins c (.and c f) v s s' → modOk 0 b = true → exec (.and c f) s = done (x &&& z) (znOf r.fl (x &&& z))) ∧
    (Begins c (.or c f) v s s' → modOk 0 b = true → exec (.or c f) s = done (x ||| z) (znOf r.fl (x ||| z))) ∧
    (Begins c (.xor c f) v s s' → modOk 0 b = true → exec (.xor c f) s = done (x ^^^ z) (znOf r.fl (x ^^^ z))) ∧
    (Begins c (.shl c f) v s s' → shiftOk b = true →
      exec (.shl c f) s = done (x <<< n) { (znOf r.fl (x <<< n)) with
        c := if n = 0 then r.fl.c else decide (n ≤ 32) && x.getLsbD (32 - n) }) ∧
    (Begins c (.shr c f) v s s' → shiftOk b = true →
      exec (.shr c f) s = done (x >>> n) { (znOf r.fl (x >>> n)) with
        c := if n = 0 then r.fl.c else x.getLsbD (n - 1) }) ∧
    (Begins c (.sha c f) v s s' → shiftOk b = true →
      exec (.sha c f) s = done (x.sshiftRight n) { (znOf r.fl (x.sshiftRight n)) with
        c := if n = 0 then r.fl.c else (x.sshiftRight (n - 1)).getLsbD 0 }) ∧
    (Begins c (.slt c f) v s s' → modOk 0 b = true →
      exec (.slt c f) s =
        let w : Word := if x.toInt < y.toInt then 1 else 0
        done w (znOf r.fl w)) ∧
    (Begins c (.sltu c f) v s s' → modOk 0 b = true →
      exec (.sltu c f) s =
        let w : Word := if x.toNat < z.toNat then 1 else 0
        done w (znOf r.fl w))

/-- Table 2.5 (R64, R66): the multiply group, the accumulator and the moves. Only MACQ and SAT touch ACC. So each of
these completes: mul, mulh, mulq, macq, sat, movl, movh, movs. -/
def Obligations.MultiplyAndMove : Prop :=
  ∀ (c : CoreId) (v : Inv) (s s' : State) (f : RForm) (l : LForm),
    let r := s'.regs c
    let x := r.rd f.ra
    let y := r.rd f.rb
    let mc := if s.level.cur = 3 then 2 else 1
    let q15 := f.mod.getLsbD 0
    let go (n : Nat) (u : Regs) : Host.Outcome State Fault Refusal := .next (goesOn c n s' u)
    (Begins c (.mul c f) v s s' → f.mod = 0 →
      exec (.mul c f) s = go mc { (r.wr f.rd (x * y)) with
        fl := { (znOf r.fl (x * y)) with v := outside 32 (x.toInt * y.toInt) } }) ∧
    (Begins c (.mulh c f) v s s' → f.mod = 0 →
      exec (.mulh c f) s =
        let w := BitVec.ofInt 32 ((x.toInt * y.toInt) >>> (32 : Nat))
        go mc { (r.wr f.rd w) with fl := znOf r.fl w }) ∧
    (Begins c (.mulq c f) v s s' → f.mod.toNat < 2 →
      exec (.mulq c f) s =
        let e := if q15 then (half15 x * half15 y + 2 ^ 14) >>> (15 : Nat) else (x.toInt * y.toInt + 2 ^ 30) >>> (31 : Nat)
        let w := satWord (if q15 then 16 else 32) e
        go mc { (r.wr f.rd w) with
          fl := { (znOf r.fl w) with q := r.fl.q || outside (if q15 then 16 else 32) e } }) ∧
    (Begins c (.macq c f) v s s' → f.mod.toNat < 8 → f.rd = 0 →
      exec (.macq c f) s =
        let p := if q15 then half15 x * half15 y * 2 ^ 32 else x.toInt * y.toInt
        let e := (if f.mod.getLsbD 1 then 0 else r.acc.toInt) + (if f.mod.getLsbD 2 then -p else p)
        go mc { r with acc := BitVec.ofInt 72 (clampTo 72 e), fl := { r.fl with q := r.fl.q || outside 72 e } }) ∧
    (Begins c (.sat c f) v s s' → f.mod.toNat < 4 → f.ra = 0 → f.rb = 0 →
      exec (.sat c f) s =
        let e := if q15 then (r.acc.toInt + 2 ^ 46) >>> (47 : Nat) else (r.acc.toInt + 2 ^ 30) >>> (31 : Nat)
        let w := satWord (if q15 then 16 else 32) e
        go 1 { (r.wr f.rd w) with
          acc := if f.mod.getLsbD 1 then 0 else r.acc
          fl := { (znOf r.fl w) with q := r.fl.q || outside (if q15 then 16 else 32) e } }) ∧
    (Begins c (.movl c l) v s s' → l.zero = 0 → exec (.movl c l) s = go 1 (r.wr l.rd (0#16 ++ l.imm16))) ∧
    (Begins c (.movh c l) v s s' → l.zero = 0 →
      exec (.movh c l) s = go 1 (r.wr l.rd (l.imm16 ++ (r.rd l.rd).extractLsb' 0 16))) ∧
    (Begins c (.movs c l) v s s' → l.zero = 0 →
      exec (.movs c l) s = go 1 (r.wr l.rd (BitVec.ofInt 32 l.imm16.toInt)))

/-- Table 2.6 (R67): the vector instructions, VNORM apart. So each of these completes: vadd, vsub, vmul, vdot, vcross,
vins, vext. -/
def Obligations.VectorResults : Prop :=
  ∀ (c : CoreId) (v : Inv) (s s' : State) (f : RForm),
    let r := s'.regs c
    let a := r.rv f.ra
    let b := r.rv f.rb
    let at_ (l0 l1 l2 l3 : Nat) : Nat :=
      if s.level.cur = 0 then l0 else if s.level.cur = 1 then l1 else if s.level.cur = 2 then l2 else l3
    let go (n : Nat) (u : Regs) : Host.Outcome State Fault Refusal := .next (goesOn c n s' u)
    let lanes (n : Nat) (g : Word → Word → Int) (k : Nat) : Host.Outcome State Fault Refusal :=
      let w : XYZ := ⟨satWord n (g a.x b.x), satWord n (g a.y b.y), satWord n (g a.z b.z)⟩
      go k { (r.wv f.rd w) with
        fl := { r.fl with
          z := decide (w = ⟨0, 0, 0⟩)
          q := r.fl.q || (outside n (g a.x b.x) || outside n (g a.y b.y) || outside n (g a.z b.z)) } }
    let q15 := f.mod.getLsbD 0
    let vd := isVec f.rd = true
    let va := isVec f.ra = true
    let vb := isVec f.rb = true
    (Begins c (.vadd c f) v s s' → f.mod = 0 → vd → va → vb →
      exec (.vadd c f) s = lanes 32 (fun p q => p.toInt + q.toInt) 1) ∧
    (Begins c (.vsub c f) v s s' → f.mod = 1 → vd → va → vb →
      exec (.vsub c f) s = lanes 32 (fun p q => p.toInt - q.toInt) 1) ∧
    (Begins c (.vmul c f) v s s' → f.mod.toNat < 2 → vd → va → vb →
      exec (.vmul c f) s = lanes (if q15 then 16 else 32)
        (fun p q => if q15 then (half15 p * half15 q + 2 ^ 14) >>> (15 : Nat) else (p.toInt * q.toInt + 2 ^ 30) >>> (31 : Nat))
        (at_ 2 2 2 3)) ∧
    (Begins c (.vdot c f) v s s' → f.mod = 0 → va → vb →
      exec (.vdot c f) s =
        let e := (a.x.toInt * b.x.toInt + a.y.toInt * b.y.toInt + a.z.toInt * b.z.toInt + 2 ^ 30) >>> (31 : Nat)
        go (at_ 2 2 2 3) { (r.wr f.rd (satWord 32 e)) with
          fl := { (znOf r.fl (satWord 32 e)) with q := r.fl.q || outside 32 e } }) ∧
    (Begins c (.vcross c f) v s s' → f.mod = 0 → vd → va → vb →
      exec (.vcross c f) s =
        let d (p q p' q' : Word) : Int := (p.toInt * q.toInt - p'.toInt * q'.toInt + 2 ^ 30) >>> (31 : Nat)
        let x := d a.y b.z a.z b.y
        let y := d a.z b.x a.x b.z
        let z := d a.x b.y a.y b.x
        let w : XYZ := ⟨satWord 32 x, satWord 32 y, satWord 32 z⟩
        go (at_ 2 2 3 3) { (r.wv f.rd w) with
          fl := { r.fl with
            z := decide (w = ⟨0, 0, 0⟩)
            q := r.fl.q || (outside 32 x || outside 32 y || outside 32 z) } }) ∧
    (Begins c (.vins c f) v s s' → f.mod.toNat < 3 → vd → f.rb = 0 →
      exec (.vins c f) s =
        let o := r.rv f.rd
        go 1 (r.wv f.rd ⟨if f.mod.toNat = 0 then r.rd f.ra else o.x, if f.mod.toNat = 1 then r.rd f.ra else o.y,
          if f.mod.toNat = 2 then r.rd f.ra else o.z⟩)) ∧
    (Begins c (.vext c f) v s s' → f.mod.toNat < 3 → va → f.rb = 0 →
      exec (.vext c f) s =
        let w := if f.mod.toNat = 0 then a.x else if f.mod.toNat = 1 then a.y else a.z
        go 1 { (r.wr f.rd w) with fl := znOf r.fl w })

/-- R68: VNORM completes; the zero vector gives the zero vector and Z; every lane of any other result lies within 4 LSB
of the exact quotient in Q31, and a lane that is exactly +1.0 gives 0x7FFF_FFFF and sets Q. The lane values are
otherwise free (log entry 8): they come from the free values that the counter `free` reaches. So each of these
completes: vnorm. -/
def Obligations.VnormWithinFourLsb : Prop :=
  ∀ (c : CoreId) (v : Inv) (s s' : State) (f : RForm),
    Begins c (.vnorm c f) v { s with free := s.free + 3 } s' →
    f.mod = 0 → isVec f.rd = true → isVec f.ra = true → f.rb = 0 →
    let r := s'.regs c
    let a := r.rv f.ra
    let n : Int := a.x.toInt ^ 2 + a.y.toInt ^ 2 + a.z.toInt ^ 2
    let cyc := if s.level.cur = 2 then 10 else if s.level.cur = 3 then 12 else 8
    ∃ (w : XYZ) (q : Bool),
      exec (.vnorm c f) s = .next (goesOn c cyc s' { (r.wv f.rd w) with
        fl := { r.fl with z := decide (a = ⟨0, 0, 0⟩), q := r.fl.q || q } }) ∧
      (a = ⟨0, 0, 0⟩ → w = ⟨0, 0, 0⟩ ∧ q = false) ∧
      (a ≠ ⟨0, 0, 0⟩ → ∀ p ∈ [(a.x, w.x), (a.y, w.y), (a.z, w.z)],
        abs ((p.2.toInt : ℝ) - (p.1.toInt : ℝ) * 2 ^ 31 / Real.sqrt n) ≤ 4 ∧
        (0 < p.1.toInt ∧ p.1.toInt ^ 2 = n → p.2 = 0x7FFFFFFF ∧ q = true))

/-- Tables 2.7 and 1.4 (R25, R26, R69, R70): what a load that passes its checks delivers, region by region. A double-bit
error delivers the raw word, sets P and retires with ST_ECC; every other load clears P and retires with ST_OK. A read
finds what was there when the clock began, and so does a read of a window (R528). A flash line that an operation keeps
busy is waited for (R456). Waits of the access's own bank are the cycles of `retireUsing` (R24). So each of these
completes: ldw, ldv. -/
def Obligations.LoadsDeliver : Prop :=
  ∀ (c : CoreId) (v : Inv) (s s' : State) (f : IForm),
    let ea := ((s'.regs c).rd f.ra + BitVec.ofInt 32 f.imm14.toInt)
    let a := ea.toNat
    let t := v.tenant
    let l := s'.level.cur.toNat
    let line := lineSpan (a - 0x08000000) 4
    let one (w : Word) (dbl : Bool) (n : Nat) (u : State) : Host.Outcome State Fault Refusal :=
      .next (retireUsing c v (sramBank a) s (if dbl then 0x18 else 0x00)
        (fun r => { (r.wr f.rd w) with fl := { r.fl with p := dbl } }) n u)
    let three (n : Nat) (u : State) : Host.Outcome State Fault Refusal :=
      .next (retireUsing c v (sramBank a ++ sramBank (a + 4) ++ sramBank (a + 8)) s 0x00
        (fun r => { (r.wv f.rd ⟨wordSeen s' a, wordSeen s' (a + 4), wordSeen s' (a + 8)⟩) with
          fl := { r.fl with p := false } }) n u)
    (Begins c (.ldw c f) v s s' → a % 4 = 0 →
      ((regionOf a = .code ∧ inCodeSram s' t a 4 = true) ∨ (regionOf a = .data ∧ inData s' t a 4 = true)) →
      exec (.ldw c f) s =
        match eccSeen s' a with
        | none => one (wordSeen s' a) false 1 s'
        | some e => one (if e.dbl then wordSeen s' a ^^^ e.flips else wordSeen s' a) e.dbl 1 (countEcc a e s')) ∧
    (Begins c (.ldw c f) v s s' → a % 4 = 0 → regionOf a = .flash → inXip s' t a 4 = true →
      sealedMay t (a - 0x08000000) = true → s'.hasFailed .flash = false → waitsFor .flash s' = none →
      exec (.ldw c f) s =
        if flashServed line.1 line.2 s' then
          one (memWord s'.mem a) false ([1, 4, 10, 20].getD l 1)
            (flashRead (a - 0x08000000) (fillClks s'.level.cur) s')
        else .next (stallRead c (.ldw c f) false line.1 line.2 s')) ∧
    (Begins c (.ldw c f) v s s' → a % 4 = 0 → regionOf a = .comb → combMay s' t a = true →
      s'.hasFailed .comb = false → waitsFor .comb s' = none → (∀ e ∈ s'.ecc, e.addr ≠ a) →
      exec (.ldw c f) s = one (memWord s'.mem a) false ([2, 2, 2, 3].getD l 1)
        { s'.combTaken with sleep := { s'.sleep with combUse := s'.time.phys } }) ∧
    (∀ w, Begins c (.ldw c f) v s s' → a % 4 = 0 → regionOf a = .window → winAt a = some w →
      winMay s' t w (a % 4096) = true → exec (.ldw c f) s = one (winWord s'.atStart w (a % 4096)) false 2 s') ∧
    (Begins c (.ldw c f) v s s' → a % 4 = 0 → regionOf a = .aonWin →
      exec (.ldw c f) s = one (aonWindow s'.atStart (a - 0x50000000)) false 2 s') ∧
    (Begins c (.ldv c f) v s s' → isVec f.rd = true → a % 4 = 0 → CleanAt s' a 3 →
      ((regionOf a = .code ∧ inCodeSram s' t a 12 = true) ∨ (regionOf a = .data ∧ inData s' t a 12 = true)) →
      spanIn 0x20000000 0x00080000 a 12 || spanIn 0x20100000 0x00100000 a 12 →
      exec (.ldv c f) s = three 2 s')

/-- R22, R25, R69, R70: STW and STV write their words, lowest address first, to data SRAM alone, and nothing else of
memory; in their own clock every read still finds what they replace. A store of a host packet meets ST_BUSY from the
doorbell to the attempt's end (R151), and an attempt whose end still waits in this clock has ended before it (section
4.10, Edges). Whatever a store answers, every byte outside the stored words reads as before. So each of these completes:
stw, stv. -/
def Obligations.StoresWriteTheirBytes : Prop :=
  (∀ (c : CoreId) (v : Inv) (s s' : State) (f : IForm),
      let ea := ((s'.regs c).rd f.ra + BitVec.ofInt 32 f.imm14.toInt)
      let a := ea.toNat
      let t := v.tenant
      let x := (s'.regs c).rv f.rd
      let w := wordBytes ((s'.regs c).rd f.rd)
      let u := if v.bind = none then ownFirst attemptEnds s' else s'
      let free := v.bind = none → hostStoreBusy u = false
      (Begins c (.stw c f) v s s' → a % 4 = 0 → regionOf a = .data → inData s' t a 4 = true → free → a ≠ 0x201FFFFC →
        exec (.stw c f) s = .next (retireUsing c v (sramBank a) s 0x00 id 1 (u.store a w))) ∧
      (Begins c (.stv c f) v s s' → isVec f.rd = true → a % 4 = 0 → inData s' t a 12 = true →
        spanIn 0x20100000 0x00100000 a 12 → free → a ≠ 0x201FFFF4 →
        exec (.stv c f) s = .next (retireUsing c v (sramBank a ++ sramBank (a + 4) ++ sramBank (a + 8)) s 0x00 id 2
          (u.store a (wordBytes x.x ++ wordBytes x.y ++ wordBytes x.z)))) ∧
      (Begins c (.stw c f) v s s' → a = 0x201FFFFC → inData s' t a 4 = true → free →
        exec (.stw c f) s = .next (retireUsing c v (sramBank a) s 0x00 id 1 (ringDoorbell (u.store a w)))) ∧
      (Begins c (.stw c f) v s s' → a % 4 = 0 → regionOf a = .data → inData s' t a 4 = true → v.bind = none →
        hostStoreBusy u = true → exec (.stw c f) s = .next (retire c t 0x13 id 1 u))) ∧
  (∀ (c : CoreId) (v : Inv) (s s' t : State) (f : IForm) (b : Nat),
      let a := ((s'.regs c).rd f.ra + BitVec.ofInt 32 f.imm14.toInt).toNat
      let quiet := v.bind = none → Instr.loadCleanupEnd ∉ s.pending
      (Begins c (.stw c f) v s s' → quiet → exec (.stw c f) s = .next t → ¬ (a ≤ b ∧ b < a + 4) →
        memGet t.mem b = memGet s.mem b) ∧
      (Begins c (.stv c f) v s s' → quiet → exec (.stv c f) s = .next t → ¬ (a ≤ b ∧ b < a + 12) →
        memGet t.mem b = memGet s.mem b))

/-- R27, R69, R70: orders 2 and 3 of the MEM instructions: nothing is loaded or stored, and the refusal takes the code
and data SRAM count. An address that no region holds, a store outside data SRAM and a misaligned address are ST_RANGE;
an address outside the tenant's windows is ST_CAP. R54 to R57: a fetched word that no row of Tables 2.5 to 2.12 reads,
and an ALU, VEC or FLOW encoding with a nonzero unused bit or a vector field of 8 to 15, raises FLT_OPCODE at its own
address and changes nothing else. So each of these completes: undefinedInstruction. -/
def Obligations.RefusalsAndUndefinedWords : Prop :=
  (∀ (c : CoreId) (v : Inv) (s s' : State) (f : IForm),
      let ea := ((s'.regs c).rd f.ra + BitVec.ofInt 32 f.imm14.toInt)
      let a := ea.toNat
      let t := v.tenant
      let refused (st : BitVec 8) (n : Nat) : Host.Outcome State Fault Refusal := .next (retire c t st id n s')
      let reg := regionOf a
      (Begins c (.ldw c f) v s s' → (a % 4 ≠ 0 ∨ reg = .rom ∨ reg = .none ∨ (reg = .window ∧ winAt a = none)) →
        exec (.ldw c f) s = refused 0x16 1) ∧
      (Begins c (.stw c f) v s s' → (a % 4 ≠ 0 ∨ reg ≠ .data) → exec (.stw c f) s = refused 0x16 1) ∧
      (Begins c (.ldw c f) v s s' → a % 4 = 0 → (reg = .code ∧ inCodeSram s' t a 4 = false ∨ reg = .data ∧ inData s' t a 4 = false) →
        exec (.ldw c f) s = refused 0x11 1) ∧
      (Begins c (.stw c f) v s s' → a % 4 = 0 → reg = .data → inData s' t a 4 = false →
        exec (.stw c f) s = refused 0x11 1) ∧
      (Begins c (.ldv c f) v s s' → isVec f.rd = true →
        (a % 4 ≠ 0 ∨ reg = .rom ∨ reg = .none ∨ regionOf (ea + 8).toNat = .none ∨ regionOf (ea + 8).toNat = .rom) →
        exec (.ldv c f) s = refused 0x16 2) ∧
      (Begins c (.stv c f) v s s' → isVec f.rd = true →
        (a % 4 ≠ 0 ∨ reg ≠ .data ∨ regionOf (ea + 4).toNat ≠ .data ∨ regionOf (ea + 8).toNat ≠ .data) →
        exec (.stv c f) s = refused 0x16 2) ∧
      (Begins c (.stv c f) v s s' → isVec f.rd = true → a % 4 = 0 → spanIn 0x20100000 0x00100000 a 12 →
        inData s' t a 12 = false → exec (.stv c f) s = refused 0x11 2)) ∧
  (∀ (c : CoreId) (v : Inv) (s s' : State) (w : Word) (f : AluForm) (g : RForm) (b : BForm),
      let flt : Host.Outcome State Fault Refusal := .next (fault c 1 (s'.regs c).pc s')
      (Begins c (.undefinedInstruction c w) v s s' → decodeCore c w = none →
        exec (.undefinedInstruction c w) s = flt) ∧
      (Begins c (.add c f) v s s' → modOk 1 f.b = false → exec (.add c f) s = flt) ∧
      (Begins c (.shl c f) v s s' → shiftOk f.b = false → exec (.shl c f) s = flt) ∧
      (Begins c (.mul c g) v s s' → g.mod ≠ 0 → exec (.mul c g) s = flt) ∧
      (Begins c (.macq c g) v s s' → g.rd ≠ 0 → exec (.macq c g) s = flt) ∧
      (Begins c (.vdot c g) v s s' → 8 ≤ g.ra.toNat → exec (.vdot c g) s = flt) ∧
      (Begins c (.vins c g) v s s' → g.mod = 3 → exec (.vins c g) s = flt) ∧
      (Begins c (.bra c b) v s s' → b.ra ≠ 0 → exec (.bra c b) s = flt) ∧
      (Begins c (.nop c g) v s s' → g.mod ≠ 0 → exec (.nop c g) s = flt))

/-- R71, R72: branches and jumps. A branch taken costs two cycles and goes to its target, one not taken costs one and
goes on; neither writes a register or a flag. The branch displacement is in words. So each of these completes: bra, bz,
bnz, bzSt, bnzSt, braReg, nop. -/
def Obligations.BranchesGo : Prop :=
  ∀ (c : CoreId) (v : Inv) (s s' : State) (f : BForm) (g : RForm),
    let r := s'.regs c
    let target := BitVec.ofInt 32 (r.pc.toInt + 4 * f.off18.toInt)
    let taken : Host.Outcome State Fault Refusal := .next (jumpsTo c v target s' r)
    let on : Host.Outcome State Fault Refusal := .next (goesOn c 1 s' r)
    (Begins c (.bra c f) v s s' → f.ra = 0 → exec (.bra c f) s = taken) ∧
    (Begins c (.bz c f) v s s' → exec (.bz c f) s = if r.rd f.ra = 0 then taken else on) ∧
    (Begins c (.bnz c f) v s s' → exec (.bnz c f) s = if r.rd f.ra = 0 then on else taken) ∧
    (Begins c (.bzSt c f) v s s' → f.ra = 0 → exec (.bzSt c f) s = if r.fl.stat = 0 then taken else on) ∧
    (Begins c (.bnzSt c f) v s s' → f.ra = 0 → exec (.bnzSt c f) s = if r.fl.stat = 0 then on else taken) ∧
    (Begins c (.braReg c g) v s s' → g.mod = 0 → g.rd = 0 → g.rb = 0 →
      exec (.braReg c g) s = .next (jumpsTo c v (r.rd g.ra) s' r)) ∧
    (Begins c (.nop c g) v s s' → g = ⟨0, 0, 0, 0⟩ → exec (.nop c g) s = on)

/-- R73: CALL pushes the address of the next instruction and RET pops it; the ninth nested CALL and a RET with an empty
stack raise FLT_STACK at their own address. So each of these completes: call, callReg, ret. -/
def Obligations.CallsAndReturns : Prop :=
  ∀ (c : CoreId) (v : Inv) (s s' : State) (f : BForm) (g : RForm),
    let r := s'.regs c
    let target := BitVec.ofInt 32 (r.pc.toInt + 4 * f.off18.toInt)
    let pushed := { r with stack := (r.pc + 4) :: r.stack }
    (Begins c (.call c f) v s s' → f.ra = 0 →
      exec (.call c f) s = .next (if r.stack.length < 8 then jumpsTo c v target s' pushed else fault c 5 r.pc s')) ∧
    (Begins c (.callReg c g) v s s' → g.mod = 0 → g.rd = 0 → g.rb = 0 →
      exec (.callReg c g) s =
        .next (if r.stack.length < 8 then jumpsTo c v (r.rd g.ra) s' pushed else fault c 5 r.pc s')) ∧
    (∀ (a : Word) (rest : List Word), Begins c (.ret c g) v s s' → g = ⟨0, 0, 0, 0⟩ → r.stack = a :: rest →
      exec (.ret c g) s = .next (jumpsTo c v a s' { r with stack := rest })) ∧
    (Begins c (.ret c g) v s s' → g = ⟨0, 0, 0, 0⟩ → r.stack = [] →
      exec (.ret c g) s = .next (fault c 5 r.pc s'))

/-- R50: a fault ends the invocation and frees the core, writes the tenant's fault record, counts it, and counts it in
the binding, which is held at the eighth in a row with its pending events moved into OVR (R51); nothing else changes.
The effect of a word that is no instruction is that fault, with FLT_OPCODE (1) at the word's address (R54). So each of
these completes: undefinedInstruction. -/
def Obligations.FaultEnds : Prop :=
  (∀ (c : CoreId) (v : Inv) (s s' : State) (w : Word), Begins c (.undefinedInstruction c w) v s s' →
    decodeCore c w = none → ∃ t, exec (.undefinedInstruction c w) s = .next t ∧ t = fault c 1 (s'.regs c).pc s' ∧
      (t.core c).inv = none ∧ (t.tenant v.tenant).fcode.toNat = 1 ∧ (t.tenant v.tenant).faddr = (s'.regs c).pc) ∧
  ∀ (c : CoreId) (s : State) (v : Inv) (code : Nat) (a : Word), (s.core c).inv = some v → code < 16 →
    let t := fault c code a s
    (t.core c).inv = none ∧ (t.core c).stall = none ∧
    (t.tenant v.tenant).fcode.toNat = code ∧ (t.tenant v.tenant).faddr = a ∧
    (t.tenant v.tenant).ftime = BitVec.ofNat 32 s.time.hive ∧
    (t.tenant v.tenant).nfault.toNat = min 0xFFFF ((s.tenant v.tenant).nfault.toNat + 1) ∧
    (∀ k, v.bind = some k → (t.tenant v.tenant).fbind.toNat = k.val ∧
      ∀ b, vget s.bindings k = some b → b.serial = v.serial →
        vget t.bindings k = some (
          if b.frun + 1 < 8 then { b with frun := b.frun + 1 }
          else { b with frun := 8, held := true, ovr := BitVec.ofNat 8 (min 255 (b.ovr.toNat + b.pend.length)), pend := [] })) ∧
    (∀ d, d ≠ c → t.core d = s.core d) ∧ (∀ u, u ≠ v.tenant → t.tenant u = s.tenant u) ∧
    t.mem = s.mem ∧ t.time = s.time ∧ t.queues = s.queues ∧ t.ctx = s.ctx

/-! ## EVENT, TIME and SYSTEM (chapters 2, 3, 5 and 6) -/

/-- Table 2.8 (R37, R42, R44, R51, R75 to R78): the EVENT instructions. BIND takes the lowest free binding; WAIT and
YIELD save the invocation in the lowest free entry of the context store and free the core; EXIT sets FRUN to 0 and frees
it. So each of these completes: bind, unbind, wait, yield, raise, exit. -/
def Obligations.EventInstructions : Prop :=
  ∀ (c : CoreId) (v : Inv) (s s' : State) (f : RForm) (k : Nat),
    let r := s'.regs c
    let t := v.tenant
    let a := (r.rd f.ra).toNat
    let b0 := wordSeen s' a
    let b1 := wordSeen s' (a + 4)
    let b2 := wordSeen s' (a + 8)
    let blk : BindBlock := ⟨b0, b1, b2⟩
    (Begins c (.bind c f) v s s' → f.mod = 0 → f.rb = 0 → blockOk t a 3 = true → blockMay s' t a 3 = true →
      CleanAt s' a 3 → blk.rangeOk = true → blk.capOk s' t = true → freeBinding s' = some k →
      exec (.bind c f) s = .next (retireUsing c v (sramBank (a + 8)) s 0x00 (fun r => r.wr f.rd (BitVec.ofNat 32 k))
        (s'.base + 3)
        { s' with
          bindings := vsetD s'.bindings k (some
            { src := b0.truncate 8, tenant := blk.tenant, prio := b0.extractLsb' 13 3, coreSel := b0.extractLsb' 16 3
              held := false, handler := b1, budget := b2.truncate 16, pend := [], frun := 0, ovr := 0
              serial := s'.bindSerial })
          bindSerial := s'.bindSerial + 1 })) ∧
    (∀ b, Begins c (.unbind c f) v s s' → f.mod = 0 → f.rd = 0 → f.rb = 0 → a < 256 → vgetD s'.bindings a none = some b →
      (b.tenant = t ∨ t = 0) →
      exec (.unbind c f) s = .next (retire c t 0x00 id s'.base { s' with bindings := vsetD s'.bindings a none })) ∧
    (Begins c (.unbind c f) v s s' → f.mod = 0 → f.rd = 0 → f.rb = 0 → a < 256 → vgetD s'.bindings a none = none →
      exec (.unbind c f) s = .next (retire c t 0x10 id s'.base s')) ∧
    (Begins c (.wait c f) v s s' → f.mod = 0 → a < 256 → srcDefined a = true → mayReceive s' t a = true →
      freeCtx s' = some k →
      exec (.wait c f) s = .next (saveCtx c k
        (.waiting (BitVec.ofNat 8 a) (if r.rd f.rb = 0 then none else some (s'.time.hive + (r.rd f.rb).toNat)) (regIx f.rd)
          false)
        (retire c t 0x00 id 4 s'))) ∧
    (Begins c (.wait c f) v s s' → f.mod = 0 → a < 256 → srcDefined a = true → mayReceive s' t a = true →
      freeCtx s' = none → exec (.wait c f) s = .next (retire c t 0x13 id 4 s')) ∧
    (Begins c (.yield c f) v s s' → f = ⟨0, 0, 0, 0⟩ → freeCtx s' = some k →
      exec (.yield c f) s = .next (saveCtx c k .ready (retire c t 0x00 id 4 s'))) ∧
    (Begins c (.yield c f) v s s' → f = ⟨0, 0, 0, 0⟩ → freeCtx s' = none →
      exec (.yield c f) s = .next (retire c t 0x13 id 4 s')) ∧
    (Begins c (.raise c f) v s s' → f.mod = 0 → f.rd = 0 → a < 256 → srcDefined a = true → mayRaise s' t a = true →
      exec (.raise c f) s = .next (retire c t 0x00 id s'.base (s'.event a (r.rd f.rb) s'.time.hive true))) ∧
    (Begins c (.exit c f) v s s' → f = ⟨0, 0, 0, 0⟩ →
      exec (.exit c f) s = .next (exitInv c (retire c t 0x00 id 1 s')))

/-- R38, R43, R77: what an event on a source does at the end of the clock in which it is raised, after the bindings of
that clock have changed (section 1.8, Edges). Of all the events of a clock, a binding that is not held stores those on
its source in their order while PEND is below 4 and counts the others on its source in OVR; for one event alone, every
other binding stays as it is, a waiting invocation is released with the argument in its destination register and ST_OK,
also where its timeout expires in the same clock (R77), and a WAIT that has expired and that no event releases goes on
with ST_TIMEOUT. -/
def Obligations.EventOffered : Prop :=
  (∀ (s : State) (src : Nat) (arg : Word) (time : Nat) (raised : Bool),
    s.event src arg time raised = { s with raised := s.raised ++ [⟨src, arg, time, raised, s.time.clk⟩] }) ∧
  (∀ (s : State) (k : Fin 256) (b : Binding), (∀ e ∈ s.raised, e.src < 256) → (∀ n, (vget s.timers n).due = none) →
    vget s.bindings k = some b → b.held = false → b.pend.length ≤ 4 →
    let mine := s.raised.filter (fun e => decide (e.src = b.src.toNat))
    vget (endEvents s).bindings k = some { b with
      pend := (b.pend ++ mine.map Raised.ev).take 4
      ovr := BitVec.ofNat 8 (min 255 (b.ovr.toNat + (b.pend.length + mine.length - 4))) }) ∧
  ∀ (s : State) (e : Raised), e.src < 256 → s.raised = [e] → (∀ n, (vget s.timers n).due = none) →
    let t := endEvents s
    (∀ (k : Fin 256) (b : Binding), vget s.bindings k = some b → b.src.toNat = e.src → b.held = false →
      vget t.bindings k = some (if b.pend.length < 4 then { b with pend := b.pend ++ [e.ev] }
        else { b with ovr := BitVec.ofNat 8 (min 255 (b.ovr.toNat + 1)) })) ∧
    (∀ (k : Fin 256), (∀ b, vget s.bindings k = some b → b.src.toNat ≠ e.src ∨ b.held = true) →
      vget t.bindings k = vget s.bindings k) ∧
    (∀ (k : Fin 16) (sv : Saved) (w : BitVec 8) (dl : Option Nat) (rd : Fin 16) (x : Bool), vget s.ctx k = some sv →
      sv.kind = .waiting w dl rd x → w.toNat = e.src →
      ∃ sv', vget t.ctx k = some sv' ∧ sv'.kind = .ready ∧ sv'.since = e.ev.clk ∧ sv'.inv = sv.inv ∧ sv'.order = sv.order ∧
        vget sv'.regs.w rd = e.ev.arg ∧ sv'.regs.fl.stat = 0x00 ∧
        (∀ j, j ≠ rd → vget sv'.regs.w j = vget sv.regs.w j) ∧ sv'.regs.v = sv.regs.v ∧ sv'.regs.acc = sv.regs.acc) ∧
    (∀ (k : Fin 16) (sv : Saved) (w : BitVec 8) (dl : Option Nat) (rd : Fin 16) (x : Bool), vget s.ctx k = some sv →
      sv.kind = .waiting w dl rd x → w.toNat ≠ e.src →
      vget t.ctx k = some (if x then { sv with
          kind := .ready, since := s.time.clk, regs := { sv.regs with fl := sv.regs.fl.setStat 0x19 } } else sv)) ∧
    t.raised = [] ∧ t.cores = s.cores ∧ t.mem = s.mem ∧ t.time = s.time ∧ t.tenants = s.tenants ∧ t.timers = s.timers

/-- R79 to R81: TIME and the ALARMs. TIME latches the high word for TIME.H; an ALARM replaces its timer's setting, with
an expiry of the same clock, and withdraws the compare that a sleep entry in progress carries for it (R201). So each of
these completes: time, timeH, alarmAt, alarmEvery, alarmOff. -/
def Obligations.TimeInstructions : Prop :=
  ∀ (c : CoreId) (v : Inv) (s s' : State) (f : RForm),
    let r := s'.regs c
    let t := v.tenant
    let n : Fin 8 := ⟨f.mod.toNat % 8, Nat.mod_lt _ (by decide)⟩
    let held := s'.may t (capTimer n.val) = true
    let kept := withdrawCmp n s'
    let set (x : Timer) : Host.Outcome State Fault Refusal :=
      .next (retire c t 0x00 id s'.base { kept with timers := vset s'.timers n x })
    let armed (k : TimerKind) : Timer := { kind := k, owner := t, count := 0, since := s'.time.clk, passed := none, due := none }
    (Begins c (.time c f) v s s' → f.mod = 0 → f.ra = 0 → f.rb = 0 →
      exec (.time c f) s = .next (retire c t 0x00
        (fun r => { (r.wr f.rd (BitVec.ofNat 32 s'.time.hive)) with latch := BitVec.ofNat 32 (s'.time.hive / 2 ^ 32) }) 1 s')) ∧
    (Begins c (.timeH c f) v s s' → f.mod = 1 → f.ra = 0 → f.rb = 0 →
      exec (.timeH c f) s = .next (retire c t 0x00 (fun q => q.wr f.rd r.latch) 1 s')) ∧
    (Begins c (.alarmAt c f) v s s' → f.mod.toNat < 16 → f.rd = 0 → held → (f.mod.getLsbD 3 = true → t = 0) →
      exec (.alarmAt c f) s =
        set (armed (.at ((r.rd f.ra).toNat + (r.rd f.rb).toNat * 2 ^ 32) (f.mod.getLsbD 3)))) ∧
    (Begins c (.alarmEvery c f) v s s' → f.mod.toNat < 8 → f.rd = 0 → f.rb = 0 → held →
      exec (.alarmEvery c f) s =
        if (r.rd f.ra).toNat < 192 then .next (retire c t 0x16 id s'.base s')
        else set (armed (.every (r.rd f.ra).toNat (s'.time.hive + (r.rd f.ra).toNat)))) ∧
    (Begins c (.alarmOff c f) v s s' → f.mod.toNat < 8 → f.rd = 0 → f.ra = 0 → f.rb = 0 → held →
      exec (.alarmOff c f) s = set Timer.off)

/-- Table 2.10 (R84, R86, R87, R171, R202, R215, R422): the SYSTEM instructions but GRANT, SPOOL and REVOKE. LEVEL to
the level in force changes nothing, one in progress is ST_BUSY, one above MAXL is ST_RANGE and one above THLIM is
ST_THERM, each after what the device does by itself in that clock (section 5.6, Edges); an entered SLEEP does not retire
and pauses its core; HOLDREL releases its group in the clock after; FLAGS copies FL as it stood. So each of these
completes: level, sleep, vote, holdrel, inval, flags. -/
def Obligations.SystemInstructions : Prop :=
  ∀ (c : CoreId) (v : Inv) (s s' : State) (f : RForm),
    let r := s'.regs c
    let t := v.tenant
    let m := f.mod.toNat
    let ret (st : BitVec 8) (u : State) : Host.Outcome State Fault Refusal := .next (retire c t st id s'.base u)
    (Begins c (.level c f) v s s' → m < 4 → f.rd = 0 → f.ra = 0 → f.rb = 0 → s'.may t capLevel = true →
      let u := ownFirst levelFirst s'
      exec (.level c f) s =
        if u.level.change.isSome then ret 0x13 u
        else if m = u.level.cur.toNat then ret 0x00 u
        else if u.level.maxl.toNat < m then ret 0x16 u
        else if u.level.thlim.toNat < m then ret 0x1C u
        else ret 0x01 (startChange (BitVec.ofNat 2 m) false u)) ∧
    (Begins c (.sleep c f) v s s' → m < 2 → f.rd = 0 → f.ra = 0 → f.rb = 0 → s'.may t capSleep = true →
      s'.sleep.entry = none → refusers s' = [] →
      exec (.sleep c f) s =
        let (a, u) := armedSet (decide (m = 1)) s'
        if a.mask = 0 then ret 0x10 u else .next (startEntry c t (decide (m = 1)) a u)) ∧
    (Begins c (.sleep c f) v s s' → m < 2 → f.rd = 0 → f.ra = 0 → f.rb = 0 → s'.may t capSleep = true →
      s'.sleep.entry = none → refusers s' ≠ [] →
      exec (.sleep c f) s = ret 0x10 (recordRefusers (refusers s') s')) ∧
    (Begins c (.vote c f) v s s' → m < 2 → f.rd = 0 → f.ra = 0 → f.rb = 0 → s'.may t capVote = true →
      exec (.vote c f) s = ret 0x00 (s'.setTenant t { s'.tenant t with vote := decide (m = 1) })) ∧
    (Begins c (.holdrel c f) v s s' → m < 11 → f.rd = 0 → f.ra = 0 → f.rb = 0 → t = 0 →
      exec (.holdrel c f) s = ret 0x00 { s' with later := s'.later ++ [.holdrel m] }) ∧
    (doLater s (.holdrel m) = { s with sleep := { s.sleep with
        holds := s.sleep.holds &&& ~~~(BitVec.twoPow 11 m)
        latches := s.sleep.latches.filter (fun l => l.group != m) } }) ∧
    (Begins c (.inval c f) v s s' → f.mod = 0 → f.rd = 0 → f.rb = 0 → t = 0 →
      let d := (r.rd f.ra).toNat % 128
      exec (.inval c f) s = ret 0x00 { s' with hive := { s'.hive with
        cache := vmap (fun l => { l with
          valid := l.valid && decide (d ≠ 127 ∧ l.dest.toNat ≠ d) }) s'.hive.cache } }) ∧
    (Begins c (.flags c f) v s s' → f.mod = 0 → f.ra = 0 → f.rb = 0 →
      exec (.flags c f) s = .next (retire c t 0x00 (fun q => q.wr f.rd r.fl.toWord) 1 s'))

/-- R100 to R104, R114 to R117, R124: the tenant instructions. GRANT installs the record of a VACANT or GRANTED tenant;
SPOOL that passes Table 3.6 starts the loader, makes the tenant LOADING and answers C with ST_PENDING; REVOKE of a
tenant that is not LOADING leaves it VACANT with nothing of its rights, its record gone in the clock after (R124, R125),
and of one that is LOADING stops its loader (R127). So each of these completes: grant, spool, revoke. -/
def Obligations.TenantInstructions : Prop :=
  ∀ (c : CoreId) (v : Inv) (s s' : State) (f : RForm),
    let r := s'.regs c
    let a := (r.rd f.ra).toNat
    let k : Tid := ⟨f.mod.toNat % 32, Nat.mod_lt _ (by decide)⟩
    let named := 0 < f.mod.toNat ∧ f.mod.toNat < 32
    let ws := wordsAt s' a 24
    let flash := inSpan 0x08000000 0x00800000 a = true
    (Begins c (.grant c f) v s s' → named → f.rd = 0 → f.rb = 0 → v.tenant = 0 → blockOk 0 a 24 = true →
      blockMay s' 0 a 24 = true → CleanAt s' a 24 →
      ((s'.tenant k).state = .vacant ∨ (s'.tenant k).state = .granted) →
      exec (.grant c f) s =
        if recordOk s' k.val ws then
          let x := { s'.tenant k with state := .granted, record := wordsVec 24 ws, qused := 0, qout := false }
          .next (retireUsing c v (sramBank (a + 92)) s 0x00 id (s'.base + 24)
            { s'.setTenant k { x with qperiod := s'.time.hive / x.period } with
              later := s'.later.filter (· != .withdrawn k) })
        else .next (retireUsing c v (sramBank (a + 92)) s 0x16 id (s'.base + 24) s')) ∧
    (Begins c (.spool c f) v s s' → named → f.rb = 0 → v.tenant = 0 → imagePlaced s' a = true →
      (flash → s'.hasFailed .flash = false ∧ waitsFor .flash s' = none) →
      (s'.tenant k).state = .granted → s'.loader = none →
      let u := if inSpan 0x08000000 0x00800000 a then flashTouch s' else s'
      let hd := parseHeader (wordsAt s' a 16)
      let tb := wordsAt s' (a + 64) hd.tableWords
      let sects := parseSects hd.nsect tb
      CleanAt s' a 16 → CleanAt s' (a + 64) hd.tableWords →
      hd.formOk = true → hd.owner = false → hd.fmode = false → layoutOk hd sects = true → hd.total % 4 = 0 →
      (∀ x ∈ sects, sectInWindow s' k x = true) → tenantKeyOk s' k hd.pubkey = true →
      let l := mkLoader u (.tenant k) a hd tb (codeWinOf ((s'.tenant k).word 11))
      exec (.spool c f) s = .next (retire c 0 0x01 (fun r => r.wr f.rd (BitVec.ofNat 32 l.clocks))
        (s'.base + ((16 + hd.tableWords) * imageWordCost s' a + 64))
        { u.setTenant k { s'.tenant k with state := .loading, loadclk := BitVec.ofNat 32 l.clocks } with
          loader := some l })) ∧
    (Begins c (.revoke c f) v s s' → named → f.rd = 0 → f.ra = 0 → f.rb = 0 → v.tenant = 0 →
      (s'.tenant k).state = .vacant → exec (.revoke c f) s = .next (retire c 0 0x10 id s'.base s')) ∧
    (Begins c (.revoke c f) v s s' → named → f.rd = 0 → f.ra = 0 → f.rb = 0 → v.tenant = 0 →
      ((s'.tenant k).state = .granted ∨ (s'.tenant k).state = .active) →
      ∃ u, exec (.revoke c f) s = .next (retire c 0 0x00 id s'.base u) ∧
        (u.tenant k).state = .vacant ∧ (u.tenant k).vote = false ∧ Later.withdrawn k ∈ u.later ∧
        (∀ w i, ((doLater w (.withdrawn k)).tenant k).word i = 0) ∧
        (∀ b x, vget u.bindings b = some x → x.tenant ≠ k) ∧
        (∀ j, (vget u.timers j).kind ≠ .off → (vget u.timers j).owner ≠ k) ∧
        (∀ j x, vget u.ctx j = some x → x.inv.tenant ≠ k) ∧
        (∀ d w, (u.core d).inv = some w → w.tenant = k → w.revoked = true)) ∧
    (∀ l e, Begins c (.revoke c f) v s s' → named → f.rd = 0 → f.ra = 0 → f.rb = 0 → v.tenant = 0 →
      (s'.tenant k).state = .loading → s'.loader = some l → (l.phase = .loading ∨ l.phase = .cleanup e) →
      ∃ u, exec (.revoke c f) s = .next (retire c 0 0x00 id s'.base u) ∧ (u.tenant k).state = .loading ∧
        Later.withdrawn k ∈ u.later ∧
        u.loader = some (if l.phase = .loading then { l with revoked := true } else { l with revoked := true, result := 0x11 }))

/-! ## Sensors and the external front end (chapters 8 and 9) -/

/-- Table 1.6 rows SENSE and TONE, with R239, R245, R250 to R253, R256, R268: each SENSE instruction on a sensor that is
up, in each unit state, once the sensor's own events of the clock have acted (R95). SENSE.STOP and SENSE.RETURN abort a
self-test that runs; SENSE.OFF alone passes in FAULT (R530). A refused SENSE.SET leaves a sensor in OFF cold, unless
another core's SENSE.SET awaits it (the model's choice, log entry 77). So each of these completes: senseSet, senseStart,
senseStop, senseHold, senseReturn, senseOff, tone. -/
def Obligations.SenseInstructions : Prop :=
  ∀ (c : CoreId) (v : Inv) (s s' : State) (f : UForm) (k : SensorId), f.inst.toNat = k.val →
    let s0 := ownFirst (senseFirst k) s
    let t := v.tenant
    let x := s'.sensor k
    let r := s'.regs c
    let a := (r.rd f.ra).toNat
    let p := periodOf k x
    let w0 := wordSeen s' a
    let w1 := wordSeen s' (a + 4)
    let up := s'.may t (capSens k.val) = true ∧ s'.hasFailed (sensorFunc k) = false ∧
      waitsFor (sensorFunc k) s' = none ∧ x.st ≠ .fault
    let bare := f.rd = 0 ∧ f.ra = 0 ∧ f.rb = 0
    let ret (st : BitVec 8) (n : Nat) (u : State) : Host.Outcome State Fault Refusal :=
      .next (retire c t st id (s'.base + n) u)
    (Begins c (.senseSet c f) v s0 s' → up → f.rd = 0 → f.rb = 0 → blockOk t a 2 = true → blockMay s' t a 2 = true →
      CleanAt s' a 2 → (inertial k = true → x.st = .off → x.warm = true ∧ x.warmAt = none) →
      exec (.senseSet c f) s =
        let use (st : BitVec 8) (u : State) : Host.Outcome State Fault Refusal :=
          .next (retireUsing c v (sramBank (a + 4)) s0 st id (s'.base + 2) u)
        if x.st = .run ∨ x.st = .held then ret 0x10 0 s'
        else if (if inertial k then inertialSetOk k w0 w1 else xfeSetOk w0 w1) then
          use 0x00 (s'.setSensor k { x with st := .ready, set0 := w0, set1 := w1 })
        else use 0x16 (if x.st = .off ∧ awaited k s' = false then
          s'.setSensor k { x with warm := false, warmAt := none } else s')) ∧
    (Begins c (.senseStart c f) v s0 s' → up → bare →
      exec (.senseStart c f) s =
        if x.st = .ready then
          ret 0x00 0 (s'.setSensor k { x with
            st := .run, next := some ((s'.time.hive + 2 * p - 1) / p), settle := settleCount k x
            dcFirst := !inertial k && !x.voltage, dcUntil := 0, ovl := 0, conv := none, taken := none })
        else ret 0x10 0 s') ∧
    (Begins c (.senseStop c f) v s0 s' → up → bare → x.test = none →
      exec (.senseStop c f) s =
        if x.st = .run ∨ x.st = .held then
          ret 0x00 0 (s'.setSensor k { x with st := .ready, next := none, tone := clearTone x.tone })
        else ret 0x10 0 s') ∧
    (Begins c (.senseHold c f) v s0 s' → up → f.rd = 0 → f.rb = 0 →
      exec (.senseHold c f) s =
        if x.st = .ready ∨ x.st = .run then
          (if a = 0 then
            ret 0x00 0 (s'.setSensor k { x with st := .held, before := x.st, holdInc := true, tone := abandonTone x.tone })
           else if a = 1 then
            ret 0x01 0 (s'.setSensor k { x with
              st := .held, before := x.st, holdInc := true, tone := abandonTone x.tone
              test := some (s'.time.hive + (if k.val < 2 then 12 else if k.val = 2 then 40 else 20) * 192000)
              stpass := 0, stabort := false, stdone := false })
           else ret 0x16 0 s')
        else ret 0x10 0 s') ∧
    (Begins c (.senseReturn c f) v s0 s' → up → bare → x.test = none →
      exec (.senseReturn c f) s =
        if x.st = .held then
          ret 0x00 0 (s'.setSensor k { x with
            st := x.before, retInc := true
            tone := { x.tone with notBefore := max x.tone.notBefore (s'.time.hive + 1) } })
        else ret 0x10 0 s') ∧
    (∀ e, Begins c (.senseReturn c f) v s0 s' → up → bare → x.test = some e → x.st = .held →
      ∃ u, exec (.senseReturn c f) s = ret 0x00 0 u ∧
        let y := u.sensor k
        y.st = x.before ∧ y.test = none ∧ y.stabort = true ∧ y.stdone = true ∧ y.stpass = 0 ∧
        y.recover = s'.time.hive + 384000) ∧
    (Begins c (.senseOff c f) v s0 s' → up → bare →
      exec (.senseOff c f) s =
        if x.st = .ready then
          ret 0x00 0 (s'.setSensor k { x with
            st := .off, next := none, warm := false, warmAt := none, tone := clearTone x.tone })
        else ret 0x10 0 s') ∧
    (Begins c (.senseOff c f) v s0 s' → s'.may t (capSens k.val) = true → bare → x.st = .fault →
      exec (.senseOff c f) s = ret 0x00 0 (s'.setSensor k { x with
        next := none, warm := false, warmAt := none, tone := clearTone x.tone })) ∧
    (Begins c (.tone c f) v s0 s' → up → f.rd = 0 → f.rb = 0 → 3 ≤ k.val →
      exec (.tone c f) s =
        if x.st ≠ .run then ret 0x10 0 s'
        else if a = 0 then ret 0x00 0 (s'.setSensor k { x with tone := clearTone x.tone })
        else if a < 10 then
          ret 0x00 0 (s'.setSensor k { x with
            tone := { x.tone with owner := t, tper := a, notBefore := s'.time.hive + 192000 } })
        else ret 0x16 0 s')

/-- R241, R242, R245, R253, R269, R271: the sensors' own events. A conversion is taken when hive time has reached the
next instant, and its sample waits, stamped with the instant, until it is delivered to the status window; a self-test
ends in FAULT when an axis failed; an impedance measurement starts at a multiple of its period in RUN alone, and its
result raises 0xB0 stamped with the measurement's end. Outside those conditions nothing changes, and an event that an
instruction of its unit has found done already (R95) does nothing more. So each of these completes: conversion,
sensorSampleDelivery, selfTestEnd, toneMeasStart, toneResult. -/
def Obligations.SensorEvents : Prop :=
  ∀ (s : State) (k : SensorId) (w : RawTriple) (ch : Fin 8) (m : ToneMeas),
    let x := s.sensor k
    let e := extOf ch
    let y := (s.sensor e).tone
    let p := tonePeriod y.tper
    (∀ n, Instr.conversion k w ∉ s.early → s.running = true → x.next = some n → n * periodOf k x ≤ s.time.hive →
      ∃ u q, exec (.conversion k w) s = .next u ∧ (u.sensor k).next = some (n + 1) ∧
        (u.sensor k).pend = x.pend ++ [q] ∧ q.stamp = n * periodOf k x ∧ q.ix = n ∧ q.step = x.stepNext ∧
        (u.sensor k).stepNext = false ∧
        (x.st = .run → x.recover = 0 → inertial k = true → q.cov = false ∧ q.empty = false ∧
          q.v = ⟨max (-(codeFull k : Int)) (min (codeFull k - 1) w.x), max (-(codeFull k : Int)) (min (codeFull k - 1) w.y),
            max (-(codeFull k : Int)) (min (codeFull k - 1) w.z)⟩) ∧
        (x.st = .fault → x.cover = false → q.empty = true ∧ q.v = ⟨0, 0, 0⟩)) ∧
    (Instr.conversion k w ∉ s.early → (x.next = none ∨ s.running = false) → exec (.conversion k w) s = .next s) ∧
    (Instr.conversion k w ∈ s.early →
      exec (.conversion k w) s = .next { s with early := s.early.erase (.conversion k w) }) ∧
    (∀ q rest, Instr.sensorSampleDelivery k ∉ s.early → s.running = true → x.pend = q :: rest → lanesFed s k = [] →
      exec (.sensorSampleDelivery k) s = .next (s.setSensor k { x with
        pend := rest, last := sampleWords k q, nsamp := x.nsamp + 1
        ncov := if (if inertial k then q.cov else q.sat) then satInc x.ncov else x.ncov
        nempty := if q.empty then satInc x.nempty else x.nempty })) ∧
    (∀ n, Instr.selfTestEnd k w ∉ s.early → s.running = true → x.test = some n → n ≤ s.time.hive → lanesFed s k = [] →
      exec (.selfTestEnd k w) s =
        let good := if inertial k then deltaOk k w.x && deltaOk k w.y && deltaOk k w.z
          else decide (w.x.natAbs ≤ 200) && decide (w.y.natAbs ≤ 200)
        let pass := if inertial k then
            bit01 (deltaOk k w.x) + 2 * bit01 (deltaOk k w.y) + 4 * bit01 (deltaOk k w.z) else bit01 good
        .next (s.setSensor k { x with
          test := none, stpass := BitVec.ofNat 3 pass, stdone := true, stcount := satInc x.stcount
          dx := BitVec.ofInt 16 w.x, dy := BitVec.ofInt 16 w.y
          dz := if inertial k then BitVec.ofInt 16 w.z else x.dz, st := if good then x.st else .fault })) ∧
    (Instr.toneMeasStart ch ∉ s.early → s.running = true → (s.sensor e).st = .run → y.tper ≠ 0 → y.meas = none → y.notBefore ≤ s.time.hive / p * p →
      exec (.toneMeasStart ch) s = .next (s.setSensor e { s.sensor e with
        tone := { y with meas := some (s.time.hive / p * p), measSat := false, notBefore := s.time.hive / p * p + 1 } })) ∧
    (Instr.toneMeasStart ch ∉ s.early → (s.sensor e).st ≠ .run → exec (.toneMeasStart ch) s = .next s) ∧
    (∀ n, Instr.toneResult ch m ∉ s.early → s.running = true → y.meas = some n → n + 6291456 + 192 ≤ s.time.hive →
      y.measSat = true →
      exec (.toneResult ch m) s = .next ((s.setSensor e { s.sensor e with
          tone := { y with meas := none, measSat := false, ninval := satInc y.ninval } }).event 0xB0
        (BitVec.ofNat 32 (ch.val + 16 * toneFlags y + 512)) (n + 6291456))) ∧
    (∀ n, Instr.toneResult ch m ∉ s.early → s.running = true → y.meas = some n → n + 6291456 + 192 ≤ s.time.hive →
      y.measSat = false → (s.sensor e).voltage = true →
      ∃ u, exec (.toneResult ch m) s = .next u ∧ (u.sensor e).tone.meas = none ∧ (u.sensor e).tone.mtime = n ∧
        (u.sensor e).tone.cmeas = BitVec.ofNat 24 (min m.c 10000) ∧ (u.sensor e).tone.ncheck = satInc y.ncheck ∧
        (u.sensor e).tone.fOpen = flagTest (decide ((s.sensor e).nom < min m.c 10000)) 1 2 y.fOpen)

/-- Table 1.6 rows AOUT, with R278 to R283: each AOUT instruction on a channel that is up, in each unit state, once the
channel's own events of the clock have acted (R95, R283). A write is clamped to CLIPLO and CLIPHI and reaches the output
stage two clocks later (R280); a forced channel drives its band. So each of these completes: aoutSet, aoutStart,
aoutWrite, aoutDiag, aoutRelease, aoutStop. -/
def Obligations.AoutInstructions : Prop :=
  ∀ (c : CoreId) (v : Inv) (s s' : State) (f : UForm) (k : Fin 4), f.inst.toNat = k.val →
    let s0 := ownFirst (aoutFirst k) (ownFirst watchFirst s)
    let t := v.tenant
    let x := s'.aout k
    let r := s'.regs c
    let a := (r.rd f.ra).toNat
    let w0 := wordSeen s' a
    let w1 := wordSeen s' (a + 4)
    let up := s'.may t (capAout k.val) = true ∧ s'.hasFailed .aout = false ∧ waitsFor .aout s' = none ∧ x.st ≠ .fault
    let bare := f.rd = 0 ∧ f.ra = 0 ∧ f.rb = 0
    let ret (st : BitVec 8) (n : Nat) (u : State) : Host.Outcome State Fault Refusal :=
      .next (retire c t st id (s'.base + n) u)
    let no := ret 0x10 0 s'
    let ok (y : Aout) := ret 0x00 0 (s'.setAout k y)
    (Begins c (.aoutSet c f) v s0 s' → up → f.rd = 0 → f.rb = 0 → blockOk t a 2 = true → blockMay s' t a 2 = true →
      CleanAt s' a 2 →
      exec (.aoutSet c f) s =
        let use (st : BitVec 8) (u : State) : Host.Outcome State Fault Refusal :=
          .next (retireUsing c v (sramBank (a + 4)) s0 st id (s'.base + 2) u)
        if x.st = .run ∨ x.st = .held then no
        else if fieldOf w0 11 0 ≤ fieldOf w0 23 12 ∧ w0.toNat < 2 ^ 29 ∧ w1.toNat < 2 ^ 9 then
          use 0x00 (s'.setAout k { x with st := .ready, band := false, set0 := w0, set1 := w1 })
        else use 0x16 s') ∧
    (Begins c (.aoutStart c f) v s0 s' → up → bare →
      exec (.aoutStart c f) s =
        if x.st = .ready then ok { x with st := .run, outs := [], since := s'.time.hive, cause := 0 } else no) ∧
    (Begins c (.aoutWrite c f) v s0 s' → up → f.rd = 0 → f.rb = 0 →
      exec (.aoutWrite c f) s =
        if x.st ≠ .run then no
        else if 4096 ≤ a then ret 0x16 0 s'
        else
          let n := max (fieldOf x.set0 11 0) (min (fieldOf x.set0 23 12) a)
          ok { x with
            code := BitVec.ofNat 12 n, outs := reach s'.time.clk (BitVec.ofNat 12 n) x.outs, clipped := decide (n ≠ a), wtime := s'.time.hive
            since := s'.time.hive, nclip := if n = a then x.nclip else satInc x.nclip }) ∧
    (Begins c (.aoutDiag c f) v s0 s' → up → f.rd = 0 → f.rb = 0 →
      exec (.aoutDiag c f) s =
        if x.st = .off then no else ok { x with st := .held, band := (r.rd f.ra).getLsbD 0, cause := 1 }) ∧
    (Begins c (.aoutRelease c f) v s0 s' → up → bare →
      exec (.aoutRelease c f) s =
        if x.st = .held then ok { x with st := .run, outs := [], since := s'.time.hive, cause := 0 } else no) ∧
    (Begins c (.aoutStop c f) v s0 s' → up → bare →
      exec (.aoutStop c f) s =
        if x.st = .run ∨ x.st = .held then ok { x with st := .ready, band := false, cause := 0 } else no)

/-- R279, R282, R284: a channel in RUN with no write for TMO is forced to HELD at its band and counted, and does so at
no other time, after the results of the clock (R283); the supply VAOUT is an input that changes no state; an output in
RUN drives the low band until a code has reached its stage, two clocks after it was written (R280). So each of these
completes: aoutTimeout, vaoutChange. -/
def Obligations.AoutEvents : Prop :=
  ∀ (s : State) (k : Fin 4) (mv : Nat),
    let x := s.aout k
    let s0 := ownFirst watchFirst s
    let y := s0.aout k
    (Instr.aoutTimeout k ∉ s.early → exec (.aoutTimeout k) s = .next (
      if s0.running = true ∧ y.st = .run ∧ fieldOf y.set1 7 0 ≠ 0 ∧ y.since + fieldOf y.set1 7 0 * 48000 ≤ s0.time.hive then
        s0.setAout k { y with st := .held, band := bitOf y.set1 8, cause := 3, nforce := satInc y.nforce }
      else s0)) ∧
    (exec (.vaoutChange mv) s = .next { s with vaout := mv }) ∧
    (∀ clk, x.low = false → x.drive clk = match x.st with
      | .off => .off
      | .fault => .off
      | .ready => .band false
      | .held => .band x.band
      | .run => match x.atStage clk with | some n => .code n | none => .band false) ∧
    (∀ clk n, ({ x with outs := [] } : Aout).atStage clk = none ∧
      ({ x with outs := reach clk n x.outs } : Aout).atStage clk = x.atStage clk ∧
      ({ x with outs := reach clk n x.outs } : Aout).atStage (clk + 2) = some n)

/-! ## Lanes, calibration, recognizers and rings (chapters 10 and 11) -/

/-- Table 1.6 rows LANE, with R291 to R299 and R310 to R312: each lane instruction in each unit state of its lane, once
the sample boundaries of its clock have passed (R95, R298, R310). LANE.START and LANE.RESUME copy the recorded
coefficient table; here it lies clean in the tenant's windows, or is empty. The recognizers follow in the next clock
(R322). So each of these completes: laneBuild, laneLoad, laneStart, laneSuspend, laneResume, laneStop, laneClear. -/
def Obligations.LaneInstructions : Prop :=
  ∀ (c : CoreId) (v : Inv) (s s' : State) (f : UForm) (l : LaneId), f.inst.toNat = l.val →
    let s0 := ownFirst laneFirst s
    let t := v.tenant
    let x := s'.lane l
    let r := s'.regs c
    let a := (r.rd f.ra).toNat
    let n := x.ctlen
    let words := wordsAt s'
    let up := s'.may t (capLane l.val) = true ∧ waitsFor .lanes s' = none
    let bare := f.rd = 0 ∧ f.ra = 0 ∧ f.rb = 0
    let ret (st : BitVec 8) (k : Nat) (u : State) : Host.Outcome State Fault Refusal :=
      .next (retire c t st id (s'.base + k) u)
    let use (banks : List Nat) (st : BitVec 8) (k : Nat) (u : State) : Host.Outcome State Fault Refusal :=
      .next (retireUsing c v banks s0 st id (s'.base + k) u)
    let no := ret 0x10 0 s'
    let fresh := { x with
      st := .run, shadow := words x.ctab.toNat n, nextShadow := none, shPoison := false, errs := []
      stages := x.stages.map (fun (g : Stage) => { g.zero with clk := none, poison := false }) }
    let table := n = 0 ∨ (blockOk t x.ctab.toNat n = true ∧ blockMay s' t x.ctab.toNat n = true ∧ CleanAt s' x.ctab.toNat n)
    (Begins c (.laneBuild c f) v s0 s' → up → f.rd = 0 → f.rb = 0 → blockOk t a 11 = true → blockMay s' t a 11 = true →
      CleanAt s' a 11 →
      let ws := words a 11
      let u := upstream s' (fieldOf (wordAt ws 0) 5 0)
      let k := fieldOf (wordAt ws 2) 9 0
      let sts := mkStages u.2.1 0 ((ws.drop 3).take (fieldOf (wordAt ws 0) 11 8))
      (x.st = .off ∨ x.st = .ready) → sourceMay s' t (fieldOf (wordAt ws 0) 5 0) = true → buildFieldsOk l ws u = true →
      (k = 0 ∨ (blockOk t (wordAt ws 1).toNat k = true ∧ blockMay s' t (wordAt ws 1).toNat k = true ∧
        CleanAt s' (wordAt ws 1).toNat k)) →
      buildRefusal s' l ws sts (words (wordAt ws 1).toNat k) = none →
      ∃ y, exec (.laneBuild c f) s = use (blockBanks a 11 ++ blockBanks (wordAt ws 1).toNat k) 0x00 (11 + k)
          { s'.setLane l y with free := s'.free + 1 } ∧
        y.st = .ready ∧ y.build = ws ∧ y.triad = u.1 ∧ y.stages = sts ∧ y.shadow = words (wordAt ws 1).toNat k ∧
        y.ctab = wordAt ws 1 ∧ y.pslot = none ∧ y.outq = x.outq) ∧
    (Begins c (.laneBuild c f) v s0 s' → up → f.rd = 0 → f.rb = 0 → blockOk t a 11 = true → blockMay s' t a 11 = true →
      (x.st = .run ∨ x.st = .held) → exec (.laneBuild c f) s = no) ∧
    (Begins c (.laneLoad c f) v s0 s' → up → f.rd = 0 → f.rb = 0 → blockOk t a n = true → blockMay s' t a n = true →
      CleanAt s' a n →
      exec (.laneLoad c f) s =
        if x.st = .off ∨ x.st = .fault then no
        else if clipsOk x.stages (words a n) then
          (let y := { x with ctab := r.rd f.ra, nload := satInc x.nload }
           use (blockBanks a n) 0x00 n (s'.setLane l (if x.st = .run then { y with nextShadow := some (words a n) }
            else { y with
              shadow := words a n, nextShadow := none, shPoison := false, errs := y.errs.filter (·.1.isSome) })))
        else use (blockBanks a n) 0x16 n s') ∧
    (Begins c (.laneStart c f) v s0 s' → up → bare → table →
      exec (.laneStart c f) s =
        if x.st = .ready then use (blockBanks x.ctab.toNat n) 0x00 n (laneEntered l (s'.setLane l { fresh with
          prev := none, lastJ := none, resumed := false, gap := false, win := 0 }))
        else no) ∧
    (Begins c (.laneSuspend c f) v s0 s' → up → bare →
      exec (.laneSuspend c f) s =
        if x.st = .run then ret 0x00 0 (laneLeft l (stopRun l (s'.setLane l { x with st := .held }))) else no) ∧
    (Begins c (.laneResume c f) v s0 s' → up → f.ra = 0 → f.rb = 0 → table →
      exec (.laneResume c f) s =
        if x.st = .held then .next (retireUsing c v (blockBanks x.ctab.toNat n) s0 0x00
          (fun q => q.wr f.rd (BitVec.ofNat 32 (resumeMissed s' l))) (s'.base + n)
          (laneEntered l { s'.setLane l { fresh with resumed := true } with free := s'.free + 1 }))
        else no) ∧
    (Begins c (.laneStop c f) v s0 s' → up → bare →
      exec (.laneStop c f) s =
        if x.st = .run ∨ x.st = .held then ret 0x00 0 (laneLeft l (stopRun l (s'.setLane l { x with st := .ready })))
        else no) ∧
    (Begins c (.laneClear c f) v s0 s' → up → bare →
      exec (.laneClear c f) s =
        if x.st = .ready then ret 0x00 0 (s'.setLane l { x with
          st := .off, stages := [], shadow := [], nextShadow := none, pslot := none, cr := 0, gdly := 0, outq := []
          errs := [], shPoison := false })
        else no)

/-- R301, R305, R309: the calibration instructions. A slot that a lane in RUN or HELD uses is not written; CALPUT.P
moves the proposal and clears it; CALSWAP in RUN waits for the sample boundary and answers the epoch from there, in
READY and HELD it acts at once, and a swap to the slot in use with none pending changes neither slot nor epoch. In RUN
with an increment of R252 in the same input the epoch counts one; a second CALSWAP before the boundary replaces the
pending slot (the model's choice, log entry 71). So each of these completes: calput, calputP, calswap. -/
def Obligations.CalibrationInstructions : Prop :=
  ∀ (c : CoreId) (v : Inv) (s s' : State) (f : UForm) (k : SensorId) (l : LaneId),
    let s0 := ownFirst laneFirst s
    let t := v.tenant
    let x := s'.sensor k
    let y := s'.lane l
    let r := s'.regs c
    let j := (r.rd f.ra).toNat % 8
    let b := (r.rd f.rb).toNat
    let ws := wordsAt s' b 22
    let up := s'.hasFailed (sensorFunc k) = false ∧ x.st ≠ .fault ∧ waitsFor .lanes s' = none
    let ret (st : BitVec 8) (n : Nat) (u : State) : Host.Outcome State Fault Refusal :=
      .next (retire c t st id (s'.base + n) u)
    let val (w : Nat) (u : State) : Host.Outcome State Fault Refusal :=
      .next (retire c t 0x00 (fun q => q.wr f.rd (BitVec.ofNat 32 w)) s'.base u)
    (Begins c (.calput c f) v s0 s' → f.inst.toNat = k.val → up → s'.may t (capSens k.val) = true → f.rd = 0 →
      blockOk t b 22 = true → blockMay s' t b 22 = true → CleanAt s' b 22 →
      exec (.calput c f) s =
        let use (st : BitVec 8) (u : State) : Host.Outcome State Fault Refusal :=
          .next (retireUsing c v (blockBanks b 22) s0 st id (s'.base + 22) u)
        if slotBusy s' k.val j then ret 0x10 0 s'
        else if setOk k ws then use 0x00 (s'.setSensor k { x with slots := vsetD x.slots j (some ws) })
        else use 0x16 s') ∧
    (Begins c (.calputP c f) v s0 s' → f.inst.toNat = k.val → up → s'.may t (capSens k.val) = true →
      s'.may t capCal = true → f.rd = 0 → f.rb = 0 →
      exec (.calputP c f) s =
        match x.proposal with
        | none => ret 0x10 0 s'
        | some p => if slotBusy s' k.val j then ret 0x10 0 s'
          else ret 0x00 0 (s'.setSensor k { x with slots := vsetD x.slots j (some p), proposal := none })) ∧
    (Begins c (.calswap c f) v s0 s' → f.inst.toNat = l.val → waitsFor .lanes s' = none → s'.may t (capLane l.val) = true →
      s'.may t capCal = true → f.rb = 0 → y.hasCal = true → (slotOf s' y.src j).isSome = true → y.st ≠ .fault →
      exec (.calswap c f) s =
        if y.st = .off then ret 0x10 0 s'
        else if j = y.slot.toNat ∧ y.pslot = none then val y.epoch.toNat s'
        else if y.st = .run then
          val (swapEpoch s' y).toNat (s'.setLane l { y with pslot := some (BitVec.ofNat 3 j) })
        else val ((y.epoch.toNat + 1) % 256) (s'.setLane l { y with
          slot := BitVec.ofNat 3 j, pslot := none, epoch := y.epoch + 1, nswap := satInc y.nswap })) ∧
    ((vgetD s'.sensors y.src Sensor.reset).pend = [] → (swapEpoch s' y).toNat = (y.epoch.toNat + 1) % 256) ∧
    (Begins c (.calswap c f) v s0 s' → f.inst.toNat = l.val → waitsFor .lanes s' = none → s'.may t (capLane l.val) = true →
      s'.may t capCal = true → f.rb = 0 → (y.hasCal = false ∨ slotOf s' y.src j = none) →
      exec (.calswap c f) s = ret 0x10 0 s')

/-- Table 1.6 rows RECOG, with R315, R321, R322: each recognizer instruction in each unit state. RECOG.ARM is in RUN,
and in HELD from the next clock on while the source lane is not in RUN. No arming or disarming loses the cadence history
(R317). So each of these completes: recogSet, recogArm, recogDisarm, recogClear. -/
def Obligations.RecogInstructions : Prop :=
  ∀ (c : CoreId) (v : Inv) (s s' : State) (f : UForm) (k : RecogId), f.inst.toNat = k.val →
    let s0 := ownFirst recogFirst s
    let t := v.tenant
    let x := s'.recog k
    let r := s'.regs c
    let a := (r.rd f.ra).toNat
    let w0 := wordSeen s' a
    let w1 := wordSeen s' (a + 4)
    let lane := fieldOf w0 4 0
    let up := s'.may t (capRecog k.val) = true ∧ waitsFor .lanes s' = none
    let bare := f.rd = 0 ∧ f.ra = 0 ∧ f.rb = 0
    let ret (st : BitVec 8) (n : Nat) (u : State) : Host.Outcome State Fault Refusal :=
      .next (retire c t st id (s'.base + n) u)
    let no := ret 0x10 0 s'
    (Begins c (.recogSet c f) v s0 s' → up → f.rd = 0 → f.rb = 0 → blockOk t a 2 = true → blockMay s' t a 2 = true →
      CleanAt s' a 2 → (lane < 24 → s'.may t (capLane lane) = true) →
      exec (.recogSet c f) s =
        let use (st : BitVec 8) (u : State) : Host.Outcome State Fault Refusal :=
          .next (retireUsing c v (blockBanks a 2) s0 st id (s'.base + 2) u)
        if x.st ≠ .off ∧ x.st ≠ .ready then no
        else if recogFieldsOk (rkind k.val) w0 w1 then
          match recogSource s' k lane with
          | none => use 0x16 s'
          | some i => use 0x00 (s'.setRecog k { x with
              st := .ready, set0 := w0, set1 := w1, sensor := i.val, det := Detect.zero, inq := [] })
        else use 0x16 s') ∧
    (Begins c (.recogArm c f) v s0 s' → up → bare →
      exec (.recogArm c f) s =
        if x.st = .ready then
          (let u := s'.setRecog k { x with st := .run, count := 0, det := Detect.zero, inq := [] }
           ret 0x00 0 (if (vgetD s'.lanes x.srcLane Lane.reset).st = .run then u
            else { u with later := u.later ++ [.recogHeld k] }))
        else no) ∧
    (x.st = .run → ((doLater s' (.recogHeld k)).recog k).st = .held) ∧
    (Begins c (.recogDisarm c f) v s0 s' → up → bare →
      (x.st ≠ .run ∧ x.st ≠ .held → exec (.recogDisarm c f) s = no) ∧
      (x.st = .run ∨ x.st = .held → ∃ u, exec (.recogDisarm c f) s = ret 0x00 0 u ∧
        (u.recog k).st = .ready ∧ (u.recog k).inq = [] ∧ (u.recog k).det = Detect.zero ∧ (u.recog k).ivals = x.ivals ∧
        (u.recog k).set0 = x.set0 ∧ (u.recog k).set1 = x.set1 ∧
        (rkind k.val = .step → (u.recog k).count = 0))) ∧
    (Begins c (.recogClear c f) v s0 s' → up → bare →
      exec (.recogClear c f) s = if x.st = .ready then ret 0x00 0 (s'.setRecog k { x with st := .off, ivals := [] }) else no)

/-- Table 1.6 rows RING, with R327 to R329: each ring instruction in each unit state, once the ring writes and decisions
of its clock have acted (R95). Every one of them touches COMB. So each of these completes: ringSet, ringArm, ringTrig,
ringDisarm, ringFree. -/
def Obligations.RingInstructions : Prop :=
  ∀ (c : CoreId) (v : Inv) (s s' : State) (f : UForm) (k : RingId), f.inst.toNat = k.val →
    let s0 := ownFirst recogFirst s
    let t := v.tenant
    let x := s'.ring k
    let r := s'.regs c
    let a := (r.rd f.ra).toNat
    let ws := wordsAt s' a 5
    let up := s'.may t (capRing k.val) = true ∧ s'.hasFailed .comb = false ∧ waitsFor .comb s' = none ∧ x.st ≠ .fault
    let bare := f.rd = 0 ∧ f.ra = 0 ∧ f.rb = 0
    let u := { s' with sleep := { s'.sleep with combUse := s'.time.phys } }
    let ret (st : BitVec 8) (n : Nat) (u : State) : Host.Outcome State Fault Refusal :=
      .next (retire c t st id (s'.base + n) u)
    let no := ret 0x10 0 u
    (Begins c (.ringSet c f) v s0 s' → up → f.rd = 0 → f.rb = 0 → blockOk t a 5 = true → blockMay s' t a 5 = true →
      CleanAt s' a 5 →
      exec (.ringSet c f) s =
        let use (st : BitVec 8) (w : State) : Host.Outcome State Fault Refusal :=
          .next (retireUsing c v (blockBanks a 5) s0 st id (s'.base + 5) w)
        if x.st = .run ∨ x.st = .held then no
        else if ringFieldsOk ws && !ringOverlaps u k ws then use 0x00 (u.setRing k { x with st := .ready, set := ws })
        else use 0x16 u) ∧
    (Begins c (.ringArm c f) v s0 s' → up → bare →
      exec (.ringArm c f) s =
        if x.st = .ready ∨ x.st = .held then ret 0x00 0 (u.setRing k { x with
          st := .run, wptr := 0, nwrit := 0, pregot := 0, postgot := 0, trigd := false, trigNext := false
          armn := x.armn + 1 })
        else no) ∧
    (Begins c (.ringTrig c f) v s0 s' → up → bare →
      (x.st ≠ .run → exec (.ringTrig c f) s = no) ∧
      (x.st = .run → x.trigd = true →
        exec (.ringTrig c f) s = ret 0x00 0 (u.setRing k { x with nxtrig := satInc x.nxtrig })) ∧
      (x.st = .run → x.trigd = false → ∃ w, exec (.ringTrig c f) s = ret 0x00 0 w ∧
        (w.ring k).trigd = true ∧ (w.ring k).tsrc = 0 ∧ (w.ring k).tstamp = s'.time.hive ∧
        (x.nwrit = 0 → (w.ring k).trigNext = true ∧ w.mem = s'.mem))) ∧
    (Begins c (.ringDisarm c f) v s0 s' → up → bare →
      exec (.ringDisarm c f) s = if x.st = .run then ret 0x00 0 (u.setRing k { x with st := .ready }) else no) ∧
    (Begins c (.ringFree c f) v s0 s' → up → bare →
      exec (.ringFree c f) s =
        if x.st = .ready ∨ x.st = .held then ret 0x00 0 (u.setRing k { x with st := .off }) else no)

/-- R288, R290, R319, R323, R330, R334: the events of lanes, recognizers and rings. A lane's oldest record reaches its
window (a lane never names itself as its source, R291); a recognizer takes its oldest record and evaluates none that
carries GAP, EMPTY, SETTLING or POISON; a pulse ends at its time; the write queue's oldest record goes into its ring's
entry at WPTR, or nowhere once that capture has ended; the scrubber takes one line each 16 microseconds; the comb array
serves one access in a clock (R330). So each of these completes: laneRecord, recogDecide, evtPulseEnd, ringWrite,
scrubLine. -/
def Obligations.StreamEvents : Prop :=
  ∀ (s : State) (l : LaneId) (k : RecogId) (b : Fin 8),
    let x := s.lane l
    let y := s.recog k
    (∀ r rest, Instr.laneRecord l ∉ s.early → s.running = true → x.outq = r :: rest → ∃ u, exec (.laneRecord l) s = .next u ∧
      (u.lane l).nout = x.nout + 1 ∧ (u.lane l).last = (r.words ++ [0, 0]).take 7 ∧ (x.src ≠ 32 + l.val → (u.lane l).outq = rest) ∧
      (u.lane l).ngap = (if r.flags / 2 % 2 = 1 then satInc x.ngap else x.ngap)) ∧
    (Instr.laneRecord l ∉ s.early → (x.outq = [] ∨ s.running = false) → exec (.laneRecord l) s = .next s) ∧
    (∀ r rest i, Instr.recogDecide k ∉ s.early → s.running = true → y.st = .run → y.inq = r :: rest → sensorBehind s y.srcLane = some i →
      i.val = y.sensor →
      (r.flags &&& 83 ≠ 0 → ∃ u, exec (.recogDecide k) s = .next u ∧ (u.recog k).det = Detect.zero ∧
        (u.recog k).nreset = satInc y.nreset ∧ (u.recog k).inq = rest) ∧
      (r.flags &&& 83 = 0 → ∃ u, exec (.recogDecide k) s = .next u ∧ (u.recog k).inq = rest ∧
        let z := evaluate (rkind k.val) (unitScale i (s.sensor i)) { y with inq := rest } r
        (z.2 = none → u = s.setRecog k z.1) ∧
        (∀ kind arg, z.2 = some (kind, arg) → (u.recog k).lastT = r.stamp ∧
          (u.recog k).lastArg = BitVec.ofNat 32 (arg + kind * 2 ^ 28) ∧ (u.recog k).nevt = satInc z.1.nevt))) ∧
    (s.running = true → exec (.evtPulseEnd b) s = .next { s with
      recogs := vmap (fun z => match z.pulse with
        | some t => if z.ball = b.val ∧ t ≤ s.time.hive then { z with pulse := none } else z
        | none => z) s.recogs }) ∧
    (∀ n m ws rest, Instr.ringWrite ∉ s.early → s.running = true → s.comb.busyClk ≠ some s.time.clk →
      Memory.wf s.mem = true → s.comb.wq = (n, m, ws) :: rest →
      let g := s.ring n
      let a := g.entry g.wptr
      ∃ u, exec .ringWrite s = .next u ∧ u.comb.wq = rest ∧
        (g.st = .run → g.armn = m → (u.ring n).nwrit = g.nwrit + 1 ∧ (u.ring n).wptr = (g.wptr + 1) % max 1 g.cap ∧
          (∀ i, i < 7 → memWord u.mem (a + 4 * i) = wordAt ws i) ∧
          (∀ p, ¬ (a ≤ p ∧ p < a + 32) → memGet u.mem p = memGet s.mem p)) ∧
        (¬ (g.st = .run ∧ g.armn = m) →
          u = { s with comb := { s.comb with wq := rest, busyClk := some s.time.clk } })) ∧
    (Instr.ringWrite ∉ s.early → (s.comb.wq = [] ∨ s.comb.busyClk = some s.time.clk) → exec .ringWrite s = .next s) ∧
    (s.running = true → s.comb.busyClk ≠ some s.time.clk → s.isReady .comb = true → s.domUp .comb = true → s.comb.lastScrub + 3072 ≤ s.time.phys →
      let a := 0x30000000 + 32 * s.comb.scrubix
      let cb := { s.comb with lastScrub := s.time.phys, busyClk := some s.time.clk, scrubix := (s.comb.scrubix + 1) % 131072 }
      ((∀ e ∈ s.ecc, ¬ (a ≤ e.addr ∧ e.addr < a + 32)) → exec .scrubLine s = .next { s with comb := cb }) ∧
      ((∃ e ∈ s.ecc, a ≤ e.addr ∧ e.addr < a + 32) → (∀ e ∈ s.ecc, a ≤ e.addr → e.addr < a + 32 → e.dbl = false) →
        exec .scrubLine s = .next { s with
          comb := { cb with nscrub := satInc cb.nscrub }
          ecc := s.ecc.filter (fun e => !(decide (a ≤ e.addr) && decide (e.addr < a + 32))) }))

/-! ## Credit queues (chapter 12) -/

/-- Table 1.6 rows QSET to QFLUSH but QPUT, QGET and QCRED, with R337, R338, R351: allocating, enabling, disabling,
freeing and flushing a queue, in each unit state, once what unit producers write in the clock is written (R95, R347);
words discarded are counted in NDISC. So each of these completes: qset, qen, qdis, qfree, qflush. -/
def Obligations.QueueControl : Prop :=
  ∀ (c : CoreId) (v : Inv) (s s' : State) (f : UForm) (k : QueueId), f.inst.toNat = k.val →
    let s0 := ownFirst queueFirst s
    let t := v.tenant
    let x := s'.queue k
    let a := ((s'.regs c).rd f.ra).toNat
    let w0 := wordSeen s' a
    let w1 := wordSeen s' (a + 4)
    let up := s'.may t (capQueue k.val) = true ∧ waitsFor .queues s' = none
    let bare := f.rd = 0 ∧ f.ra = 0 ∧ f.rb = 0
    let ret (st : BitVec 8) (n : Nat) (u : State) : Host.Outcome State Fault Refusal :=
      .next (retire c t st id (s'.base + n) u)
    let no := ret 0x10 0 s'
    let emptied := { x with fill := [], drain := [], ndisc := BitVec.ofNat 16 (min 65535 (x.ndisc.toNat + (x.fill.length + x.drain.length))) }
    (Begins c (.qset c f) v s0 s' → up → f.rd = 0 → f.rb = 0 → blockOk t a 2 = true → blockMay s' t a 2 = true →
      CleanAt s' a 2 →
      exec (.qset c f) s =
        let use (st : BitVec 8) (u : State) : Host.Outcome State Fault Refusal :=
          .next (retireUsing c v (blockBanks a 2) s0 st id (s'.base + 2) u)
        if x.st ≠ .off then no
        else if queueUnitsMay s' t w1 = false then use 0x11 s'
        else if queueFieldsOk w0 w1 && !queueOverlaps s' k w0 then use 0x00 (s'.setQueue k { x with
          st := .ready, set0 := w0, set1 := w1, cred := 0, fill := [], drain := [], fbank := false })
        else use 0x16 s') ∧
    (Begins c (.qen c f) v s0 s' → up → bare →
      exec (.qen c f) s =
        if x.st = .ready then ret 0x00 0 (s'.setQueue k { x with st := .run, fill := [], drain := [] }) else no) ∧
    (Begins c (.qdis c f) v s0 s' → up → bare →
      exec (.qdis c f) s = if x.st = .run then ret 0x00 0 (s'.setQueue k { emptied with st := .ready }) else no) ∧
    (Begins c (.qfree c f) v s0 s' → up → bare →
      exec (.qfree c f) s =
        if x.st = .ready then ret 0x00 0 (s'.setQueue k { x with
          st := .off, cred := 0, fill := [], drain := [], set1 := x.set1 &&& 0xFFFF0000 })
        else no) ∧
    (Begins c (.qflush c f) v s0 s' → up → bare →
      exec (.qflush c f) s = if x.st = .ready ∨ x.st = .run then ret 0x00 0 (s'.setQueue k emptied) else no)

/-- R93, R342 to R345, R349: producing, consuming and granting. QPUT takes one credit and none is ST_CREDIT; QGET
delivers the oldest word of the drain bank, with ST_ECC and P when it is poisoned; QCRED grants no more than ROOM, and
its CREDIT event is raised in the next clock with this clock's stamp (R350). So each of these completes: qput, qputT,
qget, qcred. -/
def Obligations.QueueData : Prop :=
  ∀ (c : CoreId) (v : Inv) (s s' : State) (f : UForm) (k : QueueId), f.inst.toNat = k.val →
    let s0 := ownFirst queueFirst s
    let t := v.tenant
    let x := s'.queue k
    let r := s'.regs c
    let a := r.rd f.ra
    let room := x.bankWords - x.cred - x.fill.length
    let up := s'.may t (capQueue k.val) = true ∧ waitsFor .queues s' = none
    let ret (st : BitVec 8) (u : State) : Host.Outcome State Fault Refusal := .next (retire c t st id s'.base u)
    let put (tag : BitVec 4) : Host.Outcome State Fault Refusal :=
      if x.st ≠ .run then ret 0x10 s'
      else if x.prod ≠ 0 then ret 0x16 s'
      else if x.cred = 0 then ret 0x12 s'
      else ret 0x00 (s'.setQueue k { x with fill := x.fill ++ [⟨a, tag, 0⟩], cred := x.cred - 1, nput := x.nput + 1 })
    (Begins c (.qput c f) v s0 s' → up → f.rd = 0 → f.rb = 0 → exec (.qput c f) s = put 0) ∧
    (Begins c (.qputT c f) v s0 s' → up → f.rd = 0 → (r.rd f.rb).toNat < 16 →
      exec (.qputT c f) s = put ((r.rd f.rb).truncate 4)) ∧
    (Begins c (.qputT c f) v s0 s' → up → f.rd = 0 → 16 ≤ (r.rd f.rb).toNat →
      exec (.qputT c f) s = if x.st = .run then ret 0x16 s' else ret 0x10 s') ∧
    (Begins c (.qget c f) v s0 s' → up → f.ra = 0 → f.rb = 0 →
      exec (.qget c f) s =
        if x.st ≠ .run then ret 0x10 s'
        else if x.cons ≠ 0 then ret 0x16 s'
        else match x.drain with
          | [] => ret 0x12 s'
          | d :: rest => .next (retire c t (if 2 ≤ d.err then 0x18 else 0x00)
              (fun q => { (q.wr f.rd d.w) with fl := { q.fl with p := decide (2 ≤ d.err) } }) s'.base
              (s'.setQueue k { x with
                drain := rest, ltag := d.tag, nget := x.nget + 1
                ncorr := if d.err = 1 then satInc x.ncorr else x.ncorr
                npois := if 2 ≤ d.err then satInc x.npois else x.npois }))) ∧
    (Begins c (.qcred c f) v s0 s' → up → f.rd = 0 → f.rb = 0 →
      exec (.qcred c f) s =
        if x.st ≠ .run then ret 0x10 s'
        else if room < a.toNat then ret 0x16 s'
        else
          let y := { x with cred := x.cred + a.toNat }
          let u := s'.setQueue k y
          ret 0x00 (if x.cred = 0 ∧ a.toNat ≠ 0 ∧ bitOf x.set0 24 = true then
            u.eventOf (0x30 + k.val) (BitVec.ofNat 32 (y.cred % 2048 + y.room % 2048 * 2 ^ 11 + 2 * 2 ^ 28))
          else u))

/-- R339, R344, R350: the banks of a queue in RUN swap exactly when the drain bank is empty and the fill bank meets the
condition that SWAPM selects; the drain bank is then the fill bank, and with ACRED the credits are a whole bank. So each
of these completes: queueSwap. -/
def Obligations.QueueSwaps : Prop :=
  ∀ (s : State) (k : QueueId),
    let x := s.queue k
    let due := if x.swapm = 0 then x.fill ≠ []
      else if x.swapm = 1 then ∃ d ∈ x.fill, d.tag.getLsbD 3 = true
      else x.swcnt ≤ x.fill.length
    (s.running = true → x.st = .run → x.drain = [] → due →
      ∃ u, exec (.queueSwap k) s = .next u ∧
        u.queue k = { x with
          drain := x.fill, fill := [], fbank := !x.fbank, nswap := satInc x.nswap
          cred := if x.acred then x.bankWords else x.cred } ∧
        (∀ j, j ≠ k → u.queue j = s.queue j) ∧ u.mem = s.mem ∧
        (fieldOf x.set0 25 23 = 0 → u.bindings = s.bindings ∧ u.ctx = s.ctx)) ∧
    ((s.running = false ∨ x.st ≠ .run ∨ x.drain ≠ [] ∨ ¬ due) → exec (.queueSwap k) s = .next s)

/-! ## Journal, flash and seal (chapter 16) -/

/-- Table 1.6 row JOURNAL, with R92, R462, R463, R465, R468: gathering, committing and reading a record, once the
journal's own events of the clock have acted (R95). JPUT appends its record when the gather buffer, the projection and
the key limit have room; JGET answers the length of the key's newest visible record and delivers its bytes, 0xFFFFFFFF
with ST_OK for a key that has none, and ST_ECC for a record whose RCRC does not match. So each of these completes: jput,
jcommit, jget. -/
def Obligations.JournalRecords : Prop :=
  ∀ (c : CoreId) (v : Inv) (s s' : State) (f : UForm), f.inst = 0 →
    let s0 := ownFirst journalFirst s
    let t := v.tenant
    let fl := { s' with sleep := { s'.sleep with flashUse := s'.time.phys } }
    let j := s'.journal
    let r := s'.regs c
    let a := (r.rd f.ra).toNat
    let b := (r.rd f.rb).toNat
    let up := s'.hasFailed .journal = false ∧ s'.hasFailed .flash = false ∧ j.st ≠ .fault ∧
      (j.st = .held ∨ waitsFor .journal s' = none)
    let ret (st : BitVec 8) (n : Nat) (u : State) : Host.Outcome State Fault Refusal :=
      .next (retire c t st id (s'.base + n) u)
    let len := b / 2 ^ 16 % 2 ^ 11
    let key := b % 2 ^ 16
    let n := if len ≤ 1024 then (len + 3) / 4 else 0
    let room := gatherBytes j.gather + (8 + 4 * ((len + 3) / 4)) ≤ 2048 ∧
      j.live + gatherBytes j.gather + (8 + 4 * ((len + 3) / 4)) ≤ 3072 * (j.nsec - 1 - j.bad.length) - 2048 ∧
      j.keys key ≤ 508
    let gkey := a % 2 ^ 16
    let lim := a / 2 ^ 16 % 2 ^ 11
    let gup := up ∧ blockOk t b (max ((lim + 3) / 4) 1) = true ∧ (lim = 0 ∨ inData s' t b (4 * ((lim + 3) / 4)) = true) ∧
      (s'.may t (capJw gkey) = true ∨ s'.may t (capJr gkey) = true) ∧ j.op = none
    (Begins c (.jput c f) v s0 s' → up → f.rd = 0 → s'.may t (capJw key) = true →
      (n = 0 ∨ blockOk t a n = true ∧ blockMay s' t a n = true ∧ CleanAt s' a n) →
      exec (.jput c f) s =
        let use (st : BitVec 8) (u : State) : Host.Outcome State Fault Refusal :=
          .next (retireUsing c v (blockBanks a n) s0 st id (s'.base + n) u)
        if j.st = .off then ret 0x10 0 fl
        else if j.st = .run ∨ j.st = .held then ret 0x13 0 fl
        else if 1024 < len then ret 0x16 0 fl
        else if key ≠ 0xFFFF ∧ room then
          use 0x00 { fl with journal := { j with
            gather := j.gather ++ [⟨t, key, (bytesOfWords (wordsAt s' a n)).take len, false⟩] } }
        else use 0x16 fl) ∧
    (Begins c (.jcommit c f) v s0 s' → up → f.rd = 0 → f.ra = 0 → f.rb = 0 → s'.may t capJwAny = true →
      (j.st = .off → exec (.jcommit c f) s = ret 0x10 0 fl) ∧
      (j.st = .run ∨ j.st = .held → exec (.jcommit c f) s = ret 0x13 0 fl) ∧
      (j.st = .ready → (∀ g ∈ j.gather, g.ten ≠ t) → exec (.jcommit c f) s = ret 0x00 0 fl) ∧
      (j.st = .ready → (∃ g ∈ j.gather, g.ten = t) → ∃ u, exec (.jcommit c f) s = ret 0x01 0 u ∧
        u.journal.st = .run ∧ u.mem = s'.mem ∧ u.journal.index = j.index ∧
        u.journal.gather = j.gather.map (fun g => if g.ten = t then { g with busy := true } else g) ∧
        ∃ o, u.journal.op = some o ∧ o.kind = .commit false ∧ o.ten = t ∧ o.susp = none)) ∧
    (Begins c (.jget c f) v s0 s' → gup → j.st = .off → exec (.jget c f) s = ret 0x10 0 fl) ∧
    (Begins c (.jget c f) v s0 s' → gup → j.st = .held → exec (.jget c f) s = ret 0x13 0 fl) ∧
    (Begins c (.jget c f) v s0 s' → gup → j.st = .ready ∨ j.st = .run → (∀ e ∈ j.index, e.key ≠ gkey ∨ e.len = 0) →
      exec (.jget c f) s = .next (retire c t 0x00 (fun q => q.wr f.rd 0xFFFFFFFF) s'.base fl)) ∧
    (∀ e, Begins c (.jget c f) v s0 s' → gup → j.st = .ready ∨ j.st = .run →
      j.index.find? (fun e => e.key == gkey && e.len != 0) = some e →
      let o := j.base * 4096 + e.off
      let size := 8 + 4 * ((e.len + 3) / 4)
      let raw := memGets s'.mem (0x08000000 + o) size
      let good := crc32c (raw.take (size - 4)) = wordOfBytes (raw.drop (size - 4))
      (lim < e.len → exec (.jget c f) s = ret 0x16 0 fl) ∧
      (e.len ≤ lim → good → ∃ u n, exec (.jget c f) s = .next (retire c t 0x00 (fun q => q.wr f.rd (BitVec.ofNat 32 e.len)) n u) ∧
        u.mem = memPuts s'.mem b ((raw.drop 4).take e.len) ∧ u.journal = j ∧ u.cores = s'.cores) ∧
      (e.len ≤ lim → ¬ good → ∃ u n, exec (.jget c f) s = .next (retire c t 0x18 id n u) ∧ u.mem = s'.mem ∧
        u.journal = { j with ncrc := satInc j.ncrc } ∧ u.cores = s'.cores))

/-- R451 to R454, R476: JPROG, JERASE and the two steps of SEAL, once the journal's own events of the clock have acted
(R95). A programming or an erase that passes its checks starts with ST_PENDING and its Max time; the arming step is
remembered with its time, and the second step within 192,000,000 ticks of it starts the burn when the key block is not
blank. So each of these completes: jprog, jerase, sealArm, sealBurn. -/
def Obligations.FlashInstructions : Prop :=
  ∀ (c : CoreId) (v : Inv) (s s' : State) (f : UForm), f.inst = 0 → v.tenant = 0 → f.rd = 0 → f.rb = 0 →
    let j := s'.journal
    let a := ((s'.regs c).rd f.ra).toNat
    let off := (wordSeen s' a).toNat
    let src := (wordSeen s' (a + 4)).toNat
    let len := (wordSeen s' (a + 8)).toNat
    let s0 := ownFirst journalFirst s
    let fl := { s' with sleep := { s'.sleep with flashUse := s'.time.phys } }
    let bs := bytesOfWords (wordsAt s' src (len / 4))
    let use (banks : List Nat) (st : BitVec 8) (n : Nat) (u : State) : Host.Outcome State Fault Refusal :=
      .next (retireUsing c v banks s0 st id (s'.base + n) u)
    let both := blockBanks a 3 ++ blockBanks src (len / 4)
    let up := s'.hasFailed .journal = false ∧ s'.hasFailed .flash = false ∧ j.st ≠ .fault ∧
      (j.st = .held ∨ waitsFor .journal s' = none)
    let ret (st : BitVec 8) (n : Nat) (u : State) : Host.Outcome State Fault Refusal :=
      .next (retire c 0 st id (s'.base + n) u)
    let busy (st : UState) := st = .run ∨ st = .held
    let area (o n : Nat) := j.nsec ≠ 0 ∧ o < (j.base + j.nsec + 2) * 4096 ∧ j.base * 4096 < o + n
    let started (k : JKind) (u : State) := u.journal.st = .run ∧ u.mem = s'.mem ∧ u.cores = s'.cores ∧
      ∃ o, u.journal.op = some o ∧ o.kind = k ∧ o.ten = 0 ∧ o.susp = none
    let sealing (i : Instr) : Prop := Begins c i v s0 s' → up →
      (busy j.st → exec i s = ret 0x13 0 fl) ∧
      (¬ busy j.st → j.sealed = true ∨ j.burn ≠ none → exec i s = ret 0x17 0 fl) ∧
      (¬ busy j.st → j.sealed = false → j.burn = none →
        (a = 0x5EA1 → exec i s = ret 0x00 0 { fl with journal := { j with arm := some s'.time.hive } }) ∧
        (∀ m, a = 0x1AE5 → j.arm = some m → s'.time.hive - m ≤ 192000000 →
          exec i s = if blank s' 0x7FFF00 0x80 then ret 0x16 0 fl
            else ret 0x01 0 { fl with journal := { j with arm := none, burn := some s'.time.phys } }) ∧
        ((a ≠ 0x5EA1 ∧ a ≠ 0x1AE5) ∨ (a = 0x1AE5 ∧ ∀ m, j.arm = some m → 192000000 < s'.time.hive - m) →
          exec i s = ret 0x10 0 { fl with journal := { j with arm := none } }))
    (Begins c (.jprog c f) v s0 s' → up → blockOk 0 a 3 = true → CleanAt s' a 3 →
      (j.st = .off → exec (.jprog c f) s = ret 0x10 0 fl) ∧ (busy j.st → exec (.jprog c f) s = ret 0x13 0 fl) ∧
      (j.st = .ready → (off % 4 ≠ 0 ∨ len < 4 ∨ 256 < len ∨ len % 4 ≠ 0 ∨ 0x800000 < off + len ∨ blockOk 0 src (len / 4) = false) →
        exec (.jprog c f) s = use (blockBanks a 3) 0x16 3 fl) ∧
      (j.st = .ready → off % 4 = 0 → 4 ≤ len → len ≤ 256 → len % 4 = 0 → blockOk 0 src (len / 4) = true → CleanAt s' src (len / 4) →
        off + len ≤ 0x800000 → (v.bind = none ∨ (s'.regs c).pc.toNat < 0x08000000 ∨ 0x08800000 ≤ (s'.regs c).pc.toNat) →
        (¬ (off < 0x400000 ∧ 0x3FF000 < off + len)) → off + len ≤ 0x7FF000 →
        (area off len → exec (.jprog c f) s = use both 0x16 (3 + len / 4) fl) ∧
        (¬ area off len → ∃ u, exec (.jprog c f) s = use both 0x01 (3 + len / 4) u ∧ started .prog u ∧
          ∃ o, u.journal.op = some o ∧
            o.steps = (if off % 256 + len ≤ 256 then [JStep.prog off bs]
              else [JStep.prog off (bs.take (256 - off % 256)), JStep.prog (off + (256 - off % 256)) (bs.drop (256 - off % 256))])))) ∧
    (Begins c (.jerase c f) v s0 s' → up →
      (j.st = .off → exec (.jerase c f) s = ret 0x10 0 fl) ∧ (busy j.st → exec (.jerase c f) s = ret 0x13 0 fl) ∧
      (j.st = .ready → (a % 4096 ≠ 0 ∨ 0x800000 ≤ a ∨ area a 4096 ∨ a / 4096 = 1023 ∨ a / 4096 = 2047) →
        exec (.jerase c f) s = ret 0x16 0 fl) ∧
      (j.st = .ready → ¬ (a % 4096 ≠ 0 ∨ 0x800000 ≤ a ∨ area a 4096 ∨ a / 4096 = 1023 ∨ a / 4096 = 2047) →
        (v.bind = none ∨ (s'.regs c).pc.toNat < 0x08000000 ∨ 0x08800000 ≤ (s'.regs c).pc.toNat) →
        ∃ u, exec (.jerase c f) s = ret 0x01 0 u ∧ started .erase u ∧
          ∃ o, u.journal.op = some o ∧ o.steps = [.erase a] ∧ o.limit = s'.time.phys + 23040000)) ∧
    sealing (.sealArm c f) ∧ sealing (.sealBurn c f)

/-- R450, R455, R456, R458: the end of a JPROG or a JERASE. A programming leaves the AND of old and new content and an
erase 0xFF, in its range alone; it raises 0xA8 with its KIND and frees the journal. One that has not ended by its Max
time ends with ST_TIMEOUT, and its bytes outside the range are unchanged; a suspended one goes on 5 microseconds after
the last read it waits for, and its time grows by the suspension. So each of these completes: flashOpDone,
flashOpTimeout, flashOpResume, gcStep, checkpointWrite. -/
def Obligations.FlashOperationEnds : Prop :=
  ∀ (s : State) (o : JOp), Memory.wf s.mem = true → s.running = true → s.journal.op = some o → s.therm.stop = none →
    Instr.flashOpDone ∉ s.early → Instr.flashOpTimeout ∉ s.early →
    let j := s.journal
    let told (u : State) (k : Nat) (st : Nat) (ks : List JStep) : Prop :=
      ∃ w : State, u = w.event 0xA8 (BitVec.ofNat 32 (st + o.ten.val * 256 + k * 2 ^ 28)) s.time.hive ∧
        w.journal = { j with st := .ready, op := none } ∧ w.cores = s.cores ∧
        (∀ p, (∀ x ∈ ks, ∀ m n, x.span = (m, n) → ¬ (0x08000000 + m ≤ p ∧ p < 0x08000000 + m + n)) →
          memGet w.mem p = memGet s.mem p)
    (∀ off bs, o.kind = .prog → o.suspended s.time.phys = false → o.steps = [.prog off bs] → s.time.phys ≤ o.limit →
      ∃ u, exec .flashOpDone s = .next u ∧ told u 2 0 o.steps ∧
        (∀ i, i < bs.length → memGet u.mem (0x08000000 + off + i) = memGet s.mem (0x08000000 + off + i) &&& bs.getD i 0)) ∧
    (∀ off, o.kind = .erase → o.suspended s.time.phys = false → o.steps = [.erase off] → s.time.phys ≤ o.limit →
      ∃ u, exec .flashOpDone s = .next u ∧ told u 3 0 o.steps ∧
        (∀ i, i < 4096 → memGet u.mem (0x08000000 + off + i) = 0xFF)) ∧
    (o.kind = .prog ∨ o.kind = .erase → o.suspended s.time.phys = false → o.limit < s.time.phys →
      exec .flashOpDone s = .next s ∧
      ∃ u, exec .flashOpTimeout s = .next u ∧ told u (if o.kind = .prog then 2 else 3) 0x19 o.steps) ∧
    (∀ x, o.susp = some x → (x.at_ ≤ s.time.phys → exec .flashOpDone s = .next s) ∧
      exec .flashOpResume s = .next (
        if x.until_ ≤ s.time.phys then { s with journal := { j with
          op := some { o with susp := none, limit := o.limit + (s.time.phys - x.at_), resumed := s.time.phys } } } else s)) ∧
    exec .gcStep s = .next s ∧ exec .checkpointWrite s = .next s

/-- R466, R469, R471, R474, R476: the journal's own events. A commit that has a place becomes visible as a whole: its
records leave the gather buffer, NCOMMIT and GSEQ count and 0xA8 KIND 1 is raised in the next clock; with no live record
in the tail, garbage collection erases it; a checkpoint that is due changes its own sector alone; a scan's end, within
its Max time and no sooner than its length, makes the journal READY (R140, R155); a burn ends after 2 ms with the device
sealed; an arming step expires. So each of these completes: commitDone, flashOpDone, flashOpResume, gcStep,
checkpointWrite, scanEnd, scanStart, sealBurnDone, sealArmExpiry. -/
def Obligations.JournalEvents : Prop :=
  ∀ (s : State), Memory.wf s.mem = true → s.running = true → s.therm.stop = none → s.early = [] →
    let j := s.journal
    let quiet := j.st = .ready ∧ j.op = none ∧ j.hold = false
    (∀ o, j.op = some o → o.kind = .commit false → o.suspended s.time.phys = false → o.steps ≠ [] →
      ∃ u w : State, exec .commitDone s = .next u ∧
        u = w.eventNext 0xA8 (BitVec.ofNat 32 (o.ten.val * 256 + (j.gather.filter (·.busy)).length % 256 * 2 ^ 16 + 2 ^ 28)) ∧
        u.journal.st = .ready ∧ u.journal.op = none ∧ u.journal.gather = j.gather.filter (fun g => !g.busy) ∧
        u.journal.ncommit = j.ncommit + 1 ∧ u.journal.gseq = (j.gseq + 1) % 2 ^ 32 ∧
        (∀ g ∈ j.gather, g.busy = true → ∃ e ∈ u.journal.index, e.key = g.key)) ∧
    (j.op = none → exec .commitDone s = .next s ∧ exec .flashOpDone s = .next s ∧ exec .flashOpResume s = .next s) ∧
    (∀ t0 t1 r, quiet → j.gc = true → j.secs = t0 :: t1 :: r → (∀ e ∈ j.index, e.off / 4096 = t0 → e.len = 0) →
      ∃ u, exec .gcStep s = .next u ∧ u.journal.gc = false ∧ u.journal.secs = (t0 :: t1 :: r).filter (· != t0) ∧
        u.journal.index = j.index.filter (fun e => e.off / 4096 != t0) ∧
        (∀ i, i < 4096 → memGet u.mem (0x08000000 + (j.base + t0) * 4096 + i) = 0xFF) ∧
        (∀ p, ¬ (0x08000000 + (j.base + t0) * 4096 ≤ p ∧ p < 0x08000000 + (j.base + t0 + 1) * 4096) →
          memGet u.mem p = memGet s.mem p)) ∧
    (quiet → j.ckDue = true → ∃ u k, exec .checkpointWrite s = .next u ∧ k < 2 ∧ j.ckCur ≠ some k ∧
      u.journal.ckCur = some k ∧ u.journal.ckDue = false ∧ u.journal.sinceCk = 0 ∧ u.journal.index = j.index ∧
      (j.index.length ≤ 508 → ∀ p, ¬ (0x08000000 + (j.base + j.nsec + k) * 4096 ≤ p ∧
        p < 0x08000000 + (j.base + j.nsec + k + 1) * 4096) → memGet u.mem p = memGet s.mem p)) ∧
    (quiet → j.ckDue = false → exec .checkpointWrite s = .next s) ∧
    (∀ p, j.st = .held → j.scan = some p → s.hasFailed .journal = false → p + scanTicks j ≤ s.time.phys →
      s.time.phys ≤ scanMax s p → ∃ u w : State, exec .scanEnd s = .next u ∧ u = w.event 0xA8 0x40000000 s.time.hive ∧
      u.journal.st = .ready ∧ u.journal.scan = none ∧ u.journal.ckDue = true ∧ u.isReady .journal = true ∧ u.mem = s.mem) ∧
    (∀ p, j.scan = some p → (s.time.phys < p + scanTicks j ∨ scanMax s p < s.time.phys) → exec .scanEnd s = .next s) ∧
    (s.boot.mode = true → s.loader = none → s.boot.phase = .done → j.st = .held → j.scan = none →
      exec .scanStart s = .next { s with journal := { j with scan := some s.time.phys } }) ∧
    (∀ p, j.burn = some p → exec .sealBurnDone s = .next (
      if p + 384000 ≤ s.time.phys then
        { s with journal := { j with burn := none, sealed := true } }.event 0xA8 0x50000000 s.time.hive
      else s)) ∧
    (∀ m, j.arm = some m → exec .sealArmExpiry s = .next (
      if 192000000 < s.time.hive - m then { s with journal := { j with arm := none } } else s))

/-! ## The hive fabric (chapter 15) -/

/-- Table 1.6 row HIVE, with R410, R411, R412, R421, R427: joining, leaving, mapping a fabric port and writing a route
entry, once the hive's own events of the clock have acted (R95). FJOIN with good fields enters READY with no address, no
trim and FCSTART as the next frame counter; FLEAVE ends every message with reason LEFT and leaves nothing of the leases,
routes and mappings. So each of these completes: fjoin, fleave, frecv, froute, frouteInval. -/
def Obligations.HiveInstructions : Prop :=
  ∀ (c : CoreId) (v : Inv) (s s' : State) (f : UForm),
    let s0 := ownFirst hiveFirst s
    let t := v.tenant
    let h := s'.hive
    let r := s'.regs c
    let a := (r.rd f.ra).toNat
    let b := (r.rd f.rb).toNat
    let ws := wordsAt s' a 4
    let up := s'.hasFailed .radio = false ∧ h.st ≠ .fault
    let ret (st : BitVec 8) (n : Nat) (u : State) : Host.Outcome State Fault Refusal :=
      .next (retire c t st id (s'.base + n) u)
    let use (banks : List Nat) (st : BitVec 8) (n : Nat) (u : State) : Host.Outcome State Fault Refusal :=
      .next (retireUsing c v banks s0 st id (s'.base + n) u)
    let port : BitVec 8 := BitVec.ofNat 8 a
    let q : QueueId := ⟨b % 64, Nat.mod_lt _ (by decide)⟩
    let w := wordSeen s' b
    let d := a % 128
    let entry : Route := if w.getLsbD 12 then ⟨w.truncate 7, w.getLsbD 7, w.extractLsb' 8 3, w.getLsbD 11, true⟩
      else Route.none
    let good := w.toNat < 2 ^ 13 ∧ (w.getLsbD 12 = true → w.toNat % 128 ≠ 0 ∧ w.toNat % 128 ≠ 127 ∧
      1 ≤ w.toNat / 256 % 8 ∧ w.toNat / 256 % 8 ≤ 4)
    let routed (i : Instr) (inval : Bool) : Prop := Begins c i v s0 s' → up → t = 0 → f.rd = 0 → s'.isReady .radio = true →
      blockOk 0 b 1 = true → CleanAt s' b 1 →
      (d = 0 ∨ d = 127 ∨ ¬ good → exec i s = use (blockBanks b 1) 0x16 1 s') ∧
      (d ≠ 0 → d ≠ 127 → good → ∃ u, exec i s = use (blockBanks b 1) 0x00 1 u ∧ vgetD u.hive.routes d Route.none = entry ∧
        (∀ e, e ≠ d → vgetD u.hive.routes e Route.none = vgetD h.routes e Route.none) ∧
        (inval = false → u.hive.cache = h.cache) ∧
        (inval = true → ∀ k, vget u.hive.cache k = { vget h.cache k with
          valid := (vget h.cache k).valid && decide ((vget h.cache k).dest.toNat ≠ d) }) ∧ u.mem = s'.mem)
    (Begins c (.fjoin c f) v s0 s' → up → f.inst = 0 → f.rd = 0 → f.rb = 0 → s'.may t capFabric = true →
      blockOk t a 4 = true → blockMay s' t a 4 = true → CleanAt s' a 4 → waitsFor .radio s' = none → h.leaving = none →
      (h.st ≠ .off → exec (.fjoin c f) s = ret 0x10 0 s') ∧
      (h.st = .off → joinOk ws = false → exec (.fjoin c f) s = use (blockBanks a 4) 0x16 4 s') ∧
      (h.st = .off → joinOk ws = true → (wordAt ws 0).getLsbD 24 = false → (wordAt ws 0).toNat / 2 ^ 22 % 4 = 0 →
        ∃ u, exec (.fjoin c f) s = use (blockBanks a 4) 0x01 4 u ∧ u.hive.st = .ready ∧ u.hive.join = ws ∧ u.hive.owner = t ∧
          u.hive.addr = 0 ∧ u.hive.claimAt = s'.time.hive + 19200000 ∧ u.hive.fc = (wordAt ws 3).toNat ∧
          u.hive.nbrs = [] ∧ u.hive.freq = ⟨0, 1⟩ ∧ (∃ e, u.hive.txq = [e] ∧ e.f.typ = 3 ∧ e.f.hleft = 0 ∧ e.f.src = .own) ∧
          u.mem = s'.mem)) ∧
    (Begins c (.fleave c f) v s0 s' → up → f.inst = 0 → f.rd = 0 → f.ra = 0 → f.rb = 0 → s'.may t capFabric = true →
      s'.isReady .radio = true →
      (h.st = .off → exec (.fleave c f) s = ret 0x10 0 s') ∧
      (h.st ≠ .off → ∃ u, exec (.fleave c f) s = ret 0x00 0 u ∧ u.hive.st = .off ∧ u.hive.addr = 0 ∧ u.hive.msgs = [] ∧
        u.hive.fmap = [] ∧ (∀ e, vgetD u.hive.routes e Route.none = Route.none) ∧ (∀ k, vget u.hive.leases k = none))) ∧
    (Begins c (.frecv c f) v s0 s' → up → f.inst = 0 → f.rd = 0 → waitsFor .radio s' = none →
      s'.may t (capFp (a % 256)) = true → (b / 64 % 2 = 1 ∨ s'.may t (capQueue (b % 64)) = true) →
      let mine := t = 0 ∨ ∀ m ∈ h.fmap, m.port = port → m.owner = t
      let kept := h.fmap.filter (fun m => m.port != port)
      ((h.st = .off ∨ h.st = .ready) → exec (.frecv c f) s = ret 0x10 0 s') ∧
      ((h.st = .run ∨ h.st = .held) →
        (¬ mine → exec (.frecv c f) s = ret 0x10 0 s') ∧
        (mine → b = 64 → exec (.frecv c f) s = ret 0x00 0 { s' with hive := { h with fmap := kept } }) ∧
        (mine → b < 64 → exec (.frecv c f) s =
          if (s'.queue q).prod = 2 then ret 0x00 0 { s' with hive := { h with fmap := kept ++ [⟨port, q, t⟩] } }
          else ret 0x16 0 s') ∧
        (mine → 128 ≤ b → exec (.frecv c f) s = ret 0x16 0 s'))) ∧
    (f.inst = 0 → routed (.froute c f) false) ∧ (f.inst = 1 → routed (.frouteInval c f) true)

/-- R423, R424, R446: FSEND, with and without WAG, in RUN, once the hive's own events of the clock have acted (R95). A
destination with no route answers ST_LINK and its only side effect is LINKWHY; one whose link is up enters the transmit
buffer with ST_PENDING and its frame joins the link's queue; a WAG message starts its burst. So each of these completes:
fsend, waggleBurst. -/
def Obligations.HiveMessages : Prop :=
  ∀ (c : CoreId) (v : Inv) (s s' : State) (f : UForm) (i : Instr), i = .fsend c f ∨ i = .waggleBurst c f →
    f.inst = 0 → f.rd = 0 → f.rb = 0 → Begins c i v (ownFirst hiveFirst s) s' →
    let t := v.tenant
    let h := s'.hive
    let a := ((s'.regs c).rd f.ra).toNat
    let ws := wordsAt s' a 4
    let w0 := (wordAt ws 0).toNat
    let len := (wordAt ws 2).toNat % 32
    let src := (wordAt ws 1).toNat
    let dest := w0 % 128
    let use (banks : List Nat) (st : BitVec 8) (n : Nat) (u : State) : Host.Outcome State Fault Refusal :=
      .next (retireUsing c v banks (ownFirst hiveFirst s) st id (s'.base + n) u)
    let one := blockBanks a 4
    let both := one ++ blockBanks src len
    s'.hasFailed .radio = false → h.st ≠ .fault → waitsFor .radio s' = none → s'.may t capFabric = true →
    blockOk t a 4 = true → blockMay s' t a 4 = true → CleanAt s' a 4 → s'.may t (capFp (w0 / 256 % 256)) = true →
    (h.st ≠ .run → exec i s = .next (retire c t 0x10 id s'.base s')) ∧
    (h.st = .run → descOk h ws = false → exec i s = use one 0x16 4 s') ∧
    (h.st = .run → descOk h ws = true → w0 / 2 ^ 28 % 2 = 0 → blockOk t src len = true → blockMay s' t src len = true →
      CleanAt s' src len →
      dest ≠ 127 →
      (peekRoute s' dest = none → exec i s = use both 0x1A (4 + len) { s' with hive := { h with linkwhy := 1 } }) ∧
      (∀ next tl k, peekRoute s' dest = some (next, tl, k) → h.linkUp next tl = false →
        exec i s = use both 0x1A (4 + len) { s' with hive := { h with linkwhy := 2 } }) ∧
      (∀ next k, peekRoute s' dest = some (next, false, k) → h.linkUp next false = true → h.msgs.length < 32 →
        (h.sec = false ∨ h.fc < 2 ^ 32) → ∃ u, exec i s = use both 0x01 (4 + len) u ∧ u.mem = s'.mem ∧
          (∃ m, u.hive.msgs = h.msgs ++ [m] ∧ m.dest = dest ∧ m.e2e = decide (w0 / 128 % 2 = 1) ∧
            m.tag.toNat = (wordAt ws 3).toNat % 2 ^ 16 ∧ m.owner = t ∧
            ∃ e, u.hive.txq = h.txq ++ [e] ∧ e.dst = next ∧ e.ack = true ∧ e.for_ = .msg m.id ∧ e.f.typ = 0 ∧
              e.f.orig = h.addr ∧ e.f.fdest = dest ∧ e.f.hleft = 3 ∧ e.f.body = bytesOfWords (wordsAt s' src len)))) ∧
    (h.st = .run → descOk h ws = true → w0 / 2 ^ 28 % 2 = 0 → blockOk t src len = true → blockMay s' t src len = true →
      CleanAt s' src len →
      h.msgs.length < 32 → (h.sec = false ∨ h.fc < 2 ^ 32) →
      (∀ next k q, dest ≠ 127 → peekRoute s' dest = some (next, true, k) → h.peerAt next = some q → q.up = true →
        ∃ u m, exec i s = use both 0x01 (4 + len) u ∧ u.mem = s'.mem ∧ u.hive.msgs = h.msgs ++ [m] ∧ m.dest = dest ∧
          u.hive.txq = h.txq) ∧
      (dest = 127 → h.radio = true → (∀ q ∈ h.peers, q.up = false) → ∃ u m e, exec i s = use both 0x01 (4 + len) u ∧
        u.hive.msgs = h.msgs ++ [m] ∧ u.hive.txq = h.txq ++ [e] ∧ e.dst = 127 ∧ e.ack = false ∧ e.for_ = .msg m.id ∧
        e.f.hleft = w0 / 2 ^ 24 % 8 - 1)) ∧
    (h.st = .run → descOk h ws = true → w0 / 2 ^ 28 % 2 = 1 → h.msgs.length < 32 → h.fc < 2 ^ 32 → h.burst = none →
      (∀ m ∈ h.msgs, m.wag = none) → ∃ u, exec i s = use one 0x01 4 u ∧ u.mem = s'.mem ∧
        ∃ b, u.hive.burst = some b ∧ b.wch = (wordAt ws 2).toNat / 256 % 256 ∧
          b.left = 4 * ((wordAt ws 2).toNat / 2 ^ 16 % 256) ∧ b.next = s'.time.phys)

/-- R413 to R416, R419, R447: the swarm call and the leases. The first CLAIM chooses PREF when no lease holds it and
else the lowest address that none holds and that has not failed; 140 ms after it the address is held with KIND 1, or,
beaten, the call repeats 1 s later and NCOLL counts. Each CALL is answered with a RENEW of its own. A RENEW renews its
sender's lease for 30 s; a holder of the same address with the higher UID yields it to a DEFEND. So each of these
completes: claimSend, swarmDecide, callRx, renewAnswer, renewSend, claimRx, defendRx, renewRx, leaseExpiry, leaveRx. -/
def Obligations.SwarmEvents : Prop :=
  ∀ (s : State) (fr : RxFrame) (p : RxPkt), s.early = [] →
    let h := s.hive
    let now := s.time.hive
    let taken (x : Nat) : Prop := ∃ l ∈ h.leaseList, l.addr = x
    let claims := s.running = true ∧ (h.st = .ready ∨ h.st = .held)
    let heard (n : Nat) := received fr s = true ∧ classify s fr.psdu = .frame p ∧ p.f.typ = n
    let got := acceptPkt ⟨true, 0, fr.lqi, fr.rssi, now - fr.ago⟩ p s
    let fresh := p.f.htaken ≤ 1
    let who := p.uid.getD p.src
    let b0 := (p.f.body.getD 0 0).toNat % 128
    let sentOn (u : State) (n : Nat) : Prop := h.radio = true → ∃ e ∈ u.hive.txq, e.f.typ = n ∧ e.dst = 0x7F ∧ e.f.src = .own
    let leased (u : State) : Prop := who ≠ uidOf s → b0 ≠ 0 → b0 ≠ 127 → (∃ k, vget h.leases k = none) →
      ∃ l, u.hive.leaseOf who = some l ∧ l.addr = b0 ∧ l.exp = now + 5760000000
    (claims → h.claims < 3 → h.claimAt + h.claims * 3840000 ≤ now → ∃ u, exec .claimSend s = .next u ∧
      u.hive.claims = h.claims + 1 ∧ (h.claims ≠ 0 → u.hive.cand = h.cand) ∧ (u.hive.cand ≠ 0 → sentOn u 4) ∧
      (h.claims = 0 → u.hive.beaten = false ∧ (h.pref ≠ 0 → ¬ taken h.pref → u.hive.cand = h.pref) ∧
        (h.pref = 0 ∨ taken h.pref →
          (u.hive.cand ≠ 0 → u.hive.cand ≤ 126 ∧ ¬ taken u.hive.cand ∧ u.hive.cand ∉ h.failed) ∧
          (∀ x, 1 ≤ x → x ≤ 126 → ¬ taken x → x ∉ h.failed → u.hive.cand ≠ 0 ∧ u.hive.cand ≤ x)))) ∧
    (claims → h.claims = 3 → h.claimAt + 26880000 ≤ now → (h.beaten = true ∨ h.cand = 0) →
      exec .swarmDecide s = .next { s with hive := { h with
        ncoll := satInc h.ncoll, failed := if h.cand = 0 then h.failed else h.cand :: h.failed
        claimAt := h.claimAt + 192000000, claims := 0, cand := 0, beaten := false } }) ∧
    (claims → h.claims = 3 → h.claimAt + 26880000 ≤ now → h.beaten = false → h.cand ≠ 0 →
      ∃ u w : State, exec .swarmDecide s = .next u ∧ u = w.eventLater 0x71 (BitVec.ofNat 32 (h.cand % 128 + 2 ^ 28)) now ∧
        u.hive.st = .run ∧ u.hive.addr = h.cand ∧ sentOn u 6) ∧
    (h.st = .run ∨ h.st = .off → exec .claimSend s = .next s ∧ exec .swarmDecide s = .next s) ∧
    (heard 3 → exec (.callRx fr) s = .next (if h.st = .run then
      { got with hive := { got.hive with renewDue := h.renewDue ++ [now + uidOf s % 50 * 192000] } } else got)) ∧
    (∀ d, s.running = true → h.st = .run → h.renewDue.find? (fun d => decide (d ≤ now)) = some d →
      ∃ u, exec .renewAnswer s = .next u ∧ u.hive.renewDue = h.renewDue.erase d ∧ sentOn u 6) ∧
    (s.running = true → h.st = .run → h.addr * 15000000 ≤ now →
      let n := (now - h.addr * 15000000) / 1920000000 + 1
      if h.renewIx = n then exec .renewSend s = .next s
      else ∃ u, exec .renewSend s = .next u ∧ u.hive.renewIx = n ∧ sentOn u 6) ∧
    (heard 4 → fresh → ∃ u, exec (.claimRx fr) s = .next u ∧ leased u ∧ u.hive.st = h.st ∧ u.hive.addr = h.addr ∧
      (h.st = .run → b0 = h.addr → who ≠ uidOf s → sentOn u 5) ∧
      (h.st ≠ .run → h.claims ≠ 0 → b0 = h.cand → who < uidOf s → u.hive.beaten = true)) ∧
    (heard 5 → fresh → ∃ u, exec (.defendRx fr) s = .next u ∧ leased u ∧
      (h.st = .run → b0 = h.addr → who < uidOf s → u.hive.st = .held ∧ u.hive.addr = 0 ∧ u.hive.claims = 0) ∧
      (h.st ≠ .run → h.claims ≠ 0 → b0 = h.cand → who ≠ uidOf s → u.hive.beaten = true)) ∧
    (heard 6 → fresh → 13 ≤ p.f.body.length → who ≠ uidOf s → ∃ u, exec (.renewRx fr) s = .next u ∧ leased u ∧
      (h.lqimin ≤ fr.lqi.toNat → b0 ≠ 0 → b0 ≠ 127 → u.hive.nbrUp b0 = true) ∧
      (h.st = .run → b0 = h.addr → who < uidOf s → u.hive.st = .held ∧ u.hive.addr = 0)) ∧
    (∀ (k : Fin 128) (l : Lease), vgetD h.leases k.val none = some l → h.leaseOf l.uid = some l → s.running = true →
      l.exp ≤ now → ∃ u, exec (.leaseExpiry k) s = .next u ∧ u.hive.leaseOf l.uid = none ∧ u.hive.nbrUp l.addr = false ∧
        (∀ x ∈ u.hive.cands, x.next ≠ l.addr)) ∧
    (heard 10 → fresh → ∀ l, h.leaseAt p.f.orig = some l → h.leaseOf l.uid = some l → ∃ u, exec (.leaveRx fr) s = .next u ∧
      u.hive.leaseOf l.uid = none ∧ u.hive.nbrUp l.addr = false)

/-- R420, R422: routes. ROUTEADV goes to each neighbour 10 s after the last or after a change; what a neighbour
advertises within 4 hops becomes a candidate through it, confirmed now; a candidate not confirmed for 35 s goes, and a
cache line 2.0 s after its fill. So each of these completes: routeadvSend, routeadvRx, routeExpiry, cacheLineExpiry,
foreignFrameRx. -/
def Obligations.RouteEvents : Prop :=
  ∀ (s : State) (fr : RxFrame) (p : RxPkt) (a : Fin 128) (k : Fin 32), s.early = [] →
    let h := s.hive
    let now := s.time.hive
    let l := vget h.cache k
    let old (x : RouteCand) : Bool := x.dest == a.val && decide (x.seen + 6720000000 ≤ now)
    (s.running = true → h.st = .run → h.advNew = true ∨ h.advAt + 1920000000 ≤ now →
      ∃ u, exec .routeadvSend s = .next u ∧ u.hive.advNew = false ∧ u.hive.advAt = now ∧ u.hive.routes = h.routes ∧
        ∀ n ∈ h.nbrs, ∃ e ∈ u.hive.txq, e.f.typ = 7 ∧ e.dst = n.addr ∧ e.ack = true ∧ e.f.hleft = 0) ∧
    (h.advNew = false → now < h.advAt + 1920000000 → exec .routeadvSend s = .next s) ∧
    (received fr s = true → classify s fr.psdu = .frame p → p.f.typ = 7 → p.ext = false → h.nbrUp p.src = true →
      ∃ u, exec (.routeadvRx fr) s = .next u ∧
        (∃ x ∈ u.hive.cands, x.dest = p.src ∧ x.next = p.src ∧ x.tlink = false ∧ x.hops = 1 ∧ x.seen = now) ∧
        (∀ e ∈ advEntries p.f.body, e.1 ≠ 0 → e.1 ≠ 127 → e.1 ≠ h.addr → e.1 ≠ p.src → e.2 ≤ 3 →
          ∃ x ∈ u.hive.cands, x.dest = e.1 ∧ x.next = p.src ∧ x.tlink = false ∧ x.seen = now) ∧
        (∀ x ∈ u.hive.cands, x ∈ h.cands ∨ (x.next = p.src ∧ x.hops ≤ 4 ∧ x.dest ≠ h.addr ∨ x.dest = p.src))) ∧
    (s.running = true → (∃ x ∈ h.cands, old x = true) → ∃ u, exec (.routeExpiry a) s = .next u ∧
      u.hive.cands = h.cands.filter (fun x => !old x) ∧
      (∀ d, d ≠ a.val → vgetD u.hive.routes d Route.none = vgetD h.routes d Route.none)) ∧
    ((∀ x ∈ h.cands, old x = false) → exec (.routeExpiry a) s = .next s) ∧
    (exec (.cacheLineExpiry k) s = .next (
      if s.running = true ∧ l.valid = true ∧ l.fill + 384000000 ≤ now then
        { s with hive := { h with cache := vset h.cache k { l with valid := false } } }
      else s)) ∧
    (received fr s = true → classify s fr.psdu = .foreign →
      exec (.foreignFrameRx fr) s = .next { s with hive := { h with nforeign := satInc h.nforeign } }) ∧
    (received fr s = true → ∀ i ∈ [Instr.dataRx fr, .nackRx fr, .delivRx fr, .callRx fr, .claimRx fr, .defendRx fr,
        .renewRx fr, .routeadvRx fr, .sreqRx fr, .srespRx fr, .leaveRx fr],
      (classify s fr.psdu = .mic → exec i s = .next { s with hive := { h with nmic := satInc h.nmic } }) ∧
      (classify s fr.psdu = .replay → exec i s = .next { s with hive := { h with nreplay := satInc h.nreplay } }) ∧
      (classify s fr.psdu = .foreign ∨ classify s fr.psdu = .ignore → exec i s = .next s))

/-- R417, R425 to R429, R436, R437, R446: frames and messages. A frame goes on air once its backoff and its CCA are
over, if the energy found is not above CCATHR (R409). So each of these completes: frameTransmit, floodRelay, macAckRx,
macAckTimeout, dataRx, nackRx, delivRx, e2eTimeout, waggleFrame, captureSwitch. -/
def Obligations.MessageEvents : Prop :=
  ∀ (s : State) (fr : RxFrame) (p : RxPkt) (e : TxEnt) (rest : List TxEnt) (db : Nat) (dbm : Int), s.early = [] →
    let h := s.hive
    let heard (n : Nat) := received fr s = true ∧ classify s fr.psdu = .frame p ∧ p.f.typ = n
    let got := acceptPkt ⟨true, 0, fr.lqi, fr.rssi, s.time.hive - fr.ago⟩ p s
    let mine := s.running = true ∧ h.st = .run ∧ p.f.fdest = h.addr ∧ h.addr ≠ 0x7F
    let clear := dbm ≤ -100 + (h.ccathr : Int)
    let first := h.txq = e :: rest ∧ radioFree s = true ∧ h.on = true ∧ ∃ t, e.ready = some t ∧ t ≤ s.time.phys
    let ended (u : State) (m : HMsg) (st why : Nat) : Prop := ∃ w : State,
      u = w.eventLater 0x70 (BitVec.ofNat 32 (m.tag.toNat + st * 2 ^ 16 + why * 2 ^ 24 + 2 ^ 28)) s.time.hive ∧
      ∀ x ∈ u.hive.msgs, x.id ≠ m.id
    (first → clear → h.fc < 2 ^ 32 → e.ack = true → ∃ u n, exec (.frameTransmit dbm) s = .next u ∧ u.hive.txq = rest ∧
      u.hive.await = some (e, n) ∧ u.hive.ntx = satInc h.ntx ∧ u.hive.air.start = s.time.phys + 36864 ∧
      n = u.hive.busyTo + (if h.hr then 104448 else 165888)) ∧
    (first → clear → h.fc < 2 ^ 32 → e.ack = false → ∃ u, exec (.frameTransmit dbm) s = .next u ∧ u.hive.txq = rest ∧
      u.hive.sending = some (e.dst == 0x7F, e.for_, u.hive.busyTo) ∧ u.hive.ntx = satInc h.ntx ∧
      u.hive.air.start = s.time.phys + 36864 ∧ u.hive.air.ch = h.ch ∧ u.hive.air.hr = h.hr) ∧
    (first → ¬ clear → exec (.frameTransmit dbm) s =
      if e.nb < h.maxbo then .next { s with hive := { h with
        txq := { e with nb := e.nb + 1, be := min (e.be + 1) h.maxbe, ready := none } :: rest } }
      else if e.dst = 0x7F then .next { s with hive := { h with
        txq := { e with nb := 0, be := h.minbe, ready := none } :: rest } }
      else .next (frameFailed e.f e.for_ 2 { s with hive := { h with txq := rest } })) ∧
    (h.txq = [] → exec (.frameTransmit dbm) s = .next s) ∧
    (∀ r, s.running = true → h.on = true → h.relays.find? (fun r => decide (r.due ≤ s.time.hive)) = some r →
      ∃ u, exec .floodRelay s = .next u ∧ u.hive.relays = h.relays.erase r ∧
        (h.radio = true → ∃ x, u.hive.txq = h.txq ++ [x] ∧ x.f = r.f ∧ x.dst = 0x7F ∧ x.ack = false)) ∧
    (∀ n q, h.await = some (e, n) → readPsdu fr.psdu = .ack q → s.running = true → h.on = true → fr.hr = h.hr → h.busyTo ≤ s.time.phys →
      s.time.phys ≤ n →
      (q ≠ e.seq → exec (.macAckRx fr) s = .next s) ∧
      (q = e.seq → ∃ u, exec (.macAckRx fr) s = .next u ∧ u.hive.await = none ∧ u.hive.nrx = satInc h.nrx ∧
        (∀ m, e.for_ = .msg m.id → h.msgs.find? (fun x => x.id == m.id) = some m → m.e2e = false → ended u m 0 0))) ∧
    (∀ n, h.await = some (e, n) → s.running = true → n ≤ s.time.phys →
      (e.tries < h.retry → ∃ u x, exec .macAckTimeout s = .next u ∧ u.hive.await = none ∧ u.hive.nretry = satInc h.nretry ∧
        u.hive.txq = x :: h.txq ∧ x.tries = e.tries + 1 ∧ x.f = e.f ∧ x.dst = e.dst) ∧
      (h.retry ≤ e.tries → ∃ u, exec .macAckTimeout s = .next u ∧ u.hive.await = none ∧
        (∀ m, e.for_ = .msg m.id → h.msgs.find? (fun x => x.id == m.id) = some m → ended u m 0x1A 2))) ∧
    (heard 0 → h.st ≠ .run → p.f.fdest ≠ 0x7F → exec (.dataRx fr) s = .next got) ∧
    (∀ m item, heard 0 → mine → p.f.e2e = false → h.fmap.find? (fun m => m.port == p.f.dport) = some m →
      (s.queue m.queue).st = .run → (s.queue m.queue).prod = 2 →
      item = messageItem ⟨true, 0, fr.lqi, fr.rssi, s.time.hive - fr.ago⟩ p → item.length ≤ (s.queue m.queue).cred →
      ∃ u, exec (.dataRx fr) s = .next u ∧ (u.queue m.queue).fill = (s.queue m.queue).fill ++ item ∧
        (u.queue m.queue).cred = (s.queue m.queue).cred - item.length) ∧
    (heard 0 → h.st = .run → p.f.fdest = 0x7F → p.f.orig ≠ h.addr → p.f.htaken ≤ 1 → h.fmap = [] →
      ∃ u, exec (.dataRx fr) s = .next u ∧ u.hive.nrxdrop = satInc h.nrxdrop) ∧
    (heard 1 → mine → 4 ≤ p.f.body.length → ∃ u, exec (.nackRx fr) s = .next u ∧
      u.hive.nackFrom = BitVec.ofNat 7 (p.f.body.getD 1 0).toNat ∧ u.hive.nackWhy = p.f.body.getD 0 0 ∧
      u.hive.nackTag = BitVec.ofNat 16 ((p.f.body.getD 2 0).toNat + 256 * (p.f.body.getD 3 0).toNat)) ∧
    (∀ m, heard 2 → mine → h.msgs.find? (fun m => m.e2e && m.tag == p.f.mseq && m.sentAt.isSome && (m.dest == p.f.orig)) = some m →
      h.msgs.find? (fun x => x.id == m.id) = some m → ∃ u, exec (.delivRx fr) s = .next u ∧ ended u m 0 0) ∧
    (∀ m, s.running = true → h.msgs.find? (fun m => m.e2e && (match m.sentAt with
        | some t => decide (t + 192000000 ≤ s.time.hive) | none => false)) = some m →
      h.msgs.find? (fun x => x.id == m.id) = some m → ∃ u, exec .e2eTimeout s = .next u ∧ ended u m 0x19 0) ∧
    (∀ b, h.burst = some b → s.running = true → s.isReady .radio = true →
      (s.time.phys < b.next → exec .waggleFrame s = .next s) ∧
      (b.next ≤ s.time.phys → b.left ≠ 0 → h.fc < 2 ^ 32 → ∃ u, exec .waggleFrame s = .next u ∧
        u.hive.burst = some { b with left := b.left - 1, next := b.next + 384000 } ∧ u.hive.ntx = satInc h.ntx ∧
        u.hive.air.start = s.time.phys ∧ u.hive.air.ch = b.wch % 16) ∧
      (b.next ≤ s.time.phys → b.left = 0 → ∀ m, h.msgs.find? (fun x => x.id == b.id) = some m →
        ∃ u, exec .waggleFrame s = .next u ∧ (∀ x ∈ u.hive.msgs, x.id ≠ m.id) ∧ u.hive.burst ≠ some b)) ∧
    (exec (.captureSwitch db) s = .next (if listening s = true ∧ h.capen = true ∧ h.capthr ≤ db then
      { s with hive := { h with ncapt := satInc h.ncapt, exch := h.exch.map (fun e => { e with spoiled := true }) } } else s))

/-- R432 to R434: time synchronisation over the radio. A child's SREQ is due once each Ts and a busy channel moves it by
1 ms at most three times; the parent answers 384,000 ticks after its reception; a child whose exchange is spoiled, or
whose path delay lies outside 0 to 960 ticks, discards it and counts NSYNCBAD. The first valid sample steps hive time in
the next clock (R434). So each of these completes: syncSreq, sreqRx, srespSend, srespRx. -/
def Obligations.SyncEvents : Prop :=
  ∀ (s : State) (fr : RxFrame) (p : RxPkt) (a : Nat) (x : Nat) (dbm : Int), s.early = [] →
    let h := s.hive
    let clear := dbm ≤ -100 + (h.ccathr : Int)
    let heard (n : Nat) := received fr s = true ∧ classify s fr.psdu = .frame p ∧ p.f.typ = n
    let got := acceptPkt ⟨true, 0, fr.lqi, fr.rssi, s.time.hive - fr.ago⟩ p s
    let t2 := s.time.hive - fr.ago
    let due := parentOf s = some (a, false, x) ∧ s.running = true ∧ h.st = .run ∧ h.radio = true
    (∀ k t, due → h.sreq = some (k, t) → t ≤ s.time.phys →
      (clear → radioFree s = true → h.fc < 2 ^ 32 → ∃ u e n, exec (.syncSreq dbm) s = .next u ∧ u.hive.sreq = none ∧
        u.hive.await = some (e, n) ∧ e.f.typ = 8 ∧ e.dst = a ∧ e.for_ = .sreq ∧
        u.hive.exch = some ⟨(s.time.hive + 30720) % 2 ^ 64, false⟩) ∧
      (¬ clear → ∃ u, exec (.syncSreq dbm) s = .next u ∧
        u.hive.sreq = if k < 3 then some (k + 1, s.time.phys + 192000) else none)) ∧
    (parentOf s = none → exec (.syncSreq dbm) s = .next s) ∧
    (heard 8 → h.st = .run → p.ext = false → 8 ≤ p.f.body.length → exec (.sreqRx fr) s = .next { got with
      hive := { got.hive with sresp := h.sresp ++ [⟨p.src, leNat (p.f.body.take 8), t2, t2 + 384000, 0⟩] } }) ∧
    (∀ r, s.running = true → h.st = .run → h.sresp.find? (fun r => decide (r.due ≤ s.time.hive)) = some r →
      (clear → radioFree s = true → h.fc < 2 ^ 32 → ∃ u e n, exec (.srespSend dbm) s = .next u ∧ u.hive.sresp = h.sresp.erase r ∧
        u.hive.await = some (e, n) ∧ e.f.typ = 9 ∧ e.dst = r.child ∧
        e.f.body = leBytes 8 r.t1 ++ leBytes 8 r.t2 ++ List.replicate 8 0) ∧
      (¬ clear → exec (.srespSend dbm) s = .next { s with hive := { h with
        sresp := if r.tries < 3 then h.sresp.erase r ++ [{ r with due := r.due + 192000, tries := r.tries + 1 }]
          else h.sresp.erase r } })) ∧
    (∀ e, heard 9 → h.exch = some e → parentOf s = some (p.src, false, x) → p.sec = false → p.ext = false →
      24 ≤ p.f.body.length →
      leNat (p.f.body.take 8) = e.t1 →
      let t3 := leNat ((p.f.body.drop 16).take 8)
      let y2 := leNat ((p.f.body.drop 8).take 8)
      let d2 : Int := ((t2 : Int) - e.t1) - (t3 - y2)
      let th2 : Int := (y2 - e.t1) - (t2 - t3)
      (d2 < 0 ∨ 1920 < d2 ∨ e.spoiled = true → ∃ u, exec (.srespRx fr) s = .next u ∧ u.hive.exch = none ∧
        u.hive.nsyncbad = satInc h.nsyncbad ∧ u.time = s.time) ∧
      (0 ≤ d2 → d2 ≤ 1920 → e.spoiled = false → s.time.valid = false → ∃ u, exec (.srespRx fr) s = .next u ∧
        u.later = s.later ++ [.sample ((th2 + 1) / 2)] ∧ u.time = s.time ∧ u.hive.exch = none ∧ u.hive.nsyncbad = h.nsyncbad) ∧
      (0 ≤ d2 → d2 ≤ 1920 → e.spoiled = false → s.time.valid = true → ∃ u, exec (.srespRx fr) s = .next u ∧
        u.time.hive = s.time.hive ∧ u.hive.exch = none ∧ u.hive.lastSample = some s.time.hive ∧
        u.hive.theta = BitVec.ofInt 32 ((th2 + 1) / 2))) ∧
    (∀ th : Int, s.time.valid = false → (doLater s (.sample th)).time.valid = true ∧
      (doLater s (.sample th)).time.hive = ((s.time.hive : Int) + th).toNat % 2 ^ 64)

/-! ## Serial ports and host frames (chapter 13) -/

/-- Table 1.6 row PORT, with R355, R356, R384: the PORT instructions in each unit state. A port that the packet decoder
or the hive owns answers ST_STATE. So each of these completes: portSet, portStart, portStop, portClr. -/
def Obligations.PortInstructions : Prop :=
  ∀ (c : CoreId) (v : Inv) (s s' : State) (f : UForm) (k : PortId), f.inst.toNat = k.val →
    let s0 := ownFirst (portFirst k) s
    let t := v.tenant
    let x := s'.port k
    let a := ((s'.regs c).rd f.ra).toNat
    let ws := wordsAt s' a 4
    let up := s'.may t (capPort k.val) = true ∧ s'.hasFailed .ports = false ∧ waitsFor .ports s' = none
    let bare := f.rd = 0 ∧ f.ra = 0 ∧ f.rb = 0
    let owned := (k.val = 0 ∧ s'.boot.mode = false ∧ s'.boot.testEn = false) ∨ x.hive = true
    let ret (st : BitVec 8) (n : Nat) (u : State) : Host.Outcome State Fault Refusal :=
      .next (retire c t st id (s'.base + n) u)
    let use (st : BitVec 8) (u : State) : Host.Outcome State Fault Refusal :=
      .next (retireUsing c v (blockBanks a 4) s0 st id (s'.base + 4) u)
    let clean (x : Port) : Port := { x with
      inframe := false, mframe := none, held := none, sframe := none, txf := [], txb := [], stage := [], loaded := 0 }
    let queues :=
      (x.txen = true → (s'.queue x.txq).st ≠ .off ∧ (s'.queue x.txq).cons = 1 ∧ (s'.queue x.txq).cinst = k.val) ∧
      (x.rxen = true → (s'.queue x.rxq).st ≠ .off ∧ (s'.queue x.rxq).prod = 3 ∧ (s'.queue x.rxq).pinst = k.val)
    (Begins c (.portSet c f) v s0 s' → up → f.rd = 0 → f.rb = 0 → blockOk t a 4 = true → blockMay s' t a 4 = true →
      CleanAt s' a 4 →
      (owned ∨ x.st = .run ∨ x.st = .held → exec (.portSet c f) s = ret 0x10 0 s') ∧
      (¬ owned → x.st = .off ∨ x.st = .ready → exec (.portSet c f) s =
        if portSetOk k ws then use 0x00 (s'.setPort k { x with st := .ready, set := ws }) else use 0x16 s')) ∧
    (Begins c (.portStart c f) v s0 s' → up → bare →
      (owned ∨ x.st ≠ .ready → exec (.portStart c f) s = ret 0x10 0 s') ∧
      (¬ owned → x.st = .ready → queues →
        exec (.portStart c f) s = ret 0x00 0 (s'.setPort k { clean x with st := .run, owner := t })) ∧
      (¬ owned → x.st = .ready → ¬ queues → exec (.portStart c f) s = ret 0x16 0 s')) ∧
    (Begins c (.portStop c f) v s0 s' → up → bare →
      (owned ∨ x.st ≠ .run → exec (.portStop c f) s = ret 0x10 0 s') ∧
      (¬ owned → x.st = .run → x.mframe = none → x.sframe = none →
        exec (.portStop c f) s = ret 0x00 0 (s'.setPort k { clean x with st := .ready })) ∧
      (∀ g, ¬ owned → x.st = .run → x.mframe = none → x.sframe = some g →
        exec (.portStop c f) s = ret 0x00 0 (s'.setPort k { clean (pushLast g x) with st := .ready })) ∧
      (∀ m, ¬ owned → x.st = .run → x.mframe = some m → ∃ u, exec (.portStop c f) s = ret 0x00 0 u ∧
        (u.port k).st = .ready ∧ (u.port k).mframe = none ∧ (u.port k).nframe = x.nframe + 1 ∧
        (u.port k).inframe = false ∧ u.mem = s'.mem)) ∧
    (Begins c (.portClr c f) v s0 s' → up → bare →
      exec (.portClr c f) s = if ¬ owned ∧ x.st = .held then
        ret 0x00 0 (s'.setPort k { x with st := .ready, mmf := false }) else ret 0x10 0 s')

/-- R36, R150, R370 to R372, R374 to R376: host frames in tethered flight. A frame sends the status byte formed at the
assertion of CS and clears the sticky bits that it carried; a well-formed request is accepted when none is pending, one
that comes while BUSY is discarded with DISC and NDISC, a malformed one rejected with ERR and NERR; READ REPLY sends the
status byte, the reply and 0xFF beyond it, or 0xFF alone with URUN when there is none, for as many bytes as the host
clocks; before PORTS is ready a frame sets DISC alone. So each of these completes: hostStatus, hostExecute,
hostReadQueue, hostGrantCredit, hostReadWindow, hostReadReply. -/
def Obligations.HostFrames : Prop :=
  ∀ (s : State) (p : HostPkt) (opc : Byte) (whole : Bool), s.boot.mode = false → s.boot.testEn = false →
    let h := s.host
    let serves := s.running = true ∧ s.isReady .ports = true
    let w := (wordAt p.words 0).toNat
    let b := h.status.getD (hostStatus s)
    let polled (u : State) : Prop := u.host.out.take 2 = [b, 0] ∧ u.host.status = none ∧
      u.host.alert = (h.alert && h.status.isSome) ∧ (u.port 0).nframe = (s.port 0).nframe + 1 ∧ (u.port 0).inframe = false
    let disc := h.disc && !b.getLsbD 2
    let err := h.err && !b.getLsbD 3
    let urun := h.urun && !b.getLsbD 5
    let discarded (u : State) : Prop := polled u ∧ u.host.disc = true ∧ u.host.err = err ∧
      (u.port 0).ndisc = satInc (s.port 0).ndisc ∧ u.host.req = h.req ∧ u.host.busy = h.busy
    let rejected (u : State) : Prop := polled u ∧ u.host.err = true ∧ u.host.disc = disc ∧
      (u.port 0).nerr = satInc (s.port 0).nerr ∧ u.host.req = h.req ∧ u.host.busy = false
    let accepted (u : State) (o : BitVec 8) (n : Nat) : Prop := polled u ∧ u.host.busy = true ∧ u.host.rdy = false ∧
      u.host.disc = disc ∧ u.host.err = err ∧ (u.port 0).nreq = (s.port 0).nreq + 1 ∧
      ∃ q, u.host.req = some q ∧ q.opc = o ∧ q.tag = p.tag.extractLsb' 3 5 ∧ q.words = p.words ∧ q.left = n
    let request (i : Instr) (ok : Prop) (o : BitVec 8) (n : Nat) : Prop := serves → ∃ u, exec i s = .next u ∧
      (h.busy = true ∨ s.therm.stop ≠ none → discarded u) ∧
      (h.busy = false → s.therm.stop = none → (ok → accepted u o n) ∧ (¬ ok → rejected u))
    (serves → whole = false ∨ opc = 0 → ∃ u, exec (.hostStatus opc whole) s = .next u ∧ polled u ∧ u.host.disc = disc ∧
      u.host.err = err ∧ u.host.urun = urun ∧ u.host.rdy = h.rdy ∧ u.host.busy = h.busy ∧ u.host.req = h.req) ∧
    (whole = true → opc ≠ 0 → opc ≠ 0x60 → serves → ∃ u, exec (.hostStatus opc whole) s = .next u ∧
      (h.busy = true ∨ s.therm.stop ≠ none → discarded u) ∧ (h.busy = false → s.therm.stop = none → rejected u)) ∧
    request (.hostExecute p) (p.extra = 0 ∧ 1 ≤ p.words.length ∧ p.words.length ≤ 16) 0x30 1 ∧
    request (.hostReadQueue p) (p.extra = 0 ∧ p.words.length = 1 ∧ w / 2 ^ 6 % 2 ^ 10 = 0 ∧ w < 2 ^ 25 ∧
      1 ≤ w / 2 ^ 16 ∧ w / 2 ^ 16 ≤ 256) 0x40 (w / 2 ^ 16 % 2 ^ 9) ∧
    request (.hostGrantCredit p) (p.extra = 0 ∧ p.words.length = 1 ∧ w / 2 ^ 6 % 2 ^ 10 = 0 ∧ w < 2 ^ 27) 0x41 1 ∧
    request (.hostReadWindow p) (p.extra = 0 ∧ p.words.length = 2 ∧ 1 ≤ (wordAt p.words 1).toNat ∧
      (wordAt p.words 1).toNat ≤ 256) 0x50 (wordAt p.words 1).toNat ∧
    (serves → ∃ u, exec (.hostReadReply p) s = .next u ∧ polled u ∧ u.host.rdy = h.rdy ∧ u.host.reply = h.reply ∧
      let n := (32 * p.words.length + p.extra) / 8
      u.host.lanes = p.tag.extractLsb' 0 3 ∧ u.host.urun = (urun || !b.getLsbD 0) ∧
      u.host.out = b :: 0 ::
        (b :: ((if b.getLsbD 0 then bytesOfWords h.reply else []) ++ List.replicate n 0xFF)).take n) ∧
    (serves → ∃ u, exec (.hostStatus 0x60 true) s = .next u ∧ polled u ∧ u.host.out = [b, 0] ∧
      u.host.urun = (urun || !b.getLsbD 0) ∧ u.host.rdy = h.rdy ∧ u.host.reply = h.reply) ∧
    (¬ serves → s.time.mode ≠ .off → ∀ i ∈ [Instr.hostStatus opc whole, .hostExecute p, .hostReadQueue p,
        .hostGrantCredit p, .hostReadWindow p, .hostReadReply p],
      exec i s = .next { s with host := { h with disc := true } })

/-! ## Line engines (chapter 14) -/

/-- Table 1.6 row LINE, with R94, R393 to R395, R401, R404: the LINE instructions in each unit state, checked after the
engine's own action of the clock (R95). So each of these completes: lineLoad, lineStart, lineStop, lineTx, lineRx. -/
def Obligations.LineInstructions : Prop :=
  ∀ (c : CoreId) (v : Inv) (s s' : State) (f : UForm) (e : EngineId), f.inst.toNat = e.val →
    let t := v.tenant
    let u0 := engineFirst e s'
    let x := u0.engine e
    let a := (s'.regs c).rd f.ra
    let ws := wordsAt u0 a.toNat 20
    let up := s'.may t (capLine e.val) = true ∧ s'.hasFailed .line = false ∧ waitsFor .line s' = none
    let bare := f.rd = 0 ∧ f.ra = 0 ∧ f.rb = 0
    let ret (st : BitVec 8) (n : Nat) (u : State) : Host.Outcome State Fault Refusal :=
      .next (retire c t st id (s'.base + n) u)
    let use (st : BitVec 8) (u : State) : Host.Outcome State Fault Refusal :=
      .next (retireUsing c v (blockBanks a.toNat 20) s st id (s'.base + 20) u)
    (Begins c (.lineLoad c f) v s s' → up → f.rd = 0 → f.rb = 0 → blockOk t a.toNat 20 = true →
      blockMay s' t a.toNat 20 = true → CleanAt u0 a.toNat 20 →
      exec (.lineLoad c f) s =
        if x.st ≠ .off ∧ x.st ≠ .ready then ret 0x10 0 u0
        else if engineLoadOk ws then use 0x00 (u0.setEngine e { x with st := .ready, load := ws })
        else use 0x16 u0) ∧
    (Begins c (.lineStart c f) v s s' → up → bare →
      (x.st ≠ .ready → exec (.lineStart c f) s = ret 0x10 0 u0) ∧
      (x.st = .ready → ∃ u, exec (.lineStart c f) s = ret 0x00 0 u ∧
        let y := u.engine e
        y.st = .run ∧ y.load = x.load ∧ y.pc.toNat = (wordAt x.load 0).toNat / 2 % 32 ∧ y.sr = 0 ∧ y.sc = 0 ∧ y.c0 = 0 ∧
        y.c1 = 0 ∧ y.mark = u0.time.hive ∧ y.edgt = 0 ∧ y.thFull = false ∧ y.ghFull = false ∧ y.tmo = false ∧
        y.stale = false ∧ y.outv = BitVec.ofNat 8 (wordAt x.load 2).toNat ∧
        y.oute = BitVec.ofNat 8 ((wordAt x.load 2).toNat / 256) ∧ y.wait = .none ∧ y.losing = [] ∧ y.conf = false)) ∧
    (Begins c (.lineStop c f) v s s' → up → bare →
      (x.st ≠ .run → exec (.lineStop c f) s = ret 0x10 0 u0) ∧
      (x.st = .run → ∃ u, exec (.lineStop c f) s = ret 0x00 0 u ∧ (u.engine e).st = .ready ∧ (u.engine e).pc = x.pc ∧
        (u.engine e).sr = x.sr ∧ (u.engine e).mark = x.mark ∧ (∀ q, (u.engine e).drives q = false))) ∧
    (Begins c (.lineTx c f) v s s' → up → f.rd = 0 → f.rb = 0 →
      exec (.lineTx c f) s =
        if x.st ≠ .run then ret 0x10 0 u0
        else if x.thFull then ret 0x13 0 u0
        else ret 0x00 0 (u0.setEngine e { x with th := a, thFull := true, at_ := u0.time.clk + 1 })) ∧
    (Begins c (.lineRx c f) v s s' → up → f.ra = 0 → f.rb = 0 →
      exec (.lineRx c f) s =
        if x.st ≠ .run then ret 0x10 0 u0
        else if x.ghFull = false then ret 0x13 0 u0
        else .next (retire c t 0x00 (fun q => q.wr f.rd x.gh) s'.base
          (u0.setEngine e { x with ghFull := false, at_ := u0.time.clk + 1 })))

/-- R391, R395, R397, R400, R405: HALT and the pin actions of an engine that runs and waits for nothing. An input pin
reads what the device itself drives on its ball, else the board's level. In timed mode an output action waits for the
clock that ends at the edge that reaches MARK, an input action for the second clock after that edge, and one that comes
late executes at once and counts NLATE. So each of these completes: leHalt, leDrive, leDriveAll, leSample, leShout,
leShin, leTimedAction. -/
def Obligations.EnginePins : Prop :=
  ∀ (s : State) (e : EngineId) (lv : Byte),
    let x := s.engine e
    let goes := s.running = true ∧ x.st = .run ∧ x.at_ ≤ s.time.clk
    let pins := inLevels s e lv
    let ball (k : Nat) := (x.ibase + k) % 48
    let now := x.timed = false ∨ x.mark ≤ s.time.hive
    let on (y : Engine) := y.pc = x.pc + 1 ∧ y.wait = .none ∧ y.at_ = s.time.clk + 1 ∧ y.st = .run ∧ y.mark = x.mark ∧
      y.nlate = (if x.timed = true ∧ x.wait = .none ∧ x.mark ≤ s.time.hive then satInc x.nlate else x.nlate)
    let did (i : Instr) (Q : Engine → Prop) : Prop := ∃ u, exec i s = .next u ∧ on (u.engine e) ∧ Q (u.engine e)
    let toggled (tg : Option Nat) (b : Byte) : Byte := match tg with | some k => b ^^^ BitVec.twoPow 8 k | none => b
    (goes → x.wait = .none → x.op = .halt → ∃ u, exec (.leHalt e) s = .next u ∧
      u.later = s.later ++ [.eventOf (0x80 + e.val) (BitVec.ofNat 32 (x.pc.toNat + 2 ^ 29)) s.time.hive] ∧ (u.engine e).st = .ready ∧
      ((u.engine e).pc = x.pc ∨ (u.engine e).pc = x.pc + 1)) ∧
    (∀ j oe b, goes → x.wait = .none → now → x.op = .drive j oe b → did (.leDrive e) (fun y =>
      (∀ i, i < 8 → y.outv.getLsbD i = (if i = j then b else x.outv.getLsbD i)) ∧
      (∀ i, i < 8 → y.oute.getLsbD i = (if i = j then oe else x.oute.getLsbD i)) ∧ y.sr = x.sr)) ∧
    (∀ b, goes → x.wait = .none → now → x.op = .driveAll b → did (.leDriveAll e) (fun y =>
      y.outv = b ∧ y.oute.toNat = (2 ^ x.ocnt - 1) % 256)) ∧
    (∀ n, goes → x.wait = .none → now → x.op = .sample n → did (.leSample e lv) (fun y =>
      y.sr = (x.sr <<< n) ||| BitVec.ofNat 32 (pins.toNat % 2 ^ n) ∧ y.sc = min (x.sc + n) 32 ∧ y.outv = x.outv)) ∧
    (∀ j lsb tg, goes → x.wait = .none → now → x.op = .shout j lsb tg → tg ≠ some j → did (.leShout e) (fun y =>
      (j < 8 → y.outv.getLsbD j = x.sr.getLsbD (if lsb then 0 else 31)) ∧ y.sr = (if lsb then x.sr >>> 1 else x.sr <<< 1) ∧
      y.sc = x.sc - 1 ∧ (∀ i, i < 8 → i ≠ j → y.outv.getLsbD i = (toggled tg x.outv).getLsbD i))) ∧
    (∀ j lsb tg, goes → x.wait = .none → now → x.op = .shin j lsb tg → did (.leShin e lv) (fun y =>
      y.sr = (if lsb then x.sr >>> 1 else x.sr <<< 1) ||| (if pins.getLsbD j then BitVec.twoPow 32 (if lsb then 31 else 0) else 0) ∧
      y.sc = min (x.sc + 1) 32 ∧ y.outv = toggled tg x.outv)) ∧
    (∀ j oe b, goes → x.wait = .none → x.timed = true → s.hiveNext < x.mark → s.time.hive < x.mark →
      x.op = .drive j oe b → exec (.leDrive e) s = .next (s.setEngine e { x with wait := .timed, at_ := s.time.clk + 1 })) ∧
    (∀ j oe b, goes → x.wait = .timed → x.op = .drive j oe b →
      (s.hiveNext < x.mark → exec (.leTimedAction e lv) s = .next s) ∧
      (x.mark ≤ s.hiveNext → did (.leTimedAction e lv) (fun y =>
        (∀ i, i < 8 → y.outv.getLsbD i = (if i = j then b else x.outv.getLsbD i))))) ∧
    (∀ j oe b, goes → x.wait = .none → x.timed = true → s.time.hive < x.mark → x.mark ≤ s.hiveNext →
      x.op = .drive j oe b → did (.leDrive e) (fun y =>
        (∀ i, i < 8 → y.outv.getLsbD i = (if i = j then b else x.outv.getLsbD i)))) ∧
    (∀ n, goes → x.wait = .none → x.timed = true → s.time.hive < x.mark → x.op = .sample n →
      ∃ u, exec (.leSample e lv) s = .next u ∧ u.engine e = { x with wait := .timed, at_ := s.time.clk + 1 }) ∧
    (∀ n, goes → x.wait = .timed → x.op = .sample n →
      (x.hit = none → exec (.leTimedAction e lv) s = .next s) ∧
      (∀ k, x.hit = some k → s.time.clk < k + 2 → exec (.leTimedAction e lv) s = .next s) ∧
      (∀ k, x.hit = some k → k + 2 ≤ s.time.clk → did (.leTimedAction e lv) (fun y =>
        y.sr = (x.sr <<< n) ||| BitVec.ofNat 32 (pins.toNat % 2 ^ n) ∧ y.sc = min (x.sc + n) 32))) ∧
    (∀ k, k < x.icnt → k < 8 →
      (∀ b, capturedDrive s 0 (ball k) = some b → pins.getLsbD k = b) ∧
      (capturedDrive s 0 (ball k) = none → seenOn s.lines.seen (ball k) = none → pins.getLsbD k = lv.getLsbD k)) ∧
    (x.st ≠ .run ∨ s.running = false → ∀ i ∈ [Instr.leHalt e, .leDrive e, .leDriveAll e, .leSample e lv, .leShout e,
      .leShin e lv, .leTimedAction e lv], exec i s = .next s)

/-- R397 to R399, R402, R403, R405: the engine's other instructions. TAKE empties TH and GIVE fills GH; blocking ones
wait and count NSTALL, non-blocking ones go on with STALE; COUNT saturates and does not pass 0; AWAIT ends on its
condition or, with T, at MARK with TO; BRANCH goes where its condition sends it; STAMP writes MARK. So each of these
completes: leTakeSr, leTakeC, leTakeMarkAdd, leTakeMarkAbs, leGiveSr, leGiveC, leGiveMarkLo, leGiveMarkHi, leStallEnd,
leCountLoad, leCountInc, leCountDec, leCountAdd, leStampNow, leStampEdge, leStampAddi, leStampAddc1, leStampAddsr,
leStampAddc0, leBranch, leAwait, leAwaitEnd. -/
def Obligations.EngineMoves : Prop :=
  ∀ (s : State) (e : EngineId) (pv lv : Byte),
    let x := s.engine e
    let h := s.time.hive
    let goes := s.running = true ∧ x.st = .run ∧ x.at_ ≤ s.time.clk
    let runs := goes ∧ x.wait = .none
    let on (y : Engine) := y.pc = x.pc + 1 ∧ y.wait = .none ∧ y.at_ = s.time.clk + 1 ∧ y.st = .run
    let did (i : Instr) (Q : Engine → Prop) : Prop := ∃ u, exec i s = .next u ∧ on (u.engine e) ∧ Q (u.engine e)
    let took (i : Instr) (d : Nat) (Q : Engine → Prop) : Prop := ∀ ev n, runs → x.op = .take ev n d →
      (x.thFull = true → did i (fun y => y.thFull = false ∧ y.nstale = x.nstale ∧ Q y)) ∧
      (x.thFull = false → n = true → did i (fun y => y.thFull = false ∧ y.stale = true ∧ y.nstale = satInc x.nstale ∧ Q y)) ∧
      (x.thFull = false → n = false → exec i s = .next (s.setEngine e { x with
        wait := .stall, nstall := satInc x.nstall, at_ := s.time.clk + 1 }))
    let gave (i : Instr) (d : Nat) (g : Word) : Prop := ∀ ev n, runs → x.op = .give ev n d →
      (x.ghFull = false → did i (fun y => y.ghFull = true ∧ y.gh = g ∧ (d = 0 → y.sr = 0 ∧ y.sc = 0) ∧ (d ≠ 0 → y.sr = x.sr))) ∧
      (x.ghFull = true → n = true → did i (fun y => y.gh = x.gh ∧ y.stale = true ∧ y.nstale = satInc x.nstale)) ∧
      (x.ghFull = true → n = false → exec i s = .next (s.setEngine e { x with
        wait := .stall, nstall := satInc x.nstall, at_ := s.time.clk + 1 }))
    let counted (i : Instr) (d : Nat) (g : Nat → BitVec 16 → Nat) : Prop := ∀ k imm, runs → x.op = .count k d imm →
      did i (fun y => (k = false → y.c0.toNat = g imm x.c0 ∧ y.c1 = x.c1) ∧ (k = true → y.c1.toNat = g imm x.c1 ∧ y.c0 = x.c0))
    let stamped (i : Instr) (d : Nat) (g : Nat → Nat) : Prop := ∀ imm, runs → x.op = .stamp d imm →
      did i (fun y => y.mark = g imm ∧ y.sr = x.sr)
    let was := inBefore s e pv
    let pins := inLevels s e lv
    let ends (i : Instr) (n : Nat) (t : Bool) (j : Nat) : Prop :=
      let edge := (n = 1 ∧ was.getLsbD j = false ∧ pins.getLsbD j = true) ∨
        (n = 2 ∧ was.getLsbD j = true ∧ pins.getLsbD j = false)
      let other := (n = 0 ∧ x.mark ≤ h) ∨ (n = 3 ∧ pins.getLsbD j = true) ∨ (n = 4 ∧ pins.getLsbD j = false) ∨
        (n = 5 ∧ x.thFull = true) ∨ (n = 6 ∧ x.ghFull = false)
      (edge → did i (fun y => y.edgt = (h + 2 ^ 64 - 2 * s.inc) % 2 ^ 64)) ∧
      (other → did i (fun y => y.edgt = x.edgt)) ∧
      (n ≤ 6 → ¬ edge → ¬ other → t = true → x.mark ≤ h → did i (fun y => y.tmo = true ∧ y.edgt = x.edgt)) ∧
      (n ≤ 6 → ¬ edge → ¬ other → (t = false ∨ h < x.mark) → ∃ u, exec i s = .next u ∧ (u.engine e).pc = x.pc ∧
        (u.engine e).wait = .await)
    took (.leTakeSr e) 0 (fun y => y.sr = x.th ∧ y.sc = 32) ∧
    took (.leTakeC e) 1 (fun y => y.c0.toNat = x.th.toNat % 65536 ∧ y.c1.toNat = x.th.toNat / 65536) ∧
    took (.leTakeMarkAdd e) 2 (fun y => y.mark = (x.mark + x.th.toNat) % 2 ^ 64) ∧
    took (.leTakeMarkAbs e) 3 (fun y => y.mark % 2 ^ 32 = x.th.toNat ∧ y.mark < 2 ^ 64) ∧
    gave (.leGiveSr e) 0 x.sr ∧ gave (.leGiveC e) 1 (BitVec.ofNat 32 (x.c0.toNat + x.c1.toNat * 65536)) ∧
    gave (.leGiveMarkLo e) 2 (BitVec.ofNat 32 x.mark) ∧ gave (.leGiveMarkHi e) 3 (BitVec.ofNat 32 (x.mark / 2 ^ 32)) ∧
    (∀ ev n d, goes → x.wait = .stall → x.op = .take ev n d →
      (x.thFull = false → exec (.leStallEnd e) s = .next s) ∧
      (x.thFull = true → did (.leStallEnd e) (fun y => y.thFull = false ∧ (d = 0 → y.sr = x.th)))) ∧
    (∀ ev n d, goes → x.wait = .stall → x.op = .give ev n d →
      (x.ghFull = true → exec (.leStallEnd e) s = .next s) ∧
      (x.ghFull = false → did (.leStallEnd e) (fun y => y.ghFull = true ∧ (d = 0 → y.gh = x.sr)))) ∧
    counted (.leCountLoad e) 0 (fun imm _ => imm % 2 ^ 16) ∧
    counted (.leCountInc e) 1 (fun _ c => min (c.toNat + 1) 65535) ∧
    counted (.leCountDec e) 2 (fun _ c => c.toNat - 1) ∧
    counted (.leCountAdd e) 3 (fun imm c => min (c.toNat + imm) 65535) ∧
    stamped (.leStampNow e) 0 (fun _ => h) ∧ stamped (.leStampEdge e) 1 (fun _ => x.edgt) ∧
    stamped (.leStampAddi e) 2 (fun imm => (x.mark + 24 * imm) % 2 ^ 64) ∧
    stamped (.leStampAddc1 e) 3 (fun _ => (x.mark + 192 * x.c1.toNat) % 2 ^ 64) ∧
    stamped (.leStampAddsr e) 4 (fun _ => (x.mark + x.sr.toNat) % 2 ^ 64) ∧
    stamped (.leStampAddc0 e) 5 (fun _ => (x.mark + 24 * x.c0.toNat) % 2 ^ 64) ∧
    (∀ n j t, runs → x.op = .branch n j t →
      let yes := n = 0 ∨ (n = 1 ∧ x.c0 ≠ 0) ∨ (n = 2 ∧ x.c1 ≠ 0) ∨ (n = 3 ∧ pins.getLsbD j = true) ∨
        (n = 4 ∧ pins.getLsbD j = false) ∨ (n = 5 ∧ x.sc = 0) ∨ (n = 6 ∧ x.sc = 32) ∨ (n = 7 ∧ x.thFull = true) ∨
        (n = 8 ∧ x.ghFull = false) ∨ (n = 9 ∧ x.tmo = true)
      (n ≤ 9 → ∃ u, exec (.leBranch e lv) s = .next u ∧ (u.engine e).at_ = s.time.clk + 1 ∧
        (yes → (u.engine e).pc = BitVec.ofNat 5 t) ∧ (¬ yes → (u.engine e).pc = x.pc + 1) ∧
        (u.engine e).sr = x.sr ∧ (u.engine e).mark = x.mark)) ∧
    (∀ n t j, runs → x.op = .await n t j → ends (.leAwait e pv lv) n t j) ∧
    (∀ n t j, goes → x.wait = .await → x.op = .await n t j → ends (.leAwaitEnd e pv lv) n t j)

/-! ## Frames and chains on the ports (sections 13.4 to 13.8 and 15.10) -/

/-- R360 to R364, R366 to R370, R384, R385: frames of a master in RAW mode and of a RAW slave, in a clock in which no
instruction has found them done already. A WORD frame starts with its select when a word waits and a HEAD frame takes
its HEAD word, and its address word when AW is nonzero; words that may not start one are discarded and counted; the end
of a frame counts it and releases the select unless CONT holds it. A slave sends its words in order, or 0xFF, and holds
its last whole word back until it knows whether it ends the frame; an unfinished word goes out as a PART word. So each
of these completes: masterFrameStart, masterResume, masterFrameEnd, slaveSelectAssert, slaveWord, slaveSelectRelease,
mmfDetect. -/
def Obligations.PortFrames : Prop :=
  ∀ (s : State) (p : PortId) (rx : Words) (w : Word) (bits : Nat), s.early = [] →
    let x := s.port p
    let q := s.queue x.txq
    let free := ¬ (p.val = 0 ∧ s.boot.mode = false ∧ s.boot.testEn = false)
    let master := s.running = true ∧ free ∧ x.st = .run ∧ x.slave = false ∧ x.mode = 0
    let slave := s.running = true ∧ free ∧ x.st = .run ∧ x.slave = true ∧ x.mode = 0
    let sending := master ∧ x.mframe = none ∧ x.txen = true ∧ q.st = .run ∧ q.cons = 1 ∧ q.cinst = p.val
    let rested := x.held = none ∧ x.freeAt ≤ s.time.phys
    let may (d : QSlot) : Prop := d.tag.getLsbD 1 = true ∧ d.w.toNat / 2 ^ 16 % 2 ^ 13 ≤ 4096 ∧ (p.val = 1 ∨ d.w.toNat < 2 ^ 30)
    let dlen (d : QSlot) := d.w.toNat / 2 ^ 16 % 2 ^ 13
    let phases (l : List (FStage × Nat)) := l.filter (fun y => y.2 != 0)
    let headed (m : MFrame) (d : QSlot) : Prop := m.stage = .lead ∧ m.left = 2 ∧ m.words = (dlen d + 3) / 4 ∧
      m.send = !d.w.getLsbD 29 ∧ m.cs = d.w.toNat / 2 ^ 30 ∧ m.cmd.toNat = d.w.toNat % 2 ^ x.cw % 2 ^ 16 ∧
      m.rest = phases [(.cmd, 2 * phasePeriods x.cw x.cl x.cd), (.addr, 2 * phasePeriods x.aw x.al x.ad), (.dummy, 2 * x.dc)]
    (∀ d rest, sending → x.headFrm = false → q.drain = d :: rest → rested →
      ∃ u m, exec (.masterFrameStart p rx) s = .next u ∧ (u.port p).mframe = some m ∧ (u.port p).inframe = true ∧
        m.stage = .lead ∧ m.left = 2 ∧ m.rest = phases [(.dummy, 2 * x.dc)] ∧ m.words = 1 ∧ m.send = true ∧ m.line = rx ∧
        u.queues = s.queues) ∧
    (∀ d rest, sending → x.headFrm = true → q.drain = d :: rest → may d → x.aw = 0 → rested →
      ∃ u m, exec (.masterFrameStart p rx) s = .next u ∧ (u.port p).mframe = some m ∧ (u.port p).inframe = true ∧
        headed m d ∧ (u.queue x.txq).drain = rest ∧ (u.queue x.txq).nget = q.nget + 1 ∧
        (u.port p).npois = satAdd x.npois (if 2 ≤ d.err then 1 else 0)) ∧
    (∀ d a rest, sending → x.headFrm = true → q.drain = d :: a :: rest → may d → x.aw ≠ 0 → rested →
      ∃ u m, exec (.masterFrameStart p rx) s = .next u ∧ (u.port p).mframe = some m ∧ headed m d ∧
        m.addr.toNat = a.w.toNat % 2 ^ x.aw ∧ (u.queue x.txq).drain = rest ∧ (u.queue x.txq).nget = q.nget + 2 ∧
        (u.port p).npois = satAdd x.npois ((if 2 ≤ d.err then 1 else 0) + (if 2 ≤ a.err then 1 else 0))) ∧
    (∀ d, sending → x.headFrm = true → q.drain = [d] → may d → x.aw ≠ 0 → exec (.masterFrameStart p rx) s = .next s) ∧
    (∀ d k, sending → x.headFrm = true → q.drain = [d] → may d → x.aw = 0 → x.held = some k → k ≠ d.w.toNat / 2 ^ 30 →
      exec (.masterFrameStart p rx) s = .next (s.setPort p { x with
        held := none, inframe := false, freeAt := s.time.phys + 2 * x.div s.level.cur * s.inc })) ∧
    (∀ d, sending → x.headFrm = true → q.drain = [d] → ¬ may d → ∃ u, exec (.masterFrameStart p rx) s = .next u ∧
      (u.port p).mframe = none ∧ (u.port p).nskip = satInc x.nskip ∧ (u.queue x.txq).drain = []) ∧
    (¬ sending ∨ q.drain = [] → exec (.masterFrameStart p rx) s = .next s) ∧
    (∀ m, master → x.mframe = some m → m.stage = .paused →
      (wordReady s p m = false → exec (.masterResume p) s = .next s) ∧
      (wordReady s p m = true → ∃ u m', exec (.masterResume p) s = .next u ∧ (u.port p).mframe = some m' ∧
        m'.stage = .word ∧ m'.words = m.words - 1 ∧
        (m.send = true → ∀ d rest, q.drain = d :: rest → m'.cur = d.w ∧ (u.queue x.txq).drain = rest ∧
          (u.port p).sent = x.sent ++ (wordBytes d.w).take (if m.words = 1 then m.lastBytes else 4)) ∧
        (m.send = false → u.queues = s.queues))) ∧
    (∀ m, master → x.mframe = some m →
      (m.stage ≠ .done → exec (.masterFrameEnd p) s = .next s) ∧
      (m.stage = .done → ∃ u, exec (.masterFrameEnd p) s = .next u ∧ (u.port p).mframe = none ∧
        (u.port p).nframe = x.nframe + 1 ∧ (u.port p).inframe = m.cont ∧
        (u.port p).held = (if m.cont then some m.cs else none) ∧
        (m.cont = false → (u.port p).freeAt = s.time.phys + 2 * x.div s.level.cur * s.inc) ∧
        (let arg := BitVec.ofNat 32 (2 ^ 28 + bit01 m.pois * 2 ^ 14)
         (u.port p).lastarg = arg ∧ u.later = (if (x.w 0).getLsbD 22 then
           s.later ++ [.eventOf (0x78 + p.val) arg s.time.hive] else s.later)) ∧ u.queues = s.queues)) ∧
    (slave → x.inframe = false → exec (.slaveSelectAssert p) s = .next (s.setPort p { x with
      inframe := true, sframe := some ⟨0, none, false, x.txf.length⟩, sent := [slaveStatus s x] })) ∧
    (¬ free → s.running = true → s.isReady .ports = true → ∃ u, exec (.slaveSelectAssert p) s = .next u ∧
      u.host.alert = false ∧ u.host.status = some (hostStatus s) ∧ (u.port p).inframe = true ∧
      u.host.busy = s.host.busy) ∧
    (¬ free → s.isReady .ports = false → s.time.mode ≠ .off →
      exec (.slaveSelectAssert p) s = .next { s with host := { s.host with disc := true } }) ∧
    (∀ f, slave → x.sframe = some f → ∃ u f', exec (.slaveWord p w) s = .next u ∧ (u.port p).sframe = some f' ∧
      f'.got = f.got + 1 ∧ f'.last = some w ∧ (f.last = none → (u.port p).rxf = x.rxf) ∧
      (u.port p).sent.length = x.sent.length + (if f.got = 0 then 3 else 4) ∧
      (∀ d bad rest, f.got ≠ 0 → 0 < f.early → x.txb = [] → x.txf = (d, bad) :: rest →
        (u.port p).sent = x.sent ++ wordBytes d ∧ (u.port p).txf = rest) ∧
      (f.got ≠ 0 → x.txb = [] → x.txf = [] → (u.port p).sent = x.sent ++ [0xFF, 0xFF, 0xFF, 0xFF] ∧
        (u.port p).urun = true) ∧
      (∀ b, f.last = some b → x.rxf.length < 16 →
        (u.port p).rxf = x.rxf ++ [(b, if f.got = 1 then 1 else 0)] ∧ (u.port p).norun = x.norun) ∧
      (∀ b, f.last = some b → 16 ≤ x.rxf.length →
        (u.port p).rxf = x.rxf ∧ (u.port p).norun = satInc x.norun ∧ (u.port p).orun = true)) ∧
    (∀ f, slave → x.sframe = some f → ∃ u, exec (.slaveSelectRelease p bits w) s = .next u ∧
      (u.port p).sframe = none ∧ (u.port p).inframe = false ∧ (u.port p).nframe = x.nframe + 1 ∧
      (∀ b, f.last = some b → bits % 32 = 0 → x.rxf.length < 16 →
        (u.port p).rxf = x.rxf ++ [(b, if f.got = 1 then 9 else 8)]) ∧
      (f.last = none → bits % 32 = 0 → (u.port p).rxf = x.rxf) ∧
      (f.last = none → bits % 32 ≠ 0 → x.rxf.length < 16 →
        (u.port p).rxf = x.rxf ++ [(BitVec.ofNat 32 (w.toNat % 2 ^ (bits % 32)), if f.got = 0 then 11 else 10)])) ∧
    (s.running = true → free → x.st = .run → x.slave = false → x.mmd = true → x.inframe = false ∨ p.val = 1 →
      ∃ u, exec (.mmfDetect p) s = .next u ∧ (u.port p).st = .held ∧ (u.port p).mmf = true ∧
        (u.port p).nmmf = satInc x.nmmf ∧ (u.port p).mframe = none ∧ (u.port p).inframe = false) ∧
    (x.mmd = false ∨ x.slave = true ∨ x.st ≠ .run → exec (.mmfDetect p) s = .next s)

/-- R377 to R381, R439 to R441: chains. A DAISY member's capture loads those of its next SEGW staged words that were
there at SEL's edge, two to three clocks before (a free value), padded with zero, and stamps CAPT; a latch sends them
with their marker, and with its own marker received delivers the segment, one of all ones breaks the link and any other
counts NMARK; with no SCK the stage keeps its words. A sweep starts when its words and its receive credit are there and
ends after its last half-period. A tether counts a sweep without a latch after 1 ms, and a member's sync period ends
with one sample. So each of these completes: memberCapture, memberLatch, sweepStart, sweepEnd, noLatchPeriod,
tetherSyncSample. -/
def Obligations.ChainEvents : Prop :=
  ∀ (s : State) (p : PortId) (bits : Nat) (g : Seg) (segs : List Seg), s.early = [] →
    let x := s.port p
    let q := s.queue x.rxq
    let now := s.time.hive
    let free := s.running = true ∧ x.st = .run
    let daisy := free ∧ x.mode = 1
    let teth := free ∧ x.mode = 2 ∧ x.hive = true
    let n := x.pos * x.segw
    let credit (k : Nat) : Prop := x.rxen = true ∧ q.st = .run ∧ q.prod = 3 ∧ q.pinst = p.val ∧ k ≤ q.cred
    let mine := g.marker.toNat / 256 = 0x5A ∧ g.marker.toNat % 64 = x.pos
    let mark := x.marks.headD 0
    (daisy → x.slave = true → x.inframe = false →
      let d := 2 + bit01 (Config.freeBool s.free)
      let ws := (x.stage.take x.segw).takeWhile (fun y => decide (y.2.2 + d ≤ s.time.clk))
      ∃ u, exec (.memberCapture p) s = .next u ∧
      (u.port p).inframe = true ∧ (u.port p).capt = now ∧ (u.port p).stage = x.stage ∧ (u.port p).loaded = ws.length ∧
      (u.port p).reg = (ws.map Prod.fst ++ List.replicate x.segw 0).take x.segw ∧
      (u.port p).marks = [BitVec.ofNat 16 (0x5A00 + (if ws.any (fun y => y.2.1) then 128 else 0) +
        (if ws.length < x.segw then 64 else 0) + x.pos % 64)] ∧ u.free = s.free + 1) ∧
    (∀ y, teth → x.slave = true → x.inframe = false → s.hive.peers = [y] → y.pos = 0 →
      ∃ u, exec (.memberCapture p) s = .next u ∧ (u.port p).inframe = true ∧ (u.port p).capt = now ∧
        u.hive.captNow = some now ∧ u.hive.captPrev = s.hive.captNow) ∧
    (free → x.mode ≠ 0 → x.slave = true → x.inframe = true → exec (.memberCapture p) s = .next s) ∧
    (daisy → x.slave = true → x.inframe = true → bits = 0 →
      exec (.memberLatch p bits g) s = .next (s.setPort p { x with inframe := false, loaded := 0 })) ∧
    (daisy → x.slave = true → x.inframe = true → bits ≠ 0 → ∃ u, exec (.memberLatch p bits g) s = .next u ∧
      (u.port p).inframe = false ∧ (u.port p).nframe = x.nframe + 1 ∧ (u.port p).stage = x.stage.drop x.loaded ∧
      (u.port p).sent = (bytesOfWords x.reg ++ [BitVec.ofNat 8 (mark.toNat / 256), BitVec.ofNat 8 mark.toNat]).take (bits / 8) ∧
      (allOnes x.segw g = true → (u.port p).lbu = true ∧ (u.port p).nbreak = satInc x.nbreak ∧ u.queues = s.queues) ∧
      (allOnes x.segw g = false → x.segw * 32 + 16 ≤ bits → mine →
        (u.port p).lbu = false ∧ (u.port p).nmark = x.nmark ∧
        (credit x.segw → g.words.length = x.segw →
          (u.queue x.rxq).fill.map (·.w) = q.fill.map (·.w) ++ g.words)) ∧
      (allOnes x.segw g = false → bits < x.segw * 32 + 16 ∨ ¬ mine →
        (u.port p).nmark = satInc x.nmark ∧ u.queues = s.queues)) ∧
    (teth → x.slave = true → x.inframe = true → bits ≠ 0 → s.hive.peers = [] → ∃ u, exec (.memberLatch p bits g) s = .next u ∧
      (u.port p).inframe = false ∧ u.hive.latchAt = s.time.phys ∧ u.queues = s.queues) ∧
    (daisy → x.slave = false → x.inframe = false → x.held = none → x.freeAt ≤ s.time.phys → 0 < x.pos → n ≤ x.stage.length →
      (x.rxen = false ∨ credit n) →
      ∃ u m, exec (.sweepStart p) s = .next u ∧ (u.port p).inframe = true ∧ (u.port p).capt = now ∧
        (u.port p).stage = x.stage.drop n ∧ (u.port p).reg = (x.stage.take n).map Prod.fst ∧
        (u.port p).marks = (List.range x.pos).map (fun k => BitVec.ofNat 16 (0x5A00 + (k + 1) % 64)) ∧
        (u.port p).mframe = some m ∧ m.stage = .lead ∧ m.rest = [(.shift, 2 * (x.pos * (x.segw * 32 + 16)))]) ∧
    (daisy → x.slave = false → (x.stage.length < n ∨ (x.rxen = true ∧ ¬ credit n)) → exec (.sweepStart p) s = .next s) ∧
    (teth → x.slave = false → x.inframe = false → x.freeAt ≤ s.time.phys → sweepDue s = true →
      ∃ u, exec (.sweepStart p) s = .next u ∧
      (u.port p).inframe = true ∧ u.hive.selNow = some now ∧ u.hive.selPrev = s.hive.selNow) ∧
    (∀ m, daisy → x.slave = false → x.mframe = some m → m.stage = .done → ∃ u, exec (.sweepEnd p segs) s = .next u ∧
      (u.port p).inframe = false ∧ (u.port p).mframe = none ∧ (u.port p).nframe = x.nframe + 1 ∧
      (segs = [] → 0 < x.pos → x.pos < 64 → (u.port p).lastarg.toNat / 2 ^ 28 = 3 ∧ (u.port p).lastarg.toNat % 256 = 0x1B) ∧
      (segs = [g] → x.pos = 1 → mine → (u.port p).lastarg.toNat % 256 = 0 ∧
        (credit x.segw → g.words.length = x.segw →
          (u.queue x.rxq).fill.map (·.w) = q.fill.map (·.w) ++ g.words))) ∧
    (x.mframe = none → exec (.sweepEnd p segs) s = .next s) ∧
    (∀ m, x.mframe = some m → m.stage ≠ .done → exec (.sweepEnd p segs) s = .next s) ∧
    (p.val = 2 → teth → x.slave = true → s.hive.latchAt + 192000 ≤ s.time.phys → s.hive.peers = [] →
      exec (.noLatchPeriod p) s = .next { s with hive := { s.hive with latchAt := s.time.phys } }) ∧
    (p.val ≠ 2 ∨ s.time.phys < s.hive.latchAt + 192000 → exec (.noLatchPeriod p) s = .next s) ∧
    (∀ a d m, parentOf s = some (a, true, d) → s.running = true → s.hive.on = true → s.hive.teth = 2 → s.hive.addr * 192000 ≤ now →
      m = (now - s.hive.addr * 192000) / s.hive.ts + 1 → s.hive.syncIx ≠ m →
      ∃ u, exec .tetherSyncSample s = .next u ∧ u.hive.syncIx = m ∧ u.hive.tsum = 0 ∧ u.hive.tcount = 0 ∧
        (s.hive.tcount = 0 → u.time = s.time) ∧
        (s.hive.tcount ≠ 0 → s.time.valid = false → u.time = s.time ∧ ∃ th, u.later = s.later ++ [.sample th]) ∧
        (s.hive.tcount ≠ 0 → s.time.valid = true → u.hive.lastSample = some now)) ∧
    (parentOf s = none → exec .tetherSyncSample s = .next s)

/-! ## Dispatch, timers, budgets and stalls (chapters 1 to 3) -/

/-- R39 to R42, R63, R150, R372 to R374: DISPATCH. A free core with an eligible pending event takes an invocation of no
lower priority and, at the same priority, of no later event time; a new invocation starts at the handler with the event
in w0 to w3, a saved one goes on with its registers, either 12 clocks after the clock of its event or release, or after
the core's first free clock where that is later (a DISPATCH given later selects in its own clock: the model's choice, log
entry 49); and on the keeper a host request goes first, its reply raising ALERT. So each of these completes: dispatch. -/
def Obligations.Dispatching : Prop :=
  ∀ (s : State) (c : CoreId),
    let free := s.running = true ∧ s.isReady (coreFunc c) = true ∧ (s.core c).inv = none ∧ (s.core c).paused = false ∧
      s.therm.stop = none ∧ s.sleep.entry = none
    let noHost := s.host.req = none ∨ c ≠ 0
    let begins (n : Nat) : Nat := let m := max n (s.core c).goAt; if s.time.clk ≤ m + 1 then m + 12 else s.time.clk + 12
    (∀ (k : Fin 256) b e rest, free → noHost → vget s.bindings k = some b → b.pend = e :: rest →
      (b.coreSel = 0 ∧ c ≠ 0 ∨ b.coreSel = 5 ∧ c = 0 ∨ (b.coreSel ≠ 0 ∧ b.coreSel ≠ 5 ∧ b.coreSel.toNat = c.val)) →
      (s.tenant b.tenant).qout = false →
      ∃ u v, exec (.dispatch c) s = .next u ∧ (u.core c).inv = some v ∧ b.prio.toNat ≤ v.prio.toNat ∧
        (v.prio = b.prio → v.evTime ≤ e.time) ∧ (∀ d, d ≠ c → u.core d = s.core d) ∧ u.mem = s.mem) ∧
    (∀ (k : Fin 256) d b e rest, free → noHost → selectFor s c = some d → d.pendingEv = true → d.ix = k.val →
      vget s.bindings k = some b → b.pend = e :: rest → ∃ u, exec (.dispatch c) s = .next u ∧
        vget u.bindings k = some { b with pend := rest } ∧ (u.regs c).pc = b.handler ∧
        vget (u.regs c).w 0 = BitVec.ofNat 32 (b.src.toNat + (if e.raised then 256 else 0)) ∧ vget (u.regs c).w 1 = e.arg ∧
        vget (u.regs c).w 2 = BitVec.ofNat 32 e.time ∧ vget (u.regs c).w 3 = BitVec.ofNat 32 (e.time / 2 ^ 32) ∧
        (∀ i, 4 ≤ i.val → vget (u.regs c).w i = 0) ∧ (u.regs c).fl.prio = b.prio ∧ (u.regs c).fl.stat = 0 ∧
        ∃ v, (u.core c).inv = some v ∧ v.tenant = b.tenant ∧ v.budget = b.budget ∧ v.used = 0 ∧ v.evTime = e.time ∧
        (u.core c).goAt = begins e.clk) ∧
    (∀ (k : Fin 16) d sv, free → noHost → selectFor s c = some d → d.pendingEv = false → d.ix = k.val →
      vget s.ctx k = some sv → ∃ u, exec (.dispatch c) s = .next u ∧ vget u.ctx k = none ∧ (u.core c).inv = some sv.inv ∧
        (u.regs c).w = sv.regs.w ∧ (u.regs c).v = sv.regs.v ∧ (u.regs c).acc = sv.regs.acc ∧ (u.regs c).pc = sv.regs.pc ∧
        (u.regs c).fl.core = BitVec.ofNat 3 c.val ∧ (u.regs c).fl.stat = sv.regs.fl.stat ∧
        (u.core c).goAt = begins sv.since) ∧
    ((s.core c).inv ≠ none ∨ s.running = false → exec (.dispatch c) s = .next s) ∧
    (∀ q, c = 0 → free → (s.core c).stall = none → s.host.req = some q → q.opc = 0x30 → q.left = 1 →
      let w := wordAt q.words 0
      let tops := q.tag.toNat * 2 ^ 16 + 0x30 * 2 ^ 24
      let answered (n : Nat) : Prop := ∃ u, exec (.dispatch c) s = .next u ∧ u.host.reply.head? = some (BitVec.ofNat 32 (n + tops)) ∧
        u.host.rdy = true ∧ u.host.busy = false ∧ u.host.alert = true ∧ (u.core 0).inv = none
      q.fcode = 0 → q.tag.toNat < 32 →
      (decodeCore 0 w = none → answered 256) ∧
      (∀ f, decodeCore 0 w = some (.qen 0 f) → s.boot.phase ≠ .done → answered 0x10) ∧
      (∀ f, decodeCore 0 w = some (.bra 0 f) → s.boot.phase = .done → answered 0x16) ∧
      (∀ f, decodeCore 0 w = some (.movl 0 f) → s.boot.phase = .done → answered 0))

/-- R46, R77, R80 to R82, R108 to R110: what comes due. A timer whose compare is reached, in a clock after its ALARM,
expires at the end of the clock: it raises its event with its count, and a one-shot disarms. A WAIT past its deadline
goes on with ST_TIMEOUT at the end of the clock unless an event has released it; an invocation at its budget ends at the
boundary with FLT_BUDGET and nothing else of the state changes than a fault changes, and one past its tenant's quota
ends there too; a new quota period clears QUSED and QOUT. So each of these completes: timerExpiry,
waitTimeout, budgetExhausted, quotaExhausted, quotaPeriod. -/
def Obligations.TimersAndLimits : Prop :=
  ∀ (s : State) (n : Fin 8) (k : Fin 16) (c : CoreId) (t : Tid), s.running = true → s.sleep.entry = none →
    let x := vget s.timers n
    let y := s.tenant t
    let due : Host.Outcome State Fault Refusal :=
      .next { s with timers := vset s.timers n { x with due := some (x.passed.getD s.time.hive) } }
    let fired (z : Nat) (kind : TimerKind) : State :=
      State.event { s with timers := vset s.timers n ⟨kind, x.owner, x.count + 1, x.since, none, none⟩ } (0x90 + n.val)
        (BitVec.ofNat 32 (x.count + 1)) z
    let standing := (s.core c).stall = none ∧ (s.core c).paused = false ∧ (s.core c).paid = 0
    (∀ cmp w, x.kind = .at cmp w →
      (exec (.timerExpiry n) s = if x.since < s.time.clk ∧ cmp ≤ s.time.hive then due else .next s) ∧
      (∀ z, x.due = some z → expireTimer s n = fired z .off)) ∧
    (∀ p nx, x.kind = .every p nx →
      (exec (.timerExpiry n) s = if x.since < s.time.clk ∧ nx ≤ s.time.hive then due else .next s) ∧
      (∀ z, x.due = some z → expireTimer s n = fired z (.every p (nx + p)))) ∧
    (x.kind = .off → exec (.timerExpiry n) s = .next s) ∧
    (x.due = none → expireTimer s n = s) ∧
    (∀ sv src d rd e, vget s.ctx k = some sv → sv.kind = .waiting src (some d) rd e →
      (exec (.waitTimeout k) s = if d ≤ s.time.hive then
        .next { s with ctx := vset s.ctx k (some { sv with kind := .waiting src (some d) rd true }) } else .next s) ∧
      (∀ m, e = true → timeoutSaved m (some sv) = some { sv with
        kind := .ready, since := m, regs := { sv.regs with fl := { sv.regs.fl with stat := 0x19 } } }) ∧
      (∀ a l m, timeoutSaved m (releaseBy src a l (some sv)) = some { sv with
        kind := .ready, since := l
        regs := { sv.regs with w := vset sv.regs.w rd a, fl := { sv.regs.fl with stat := 0x00 } } })) ∧
    (∀ v, (s.core c).inv = some v → standing → v.stopped = false →
      v.revoked = false → v.quotaOut = false → v.budget ≠ 0 →
      (v.used < v.budget.toNat * 16 → exec (.budgetExhausted c) s = .next s) ∧
      (v.budget.toNat * 16 ≤ v.used → ∃ u, exec (.budgetExhausted c) s = .next u ∧ (u.core c).inv = none ∧
        (u.tenant v.tenant).fcode = 4 ∧ (u.tenant v.tenant).faddr = (s.regs c).pc ∧
        (u.tenant v.tenant).nfault = satInc (s.tenant v.tenant).nfault ∧ u.mem = s.mem ∧
        u = fault c 4 (s.regs c).pc s)) ∧
    (y.qout = true → ∃ u, exec (.quotaExhausted t) s = .next u ∧ u.mem = s.mem ∧
      (∀ v, (s.core c).inv = some v → v.tenant = t → v.quotaOut = true → standing → (u.core c).inv = none) ∧
      (∀ d, (∀ v, (s.core d).inv = some v → v.tenant ≠ t) → u.core d = s.core d)) ∧
    (y.qout = false → exec (.quotaExhausted t) s = .next s) ∧
    (exec (.quotaPeriod t) s = .next (
      if y.quota ≠ 0 ∧ y.qperiod ≠ s.time.hive / y.period then
        s.setTenant t { y with qused := 0, qout := false, qperiod := s.time.hive / y.period }
      else s))

/-- R34, R47 to R49, R138, R191, R192, R412, R456: stalls and idle domains. A stall lasts until its function is ready or
has failed, its wake-up is over, the LEAVE frames have ended or its read of flash is served, and the instruction then
goes on from order 4; one that lasts twice its time fails the function, and the instruction retires with ST_NOTREADY. An
on-demand domain that is idle for its time powers down. So each of these completes: stallEnd, stallTimeout,
domainIdleOff. -/
def Obligations.StallEvents : Prop :=
  ∀ (s : State) (c : CoreId) (st : Stall) (d : Domain), s.running = true →
    let held := (s.core c).stall = some st ∧ (s.core c).paused = false
    (∀ f u, held → c ≠ 0 → st.instr = .qen c f → st.why = .start → st.fetch = false → st.fn = .queues → st.long = true →
      s.isReady .queues = true → vget s.sleep.upAt (Domain.idx .core) = none →
      exec (.qen c f) (s.setCore c { s.core c with stall := none, resuming := true }) = .next u →
      exec (.stallEnd c) s = .next u) ∧
    (held → st.why = .start → s.isReady st.fn = false → s.hasFailed st.fn = false → exec (.stallEnd c) s = .next s) ∧
    (∀ t, held → st.why = .wake t → s.time.phys < t → s.hasFailed st.fn = false → exec (.stallEnd c) s = .next s) ∧
    (∀ a n, held → st.why = .flashOp a n → flashServed a n (settleWake st s) = false → exec (.stallEnd c) s = .next s) ∧
    (held → st.why = .leaving → s.hive.leaving ≠ none → exec (.stallEnd c) s = .next s) ∧
    (∀ t, held → st.why = .wake t → s.time.phys ≤ t + wakeUs st.fn * 192 → exec (.stallTimeout c) s = .next s) ∧
    (held → (∃ a n, st.why = .flashOp a n) ∨ st.why = .leaving → exec (.stallTimeout c) s = .next s) ∧
    ((s.core c).stall = none → exec (.stallEnd c) s = .next s ∧ exec (.stallTimeout c) s = .next s) ∧
    (∀ f v, held → c ≠ 0 → (s.core c).inv = some v → st.instr = .aoutStart c f → st.why = .start → st.fetch = false →
      st.fn = .aout → s.isReady .aout = false → (s.core c).goAt ≤ s.time.clk →
      (s.time.phys ≤ s.boot.relPhys + 163200 → exec (.stallTimeout c) s = .next s) ∧
      (s.boot.relPhys + 163200 < s.time.phys → ∃ u, exec (.stallTimeout c) s = .next u ∧ (u.core c).stall = none ∧
        (u.regs c).fl.stat = 0x14 ∧ (u.regs c).pc = (s.regs c).pc + 4 ∧ (u.regs c).w = (s.regs c).w ∧
        u.hasFailed .aout = true ∧ (∀ k, (u.aout k).st = .fault))) ∧
    (d ≠ .sense → s.domOn d = true → domTouched d s = false → idleDue d s = true →
      ∃ u, exec (.domainIdleOff d) s = .next u ∧ u.domOn d = false ∧ vget u.sleep.upAt (Domain.idx d) = none ∧
        (∀ e, e ≠ d → u.domOn e = s.domOn e) ∧ u.mem = s.mem ∧ u.time = s.time) ∧
    (s.domOn .sense = true → domTouched .sense s = false → sensorsOff s = true →
      ∃ u, exec (.domainIdleOff .sense) s = .next u ∧ u.domOn .sense = false ∧
        ∀ k : SensorId, k.val < 3 → (u.sensor k).warm = false ∧ (u.sensor k).warmAt = none) ∧
    (s.domOn d = false ∨ idleDue d s = false → exec (.domainIdleOff d) s = .next s) ∧
    (d = .core ∨ d = .aon ∨ d = .sramCode ∨ d = .sramData → exec (.domainIdleOff d) s = .next s)

/-! ## Resets, start-up and loading (chapters 3 and 4) -/

/-- R129 to R133, R135, R142, R157, R167, R187, R487: resets. A reset keeps the flash die and begins a release; the
release point samples the straps, runs L1 and powers every domain; hive time is zero and invalid after it unless
Hibernate carried it. A pulse between two limits either takes effect or does not, as a free value says (log entry 2). So
each of these completes: powerOnReset, pgoodLow, externalReset, resetRelease. -/
def Obligations.ResetEvents : Prop :=
  ∀ (s : State) (ns : Nat) (mb te : Bool),
    let quiet := s.journal.op = none ∧ s.journal.burn = none
    let fresh (u : State) (cause : BitVec 3) : Prop := u.boot.cause = cause ∧ u.boot.ready = 0 ∧ u.boot.fail = 0 ∧
      (∀ c, u.core c = Core.idle) ∧ (∀ k, vget u.bindings k = none) ∧ (∀ t, (u.tenant t).state = .vacant) ∧
      u.sleep.holds = 0 ∧ u.sleep.wake.code = 1 ∧ u.level.cur = 1 ∧ u.pending = s.pending ∧
      u.journal.sealed = s.journal.sealed ∧ u.mem = s.mem.filter (fun x => inSpan 0x08000000 0x800000 x.1)
    (quiet → s.time.mode = .off → ∃ u, exec .powerOnReset s = .next u ∧ fresh u 0 ∧ u.time.mode = .releasing ∧
      u.time.relAt = some 28800) ∧
    (s.time.mode ≠ .off → exec .powerOnReset s = .next s) ∧
    (s.time.mode = .off ∨ ns < 50 → exec (.pgoodLow ns) s = .next s) ∧
    (quiet → s.time.mode ≠ .off → 200 ≤ ns → ∃ u, exec (.pgoodLow ns) s = .next u ∧ fresh u 0 ∧ u.time.mode = .off ∧
      u.sleep.domains = 1) ∧
    (s.time.mode ≠ .off → 50 ≤ ns → ns < 200 → ∃ u, exec (.pgoodLow ns) s = .next u ∧
      (u = { s with free := s.free + 1 } ∨ u.time.mode = .off)) ∧
    (s.time.mode = .off ∨ ns < 100 → exec (.externalReset ns) s = .next s) ∧
    (quiet → s.time.mode ≠ .off → 1000 ≤ ns → ∃ u, exec (.externalReset ns) s = .next u ∧ fresh u 1 ∧
      u.time.mode = .releasing ∧ u.time.phys = s.time.phys ∧ u.time.relAt = some (s.time.phys + 7680)) ∧
    (s.time.mode ≠ .off → 100 ≤ ns → ns < 1000 → ∃ u, exec (.externalReset ns) s = .next u ∧
      (u = { s with free := s.free + 1 } ∨ u.boot.cause = 1)) ∧
    (∀ t, s.time.mode = .releasing → s.time.relAt = some t → t ≤ s.time.phys → s.time.relAck = false →
      s.time.phys % 24 = 0 → ∃ u, exec (.resetRelease mb te) s = .next u ∧ u.time.mode = .running ∧ u.boot.mode = mb ∧
        u.boot.testEn = te ∧ u.boot.cause = s.boot.cause ∧ u.boot.ready = 0 ∧ u.sleep.domains = 0xFFF ∧
        u.level.vcode = 0x28 ∧ u.level.seq = s.level.seq ∧ u.level.ntimeout = 0 ∧ u.boot.bootst = (if te then 0x10 else 0x01) ∧ u.mem = s.mem ∧
        (mb = false → te = false → (u.port 0).st = .run) ∧ (mb = true → (u.port 0).st = (s.port 0).st) ∧
        (s.boot.htv = false → u.time.hive = 0 ∧ u.time.valid = false) ∧
        (s.boot.htv = true → u.time.hive = (s.time.hive + (s.time.phys - s.time.hiveAt)) % 2 ^ 64 ∧
          u.time.valid = s.time.valid)) ∧
    (∀ t, s.time.mode ≠ .releasing ∨ (s.time.relAt = some t ∧ s.time.phys < t) ∨ s.time.relAck = true ∨ s.time.phys % 24 ≠ 0 →
      exec (.resetRelease mb te) s = .next s)

/-- R138 to R141, R144, R148 to R151, R153, R247, R284: start-up. A function sets READY within its Max time and then
either bit never changes; KEEPER drives WAKE_OUT high and starts the boot; a function that fails puts its units in
FAULT; the doorbell arms an attempt 64 clocks later, during the check of R153 one for its end, and one that names no
image in place ends with ST_RANGE. So each of these completes: functionReady, functionFail, doorbellStore, bootAttempt.
-/
def Obligations.StartUpEvents : Prop :=
  ∀ (s : State) (f : Func) (w : Word), s.running = true →
    let b := s.boot
    let open_ := s.isReady f = false ∧ s.hasFailed f = false ∧ s.time.phys ≤ b.relPhys + usTicks (2 * readyUs f - 150)
    let set (u : State) : Prop := ∀ g, u.isReady g = (s.isReady g || decide (g = f))
    (f ∉ [Func.keeper, .journal, .thermal, .accA, .accB, .gyro, .aout] → open_ → exec (.functionReady f) s =
      .next { s with boot := { b with ready := b.ready ||| BitVec.twoPow 32 (Func.idx f) } }) ∧
    (f = .keeper → open_ → b.testEn = false → ∃ u, exec (.functionReady f) s = .next u ∧ set u ∧ u.therm.wakeOut = true ∧
      u.boot.keeperClk = s.time.clk ∧ u.boot.phase =
        (if b.cause = 3 then .thermal else if b.mode then .fixed (s.time.clk + 4096)
          else match b.bell with | some c => .armed c | none => .waiting)) ∧
    (f = .thermal → open_ → ∃ u, exec (.functionReady f) s = .next u ∧ set u ∧ u.therm.lastIx = s.time.hive / 192000) ∧
    (f = .aout → open_ → (2700 ≤ s.vaout → exec (.functionReady f) s =
        .next { s with boot := { b with ready := b.ready ||| BitVec.twoPow 32 12 } }) ∧
      (s.vaout < 2700 → ∃ u, exec (.functionReady f) s = .next u ∧ u.hasFailed .aout = true ∧
        u.isReady .aout = false ∧ (∀ k, (u.aout k).st = .fault))) ∧
    (f = .gyro → open_ → (∀ c, (s.core c).stall = none) → ∃ u, exec (.functionReady f) s = .next u ∧ set u ∧
      (u.sensor 2).warm = false ∧ (u.sensor 2).warmAt = none ∧ (u.sensor 2).st = (s.sensor 2).st) ∧
    (f = .journal → open_ → b.testEn = false → b.jdecided = false → findDescriptor s = none →
      ∃ u, exec (.functionReady f) s = .next u ∧ set u ∧ u.boot.jmode = 0 ∧ u.boot.jdecided = true ∧
        u.journal.st = s.journal.st) ∧
    (s.isReady f = true ∨ s.hasFailed f = true ∨ b.relPhys + usTicks (2 * readyUs f - 150) < s.time.phys →
      exec (.functionReady f) s = .next s) ∧
    (s.isReady f = false → s.hasFailed f = false → 5 ≤ Func.idx f → Func.idx f ≤ 13 → f ≠ .flash →
      ∃ u, exec (.functionFail f) s = .next u ∧ u.hasFailed f = true ∧ u.isReady f = false ∧ u.mem = s.mem ∧
        (f = .comb → ∀ k, (u.ring k).st = .fault) ∧ (f = .gyro → (u.sensor 2).st = .fault ∧ (u.sensor 2).next = none) ∧
        (f = .journal → u.journal.st = .fault) ∧ (f = .radio → u.hive.st = .fault)) ∧
    (Func.idx f < 5 ∨ 13 < Func.idx f → exec (.functionFail f) s = .next s) ∧
    (f = .flash → s.isReady f = false → s.hasFailed f = false → ∃ u, exec (.functionFail f) s = .next u ∧
      u.hasFailed .flash = true ∧
      (∀ e, b.mode = true → b.testEn = false → b.phase = .fixed e →
        u.boot.bootst = 0x14 ∧ u.time.mode = .dormant ∧ u.sleep.armed.mask = 0x28) ∧
      (b.mode = false ∨ b.testEn = true → u.time.mode = .running ∧ u.boot.bootst = b.bootst)) ∧
    (s.isReady .ports = true → b.mode = false →
      (b.phase = .waiting → ∃ u, exec (.doorbellStore w) s = .next u ∧ u.boot.phase = .armed (s.time.clk + 64) ∧
        u.mem = memPuts s.mem 0x201FFFFC (wordBytes w)) ∧
      (b.phase = .thermal → b.bell = none → ∃ u, exec (.doorbellStore w) s = .next u ∧ u.boot.phase = .thermal ∧
        u.boot.bell = some (s.time.clk + 64) ∧ u.mem = memPuts s.mem 0x201FFFFC (wordBytes w))) ∧
    ((b.phase ≠ .waiting ∧ b.phase ≠ .thermal) ∨ s.isReady .ports = false ∨ b.mode = true →
      exec (.doorbellStore w) s = .next s) ∧
    (∀ e, b.phase = .armed e → s.therm.stop = none → e ≤ s.time.clk → s.ecc = [] → s.unseen = ⟨[], []⟩ →
      (memWord s.mem 0x201FFFFC).toNat ≠ (headerAt s 0x20100000).total → ∃ u, exec .bootAttempt s = .next u ∧
        u.boot.bootst = 0x16 ∧ u.boot.phase = .waiting ∧ u.boot.attempts = satInc b.attempts ∧ u.boot.slot = 3 ∧
        u.loader = s.loader) ∧
    (∀ e, b.phase = .armed e → s.time.clk < e → exec .bootAttempt s = .next s) ∧
    (∀ e, b.phase = .fixed e → s.therm.stop = none → e ≤ s.time.clk → b.jdecided = true → s.hasFailed .flash = true →
      ∃ u, exec .bootAttempt s = .next u ∧ u.boot.bootst = 0x14 ∧ u.time.mode = .dormant ∧ u.sleep.armed.mask = 0x28)

/-- R111 to R118, R124, R127, R145, R146: the loader. A load that has run its clocks with its signature and bindings
good makes its tenant ACTIVE, or starts the owner with 0xB8 in the next clock; one that fails, or that a REVOKE has
stopped, starts the clean-up at 4 bytes a clock, whose end has zeroed the code window and settles the tenant's state
with its status. So each of these completes: spoolLoadDone, ownerLoadDone, spoolLoadFail, loadCleanupEnd. -/
def Obligations.LoaderEvents : Prop :=
  ∀ (s : State) (l : Loader) (t : Tid), s.running = true → s.loader = some l →
    let w := loaderAdvance s
    let m := w.loader.getD l
    let good := m.eccBad = none ∧ edVerify m.pubkey (spoolDigest m) m.sig = true
    (∀ r, l.target = .tenant t → l.phase = .loading → l.revoked = false → l.startClk + l.clocks ≤ s.time.clk → good →
      installAll t m.binds w = .ok r →
      ∃ u, exec .spoolLoadDone s = .next u ∧ (u.tenant t).state = .active ∧ (u.tenant t).loadst = 0x00 ∧
        (u.tenant t).version = l.version ∧ u.loader = none ∧ u.bindings = r.bindings ∧ u.mem = r.mem) ∧
    (l.phase = .loading → s.time.clk < l.startClk + l.clocks → exec .spoolLoadDone s = .next s) ∧
    (l.phase = .loading → s.time.clk + 1 < l.startClk + l.clocks → exec .ownerLoadDone s = .next s) ∧
    (∀ r, l.target = .owner → l.phase = .loading → l.startClk + l.clocks ≤ s.time.clk + 1 → good →
      installAll 0 m.binds w = .ok r →
      ∃ u, exec .ownerLoadDone s = .next u ∧ u.later.getLast? = some (.event 0xB8 0x80000001) ∧
        u.boot.phase = .done ∧ u.boot.bootst = 0x00 ∧ u.loader = none ∧ (u.tenant 0).state = .active) ∧
    (l.target = .tenant t → l.phase = .loading → l.revoked = false → m.eccBad = none →
      edVerify m.pubkey (spoolDigest m) m.sig = false →
      (l.startClk + 512 + l.pass + 250000 ≤ s.time.clk → ∃ u x, exec .spoolLoadFail s = .next u ∧ u.loader = some x ∧
        x.phase = .cleanup (s.time.clk + spanBytes m.wipe / 4) ∧ x.wiped = 0 ∧ x.result = 0x1D ∧
        (u.tenant t).state = (s.tenant t).state) ∧
      (s.time.clk < l.startClk + 512 + l.pass + 250000 → exec .spoolLoadFail s = .next w)) ∧
    (l.phase = .loading → l.revoked = true → ∃ x, (loaderClock s).loader = some x ∧
      x.phase = .cleanup (s.time.clk + spanBytes m.wipe / 4) ∧ x.result = 0x11 ∧ x.revoked = true) ∧
    (∀ e, s.early = [] → l.target = .tenant t → l.phase = .cleanup e → e ≤ s.time.clk → 0x20000000 ≤ l.win.1 →
      l.win.1 + l.win.2 ≤ 0x20080000 → ∃ u, exec .loadCleanupEnd s = .next u ∧ u.loader = none ∧
        (u.tenant t).state = (if l.revoked then .vacant else .granted) ∧ (u.tenant t).loadst = l.result ∧
        (l.result = 0x1D → (u.tenant t).sigfail = satInc (s.tenant t).sigfail) ∧
        (l.wiped = 0 → ∀ a, l.win.1 ≤ a → a < l.win.1 + l.win.2 → memGet u.mem a = 0)) ∧
    (∀ e, s.early = [] → l.phase = .cleanup e → s.time.clk < e → exec .loadCleanupEnd s = .next s) ∧
    (s.early = [] → l.phase = .loading → exec .loadCleanupEnd s = .next s)

/-! ## Clock, levels and the supply link (chapter 5) -/

/-- R161, R163, R164, R169, R172, R174, R176, R177, R180, R183: the supply link and what a level change does at each of
its events. A frame starts at a whole microsecond with the layout of Table 5.7 and the next SEQ, the OFF frame of sleep
entry after the change in progress; an acknowledgement between 26 and 424 microseconds after it goes on with the change
and a timeout restores the level; bias and assist follow in the next clock, the clock switches at a common edge, and the
end of a change raises 0xB8 in the next clock; and in Hibernate hive time advances at the wraps of the phase counter. So
each of these completes: srlFrameStart, srqAck, srlTimeout, clockSwitch, aonAdvance. -/
def Obligations.ClockAndLink : Prop :=
  ∀ (s : State) (f : SrlFrame) (r : List SrlFrame) (ch : LevelChange) (st : Nat), s.early = [] →
    let L := s.level
    let lv (K : LevelSt) : State := { s with level := K }
    let crystal := s.time.mode = .running ∨ s.time.mode = .releasing ∨ s.time.mode = .postStop
    let nib (w : BitVec 24) (k : Nat) : Nat := w.toNat / 16 ^ k % 16
    let awaited := f.why ≠ .stopOff ∧ f.why ≠ .ended
    let now := L.srl = f :: r ∧ f.started = some st ∧ st + 4992 ≤ s.time.phys ∧ s.time.phys ≤ st + 81408
    let late := L.srl = f :: r ∧ f.started = some st ∧ st + 81408 ≤ s.time.phys
    let edge := L.change = some ch ∧ s.running = true ∧ s.time.phys % 24 = 0
    let arg (t : BitVec 2) (code : Nat) : Word := BitVec.ofNat 32 (t.toNat + ch.was.toNat * 4 + (if ch.forced then 16 else 0) + code * 256)
    let locked := ∃ p, L.pll = some p ∧ p ≤ s.time.phys
    (crystal → L.srl = f :: r → f.started = none → f.why ≠ .sleepOff ∨ L.change = none → f.decided < s.time.phys →
      s.time.phys % 192 = 0 →
      ∃ g, exec .srlFrameStart s = .next (lv { L with seq := L.seq + 1, srl := g :: r }) ∧ g.started = some s.time.phys ∧
        g.why = f.why ∧ nib g.word 5 = 0xB ∧
        nib g.word 4 = f.lvl.toNat + (if f.why = .sleepOff ∨ f.why = .stopOff then 4 else 0) ∧
        nib g.word 3 * 16 + nib g.word 2 = f.vcode.toNat ∧ nib g.word 1 = (L.seq + 1).toNat ∧
        nib g.word 0 = nib g.word 1 ^^^ nib g.word 2 ^^^ nib g.word 3 ^^^ nib g.word 4 ^^^ nib g.word 5) ∧
    (L.srl = f :: r → f.why = .sleepOff → L.change ≠ none → exec .srlFrameStart s = .next s) ∧
    (L.srl = [] ∨ s.time.phys % 192 ≠ 0 → exec .srlFrameStart s = .next s) ∧
    (L.srl = f :: r → f.started = some st → ¬ awaited → dropSent s =
      if st + 4704 ≤ s.time.phys then lv { L with srl := r } else s) ∧
    (now → f.why = .change → L.change = some ch → ch.was.toNat < ch.tgt.toNat → L.fixed = false →
      exec .srqAck s = .next { s with
        level := { L with srl := r, vcode := levelVcode ch.tgt
                          change := some { ch with phase := .biasUp (s.time.phys + levelInc L.cur + 3840) } }
        later := s.later ++ [.bias ch.tgt] }) ∧
    (∀ l, (doLater s (.bias l)).level.bb = levelBb l ∧ (doLater s (.bias l)).level.as_ = levelAs l ∧
      (L.as_ ≠ levelAs l → (doLater s (.bias l)).level.asClk = some s.time.clk)) ∧
    (now → f.why = .change → L.change = some ch → ch.tgt.toNat ≤ ch.was.toNat → L.forceNext = false →
      exec .srqAck s = .next { s with
        level := { L with srl := r, vcode := levelVcode ch.tgt, change := none, tgt := L.cur, nchange := satInc L.nchange }
        later := s.later ++ [.event 0xB8 (arg L.cur 0)] }) ∧
    (now → f.why = .wake → exec .srqAck s = .next { s with
      level := { L with srl := r, vcode := f.vcode }
      time := { s.time with relAck := false, relAt := some (max (s.time.relAt.getD 0) (s.time.phys + 1920)) } }) ∧
    (L.srl = f :: r → f.started = some st → s.time.phys < st + 4992 ∨ st + 81408 < s.time.phys → exec .srqAck s = .next s) ∧
    (late → f.why = .change ∨ f.why = .restore → L.change = some ch → ∃ g, exec .srlTimeout s = .next (lv { L with
        srl := insertFrame g r, ntimeout := satInc L.ntimeout, change := some { ch with phase := .restoreFrame } }) ∧
      g.why = .restore ∧ g.lvl = ch.was ∧ g.vcode = levelVcode ch.was ∧ g.started = none ∧ g.decided = s.time.phys ∧
      (∀ h, r = [h] → h.started = none → h.why = .sleepOff → insertFrame g r = [g, h])) ∧
    (late → f.why = .wake → exec .srlTimeout s = .next (lv { L with
        srl := insertFrame { f with decided := s.time.phys, started := none } r, ntimeout := satInc L.ntimeout })) ∧
    (L.srl = f :: r → f.started = some st → s.time.phys < st + 81408 → exec .srlTimeout s = .next s) ∧
    (∀ e, edge → (ch.phase = .biasUp e ∧ e ≤ s.time.phys ∨ ch.phase = .fixedSwitch ∧ ch.start < s.time.phys) → locked →
      L.forceNext = false → ∃ u, exec .clockSwitch s = .next u ∧ u.level.cur = ch.tgt ∧ u.level.change = none ∧
        u.level.tgt = ch.tgt ∧ u.level.nchange = satInc L.nchange ∧ u.mem = s.mem ∧ u.time = s.time ∧
        u.later = s.later ++ [.event 0xB8 (arg ch.tgt 0)]) ∧
    (edge → ch.phase = .switchDown → ch.start < s.time.phys → L.fixed = false → ∃ (u : State) (g : SrlFrame),
      exec .clockSwitch s = .next u ∧
      u.level.cur = ch.tgt ∧ (ch.tgt = 0 → u.level.pll = none) ∧ u.level.change = some { ch with phase := .frame } ∧
      u.level.srl = insertFrame g L.srl ∧ g.why = .change ∧ g.lvl = ch.tgt ∧ g.vcode = levelVcode ch.tgt ∧
      g.decided = s.time.phys + levelInc ch.tgt + 3840 ∧ u.later = s.later ++ [.bias ch.tgt]) ∧
    (L.change = none ∨ s.time.phys % 24 ≠ 0 → exec .clockSwitch s = .next s) ∧
    ((s.time.mode = .hibernate ∧ wakeDue s = false) ∨ (s.time.mode = .releasing ∧ s.boot.htv = true ∧ s.boot.cause = 2) →
      (s.time.phys - s.time.phase0) / 6 % 1024 = 0 → s.time.hiveAt < s.time.phys →
      let h := (s.time.hive + (s.time.phys - s.time.hiveAt)) % 2 ^ 64
      let t : State := { s with time := { s.time with hive := h, hiveAt := s.time.phys } }
      let A := s.sleep.armed
      ((∀ p ∈ A.cmps, h < p.2) → exec .aonAdvance s = .next t) ∧
      (∀ n c, s.time.mode = .hibernate → A.cmps = [(n, c)] → c ≤ h → A.mask.getLsbD 9 = true → A.flags = [] →
        exec .aonAdvance s = .next { t with
          sleep := { s.sleep with armed := { A with flags := [⟨9, n, s.time.phys, s.time.clk + 2⟩] } } })) ∧
    ((s.time.mode ≠ .hibernate ∨ wakeDue s = true) → (s.time.mode ≠ .releasing ∨ s.boot.htv = false ∨ s.boot.cause ≠ 2) →
      exec .aonAdvance s = .next s) ∧
    [levelVcode 0, levelVcode 1, levelVcode 2, levelVcode 3] = [0x1E, 0x28, 0x3C, 0x54] ∧
    [levelInc 0, levelInc 1, levelInc 2, levelInc 3] = [24, 6, 2, 1] ∧
    [levelBb 0, levelBb 1, levelBb 2, levelBb 3] = [3, 2, 1, 0] ∧ [levelAs 0, levelAs 1, levelAs 2, levelAs 3] = [1, 1, 2, 2]

/-! ## Sleep and wake (chapter 6) -/

/-- R195, R196, R198, R199, R205, R445: the wake detectors. While they are armed, the select of a port for 50 ns, the
waggle pattern on its clock and data, the selected edge of an enabled pin of a powered bank and a listener window above
its threshold latch their source once, as the newest flag, which an abort test sees two clocks later. A listener window
powers RADIO for 192 microseconds, or for up to 5 ms to hear a waggle frame. So each of these completes: wakeActivity,
wakeWaggle, wakeLine, listenerWindow. -/
def Obligations.WakeDetectors : Prop :=
  ∀ (s : State) (ns : Nat) (b : Bool) (p : Fin 2) (pin : Fin 48) (r : RfWindow),
    let A := s.sleep.armed
    let set (B : ArmedSet) : State := { s with sleep := { s.sleep with armed := B } }
    let ready (n : Nat) := detecting s = true ∧ A.mask.getLsbD n = true ∧ (∀ w ∈ A.flags, w.code ≠ n) ∧ s.time.mode ≠ .releasing
    let flag (n i : Nat) : WakeFlag := ⟨n, i, s.time.phys, s.time.clk + 2⟩
    let heard (B : ArmedSet) (us : Nat) : State := { s with sleep := { s.sleep with
      armed := B, listenTo := s.time.phys + us * 192, domains := (s.setDom .radio true).sleep.domains } }
    let onL := 1620 ≤ s.vioL ∧ s.vioL ≤ 3630
    let on := 1140 ≤ s.vioH ∧ s.vioH ≤ 1980
    let sh (w : Word) : Word := (w <<< 1) ||| (if b then 1 else 0)
    let thr : Int := -100 + max 5 (min 60 (A.edthr.toNat : Int))
    let due := s.time.mode = .hibernate ∧ A.lastWin + (A.lper.toNat + 1) * 1536000 ≤ s.time.phys
    (on → 50 ≤ ns → ready 2 → exec (.wakeActivity 0 ns) s = .next (set { A with wag0 := 0, flags := A.flags ++ [flag 2 0] })) ∧
    (on → 50 ≤ ns → ready 4 → exec (.wakeActivity 1 ns) s = .next (set { A with wag2 := 0, flags := A.flags ++ [flag 4 2] })) ∧
    (on → ns < 50 → exec (.wakeActivity 0 ns) s = .next (set { A with wag0 := 0 }) ∧
      exec (.wakeActivity 1 ns) s = .next (set { A with wag2 := 0 })) ∧
    (¬on → exec (.wakeActivity p ns) s = .next s ∧ exec (.wakeWaggle p b) s = .next s) ∧
    (on → sh A.wag0 ≠ 0xA55AC33C → exec (.wakeWaggle 0 b) s = .next (set { A with wag0 := sh A.wag0 })) ∧
    (on → sh A.wag0 = 0xA55AC33C → ready 3 →
      exec (.wakeWaggle 0 b) s = .next (set { A with wag0 := 0xA55AC33C, flags := A.flags ++ [flag 3 0] })) ∧
    (on → sh A.wag2 ≠ 0xA55AC33C → exec (.wakeWaggle 1 b) s = .next (set { A with wag2 := sh A.wag2 })) ∧
    (on → sh A.wag2 = 0xA55AC33C → ready 5 →
      exec (.wakeWaggle 1 b) s = .next (set { A with wag2 := 0xA55AC33C, flags := A.flags ++ [flag 5 2] })) ∧
    (onL → (pin.val, b) ∈ A.pins → ready 8 → exec (.wakeLine pin b) s = .next (set { A with flags := A.flags ++ [flag 8 pin.val] })) ∧
    (¬onL ∨ (pin.val, b) ∉ A.pins ∨ (∃ w ∈ A.flags, w.code = 8) → exec (.wakeLine pin b) s = .next s) ∧
    (due → thr < r.dbm → ready 6 → exec (.listenerWindow r) s =
      .next (heard { A with lastWin := s.time.phys, flags := A.flags ++ [flag 6 (11 + A.ch.toNat)] } 192)) ∧
    (due → thr < r.dbm → A.mask.getLsbD 6 = false → ready 7 → listenerTakes r s = true → exec (.listenerWindow r) s =
      .next (heard { A with lastWin := s.time.phys, flags := A.flags ++ [flag 7 (11 + A.ch.toNat)] } 5000)) ∧
    (due → thr < r.dbm → A.mask.getLsbD 6 = false → A.mask.getLsbD 7 = true → listenerTakes r s = false →
      exec (.listenerWindow r) s = .next (heard { A with lastWin := s.time.phys } 5000)) ∧
    (due → r.dbm ≤ thr → A.mask.getLsbD 6 = true ∨ A.mask.getLsbD 7 = true →
      exec (.listenerWindow r) s = .next (heard { A with lastWin := s.time.phys } 192)) ∧
    (r.hr ≠ A.hr → listenerTakes r s = false) ∧
    ((s.setDom .radio true).domOn .radio = true) ∧
    (s.time.mode = .hibernate → s.sleep.listenTo ≤ s.time.phys → (endWindow s).domOn .radio = false) ∧
    (s.time.mode ≠ .hibernate ∨ s.time.phys < A.lastWin + (A.lper.toNat + 1) * 1536000 ∨
      (A.mask.getLsbD 6 = false ∧ A.mask.getLsbD 7 = false) → exec (.listenerWindow r) s = .next s)

/-- R187, R204, R205, R207, R210 to R214: sleep entry and the wake event. An entry's steps pause the cores, hold the
background work, latch the pads in the clock after, send the OFF frame and record the time; a flag visible between two
of them aborts the entry, which is undone a clock later and SLEEP retires with ST_OK; the last step loses all working
state but the flash. The wake event records its source, time and mask and begins a reset with CAUSE 2. So each of these
completes: sleepEntryStepEnd, srqAck, srlTimeout, wakeEvent. -/
def Obligations.WakeAndEntry : Prop :=
  ∀ (s : State) (e : Entry) (w : WakeFlag) (r : List WakeFlag),
    let A := s.sleep.armed
    let W := s.sleep.wake
    let quiet := s.journal.op = none ∧ s.journal.burn = none
    let live := s.running = true ∧ s.sleep.entry = some e ∧ e.ep = 0
    let calm := ∀ x ∈ A.flags, s.time.clk < x.visible
    let frame (f : SrlFrame) (t : Nat) := s.early = [] ∧ s.level.srl = [f] ∧ f.why = .sleepOff ∧ f.started = some t
    let at_ (k : Nat) : Entry := { e with step := k, since := s.time.clk, sincePhys := s.time.phys }
    (s.sleep.entry = none → exec .sleepEntryStepEnd s = .next s) ∧
    (live → e.step = 0 → s.time.clk = e.since → exec .sleepEntryStepEnd s = .next s) ∧
    (live → e.step = 0 → e.since < s.time.clk → calm → ∃ u, exec .sleepEntryStepEnd s = .next u ∧
      u.sleep.entry = some (at_ 1) ∧ (∀ c, u.core c = if (s.core c).stall.isSome = true ∨ (s.core c).paid = 0 then { s.core c with paused := true }
        else s.core c) ∧ u.mem = s.mem ∧ u.time = s.time) ∧
    (live → e.step = 1 → (∃ c, (s.core c).inv ≠ none ∧ (s.core c).paused = false) → exec .sleepEntryStepEnd s = .next s) ∧
    (live → e.step = 1 → (∀ c, (s.core c).inv = none ∨ (s.core c).paused = true) → calm → ∃ u, exec .sleepEntryStepEnd s = .next u ∧ u.sleep.entry = some (at_ 2) ∧
      u.sleep.discard = true ∧ u.journal = { s.journal with hold := true } ∧ u.mem = s.mem ∧ u.cores = s.cores) ∧
    (live → e.step = 2 → calm → ∃ u, exec .sleepEntryStepEnd s = .next u ∧ u.sleep.entry = some (at_ 3) ∧
      u.sleep.holds = s.sleep.holds ∧ u.mem = s.mem ∧ u.cores = s.cores) ∧
    (live → e.step = 3 → s.time.clk = e.since + 1 → let u := entryClock s
      (∀ g, g < 11 → u.sleep.holds.getLsbD g = (s.sleep.holds.getLsbD g || (g != 7 || s.boot.mode))) ∧
      u.sleep.bypass = (A.mask.getLsbD 4 || A.mask.getLsbD 5) ∧ u.mem = s.mem ∧ u.cores = s.cores) ∧
    (live → e.step = 3 → e.since + 2 ≤ s.time.clk → forcedChange s = false → calm → s.level.fixed = false → ∃ (u : State) (g : SrlFrame),
      exec .sleepEntryStepEnd s = .next u ∧ u.sleep.entry = some (at_ 4) ∧ u.level = { s.level with srl := s.level.srl ++ [g] } ∧
      g.why = .sleepOff ∧ g.decided = s.time.phys ∧ g.started = none) ∧
    (live → e.step = 3 → s.time.clk < e.since + 2 ∨ forcedChange s = true → exec .sleepEntryStepEnd s = .next s) ∧
    (live → e.step = 4 → calm → s.level.fixed = true → s.level.change = none → ∃ u, exec .sleepEntryStepEnd s = .next u ∧
      u.sleep.entry = some (at_ 5) ∧ u.sleep.wake.entryt = s.time.hive ∧ u.mem = s.mem) ∧
    (live → e.step = 4 → s.level.fixed = false → exec .sleepEntryStepEnd s = .next s) ∧
    (∀ f t, live → e.step = 4 → calm → frame f t → t + 4992 ≤ s.time.phys → s.time.phys ≤ t + 81408 → ∃ u,
      exec .srqAck s = .next u ∧ u.sleep.entry = some { at_ 5 with vOff := true } ∧ u.level.vcode = 0 ∧ u.level.srl = []) ∧
    (∀ f t, live → e.step = 4 → calm → frame f t → t + 81408 ≤ s.time.phys → ∃ u,
      exec .srlTimeout s = .next u ∧ u.sleep.entry = some { at_ 5 with vOff := false } ∧ u.level.vcode = s.level.vcode ∧
        u.level.ntimeout = satInc s.level.ntimeout) ∧
    (quiet → live → e.step = 5 → s.time.phys % 24 = 0 → ∃ u, exec .sleepEntryStepEnd s = .next u ∧
      u.time.mode = (if e.dormant then .dormant else .hibernate) ∧ u.time.hive = s.time.hive ∧ u.sleep.entry = none ∧
      u.sleep.domains = 1 ∧ u.sleep.holds = s.sleep.holds ∧ u.sleep.wake = { W with
        sleeps := satInc W.sleeps, von := !e.vOff, dormant := e.dormant } ∧ (∀ c, u.core c = Core.idle) ∧
      (∀ k, vget u.bindings k = none) ∧ u.sleep.armed = A ∧ u.sleep.handover = s.time.phys ∧ u.pending = s.pending ∧
      u.mem = s.mem.filter (fun x => inSpan 0x08000000 0x800000 x.1)) ∧
    (live → e.step = 0 → e.since < s.time.clk → A.flags = w :: r → w.visible ≤ s.time.clk →
      exec .sleepEntryStepEnd s = .next { s with sleep := { s.sleep with
        armed := ArmedSet.empty, entry := some { e with ep := 1, endAt := some (s.time.clk + 1) }
        refuse := { s.sleep.refuse with
          aborts := vset s.sleep.refuse.aborts 0 (satInc (vget s.sleep.refuse.aborts 0)), lastep := 1
          lastwake := BitVec.ofNat 8 w.code } } }) ∧
    (∀ c, s.sleep.entry = some e → 1 ≤ e.ep → e.ep ≤ 3 → e.endAt = some c → c ≤ s.time.clk → s.host.running = none →
      let u := entryClock s
      u.sleep.entry = none ∧ (u.regs e.core).pc = (s.regs e.core).pc + 4 ∧ (u.regs e.core).fl.stat = 0 ∧
        (u.regs e.core).w = (s.regs e.core).w ∧ (∀ d, (u.core d).paused = false) ∧ u.mem = s.mem ∧
        u.sleep.holds = s.sleep.holds) ∧
    (A.flags = [] → exec .wakeEvent s = .next s) ∧
    (s.time.mode = .hibernate → s.time.hiveAt ≠ s.time.phys ∨ wakeDue s = false → exec .wakeEvent s = .next s) ∧
    (A.flags = w :: r → (s.time.mode = .hibernate ∧ s.time.hiveAt = s.time.phys ∧ wakeDue s = true) ∨ s.time.mode = .dormant →
      ∃ u x, exec .wakeEvent s = .next u ∧ x ∈ A.flags ∧ (∀ y ∈ A.flags, s.time.mode = .hibernate ∨ y.at_ = w.at_ → x.code ≤ y.code) ∧
        (s.time.mode = .dormant → x.at_ = w.at_) ∧ u.boot.cause = 2 ∧ u.boot.htv = (s.time.mode == .hibernate) ∧
        u.time.mode = .releasing ∧ u.time.hive = s.time.hive ∧ u.time.relAck = !W.von ∧
        u.sleep.wake.code = BitVec.ofNat 8 x.code ∧ u.sleep.wake.info = BitVec.ofNat 8 x.info ∧
        u.sleep.wake.dormant = (s.time.mode == .dormant) ∧
        u.sleep.wake.waket = (if s.time.mode = .hibernate then s.time.hive else 0) ∧
        (∀ n, n < 16 → u.sleep.wake.mask.getLsbD n = A.flags.any (fun y => y.code == n)) ∧ u.sleep.holds = s.sleep.holds ∧
        u.sleep.bypass = false ∧ u.time.relAt = some (s.time.phys + (if s.time.mode = .dormant then 28800 else if W.von then 7680 else 0)) ∧
        (W.von = true → u.level.srl = []) ∧ (W.von = false → u.level.srl.map SrlFrame.why = [.wake] ∧
          u.level.srl.map SrlFrame.lvl = [1] ∧ u.level.srl.map SrlFrame.vcode = [0x28]) ∧ u.mem = s.mem) ∧
    (s.time.mode = .running → exec .wakeEvent s = .next s)

/-! ## Heat (chapter 7) -/

/-- R217, R218, R220, R223 to R236: a round of readings and what follows, the cut, the orderly stop and the restart.
Four clocks after a round starts the device clamps its readings, counts strikes against the median of the valid
neighbours, and takes Tmax over the valid sensors; it enters and leaves the throttle and warning ranges, and at 115
degrees begins the orderly stop, whose steps follow one another to the post-stop state; the comparator cuts at once; and
a restart below RPOINT is a reset with CAUSE 3. So each of these completes: thermalRound, thermalCut,
orderlyStopStepEnd, thermalRestart. -/
def Obligations.ThermalUnit : Prop :=
  ∀ (s : State) (r : ThermRead) (st : Stop), s.early = [] →
    let T := s.therm
    let quiet := s.journal.op = none ∧ s.journal.burn = none
    let temps : Vector Int 6 := #v[r.t0, r.t1, r.t2, r.t3, r.t4, r.t5]
    let due := s.running = true ∧ (∀ x, T.stop = some x → x.step ≠ 6) ∧ T.roundClk = some (s.time.clk - 4) ∧ 4 ≤ s.time.clk
    let pmic := s.level.fixed = false ∧ s.boot.phase = .done
    let p : Int := T.record.rpoint.toNat * 16
    let stopping := s.running = true ∧ T.stop = some st
    let next (k : Nat) (t : State) : Prop := t.therm.stop.map Stop.step = some k ∧
      t.therm.stop.map Stop.since = some s.time.phys ∧
      t.therm.record.step = BitVec.ofNat 3 k ∧ t.time = s.time
    (¬due → exec (.thermalRound r) s = .next s) ∧
    (due → ∃ u, exec (.thermalRound r) s = .next u ∧ (u.time.mode = .running ∨ u.time.mode = .postStop) ∧
      (u.running = true → u.therm.rounds = T.rounds + 1 ∧ u.therm.roundClk = none ∧ u.mem = s.mem ∧
        (∀ n, vget u.therm.read n = max (-800) (min 2400 (vget temps n))) ∧
        (∀ n, vget u.therm.valid n = true → vget u.therm.read n ≤ u.therm.tmax) ∧
        ((∃ n, vget u.therm.valid n = true) → u.therm.tmax = vget u.therm.read u.therm.tsrc ∧ vget u.therm.valid u.therm.tsrc = true) ∧
        (∀ n, vget T.valid n = false → vget u.therm.valid n = false) ∧
        (∀ (n : Fin 6) m, vget T.valid n = true → neighbourMedian u.therm.read T.valid n.val = some m →
          vget u.therm.strikes n = (if 96 < (vget u.therm.read n - m).natAbs then min 3 (vget T.strikes n + 1) else 0)) ∧
        (T.inwarn = false → u.therm.inwarn = decide (T.warnc.toNat * 16 ≤ u.therm.tmax)) ∧
        (T.inwarn = true → u.therm.inwarn = decide (T.warnc.toNat * 16 - 48 ≤ u.therm.tmax)) ∧
        (T.inthrot = false → u.therm.inthrot = decide (1680 ≤ u.therm.tmax) ∧ (1680 ≤ u.therm.tmax → u.level.thlim = 1)) ∧
        (T.inthrot = true → u.therm.inthrot = decide (1600 ≤ u.therm.tmax) ∧ (u.therm.tmax < 1600 → u.level.thlim = 3)) ∧
        (T.stop = none → u.therm.tmax < 1840 → u.therm.stop = none ∧ ∀ c, (u.core c).inv = (s.core c).inv) ∧
        (T.stop = none → 1840 ≤ u.therm.tmax → u.therm.stop = some ⟨1, s.time.phys, false⟩ ∧ u.therm.thermLow = true ∧
          (∀ c, (s.core c).stall.isSome = true ∨ (s.core c).paid = 0 → (u.core c).inv = none) ∧
          (∀ c v, (u.core c).inv = some v → v.stopped = true) ∧ u.sleep.entry = none ∧ u.therm.record.kind = 1 ∧ u.therm.record.step = 1 ∧
          u.therm.record.stopt = s.time.hive ∧ u.therm.record.rpoint = 98))) ∧
    (s.time.mode = .off ∨ s.time.mode = .postStop ∨ (r.d1 < 2000 ∧ r.d4 < 2000 ∧ r.d5 < 2000) →
      exec (.thermalCut r) s = .next s) ∧
    (quiet → s.time.mode ≠ .off → s.time.mode ≠ .postStop → 2000 ≤ r.d1 ∨ 2000 ≤ r.d4 ∨ 2000 ≤ r.d5 →
      ∃ u, exec (.thermalCut r) s = .next u ∧ u.time.mode = .postStop ∧ u.therm.thermLow = true ∧ u.therm.wakeOut = false ∧
        u.therm.record.kind = 3 ∧ u.sleep.domains = 1 ∧ u.sleep.entry = none ∧ (∀ c, u.core c = Core.idle) ∧
        (∀ g, g < 11 → u.sleep.holds.getLsbD g = (s.sleep.holds.getLsbD g || (g != 7 || s.boot.mode))) ∧
        u.mem = s.mem.filter (fun x => inSpan 0x08000000 0x800000 x.1) ∧
        (T.stop = none → u.therm.record.step = 0 ∧ u.therm.record.abandon = false ∧ u.therm.record.slope = 0 ∧
          u.therm.record.stopt = s.time.hive ∧ u.therm.record.rpoint = 98) ∧
        (s.level.srl = [] → pmic → u.level.srl.map SrlFrame.why = [.stopOff]) ∧
        (T.stop = some st → u.therm.record.step = BitVec.ofNat 3 st.step ∧ u.therm.record.abandon = true ∧
          u.therm.record.stopt = T.record.stopt ∧ u.therm.record.jdone = T.record.jdone)) ∧
    (T.stop = none → exec .orderlyStopStepEnd s = .next s) ∧
    (stopping → st.step = 1 → (s.time.phys < st.since + 2 * levelInc s.level.cur → exec .orderlyStopStepEnd s = .next s) ∧
      (st.since + 2 * levelInc s.level.cur ≤ s.time.phys → ∃ u, exec .orderlyStopStepEnd s = .next u ∧ next 2 u)) ∧
    (stopping → st.step = 2 → s.journal.op = none → ∃ u, exec .orderlyStopStepEnd s = .next u ∧ next 3 u ∧
      u.therm.record.jdone = (s.journal.stopDone && s.journal.gather.isEmpty) ∧ u.mem = s.mem) ∧
    (stopping → st.step = 2 → s.journal.op ≠ none → st.since + 192000 ≤ s.time.phys → ∃ u,
      exec .orderlyStopStepEnd s = .next u ∧ next 3 u ∧ u.therm.record.jdone = false) ∧
    (stopping → st.step = 2 → s.journal.op ≠ none → s.time.phys < st.since + 192000 → exec .orderlyStopStepEnd s = .next s) ∧
    (stopping → st.step = 3 → leaveOver s = false → s.time.phys < st.since + 134400 →
      exec .orderlyStopStepEnd s = .next s) ∧
    (stopping → st.step = 3 → leaveOver s = true ∨ st.since + 134400 ≤ s.time.phys → ∃ u,
      exec .orderlyStopStepEnd s = .next u ∧ next 4 u ∧ u.therm.record.lfsent = (st.leave && leaveOver s) ∧ (∀ k, (s.aout k).st ≠ .off → (u.aout k).low = true)) ∧
    (stopping → st.step = 4 → ∃ u, exec .orderlyStopStepEnd s = .next u ∧ next 5 u ∧
      (∀ g, g < 11 → u.sleep.holds.getLsbD g = (s.sleep.holds.getLsbD g || (g != 7 || s.boot.mode)))) ∧
    (stopping → st.step = 5 → st.since + 2 * levelInc s.level.cur ≤ s.time.phys → ∃ u, exec .orderlyStopStepEnd s = .next u ∧
      next 6 u ∧ u.therm.wakeOut = false ∧ (pmic → ∃ g, u.level.srl = s.level.srl ++ [g] ∧ g.why = .stopOff ∧ g.started = none)) ∧
    (stopping → st.step = 6 → ∃ u, exec .orderlyStopStepEnd s = .next u ∧ u.time.mode = .postStop ∧ u.therm.thermLow = true ∧
      u.therm.record = T.record ∧ u.sleep.domains = 1 ∧ u.sleep.holds = s.sleep.holds) ∧
    ((s.time.mode = .postStop → r.d1 < p → r.d4 < p → r.d5 < p → ∃ u, exec (.thermalRestart r) s = .next u ∧
        u.time.mode = .releasing ∧ u.time.relAt = some (s.time.phys + 28800) ∧ u.boot.cause = 3 ∧ u.sleep.wake.code = 0x0A ∧
        u.sleep.holds = s.sleep.holds ∧ u.therm = T ∧ u.mem = s.mem ∧
        (s.time.relAck = false → u.level.srl = s.level.srl.filter (fun f => f.started.isSome)) ∧
        (s.time.relAck = true → s.level.srl = [] → u.level.srl.map SrlFrame.lvl = [1])) ∧
      (s.time.mode ≠ .postStop ∨ p ≤ r.d1 ∨ p ≤ r.d4 ∨ p ≤ r.d5 → exec (.thermalRestart r) s = .next s))

/-! ## Pads, supplies and the TAP (chapters 17 and 18) -/

/-- R216, R482, R486, R489, R512 to R516: the TAP and the supplies. With VAON below 0.60 V no ball is driven. With the
device awake and VIO_H on, an instruction scan takes its instruction and puts out the capture value 0001; EXTEST, CLAMP
and HIGHZ keep the pulls in force, HIGHZ opens every output and EXTEST drives the cells; a data scan shifts the register
of the instruction, IDCODE 0x172561CB, one bit of 0, or the boundary register, which then holds the bits shifted in. A
code the factory keeps has no stated effect with TEST_EN high, and VIO_H lost where R482 forbids it leaves an undefined
state. That the bypass bit captures 0 is the model's (log entry 43). So each of these completes: tapReset, tapExtest,
tapClamp, tapHighz, tapSamplePreload, tapIdcode, tapBypass, tapPrivate, drScan, ioBankSupplyChange. -/
def Obligations.PadsAndTap : Prop :=
  ∀ (s : State) (d : DrScan) (mv : Nat) (b : Ball),
    let on := 1140 ≤ s.vioH ∧ s.vioH ≤ 1980
    let live := s.running = true ∧ on
    let dead := s.running = false ∨ ¬on
    let ir (i : TapInstr) (pulls : List Nat) : State :=
      { s with tap := { s.tap with ir := i, tdo := [true, false, false, false], pulls := pulls } }
    let now := scanBalls.map (fun x => (ballDrive s x).2.2)
    let out (l : List Bool) : State := { s with tap := { s.tap with tdo := l } }
    exec .tapReset s = .next { s with tap := { s.tap with ir := .idcode, tdo := [] } } ∧
    (live → exec .tapExtest s = .next (ir .extest now) ∧ exec .tapClamp s = .next (ir .clamp now) ∧
      exec .tapHighz s = .next (ir .highz now) ∧ exec .tapSamplePreload s = .next (ir .sample s.tap.pulls) ∧
      exec .tapIdcode s = .next (ir .idcode s.tap.pulls) ∧ exec .tapBypass s = .next (ir .bypass s.tap.pulls) ∧
      (s.boot.testEn = false → exec .tapPrivate s = .next (ir .priv s.tap.pulls)) ∧
      (s.boot.testEn = true → exec .tapPrivate s = .fault .factoryTap)) ∧
    (dead → exec .tapExtest s = .next s ∧ exec .tapClamp s = .next s ∧ exec .tapHighz s = .next s ∧
      exec .tapSamplePreload s = .next s ∧ exec .tapIdcode s = .next s ∧ exec .tapBypass s = .next s ∧
      exec .tapPrivate s = .next s ∧ exec (.drScan d) s = .next s) ∧
    (b.hasOut = true → (ballDrive (ir .highz now) b).2.1 = false ∧
      (b.powered s = true → b ∈ scanBalls → (ballDrive (ir .highz now) b).2.2 = (ballDrive s b).2.2)) ∧
    (s.vaon < 600 → (ballDrive s b).2.1 = false) ∧
    (∀ k, b.hasOut = true → b ≠ .thermN → b.powered s = true → 600 ≤ s.vaon → firstCell b = some k → b ∈ scanBalls →
      let j := k + (if b.hasIn then 1 else 0)
      ballDrive (ir .extest now) b = (s.tap.cells.getD j false, s.tap.cells.getD (j + 1) false, (ballDrive s b).2.2)) ∧
    (live → s.tap.ir = .idcode → exec (.drScan d) s =
      .next (out (((List.range 32).map (fun i => (0x172561CB : Word).getLsbD i) ++ d.bits).take d.bits.length))) ∧
    (live → s.tap.ir = .bypass ∨ s.tap.ir = .clamp ∨ s.tap.ir = .highz ∨ s.tap.ir = .priv →
      exec (.drScan d) s = .next (out ((false :: d.bits).take d.bits.length))) ∧
    (live → s.tap.ir = .extest ∨ s.tap.ir = .sample → d.bits.length = 259 → ∃ u, exec (.drScan d) s = .next u ∧
      u.tap.cells = d.bits ∧ u.tap.tdo.length = 259 ∧ u.tap.ir = s.tap.ir ∧ u.tap.pulls = s.tap.pulls ∧ u.mem = s.mem ∧
      (∀ v, d.levels.head? = some v → u.tap.tdo.getD 4 true = v)) ∧
    exec (.ioBankSupplyChange 1 mv) s = .next { s with vioL := mv } ∧
    (1140 ≤ mv → mv ≤ 1980 → exec (.ioBankSupplyChange 0 mv) s = .next { s with vioH := mv }) ∧
    (mv < 1140 ∨ 1980 < mv → (s.time.mode = .off ∨ s.time.mode = .postStop ∨
        ((s.time.mode = .hibernate ∨ s.time.mode = .dormant) ∧ s.level.fixed = true) →
        exec (.ioBankSupplyChange 0 mv) s = .next { s with vioH := mv, tap := { s.tap with ir := .idcode, tdo := [] } }) ∧
      (s.time.mode = .running ∨ s.time.mode = .releasing ∨ (s.time.mode = .hibernate ∧ s.level.fixed = false) →
        exec (.ioBankSupplyChange 0 mv) s = .fault .undefinedSupply))

/-! ## The block as a whole -/

/-- One step takes the command at the front of the queue and runs it with the queue's rest. With no command waiting one
clock passes: hive time, the clock count and the physical instant go on by one clock while the system clock runs, with
PGOOD low nothing does, and otherwise the instant goes to the next crystal cycle. What an empty queue does is the
model's choice (log entry 1). -/
def Obligations.StepTakesFront : Prop :=
  (∀ (i : Instr) (s : State), step { s with pending := i :: s.pending } = exec i s) ∧
  ∀ s : State, s.pending = [] →
    (s.time.mode = .running → ∃ u, step s = .next u ∧ u.time.clk = s.time.clk + 1 ∧ u.time.mode = .running ∧
      u.time.phys = s.time.phys + levelInc s.level.cur ∧
      ((∀ th, Later.sample th ∉ s.later) → s.time.trimRate = 0 → s.time.trimAcc < 2 ^ 24 → u.time.hive = (s.time.hive + levelInc s.level.cur) % 2 ^ 64)) ∧
    (s.time.mode = .off → step s = .next s) ∧
    (s.time.mode ≠ .running → s.time.mode ≠ .off →
      let t : State := { s with time := { s.time with phys := (s.time.phys / 6 + 1) * 6 } }
      step s = .next (dropSent (endWindow t)) ∧ (dropSent (endWindow t)).time = t.time ∧ (dropSent (endWindow t)).mem = s.mem ∧
      (s.time.mode ≠ .hibernate → s.level.srl = [] → dropSent (endWindow t) = t))

/-- What the reset leaves, before the release point: the power-on values of Tables 3.9, 4.3, 4.6, 5.3, 5.6, 6.12, 6.14,
7.6, 9.9, 10.9, 11.8, 11.9, 12.4, 13.10, 14.8 and 16.7a. Values of the model's own (log entries 1, 3 to 6, 13, 42) are
not among them, but for memory with nothing listed, whose form is canonical, and the empty queue. -/
def Obligations.ResetState : Prop :=
  let s := State.reset
  s.time.mode = .releasing ∧ s.time.hive = 0 ∧ s.time.valid = false ∧ s.boot.ready = 0 ∧ s.boot.fail = 0 ∧
  s.boot.cause = 0 ∧ s.boot.bootst = 0x01 ∧ s.boot.slot = 0 ∧ s.boot.key = 7 ∧ s.boot.attempts = 0 ∧
  s.level.cur = 1 ∧ s.level.tgt = 1 ∧ s.level.maxl = 3 ∧ s.level.thlim = 3 ∧ s.level.vcode = 0x28 ∧ s.level.seq = 0 ∧
  s.level.change = none ∧ s.sleep.wake.code = 0x01 ∧ s.sleep.wake.sleeps = 0 ∧ s.sleep.holds = 0 ∧ s.sleep.entry = none ∧
  s.therm.record.kind = 0 ∧ s.therm.record.recov = 0 ∧ s.therm.warnc = 95 ∧ (∀ n, vget s.therm.valid n = true) ∧
  (∀ c, (s.core c).inv = none ∧ (∀ i, vget (s.regs c).w i = 0) ∧ (s.regs c).acc = 0 ∧ (s.regs c).stack = [] ∧
    (s.regs c).fl = Flags.zero) ∧
  (∀ k, vget s.bindings k = none) ∧ (∀ k, vget s.ctx k = none) ∧
  (∀ t, (s.tenant t).state = .vacant ∧ (s.tenant t).nfault = 0 ∧ (s.tenant t).qused = 0 ∧ ∀ i, vget (s.tenant t).record i = 0) ∧
  (∀ n, (vget s.timers n).kind = .off) ∧ s.loader = none ∧ s.host.busy = false ∧ s.host.rdy = false ∧
  (∀ i, (s.sensor i).st = .off) ∧ (∀ k, (s.aout k).st = .off) ∧ (∀ k, (vget s.lanes k).st = .off) ∧
  (∀ k, (vget s.recogs k).st = .off) ∧ (∀ k, (s.ring k).st = .off) ∧ (∀ k, (s.queue k).st = .off) ∧
  (∀ p, (s.port p).st = .off) ∧ (∀ k, (vget s.engines k).st = .off) ∧ s.journal.st = .off ∧ s.journal.sealed = false ∧
  s.hive.st = .off ∧ s.hive.addr = 0 ∧ s.tap.ir = .idcode ∧ s.eccCnt = ⟨0, 0, 0, 0⟩ ∧
  s.mem = [] ∧ Memory.wf s.mem = true ∧ s.pending = []

/-- Every step keeps the canonical form of memory, from every state that has it: addresses strictly rising and no entry
that only repeats what an unlisted address reads as, so that equal memories are equal data. -/
def Obligations.MemoryFormKept : Prop :=
  ∀ s t : State, Memory.wf s.mem = true → step s = .next t → Memory.wf t.mem = true

/-- R52 to R54, Tables 2.1 to 2.12: a word that reads as an instruction is that instruction's one encoding: encoding it
again gives every bit back, so two words never read as the same instruction and no bit is dropped. -/
def Obligations.EncodingIsUnique : Prop :=
  ∀ (c : CoreId) (w : Word) (i : Instr), decodeCore c w = some i → encodeCore i = some w

/-- The frame of the ALU, VEC and FLOW instructions, of TIME, TIME.H and FLAGS, and of an undefined word, in every
outcome: they leave memory and the ECC marks, the timers, the loader, start-up, the clock, the level, the heat unit,
every sensor, output, lane, recognizer, ring, queue, port and engine, the journal but for the suspension that a fetch
from flash causes (R456), the hive, the TAP and the command queue, and on every other core all registers. -/
def Obligations.PlainFrame : Prop :=
  ∀ (c : CoreId) (f : AluForm) (g : RForm) (l : LForm) (b : BForm) (w : Word) (i : Instr) (s u : State),
    i ∈ [.add c f, .sub c f, .and c f, .or c f, .xor c f, .shl c f, .shr c f, .sha c f, .slt c f, .sltu c f, .mul c g, .mulh c g,
      .mulq c g, .macq c g, .sat c g, .movl c l, .movh c l, .movs c l, .vadd c g, .vsub c g, .vmul c g, .vdot c g, .vcross c g,
      .vnorm c g, .vins c g, .vext c g, .bra c b, .bz c b, .bnz c b, .call c b, .bzSt c b, .bnzSt c b, .braReg c g, .callReg c g,
      .ret c g, .nop c g, .time c g, .timeH c g, .flags c g, Instr.undefinedInstruction c w] →
    exec i s = .next u →
    (∀ d, d ≠ c → u.regs d = s.regs d ∧ (u.core d).stall = (s.core d).stall ∧ (u.core d).paused = (s.core d).paused) ∧
    u.mem = s.mem ∧ u.ecc = s.ecc ∧ u.ctx = s.ctx ∧ u.timers = s.timers ∧ u.loader = s.loader ∧ u.boot = s.boot ∧
    u.time = s.time ∧ u.level = s.level ∧ u.therm = s.therm ∧ u.sensors = s.sensors ∧ u.align = s.align ∧ u.aouts = s.aouts ∧
    u.lanes = s.lanes ∧ u.recogs = s.recogs ∧ u.rings = s.rings ∧ u.comb = s.comb ∧ u.queues = s.queues ∧ u.ports = s.ports ∧
    u.engines = s.engines ∧ u.hive = s.hive ∧ u.tap = s.tap ∧ u.pending = s.pending ∧
    u.journal.sealed = s.journal.sealed ∧ u.journal.st = s.journal.st ∧ u.journal.gather = s.journal.gather ∧
    u.sleep.holds = s.sleep.holds ∧ u.sleep.entry = s.sleep.entry ∧ u.sleep.armed = s.sleep.armed ∧
    u.sleep.wake = s.sleep.wake ∧ u.sleep.refuse = s.sleep.refuse
end

