-- ==== Sys2Proof/Laws/Arith.lean ====
section
/-!
SUPPORT. Sys2Proof/Laws/Arith.lean: the model's arithmetic helpers in the terms of Safety: saturation is a clamp, an
added half with a division is an added half with an arithmetic shift.
-/
namespace Sys2Proof.Machine

theorem satInt_eq_clamp (n : Nat) (x : Int) : satInt n x = clampTo n x := by
  have hp : ((2 ^ (n - 1) : Nat) : Int) = (2 : Int) ^ (n - 1) := by simp
  have hq : (0 : Int) < (2 : Int) ^ (n - 1) := by
    rw [← hp]; exact Int.natCast_pos.mpr (Nat.two_pow_pos _)
  unfold satInt clampTo
  rw [hp]
  generalize (2 : Int) ^ (n - 1) = p at *
  split
  · omega
  · split <;> omega

theorem wordOfInt_satInt (n : Nat) (x : Int) : wordOfInt (satInt n x) = satWord n x := by
  rw [satInt_eq_clamp]; rfl

theorem not_fitsInt (n : Nat) (x : Int) : (!fitsInt n x) = outside n x := by
  unfold fitsInt outside
  rw [satInt_eq_clamp]
  by_cases h : clampTo n x = x <;> simp [h]

theorem sat31_eq (x : Int) : sat31 x = (satWord 32 x, outside 32 x) := by
  simp [sat31, wordOfInt_satInt, not_fitsInt]

theorem roundShift_eq (x : Int) (k : Nat) : roundShift x k = (x + 2 ^ (k - 1)) >>> k := by
  simp [roundShift, Int.shiftRight_eq_div_pow]

theorem msb_eq_neg (x : Word) : x.msb = decide (x.toInt < 0) := by
  rw [BitVec.msb_eq_toInt]

theorem zn_eq (f : Flags) (x : Word) : f.zn x = znOf f x := by
  simp [Flags.zn, znOf, msb_eq_neg, BEq.beq]

theorem q15_eq (a : Word) : q15 a = half15 a := by
  unfold q15 half15 signed
  congr 1
  apply BitVec.eq_of_toNat_eq
  simp

theorem shl_of (x : Word) (n : Nat) : (if n < 32 then x <<< n else 0) = x <<< n := by
  split
  · rfl
  · symm; exact BitVec.shiftLeft_eq_zero (by omega)

theorem shr_of (x : Word) (n : Nat) : (if n < 32 then x >>> n else 0) = x >>> n := by
  split
  · rfl
  · apply BitVec.eq_of_toNat_eq
    have h := x.isLt
    rw [BitVec.toNat_ushiftRight, Nat.shiftRight_eq_div_pow]
    exact (Nat.div_eq_of_lt (Nat.lt_of_lt_of_le h (Nat.pow_le_pow_right (by omega) (by omega)))).symm

theorem sha_of (x : Word) (n : Nat) :
    (if n < 32 then x.sshiftRight n else if x.msb then BitVec.allOnes 32 else 0) = x.sshiftRight n := by
  split
  · rfl
  · rename_i hn
    apply BitVec.eq_of_getLsbD_eq
    intro i hi
    have h1 : ¬ n + i < 32 := by omega
    rw [BitVec.getLsbD_sshiftRight, if_neg h1]
    have h2 : decide (32 ≤ i) = false := by simp; omega
    cases hm : x.msb
    · simp
    · rw [if_pos rfl, BitVec.getLsbD_allOnes, h2]
      simp [hi]

end Sys2Proof.Machine
end

