-- ==== Sys2Proof/Laws/State.lean ====
section
/-!
SUPPORT. Sys2Proof/Laws/State.lean: what reading a field of State gives after each named update. Field lemmas are true by
unfolding and are `@[simp]`, so that no proof unfolds a record update.
-/
namespace Sys2Proof.Machine

/-! ## Vectors -/

@[simp] theorem vget_vset_same {α : Type} {n : Nat} (v : Vector α n) (i : Fin n) (x : α) : vget (vset v i x) i = x := by
  simp [vget, vset]

theorem vget_vset_other {α : Type} {n : Nat} (v : Vector α n) (i j : Fin n) (x : α) (h : i ≠ j) :
    vget (vset v i x) j = vget v j := by
  have : i.val ≠ j.val := fun e => h (Fin.ext e)
  simp [vget, vset, Vector.getElem_set_ne, this]

@[simp] theorem vget_vmap {α β : Type} {n : Nat} (f : α → β) (v : Vector α n) (i : Fin n) :
    vget (vmap f v) i = f (vget v i) := by
  simp [vget, vmap, Vector.getElem_mk]

@[simp] theorem vget_replicate {α : Type} {n : Nat} (x : α) (i : Fin n) : vget (Vector.replicate n x) i = x := by
  simp [vget]

/-! ## setCore -/


@[simp] theorem setCore_ctx (s : State) (c : CoreId) (k : Core) : (s.setCore c k).ctx = s.ctx := rfl
@[simp] theorem setCore_ctxOrder (s : State) (c : CoreId) (k : Core) : (s.setCore c k).ctxOrder = s.ctxOrder := rfl
@[simp] theorem setCore_bindings (s : State) (c : CoreId) (k : Core) : (s.setCore c k).bindings = s.bindings := rfl
@[simp] theorem setCore_bindSerial (s : State) (c : CoreId) (k : Core) : (s.setCore c k).bindSerial = s.bindSerial := rfl
@[simp] theorem setCore_tenants (s : State) (c : CoreId) (k : Core) : (s.setCore c k).tenants = s.tenants := rfl
@[simp] theorem setCore_timers (s : State) (c : CoreId) (k : Core) : (s.setCore c k).timers = s.timers := rfl
@[simp] theorem setCore_raised (s : State) (c : CoreId) (k : Core) : (s.setCore c k).raised = s.raised := rfl
@[simp] theorem setCore_bankUse (s : State) (c : CoreId) (k : Core) : (s.setCore c k).bankUse = s.bankUse := rfl
@[simp] theorem setCore_later (s : State) (c : CoreId) (k : Core) : (s.setCore c k).later = s.later := rfl
@[simp] theorem setCore_early (s : State) (c : CoreId) (k : Core) : (s.setCore c k).early = s.early := rfl
@[simp] theorem setCore_loader (s : State) (c : CoreId) (k : Core) : (s.setCore c k).loader = s.loader := rfl
@[simp] theorem setCore_host (s : State) (c : CoreId) (k : Core) : (s.setCore c k).host = s.host := rfl
@[simp] theorem setCore_mem (s : State) (c : CoreId) (k : Core) : (s.setCore c k).mem = s.mem := rfl
@[simp] theorem setCore_unseen (s : State) (c : CoreId) (k : Core) : (s.setCore c k).unseen = s.unseen := rfl
@[simp] theorem setCore_shown (s : State) (c : CoreId) (k : Core) : (s.setCore c k).shown = s.shown := rfl
@[simp] theorem setCore_ecc (s : State) (c : CoreId) (k : Core) : (s.setCore c k).ecc = s.ecc := rfl
@[simp] theorem setCore_eccCnt (s : State) (c : CoreId) (k : Core) : (s.setCore c k).eccCnt = s.eccCnt := rfl
@[simp] theorem setCore_icache (s : State) (c : CoreId) (k : Core) : (s.setCore c k).icache = s.icache := rfl
@[simp] theorem setCore_time (s : State) (c : CoreId) (k : Core) : (s.setCore c k).time = s.time := rfl
@[simp] theorem setCore_boot (s : State) (c : CoreId) (k : Core) : (s.setCore c k).boot = s.boot := rfl
@[simp] theorem setCore_level (s : State) (c : CoreId) (k : Core) : (s.setCore c k).level = s.level := rfl
@[simp] theorem setCore_sleep (s : State) (c : CoreId) (k : Core) : (s.setCore c k).sleep = s.sleep := rfl
@[simp] theorem setCore_therm (s : State) (c : CoreId) (k : Core) : (s.setCore c k).therm = s.therm := rfl
@[simp] theorem setCore_sensors (s : State) (c : CoreId) (k : Core) : (s.setCore c k).sensors = s.sensors := rfl
@[simp] theorem setCore_align (s : State) (c : CoreId) (k : Core) : (s.setCore c k).align = s.align := rfl
@[simp] theorem setCore_plausRun (s : State) (c : CoreId) (k : Core) : (s.setCore c k).plausRun = s.plausRun := rfl
@[simp] theorem setCore_aouts (s : State) (c : CoreId) (k : Core) : (s.setCore c k).aouts = s.aouts := rfl
@[simp] theorem setCore_vaout (s : State) (c : CoreId) (k : Core) : (s.setCore c k).vaout = s.vaout := rfl
@[simp] theorem setCore_evtBalls (s : State) (c : CoreId) (k : Core) : (s.setCore c k).evtBalls = s.evtBalls := rfl
@[simp] theorem setCore_vaon (s : State) (c : CoreId) (k : Core) : (s.setCore c k).vaon = s.vaon := rfl
@[simp] theorem setCore_lanes (s : State) (c : CoreId) (k : Core) : (s.setCore c k).lanes = s.lanes := rfl
@[simp] theorem setCore_recogs (s : State) (c : CoreId) (k : Core) : (s.setCore c k).recogs = s.recogs := rfl
@[simp] theorem setCore_rings (s : State) (c : CoreId) (k : Core) : (s.setCore c k).rings = s.rings := rfl
@[simp] theorem setCore_comb (s : State) (c : CoreId) (k : Core) : (s.setCore c k).comb = s.comb := rfl
@[simp] theorem setCore_queues (s : State) (c : CoreId) (k : Core) : (s.setCore c k).queues = s.queues := rfl
@[simp] theorem setCore_ports (s : State) (c : CoreId) (k : Core) : (s.setCore c k).ports = s.ports := rfl
@[simp] theorem setCore_engines (s : State) (c : CoreId) (k : Core) : (s.setCore c k).engines = s.engines := rfl
@[simp] theorem setCore_lines (s : State) (c : CoreId) (k : Core) : (s.setCore c k).lines = s.lines := rfl
@[simp] theorem setCore_journal (s : State) (c : CoreId) (k : Core) : (s.setCore c k).journal = s.journal := rfl
@[simp] theorem setCore_hive (s : State) (c : CoreId) (k : Core) : (s.setCore c k).hive = s.hive := rfl
@[simp] theorem setCore_vioH (s : State) (c : CoreId) (k : Core) : (s.setCore c k).vioH = s.vioH := rfl
@[simp] theorem setCore_vioL (s : State) (c : CoreId) (k : Core) : (s.setCore c k).vioL = s.vioL := rfl
@[simp] theorem setCore_tap (s : State) (c : CoreId) (k : Core) : (s.setCore c k).tap = s.tap := rfl
@[simp] theorem setCore_free (s : State) (c : CoreId) (k : Core) : (s.setCore c k).free = s.free := rfl
@[simp] theorem setCore_pending (s : State) (c : CoreId) (k : Core) : (s.setCore c k).pending = s.pending := rfl
@[simp] theorem setCore_tenant' (s : State) (c : CoreId) (k : Core) (u : Tid) : (s.setCore c k).tenant u = s.tenant u := rfl
@[simp] theorem setCore_sensor' (s : State) (c : CoreId) (k : Core) (y : SensorId) : (s.setCore c k).sensor y = s.sensor y := rfl
@[simp] theorem setCore_queue' (s : State) (c : CoreId) (k : Core) (y : QueueId) : (s.setCore c k).queue y = s.queue y := rfl
@[simp] theorem setCore_port' (s : State) (c : CoreId) (k : Core) (y : PortId) : (s.setCore c k).port y = s.port y := rfl
@[simp] theorem setCore_isReady' (s : State) (c : CoreId) (k : Core) (y : Func) : (s.setCore c k).isReady y = s.isReady y := rfl
@[simp] theorem setCore_hasFailed' (s : State) (c : CoreId) (k : Core) (y : Func) : (s.setCore c k).hasFailed y = s.hasFailed y := rfl
@[simp] theorem setCore_running' (s : State) (c : CoreId) (k : Core) : (s.setCore c k).running = s.running := rfl

/-! ## setRegs -/


@[simp] theorem setRegs_ctx (s : State) (c : CoreId) (r : Regs) : (s.setRegs c r).ctx = s.ctx := rfl
@[simp] theorem setRegs_ctxOrder (s : State) (c : CoreId) (r : Regs) : (s.setRegs c r).ctxOrder = s.ctxOrder := rfl
@[simp] theorem setRegs_bindings (s : State) (c : CoreId) (r : Regs) : (s.setRegs c r).bindings = s.bindings := rfl
@[simp] theorem setRegs_bindSerial (s : State) (c : CoreId) (r : Regs) : (s.setRegs c r).bindSerial = s.bindSerial := rfl
@[simp] theorem setRegs_tenants (s : State) (c : CoreId) (r : Regs) : (s.setRegs c r).tenants = s.tenants := rfl
@[simp] theorem setRegs_timers (s : State) (c : CoreId) (r : Regs) : (s.setRegs c r).timers = s.timers := rfl
@[simp] theorem setRegs_raised (s : State) (c : CoreId) (r : Regs) : (s.setRegs c r).raised = s.raised := rfl
@[simp] theorem setRegs_bankUse (s : State) (c : CoreId) (r : Regs) : (s.setRegs c r).bankUse = s.bankUse := rfl
@[simp] theorem setRegs_later (s : State) (c : CoreId) (r : Regs) : (s.setRegs c r).later = s.later := rfl
@[simp] theorem setRegs_early (s : State) (c : CoreId) (r : Regs) : (s.setRegs c r).early = s.early := rfl
@[simp] theorem setRegs_loader (s : State) (c : CoreId) (r : Regs) : (s.setRegs c r).loader = s.loader := rfl
@[simp] theorem setRegs_host (s : State) (c : CoreId) (r : Regs) : (s.setRegs c r).host = s.host := rfl
@[simp] theorem setRegs_mem (s : State) (c : CoreId) (r : Regs) : (s.setRegs c r).mem = s.mem := rfl
@[simp] theorem setRegs_unseen (s : State) (c : CoreId) (r : Regs) : (s.setRegs c r).unseen = s.unseen := rfl
@[simp] theorem setRegs_shown (s : State) (c : CoreId) (r : Regs) : (s.setRegs c r).shown = s.shown := rfl
@[simp] theorem setRegs_ecc (s : State) (c : CoreId) (r : Regs) : (s.setRegs c r).ecc = s.ecc := rfl
@[simp] theorem setRegs_eccCnt (s : State) (c : CoreId) (r : Regs) : (s.setRegs c r).eccCnt = s.eccCnt := rfl
@[simp] theorem setRegs_icache (s : State) (c : CoreId) (r : Regs) : (s.setRegs c r).icache = s.icache := rfl
@[simp] theorem setRegs_time (s : State) (c : CoreId) (r : Regs) : (s.setRegs c r).time = s.time := rfl
@[simp] theorem setRegs_boot (s : State) (c : CoreId) (r : Regs) : (s.setRegs c r).boot = s.boot := rfl
@[simp] theorem setRegs_level (s : State) (c : CoreId) (r : Regs) : (s.setRegs c r).level = s.level := rfl
@[simp] theorem setRegs_sleep (s : State) (c : CoreId) (r : Regs) : (s.setRegs c r).sleep = s.sleep := rfl
@[simp] theorem setRegs_therm (s : State) (c : CoreId) (r : Regs) : (s.setRegs c r).therm = s.therm := rfl
@[simp] theorem setRegs_sensors (s : State) (c : CoreId) (r : Regs) : (s.setRegs c r).sensors = s.sensors := rfl
@[simp] theorem setRegs_align (s : State) (c : CoreId) (r : Regs) : (s.setRegs c r).align = s.align := rfl
@[simp] theorem setRegs_plausRun (s : State) (c : CoreId) (r : Regs) : (s.setRegs c r).plausRun = s.plausRun := rfl
@[simp] theorem setRegs_aouts (s : State) (c : CoreId) (r : Regs) : (s.setRegs c r).aouts = s.aouts := rfl
@[simp] theorem setRegs_vaout (s : State) (c : CoreId) (r : Regs) : (s.setRegs c r).vaout = s.vaout := rfl
@[simp] theorem setRegs_evtBalls (s : State) (c : CoreId) (r : Regs) : (s.setRegs c r).evtBalls = s.evtBalls := rfl
@[simp] theorem setRegs_vaon (s : State) (c : CoreId) (r : Regs) : (s.setRegs c r).vaon = s.vaon := rfl
@[simp] theorem setRegs_lanes (s : State) (c : CoreId) (r : Regs) : (s.setRegs c r).lanes = s.lanes := rfl
@[simp] theorem setRegs_recogs (s : State) (c : CoreId) (r : Regs) : (s.setRegs c r).recogs = s.recogs := rfl
@[simp] theorem setRegs_rings (s : State) (c : CoreId) (r : Regs) : (s.setRegs c r).rings = s.rings := rfl
@[simp] theorem setRegs_comb (s : State) (c : CoreId) (r : Regs) : (s.setRegs c r).comb = s.comb := rfl
@[simp] theorem setRegs_queues (s : State) (c : CoreId) (r : Regs) : (s.setRegs c r).queues = s.queues := rfl
@[simp] theorem setRegs_ports (s : State) (c : CoreId) (r : Regs) : (s.setRegs c r).ports = s.ports := rfl
@[simp] theorem setRegs_engines (s : State) (c : CoreId) (r : Regs) : (s.setRegs c r).engines = s.engines := rfl
@[simp] theorem setRegs_lines (s : State) (c : CoreId) (r : Regs) : (s.setRegs c r).lines = s.lines := rfl
@[simp] theorem setRegs_journal (s : State) (c : CoreId) (r : Regs) : (s.setRegs c r).journal = s.journal := rfl
@[simp] theorem setRegs_hive (s : State) (c : CoreId) (r : Regs) : (s.setRegs c r).hive = s.hive := rfl
@[simp] theorem setRegs_vioH (s : State) (c : CoreId) (r : Regs) : (s.setRegs c r).vioH = s.vioH := rfl
@[simp] theorem setRegs_vioL (s : State) (c : CoreId) (r : Regs) : (s.setRegs c r).vioL = s.vioL := rfl
@[simp] theorem setRegs_tap (s : State) (c : CoreId) (r : Regs) : (s.setRegs c r).tap = s.tap := rfl
@[simp] theorem setRegs_free (s : State) (c : CoreId) (r : Regs) : (s.setRegs c r).free = s.free := rfl
@[simp] theorem setRegs_pending (s : State) (c : CoreId) (r : Regs) : (s.setRegs c r).pending = s.pending := rfl
@[simp] theorem setRegs_tenant' (s : State) (c : CoreId) (r : Regs) (u : Tid) : (s.setRegs c r).tenant u = s.tenant u := rfl
@[simp] theorem setRegs_sensor' (s : State) (c : CoreId) (r : Regs) (y : SensorId) : (s.setRegs c r).sensor y = s.sensor y := rfl
@[simp] theorem setRegs_queue' (s : State) (c : CoreId) (r : Regs) (y : QueueId) : (s.setRegs c r).queue y = s.queue y := rfl
@[simp] theorem setRegs_port' (s : State) (c : CoreId) (r : Regs) (y : PortId) : (s.setRegs c r).port y = s.port y := rfl
@[simp] theorem setRegs_isReady' (s : State) (c : CoreId) (r : Regs) (y : Func) : (s.setRegs c r).isReady y = s.isReady y := rfl
@[simp] theorem setRegs_hasFailed' (s : State) (c : CoreId) (r : Regs) (y : Func) : (s.setRegs c r).hasFailed y = s.hasFailed y := rfl
@[simp] theorem setRegs_running' (s : State) (c : CoreId) (r : Regs) : (s.setRegs c r).running = s.running := rfl

/-! ## setTenant -/


@[simp] theorem setTenant_cores (s : State) (t : Tid) (x : Tenant) : (s.setTenant t x).cores = s.cores := rfl
@[simp] theorem setTenant_ctx (s : State) (t : Tid) (x : Tenant) : (s.setTenant t x).ctx = s.ctx := rfl
@[simp] theorem setTenant_ctxOrder (s : State) (t : Tid) (x : Tenant) : (s.setTenant t x).ctxOrder = s.ctxOrder := rfl
@[simp] theorem setTenant_bindings (s : State) (t : Tid) (x : Tenant) : (s.setTenant t x).bindings = s.bindings := rfl
@[simp] theorem setTenant_bindSerial (s : State) (t : Tid) (x : Tenant) : (s.setTenant t x).bindSerial = s.bindSerial := rfl
@[simp] theorem setTenant_timers (s : State) (t : Tid) (x : Tenant) : (s.setTenant t x).timers = s.timers := rfl
@[simp] theorem setTenant_raised (s : State) (t : Tid) (x : Tenant) : (s.setTenant t x).raised = s.raised := rfl
@[simp] theorem setTenant_bankUse (s : State) (t : Tid) (x : Tenant) : (s.setTenant t x).bankUse = s.bankUse := rfl
@[simp] theorem setTenant_later (s : State) (t : Tid) (x : Tenant) : (s.setTenant t x).later = s.later := rfl
@[simp] theorem setTenant_early (s : State) (t : Tid) (x : Tenant) : (s.setTenant t x).early = s.early := rfl
@[simp] theorem setTenant_loader (s : State) (t : Tid) (x : Tenant) : (s.setTenant t x).loader = s.loader := rfl
@[simp] theorem setTenant_host (s : State) (t : Tid) (x : Tenant) : (s.setTenant t x).host = s.host := rfl
@[simp] theorem setTenant_mem (s : State) (t : Tid) (x : Tenant) : (s.setTenant t x).mem = s.mem := rfl
@[simp] theorem setTenant_unseen (s : State) (t : Tid) (x : Tenant) : (s.setTenant t x).unseen = s.unseen := rfl
@[simp] theorem setTenant_shown (s : State) (t : Tid) (x : Tenant) : (s.setTenant t x).shown = s.shown := rfl
@[simp] theorem setTenant_ecc (s : State) (t : Tid) (x : Tenant) : (s.setTenant t x).ecc = s.ecc := rfl
@[simp] theorem setTenant_eccCnt (s : State) (t : Tid) (x : Tenant) : (s.setTenant t x).eccCnt = s.eccCnt := rfl
@[simp] theorem setTenant_icache (s : State) (t : Tid) (x : Tenant) : (s.setTenant t x).icache = s.icache := rfl
@[simp] theorem setTenant_time (s : State) (t : Tid) (x : Tenant) : (s.setTenant t x).time = s.time := rfl
@[simp] theorem setTenant_boot (s : State) (t : Tid) (x : Tenant) : (s.setTenant t x).boot = s.boot := rfl
@[simp] theorem setTenant_level (s : State) (t : Tid) (x : Tenant) : (s.setTenant t x).level = s.level := rfl
@[simp] theorem setTenant_sleep (s : State) (t : Tid) (x : Tenant) : (s.setTenant t x).sleep = s.sleep := rfl
@[simp] theorem setTenant_therm (s : State) (t : Tid) (x : Tenant) : (s.setTenant t x).therm = s.therm := rfl
@[simp] theorem setTenant_sensors (s : State) (t : Tid) (x : Tenant) : (s.setTenant t x).sensors = s.sensors := rfl
@[simp] theorem setTenant_align (s : State) (t : Tid) (x : Tenant) : (s.setTenant t x).align = s.align := rfl
@[simp] theorem setTenant_plausRun (s : State) (t : Tid) (x : Tenant) : (s.setTenant t x).plausRun = s.plausRun := rfl
@[simp] theorem setTenant_aouts (s : State) (t : Tid) (x : Tenant) : (s.setTenant t x).aouts = s.aouts := rfl
@[simp] theorem setTenant_vaout (s : State) (t : Tid) (x : Tenant) : (s.setTenant t x).vaout = s.vaout := rfl
@[simp] theorem setTenant_evtBalls (s : State) (t : Tid) (x : Tenant) : (s.setTenant t x).evtBalls = s.evtBalls := rfl
@[simp] theorem setTenant_vaon (s : State) (t : Tid) (x : Tenant) : (s.setTenant t x).vaon = s.vaon := rfl
@[simp] theorem setTenant_lanes (s : State) (t : Tid) (x : Tenant) : (s.setTenant t x).lanes = s.lanes := rfl
@[simp] theorem setTenant_recogs (s : State) (t : Tid) (x : Tenant) : (s.setTenant t x).recogs = s.recogs := rfl
@[simp] theorem setTenant_rings (s : State) (t : Tid) (x : Tenant) : (s.setTenant t x).rings = s.rings := rfl
@[simp] theorem setTenant_comb (s : State) (t : Tid) (x : Tenant) : (s.setTenant t x).comb = s.comb := rfl
@[simp] theorem setTenant_queues (s : State) (t : Tid) (x : Tenant) : (s.setTenant t x).queues = s.queues := rfl
@[simp] theorem setTenant_ports (s : State) (t : Tid) (x : Tenant) : (s.setTenant t x).ports = s.ports := rfl
@[simp] theorem setTenant_engines (s : State) (t : Tid) (x : Tenant) : (s.setTenant t x).engines = s.engines := rfl
@[simp] theorem setTenant_lines (s : State) (t : Tid) (x : Tenant) : (s.setTenant t x).lines = s.lines := rfl
@[simp] theorem setTenant_journal (s : State) (t : Tid) (x : Tenant) : (s.setTenant t x).journal = s.journal := rfl
@[simp] theorem setTenant_hive (s : State) (t : Tid) (x : Tenant) : (s.setTenant t x).hive = s.hive := rfl
@[simp] theorem setTenant_vioH (s : State) (t : Tid) (x : Tenant) : (s.setTenant t x).vioH = s.vioH := rfl
@[simp] theorem setTenant_vioL (s : State) (t : Tid) (x : Tenant) : (s.setTenant t x).vioL = s.vioL := rfl
@[simp] theorem setTenant_tap (s : State) (t : Tid) (x : Tenant) : (s.setTenant t x).tap = s.tap := rfl
@[simp] theorem setTenant_free (s : State) (t : Tid) (x : Tenant) : (s.setTenant t x).free = s.free := rfl
@[simp] theorem setTenant_pending (s : State) (t : Tid) (x : Tenant) : (s.setTenant t x).pending = s.pending := rfl
@[simp] theorem setTenant_core' (s : State) (t : Tid) (x : Tenant) (d : CoreId) : (s.setTenant t x).core d = s.core d := rfl
@[simp] theorem setTenant_sensor' (s : State) (t : Tid) (x : Tenant) (y : SensorId) : (s.setTenant t x).sensor y = s.sensor y := rfl
@[simp] theorem setTenant_queue' (s : State) (t : Tid) (x : Tenant) (y : QueueId) : (s.setTenant t x).queue y = s.queue y := rfl
@[simp] theorem setTenant_port' (s : State) (t : Tid) (x : Tenant) (y : PortId) : (s.setTenant t x).port y = s.port y := rfl
@[simp] theorem setTenant_isReady' (s : State) (t : Tid) (x : Tenant) (y : Func) : (s.setTenant t x).isReady y = s.isReady y := rfl
@[simp] theorem setTenant_hasFailed' (s : State) (t : Tid) (x : Tenant) (y : Func) : (s.setTenant t x).hasFailed y = s.hasFailed y := rfl
@[simp] theorem setTenant_running' (s : State) (t : Tid) (x : Tenant) : (s.setTenant t x).running = s.running := rfl

/-! ## modTenant -/


@[simp] theorem modTenant_cores (s : State) (t : Tid) (g : Tenant → Tenant) : (s.modTenant t g).cores = s.cores := rfl
@[simp] theorem modTenant_ctx (s : State) (t : Tid) (g : Tenant → Tenant) : (s.modTenant t g).ctx = s.ctx := rfl
@[simp] theorem modTenant_ctxOrder (s : State) (t : Tid) (g : Tenant → Tenant) : (s.modTenant t g).ctxOrder = s.ctxOrder := rfl
@[simp] theorem modTenant_bindings (s : State) (t : Tid) (g : Tenant → Tenant) : (s.modTenant t g).bindings = s.bindings := rfl
@[simp] theorem modTenant_bindSerial (s : State) (t : Tid) (g : Tenant → Tenant) : (s.modTenant t g).bindSerial = s.bindSerial := rfl
@[simp] theorem modTenant_timers (s : State) (t : Tid) (g : Tenant → Tenant) : (s.modTenant t g).timers = s.timers := rfl
@[simp] theorem modTenant_raised (s : State) (t : Tid) (g : Tenant → Tenant) : (s.modTenant t g).raised = s.raised := rfl
@[simp] theorem modTenant_bankUse (s : State) (t : Tid) (g : Tenant → Tenant) : (s.modTenant t g).bankUse = s.bankUse := rfl
@[simp] theorem modTenant_later (s : State) (t : Tid) (g : Tenant → Tenant) : (s.modTenant t g).later = s.later := rfl
@[simp] theorem modTenant_early (s : State) (t : Tid) (g : Tenant → Tenant) : (s.modTenant t g).early = s.early := rfl
@[simp] theorem modTenant_loader (s : State) (t : Tid) (g : Tenant → Tenant) : (s.modTenant t g).loader = s.loader := rfl
@[simp] theorem modTenant_host (s : State) (t : Tid) (g : Tenant → Tenant) : (s.modTenant t g).host = s.host := rfl
@[simp] theorem modTenant_mem (s : State) (t : Tid) (g : Tenant → Tenant) : (s.modTenant t g).mem = s.mem := rfl
@[simp] theorem modTenant_unseen (s : State) (t : Tid) (g : Tenant → Tenant) : (s.modTenant t g).unseen = s.unseen := rfl
@[simp] theorem modTenant_shown (s : State) (t : Tid) (g : Tenant → Tenant) : (s.modTenant t g).shown = s.shown := rfl
@[simp] theorem modTenant_ecc (s : State) (t : Tid) (g : Tenant → Tenant) : (s.modTenant t g).ecc = s.ecc := rfl
@[simp] theorem modTenant_eccCnt (s : State) (t : Tid) (g : Tenant → Tenant) : (s.modTenant t g).eccCnt = s.eccCnt := rfl
@[simp] theorem modTenant_icache (s : State) (t : Tid) (g : Tenant → Tenant) : (s.modTenant t g).icache = s.icache := rfl
@[simp] theorem modTenant_time (s : State) (t : Tid) (g : Tenant → Tenant) : (s.modTenant t g).time = s.time := rfl
@[simp] theorem modTenant_boot (s : State) (t : Tid) (g : Tenant → Tenant) : (s.modTenant t g).boot = s.boot := rfl
@[simp] theorem modTenant_level (s : State) (t : Tid) (g : Tenant → Tenant) : (s.modTenant t g).level = s.level := rfl
@[simp] theorem modTenant_sleep (s : State) (t : Tid) (g : Tenant → Tenant) : (s.modTenant t g).sleep = s.sleep := rfl
@[simp] theorem modTenant_therm (s : State) (t : Tid) (g : Tenant → Tenant) : (s.modTenant t g).therm = s.therm := rfl
@[simp] theorem modTenant_sensors (s : State) (t : Tid) (g : Tenant → Tenant) : (s.modTenant t g).sensors = s.sensors := rfl
@[simp] theorem modTenant_align (s : State) (t : Tid) (g : Tenant → Tenant) : (s.modTenant t g).align = s.align := rfl
@[simp] theorem modTenant_plausRun (s : State) (t : Tid) (g : Tenant → Tenant) : (s.modTenant t g).plausRun = s.plausRun := rfl
@[simp] theorem modTenant_aouts (s : State) (t : Tid) (g : Tenant → Tenant) : (s.modTenant t g).aouts = s.aouts := rfl
@[simp] theorem modTenant_vaout (s : State) (t : Tid) (g : Tenant → Tenant) : (s.modTenant t g).vaout = s.vaout := rfl
@[simp] theorem modTenant_evtBalls (s : State) (t : Tid) (g : Tenant → Tenant) : (s.modTenant t g).evtBalls = s.evtBalls := rfl
@[simp] theorem modTenant_vaon (s : State) (t : Tid) (g : Tenant → Tenant) : (s.modTenant t g).vaon = s.vaon := rfl
@[simp] theorem modTenant_lanes (s : State) (t : Tid) (g : Tenant → Tenant) : (s.modTenant t g).lanes = s.lanes := rfl
@[simp] theorem modTenant_recogs (s : State) (t : Tid) (g : Tenant → Tenant) : (s.modTenant t g).recogs = s.recogs := rfl
@[simp] theorem modTenant_rings (s : State) (t : Tid) (g : Tenant → Tenant) : (s.modTenant t g).rings = s.rings := rfl
@[simp] theorem modTenant_comb (s : State) (t : Tid) (g : Tenant → Tenant) : (s.modTenant t g).comb = s.comb := rfl
@[simp] theorem modTenant_queues (s : State) (t : Tid) (g : Tenant → Tenant) : (s.modTenant t g).queues = s.queues := rfl
@[simp] theorem modTenant_ports (s : State) (t : Tid) (g : Tenant → Tenant) : (s.modTenant t g).ports = s.ports := rfl
@[simp] theorem modTenant_engines (s : State) (t : Tid) (g : Tenant → Tenant) : (s.modTenant t g).engines = s.engines := rfl
@[simp] theorem modTenant_lines (s : State) (t : Tid) (g : Tenant → Tenant) : (s.modTenant t g).lines = s.lines := rfl
@[simp] theorem modTenant_journal (s : State) (t : Tid) (g : Tenant → Tenant) : (s.modTenant t g).journal = s.journal := rfl
@[simp] theorem modTenant_hive (s : State) (t : Tid) (g : Tenant → Tenant) : (s.modTenant t g).hive = s.hive := rfl
@[simp] theorem modTenant_vioH (s : State) (t : Tid) (g : Tenant → Tenant) : (s.modTenant t g).vioH = s.vioH := rfl
@[simp] theorem modTenant_vioL (s : State) (t : Tid) (g : Tenant → Tenant) : (s.modTenant t g).vioL = s.vioL := rfl
@[simp] theorem modTenant_tap (s : State) (t : Tid) (g : Tenant → Tenant) : (s.modTenant t g).tap = s.tap := rfl
@[simp] theorem modTenant_free (s : State) (t : Tid) (g : Tenant → Tenant) : (s.modTenant t g).free = s.free := rfl
@[simp] theorem modTenant_pending (s : State) (t : Tid) (g : Tenant → Tenant) : (s.modTenant t g).pending = s.pending := rfl
@[simp] theorem modTenant_core' (s : State) (t : Tid) (g : Tenant → Tenant) (d : CoreId) : (s.modTenant t g).core d = s.core d := rfl
@[simp] theorem modTenant_sensor' (s : State) (t : Tid) (g : Tenant → Tenant) (y : SensorId) : (s.modTenant t g).sensor y = s.sensor y := rfl
@[simp] theorem modTenant_queue' (s : State) (t : Tid) (g : Tenant → Tenant) (y : QueueId) : (s.modTenant t g).queue y = s.queue y := rfl
@[simp] theorem modTenant_port' (s : State) (t : Tid) (g : Tenant → Tenant) (y : PortId) : (s.modTenant t g).port y = s.port y := rfl
@[simp] theorem modTenant_isReady' (s : State) (t : Tid) (g : Tenant → Tenant) (y : Func) : (s.modTenant t g).isReady y = s.isReady y := rfl
@[simp] theorem modTenant_hasFailed' (s : State) (t : Tid) (g : Tenant → Tenant) (y : Func) : (s.modTenant t g).hasFailed y = s.hasFailed y := rfl
@[simp] theorem modTenant_running' (s : State) (t : Tid) (g : Tenant → Tenant) : (s.modTenant t g).running = s.running := rfl

/-! ## setSensor -/


@[simp] theorem setSensor_cores (s : State) (i : SensorId) (x : Sensor) : (s.setSensor i x).cores = s.cores := rfl
@[simp] theorem setSensor_ctx (s : State) (i : SensorId) (x : Sensor) : (s.setSensor i x).ctx = s.ctx := rfl
@[simp] theorem setSensor_ctxOrder (s : State) (i : SensorId) (x : Sensor) : (s.setSensor i x).ctxOrder = s.ctxOrder := rfl
@[simp] theorem setSensor_bindings (s : State) (i : SensorId) (x : Sensor) : (s.setSensor i x).bindings = s.bindings := rfl
@[simp] theorem setSensor_bindSerial (s : State) (i : SensorId) (x : Sensor) : (s.setSensor i x).bindSerial = s.bindSerial := rfl
@[simp] theorem setSensor_tenants (s : State) (i : SensorId) (x : Sensor) : (s.setSensor i x).tenants = s.tenants := rfl
@[simp] theorem setSensor_timers (s : State) (i : SensorId) (x : Sensor) : (s.setSensor i x).timers = s.timers := rfl
@[simp] theorem setSensor_raised (s : State) (i : SensorId) (x : Sensor) : (s.setSensor i x).raised = s.raised := rfl
@[simp] theorem setSensor_bankUse (s : State) (i : SensorId) (x : Sensor) : (s.setSensor i x).bankUse = s.bankUse := rfl
@[simp] theorem setSensor_later (s : State) (i : SensorId) (x : Sensor) : (s.setSensor i x).later = s.later := rfl
@[simp] theorem setSensor_early (s : State) (i : SensorId) (x : Sensor) : (s.setSensor i x).early = s.early := rfl
@[simp] theorem setSensor_loader (s : State) (i : SensorId) (x : Sensor) : (s.setSensor i x).loader = s.loader := rfl
@[simp] theorem setSensor_host (s : State) (i : SensorId) (x : Sensor) : (s.setSensor i x).host = s.host := rfl
@[simp] theorem setSensor_mem (s : State) (i : SensorId) (x : Sensor) : (s.setSensor i x).mem = s.mem := rfl
@[simp] theorem setSensor_unseen (s : State) (i : SensorId) (x : Sensor) : (s.setSensor i x).unseen = s.unseen := rfl
@[simp] theorem setSensor_shown (s : State) (i : SensorId) (x : Sensor) : (s.setSensor i x).shown = s.shown := rfl
@[simp] theorem setSensor_ecc (s : State) (i : SensorId) (x : Sensor) : (s.setSensor i x).ecc = s.ecc := rfl
@[simp] theorem setSensor_eccCnt (s : State) (i : SensorId) (x : Sensor) : (s.setSensor i x).eccCnt = s.eccCnt := rfl
@[simp] theorem setSensor_icache (s : State) (i : SensorId) (x : Sensor) : (s.setSensor i x).icache = s.icache := rfl
@[simp] theorem setSensor_time (s : State) (i : SensorId) (x : Sensor) : (s.setSensor i x).time = s.time := rfl
@[simp] theorem setSensor_boot (s : State) (i : SensorId) (x : Sensor) : (s.setSensor i x).boot = s.boot := rfl
@[simp] theorem setSensor_level (s : State) (i : SensorId) (x : Sensor) : (s.setSensor i x).level = s.level := rfl
@[simp] theorem setSensor_sleep (s : State) (i : SensorId) (x : Sensor) : (s.setSensor i x).sleep = s.sleep := rfl
@[simp] theorem setSensor_therm (s : State) (i : SensorId) (x : Sensor) : (s.setSensor i x).therm = s.therm := rfl
@[simp] theorem setSensor_align (s : State) (i : SensorId) (x : Sensor) : (s.setSensor i x).align = s.align := rfl
@[simp] theorem setSensor_plausRun (s : State) (i : SensorId) (x : Sensor) : (s.setSensor i x).plausRun = s.plausRun := rfl
@[simp] theorem setSensor_aouts (s : State) (i : SensorId) (x : Sensor) : (s.setSensor i x).aouts = s.aouts := rfl
@[simp] theorem setSensor_vaout (s : State) (i : SensorId) (x : Sensor) : (s.setSensor i x).vaout = s.vaout := rfl
@[simp] theorem setSensor_evtBalls (s : State) (i : SensorId) (x : Sensor) : (s.setSensor i x).evtBalls = s.evtBalls := rfl
@[simp] theorem setSensor_vaon (s : State) (i : SensorId) (x : Sensor) : (s.setSensor i x).vaon = s.vaon := rfl
@[simp] theorem setSensor_lanes (s : State) (i : SensorId) (x : Sensor) : (s.setSensor i x).lanes = s.lanes := rfl
@[simp] theorem setSensor_recogs (s : State) (i : SensorId) (x : Sensor) : (s.setSensor i x).recogs = s.recogs := rfl
@[simp] theorem setSensor_rings (s : State) (i : SensorId) (x : Sensor) : (s.setSensor i x).rings = s.rings := rfl
@[simp] theorem setSensor_comb (s : State) (i : SensorId) (x : Sensor) : (s.setSensor i x).comb = s.comb := rfl
@[simp] theorem setSensor_queues (s : State) (i : SensorId) (x : Sensor) : (s.setSensor i x).queues = s.queues := rfl
@[simp] theorem setSensor_ports (s : State) (i : SensorId) (x : Sensor) : (s.setSensor i x).ports = s.ports := rfl
@[simp] theorem setSensor_engines (s : State) (i : SensorId) (x : Sensor) : (s.setSensor i x).engines = s.engines := rfl
@[simp] theorem setSensor_lines (s : State) (i : SensorId) (x : Sensor) : (s.setSensor i x).lines = s.lines := rfl
@[simp] theorem setSensor_journal (s : State) (i : SensorId) (x : Sensor) : (s.setSensor i x).journal = s.journal := rfl
@[simp] theorem setSensor_hive (s : State) (i : SensorId) (x : Sensor) : (s.setSensor i x).hive = s.hive := rfl
@[simp] theorem setSensor_vioH (s : State) (i : SensorId) (x : Sensor) : (s.setSensor i x).vioH = s.vioH := rfl
@[simp] theorem setSensor_vioL (s : State) (i : SensorId) (x : Sensor) : (s.setSensor i x).vioL = s.vioL := rfl
@[simp] theorem setSensor_tap (s : State) (i : SensorId) (x : Sensor) : (s.setSensor i x).tap = s.tap := rfl
@[simp] theorem setSensor_free (s : State) (i : SensorId) (x : Sensor) : (s.setSensor i x).free = s.free := rfl
@[simp] theorem setSensor_pending (s : State) (i : SensorId) (x : Sensor) : (s.setSensor i x).pending = s.pending := rfl
@[simp] theorem setSensor_core' (s : State) (i : SensorId) (x : Sensor) (d : CoreId) : (s.setSensor i x).core d = s.core d := rfl
@[simp] theorem setSensor_tenant' (s : State) (i : SensorId) (x : Sensor) (u : Tid) : (s.setSensor i x).tenant u = s.tenant u := rfl
@[simp] theorem setSensor_queue' (s : State) (i : SensorId) (x : Sensor) (y : QueueId) : (s.setSensor i x).queue y = s.queue y := rfl
@[simp] theorem setSensor_port' (s : State) (i : SensorId) (x : Sensor) (y : PortId) : (s.setSensor i x).port y = s.port y := rfl
@[simp] theorem setSensor_isReady' (s : State) (i : SensorId) (x : Sensor) (y : Func) : (s.setSensor i x).isReady y = s.isReady y := rfl
@[simp] theorem setSensor_hasFailed' (s : State) (i : SensorId) (x : Sensor) (y : Func) : (s.setSensor i x).hasFailed y = s.hasFailed y := rfl
@[simp] theorem setSensor_running' (s : State) (i : SensorId) (x : Sensor) : (s.setSensor i x).running = s.running := rfl

/-! ## setLane -/


@[simp] theorem setLane_cores (s : State) (l : LaneId) (x : Lane) : (s.setLane l x).cores = s.cores := rfl
@[simp] theorem setLane_ctx (s : State) (l : LaneId) (x : Lane) : (s.setLane l x).ctx = s.ctx := rfl
@[simp] theorem setLane_ctxOrder (s : State) (l : LaneId) (x : Lane) : (s.setLane l x).ctxOrder = s.ctxOrder := rfl
@[simp] theorem setLane_bindings (s : State) (l : LaneId) (x : Lane) : (s.setLane l x).bindings = s.bindings := rfl
@[simp] theorem setLane_bindSerial (s : State) (l : LaneId) (x : Lane) : (s.setLane l x).bindSerial = s.bindSerial := rfl
@[simp] theorem setLane_tenants (s : State) (l : LaneId) (x : Lane) : (s.setLane l x).tenants = s.tenants := rfl
@[simp] theorem setLane_timers (s : State) (l : LaneId) (x : Lane) : (s.setLane l x).timers = s.timers := rfl
@[simp] theorem setLane_raised (s : State) (l : LaneId) (x : Lane) : (s.setLane l x).raised = s.raised := rfl
@[simp] theorem setLane_bankUse (s : State) (l : LaneId) (x : Lane) : (s.setLane l x).bankUse = s.bankUse := rfl
@[simp] theorem setLane_later (s : State) (l : LaneId) (x : Lane) : (s.setLane l x).later = s.later := rfl
@[simp] theorem setLane_early (s : State) (l : LaneId) (x : Lane) : (s.setLane l x).early = s.early := rfl
@[simp] theorem setLane_loader (s : State) (l : LaneId) (x : Lane) : (s.setLane l x).loader = s.loader := rfl
@[simp] theorem setLane_host (s : State) (l : LaneId) (x : Lane) : (s.setLane l x).host = s.host := rfl
@[simp] theorem setLane_mem (s : State) (l : LaneId) (x : Lane) : (s.setLane l x).mem = s.mem := rfl
@[simp] theorem setLane_unseen (s : State) (l : LaneId) (x : Lane) : (s.setLane l x).unseen = s.unseen := rfl
@[simp] theorem setLane_shown (s : State) (l : LaneId) (x : Lane) : (s.setLane l x).shown = s.shown := rfl
@[simp] theorem setLane_ecc (s : State) (l : LaneId) (x : Lane) : (s.setLane l x).ecc = s.ecc := rfl
@[simp] theorem setLane_eccCnt (s : State) (l : LaneId) (x : Lane) : (s.setLane l x).eccCnt = s.eccCnt := rfl
@[simp] theorem setLane_icache (s : State) (l : LaneId) (x : Lane) : (s.setLane l x).icache = s.icache := rfl
@[simp] theorem setLane_time (s : State) (l : LaneId) (x : Lane) : (s.setLane l x).time = s.time := rfl
@[simp] theorem setLane_boot (s : State) (l : LaneId) (x : Lane) : (s.setLane l x).boot = s.boot := rfl
@[simp] theorem setLane_level (s : State) (l : LaneId) (x : Lane) : (s.setLane l x).level = s.level := rfl
@[simp] theorem setLane_sleep (s : State) (l : LaneId) (x : Lane) : (s.setLane l x).sleep = s.sleep := rfl
@[simp] theorem setLane_therm (s : State) (l : LaneId) (x : Lane) : (s.setLane l x).therm = s.therm := rfl
@[simp] theorem setLane_sensors (s : State) (l : LaneId) (x : Lane) : (s.setLane l x).sensors = s.sensors := rfl
@[simp] theorem setLane_align (s : State) (l : LaneId) (x : Lane) : (s.setLane l x).align = s.align := rfl
@[simp] theorem setLane_plausRun (s : State) (l : LaneId) (x : Lane) : (s.setLane l x).plausRun = s.plausRun := rfl
@[simp] theorem setLane_aouts (s : State) (l : LaneId) (x : Lane) : (s.setLane l x).aouts = s.aouts := rfl
@[simp] theorem setLane_vaout (s : State) (l : LaneId) (x : Lane) : (s.setLane l x).vaout = s.vaout := rfl
@[simp] theorem setLane_evtBalls (s : State) (l : LaneId) (x : Lane) : (s.setLane l x).evtBalls = s.evtBalls := rfl
@[simp] theorem setLane_vaon (s : State) (l : LaneId) (x : Lane) : (s.setLane l x).vaon = s.vaon := rfl
@[simp] theorem setLane_recogs (s : State) (l : LaneId) (x : Lane) : (s.setLane l x).recogs = s.recogs := rfl
@[simp] theorem setLane_rings (s : State) (l : LaneId) (x : Lane) : (s.setLane l x).rings = s.rings := rfl
@[simp] theorem setLane_comb (s : State) (l : LaneId) (x : Lane) : (s.setLane l x).comb = s.comb := rfl
@[simp] theorem setLane_queues (s : State) (l : LaneId) (x : Lane) : (s.setLane l x).queues = s.queues := rfl
@[simp] theorem setLane_ports (s : State) (l : LaneId) (x : Lane) : (s.setLane l x).ports = s.ports := rfl
@[simp] theorem setLane_engines (s : State) (l : LaneId) (x : Lane) : (s.setLane l x).engines = s.engines := rfl
@[simp] theorem setLane_lines (s : State) (l : LaneId) (x : Lane) : (s.setLane l x).lines = s.lines := rfl
@[simp] theorem setLane_journal (s : State) (l : LaneId) (x : Lane) : (s.setLane l x).journal = s.journal := rfl
@[simp] theorem setLane_hive (s : State) (l : LaneId) (x : Lane) : (s.setLane l x).hive = s.hive := rfl
@[simp] theorem setLane_vioH (s : State) (l : LaneId) (x : Lane) : (s.setLane l x).vioH = s.vioH := rfl
@[simp] theorem setLane_vioL (s : State) (l : LaneId) (x : Lane) : (s.setLane l x).vioL = s.vioL := rfl
@[simp] theorem setLane_tap (s : State) (l : LaneId) (x : Lane) : (s.setLane l x).tap = s.tap := rfl
@[simp] theorem setLane_free (s : State) (l : LaneId) (x : Lane) : (s.setLane l x).free = s.free := rfl
@[simp] theorem setLane_pending (s : State) (l : LaneId) (x : Lane) : (s.setLane l x).pending = s.pending := rfl
@[simp] theorem setLane_core' (s : State) (l : LaneId) (x : Lane) (d : CoreId) : (s.setLane l x).core d = s.core d := rfl
@[simp] theorem setLane_tenant' (s : State) (l : LaneId) (x : Lane) (u : Tid) : (s.setLane l x).tenant u = s.tenant u := rfl
@[simp] theorem setLane_sensor' (s : State) (l : LaneId) (x : Lane) (y : SensorId) : (s.setLane l x).sensor y = s.sensor y := rfl
@[simp] theorem setLane_queue' (s : State) (l : LaneId) (x : Lane) (y : QueueId) : (s.setLane l x).queue y = s.queue y := rfl
@[simp] theorem setLane_port' (s : State) (l : LaneId) (x : Lane) (y : PortId) : (s.setLane l x).port y = s.port y := rfl
@[simp] theorem setLane_isReady' (s : State) (l : LaneId) (x : Lane) (y : Func) : (s.setLane l x).isReady y = s.isReady y := rfl
@[simp] theorem setLane_hasFailed' (s : State) (l : LaneId) (x : Lane) (y : Func) : (s.setLane l x).hasFailed y = s.hasFailed y := rfl
@[simp] theorem setLane_running' (s : State) (l : LaneId) (x : Lane) : (s.setLane l x).running = s.running := rfl

/-! ## setAout -/


@[simp] theorem setAout_cores (s : State) (a : Fin 4) (x : Aout) : (s.setAout a x).cores = s.cores := rfl
@[simp] theorem setAout_ctx (s : State) (a : Fin 4) (x : Aout) : (s.setAout a x).ctx = s.ctx := rfl
@[simp] theorem setAout_ctxOrder (s : State) (a : Fin 4) (x : Aout) : (s.setAout a x).ctxOrder = s.ctxOrder := rfl
@[simp] theorem setAout_bindings (s : State) (a : Fin 4) (x : Aout) : (s.setAout a x).bindings = s.bindings := rfl
@[simp] theorem setAout_bindSerial (s : State) (a : Fin 4) (x : Aout) : (s.setAout a x).bindSerial = s.bindSerial := rfl
@[simp] theorem setAout_tenants (s : State) (a : Fin 4) (x : Aout) : (s.setAout a x).tenants = s.tenants := rfl
@[simp] theorem setAout_timers (s : State) (a : Fin 4) (x : Aout) : (s.setAout a x).timers = s.timers := rfl
@[simp] theorem setAout_raised (s : State) (a : Fin 4) (x : Aout) : (s.setAout a x).raised = s.raised := rfl
@[simp] theorem setAout_bankUse (s : State) (a : Fin 4) (x : Aout) : (s.setAout a x).bankUse = s.bankUse := rfl
@[simp] theorem setAout_later (s : State) (a : Fin 4) (x : Aout) : (s.setAout a x).later = s.later := rfl
@[simp] theorem setAout_early (s : State) (a : Fin 4) (x : Aout) : (s.setAout a x).early = s.early := rfl
@[simp] theorem setAout_loader (s : State) (a : Fin 4) (x : Aout) : (s.setAout a x).loader = s.loader := rfl
@[simp] theorem setAout_host (s : State) (a : Fin 4) (x : Aout) : (s.setAout a x).host = s.host := rfl
@[simp] theorem setAout_mem (s : State) (a : Fin 4) (x : Aout) : (s.setAout a x).mem = s.mem := rfl
@[simp] theorem setAout_unseen (s : State) (a : Fin 4) (x : Aout) : (s.setAout a x).unseen = s.unseen := rfl
@[simp] theorem setAout_shown (s : State) (a : Fin 4) (x : Aout) : (s.setAout a x).shown = s.shown := rfl
@[simp] theorem setAout_ecc (s : State) (a : Fin 4) (x : Aout) : (s.setAout a x).ecc = s.ecc := rfl
@[simp] theorem setAout_eccCnt (s : State) (a : Fin 4) (x : Aout) : (s.setAout a x).eccCnt = s.eccCnt := rfl
@[simp] theorem setAout_icache (s : State) (a : Fin 4) (x : Aout) : (s.setAout a x).icache = s.icache := rfl
@[simp] theorem setAout_time (s : State) (a : Fin 4) (x : Aout) : (s.setAout a x).time = s.time := rfl
@[simp] theorem setAout_boot (s : State) (a : Fin 4) (x : Aout) : (s.setAout a x).boot = s.boot := rfl
@[simp] theorem setAout_level (s : State) (a : Fin 4) (x : Aout) : (s.setAout a x).level = s.level := rfl
@[simp] theorem setAout_sleep (s : State) (a : Fin 4) (x : Aout) : (s.setAout a x).sleep = s.sleep := rfl
@[simp] theorem setAout_therm (s : State) (a : Fin 4) (x : Aout) : (s.setAout a x).therm = s.therm := rfl
@[simp] theorem setAout_sensors (s : State) (a : Fin 4) (x : Aout) : (s.setAout a x).sensors = s.sensors := rfl
@[simp] theorem setAout_align (s : State) (a : Fin 4) (x : Aout) : (s.setAout a x).align = s.align := rfl
@[simp] theorem setAout_plausRun (s : State) (a : Fin 4) (x : Aout) : (s.setAout a x).plausRun = s.plausRun := rfl
@[simp] theorem setAout_vaout (s : State) (a : Fin 4) (x : Aout) : (s.setAout a x).vaout = s.vaout := rfl
@[simp] theorem setAout_evtBalls (s : State) (a : Fin 4) (x : Aout) : (s.setAout a x).evtBalls = s.evtBalls := rfl
@[simp] theorem setAout_vaon (s : State) (a : Fin 4) (x : Aout) : (s.setAout a x).vaon = s.vaon := rfl
@[simp] theorem setAout_lanes (s : State) (a : Fin 4) (x : Aout) : (s.setAout a x).lanes = s.lanes := rfl
@[simp] theorem setAout_recogs (s : State) (a : Fin 4) (x : Aout) : (s.setAout a x).recogs = s.recogs := rfl
@[simp] theorem setAout_rings (s : State) (a : Fin 4) (x : Aout) : (s.setAout a x).rings = s.rings := rfl
@[simp] theorem setAout_comb (s : State) (a : Fin 4) (x : Aout) : (s.setAout a x).comb = s.comb := rfl
@[simp] theorem setAout_queues (s : State) (a : Fin 4) (x : Aout) : (s.setAout a x).queues = s.queues := rfl
@[simp] theorem setAout_ports (s : State) (a : Fin 4) (x : Aout) : (s.setAout a x).ports = s.ports := rfl
@[simp] theorem setAout_engines (s : State) (a : Fin 4) (x : Aout) : (s.setAout a x).engines = s.engines := rfl
@[simp] theorem setAout_lines (s : State) (a : Fin 4) (x : Aout) : (s.setAout a x).lines = s.lines := rfl
@[simp] theorem setAout_journal (s : State) (a : Fin 4) (x : Aout) : (s.setAout a x).journal = s.journal := rfl
@[simp] theorem setAout_hive (s : State) (a : Fin 4) (x : Aout) : (s.setAout a x).hive = s.hive := rfl
@[simp] theorem setAout_vioH (s : State) (a : Fin 4) (x : Aout) : (s.setAout a x).vioH = s.vioH := rfl
@[simp] theorem setAout_vioL (s : State) (a : Fin 4) (x : Aout) : (s.setAout a x).vioL = s.vioL := rfl
@[simp] theorem setAout_tap (s : State) (a : Fin 4) (x : Aout) : (s.setAout a x).tap = s.tap := rfl
@[simp] theorem setAout_free (s : State) (a : Fin 4) (x : Aout) : (s.setAout a x).free = s.free := rfl
@[simp] theorem setAout_pending (s : State) (a : Fin 4) (x : Aout) : (s.setAout a x).pending = s.pending := rfl
@[simp] theorem setAout_core' (s : State) (a : Fin 4) (x : Aout) (d : CoreId) : (s.setAout a x).core d = s.core d := rfl
@[simp] theorem setAout_tenant' (s : State) (a : Fin 4) (x : Aout) (u : Tid) : (s.setAout a x).tenant u = s.tenant u := rfl
@[simp] theorem setAout_sensor' (s : State) (a : Fin 4) (x : Aout) (y : SensorId) : (s.setAout a x).sensor y = s.sensor y := rfl
@[simp] theorem setAout_queue' (s : State) (a : Fin 4) (x : Aout) (y : QueueId) : (s.setAout a x).queue y = s.queue y := rfl
@[simp] theorem setAout_port' (s : State) (a : Fin 4) (x : Aout) (y : PortId) : (s.setAout a x).port y = s.port y := rfl
@[simp] theorem setAout_isReady' (s : State) (a : Fin 4) (x : Aout) (y : Func) : (s.setAout a x).isReady y = s.isReady y := rfl
@[simp] theorem setAout_hasFailed' (s : State) (a : Fin 4) (x : Aout) (y : Func) : (s.setAout a x).hasFailed y = s.hasFailed y := rfl
@[simp] theorem setAout_running' (s : State) (a : Fin 4) (x : Aout) : (s.setAout a x).running = s.running := rfl

/-! ## setRecog -/


@[simp] theorem setRecog_cores (s : State) (r : RecogId) (x : Recog) : (s.setRecog r x).cores = s.cores := rfl
@[simp] theorem setRecog_ctx (s : State) (r : RecogId) (x : Recog) : (s.setRecog r x).ctx = s.ctx := rfl
@[simp] theorem setRecog_ctxOrder (s : State) (r : RecogId) (x : Recog) : (s.setRecog r x).ctxOrder = s.ctxOrder := rfl
@[simp] theorem setRecog_bindings (s : State) (r : RecogId) (x : Recog) : (s.setRecog r x).bindings = s.bindings := rfl
@[simp] theorem setRecog_bindSerial (s : State) (r : RecogId) (x : Recog) : (s.setRecog r x).bindSerial = s.bindSerial := rfl
@[simp] theorem setRecog_tenants (s : State) (r : RecogId) (x : Recog) : (s.setRecog r x).tenants = s.tenants := rfl
@[simp] theorem setRecog_timers (s : State) (r : RecogId) (x : Recog) : (s.setRecog r x).timers = s.timers := rfl
@[simp] theorem setRecog_raised (s : State) (r : RecogId) (x : Recog) : (s.setRecog r x).raised = s.raised := rfl
@[simp] theorem setRecog_bankUse (s : State) (r : RecogId) (x : Recog) : (s.setRecog r x).bankUse = s.bankUse := rfl
@[simp] theorem setRecog_later (s : State) (r : RecogId) (x : Recog) : (s.setRecog r x).later = s.later := rfl
@[simp] theorem setRecog_early (s : State) (r : RecogId) (x : Recog) : (s.setRecog r x).early = s.early := rfl
@[simp] theorem setRecog_loader (s : State) (r : RecogId) (x : Recog) : (s.setRecog r x).loader = s.loader := rfl
@[simp] theorem setRecog_host (s : State) (r : RecogId) (x : Recog) : (s.setRecog r x).host = s.host := rfl
@[simp] theorem setRecog_mem (s : State) (r : RecogId) (x : Recog) : (s.setRecog r x).mem = s.mem := rfl
@[simp] theorem setRecog_unseen (s : State) (r : RecogId) (x : Recog) : (s.setRecog r x).unseen = s.unseen := rfl
@[simp] theorem setRecog_shown (s : State) (r : RecogId) (x : Recog) : (s.setRecog r x).shown = s.shown := rfl
@[simp] theorem setRecog_ecc (s : State) (r : RecogId) (x : Recog) : (s.setRecog r x).ecc = s.ecc := rfl
@[simp] theorem setRecog_eccCnt (s : State) (r : RecogId) (x : Recog) : (s.setRecog r x).eccCnt = s.eccCnt := rfl
@[simp] theorem setRecog_icache (s : State) (r : RecogId) (x : Recog) : (s.setRecog r x).icache = s.icache := rfl
@[simp] theorem setRecog_time (s : State) (r : RecogId) (x : Recog) : (s.setRecog r x).time = s.time := rfl
@[simp] theorem setRecog_boot (s : State) (r : RecogId) (x : Recog) : (s.setRecog r x).boot = s.boot := rfl
@[simp] theorem setRecog_level (s : State) (r : RecogId) (x : Recog) : (s.setRecog r x).level = s.level := rfl
@[simp] theorem setRecog_sleep (s : State) (r : RecogId) (x : Recog) : (s.setRecog r x).sleep = s.sleep := rfl
@[simp] theorem setRecog_therm (s : State) (r : RecogId) (x : Recog) : (s.setRecog r x).therm = s.therm := rfl
@[simp] theorem setRecog_sensors (s : State) (r : RecogId) (x : Recog) : (s.setRecog r x).sensors = s.sensors := rfl
@[simp] theorem setRecog_align (s : State) (r : RecogId) (x : Recog) : (s.setRecog r x).align = s.align := rfl
@[simp] theorem setRecog_plausRun (s : State) (r : RecogId) (x : Recog) : (s.setRecog r x).plausRun = s.plausRun := rfl
@[simp] theorem setRecog_aouts (s : State) (r : RecogId) (x : Recog) : (s.setRecog r x).aouts = s.aouts := rfl
@[simp] theorem setRecog_vaout (s : State) (r : RecogId) (x : Recog) : (s.setRecog r x).vaout = s.vaout := rfl
@[simp] theorem setRecog_evtBalls (s : State) (r : RecogId) (x : Recog) : (s.setRecog r x).evtBalls = s.evtBalls := rfl
@[simp] theorem setRecog_vaon (s : State) (r : RecogId) (x : Recog) : (s.setRecog r x).vaon = s.vaon := rfl
@[simp] theorem setRecog_lanes (s : State) (r : RecogId) (x : Recog) : (s.setRecog r x).lanes = s.lanes := rfl
@[simp] theorem setRecog_rings (s : State) (r : RecogId) (x : Recog) : (s.setRecog r x).rings = s.rings := rfl
@[simp] theorem setRecog_comb (s : State) (r : RecogId) (x : Recog) : (s.setRecog r x).comb = s.comb := rfl
@[simp] theorem setRecog_queues (s : State) (r : RecogId) (x : Recog) : (s.setRecog r x).queues = s.queues := rfl
@[simp] theorem setRecog_ports (s : State) (r : RecogId) (x : Recog) : (s.setRecog r x).ports = s.ports := rfl
@[simp] theorem setRecog_engines (s : State) (r : RecogId) (x : Recog) : (s.setRecog r x).engines = s.engines := rfl
@[simp] theorem setRecog_lines (s : State) (r : RecogId) (x : Recog) : (s.setRecog r x).lines = s.lines := rfl
@[simp] theorem setRecog_journal (s : State) (r : RecogId) (x : Recog) : (s.setRecog r x).journal = s.journal := rfl
@[simp] theorem setRecog_hive (s : State) (r : RecogId) (x : Recog) : (s.setRecog r x).hive = s.hive := rfl
@[simp] theorem setRecog_vioH (s : State) (r : RecogId) (x : Recog) : (s.setRecog r x).vioH = s.vioH := rfl
@[simp] theorem setRecog_vioL (s : State) (r : RecogId) (x : Recog) : (s.setRecog r x).vioL = s.vioL := rfl
@[simp] theorem setRecog_tap (s : State) (r : RecogId) (x : Recog) : (s.setRecog r x).tap = s.tap := rfl
@[simp] theorem setRecog_free (s : State) (r : RecogId) (x : Recog) : (s.setRecog r x).free = s.free := rfl
@[simp] theorem setRecog_pending (s : State) (r : RecogId) (x : Recog) : (s.setRecog r x).pending = s.pending := rfl
@[simp] theorem setRecog_core' (s : State) (r : RecogId) (x : Recog) (d : CoreId) : (s.setRecog r x).core d = s.core d := rfl
@[simp] theorem setRecog_tenant' (s : State) (r : RecogId) (x : Recog) (u : Tid) : (s.setRecog r x).tenant u = s.tenant u := rfl
@[simp] theorem setRecog_sensor' (s : State) (r : RecogId) (x : Recog) (y : SensorId) : (s.setRecog r x).sensor y = s.sensor y := rfl
@[simp] theorem setRecog_queue' (s : State) (r : RecogId) (x : Recog) (y : QueueId) : (s.setRecog r x).queue y = s.queue y := rfl
@[simp] theorem setRecog_port' (s : State) (r : RecogId) (x : Recog) (y : PortId) : (s.setRecog r x).port y = s.port y := rfl
@[simp] theorem setRecog_isReady' (s : State) (r : RecogId) (x : Recog) (y : Func) : (s.setRecog r x).isReady y = s.isReady y := rfl
@[simp] theorem setRecog_hasFailed' (s : State) (r : RecogId) (x : Recog) (y : Func) : (s.setRecog r x).hasFailed y = s.hasFailed y := rfl
@[simp] theorem setRecog_running' (s : State) (r : RecogId) (x : Recog) : (s.setRecog r x).running = s.running := rfl

/-! ## setRing -/


@[simp] theorem setRing_cores (s : State) (n : RingId) (x : Ring) : (s.setRing n x).cores = s.cores := rfl
@[simp] theorem setRing_ctx (s : State) (n : RingId) (x : Ring) : (s.setRing n x).ctx = s.ctx := rfl
@[simp] theorem setRing_ctxOrder (s : State) (n : RingId) (x : Ring) : (s.setRing n x).ctxOrder = s.ctxOrder := rfl
@[simp] theorem setRing_bindings (s : State) (n : RingId) (x : Ring) : (s.setRing n x).bindings = s.bindings := rfl
@[simp] theorem setRing_bindSerial (s : State) (n : RingId) (x : Ring) : (s.setRing n x).bindSerial = s.bindSerial := rfl
@[simp] theorem setRing_tenants (s : State) (n : RingId) (x : Ring) : (s.setRing n x).tenants = s.tenants := rfl
@[simp] theorem setRing_timers (s : State) (n : RingId) (x : Ring) : (s.setRing n x).timers = s.timers := rfl
@[simp] theorem setRing_raised (s : State) (n : RingId) (x : Ring) : (s.setRing n x).raised = s.raised := rfl
@[simp] theorem setRing_bankUse (s : State) (n : RingId) (x : Ring) : (s.setRing n x).bankUse = s.bankUse := rfl
@[simp] theorem setRing_later (s : State) (n : RingId) (x : Ring) : (s.setRing n x).later = s.later := rfl
@[simp] theorem setRing_early (s : State) (n : RingId) (x : Ring) : (s.setRing n x).early = s.early := rfl
@[simp] theorem setRing_loader (s : State) (n : RingId) (x : Ring) : (s.setRing n x).loader = s.loader := rfl
@[simp] theorem setRing_host (s : State) (n : RingId) (x : Ring) : (s.setRing n x).host = s.host := rfl
@[simp] theorem setRing_mem (s : State) (n : RingId) (x : Ring) : (s.setRing n x).mem = s.mem := rfl
@[simp] theorem setRing_unseen (s : State) (n : RingId) (x : Ring) : (s.setRing n x).unseen = s.unseen := rfl
@[simp] theorem setRing_shown (s : State) (n : RingId) (x : Ring) : (s.setRing n x).shown = s.shown := rfl
@[simp] theorem setRing_ecc (s : State) (n : RingId) (x : Ring) : (s.setRing n x).ecc = s.ecc := rfl
@[simp] theorem setRing_eccCnt (s : State) (n : RingId) (x : Ring) : (s.setRing n x).eccCnt = s.eccCnt := rfl
@[simp] theorem setRing_icache (s : State) (n : RingId) (x : Ring) : (s.setRing n x).icache = s.icache := rfl
@[simp] theorem setRing_time (s : State) (n : RingId) (x : Ring) : (s.setRing n x).time = s.time := rfl
@[simp] theorem setRing_boot (s : State) (n : RingId) (x : Ring) : (s.setRing n x).boot = s.boot := rfl
@[simp] theorem setRing_level (s : State) (n : RingId) (x : Ring) : (s.setRing n x).level = s.level := rfl
@[simp] theorem setRing_sleep (s : State) (n : RingId) (x : Ring) : (s.setRing n x).sleep = s.sleep := rfl
@[simp] theorem setRing_therm (s : State) (n : RingId) (x : Ring) : (s.setRing n x).therm = s.therm := rfl
@[simp] theorem setRing_sensors (s : State) (n : RingId) (x : Ring) : (s.setRing n x).sensors = s.sensors := rfl
@[simp] theorem setRing_align (s : State) (n : RingId) (x : Ring) : (s.setRing n x).align = s.align := rfl
@[simp] theorem setRing_plausRun (s : State) (n : RingId) (x : Ring) : (s.setRing n x).plausRun = s.plausRun := rfl
@[simp] theorem setRing_aouts (s : State) (n : RingId) (x : Ring) : (s.setRing n x).aouts = s.aouts := rfl
@[simp] theorem setRing_vaout (s : State) (n : RingId) (x : Ring) : (s.setRing n x).vaout = s.vaout := rfl
@[simp] theorem setRing_evtBalls (s : State) (n : RingId) (x : Ring) : (s.setRing n x).evtBalls = s.evtBalls := rfl
@[simp] theorem setRing_vaon (s : State) (n : RingId) (x : Ring) : (s.setRing n x).vaon = s.vaon := rfl
@[simp] theorem setRing_lanes (s : State) (n : RingId) (x : Ring) : (s.setRing n x).lanes = s.lanes := rfl
@[simp] theorem setRing_recogs (s : State) (n : RingId) (x : Ring) : (s.setRing n x).recogs = s.recogs := rfl
@[simp] theorem setRing_comb (s : State) (n : RingId) (x : Ring) : (s.setRing n x).comb = s.comb := rfl
@[simp] theorem setRing_queues (s : State) (n : RingId) (x : Ring) : (s.setRing n x).queues = s.queues := rfl
@[simp] theorem setRing_ports (s : State) (n : RingId) (x : Ring) : (s.setRing n x).ports = s.ports := rfl
@[simp] theorem setRing_engines (s : State) (n : RingId) (x : Ring) : (s.setRing n x).engines = s.engines := rfl
@[simp] theorem setRing_lines (s : State) (n : RingId) (x : Ring) : (s.setRing n x).lines = s.lines := rfl
@[simp] theorem setRing_journal (s : State) (n : RingId) (x : Ring) : (s.setRing n x).journal = s.journal := rfl
@[simp] theorem setRing_hive (s : State) (n : RingId) (x : Ring) : (s.setRing n x).hive = s.hive := rfl
@[simp] theorem setRing_vioH (s : State) (n : RingId) (x : Ring) : (s.setRing n x).vioH = s.vioH := rfl
@[simp] theorem setRing_vioL (s : State) (n : RingId) (x : Ring) : (s.setRing n x).vioL = s.vioL := rfl
@[simp] theorem setRing_tap (s : State) (n : RingId) (x : Ring) : (s.setRing n x).tap = s.tap := rfl
@[simp] theorem setRing_free (s : State) (n : RingId) (x : Ring) : (s.setRing n x).free = s.free := rfl
@[simp] theorem setRing_pending (s : State) (n : RingId) (x : Ring) : (s.setRing n x).pending = s.pending := rfl
@[simp] theorem setRing_core' (s : State) (n : RingId) (x : Ring) (d : CoreId) : (s.setRing n x).core d = s.core d := rfl
@[simp] theorem setRing_tenant' (s : State) (n : RingId) (x : Ring) (u : Tid) : (s.setRing n x).tenant u = s.tenant u := rfl
@[simp] theorem setRing_sensor' (s : State) (n : RingId) (x : Ring) (y : SensorId) : (s.setRing n x).sensor y = s.sensor y := rfl
@[simp] theorem setRing_queue' (s : State) (n : RingId) (x : Ring) (y : QueueId) : (s.setRing n x).queue y = s.queue y := rfl
@[simp] theorem setRing_port' (s : State) (n : RingId) (x : Ring) (y : PortId) : (s.setRing n x).port y = s.port y := rfl
@[simp] theorem setRing_isReady' (s : State) (n : RingId) (x : Ring) (y : Func) : (s.setRing n x).isReady y = s.isReady y := rfl
@[simp] theorem setRing_hasFailed' (s : State) (n : RingId) (x : Ring) (y : Func) : (s.setRing n x).hasFailed y = s.hasFailed y := rfl
@[simp] theorem setRing_running' (s : State) (n : RingId) (x : Ring) : (s.setRing n x).running = s.running := rfl

/-! ## setQueue -/


@[simp] theorem setQueue_cores (s : State) (q : QueueId) (x : Queue) : (s.setQueue q x).cores = s.cores := rfl
@[simp] theorem setQueue_ctx (s : State) (q : QueueId) (x : Queue) : (s.setQueue q x).ctx = s.ctx := rfl
@[simp] theorem setQueue_ctxOrder (s : State) (q : QueueId) (x : Queue) : (s.setQueue q x).ctxOrder = s.ctxOrder := rfl
@[simp] theorem setQueue_bindings (s : State) (q : QueueId) (x : Queue) : (s.setQueue q x).bindings = s.bindings := rfl
@[simp] theorem setQueue_bindSerial (s : State) (q : QueueId) (x : Queue) : (s.setQueue q x).bindSerial = s.bindSerial := rfl
@[simp] theorem setQueue_tenants (s : State) (q : QueueId) (x : Queue) : (s.setQueue q x).tenants = s.tenants := rfl
@[simp] theorem setQueue_timers (s : State) (q : QueueId) (x : Queue) : (s.setQueue q x).timers = s.timers := rfl
@[simp] theorem setQueue_raised (s : State) (q : QueueId) (x : Queue) : (s.setQueue q x).raised = s.raised := rfl
@[simp] theorem setQueue_bankUse (s : State) (q : QueueId) (x : Queue) : (s.setQueue q x).bankUse = s.bankUse := rfl
@[simp] theorem setQueue_later (s : State) (q : QueueId) (x : Queue) : (s.setQueue q x).later = s.later := rfl
@[simp] theorem setQueue_early (s : State) (q : QueueId) (x : Queue) : (s.setQueue q x).early = s.early := rfl
@[simp] theorem setQueue_loader (s : State) (q : QueueId) (x : Queue) : (s.setQueue q x).loader = s.loader := rfl
@[simp] theorem setQueue_host (s : State) (q : QueueId) (x : Queue) : (s.setQueue q x).host = s.host := rfl
@[simp] theorem setQueue_mem (s : State) (q : QueueId) (x : Queue) : (s.setQueue q x).mem = s.mem := rfl
@[simp] theorem setQueue_unseen (s : State) (q : QueueId) (x : Queue) : (s.setQueue q x).unseen = s.unseen := rfl
@[simp] theorem setQueue_shown (s : State) (q : QueueId) (x : Queue) : (s.setQueue q x).shown = s.shown := rfl
@[simp] theorem setQueue_ecc (s : State) (q : QueueId) (x : Queue) : (s.setQueue q x).ecc = s.ecc := rfl
@[simp] theorem setQueue_eccCnt (s : State) (q : QueueId) (x : Queue) : (s.setQueue q x).eccCnt = s.eccCnt := rfl
@[simp] theorem setQueue_icache (s : State) (q : QueueId) (x : Queue) : (s.setQueue q x).icache = s.icache := rfl
@[simp] theorem setQueue_time (s : State) (q : QueueId) (x : Queue) : (s.setQueue q x).time = s.time := rfl
@[simp] theorem setQueue_boot (s : State) (q : QueueId) (x : Queue) : (s.setQueue q x).boot = s.boot := rfl
@[simp] theorem setQueue_level (s : State) (q : QueueId) (x : Queue) : (s.setQueue q x).level = s.level := rfl
@[simp] theorem setQueue_sleep (s : State) (q : QueueId) (x : Queue) : (s.setQueue q x).sleep = s.sleep := rfl
@[simp] theorem setQueue_therm (s : State) (q : QueueId) (x : Queue) : (s.setQueue q x).therm = s.therm := rfl
@[simp] theorem setQueue_sensors (s : State) (q : QueueId) (x : Queue) : (s.setQueue q x).sensors = s.sensors := rfl
@[simp] theorem setQueue_align (s : State) (q : QueueId) (x : Queue) : (s.setQueue q x).align = s.align := rfl
@[simp] theorem setQueue_plausRun (s : State) (q : QueueId) (x : Queue) : (s.setQueue q x).plausRun = s.plausRun := rfl
@[simp] theorem setQueue_aouts (s : State) (q : QueueId) (x : Queue) : (s.setQueue q x).aouts = s.aouts := rfl
@[simp] theorem setQueue_vaout (s : State) (q : QueueId) (x : Queue) : (s.setQueue q x).vaout = s.vaout := rfl
@[simp] theorem setQueue_evtBalls (s : State) (q : QueueId) (x : Queue) : (s.setQueue q x).evtBalls = s.evtBalls := rfl
@[simp] theorem setQueue_vaon (s : State) (q : QueueId) (x : Queue) : (s.setQueue q x).vaon = s.vaon := rfl
@[simp] theorem setQueue_lanes (s : State) (q : QueueId) (x : Queue) : (s.setQueue q x).lanes = s.lanes := rfl
@[simp] theorem setQueue_recogs (s : State) (q : QueueId) (x : Queue) : (s.setQueue q x).recogs = s.recogs := rfl
@[simp] theorem setQueue_rings (s : State) (q : QueueId) (x : Queue) : (s.setQueue q x).rings = s.rings := rfl
@[simp] theorem setQueue_comb (s : State) (q : QueueId) (x : Queue) : (s.setQueue q x).comb = s.comb := rfl
@[simp] theorem setQueue_ports (s : State) (q : QueueId) (x : Queue) : (s.setQueue q x).ports = s.ports := rfl
@[simp] theorem setQueue_engines (s : State) (q : QueueId) (x : Queue) : (s.setQueue q x).engines = s.engines := rfl
@[simp] theorem setQueue_lines (s : State) (q : QueueId) (x : Queue) : (s.setQueue q x).lines = s.lines := rfl
@[simp] theorem setQueue_journal (s : State) (q : QueueId) (x : Queue) : (s.setQueue q x).journal = s.journal := rfl
@[simp] theorem setQueue_hive (s : State) (q : QueueId) (x : Queue) : (s.setQueue q x).hive = s.hive := rfl
@[simp] theorem setQueue_vioH (s : State) (q : QueueId) (x : Queue) : (s.setQueue q x).vioH = s.vioH := rfl
@[simp] theorem setQueue_vioL (s : State) (q : QueueId) (x : Queue) : (s.setQueue q x).vioL = s.vioL := rfl
@[simp] theorem setQueue_tap (s : State) (q : QueueId) (x : Queue) : (s.setQueue q x).tap = s.tap := rfl
@[simp] theorem setQueue_free (s : State) (q : QueueId) (x : Queue) : (s.setQueue q x).free = s.free := rfl
@[simp] theorem setQueue_pending (s : State) (q : QueueId) (x : Queue) : (s.setQueue q x).pending = s.pending := rfl
@[simp] theorem setQueue_core' (s : State) (q : QueueId) (x : Queue) (d : CoreId) : (s.setQueue q x).core d = s.core d := rfl
@[simp] theorem setQueue_tenant' (s : State) (q : QueueId) (x : Queue) (u : Tid) : (s.setQueue q x).tenant u = s.tenant u := rfl
@[simp] theorem setQueue_sensor' (s : State) (q : QueueId) (x : Queue) (y : SensorId) : (s.setQueue q x).sensor y = s.sensor y := rfl
@[simp] theorem setQueue_port' (s : State) (q : QueueId) (x : Queue) (y : PortId) : (s.setQueue q x).port y = s.port y := rfl
@[simp] theorem setQueue_isReady' (s : State) (q : QueueId) (x : Queue) (y : Func) : (s.setQueue q x).isReady y = s.isReady y := rfl
@[simp] theorem setQueue_hasFailed' (s : State) (q : QueueId) (x : Queue) (y : Func) : (s.setQueue q x).hasFailed y = s.hasFailed y := rfl
@[simp] theorem setQueue_running' (s : State) (q : QueueId) (x : Queue) : (s.setQueue q x).running = s.running := rfl

/-! ## setPort -/


@[simp] theorem setPort_cores (s : State) (p : PortId) (x : Port) : (s.setPort p x).cores = s.cores := rfl
@[simp] theorem setPort_ctx (s : State) (p : PortId) (x : Port) : (s.setPort p x).ctx = s.ctx := rfl
@[simp] theorem setPort_ctxOrder (s : State) (p : PortId) (x : Port) : (s.setPort p x).ctxOrder = s.ctxOrder := rfl
@[simp] theorem setPort_bindings (s : State) (p : PortId) (x : Port) : (s.setPort p x).bindings = s.bindings := rfl
@[simp] theorem setPort_bindSerial (s : State) (p : PortId) (x : Port) : (s.setPort p x).bindSerial = s.bindSerial := rfl
@[simp] theorem setPort_tenants (s : State) (p : PortId) (x : Port) : (s.setPort p x).tenants = s.tenants := rfl
@[simp] theorem setPort_timers (s : State) (p : PortId) (x : Port) : (s.setPort p x).timers = s.timers := rfl
@[simp] theorem setPort_raised (s : State) (p : PortId) (x : Port) : (s.setPort p x).raised = s.raised := rfl
@[simp] theorem setPort_bankUse (s : State) (p : PortId) (x : Port) : (s.setPort p x).bankUse = s.bankUse := rfl
@[simp] theorem setPort_later (s : State) (p : PortId) (x : Port) : (s.setPort p x).later = s.later := rfl
@[simp] theorem setPort_early (s : State) (p : PortId) (x : Port) : (s.setPort p x).early = s.early := rfl
@[simp] theorem setPort_loader (s : State) (p : PortId) (x : Port) : (s.setPort p x).loader = s.loader := rfl
@[simp] theorem setPort_host (s : State) (p : PortId) (x : Port) : (s.setPort p x).host = s.host := rfl
@[simp] theorem setPort_mem (s : State) (p : PortId) (x : Port) : (s.setPort p x).mem = s.mem := rfl
@[simp] theorem setPort_unseen (s : State) (p : PortId) (x : Port) : (s.setPort p x).unseen = s.unseen := rfl
@[simp] theorem setPort_shown (s : State) (p : PortId) (x : Port) : (s.setPort p x).shown = s.shown := rfl
@[simp] theorem setPort_ecc (s : State) (p : PortId) (x : Port) : (s.setPort p x).ecc = s.ecc := rfl
@[simp] theorem setPort_eccCnt (s : State) (p : PortId) (x : Port) : (s.setPort p x).eccCnt = s.eccCnt := rfl
@[simp] theorem setPort_icache (s : State) (p : PortId) (x : Port) : (s.setPort p x).icache = s.icache := rfl
@[simp] theorem setPort_time (s : State) (p : PortId) (x : Port) : (s.setPort p x).time = s.time := rfl
@[simp] theorem setPort_boot (s : State) (p : PortId) (x : Port) : (s.setPort p x).boot = s.boot := rfl
@[simp] theorem setPort_level (s : State) (p : PortId) (x : Port) : (s.setPort p x).level = s.level := rfl
@[simp] theorem setPort_sleep (s : State) (p : PortId) (x : Port) : (s.setPort p x).sleep = s.sleep := rfl
@[simp] theorem setPort_therm (s : State) (p : PortId) (x : Port) : (s.setPort p x).therm = s.therm := rfl
@[simp] theorem setPort_sensors (s : State) (p : PortId) (x : Port) : (s.setPort p x).sensors = s.sensors := rfl
@[simp] theorem setPort_align (s : State) (p : PortId) (x : Port) : (s.setPort p x).align = s.align := rfl
@[simp] theorem setPort_plausRun (s : State) (p : PortId) (x : Port) : (s.setPort p x).plausRun = s.plausRun := rfl
@[simp] theorem setPort_aouts (s : State) (p : PortId) (x : Port) : (s.setPort p x).aouts = s.aouts := rfl
@[simp] theorem setPort_vaout (s : State) (p : PortId) (x : Port) : (s.setPort p x).vaout = s.vaout := rfl
@[simp] theorem setPort_evtBalls (s : State) (p : PortId) (x : Port) : (s.setPort p x).evtBalls = s.evtBalls := rfl
@[simp] theorem setPort_vaon (s : State) (p : PortId) (x : Port) : (s.setPort p x).vaon = s.vaon := rfl
@[simp] theorem setPort_lanes (s : State) (p : PortId) (x : Port) : (s.setPort p x).lanes = s.lanes := rfl
@[simp] theorem setPort_recogs (s : State) (p : PortId) (x : Port) : (s.setPort p x).recogs = s.recogs := rfl
@[simp] theorem setPort_rings (s : State) (p : PortId) (x : Port) : (s.setPort p x).rings = s.rings := rfl
@[simp] theorem setPort_comb (s : State) (p : PortId) (x : Port) : (s.setPort p x).comb = s.comb := rfl
@[simp] theorem setPort_queues (s : State) (p : PortId) (x : Port) : (s.setPort p x).queues = s.queues := rfl
@[simp] theorem setPort_engines (s : State) (p : PortId) (x : Port) : (s.setPort p x).engines = s.engines := rfl
@[simp] theorem setPort_lines (s : State) (p : PortId) (x : Port) : (s.setPort p x).lines = s.lines := rfl
@[simp] theorem setPort_journal (s : State) (p : PortId) (x : Port) : (s.setPort p x).journal = s.journal := rfl
@[simp] theorem setPort_hive (s : State) (p : PortId) (x : Port) : (s.setPort p x).hive = s.hive := rfl
@[simp] theorem setPort_vioH (s : State) (p : PortId) (x : Port) : (s.setPort p x).vioH = s.vioH := rfl
@[simp] theorem setPort_vioL (s : State) (p : PortId) (x : Port) : (s.setPort p x).vioL = s.vioL := rfl
@[simp] theorem setPort_tap (s : State) (p : PortId) (x : Port) : (s.setPort p x).tap = s.tap := rfl
@[simp] theorem setPort_free (s : State) (p : PortId) (x : Port) : (s.setPort p x).free = s.free := rfl
@[simp] theorem setPort_pending (s : State) (p : PortId) (x : Port) : (s.setPort p x).pending = s.pending := rfl
@[simp] theorem setPort_core' (s : State) (p : PortId) (x : Port) (d : CoreId) : (s.setPort p x).core d = s.core d := rfl
@[simp] theorem setPort_tenant' (s : State) (p : PortId) (x : Port) (u : Tid) : (s.setPort p x).tenant u = s.tenant u := rfl
@[simp] theorem setPort_sensor' (s : State) (p : PortId) (x : Port) (y : SensorId) : (s.setPort p x).sensor y = s.sensor y := rfl
@[simp] theorem setPort_queue' (s : State) (p : PortId) (x : Port) (y : QueueId) : (s.setPort p x).queue y = s.queue y := rfl
@[simp] theorem setPort_isReady' (s : State) (p : PortId) (x : Port) (y : Func) : (s.setPort p x).isReady y = s.isReady y := rfl
@[simp] theorem setPort_hasFailed' (s : State) (p : PortId) (x : Port) (y : Func) : (s.setPort p x).hasFailed y = s.hasFailed y := rfl
@[simp] theorem setPort_running' (s : State) (p : PortId) (x : Port) : (s.setPort p x).running = s.running := rfl

/-! ## setEngine -/


@[simp] theorem setEngine_cores (s : State) (e : EngineId) (x : Engine) : (s.setEngine e x).cores = s.cores := rfl
@[simp] theorem setEngine_ctx (s : State) (e : EngineId) (x : Engine) : (s.setEngine e x).ctx = s.ctx := rfl
@[simp] theorem setEngine_ctxOrder (s : State) (e : EngineId) (x : Engine) : (s.setEngine e x).ctxOrder = s.ctxOrder := rfl
@[simp] theorem setEngine_bindings (s : State) (e : EngineId) (x : Engine) : (s.setEngine e x).bindings = s.bindings := rfl
@[simp] theorem setEngine_bindSerial (s : State) (e : EngineId) (x : Engine) : (s.setEngine e x).bindSerial = s.bindSerial := rfl
@[simp] theorem setEngine_tenants (s : State) (e : EngineId) (x : Engine) : (s.setEngine e x).tenants = s.tenants := rfl
@[simp] theorem setEngine_timers (s : State) (e : EngineId) (x : Engine) : (s.setEngine e x).timers = s.timers := rfl
@[simp] theorem setEngine_raised (s : State) (e : EngineId) (x : Engine) : (s.setEngine e x).raised = s.raised := rfl
@[simp] theorem setEngine_bankUse (s : State) (e : EngineId) (x : Engine) : (s.setEngine e x).bankUse = s.bankUse := rfl
@[simp] theorem setEngine_later (s : State) (e : EngineId) (x : Engine) : (s.setEngine e x).later = s.later := rfl
@[simp] theorem setEngine_early (s : State) (e : EngineId) (x : Engine) : (s.setEngine e x).early = s.early := rfl
@[simp] theorem setEngine_loader (s : State) (e : EngineId) (x : Engine) : (s.setEngine e x).loader = s.loader := rfl
@[simp] theorem setEngine_host (s : State) (e : EngineId) (x : Engine) : (s.setEngine e x).host = s.host := rfl
@[simp] theorem setEngine_mem (s : State) (e : EngineId) (x : Engine) : (s.setEngine e x).mem = s.mem := rfl
@[simp] theorem setEngine_unseen (s : State) (e : EngineId) (x : Engine) : (s.setEngine e x).unseen = s.unseen := rfl
@[simp] theorem setEngine_shown (s : State) (e : EngineId) (x : Engine) : (s.setEngine e x).shown = s.shown := rfl
@[simp] theorem setEngine_ecc (s : State) (e : EngineId) (x : Engine) : (s.setEngine e x).ecc = s.ecc := rfl
@[simp] theorem setEngine_eccCnt (s : State) (e : EngineId) (x : Engine) : (s.setEngine e x).eccCnt = s.eccCnt := rfl
@[simp] theorem setEngine_icache (s : State) (e : EngineId) (x : Engine) : (s.setEngine e x).icache = s.icache := rfl
@[simp] theorem setEngine_time (s : State) (e : EngineId) (x : Engine) : (s.setEngine e x).time = s.time := rfl
@[simp] theorem setEngine_boot (s : State) (e : EngineId) (x : Engine) : (s.setEngine e x).boot = s.boot := rfl
@[simp] theorem setEngine_level (s : State) (e : EngineId) (x : Engine) : (s.setEngine e x).level = s.level := rfl
@[simp] theorem setEngine_sleep (s : State) (e : EngineId) (x : Engine) : (s.setEngine e x).sleep = s.sleep := rfl
@[simp] theorem setEngine_therm (s : State) (e : EngineId) (x : Engine) : (s.setEngine e x).therm = s.therm := rfl
@[simp] theorem setEngine_sensors (s : State) (e : EngineId) (x : Engine) : (s.setEngine e x).sensors = s.sensors := rfl
@[simp] theorem setEngine_align (s : State) (e : EngineId) (x : Engine) : (s.setEngine e x).align = s.align := rfl
@[simp] theorem setEngine_plausRun (s : State) (e : EngineId) (x : Engine) : (s.setEngine e x).plausRun = s.plausRun := rfl
@[simp] theorem setEngine_aouts (s : State) (e : EngineId) (x : Engine) : (s.setEngine e x).aouts = s.aouts := rfl
@[simp] theorem setEngine_vaout (s : State) (e : EngineId) (x : Engine) : (s.setEngine e x).vaout = s.vaout := rfl
@[simp] theorem setEngine_evtBalls (s : State) (e : EngineId) (x : Engine) : (s.setEngine e x).evtBalls = s.evtBalls := rfl
@[simp] theorem setEngine_vaon (s : State) (e : EngineId) (x : Engine) : (s.setEngine e x).vaon = s.vaon := rfl
@[simp] theorem setEngine_lanes (s : State) (e : EngineId) (x : Engine) : (s.setEngine e x).lanes = s.lanes := rfl
@[simp] theorem setEngine_recogs (s : State) (e : EngineId) (x : Engine) : (s.setEngine e x).recogs = s.recogs := rfl
@[simp] theorem setEngine_rings (s : State) (e : EngineId) (x : Engine) : (s.setEngine e x).rings = s.rings := rfl
@[simp] theorem setEngine_comb (s : State) (e : EngineId) (x : Engine) : (s.setEngine e x).comb = s.comb := rfl
@[simp] theorem setEngine_queues (s : State) (e : EngineId) (x : Engine) : (s.setEngine e x).queues = s.queues := rfl
@[simp] theorem setEngine_ports (s : State) (e : EngineId) (x : Engine) : (s.setEngine e x).ports = s.ports := rfl
@[simp] theorem setEngine_lines (s : State) (e : EngineId) (x : Engine) : (s.setEngine e x).lines = s.lines := rfl
@[simp] theorem setEngine_journal (s : State) (e : EngineId) (x : Engine) : (s.setEngine e x).journal = s.journal := rfl
@[simp] theorem setEngine_hive (s : State) (e : EngineId) (x : Engine) : (s.setEngine e x).hive = s.hive := rfl
@[simp] theorem setEngine_vioH (s : State) (e : EngineId) (x : Engine) : (s.setEngine e x).vioH = s.vioH := rfl
@[simp] theorem setEngine_vioL (s : State) (e : EngineId) (x : Engine) : (s.setEngine e x).vioL = s.vioL := rfl
@[simp] theorem setEngine_tap (s : State) (e : EngineId) (x : Engine) : (s.setEngine e x).tap = s.tap := rfl
@[simp] theorem setEngine_free (s : State) (e : EngineId) (x : Engine) : (s.setEngine e x).free = s.free := rfl
@[simp] theorem setEngine_pending (s : State) (e : EngineId) (x : Engine) : (s.setEngine e x).pending = s.pending := rfl
@[simp] theorem setEngine_core' (s : State) (e : EngineId) (x : Engine) (d : CoreId) : (s.setEngine e x).core d = s.core d := rfl
@[simp] theorem setEngine_tenant' (s : State) (e : EngineId) (x : Engine) (u : Tid) : (s.setEngine e x).tenant u = s.tenant u := rfl
@[simp] theorem setEngine_sensor' (s : State) (e : EngineId) (x : Engine) (y : SensorId) : (s.setEngine e x).sensor y = s.sensor y := rfl
@[simp] theorem setEngine_queue' (s : State) (e : EngineId) (x : Engine) (y : QueueId) : (s.setEngine e x).queue y = s.queue y := rfl
@[simp] theorem setEngine_port' (s : State) (e : EngineId) (x : Engine) (y : PortId) : (s.setEngine e x).port y = s.port y := rfl
@[simp] theorem setEngine_isReady' (s : State) (e : EngineId) (x : Engine) (y : Func) : (s.setEngine e x).isReady y = s.isReady y := rfl
@[simp] theorem setEngine_hasFailed' (s : State) (e : EngineId) (x : Engine) (y : Func) : (s.setEngine e x).hasFailed y = s.hasFailed y := rfl
@[simp] theorem setEngine_running' (s : State) (e : EngineId) (x : Engine) : (s.setEngine e x).running = s.running := rfl

/-! ## setJ -/


@[simp] theorem setJ_cores (s : State) (j : JournalSt) : (s.setJ j).cores = s.cores := rfl
@[simp] theorem setJ_ctx (s : State) (j : JournalSt) : (s.setJ j).ctx = s.ctx := rfl
@[simp] theorem setJ_ctxOrder (s : State) (j : JournalSt) : (s.setJ j).ctxOrder = s.ctxOrder := rfl
@[simp] theorem setJ_bindings (s : State) (j : JournalSt) : (s.setJ j).bindings = s.bindings := rfl
@[simp] theorem setJ_bindSerial (s : State) (j : JournalSt) : (s.setJ j).bindSerial = s.bindSerial := rfl
@[simp] theorem setJ_tenants (s : State) (j : JournalSt) : (s.setJ j).tenants = s.tenants := rfl
@[simp] theorem setJ_timers (s : State) (j : JournalSt) : (s.setJ j).timers = s.timers := rfl
@[simp] theorem setJ_raised (s : State) (j : JournalSt) : (s.setJ j).raised = s.raised := rfl
@[simp] theorem setJ_bankUse (s : State) (j : JournalSt) : (s.setJ j).bankUse = s.bankUse := rfl
@[simp] theorem setJ_later (s : State) (j : JournalSt) : (s.setJ j).later = s.later := rfl
@[simp] theorem setJ_early (s : State) (j : JournalSt) : (s.setJ j).early = s.early := rfl
@[simp] theorem setJ_loader (s : State) (j : JournalSt) : (s.setJ j).loader = s.loader := rfl
@[simp] theorem setJ_host (s : State) (j : JournalSt) : (s.setJ j).host = s.host := rfl
@[simp] theorem setJ_mem (s : State) (j : JournalSt) : (s.setJ j).mem = s.mem := rfl
@[simp] theorem setJ_unseen (s : State) (j : JournalSt) : (s.setJ j).unseen = s.unseen := rfl
@[simp] theorem setJ_shown (s : State) (j : JournalSt) : (s.setJ j).shown = s.shown := rfl
@[simp] theorem setJ_ecc (s : State) (j : JournalSt) : (s.setJ j).ecc = s.ecc := rfl
@[simp] theorem setJ_eccCnt (s : State) (j : JournalSt) : (s.setJ j).eccCnt = s.eccCnt := rfl
@[simp] theorem setJ_icache (s : State) (j : JournalSt) : (s.setJ j).icache = s.icache := rfl
@[simp] theorem setJ_time (s : State) (j : JournalSt) : (s.setJ j).time = s.time := rfl
@[simp] theorem setJ_boot (s : State) (j : JournalSt) : (s.setJ j).boot = s.boot := rfl
@[simp] theorem setJ_level (s : State) (j : JournalSt) : (s.setJ j).level = s.level := rfl
@[simp] theorem setJ_sleep (s : State) (j : JournalSt) : (s.setJ j).sleep = s.sleep := rfl
@[simp] theorem setJ_therm (s : State) (j : JournalSt) : (s.setJ j).therm = s.therm := rfl
@[simp] theorem setJ_sensors (s : State) (j : JournalSt) : (s.setJ j).sensors = s.sensors := rfl
@[simp] theorem setJ_align (s : State) (j : JournalSt) : (s.setJ j).align = s.align := rfl
@[simp] theorem setJ_plausRun (s : State) (j : JournalSt) : (s.setJ j).plausRun = s.plausRun := rfl
@[simp] theorem setJ_aouts (s : State) (j : JournalSt) : (s.setJ j).aouts = s.aouts := rfl
@[simp] theorem setJ_vaout (s : State) (j : JournalSt) : (s.setJ j).vaout = s.vaout := rfl
@[simp] theorem setJ_evtBalls (s : State) (j : JournalSt) : (s.setJ j).evtBalls = s.evtBalls := rfl
@[simp] theorem setJ_vaon (s : State) (j : JournalSt) : (s.setJ j).vaon = s.vaon := rfl
@[simp] theorem setJ_lanes (s : State) (j : JournalSt) : (s.setJ j).lanes = s.lanes := rfl
@[simp] theorem setJ_recogs (s : State) (j : JournalSt) : (s.setJ j).recogs = s.recogs := rfl
@[simp] theorem setJ_rings (s : State) (j : JournalSt) : (s.setJ j).rings = s.rings := rfl
@[simp] theorem setJ_comb (s : State) (j : JournalSt) : (s.setJ j).comb = s.comb := rfl
@[simp] theorem setJ_queues (s : State) (j : JournalSt) : (s.setJ j).queues = s.queues := rfl
@[simp] theorem setJ_ports (s : State) (j : JournalSt) : (s.setJ j).ports = s.ports := rfl
@[simp] theorem setJ_engines (s : State) (j : JournalSt) : (s.setJ j).engines = s.engines := rfl
@[simp] theorem setJ_lines (s : State) (j : JournalSt) : (s.setJ j).lines = s.lines := rfl
@[simp] theorem setJ_hive (s : State) (j : JournalSt) : (s.setJ j).hive = s.hive := rfl
@[simp] theorem setJ_vioH (s : State) (j : JournalSt) : (s.setJ j).vioH = s.vioH := rfl
@[simp] theorem setJ_vioL (s : State) (j : JournalSt) : (s.setJ j).vioL = s.vioL := rfl
@[simp] theorem setJ_tap (s : State) (j : JournalSt) : (s.setJ j).tap = s.tap := rfl
@[simp] theorem setJ_free (s : State) (j : JournalSt) : (s.setJ j).free = s.free := rfl
@[simp] theorem setJ_pending (s : State) (j : JournalSt) : (s.setJ j).pending = s.pending := rfl
@[simp] theorem setJ_core' (s : State) (j : JournalSt) (d : CoreId) : (s.setJ j).core d = s.core d := rfl
@[simp] theorem setJ_tenant' (s : State) (j : JournalSt) (u : Tid) : (s.setJ j).tenant u = s.tenant u := rfl
@[simp] theorem setJ_sensor' (s : State) (j : JournalSt) (y : SensorId) : (s.setJ j).sensor y = s.sensor y := rfl
@[simp] theorem setJ_queue' (s : State) (j : JournalSt) (y : QueueId) : (s.setJ j).queue y = s.queue y := rfl
@[simp] theorem setJ_port' (s : State) (j : JournalSt) (y : PortId) : (s.setJ j).port y = s.port y := rfl
@[simp] theorem setJ_isReady' (s : State) (j : JournalSt) (y : Func) : (s.setJ j).isReady y = s.isReady y := rfl
@[simp] theorem setJ_hasFailed' (s : State) (j : JournalSt) (y : Func) : (s.setJ j).hasFailed y = s.hasFailed y := rfl
@[simp] theorem setJ_running' (s : State) (j : JournalSt) : (s.setJ j).running = s.running := rfl

/-! ## modHive -/


@[simp] theorem modHive_cores (s : State) (g : HiveSt → HiveSt) : (s.modHive g).cores = s.cores := rfl
@[simp] theorem modHive_ctx (s : State) (g : HiveSt → HiveSt) : (s.modHive g).ctx = s.ctx := rfl
@[simp] theorem modHive_ctxOrder (s : State) (g : HiveSt → HiveSt) : (s.modHive g).ctxOrder = s.ctxOrder := rfl
@[simp] theorem modHive_bindings (s : State) (g : HiveSt → HiveSt) : (s.modHive g).bindings = s.bindings := rfl
@[simp] theorem modHive_bindSerial (s : State) (g : HiveSt → HiveSt) : (s.modHive g).bindSerial = s.bindSerial := rfl
@[simp] theorem modHive_tenants (s : State) (g : HiveSt → HiveSt) : (s.modHive g).tenants = s.tenants := rfl
@[simp] theorem modHive_timers (s : State) (g : HiveSt → HiveSt) : (s.modHive g).timers = s.timers := rfl
@[simp] theorem modHive_raised (s : State) (g : HiveSt → HiveSt) : (s.modHive g).raised = s.raised := rfl
@[simp] theorem modHive_bankUse (s : State) (g : HiveSt → HiveSt) : (s.modHive g).bankUse = s.bankUse := rfl
@[simp] theorem modHive_later (s : State) (g : HiveSt → HiveSt) : (s.modHive g).later = s.later := rfl
@[simp] theorem modHive_early (s : State) (g : HiveSt → HiveSt) : (s.modHive g).early = s.early := rfl
@[simp] theorem modHive_loader (s : State) (g : HiveSt → HiveSt) : (s.modHive g).loader = s.loader := rfl
@[simp] theorem modHive_host (s : State) (g : HiveSt → HiveSt) : (s.modHive g).host = s.host := rfl
@[simp] theorem modHive_mem (s : State) (g : HiveSt → HiveSt) : (s.modHive g).mem = s.mem := rfl
@[simp] theorem modHive_unseen (s : State) (g : HiveSt → HiveSt) : (s.modHive g).unseen = s.unseen := rfl
@[simp] theorem modHive_shown (s : State) (g : HiveSt → HiveSt) : (s.modHive g).shown = s.shown := rfl
@[simp] theorem modHive_ecc (s : State) (g : HiveSt → HiveSt) : (s.modHive g).ecc = s.ecc := rfl
@[simp] theorem modHive_eccCnt (s : State) (g : HiveSt → HiveSt) : (s.modHive g).eccCnt = s.eccCnt := rfl
@[simp] theorem modHive_icache (s : State) (g : HiveSt → HiveSt) : (s.modHive g).icache = s.icache := rfl
@[simp] theorem modHive_time (s : State) (g : HiveSt → HiveSt) : (s.modHive g).time = s.time := rfl
@[simp] theorem modHive_boot (s : State) (g : HiveSt → HiveSt) : (s.modHive g).boot = s.boot := rfl
@[simp] theorem modHive_level (s : State) (g : HiveSt → HiveSt) : (s.modHive g).level = s.level := rfl
@[simp] theorem modHive_sleep (s : State) (g : HiveSt → HiveSt) : (s.modHive g).sleep = s.sleep := rfl
@[simp] theorem modHive_therm (s : State) (g : HiveSt → HiveSt) : (s.modHive g).therm = s.therm := rfl
@[simp] theorem modHive_sensors (s : State) (g : HiveSt → HiveSt) : (s.modHive g).sensors = s.sensors := rfl
@[simp] theorem modHive_align (s : State) (g : HiveSt → HiveSt) : (s.modHive g).align = s.align := rfl
@[simp] theorem modHive_plausRun (s : State) (g : HiveSt → HiveSt) : (s.modHive g).plausRun = s.plausRun := rfl
@[simp] theorem modHive_aouts (s : State) (g : HiveSt → HiveSt) : (s.modHive g).aouts = s.aouts := rfl
@[simp] theorem modHive_vaout (s : State) (g : HiveSt → HiveSt) : (s.modHive g).vaout = s.vaout := rfl
@[simp] theorem modHive_evtBalls (s : State) (g : HiveSt → HiveSt) : (s.modHive g).evtBalls = s.evtBalls := rfl
@[simp] theorem modHive_vaon (s : State) (g : HiveSt → HiveSt) : (s.modHive g).vaon = s.vaon := rfl
@[simp] theorem modHive_lanes (s : State) (g : HiveSt → HiveSt) : (s.modHive g).lanes = s.lanes := rfl
@[simp] theorem modHive_recogs (s : State) (g : HiveSt → HiveSt) : (s.modHive g).recogs = s.recogs := rfl
@[simp] theorem modHive_rings (s : State) (g : HiveSt → HiveSt) : (s.modHive g).rings = s.rings := rfl
@[simp] theorem modHive_comb (s : State) (g : HiveSt → HiveSt) : (s.modHive g).comb = s.comb := rfl
@[simp] theorem modHive_queues (s : State) (g : HiveSt → HiveSt) : (s.modHive g).queues = s.queues := rfl
@[simp] theorem modHive_ports (s : State) (g : HiveSt → HiveSt) : (s.modHive g).ports = s.ports := rfl
@[simp] theorem modHive_engines (s : State) (g : HiveSt → HiveSt) : (s.modHive g).engines = s.engines := rfl
@[simp] theorem modHive_lines (s : State) (g : HiveSt → HiveSt) : (s.modHive g).lines = s.lines := rfl
@[simp] theorem modHive_journal (s : State) (g : HiveSt → HiveSt) : (s.modHive g).journal = s.journal := rfl
@[simp] theorem modHive_vioH (s : State) (g : HiveSt → HiveSt) : (s.modHive g).vioH = s.vioH := rfl
@[simp] theorem modHive_vioL (s : State) (g : HiveSt → HiveSt) : (s.modHive g).vioL = s.vioL := rfl
@[simp] theorem modHive_tap (s : State) (g : HiveSt → HiveSt) : (s.modHive g).tap = s.tap := rfl
@[simp] theorem modHive_free (s : State) (g : HiveSt → HiveSt) : (s.modHive g).free = s.free := rfl
@[simp] theorem modHive_pending (s : State) (g : HiveSt → HiveSt) : (s.modHive g).pending = s.pending := rfl
@[simp] theorem modHive_core' (s : State) (g : HiveSt → HiveSt) (d : CoreId) : (s.modHive g).core d = s.core d := rfl
@[simp] theorem modHive_tenant' (s : State) (g : HiveSt → HiveSt) (u : Tid) : (s.modHive g).tenant u = s.tenant u := rfl
@[simp] theorem modHive_sensor' (s : State) (g : HiveSt → HiveSt) (y : SensorId) : (s.modHive g).sensor y = s.sensor y := rfl
@[simp] theorem modHive_queue' (s : State) (g : HiveSt → HiveSt) (y : QueueId) : (s.modHive g).queue y = s.queue y := rfl
@[simp] theorem modHive_port' (s : State) (g : HiveSt → HiveSt) (y : PortId) : (s.modHive g).port y = s.port y := rfl
@[simp] theorem modHive_isReady' (s : State) (g : HiveSt → HiveSt) (y : Func) : (s.modHive g).isReady y = s.isReady y := rfl
@[simp] theorem modHive_hasFailed' (s : State) (g : HiveSt → HiveSt) (y : Func) : (s.modHive g).hasFailed y = s.hasFailed y := rfl
@[simp] theorem modHive_running' (s : State) (g : HiveSt → HiveSt) : (s.modHive g).running = s.running := rfl

/-! ## setSleep -/


@[simp] theorem setSleep_cores (s : State) (g : SleepSt → SleepSt) : (s.setSleep g).cores = s.cores := rfl
@[simp] theorem setSleep_ctx (s : State) (g : SleepSt → SleepSt) : (s.setSleep g).ctx = s.ctx := rfl
@[simp] theorem setSleep_ctxOrder (s : State) (g : SleepSt → SleepSt) : (s.setSleep g).ctxOrder = s.ctxOrder := rfl
@[simp] theorem setSleep_bindings (s : State) (g : SleepSt → SleepSt) : (s.setSleep g).bindings = s.bindings := rfl
@[simp] theorem setSleep_bindSerial (s : State) (g : SleepSt → SleepSt) : (s.setSleep g).bindSerial = s.bindSerial := rfl
@[simp] theorem setSleep_tenants (s : State) (g : SleepSt → SleepSt) : (s.setSleep g).tenants = s.tenants := rfl
@[simp] theorem setSleep_timers (s : State) (g : SleepSt → SleepSt) : (s.setSleep g).timers = s.timers := rfl
@[simp] theorem setSleep_raised (s : State) (g : SleepSt → SleepSt) : (s.setSleep g).raised = s.raised := rfl
@[simp] theorem setSleep_bankUse (s : State) (g : SleepSt → SleepSt) : (s.setSleep g).bankUse = s.bankUse := rfl
@[simp] theorem setSleep_later (s : State) (g : SleepSt → SleepSt) : (s.setSleep g).later = s.later := rfl
@[simp] theorem setSleep_early (s : State) (g : SleepSt → SleepSt) : (s.setSleep g).early = s.early := rfl
@[simp] theorem setSleep_loader (s : State) (g : SleepSt → SleepSt) : (s.setSleep g).loader = s.loader := rfl
@[simp] theorem setSleep_host (s : State) (g : SleepSt → SleepSt) : (s.setSleep g).host = s.host := rfl
@[simp] theorem setSleep_mem (s : State) (g : SleepSt → SleepSt) : (s.setSleep g).mem = s.mem := rfl
@[simp] theorem setSleep_unseen (s : State) (g : SleepSt → SleepSt) : (s.setSleep g).unseen = s.unseen := rfl
@[simp] theorem setSleep_shown (s : State) (g : SleepSt → SleepSt) : (s.setSleep g).shown = s.shown := rfl
@[simp] theorem setSleep_ecc (s : State) (g : SleepSt → SleepSt) : (s.setSleep g).ecc = s.ecc := rfl
@[simp] theorem setSleep_eccCnt (s : State) (g : SleepSt → SleepSt) : (s.setSleep g).eccCnt = s.eccCnt := rfl
@[simp] theorem setSleep_icache (s : State) (g : SleepSt → SleepSt) : (s.setSleep g).icache = s.icache := rfl
@[simp] theorem setSleep_time (s : State) (g : SleepSt → SleepSt) : (s.setSleep g).time = s.time := rfl
@[simp] theorem setSleep_boot (s : State) (g : SleepSt → SleepSt) : (s.setSleep g).boot = s.boot := rfl
@[simp] theorem setSleep_level (s : State) (g : SleepSt → SleepSt) : (s.setSleep g).level = s.level := rfl
@[simp] theorem setSleep_therm (s : State) (g : SleepSt → SleepSt) : (s.setSleep g).therm = s.therm := rfl
@[simp] theorem setSleep_sensors (s : State) (g : SleepSt → SleepSt) : (s.setSleep g).sensors = s.sensors := rfl
@[simp] theorem setSleep_align (s : State) (g : SleepSt → SleepSt) : (s.setSleep g).align = s.align := rfl
@[simp] theorem setSleep_plausRun (s : State) (g : SleepSt → SleepSt) : (s.setSleep g).plausRun = s.plausRun := rfl
@[simp] theorem setSleep_aouts (s : State) (g : SleepSt → SleepSt) : (s.setSleep g).aouts = s.aouts := rfl
@[simp] theorem setSleep_vaout (s : State) (g : SleepSt → SleepSt) : (s.setSleep g).vaout = s.vaout := rfl
@[simp] theorem setSleep_evtBalls (s : State) (g : SleepSt → SleepSt) : (s.setSleep g).evtBalls = s.evtBalls := rfl
@[simp] theorem setSleep_vaon (s : State) (g : SleepSt → SleepSt) : (s.setSleep g).vaon = s.vaon := rfl
@[simp] theorem setSleep_lanes (s : State) (g : SleepSt → SleepSt) : (s.setSleep g).lanes = s.lanes := rfl
@[simp] theorem setSleep_recogs (s : State) (g : SleepSt → SleepSt) : (s.setSleep g).recogs = s.recogs := rfl
@[simp] theorem setSleep_rings (s : State) (g : SleepSt → SleepSt) : (s.setSleep g).rings = s.rings := rfl
@[simp] theorem setSleep_comb (s : State) (g : SleepSt → SleepSt) : (s.setSleep g).comb = s.comb := rfl
@[simp] theorem setSleep_queues (s : State) (g : SleepSt → SleepSt) : (s.setSleep g).queues = s.queues := rfl
@[simp] theorem setSleep_ports (s : State) (g : SleepSt → SleepSt) : (s.setSleep g).ports = s.ports := rfl
@[simp] theorem setSleep_engines (s : State) (g : SleepSt → SleepSt) : (s.setSleep g).engines = s.engines := rfl
@[simp] theorem setSleep_lines (s : State) (g : SleepSt → SleepSt) : (s.setSleep g).lines = s.lines := rfl
@[simp] theorem setSleep_journal (s : State) (g : SleepSt → SleepSt) : (s.setSleep g).journal = s.journal := rfl
@[simp] theorem setSleep_hive (s : State) (g : SleepSt → SleepSt) : (s.setSleep g).hive = s.hive := rfl
@[simp] theorem setSleep_vioH (s : State) (g : SleepSt → SleepSt) : (s.setSleep g).vioH = s.vioH := rfl
@[simp] theorem setSleep_vioL (s : State) (g : SleepSt → SleepSt) : (s.setSleep g).vioL = s.vioL := rfl
@[simp] theorem setSleep_tap (s : State) (g : SleepSt → SleepSt) : (s.setSleep g).tap = s.tap := rfl
@[simp] theorem setSleep_free (s : State) (g : SleepSt → SleepSt) : (s.setSleep g).free = s.free := rfl
@[simp] theorem setSleep_pending (s : State) (g : SleepSt → SleepSt) : (s.setSleep g).pending = s.pending := rfl
@[simp] theorem setSleep_core' (s : State) (g : SleepSt → SleepSt) (d : CoreId) : (s.setSleep g).core d = s.core d := rfl
@[simp] theorem setSleep_tenant' (s : State) (g : SleepSt → SleepSt) (u : Tid) : (s.setSleep g).tenant u = s.tenant u := rfl
@[simp] theorem setSleep_sensor' (s : State) (g : SleepSt → SleepSt) (y : SensorId) : (s.setSleep g).sensor y = s.sensor y := rfl
@[simp] theorem setSleep_queue' (s : State) (g : SleepSt → SleepSt) (y : QueueId) : (s.setSleep g).queue y = s.queue y := rfl
@[simp] theorem setSleep_port' (s : State) (g : SleepSt → SleepSt) (y : PortId) : (s.setSleep g).port y = s.port y := rfl
@[simp] theorem setSleep_isReady' (s : State) (g : SleepSt → SleepSt) (y : Func) : (s.setSleep g).isReady y = s.isReady y := rfl
@[simp] theorem setSleep_hasFailed' (s : State) (g : SleepSt → SleepSt) (y : Func) : (s.setSleep g).hasFailed y = s.hasFailed y := rfl
@[simp] theorem setSleep_running' (s : State) (g : SleepSt → SleepSt) : (s.setSleep g).running = s.running := rfl

/-! ## setDom -/


@[simp] theorem setDom_cores (s : State) (z : Domain) (on : Bool) : (s.setDom z on).cores = s.cores := rfl
@[simp] theorem setDom_ctx (s : State) (z : Domain) (on : Bool) : (s.setDom z on).ctx = s.ctx := rfl
@[simp] theorem setDom_ctxOrder (s : State) (z : Domain) (on : Bool) : (s.setDom z on).ctxOrder = s.ctxOrder := rfl
@[simp] theorem setDom_bindings (s : State) (z : Domain) (on : Bool) : (s.setDom z on).bindings = s.bindings := rfl
@[simp] theorem setDom_bindSerial (s : State) (z : Domain) (on : Bool) : (s.setDom z on).bindSerial = s.bindSerial := rfl
@[simp] theorem setDom_tenants (s : State) (z : Domain) (on : Bool) : (s.setDom z on).tenants = s.tenants := rfl
@[simp] theorem setDom_timers (s : State) (z : Domain) (on : Bool) : (s.setDom z on).timers = s.timers := rfl
@[simp] theorem setDom_raised (s : State) (z : Domain) (on : Bool) : (s.setDom z on).raised = s.raised := rfl
@[simp] theorem setDom_bankUse (s : State) (z : Domain) (on : Bool) : (s.setDom z on).bankUse = s.bankUse := rfl
@[simp] theorem setDom_later (s : State) (z : Domain) (on : Bool) : (s.setDom z on).later = s.later := rfl
@[simp] theorem setDom_early (s : State) (z : Domain) (on : Bool) : (s.setDom z on).early = s.early := rfl
@[simp] theorem setDom_loader (s : State) (z : Domain) (on : Bool) : (s.setDom z on).loader = s.loader := rfl
@[simp] theorem setDom_host (s : State) (z : Domain) (on : Bool) : (s.setDom z on).host = s.host := rfl
@[simp] theorem setDom_mem (s : State) (z : Domain) (on : Bool) : (s.setDom z on).mem = s.mem := rfl
@[simp] theorem setDom_unseen (s : State) (z : Domain) (on : Bool) : (s.setDom z on).unseen = s.unseen := rfl
@[simp] theorem setDom_shown (s : State) (z : Domain) (on : Bool) : (s.setDom z on).shown = s.shown := rfl
@[simp] theorem setDom_ecc (s : State) (z : Domain) (on : Bool) : (s.setDom z on).ecc = s.ecc := rfl
@[simp] theorem setDom_eccCnt (s : State) (z : Domain) (on : Bool) : (s.setDom z on).eccCnt = s.eccCnt := rfl
@[simp] theorem setDom_icache (s : State) (z : Domain) (on : Bool) : (s.setDom z on).icache = s.icache := rfl
@[simp] theorem setDom_time (s : State) (z : Domain) (on : Bool) : (s.setDom z on).time = s.time := rfl
@[simp] theorem setDom_boot (s : State) (z : Domain) (on : Bool) : (s.setDom z on).boot = s.boot := rfl
@[simp] theorem setDom_level (s : State) (z : Domain) (on : Bool) : (s.setDom z on).level = s.level := rfl
@[simp] theorem setDom_therm (s : State) (z : Domain) (on : Bool) : (s.setDom z on).therm = s.therm := rfl
@[simp] theorem setDom_sensors (s : State) (z : Domain) (on : Bool) : (s.setDom z on).sensors = s.sensors := rfl
@[simp] theorem setDom_align (s : State) (z : Domain) (on : Bool) : (s.setDom z on).align = s.align := rfl
@[simp] theorem setDom_plausRun (s : State) (z : Domain) (on : Bool) : (s.setDom z on).plausRun = s.plausRun := rfl
@[simp] theorem setDom_aouts (s : State) (z : Domain) (on : Bool) : (s.setDom z on).aouts = s.aouts := rfl
@[simp] theorem setDom_vaout (s : State) (z : Domain) (on : Bool) : (s.setDom z on).vaout = s.vaout := rfl
@[simp] theorem setDom_evtBalls (s : State) (z : Domain) (on : Bool) : (s.setDom z on).evtBalls = s.evtBalls := rfl
@[simp] theorem setDom_vaon (s : State) (z : Domain) (on : Bool) : (s.setDom z on).vaon = s.vaon := rfl
@[simp] theorem setDom_lanes (s : State) (z : Domain) (on : Bool) : (s.setDom z on).lanes = s.lanes := rfl
@[simp] theorem setDom_recogs (s : State) (z : Domain) (on : Bool) : (s.setDom z on).recogs = s.recogs := rfl
@[simp] theorem setDom_rings (s : State) (z : Domain) (on : Bool) : (s.setDom z on).rings = s.rings := rfl
@[simp] theorem setDom_comb (s : State) (z : Domain) (on : Bool) : (s.setDom z on).comb = s.comb := rfl
@[simp] theorem setDom_queues (s : State) (z : Domain) (on : Bool) : (s.setDom z on).queues = s.queues := rfl
@[simp] theorem setDom_ports (s : State) (z : Domain) (on : Bool) : (s.setDom z on).ports = s.ports := rfl
@[simp] theorem setDom_engines (s : State) (z : Domain) (on : Bool) : (s.setDom z on).engines = s.engines := rfl
@[simp] theorem setDom_lines (s : State) (z : Domain) (on : Bool) : (s.setDom z on).lines = s.lines := rfl
@[simp] theorem setDom_journal (s : State) (z : Domain) (on : Bool) : (s.setDom z on).journal = s.journal := rfl
@[simp] theorem setDom_hive (s : State) (z : Domain) (on : Bool) : (s.setDom z on).hive = s.hive := rfl
@[simp] theorem setDom_vioH (s : State) (z : Domain) (on : Bool) : (s.setDom z on).vioH = s.vioH := rfl
@[simp] theorem setDom_vioL (s : State) (z : Domain) (on : Bool) : (s.setDom z on).vioL = s.vioL := rfl
@[simp] theorem setDom_tap (s : State) (z : Domain) (on : Bool) : (s.setDom z on).tap = s.tap := rfl
@[simp] theorem setDom_free (s : State) (z : Domain) (on : Bool) : (s.setDom z on).free = s.free := rfl
@[simp] theorem setDom_pending (s : State) (z : Domain) (on : Bool) : (s.setDom z on).pending = s.pending := rfl
@[simp] theorem setDom_core' (s : State) (z : Domain) (on : Bool) (d : CoreId) : (s.setDom z on).core d = s.core d := rfl
@[simp] theorem setDom_tenant' (s : State) (z : Domain) (on : Bool) (u : Tid) : (s.setDom z on).tenant u = s.tenant u := rfl
@[simp] theorem setDom_sensor' (s : State) (z : Domain) (on : Bool) (y : SensorId) : (s.setDom z on).sensor y = s.sensor y := rfl
@[simp] theorem setDom_queue' (s : State) (z : Domain) (on : Bool) (y : QueueId) : (s.setDom z on).queue y = s.queue y := rfl
@[simp] theorem setDom_port' (s : State) (z : Domain) (on : Bool) (y : PortId) : (s.setDom z on).port y = s.port y := rfl
@[simp] theorem setDom_isReady' (s : State) (z : Domain) (on : Bool) (y : Func) : (s.setDom z on).isReady y = s.isReady y := rfl
@[simp] theorem setDom_hasFailed' (s : State) (z : Domain) (on : Bool) (y : Func) : (s.setDom z on).hasFailed y = s.hasFailed y := rfl
@[simp] theorem setDom_running' (s : State) (z : Domain) (on : Bool) : (s.setDom z on).running = s.running := rfl

/-! ## setTimer -/


@[simp] theorem setTimer_cores (s : State) (n : Fin 8) (x : Timer) : (setTimer n x s).cores = s.cores := rfl
@[simp] theorem setTimer_ctx (s : State) (n : Fin 8) (x : Timer) : (setTimer n x s).ctx = s.ctx := rfl
@[simp] theorem setTimer_ctxOrder (s : State) (n : Fin 8) (x : Timer) : (setTimer n x s).ctxOrder = s.ctxOrder := rfl
@[simp] theorem setTimer_bindings (s : State) (n : Fin 8) (x : Timer) : (setTimer n x s).bindings = s.bindings := rfl
@[simp] theorem setTimer_bindSerial (s : State) (n : Fin 8) (x : Timer) : (setTimer n x s).bindSerial = s.bindSerial := rfl
@[simp] theorem setTimer_tenants (s : State) (n : Fin 8) (x : Timer) : (setTimer n x s).tenants = s.tenants := rfl
@[simp] theorem setTimer_raised (s : State) (n : Fin 8) (x : Timer) : (setTimer n x s).raised = s.raised := rfl
@[simp] theorem setTimer_bankUse (s : State) (n : Fin 8) (x : Timer) : (setTimer n x s).bankUse = s.bankUse := rfl
@[simp] theorem setTimer_later (s : State) (n : Fin 8) (x : Timer) : (setTimer n x s).later = s.later := rfl
@[simp] theorem setTimer_early (s : State) (n : Fin 8) (x : Timer) : (setTimer n x s).early = s.early := rfl
@[simp] theorem setTimer_loader (s : State) (n : Fin 8) (x : Timer) : (setTimer n x s).loader = s.loader := rfl
@[simp] theorem setTimer_host (s : State) (n : Fin 8) (x : Timer) : (setTimer n x s).host = s.host := rfl
@[simp] theorem setTimer_mem (s : State) (n : Fin 8) (x : Timer) : (setTimer n x s).mem = s.mem := rfl
@[simp] theorem setTimer_unseen (s : State) (n : Fin 8) (x : Timer) : (setTimer n x s).unseen = s.unseen := rfl
@[simp] theorem setTimer_shown (s : State) (n : Fin 8) (x : Timer) : (setTimer n x s).shown = s.shown := rfl
@[simp] theorem setTimer_ecc (s : State) (n : Fin 8) (x : Timer) : (setTimer n x s).ecc = s.ecc := rfl
@[simp] theorem setTimer_eccCnt (s : State) (n : Fin 8) (x : Timer) : (setTimer n x s).eccCnt = s.eccCnt := rfl
@[simp] theorem setTimer_icache (s : State) (n : Fin 8) (x : Timer) : (setTimer n x s).icache = s.icache := rfl
@[simp] theorem setTimer_time (s : State) (n : Fin 8) (x : Timer) : (setTimer n x s).time = s.time := rfl
@[simp] theorem setTimer_boot (s : State) (n : Fin 8) (x : Timer) : (setTimer n x s).boot = s.boot := rfl
@[simp] theorem setTimer_level (s : State) (n : Fin 8) (x : Timer) : (setTimer n x s).level = s.level := rfl
@[simp] theorem setTimer_sleep (s : State) (n : Fin 8) (x : Timer) : (setTimer n x s).sleep = s.sleep := rfl
@[simp] theorem setTimer_therm (s : State) (n : Fin 8) (x : Timer) : (setTimer n x s).therm = s.therm := rfl
@[simp] theorem setTimer_sensors (s : State) (n : Fin 8) (x : Timer) : (setTimer n x s).sensors = s.sensors := rfl
@[simp] theorem setTimer_align (s : State) (n : Fin 8) (x : Timer) : (setTimer n x s).align = s.align := rfl
@[simp] theorem setTimer_plausRun (s : State) (n : Fin 8) (x : Timer) : (setTimer n x s).plausRun = s.plausRun := rfl
@[simp] theorem setTimer_aouts (s : State) (n : Fin 8) (x : Timer) : (setTimer n x s).aouts = s.aouts := rfl
@[simp] theorem setTimer_vaout (s : State) (n : Fin 8) (x : Timer) : (setTimer n x s).vaout = s.vaout := rfl
@[simp] theorem setTimer_evtBalls (s : State) (n : Fin 8) (x : Timer) : (setTimer n x s).evtBalls = s.evtBalls := rfl
@[simp] theorem setTimer_vaon (s : State) (n : Fin 8) (x : Timer) : (setTimer n x s).vaon = s.vaon := rfl
@[simp] theorem setTimer_lanes (s : State) (n : Fin 8) (x : Timer) : (setTimer n x s).lanes = s.lanes := rfl
@[simp] theorem setTimer_recogs (s : State) (n : Fin 8) (x : Timer) : (setTimer n x s).recogs = s.recogs := rfl
@[simp] theorem setTimer_rings (s : State) (n : Fin 8) (x : Timer) : (setTimer n x s).rings = s.rings := rfl
@[simp] theorem setTimer_comb (s : State) (n : Fin 8) (x : Timer) : (setTimer n x s).comb = s.comb := rfl
@[simp] theorem setTimer_queues (s : State) (n : Fin 8) (x : Timer) : (setTimer n x s).queues = s.queues := rfl
@[simp] theorem setTimer_ports (s : State) (n : Fin 8) (x : Timer) : (setTimer n x s).ports = s.ports := rfl
@[simp] theorem setTimer_engines (s : State) (n : Fin 8) (x : Timer) : (setTimer n x s).engines = s.engines := rfl
@[simp] theorem setTimer_lines (s : State) (n : Fin 8) (x : Timer) : (setTimer n x s).lines = s.lines := rfl
@[simp] theorem setTimer_journal (s : State) (n : Fin 8) (x : Timer) : (setTimer n x s).journal = s.journal := rfl
@[simp] theorem setTimer_hive (s : State) (n : Fin 8) (x : Timer) : (setTimer n x s).hive = s.hive := rfl
@[simp] theorem setTimer_vioH (s : State) (n : Fin 8) (x : Timer) : (setTimer n x s).vioH = s.vioH := rfl
@[simp] theorem setTimer_vioL (s : State) (n : Fin 8) (x : Timer) : (setTimer n x s).vioL = s.vioL := rfl
@[simp] theorem setTimer_tap (s : State) (n : Fin 8) (x : Timer) : (setTimer n x s).tap = s.tap := rfl
@[simp] theorem setTimer_free (s : State) (n : Fin 8) (x : Timer) : (setTimer n x s).free = s.free := rfl
@[simp] theorem setTimer_pending (s : State) (n : Fin 8) (x : Timer) : (setTimer n x s).pending = s.pending := rfl
@[simp] theorem setTimer_core' (s : State) (n : Fin 8) (x : Timer) (d : CoreId) : (setTimer n x s).core d = s.core d := rfl
@[simp] theorem setTimer_tenant' (s : State) (n : Fin 8) (x : Timer) (u : Tid) : (setTimer n x s).tenant u = s.tenant u := rfl
@[simp] theorem setTimer_sensor' (s : State) (n : Fin 8) (x : Timer) (y : SensorId) : (setTimer n x s).sensor y = s.sensor y := rfl
@[simp] theorem setTimer_queue' (s : State) (n : Fin 8) (x : Timer) (y : QueueId) : (setTimer n x s).queue y = s.queue y := rfl
@[simp] theorem setTimer_port' (s : State) (n : Fin 8) (x : Timer) (y : PortId) : (setTimer n x s).port y = s.port y := rfl
@[simp] theorem setTimer_isReady' (s : State) (n : Fin 8) (x : Timer) (y : Func) : (setTimer n x s).isReady y = s.isReady y := rfl
@[simp] theorem setTimer_hasFailed' (s : State) (n : Fin 8) (x : Timer) (y : Func) : (setTimer n x s).hasFailed y = s.hasFailed y := rfl
@[simp] theorem setTimer_running' (s : State) (n : Fin 8) (x : Timer) : (setTimer n x s).running = s.running := rfl

/-! ## nextFree -/


@[simp] theorem nextFree_cores (s : State) : (s.nextFree).cores = s.cores := rfl
@[simp] theorem nextFree_ctx (s : State) : (s.nextFree).ctx = s.ctx := rfl
@[simp] theorem nextFree_ctxOrder (s : State) : (s.nextFree).ctxOrder = s.ctxOrder := rfl
@[simp] theorem nextFree_bindings (s : State) : (s.nextFree).bindings = s.bindings := rfl
@[simp] theorem nextFree_bindSerial (s : State) : (s.nextFree).bindSerial = s.bindSerial := rfl
@[simp] theorem nextFree_tenants (s : State) : (s.nextFree).tenants = s.tenants := rfl
@[simp] theorem nextFree_timers (s : State) : (s.nextFree).timers = s.timers := rfl
@[simp] theorem nextFree_raised (s : State) : (s.nextFree).raised = s.raised := rfl
@[simp] theorem nextFree_bankUse (s : State) : (s.nextFree).bankUse = s.bankUse := rfl
@[simp] theorem nextFree_later (s : State) : (s.nextFree).later = s.later := rfl
@[simp] theorem nextFree_early (s : State) : (s.nextFree).early = s.early := rfl
@[simp] theorem nextFree_loader (s : State) : (s.nextFree).loader = s.loader := rfl
@[simp] theorem nextFree_host (s : State) : (s.nextFree).host = s.host := rfl
@[simp] theorem nextFree_mem (s : State) : (s.nextFree).mem = s.mem := rfl
@[simp] theorem nextFree_unseen (s : State) : (s.nextFree).unseen = s.unseen := rfl
@[simp] theorem nextFree_shown (s : State) : (s.nextFree).shown = s.shown := rfl
@[simp] theorem nextFree_ecc (s : State) : (s.nextFree).ecc = s.ecc := rfl
@[simp] theorem nextFree_eccCnt (s : State) : (s.nextFree).eccCnt = s.eccCnt := rfl
@[simp] theorem nextFree_icache (s : State) : (s.nextFree).icache = s.icache := rfl
@[simp] theorem nextFree_time (s : State) : (s.nextFree).time = s.time := rfl
@[simp] theorem nextFree_boot (s : State) : (s.nextFree).boot = s.boot := rfl
@[simp] theorem nextFree_level (s : State) : (s.nextFree).level = s.level := rfl
@[simp] theorem nextFree_sleep (s : State) : (s.nextFree).sleep = s.sleep := rfl
@[simp] theorem nextFree_therm (s : State) : (s.nextFree).therm = s.therm := rfl
@[simp] theorem nextFree_sensors (s : State) : (s.nextFree).sensors = s.sensors := rfl
@[simp] theorem nextFree_align (s : State) : (s.nextFree).align = s.align := rfl
@[simp] theorem nextFree_plausRun (s : State) : (s.nextFree).plausRun = s.plausRun := rfl
@[simp] theorem nextFree_aouts (s : State) : (s.nextFree).aouts = s.aouts := rfl
@[simp] theorem nextFree_vaout (s : State) : (s.nextFree).vaout = s.vaout := rfl
@[simp] theorem nextFree_evtBalls (s : State) : (s.nextFree).evtBalls = s.evtBalls := rfl
@[simp] theorem nextFree_vaon (s : State) : (s.nextFree).vaon = s.vaon := rfl
@[simp] theorem nextFree_lanes (s : State) : (s.nextFree).lanes = s.lanes := rfl
@[simp] theorem nextFree_recogs (s : State) : (s.nextFree).recogs = s.recogs := rfl
@[simp] theorem nextFree_rings (s : State) : (s.nextFree).rings = s.rings := rfl
@[simp] theorem nextFree_comb (s : State) : (s.nextFree).comb = s.comb := rfl
@[simp] theorem nextFree_queues (s : State) : (s.nextFree).queues = s.queues := rfl
@[simp] theorem nextFree_ports (s : State) : (s.nextFree).ports = s.ports := rfl
@[simp] theorem nextFree_engines (s : State) : (s.nextFree).engines = s.engines := rfl
@[simp] theorem nextFree_lines (s : State) : (s.nextFree).lines = s.lines := rfl
@[simp] theorem nextFree_journal (s : State) : (s.nextFree).journal = s.journal := rfl
@[simp] theorem nextFree_hive (s : State) : (s.nextFree).hive = s.hive := rfl
@[simp] theorem nextFree_vioH (s : State) : (s.nextFree).vioH = s.vioH := rfl
@[simp] theorem nextFree_vioL (s : State) : (s.nextFree).vioL = s.vioL := rfl
@[simp] theorem nextFree_tap (s : State) : (s.nextFree).tap = s.tap := rfl
@[simp] theorem nextFree_pending (s : State) : (s.nextFree).pending = s.pending := rfl
@[simp] theorem nextFree_core' (s : State) (d : CoreId) : (s.nextFree).core d = s.core d := rfl
@[simp] theorem nextFree_tenant' (s : State) (u : Tid) : (s.nextFree).tenant u = s.tenant u := rfl
@[simp] theorem nextFree_sensor' (s : State) (y : SensorId) : (s.nextFree).sensor y = s.sensor y := rfl
@[simp] theorem nextFree_queue' (s : State) (y : QueueId) : (s.nextFree).queue y = s.queue y := rfl
@[simp] theorem nextFree_port' (s : State) (y : PortId) : (s.nextFree).port y = s.port y := rfl
@[simp] theorem nextFree_isReady' (s : State) (y : Func) : (s.nextFree).isReady y = s.isReady y := rfl
@[simp] theorem nextFree_hasFailed' (s : State) (y : Func) : (s.nextFree).hasFailed y = s.hasFailed y := rfl
@[simp] theorem nextFree_running' (s : State) : (s.nextFree).running = s.running := rfl

/-! ## event -/


@[simp] theorem event_cores (s : State) (src : Nat) (arg : Word) (time : Nat) (raised : Bool) : (s.event src arg time raised).cores = s.cores := rfl
@[simp] theorem event_ctx (s : State) (src : Nat) (arg : Word) (time : Nat) (raised : Bool) : (s.event src arg time raised).ctx = s.ctx := rfl
@[simp] theorem event_ctxOrder (s : State) (src : Nat) (arg : Word) (time : Nat) (raised : Bool) : (s.event src arg time raised).ctxOrder = s.ctxOrder := rfl
@[simp] theorem event_bindings (s : State) (src : Nat) (arg : Word) (time : Nat) (raised : Bool) : (s.event src arg time raised).bindings = s.bindings := rfl
@[simp] theorem event_bindSerial (s : State) (src : Nat) (arg : Word) (time : Nat) (raised : Bool) : (s.event src arg time raised).bindSerial = s.bindSerial := rfl
@[simp] theorem event_tenants (s : State) (src : Nat) (arg : Word) (time : Nat) (raised : Bool) : (s.event src arg time raised).tenants = s.tenants := rfl
@[simp] theorem event_timers (s : State) (src : Nat) (arg : Word) (time : Nat) (raised : Bool) : (s.event src arg time raised).timers = s.timers := rfl
@[simp] theorem event_bankUse (s : State) (src : Nat) (arg : Word) (time : Nat) (raised : Bool) : (s.event src arg time raised).bankUse = s.bankUse := rfl
@[simp] theorem event_later (s : State) (src : Nat) (arg : Word) (time : Nat) (raised : Bool) : (s.event src arg time raised).later = s.later := rfl
@[simp] theorem event_early (s : State) (src : Nat) (arg : Word) (time : Nat) (raised : Bool) : (s.event src arg time raised).early = s.early := rfl
@[simp] theorem event_loader (s : State) (src : Nat) (arg : Word) (time : Nat) (raised : Bool) : (s.event src arg time raised).loader = s.loader := rfl
@[simp] theorem event_host (s : State) (src : Nat) (arg : Word) (time : Nat) (raised : Bool) : (s.event src arg time raised).host = s.host := rfl
@[simp] theorem event_mem (s : State) (src : Nat) (arg : Word) (time : Nat) (raised : Bool) : (s.event src arg time raised).mem = s.mem := rfl
@[simp] theorem event_unseen (s : State) (src : Nat) (arg : Word) (time : Nat) (raised : Bool) : (s.event src arg time raised).unseen = s.unseen := rfl
@[simp] theorem event_shown (s : State) (src : Nat) (arg : Word) (time : Nat) (raised : Bool) : (s.event src arg time raised).shown = s.shown := rfl
@[simp] theorem event_ecc (s : State) (src : Nat) (arg : Word) (time : Nat) (raised : Bool) : (s.event src arg time raised).ecc = s.ecc := rfl
@[simp] theorem event_eccCnt (s : State) (src : Nat) (arg : Word) (time : Nat) (raised : Bool) : (s.event src arg time raised).eccCnt = s.eccCnt := rfl
@[simp] theorem event_icache (s : State) (src : Nat) (arg : Word) (time : Nat) (raised : Bool) : (s.event src arg time raised).icache = s.icache := rfl
@[simp] theorem event_time (s : State) (src : Nat) (arg : Word) (time : Nat) (raised : Bool) : (s.event src arg time raised).time = s.time := rfl
@[simp] theorem event_boot (s : State) (src : Nat) (arg : Word) (time : Nat) (raised : Bool) : (s.event src arg time raised).boot = s.boot := rfl
@[simp] theorem event_level (s : State) (src : Nat) (arg : Word) (time : Nat) (raised : Bool) : (s.event src arg time raised).level = s.level := rfl
@[simp] theorem event_sleep (s : State) (src : Nat) (arg : Word) (time : Nat) (raised : Bool) : (s.event src arg time raised).sleep = s.sleep := rfl
@[simp] theorem event_therm (s : State) (src : Nat) (arg : Word) (time : Nat) (raised : Bool) : (s.event src arg time raised).therm = s.therm := rfl
@[simp] theorem event_sensors (s : State) (src : Nat) (arg : Word) (time : Nat) (raised : Bool) : (s.event src arg time raised).sensors = s.sensors := rfl
@[simp] theorem event_align (s : State) (src : Nat) (arg : Word) (time : Nat) (raised : Bool) : (s.event src arg time raised).align = s.align := rfl
@[simp] theorem event_plausRun (s : State) (src : Nat) (arg : Word) (time : Nat) (raised : Bool) : (s.event src arg time raised).plausRun = s.plausRun := rfl
@[simp] theorem event_aouts (s : State) (src : Nat) (arg : Word) (time : Nat) (raised : Bool) : (s.event src arg time raised).aouts = s.aouts := rfl
@[simp] theorem event_vaout (s : State) (src : Nat) (arg : Word) (time : Nat) (raised : Bool) : (s.event src arg time raised).vaout = s.vaout := rfl
@[simp] theorem event_evtBalls (s : State) (src : Nat) (arg : Word) (time : Nat) (raised : Bool) : (s.event src arg time raised).evtBalls = s.evtBalls := rfl
@[simp] theorem event_vaon (s : State) (src : Nat) (arg : Word) (time : Nat) (raised : Bool) : (s.event src arg time raised).vaon = s.vaon := rfl
@[simp] theorem event_lanes (s : State) (src : Nat) (arg : Word) (time : Nat) (raised : Bool) : (s.event src arg time raised).lanes = s.lanes := rfl
@[simp] theorem event_recogs (s : State) (src : Nat) (arg : Word) (time : Nat) (raised : Bool) : (s.event src arg time raised).recogs = s.recogs := rfl
@[simp] theorem event_rings (s : State) (src : Nat) (arg : Word) (time : Nat) (raised : Bool) : (s.event src arg time raised).rings = s.rings := rfl
@[simp] theorem event_comb (s : State) (src : Nat) (arg : Word) (time : Nat) (raised : Bool) : (s.event src arg time raised).comb = s.comb := rfl
@[simp] theorem event_queues (s : State) (src : Nat) (arg : Word) (time : Nat) (raised : Bool) : (s.event src arg time raised).queues = s.queues := rfl
@[simp] theorem event_ports (s : State) (src : Nat) (arg : Word) (time : Nat) (raised : Bool) : (s.event src arg time raised).ports = s.ports := rfl
@[simp] theorem event_engines (s : State) (src : Nat) (arg : Word) (time : Nat) (raised : Bool) : (s.event src arg time raised).engines = s.engines := rfl
@[simp] theorem event_lines (s : State) (src : Nat) (arg : Word) (time : Nat) (raised : Bool) : (s.event src arg time raised).lines = s.lines := rfl
@[simp] theorem event_journal (s : State) (src : Nat) (arg : Word) (time : Nat) (raised : Bool) : (s.event src arg time raised).journal = s.journal := rfl
@[simp] theorem event_hive (s : State) (src : Nat) (arg : Word) (time : Nat) (raised : Bool) : (s.event src arg time raised).hive = s.hive := rfl
@[simp] theorem event_vioH (s : State) (src : Nat) (arg : Word) (time : Nat) (raised : Bool) : (s.event src arg time raised).vioH = s.vioH := rfl
@[simp] theorem event_vioL (s : State) (src : Nat) (arg : Word) (time : Nat) (raised : Bool) : (s.event src arg time raised).vioL = s.vioL := rfl
@[simp] theorem event_tap (s : State) (src : Nat) (arg : Word) (time : Nat) (raised : Bool) : (s.event src arg time raised).tap = s.tap := rfl
@[simp] theorem event_free (s : State) (src : Nat) (arg : Word) (time : Nat) (raised : Bool) : (s.event src arg time raised).free = s.free := rfl
@[simp] theorem event_pending (s : State) (src : Nat) (arg : Word) (time : Nat) (raised : Bool) : (s.event src arg time raised).pending = s.pending := rfl
@[simp] theorem event_core' (s : State) (src : Nat) (arg : Word) (time : Nat) (raised : Bool) (d : CoreId) : (s.event src arg time raised).core d = s.core d := rfl
@[simp] theorem event_tenant' (s : State) (src : Nat) (arg : Word) (time : Nat) (raised : Bool) (u : Tid) : (s.event src arg time raised).tenant u = s.tenant u := rfl
@[simp] theorem event_sensor' (s : State) (src : Nat) (arg : Word) (time : Nat) (raised : Bool) (y : SensorId) : (s.event src arg time raised).sensor y = s.sensor y := rfl
@[simp] theorem event_queue' (s : State) (src : Nat) (arg : Word) (time : Nat) (raised : Bool) (y : QueueId) : (s.event src arg time raised).queue y = s.queue y := rfl
@[simp] theorem event_port' (s : State) (src : Nat) (arg : Word) (time : Nat) (raised : Bool) (y : PortId) : (s.event src arg time raised).port y = s.port y := rfl
@[simp] theorem event_isReady' (s : State) (src : Nat) (arg : Word) (time : Nat) (raised : Bool) (y : Func) : (s.event src arg time raised).isReady y = s.isReady y := rfl
@[simp] theorem event_hasFailed' (s : State) (src : Nat) (arg : Word) (time : Nat) (raised : Bool) (y : Func) : (s.event src arg time raised).hasFailed y = s.hasFailed y := rfl
@[simp] theorem event_running' (s : State) (src : Nat) (arg : Word) (time : Nat) (raised : Bool) : (s.event src arg time raised).running = s.running := rfl

/-! ## eventNext -/


@[simp] theorem eventNext_cores (s : State) (src : Nat) (arg : Word) : (s.eventNext src arg).cores = s.cores := rfl
@[simp] theorem eventNext_ctx (s : State) (src : Nat) (arg : Word) : (s.eventNext src arg).ctx = s.ctx := rfl
@[simp] theorem eventNext_ctxOrder (s : State) (src : Nat) (arg : Word) : (s.eventNext src arg).ctxOrder = s.ctxOrder := rfl
@[simp] theorem eventNext_bindings (s : State) (src : Nat) (arg : Word) : (s.eventNext src arg).bindings = s.bindings := rfl
@[simp] theorem eventNext_bindSerial (s : State) (src : Nat) (arg : Word) : (s.eventNext src arg).bindSerial = s.bindSerial := rfl
@[simp] theorem eventNext_tenants (s : State) (src : Nat) (arg : Word) : (s.eventNext src arg).tenants = s.tenants := rfl
@[simp] theorem eventNext_timers (s : State) (src : Nat) (arg : Word) : (s.eventNext src arg).timers = s.timers := rfl
@[simp] theorem eventNext_raised (s : State) (src : Nat) (arg : Word) : (s.eventNext src arg).raised = s.raised := rfl
@[simp] theorem eventNext_bankUse (s : State) (src : Nat) (arg : Word) : (s.eventNext src arg).bankUse = s.bankUse := rfl
@[simp] theorem eventNext_early (s : State) (src : Nat) (arg : Word) : (s.eventNext src arg).early = s.early := rfl
@[simp] theorem eventNext_loader (s : State) (src : Nat) (arg : Word) : (s.eventNext src arg).loader = s.loader := rfl
@[simp] theorem eventNext_host (s : State) (src : Nat) (arg : Word) : (s.eventNext src arg).host = s.host := rfl
@[simp] theorem eventNext_mem (s : State) (src : Nat) (arg : Word) : (s.eventNext src arg).mem = s.mem := rfl
@[simp] theorem eventNext_unseen (s : State) (src : Nat) (arg : Word) : (s.eventNext src arg).unseen = s.unseen := rfl
@[simp] theorem eventNext_shown (s : State) (src : Nat) (arg : Word) : (s.eventNext src arg).shown = s.shown := rfl
@[simp] theorem eventNext_ecc (s : State) (src : Nat) (arg : Word) : (s.eventNext src arg).ecc = s.ecc := rfl
@[simp] theorem eventNext_eccCnt (s : State) (src : Nat) (arg : Word) : (s.eventNext src arg).eccCnt = s.eccCnt := rfl
@[simp] theorem eventNext_icache (s : State) (src : Nat) (arg : Word) : (s.eventNext src arg).icache = s.icache := rfl
@[simp] theorem eventNext_time (s : State) (src : Nat) (arg : Word) : (s.eventNext src arg).time = s.time := rfl
@[simp] theorem eventNext_boot (s : State) (src : Nat) (arg : Word) : (s.eventNext src arg).boot = s.boot := rfl
@[simp] theorem eventNext_level (s : State) (src : Nat) (arg : Word) : (s.eventNext src arg).level = s.level := rfl
@[simp] theorem eventNext_sleep (s : State) (src : Nat) (arg : Word) : (s.eventNext src arg).sleep = s.sleep := rfl
@[simp] theorem eventNext_therm (s : State) (src : Nat) (arg : Word) : (s.eventNext src arg).therm = s.therm := rfl
@[simp] theorem eventNext_sensors (s : State) (src : Nat) (arg : Word) : (s.eventNext src arg).sensors = s.sensors := rfl
@[simp] theorem eventNext_align (s : State) (src : Nat) (arg : Word) : (s.eventNext src arg).align = s.align := rfl
@[simp] theorem eventNext_plausRun (s : State) (src : Nat) (arg : Word) : (s.eventNext src arg).plausRun = s.plausRun := rfl
@[simp] theorem eventNext_aouts (s : State) (src : Nat) (arg : Word) : (s.eventNext src arg).aouts = s.aouts := rfl
@[simp] theorem eventNext_vaout (s : State) (src : Nat) (arg : Word) : (s.eventNext src arg).vaout = s.vaout := rfl
@[simp] theorem eventNext_evtBalls (s : State) (src : Nat) (arg : Word) : (s.eventNext src arg).evtBalls = s.evtBalls := rfl
@[simp] theorem eventNext_vaon (s : State) (src : Nat) (arg : Word) : (s.eventNext src arg).vaon = s.vaon := rfl
@[simp] theorem eventNext_lanes (s : State) (src : Nat) (arg : Word) : (s.eventNext src arg).lanes = s.lanes := rfl
@[simp] theorem eventNext_recogs (s : State) (src : Nat) (arg : Word) : (s.eventNext src arg).recogs = s.recogs := rfl
@[simp] theorem eventNext_rings (s : State) (src : Nat) (arg : Word) : (s.eventNext src arg).rings = s.rings := rfl
@[simp] theorem eventNext_comb (s : State) (src : Nat) (arg : Word) : (s.eventNext src arg).comb = s.comb := rfl
@[simp] theorem eventNext_queues (s : State) (src : Nat) (arg : Word) : (s.eventNext src arg).queues = s.queues := rfl
@[simp] theorem eventNext_ports (s : State) (src : Nat) (arg : Word) : (s.eventNext src arg).ports = s.ports := rfl
@[simp] theorem eventNext_engines (s : State) (src : Nat) (arg : Word) : (s.eventNext src arg).engines = s.engines := rfl
@[simp] theorem eventNext_lines (s : State) (src : Nat) (arg : Word) : (s.eventNext src arg).lines = s.lines := rfl
@[simp] theorem eventNext_journal (s : State) (src : Nat) (arg : Word) : (s.eventNext src arg).journal = s.journal := rfl
@[simp] theorem eventNext_hive (s : State) (src : Nat) (arg : Word) : (s.eventNext src arg).hive = s.hive := rfl
@[simp] theorem eventNext_vioH (s : State) (src : Nat) (arg : Word) : (s.eventNext src arg).vioH = s.vioH := rfl
@[simp] theorem eventNext_vioL (s : State) (src : Nat) (arg : Word) : (s.eventNext src arg).vioL = s.vioL := rfl
@[simp] theorem eventNext_tap (s : State) (src : Nat) (arg : Word) : (s.eventNext src arg).tap = s.tap := rfl
@[simp] theorem eventNext_free (s : State) (src : Nat) (arg : Word) : (s.eventNext src arg).free = s.free := rfl
@[simp] theorem eventNext_pending (s : State) (src : Nat) (arg : Word) : (s.eventNext src arg).pending = s.pending := rfl
@[simp] theorem eventNext_core' (s : State) (src : Nat) (arg : Word) (d : CoreId) : (s.eventNext src arg).core d = s.core d := rfl
@[simp] theorem eventNext_tenant' (s : State) (src : Nat) (arg : Word) (u : Tid) : (s.eventNext src arg).tenant u = s.tenant u := rfl
@[simp] theorem eventNext_sensor' (s : State) (src : Nat) (arg : Word) (y : SensorId) : (s.eventNext src arg).sensor y = s.sensor y := rfl
@[simp] theorem eventNext_queue' (s : State) (src : Nat) (arg : Word) (y : QueueId) : (s.eventNext src arg).queue y = s.queue y := rfl
@[simp] theorem eventNext_port' (s : State) (src : Nat) (arg : Word) (y : PortId) : (s.eventNext src arg).port y = s.port y := rfl
@[simp] theorem eventNext_isReady' (s : State) (src : Nat) (arg : Word) (y : Func) : (s.eventNext src arg).isReady y = s.isReady y := rfl
@[simp] theorem eventNext_hasFailed' (s : State) (src : Nat) (arg : Word) (y : Func) : (s.eventNext src arg).hasFailed y = s.hasFailed y := rfl
@[simp] theorem eventNext_running' (s : State) (src : Nat) (arg : Word) : (s.eventNext src arg).running = s.running := rfl

/-! ## eventLater -/


@[simp] theorem eventLater_cores (s : State) (src : Nat) (arg : Word) (time : Nat) : (s.eventLater src arg time).cores = s.cores := rfl
@[simp] theorem eventLater_ctx (s : State) (src : Nat) (arg : Word) (time : Nat) : (s.eventLater src arg time).ctx = s.ctx := rfl
@[simp] theorem eventLater_ctxOrder (s : State) (src : Nat) (arg : Word) (time : Nat) : (s.eventLater src arg time).ctxOrder = s.ctxOrder := rfl
@[simp] theorem eventLater_bindings (s : State) (src : Nat) (arg : Word) (time : Nat) : (s.eventLater src arg time).bindings = s.bindings := rfl
@[simp] theorem eventLater_bindSerial (s : State) (src : Nat) (arg : Word) (time : Nat) : (s.eventLater src arg time).bindSerial = s.bindSerial := rfl
@[simp] theorem eventLater_tenants (s : State) (src : Nat) (arg : Word) (time : Nat) : (s.eventLater src arg time).tenants = s.tenants := rfl
@[simp] theorem eventLater_timers (s : State) (src : Nat) (arg : Word) (time : Nat) : (s.eventLater src arg time).timers = s.timers := rfl
@[simp] theorem eventLater_raised (s : State) (src : Nat) (arg : Word) (time : Nat) : (s.eventLater src arg time).raised = s.raised := rfl
@[simp] theorem eventLater_bankUse (s : State) (src : Nat) (arg : Word) (time : Nat) : (s.eventLater src arg time).bankUse = s.bankUse := rfl
@[simp] theorem eventLater_early (s : State) (src : Nat) (arg : Word) (time : Nat) : (s.eventLater src arg time).early = s.early := rfl
@[simp] theorem eventLater_loader (s : State) (src : Nat) (arg : Word) (time : Nat) : (s.eventLater src arg time).loader = s.loader := rfl
@[simp] theorem eventLater_host (s : State) (src : Nat) (arg : Word) (time : Nat) : (s.eventLater src arg time).host = s.host := rfl
@[simp] theorem eventLater_mem (s : State) (src : Nat) (arg : Word) (time : Nat) : (s.eventLater src arg time).mem = s.mem := rfl
@[simp] theorem eventLater_unseen (s : State) (src : Nat) (arg : Word) (time : Nat) : (s.eventLater src arg time).unseen = s.unseen := rfl
@[simp] theorem eventLater_shown (s : State) (src : Nat) (arg : Word) (time : Nat) : (s.eventLater src arg time).shown = s.shown := rfl
@[simp] theorem eventLater_ecc (s : State) (src : Nat) (arg : Word) (time : Nat) : (s.eventLater src arg time).ecc = s.ecc := rfl
@[simp] theorem eventLater_eccCnt (s : State) (src : Nat) (arg : Word) (time : Nat) : (s.eventLater src arg time).eccCnt = s.eccCnt := rfl
@[simp] theorem eventLater_icache (s : State) (src : Nat) (arg : Word) (time : Nat) : (s.eventLater src arg time).icache = s.icache := rfl
@[simp] theorem eventLater_time (s : State) (src : Nat) (arg : Word) (time : Nat) : (s.eventLater src arg time).time = s.time := rfl
@[simp] theorem eventLater_boot (s : State) (src : Nat) (arg : Word) (time : Nat) : (s.eventLater src arg time).boot = s.boot := rfl
@[simp] theorem eventLater_level (s : State) (src : Nat) (arg : Word) (time : Nat) : (s.eventLater src arg time).level = s.level := rfl
@[simp] theorem eventLater_sleep (s : State) (src : Nat) (arg : Word) (time : Nat) : (s.eventLater src arg time).sleep = s.sleep := rfl
@[simp] theorem eventLater_therm (s : State) (src : Nat) (arg : Word) (time : Nat) : (s.eventLater src arg time).therm = s.therm := rfl
@[simp] theorem eventLater_sensors (s : State) (src : Nat) (arg : Word) (time : Nat) : (s.eventLater src arg time).sensors = s.sensors := rfl
@[simp] theorem eventLater_align (s : State) (src : Nat) (arg : Word) (time : Nat) : (s.eventLater src arg time).align = s.align := rfl
@[simp] theorem eventLater_plausRun (s : State) (src : Nat) (arg : Word) (time : Nat) : (s.eventLater src arg time).plausRun = s.plausRun := rfl
@[simp] theorem eventLater_aouts (s : State) (src : Nat) (arg : Word) (time : Nat) : (s.eventLater src arg time).aouts = s.aouts := rfl
@[simp] theorem eventLater_vaout (s : State) (src : Nat) (arg : Word) (time : Nat) : (s.eventLater src arg time).vaout = s.vaout := rfl
@[simp] theorem eventLater_evtBalls (s : State) (src : Nat) (arg : Word) (time : Nat) : (s.eventLater src arg time).evtBalls = s.evtBalls := rfl
@[simp] theorem eventLater_vaon (s : State) (src : Nat) (arg : Word) (time : Nat) : (s.eventLater src arg time).vaon = s.vaon := rfl
@[simp] theorem eventLater_lanes (s : State) (src : Nat) (arg : Word) (time : Nat) : (s.eventLater src arg time).lanes = s.lanes := rfl
@[simp] theorem eventLater_recogs (s : State) (src : Nat) (arg : Word) (time : Nat) : (s.eventLater src arg time).recogs = s.recogs := rfl
@[simp] theorem eventLater_rings (s : State) (src : Nat) (arg : Word) (time : Nat) : (s.eventLater src arg time).rings = s.rings := rfl
@[simp] theorem eventLater_comb (s : State) (src : Nat) (arg : Word) (time : Nat) : (s.eventLater src arg time).comb = s.comb := rfl
@[simp] theorem eventLater_queues (s : State) (src : Nat) (arg : Word) (time : Nat) : (s.eventLater src arg time).queues = s.queues := rfl
@[simp] theorem eventLater_ports (s : State) (src : Nat) (arg : Word) (time : Nat) : (s.eventLater src arg time).ports = s.ports := rfl
@[simp] theorem eventLater_engines (s : State) (src : Nat) (arg : Word) (time : Nat) : (s.eventLater src arg time).engines = s.engines := rfl
@[simp] theorem eventLater_lines (s : State) (src : Nat) (arg : Word) (time : Nat) : (s.eventLater src arg time).lines = s.lines := rfl
@[simp] theorem eventLater_journal (s : State) (src : Nat) (arg : Word) (time : Nat) : (s.eventLater src arg time).journal = s.journal := rfl
@[simp] theorem eventLater_hive (s : State) (src : Nat) (arg : Word) (time : Nat) : (s.eventLater src arg time).hive = s.hive := rfl
@[simp] theorem eventLater_vioH (s : State) (src : Nat) (arg : Word) (time : Nat) : (s.eventLater src arg time).vioH = s.vioH := rfl
@[simp] theorem eventLater_vioL (s : State) (src : Nat) (arg : Word) (time : Nat) : (s.eventLater src arg time).vioL = s.vioL := rfl
@[simp] theorem eventLater_tap (s : State) (src : Nat) (arg : Word) (time : Nat) : (s.eventLater src arg time).tap = s.tap := rfl
@[simp] theorem eventLater_free (s : State) (src : Nat) (arg : Word) (time : Nat) : (s.eventLater src arg time).free = s.free := rfl
@[simp] theorem eventLater_pending (s : State) (src : Nat) (arg : Word) (time : Nat) : (s.eventLater src arg time).pending = s.pending := rfl
@[simp] theorem eventLater_core' (s : State) (src : Nat) (arg : Word) (time : Nat) (d : CoreId) : (s.eventLater src arg time).core d = s.core d := rfl
@[simp] theorem eventLater_tenant' (s : State) (src : Nat) (arg : Word) (time : Nat) (u : Tid) : (s.eventLater src arg time).tenant u = s.tenant u := rfl
@[simp] theorem eventLater_sensor' (s : State) (src : Nat) (arg : Word) (time : Nat) (y : SensorId) : (s.eventLater src arg time).sensor y = s.sensor y := rfl
@[simp] theorem eventLater_queue' (s : State) (src : Nat) (arg : Word) (time : Nat) (y : QueueId) : (s.eventLater src arg time).queue y = s.queue y := rfl
@[simp] theorem eventLater_port' (s : State) (src : Nat) (arg : Word) (time : Nat) (y : PortId) : (s.eventLater src arg time).port y = s.port y := rfl
@[simp] theorem eventLater_isReady' (s : State) (src : Nat) (arg : Word) (time : Nat) (y : Func) : (s.eventLater src arg time).isReady y = s.isReady y := rfl
@[simp] theorem eventLater_hasFailed' (s : State) (src : Nat) (arg : Word) (time : Nat) (y : Func) : (s.eventLater src arg time).hasFailed y = s.hasFailed y := rfl
@[simp] theorem eventLater_running' (s : State) (src : Nat) (arg : Word) (time : Nat) : (s.eventLater src arg time).running = s.running := rfl

/-! ## eventOf -/


@[simp] theorem eventOf_cores (s : State) (src : Nat) (arg : Word) : (s.eventOf src arg).cores = s.cores := rfl
@[simp] theorem eventOf_ctx (s : State) (src : Nat) (arg : Word) : (s.eventOf src arg).ctx = s.ctx := rfl
@[simp] theorem eventOf_ctxOrder (s : State) (src : Nat) (arg : Word) : (s.eventOf src arg).ctxOrder = s.ctxOrder := rfl
@[simp] theorem eventOf_bindings (s : State) (src : Nat) (arg : Word) : (s.eventOf src arg).bindings = s.bindings := rfl
@[simp] theorem eventOf_bindSerial (s : State) (src : Nat) (arg : Word) : (s.eventOf src arg).bindSerial = s.bindSerial := rfl
@[simp] theorem eventOf_tenants (s : State) (src : Nat) (arg : Word) : (s.eventOf src arg).tenants = s.tenants := rfl
@[simp] theorem eventOf_timers (s : State) (src : Nat) (arg : Word) : (s.eventOf src arg).timers = s.timers := rfl
@[simp] theorem eventOf_raised (s : State) (src : Nat) (arg : Word) : (s.eventOf src arg).raised = s.raised := rfl
@[simp] theorem eventOf_bankUse (s : State) (src : Nat) (arg : Word) : (s.eventOf src arg).bankUse = s.bankUse := rfl
@[simp] theorem eventOf_early (s : State) (src : Nat) (arg : Word) : (s.eventOf src arg).early = s.early := rfl
@[simp] theorem eventOf_loader (s : State) (src : Nat) (arg : Word) : (s.eventOf src arg).loader = s.loader := rfl
@[simp] theorem eventOf_host (s : State) (src : Nat) (arg : Word) : (s.eventOf src arg).host = s.host := rfl
@[simp] theorem eventOf_mem (s : State) (src : Nat) (arg : Word) : (s.eventOf src arg).mem = s.mem := rfl
@[simp] theorem eventOf_unseen (s : State) (src : Nat) (arg : Word) : (s.eventOf src arg).unseen = s.unseen := rfl
@[simp] theorem eventOf_shown (s : State) (src : Nat) (arg : Word) : (s.eventOf src arg).shown = s.shown := rfl
@[simp] theorem eventOf_ecc (s : State) (src : Nat) (arg : Word) : (s.eventOf src arg).ecc = s.ecc := rfl
@[simp] theorem eventOf_eccCnt (s : State) (src : Nat) (arg : Word) : (s.eventOf src arg).eccCnt = s.eccCnt := rfl
@[simp] theorem eventOf_icache (s : State) (src : Nat) (arg : Word) : (s.eventOf src arg).icache = s.icache := rfl
@[simp] theorem eventOf_time (s : State) (src : Nat) (arg : Word) : (s.eventOf src arg).time = s.time := rfl
@[simp] theorem eventOf_boot (s : State) (src : Nat) (arg : Word) : (s.eventOf src arg).boot = s.boot := rfl
@[simp] theorem eventOf_level (s : State) (src : Nat) (arg : Word) : (s.eventOf src arg).level = s.level := rfl
@[simp] theorem eventOf_sleep (s : State) (src : Nat) (arg : Word) : (s.eventOf src arg).sleep = s.sleep := rfl
@[simp] theorem eventOf_therm (s : State) (src : Nat) (arg : Word) : (s.eventOf src arg).therm = s.therm := rfl
@[simp] theorem eventOf_sensors (s : State) (src : Nat) (arg : Word) : (s.eventOf src arg).sensors = s.sensors := rfl
@[simp] theorem eventOf_align (s : State) (src : Nat) (arg : Word) : (s.eventOf src arg).align = s.align := rfl
@[simp] theorem eventOf_plausRun (s : State) (src : Nat) (arg : Word) : (s.eventOf src arg).plausRun = s.plausRun := rfl
@[simp] theorem eventOf_aouts (s : State) (src : Nat) (arg : Word) : (s.eventOf src arg).aouts = s.aouts := rfl
@[simp] theorem eventOf_vaout (s : State) (src : Nat) (arg : Word) : (s.eventOf src arg).vaout = s.vaout := rfl
@[simp] theorem eventOf_evtBalls (s : State) (src : Nat) (arg : Word) : (s.eventOf src arg).evtBalls = s.evtBalls := rfl
@[simp] theorem eventOf_vaon (s : State) (src : Nat) (arg : Word) : (s.eventOf src arg).vaon = s.vaon := rfl
@[simp] theorem eventOf_lanes (s : State) (src : Nat) (arg : Word) : (s.eventOf src arg).lanes = s.lanes := rfl
@[simp] theorem eventOf_recogs (s : State) (src : Nat) (arg : Word) : (s.eventOf src arg).recogs = s.recogs := rfl
@[simp] theorem eventOf_rings (s : State) (src : Nat) (arg : Word) : (s.eventOf src arg).rings = s.rings := rfl
@[simp] theorem eventOf_comb (s : State) (src : Nat) (arg : Word) : (s.eventOf src arg).comb = s.comb := rfl
@[simp] theorem eventOf_queues (s : State) (src : Nat) (arg : Word) : (s.eventOf src arg).queues = s.queues := rfl
@[simp] theorem eventOf_ports (s : State) (src : Nat) (arg : Word) : (s.eventOf src arg).ports = s.ports := rfl
@[simp] theorem eventOf_engines (s : State) (src : Nat) (arg : Word) : (s.eventOf src arg).engines = s.engines := rfl
@[simp] theorem eventOf_lines (s : State) (src : Nat) (arg : Word) : (s.eventOf src arg).lines = s.lines := rfl
@[simp] theorem eventOf_journal (s : State) (src : Nat) (arg : Word) : (s.eventOf src arg).journal = s.journal := rfl
@[simp] theorem eventOf_hive (s : State) (src : Nat) (arg : Word) : (s.eventOf src arg).hive = s.hive := rfl
@[simp] theorem eventOf_vioH (s : State) (src : Nat) (arg : Word) : (s.eventOf src arg).vioH = s.vioH := rfl
@[simp] theorem eventOf_vioL (s : State) (src : Nat) (arg : Word) : (s.eventOf src arg).vioL = s.vioL := rfl
@[simp] theorem eventOf_tap (s : State) (src : Nat) (arg : Word) : (s.eventOf src arg).tap = s.tap := rfl
@[simp] theorem eventOf_free (s : State) (src : Nat) (arg : Word) : (s.eventOf src arg).free = s.free := rfl
@[simp] theorem eventOf_pending (s : State) (src : Nat) (arg : Word) : (s.eventOf src arg).pending = s.pending := rfl
@[simp] theorem eventOf_core' (s : State) (src : Nat) (arg : Word) (d : CoreId) : (s.eventOf src arg).core d = s.core d := rfl
@[simp] theorem eventOf_tenant' (s : State) (src : Nat) (arg : Word) (u : Tid) : (s.eventOf src arg).tenant u = s.tenant u := rfl
@[simp] theorem eventOf_sensor' (s : State) (src : Nat) (arg : Word) (y : SensorId) : (s.eventOf src arg).sensor y = s.sensor y := rfl
@[simp] theorem eventOf_queue' (s : State) (src : Nat) (arg : Word) (y : QueueId) : (s.eventOf src arg).queue y = s.queue y := rfl
@[simp] theorem eventOf_port' (s : State) (src : Nat) (arg : Word) (y : PortId) : (s.eventOf src arg).port y = s.port y := rfl
@[simp] theorem eventOf_isReady' (s : State) (src : Nat) (arg : Word) (y : Func) : (s.eventOf src arg).isReady y = s.isReady y := rfl
@[simp] theorem eventOf_hasFailed' (s : State) (src : Nat) (arg : Word) (y : Func) : (s.eventOf src arg).hasFailed y = s.hasFailed y := rfl
@[simp] theorem eventOf_running' (s : State) (src : Nat) (arg : Word) : (s.eventOf src arg).running = s.running := rfl

/-! ## putBytes -/


@[simp] theorem putBytes_cores (s : State) (a : Nat) (bs : List Byte) : (s.putBytes a bs).cores = s.cores := rfl
@[simp] theorem putBytes_ctx (s : State) (a : Nat) (bs : List Byte) : (s.putBytes a bs).ctx = s.ctx := rfl
@[simp] theorem putBytes_ctxOrder (s : State) (a : Nat) (bs : List Byte) : (s.putBytes a bs).ctxOrder = s.ctxOrder := rfl
@[simp] theorem putBytes_bindings (s : State) (a : Nat) (bs : List Byte) : (s.putBytes a bs).bindings = s.bindings := rfl
@[simp] theorem putBytes_bindSerial (s : State) (a : Nat) (bs : List Byte) : (s.putBytes a bs).bindSerial = s.bindSerial := rfl
@[simp] theorem putBytes_tenants (s : State) (a : Nat) (bs : List Byte) : (s.putBytes a bs).tenants = s.tenants := rfl
@[simp] theorem putBytes_timers (s : State) (a : Nat) (bs : List Byte) : (s.putBytes a bs).timers = s.timers := rfl
@[simp] theorem putBytes_raised (s : State) (a : Nat) (bs : List Byte) : (s.putBytes a bs).raised = s.raised := rfl
@[simp] theorem putBytes_bankUse (s : State) (a : Nat) (bs : List Byte) : (s.putBytes a bs).bankUse = s.bankUse := rfl
@[simp] theorem putBytes_later (s : State) (a : Nat) (bs : List Byte) : (s.putBytes a bs).later = s.later := rfl
@[simp] theorem putBytes_early (s : State) (a : Nat) (bs : List Byte) : (s.putBytes a bs).early = s.early := rfl
@[simp] theorem putBytes_loader (s : State) (a : Nat) (bs : List Byte) : (s.putBytes a bs).loader = s.loader := rfl
@[simp] theorem putBytes_host (s : State) (a : Nat) (bs : List Byte) : (s.putBytes a bs).host = s.host := rfl
@[simp] theorem putBytes_unseen (s : State) (a : Nat) (bs : List Byte) : (s.putBytes a bs).unseen = s.unseen := rfl
@[simp] theorem putBytes_shown (s : State) (a : Nat) (bs : List Byte) : (s.putBytes a bs).shown = s.shown := rfl
@[simp] theorem putBytes_eccCnt (s : State) (a : Nat) (bs : List Byte) : (s.putBytes a bs).eccCnt = s.eccCnt := rfl
@[simp] theorem putBytes_icache (s : State) (a : Nat) (bs : List Byte) : (s.putBytes a bs).icache = s.icache := rfl
@[simp] theorem putBytes_time (s : State) (a : Nat) (bs : List Byte) : (s.putBytes a bs).time = s.time := rfl
@[simp] theorem putBytes_boot (s : State) (a : Nat) (bs : List Byte) : (s.putBytes a bs).boot = s.boot := rfl
@[simp] theorem putBytes_level (s : State) (a : Nat) (bs : List Byte) : (s.putBytes a bs).level = s.level := rfl
@[simp] theorem putBytes_sleep (s : State) (a : Nat) (bs : List Byte) : (s.putBytes a bs).sleep = s.sleep := rfl
@[simp] theorem putBytes_therm (s : State) (a : Nat) (bs : List Byte) : (s.putBytes a bs).therm = s.therm := rfl
@[simp] theorem putBytes_sensors (s : State) (a : Nat) (bs : List Byte) : (s.putBytes a bs).sensors = s.sensors := rfl
@[simp] theorem putBytes_align (s : State) (a : Nat) (bs : List Byte) : (s.putBytes a bs).align = s.align := rfl
@[simp] theorem putBytes_plausRun (s : State) (a : Nat) (bs : List Byte) : (s.putBytes a bs).plausRun = s.plausRun := rfl
@[simp] theorem putBytes_aouts (s : State) (a : Nat) (bs : List Byte) : (s.putBytes a bs).aouts = s.aouts := rfl
@[simp] theorem putBytes_vaout (s : State) (a : Nat) (bs : List Byte) : (s.putBytes a bs).vaout = s.vaout := rfl
@[simp] theorem putBytes_evtBalls (s : State) (a : Nat) (bs : List Byte) : (s.putBytes a bs).evtBalls = s.evtBalls := rfl
@[simp] theorem putBytes_vaon (s : State) (a : Nat) (bs : List Byte) : (s.putBytes a bs).vaon = s.vaon := rfl
@[simp] theorem putBytes_lanes (s : State) (a : Nat) (bs : List Byte) : (s.putBytes a bs).lanes = s.lanes := rfl
@[simp] theorem putBytes_recogs (s : State) (a : Nat) (bs : List Byte) : (s.putBytes a bs).recogs = s.recogs := rfl
@[simp] theorem putBytes_rings (s : State) (a : Nat) (bs : List Byte) : (s.putBytes a bs).rings = s.rings := rfl
@[simp] theorem putBytes_comb (s : State) (a : Nat) (bs : List Byte) : (s.putBytes a bs).comb = s.comb := rfl
@[simp] theorem putBytes_queues (s : State) (a : Nat) (bs : List Byte) : (s.putBytes a bs).queues = s.queues := rfl
@[simp] theorem putBytes_ports (s : State) (a : Nat) (bs : List Byte) : (s.putBytes a bs).ports = s.ports := rfl
@[simp] theorem putBytes_engines (s : State) (a : Nat) (bs : List Byte) : (s.putBytes a bs).engines = s.engines := rfl
@[simp] theorem putBytes_lines (s : State) (a : Nat) (bs : List Byte) : (s.putBytes a bs).lines = s.lines := rfl
@[simp] theorem putBytes_journal (s : State) (a : Nat) (bs : List Byte) : (s.putBytes a bs).journal = s.journal := rfl
@[simp] theorem putBytes_hive (s : State) (a : Nat) (bs : List Byte) : (s.putBytes a bs).hive = s.hive := rfl
@[simp] theorem putBytes_vioH (s : State) (a : Nat) (bs : List Byte) : (s.putBytes a bs).vioH = s.vioH := rfl
@[simp] theorem putBytes_vioL (s : State) (a : Nat) (bs : List Byte) : (s.putBytes a bs).vioL = s.vioL := rfl
@[simp] theorem putBytes_tap (s : State) (a : Nat) (bs : List Byte) : (s.putBytes a bs).tap = s.tap := rfl
@[simp] theorem putBytes_free (s : State) (a : Nat) (bs : List Byte) : (s.putBytes a bs).free = s.free := rfl
@[simp] theorem putBytes_pending (s : State) (a : Nat) (bs : List Byte) : (s.putBytes a bs).pending = s.pending := rfl
@[simp] theorem putBytes_core' (s : State) (a : Nat) (bs : List Byte) (d : CoreId) : (s.putBytes a bs).core d = s.core d := rfl
@[simp] theorem putBytes_tenant' (s : State) (a : Nat) (bs : List Byte) (u : Tid) : (s.putBytes a bs).tenant u = s.tenant u := rfl
@[simp] theorem putBytes_sensor' (s : State) (a : Nat) (bs : List Byte) (y : SensorId) : (s.putBytes a bs).sensor y = s.sensor y := rfl
@[simp] theorem putBytes_queue' (s : State) (a : Nat) (bs : List Byte) (y : QueueId) : (s.putBytes a bs).queue y = s.queue y := rfl
@[simp] theorem putBytes_port' (s : State) (a : Nat) (bs : List Byte) (y : PortId) : (s.putBytes a bs).port y = s.port y := rfl
@[simp] theorem putBytes_isReady' (s : State) (a : Nat) (bs : List Byte) (y : Func) : (s.putBytes a bs).isReady y = s.isReady y := rfl
@[simp] theorem putBytes_hasFailed' (s : State) (a : Nat) (bs : List Byte) (y : Func) : (s.putBytes a bs).hasFailed y = s.hasFailed y := rfl
@[simp] theorem putBytes_running' (s : State) (a : Nat) (bs : List Byte) : (s.putBytes a bs).running = s.running := rfl

/-! ## store -/


@[simp] theorem store_cores (s : State) (a : Nat) (bs : List Byte) : (s.store a bs).cores = s.cores := rfl
@[simp] theorem store_ctx (s : State) (a : Nat) (bs : List Byte) : (s.store a bs).ctx = s.ctx := rfl
@[simp] theorem store_ctxOrder (s : State) (a : Nat) (bs : List Byte) : (s.store a bs).ctxOrder = s.ctxOrder := rfl
@[simp] theorem store_bindings (s : State) (a : Nat) (bs : List Byte) : (s.store a bs).bindings = s.bindings := rfl
@[simp] theorem store_bindSerial (s : State) (a : Nat) (bs : List Byte) : (s.store a bs).bindSerial = s.bindSerial := rfl
@[simp] theorem store_tenants (s : State) (a : Nat) (bs : List Byte) : (s.store a bs).tenants = s.tenants := rfl
@[simp] theorem store_timers (s : State) (a : Nat) (bs : List Byte) : (s.store a bs).timers = s.timers := rfl
@[simp] theorem store_raised (s : State) (a : Nat) (bs : List Byte) : (s.store a bs).raised = s.raised := rfl
@[simp] theorem store_bankUse (s : State) (a : Nat) (bs : List Byte) : (s.store a bs).bankUse = s.bankUse := rfl
@[simp] theorem store_later (s : State) (a : Nat) (bs : List Byte) : (s.store a bs).later = s.later := rfl
@[simp] theorem store_early (s : State) (a : Nat) (bs : List Byte) : (s.store a bs).early = s.early := rfl
@[simp] theorem store_loader (s : State) (a : Nat) (bs : List Byte) : (s.store a bs).loader = s.loader := rfl
@[simp] theorem store_host (s : State) (a : Nat) (bs : List Byte) : (s.store a bs).host = s.host := rfl
@[simp] theorem store_shown (s : State) (a : Nat) (bs : List Byte) : (s.store a bs).shown = s.shown := rfl
@[simp] theorem store_eccCnt (s : State) (a : Nat) (bs : List Byte) : (s.store a bs).eccCnt = s.eccCnt := rfl
@[simp] theorem store_icache (s : State) (a : Nat) (bs : List Byte) : (s.store a bs).icache = s.icache := rfl
@[simp] theorem store_time (s : State) (a : Nat) (bs : List Byte) : (s.store a bs).time = s.time := rfl
@[simp] theorem store_boot (s : State) (a : Nat) (bs : List Byte) : (s.store a bs).boot = s.boot := rfl
@[simp] theorem store_level (s : State) (a : Nat) (bs : List Byte) : (s.store a bs).level = s.level := rfl
@[simp] theorem store_sleep (s : State) (a : Nat) (bs : List Byte) : (s.store a bs).sleep = s.sleep := rfl
@[simp] theorem store_therm (s : State) (a : Nat) (bs : List Byte) : (s.store a bs).therm = s.therm := rfl
@[simp] theorem store_sensors (s : State) (a : Nat) (bs : List Byte) : (s.store a bs).sensors = s.sensors := rfl
@[simp] theorem store_align (s : State) (a : Nat) (bs : List Byte) : (s.store a bs).align = s.align := rfl
@[simp] theorem store_plausRun (s : State) (a : Nat) (bs : List Byte) : (s.store a bs).plausRun = s.plausRun := rfl
@[simp] theorem store_aouts (s : State) (a : Nat) (bs : List Byte) : (s.store a bs).aouts = s.aouts := rfl
@[simp] theorem store_vaout (s : State) (a : Nat) (bs : List Byte) : (s.store a bs).vaout = s.vaout := rfl
@[simp] theorem store_evtBalls (s : State) (a : Nat) (bs : List Byte) : (s.store a bs).evtBalls = s.evtBalls := rfl
@[simp] theorem store_vaon (s : State) (a : Nat) (bs : List Byte) : (s.store a bs).vaon = s.vaon := rfl
@[simp] theorem store_lanes (s : State) (a : Nat) (bs : List Byte) : (s.store a bs).lanes = s.lanes := rfl
@[simp] theorem store_recogs (s : State) (a : Nat) (bs : List Byte) : (s.store a bs).recogs = s.recogs := rfl
@[simp] theorem store_rings (s : State) (a : Nat) (bs : List Byte) : (s.store a bs).rings = s.rings := rfl
@[simp] theorem store_comb (s : State) (a : Nat) (bs : List Byte) : (s.store a bs).comb = s.comb := rfl
@[simp] theorem store_queues (s : State) (a : Nat) (bs : List Byte) : (s.store a bs).queues = s.queues := rfl
@[simp] theorem store_ports (s : State) (a : Nat) (bs : List Byte) : (s.store a bs).ports = s.ports := rfl
@[simp] theorem store_engines (s : State) (a : Nat) (bs : List Byte) : (s.store a bs).engines = s.engines := rfl
@[simp] theorem store_lines (s : State) (a : Nat) (bs : List Byte) : (s.store a bs).lines = s.lines := rfl
@[simp] theorem store_journal (s : State) (a : Nat) (bs : List Byte) : (s.store a bs).journal = s.journal := rfl
@[simp] theorem store_hive (s : State) (a : Nat) (bs : List Byte) : (s.store a bs).hive = s.hive := rfl
@[simp] theorem store_vioH (s : State) (a : Nat) (bs : List Byte) : (s.store a bs).vioH = s.vioH := rfl
@[simp] theorem store_vioL (s : State) (a : Nat) (bs : List Byte) : (s.store a bs).vioL = s.vioL := rfl
@[simp] theorem store_tap (s : State) (a : Nat) (bs : List Byte) : (s.store a bs).tap = s.tap := rfl
@[simp] theorem store_free (s : State) (a : Nat) (bs : List Byte) : (s.store a bs).free = s.free := rfl
@[simp] theorem store_pending (s : State) (a : Nat) (bs : List Byte) : (s.store a bs).pending = s.pending := rfl
@[simp] theorem store_core' (s : State) (a : Nat) (bs : List Byte) (d : CoreId) : (s.store a bs).core d = s.core d := rfl
@[simp] theorem store_tenant' (s : State) (a : Nat) (bs : List Byte) (u : Tid) : (s.store a bs).tenant u = s.tenant u := rfl
@[simp] theorem store_sensor' (s : State) (a : Nat) (bs : List Byte) (y : SensorId) : (s.store a bs).sensor y = s.sensor y := rfl
@[simp] theorem store_queue' (s : State) (a : Nat) (bs : List Byte) (y : QueueId) : (s.store a bs).queue y = s.queue y := rfl
@[simp] theorem store_port' (s : State) (a : Nat) (bs : List Byte) (y : PortId) : (s.store a bs).port y = s.port y := rfl
@[simp] theorem store_isReady' (s : State) (a : Nat) (bs : List Byte) (y : Func) : (s.store a bs).isReady y = s.isReady y := rfl
@[simp] theorem store_hasFailed' (s : State) (a : Nat) (bs : List Byte) (y : Func) : (s.store a bs).hasFailed y = s.hasFailed y := rfl
@[simp] theorem store_running' (s : State) (a : Nat) (bs : List Byte) : (s.store a bs).running = s.running := rfl

/-! ## useBanks -/


@[simp] theorem useBanks_cores (s : State) (c : CoreId) (l : List Nat) : (useBanks c l s).cores = s.cores := rfl
@[simp] theorem useBanks_ctx (s : State) (c : CoreId) (l : List Nat) : (useBanks c l s).ctx = s.ctx := rfl
@[simp] theorem useBanks_ctxOrder (s : State) (c : CoreId) (l : List Nat) : (useBanks c l s).ctxOrder = s.ctxOrder := rfl
@[simp] theorem useBanks_bindings (s : State) (c : CoreId) (l : List Nat) : (useBanks c l s).bindings = s.bindings := rfl
@[simp] theorem useBanks_bindSerial (s : State) (c : CoreId) (l : List Nat) : (useBanks c l s).bindSerial = s.bindSerial := rfl
@[simp] theorem useBanks_tenants (s : State) (c : CoreId) (l : List Nat) : (useBanks c l s).tenants = s.tenants := rfl
@[simp] theorem useBanks_timers (s : State) (c : CoreId) (l : List Nat) : (useBanks c l s).timers = s.timers := rfl
@[simp] theorem useBanks_raised (s : State) (c : CoreId) (l : List Nat) : (useBanks c l s).raised = s.raised := rfl
@[simp] theorem useBanks_later (s : State) (c : CoreId) (l : List Nat) : (useBanks c l s).later = s.later := rfl
@[simp] theorem useBanks_early (s : State) (c : CoreId) (l : List Nat) : (useBanks c l s).early = s.early := rfl
@[simp] theorem useBanks_loader (s : State) (c : CoreId) (l : List Nat) : (useBanks c l s).loader = s.loader := rfl
@[simp] theorem useBanks_host (s : State) (c : CoreId) (l : List Nat) : (useBanks c l s).host = s.host := rfl
@[simp] theorem useBanks_mem (s : State) (c : CoreId) (l : List Nat) : (useBanks c l s).mem = s.mem := rfl
@[simp] theorem useBanks_unseen (s : State) (c : CoreId) (l : List Nat) : (useBanks c l s).unseen = s.unseen := rfl
@[simp] theorem useBanks_shown (s : State) (c : CoreId) (l : List Nat) : (useBanks c l s).shown = s.shown := rfl
@[simp] theorem useBanks_ecc (s : State) (c : CoreId) (l : List Nat) : (useBanks c l s).ecc = s.ecc := rfl
@[simp] theorem useBanks_eccCnt (s : State) (c : CoreId) (l : List Nat) : (useBanks c l s).eccCnt = s.eccCnt := rfl
@[simp] theorem useBanks_icache (s : State) (c : CoreId) (l : List Nat) : (useBanks c l s).icache = s.icache := rfl
@[simp] theorem useBanks_time (s : State) (c : CoreId) (l : List Nat) : (useBanks c l s).time = s.time := rfl
@[simp] theorem useBanks_boot (s : State) (c : CoreId) (l : List Nat) : (useBanks c l s).boot = s.boot := rfl
@[simp] theorem useBanks_level (s : State) (c : CoreId) (l : List Nat) : (useBanks c l s).level = s.level := rfl
@[simp] theorem useBanks_sleep (s : State) (c : CoreId) (l : List Nat) : (useBanks c l s).sleep = s.sleep := rfl
@[simp] theorem useBanks_therm (s : State) (c : CoreId) (l : List Nat) : (useBanks c l s).therm = s.therm := rfl
@[simp] theorem useBanks_sensors (s : State) (c : CoreId) (l : List Nat) : (useBanks c l s).sensors = s.sensors := rfl
@[simp] theorem useBanks_align (s : State) (c : CoreId) (l : List Nat) : (useBanks c l s).align = s.align := rfl
@[simp] theorem useBanks_plausRun (s : State) (c : CoreId) (l : List Nat) : (useBanks c l s).plausRun = s.plausRun := rfl
@[simp] theorem useBanks_aouts (s : State) (c : CoreId) (l : List Nat) : (useBanks c l s).aouts = s.aouts := rfl
@[simp] theorem useBanks_vaout (s : State) (c : CoreId) (l : List Nat) : (useBanks c l s).vaout = s.vaout := rfl
@[simp] theorem useBanks_evtBalls (s : State) (c : CoreId) (l : List Nat) : (useBanks c l s).evtBalls = s.evtBalls := rfl
@[simp] theorem useBanks_vaon (s : State) (c : CoreId) (l : List Nat) : (useBanks c l s).vaon = s.vaon := rfl
@[simp] theorem useBanks_lanes (s : State) (c : CoreId) (l : List Nat) : (useBanks c l s).lanes = s.lanes := rfl
@[simp] theorem useBanks_recogs (s : State) (c : CoreId) (l : List Nat) : (useBanks c l s).recogs = s.recogs := rfl
@[simp] theorem useBanks_rings (s : State) (c : CoreId) (l : List Nat) : (useBanks c l s).rings = s.rings := rfl
@[simp] theorem useBanks_comb (s : State) (c : CoreId) (l : List Nat) : (useBanks c l s).comb = s.comb := rfl
@[simp] theorem useBanks_queues (s : State) (c : CoreId) (l : List Nat) : (useBanks c l s).queues = s.queues := rfl
@[simp] theorem useBanks_ports (s : State) (c : CoreId) (l : List Nat) : (useBanks c l s).ports = s.ports := rfl
@[simp] theorem useBanks_engines (s : State) (c : CoreId) (l : List Nat) : (useBanks c l s).engines = s.engines := rfl
@[simp] theorem useBanks_lines (s : State) (c : CoreId) (l : List Nat) : (useBanks c l s).lines = s.lines := rfl
@[simp] theorem useBanks_journal (s : State) (c : CoreId) (l : List Nat) : (useBanks c l s).journal = s.journal := rfl
@[simp] theorem useBanks_hive (s : State) (c : CoreId) (l : List Nat) : (useBanks c l s).hive = s.hive := rfl
@[simp] theorem useBanks_vioH (s : State) (c : CoreId) (l : List Nat) : (useBanks c l s).vioH = s.vioH := rfl
@[simp] theorem useBanks_vioL (s : State) (c : CoreId) (l : List Nat) : (useBanks c l s).vioL = s.vioL := rfl
@[simp] theorem useBanks_tap (s : State) (c : CoreId) (l : List Nat) : (useBanks c l s).tap = s.tap := rfl
@[simp] theorem useBanks_free (s : State) (c : CoreId) (l : List Nat) : (useBanks c l s).free = s.free := rfl
@[simp] theorem useBanks_pending (s : State) (c : CoreId) (l : List Nat) : (useBanks c l s).pending = s.pending := rfl
@[simp] theorem useBanks_core' (s : State) (c : CoreId) (l : List Nat) (d : CoreId) : (useBanks c l s).core d = s.core d := rfl
@[simp] theorem useBanks_tenant' (s : State) (c : CoreId) (l : List Nat) (u : Tid) : (useBanks c l s).tenant u = s.tenant u := rfl
@[simp] theorem useBanks_sensor' (s : State) (c : CoreId) (l : List Nat) (y : SensorId) : (useBanks c l s).sensor y = s.sensor y := rfl
@[simp] theorem useBanks_queue' (s : State) (c : CoreId) (l : List Nat) (y : QueueId) : (useBanks c l s).queue y = s.queue y := rfl
@[simp] theorem useBanks_port' (s : State) (c : CoreId) (l : List Nat) (y : PortId) : (useBanks c l s).port y = s.port y := rfl
@[simp] theorem useBanks_isReady' (s : State) (c : CoreId) (l : List Nat) (y : Func) : (useBanks c l s).isReady y = s.isReady y := rfl
@[simp] theorem useBanks_hasFailed' (s : State) (c : CoreId) (l : List Nat) (y : Func) : (useBanks c l s).hasFailed y = s.hasFailed y := rfl
@[simp] theorem useBanks_running' (s : State) (c : CoreId) (l : List Nat) : (useBanks c l s).running = s.running := rfl

/-! ## zeroSpan -/


@[simp] theorem zeroSpan_cores (s : State) (a n : Nat) : (s.zeroSpan a n).cores = s.cores := rfl
@[simp] theorem zeroSpan_ctx (s : State) (a n : Nat) : (s.zeroSpan a n).ctx = s.ctx := rfl
@[simp] theorem zeroSpan_ctxOrder (s : State) (a n : Nat) : (s.zeroSpan a n).ctxOrder = s.ctxOrder := rfl
@[simp] theorem zeroSpan_bindings (s : State) (a n : Nat) : (s.zeroSpan a n).bindings = s.bindings := rfl
@[simp] theorem zeroSpan_bindSerial (s : State) (a n : Nat) : (s.zeroSpan a n).bindSerial = s.bindSerial := rfl
@[simp] theorem zeroSpan_tenants (s : State) (a n : Nat) : (s.zeroSpan a n).tenants = s.tenants := rfl
@[simp] theorem zeroSpan_timers (s : State) (a n : Nat) : (s.zeroSpan a n).timers = s.timers := rfl
@[simp] theorem zeroSpan_raised (s : State) (a n : Nat) : (s.zeroSpan a n).raised = s.raised := rfl
@[simp] theorem zeroSpan_bankUse (s : State) (a n : Nat) : (s.zeroSpan a n).bankUse = s.bankUse := rfl
@[simp] theorem zeroSpan_later (s : State) (a n : Nat) : (s.zeroSpan a n).later = s.later := rfl
@[simp] theorem zeroSpan_early (s : State) (a n : Nat) : (s.zeroSpan a n).early = s.early := rfl
@[simp] theorem zeroSpan_loader (s : State) (a n : Nat) : (s.zeroSpan a n).loader = s.loader := rfl
@[simp] theorem zeroSpan_host (s : State) (a n : Nat) : (s.zeroSpan a n).host = s.host := rfl
@[simp] theorem zeroSpan_unseen (s : State) (a n : Nat) : (s.zeroSpan a n).unseen = s.unseen := rfl
@[simp] theorem zeroSpan_shown (s : State) (a n : Nat) : (s.zeroSpan a n).shown = s.shown := rfl
@[simp] theorem zeroSpan_eccCnt (s : State) (a n : Nat) : (s.zeroSpan a n).eccCnt = s.eccCnt := rfl
@[simp] theorem zeroSpan_icache (s : State) (a n : Nat) : (s.zeroSpan a n).icache = s.icache := rfl
@[simp] theorem zeroSpan_time (s : State) (a n : Nat) : (s.zeroSpan a n).time = s.time := rfl
@[simp] theorem zeroSpan_boot (s : State) (a n : Nat) : (s.zeroSpan a n).boot = s.boot := rfl
@[simp] theorem zeroSpan_level (s : State) (a n : Nat) : (s.zeroSpan a n).level = s.level := rfl
@[simp] theorem zeroSpan_sleep (s : State) (a n : Nat) : (s.zeroSpan a n).sleep = s.sleep := rfl
@[simp] theorem zeroSpan_therm (s : State) (a n : Nat) : (s.zeroSpan a n).therm = s.therm := rfl
@[simp] theorem zeroSpan_sensors (s : State) (a n : Nat) : (s.zeroSpan a n).sensors = s.sensors := rfl
@[simp] theorem zeroSpan_align (s : State) (a n : Nat) : (s.zeroSpan a n).align = s.align := rfl
@[simp] theorem zeroSpan_plausRun (s : State) (a n : Nat) : (s.zeroSpan a n).plausRun = s.plausRun := rfl
@[simp] theorem zeroSpan_aouts (s : State) (a n : Nat) : (s.zeroSpan a n).aouts = s.aouts := rfl
@[simp] theorem zeroSpan_vaout (s : State) (a n : Nat) : (s.zeroSpan a n).vaout = s.vaout := rfl
@[simp] theorem zeroSpan_evtBalls (s : State) (a n : Nat) : (s.zeroSpan a n).evtBalls = s.evtBalls := rfl
@[simp] theorem zeroSpan_vaon (s : State) (a n : Nat) : (s.zeroSpan a n).vaon = s.vaon := rfl
@[simp] theorem zeroSpan_lanes (s : State) (a n : Nat) : (s.zeroSpan a n).lanes = s.lanes := rfl
@[simp] theorem zeroSpan_recogs (s : State) (a n : Nat) : (s.zeroSpan a n).recogs = s.recogs := rfl
@[simp] theorem zeroSpan_rings (s : State) (a n : Nat) : (s.zeroSpan a n).rings = s.rings := rfl
@[simp] theorem zeroSpan_comb (s : State) (a n : Nat) : (s.zeroSpan a n).comb = s.comb := rfl
@[simp] theorem zeroSpan_queues (s : State) (a n : Nat) : (s.zeroSpan a n).queues = s.queues := rfl
@[simp] theorem zeroSpan_ports (s : State) (a n : Nat) : (s.zeroSpan a n).ports = s.ports := rfl
@[simp] theorem zeroSpan_engines (s : State) (a n : Nat) : (s.zeroSpan a n).engines = s.engines := rfl
@[simp] theorem zeroSpan_lines (s : State) (a n : Nat) : (s.zeroSpan a n).lines = s.lines := rfl
@[simp] theorem zeroSpan_journal (s : State) (a n : Nat) : (s.zeroSpan a n).journal = s.journal := rfl
@[simp] theorem zeroSpan_hive (s : State) (a n : Nat) : (s.zeroSpan a n).hive = s.hive := rfl
@[simp] theorem zeroSpan_vioH (s : State) (a n : Nat) : (s.zeroSpan a n).vioH = s.vioH := rfl
@[simp] theorem zeroSpan_vioL (s : State) (a n : Nat) : (s.zeroSpan a n).vioL = s.vioL := rfl
@[simp] theorem zeroSpan_tap (s : State) (a n : Nat) : (s.zeroSpan a n).tap = s.tap := rfl
@[simp] theorem zeroSpan_free (s : State) (a n : Nat) : (s.zeroSpan a n).free = s.free := rfl
@[simp] theorem zeroSpan_pending (s : State) (a n : Nat) : (s.zeroSpan a n).pending = s.pending := rfl
@[simp] theorem zeroSpan_core' (s : State) (a n : Nat) (d : CoreId) : (s.zeroSpan a n).core d = s.core d := rfl
@[simp] theorem zeroSpan_tenant' (s : State) (a n : Nat) (u : Tid) : (s.zeroSpan a n).tenant u = s.tenant u := rfl
@[simp] theorem zeroSpan_sensor' (s : State) (a n : Nat) (y : SensorId) : (s.zeroSpan a n).sensor y = s.sensor y := rfl
@[simp] theorem zeroSpan_queue' (s : State) (a n : Nat) (y : QueueId) : (s.zeroSpan a n).queue y = s.queue y := rfl
@[simp] theorem zeroSpan_port' (s : State) (a n : Nat) (y : PortId) : (s.zeroSpan a n).port y = s.port y := rfl
@[simp] theorem zeroSpan_isReady' (s : State) (a n : Nat) (y : Func) : (s.zeroSpan a n).isReady y = s.isReady y := rfl
@[simp] theorem zeroSpan_hasFailed' (s : State) (a n : Nat) (y : Func) : (s.zeroSpan a n).hasFailed y = s.hasFailed y := rfl
@[simp] theorem zeroSpan_running' (s : State) (a n : Nat) : (s.zeroSpan a n).running = s.running := rfl

/-! ## The field an update writes -/

@[simp] theorem core_setCore_same (s : State) (i : CoreId) (x : Core) : (s.setCore i x).core i = x := by
  simp [State.core, State.setCore]
theorem core_setCore_other (s : State) {i j : CoreId} (x : Core) (h : i ≠ j) : (s.setCore i x).core j = s.core j := by
  simp [State.core, State.setCore, vget_vset_other _ _ _ _ h]
@[simp] theorem tenant_setTenant_same (s : State) (i : Tid) (x : Tenant) : (s.setTenant i x).tenant i = x := by
  simp [State.tenant, State.setTenant]
theorem tenant_setTenant_other (s : State) {i j : Tid} (x : Tenant) (h : i ≠ j) : (s.setTenant i x).tenant j = s.tenant j := by
  simp [State.tenant, State.setTenant, vget_vset_other _ _ _ _ h]
@[simp] theorem sensor_setSensor_same (s : State) (i : SensorId) (x : Sensor) : (s.setSensor i x).sensor i = x := by
  simp [State.sensor, State.setSensor]
theorem sensor_setSensor_other (s : State) {i j : SensorId} (x : Sensor) (h : i ≠ j) : (s.setSensor i x).sensor j = s.sensor j := by
  simp [State.sensor, State.setSensor, vget_vset_other _ _ _ _ h]
@[simp] theorem lane_setLane_same (s : State) (i : LaneId) (x : Lane) : (s.setLane i x).lane i = x := by
  simp [State.lane, State.setLane]
theorem lane_setLane_other (s : State) {i j : LaneId} (x : Lane) (h : i ≠ j) : (s.setLane i x).lane j = s.lane j := by
  simp [State.lane, State.setLane, vget_vset_other _ _ _ _ h]
@[simp] theorem aout_setAout_same (s : State) (i : Fin 4) (x : Aout) : (s.setAout i x).aout i = x := by
  simp [State.aout, State.setAout]
theorem aout_setAout_other (s : State) {i j : Fin 4} (x : Aout) (h : i ≠ j) : (s.setAout i x).aout j = s.aout j := by
  simp [State.aout, State.setAout, vget_vset_other _ _ _ _ h]
@[simp] theorem recog_setRecog_same (s : State) (i : RecogId) (x : Recog) : (s.setRecog i x).recog i = x := by
  simp [State.recog, State.setRecog]
theorem recog_setRecog_other (s : State) {i j : RecogId} (x : Recog) (h : i ≠ j) : (s.setRecog i x).recog j = s.recog j := by
  simp [State.recog, State.setRecog, vget_vset_other _ _ _ _ h]
@[simp] theorem ring_setRing_same (s : State) (i : RingId) (x : Ring) : (s.setRing i x).ring i = x := by
  simp [State.ring, State.setRing]
theorem ring_setRing_other (s : State) {i j : RingId} (x : Ring) (h : i ≠ j) : (s.setRing i x).ring j = s.ring j := by
  simp [State.ring, State.setRing, vget_vset_other _ _ _ _ h]
@[simp] theorem queue_setQueue_same (s : State) (i : QueueId) (x : Queue) : (s.setQueue i x).queue i = x := by
  simp [State.queue, State.setQueue]
theorem queue_setQueue_other (s : State) {i j : QueueId} (x : Queue) (h : i ≠ j) : (s.setQueue i x).queue j = s.queue j := by
  simp [State.queue, State.setQueue, vget_vset_other _ _ _ _ h]
@[simp] theorem port_setPort_same (s : State) (i : PortId) (x : Port) : (s.setPort i x).port i = x := by
  simp [State.port, State.setPort]
theorem port_setPort_other (s : State) {i j : PortId} (x : Port) (h : i ≠ j) : (s.setPort i x).port j = s.port j := by
  simp [State.port, State.setPort, vget_vset_other _ _ _ _ h]
@[simp] theorem engine_setEngine_same (s : State) (i : EngineId) (x : Engine) : (s.setEngine i x).engine i = x := by
  simp [State.engine, State.setEngine]
theorem engine_setEngine_other (s : State) {i j : EngineId} (x : Engine) (h : i ≠ j) : (s.setEngine i x).engine j = s.engine j := by
  simp [State.engine, State.setEngine, vget_vset_other _ _ _ _ h]
@[simp] theorem regs_setRegs_same (s : State) (c : CoreId) (r : Regs) : (s.setRegs c r).regs c = r := by
  simp [State.regs, State.setRegs]
theorem regs_setRegs_other (s : State) {c d : CoreId} (r : Regs) (h : c ≠ d) : (s.setRegs c r).regs d = s.regs d := by
  simp [State.regs, State.setRegs, core_setCore_other _ _ h]
@[simp] theorem inv_setRegs (s : State) (c d : CoreId) (r : Regs) : ((s.setRegs c r).core d).inv = (s.core d).inv := by
  by_cases h : c = d
  · subst h; simp [State.setRegs]
  · simp [State.setRegs, core_setCore_other _ _ h]
@[simp] theorem modHive_hive (s : State) (g : HiveSt → HiveSt) : (s.modHive g).hive = g s.hive := rfl
@[simp] theorem setJ_journal (s : State) (j : JournalSt) : (s.setJ j).journal = j := rfl
@[simp] theorem setSleep_sleep (s : State) (g : SleepSt → SleepSt) : (s.setSleep g).sleep = g s.sleep := rfl
@[simp] theorem nextFree_free (s : State) : s.nextFree.free = s.free + 1 := rfl
@[simp] theorem putBytes_mem (s : State) (a : Nat) (bs : List Byte) : (s.putBytes a bs).mem = memPuts s.mem a bs := rfl
@[simp] theorem zeroSpan_mem (s : State) (a n : Nat) : (s.zeroSpan a n).mem = memZero s.mem a n := rfl
@[simp] theorem store_mem (s : State) (a : Nat) (bs : List Byte) : (s.store a bs).mem = memPuts s.mem a bs := rfl
@[simp] theorem useBanks_bankUse (s : State) (c : CoreId) (l : List Nat) :
    (useBanks c l s).bankUse = s.bankUse ++ l.map (fun b => (c, b)) := rfl
@[simp] theorem event_raised (s : State) (src : Nat) (arg : Word) (time : Nat) (raised : Bool) :
    (s.event src arg time raised).raised = s.raised ++ [⟨src, ⟨arg, time, raised, s.time.clk⟩⟩] := rfl
@[simp] theorem eventNext_later (s : State) (src : Nat) (arg : Word) :
    (s.eventNext src arg).later = s.later ++ [.event src arg] := rfl
@[simp] theorem eventLater_later (s : State) (src : Nat) (arg : Word) (time : Nat) :
    (s.eventLater src arg time).later = s.later ++ [.eventOf src arg time] := rfl
@[simp] theorem eventOf_later (s : State) (src : Nat) (arg : Word) :
    (s.eventOf src arg).later = s.later ++ [.eventOf src arg s.time.hive] := rfl

/-! ## offerRaised -/

@[simp] theorem offerRaised_binding (s : State) (r : Raised) (k : Fin 256) :
    vget (offerRaised s r).bindings k = offerTo (BitVec.ofNat 8 r.src) r.ev (vget s.bindings k) := by
  simp [offerRaised]
@[simp] theorem offerRaised_saved (s : State) (r : Raised) (k : Fin 16) :
    vget (offerRaised s r).ctx k = releaseBy (BitVec.ofNat 8 r.src) r.ev.arg r.ev.clk (vget s.ctx k) := by
  simp [offerRaised]

end Sys2Proof.Machine
end

