-- ==== Sys2Proof/Laws/Issue.lean ====
section
/-!
SUPPORT. Sys2Proof/Laws/Issue.lean: what `issue`, `plainInstr`, `flowInstr` and `specInstr` do for a core that begins an
instruction, and what a fetch leaves of its core.
-/
namespace Sys2Proof.Machine

theorem markQuota_regs (t : Tid) (k : Core) : (markQuota t k).regs = k.regs := by
  unfold markQuota; split
  · split <;> rfl
  · rfl

theorem markQuota_resuming (t : Tid) (k : Core) : (markQuota t k).resuming = k.resuming := by
  unfold markQuota; split
  · split <;> rfl
  · rfl

theorem rollPeriod_only (t : Tid) (s : State) : ∃ ts, rollPeriod t s = { s with tenants := ts } := by
  unfold rollPeriod; dsimp only; split <;> exact ⟨_, rfl⟩

theorem rollPeriod_core (t : Tid) (s : State) (c : CoreId) : (rollPeriod t s).core c = s.core c := by
  obtain ⟨_, h⟩ := rollPeriod_only t s; rw [h]; rfl

theorem chargeQuota_core (t : Tid) (n : Nat) (s : State) (c : CoreId) :
    ((chargeQuota t n s).core c).regs = (s.core c).regs ∧
    ((chargeQuota t n s).core c).resuming = (s.core c).resuming := by
  have h := rollPeriod_core t s c
  unfold chargeQuota
  dsimp only
  generalize rollPeriod t s = u at *
  split
  · rw [h]; exact ⟨rfl, rfl⟩
  · split
    · have : ∀ (f : Core → Core) (w : State), ({ w with cores := vmap f w.cores } : State).core c = f (w.core c) := by
        intro f w; simp [State.core]
      rw [this, markQuota_regs, markQuota_resuming]; exact ⟨by rw [← h]; rfl, by rw [← h]; rfl⟩
    · rw [← h]; exact ⟨rfl, rfl⟩

theorem addCycles_core (c : CoreId) (n : Nat) (s : State) (d : CoreId) :
    ((addCycles c n s).core d).regs = (s.core d).regs ∧ ((addCycles c n s).core d).resuming = (s.core d).resuming := by
  unfold addCycles
  split
  · exact ⟨rfl, rfl⟩
  · rename_i i _
    have h := chargeQuota_core i.tenant n (s.setCore c { s.core c with inv := some { i with used := i.used + n } }) d
    by_cases hd : c = d
    · subst hd; rwa [core_setCore_same] at h
    · rwa [core_setCore_other _ _ hd] at h

/-- Part of an instruction's cycles charged leaves every core's registers and its resuming mark. -/
theorem chargePart_core (c : CoreId) (n : Nat) (s : State) (d : CoreId) :
    ((chargePart c n s).core d).regs = (s.core d).regs ∧ ((chargePart c n s).core d).resuming = (s.core d).resuming := by
  unfold chargePart
  dsimp only
  have h := addCycles_core c (n - (s.core c).paid) (s.setCore c { s.core c with paid := (s.core c).paid - n }) d
  by_cases hd : c = d
  · subst hd; rwa [core_setCore_same] at h
  · rwa [core_setCore_other _ _ hd] at h

/-- Charging cycles leaves every core's registers and its resuming mark. -/
theorem charge_core (c : CoreId) (n : Nat) (s : State) (d : CoreId) :
    ((charge c n s).core d).regs = (s.core d).regs ∧ ((charge c n s).core d).resuming = (s.core d).resuming := by
  unfold charge
  dsimp only
  have h := chargePart_core c n s d
  by_cases hd : c = d
  · subst hd; rwa [core_setCore_same]
  · rwa [core_setCore_other _ _ hd]

theorem countEcc_core (a : Nat) (e : EccMark) (s : State) (c : CoreId) : (countEcc a e s).core c = s.core c := rfl

theorem readSram_core (a : Nat) (s : State) (c : CoreId) : (readSram a s).s.core c = s.core c := by
  unfold readSram; dsimp only; split <;> rfl

theorem flashRead_core (off fill : Nat) (s : State) (c : CoreId) : (flashRead off fill s).core c = s.core c := by
  unfold flashRead; dsimp only; split
  · rfl
  · split
    · split <;> rfl
    · rfl

theorem fetchWait_core (c : CoreId) (s : State) (d : CoreId) :
    ((fetchWait c s).core d).regs = (s.core d).regs ∧ ((fetchWait c s).core d).resuming = (s.core d).resuming :=
  chargePart_core c _ (useBanks c _ s) d

theorem cacheTouch_core (a : Nat) (s : State) (c : CoreId) : (cacheTouch a s).2.core c = s.core c := rfl

/-- A fetch that answers a word leaves the core's registers and its resuming mark. -/
theorem fetch_ok_core {c : CoreId} {i : Instr} {v : Inv} {s s' : State} (h : fetch c i v s = .ok s') :
    (s'.core c).regs = (s.core c).regs ∧ (s'.core c).resuming = (s.core c).resuming := by
  unfold fetch at h
  dsimp only at h
  repeat' split at h
  all_goals first | cases h | skip
  · exact ⟨rfl, rfl⟩
  · have := fetchWait_core c (readSram (s.regs c).pc.toNat s).s c
    rwa [readSram_core] at this
  · simp [cacheTouch_core]
  · have := chargePart_core c (fillClks s.level.cur)
      (flashRead ((s.regs c).pc.toNat - flashBase) (fillClks s.level.cur) (cacheTouch (s.regs c).pc.toNat s).2) c
    rwa [flashRead_core, cacheTouch_core] at this

/-- A core that begins an instruction goes on from the state its fetch answers. -/
theorem issue_begins {c : CoreId} {i : Instr} {v : Inv} {s s' : State} (h : Begins c i v s s')
    (k : Inv → State → State) : issue c i s k = k v s' := by
  obtain ⟨hi, hr, hp, hs, hg, hz, hd, hf⟩ := h
  have h1 : ¬(s.running = false ∨ (s.core c).paused = true ∨ (s.core c).stall.isSome = true ∨
      s.time.clk < (s.core c).goAt) := by simp [hr, hp, hs]; omega
  have h2 : ¬((s.core c).paid = 0 ∧ (v.stopped = true ∨ (dueFault v).isSome = true)) := by
    rcases hd with hd | ⟨ht, hd⟩
    · exact fun e => hd e.1
    · simp [ht, hd]
  simp only [issue, hi, if_neg h1, hz, if_neg h2, hf]; simp

/-- What a core that begins an instruction resumes: nothing. -/
theorem Begins.resuming {c : CoreId} {i : Instr} {v : Inv} {s s' : State} (h : Begins c i v s s') :
    (s'.core c).resuming = false := by
  rw [(fetch_ok_core h.2.2.2.2.2.2.2).2]; exact h.2.2.2.2.2.1

/-- An ALU or VEC instruction with a defined encoding. -/
theorem plainInstr_begins {c : CoreId} {i : Instr} {v : Inv} {s s' : State} (h : Begins c i v s s') (cyc : Nat)
    (f : Regs → Regs) :
    plainInstr c i true cyc f s =
      charge c cyc (s'.setRegs c { f (s'.regs c) with pc := (s'.regs c).pc + 4 }) := by
  simp [plainInstr, issue_begins h]

/-- A FLOW instruction with a defined encoding. -/
theorem flowInstr_begins {c : CoreId} {i : Instr} {v : Inv} {s s' : State} (h : Begins c i v s s')
    (k : Inv → Regs → State → State) : flowInstr c i true k s = k v (s'.regs c) s' := by
  simp [flowInstr, issue_begins h]

/-- An instruction whose encoding is undefined raises FLT_OPCODE. -/
theorem plainInstr_undefined {c : CoreId} {i : Instr} {v : Inv} {s s' : State} (h : Begins c i v s s') (cyc : Nat)
    (f : Regs → Regs) : plainInstr c i false cyc f s = fault c fltOpcode (s'.regs c).pc s' := by
  simp [plainInstr, issue_begins h]

/-- Accesses to no bank are none, and wait for nothing. -/
@[simp] theorem useBanks_nil (c : CoreId) (s : State) : useBanks c [] s = s := by simp [useBanks]
@[simp] theorem dataWait_nil (c : CoreId) (s : State) : dataWait c [] s = 0 := by simp [dataWait, sramWait]
@[simp] theorem retireUsing_nil (c : CoreId) (v : Inv) (s : State) (st : BitVec 8) (u : Regs → Regs) (n : Nat)
    (t : State) : retireUsing c v [] s st u n t = retire c v.tenant st u n t := by simp [retireUsing]

/-- A status-writing instruction that passes orders 1 to 5 and waits for no read of flash. -/
theorem specInstr_passes {c : CoreId} {i : Instr} {v : Inv} {s s' : State} (sp : Spec) (h : Begins c i v s s')
    (h1 : sp.o1 = true) (h2 : sp.o2 v.tenant (s'.regs c) s' = true) (h3 : sp.o3 v.tenant (s'.regs c) s' = true)
    (h4 : sp.failed v.tenant (s'.regs c) s' = false) (h5 : sp.waits v.tenant (s'.regs c) s' = none)
    (h6 : readWaits sp v.tenant (s'.regs c) s' = none) :
    specInstr c i sp s =
      (let a := sp.body c v.tenant (s'.regs c) s'
       if a.retires then a.after (retireUsing c v a.banks s a.st a.upd (sp.cyc s' + a.extra) a.s) else a.s) := by
  simp [specInstr, issue_begins h, h1, h2, h3, h4, h5, h6, retireUsing, dataWait]

/-- A status-writing instruction refused at order 2. -/
theorem specInstr_range {c : CoreId} {i : Instr} {v : Inv} {s s' : State} (sp : Spec) (h : Begins c i v s s')
    (h1 : sp.o1 = true) (h2 : sp.o2 v.tenant (s'.regs c) s' = false) :
    specInstr c i sp s = retire c v.tenant stRange id (sp.cyc s') s' := by
  have hz := h.resuming
  simp [specInstr, issue_begins h, h1, h2, hz]

/-- A status-writing instruction refused at order 3. -/
theorem specInstr_cap {c : CoreId} {i : Instr} {v : Inv} {s s' : State} (sp : Spec) (h : Begins c i v s s')
    (h1 : sp.o1 = true) (h2 : sp.o2 v.tenant (s'.regs c) s' = true) (h3 : sp.o3 v.tenant (s'.regs c) s' = false) :
    specInstr c i sp s = retire c v.tenant stCap id (sp.cyc s') s' := by
  have hz := h.resuming
  simp [specInstr, issue_begins h, h1, h2, h3, hz]

/-- A status-writing instruction that passes orders 1 to 5, with its answer named. -/
theorem specInstr_retires {c : CoreId} {i : Instr} {v : Inv} {s s' : State} {sp : Spec} (h : Begins c i v s s')
    (h1 : sp.o1 = true) (h2 : sp.o2 v.tenant (s'.regs c) s' = true) (h3 : sp.o3 v.tenant (s'.regs c) s' = true)
    (h4 : sp.failed v.tenant (s'.regs c) s' = false) (h5 : sp.waits v.tenant (s'.regs c) s' = none)
    (h6 : readWaits sp v.tenant (s'.regs c) s' = none)
    (a : Ans) (ha : sp.body c v.tenant (s'.regs c) s' = a) (hr : a.retires = true) :
    specInstr c i sp s = a.after (retireUsing c v a.banks s a.st a.upd (sp.cyc s' + a.extra) a.s) := by
  rw [specInstr_passes sp h h1 h2 h3 h4 h5 h6]; simp [ha, hr]

/-- A status-writing instruction whose encoding is undefined (order 1). -/
theorem specInstr_undefined {c : CoreId} {i : Instr} {v : Inv} {s s' : State} (sp : Spec) (h : Begins c i v s s')
    (h1 : sp.o1 = false) : specInstr c i sp s = fault c fltOpcode (s'.regs c).pc s' := by
  have hz := h.resuming
  simp [specInstr, issue_begins h, h1, hz]

/-- A status-writing instruction whose unit has failed (order 4). -/
theorem specInstr_failed {c : CoreId} {i : Instr} {v : Inv} {s s' : State} (sp : Spec) (h : Begins c i v s s')
    (h1 : sp.o1 = true) (h2 : sp.o2 v.tenant (s'.regs c) s' = true) (h3 : sp.o3 v.tenant (s'.regs c) s' = true)
    (h4 : sp.failed v.tenant (s'.regs c) s' = true) :
    specInstr c i sp s = retire c v.tenant stNotReady id (sp.cyc s') s' := by
  simp [specInstr, issue_begins h, h1, h2, h3, h4]

/-- A status-writing instruction that waits for its unit (order 5). -/
theorem specInstr_stalls {c : CoreId} {i : Instr} {v : Inv} {s s' : State} (sp : Spec) (h : Begins c i v s s')
    (h1 : sp.o1 = true) (h2 : sp.o2 v.tenant (s'.regs c) s' = true) (h3 : sp.o3 v.tenant (s'.regs c) s' = true)
    (h4 : sp.failed v.tenant (s'.regs c) s' = false) (f : Func) (h5 : sp.waits v.tenant (s'.regs c) s' = some f) :
    specInstr c i sp s = stallOn c i false f s' := by
  simp [specInstr, issue_begins h, h1, h2, h3, h4, h5]

/-- A status-writing instruction that waits to read flash beside an operation (R456, R457). -/
theorem specInstr_reads {c : CoreId} {i : Instr} {v : Inv} {s s' : State} (sp : Spec) (h : Begins c i v s s')
    (h1 : sp.o1 = true) (h2 : sp.o2 v.tenant (s'.regs c) s' = true) (h3 : sp.o3 v.tenant (s'.regs c) s' = true)
    (h4 : sp.failed v.tenant (s'.regs c) s' = false) (h5 : sp.waits v.tenant (s'.regs c) s' = none) (off n : Nat)
    (h6 : readWaits sp v.tenant (s'.regs c) s' = some (off, n)) :
    specInstr c i sp s = stallRead c i false off n s' := by
  simp [specInstr, issue_begins h, h1, h2, h3, h4, h5, h6]

/-- A read of a word without an error mark changes nothing. -/
theorem readSram_clean {a : Nat} {s : State} (h : eccSeen s a = none) : readSram a s = ⟨wordSeen s a, false, s⟩ := by
  simp [readSram, h]

theorem readBlock_clean {s : State} :
    ∀ n a, CleanAt s a n → readBlock a n s = (wordsAt s a n, false, s)
  | 0, a, _ => rfl
  | n+1, a, h => by
    have h0 : eccSeen s a = none := by simpa using h 0 (by omega)
    have hn : CleanAt s (a + 4) n := fun i hi => by
      have := h (i + 1) (by omega); rwa [show a + 4 * (i + 1) = a + 4 + 4 * i by omega] at this
    simp only [readBlock, readSram_clean h0, readBlock_clean n _ hn, wordsAt]
    simp [List.range_succ_eq_map, Function.comp_def, Nat.mul_add, Nat.add_assoc, Nat.add_comm 4]

end Sys2Proof.Machine
end

