-- ==== Sys2Proof/Laws/Flow.lean ====
section
/-!
SUPPORT. Sys2Proof/Laws/Flow.lean: branches taken and not taken in the terms of Safety, and the number a unit family's
instance field names.
-/
namespace Sys2Proof.Machine

theorem setRegs_same (s : State) (c : CoreId) : s.setRegs c (s.regs c) = s := by
  have : vset s.cores c (vget s.cores c) = s.cores := by
    simp [vset, vget]
  simp [State.setRegs, State.setCore, State.regs, State.core, this]

/-- A taken branch with its registers already written. -/
theorem taken_jumps (c : CoreId) (v : Inv) (a : Word) (s : State) (r : Regs) :
    taken c v a (s.setRegs c r) = jumpsTo c v a s r := by
  simp only [taken, goTo, jumpsTo]
  cases hb : v.bind <;> simp

/-- A taken branch that writes no register. -/
theorem taken_jumps_same (c : CoreId) (v : Inv) (a : Word) (s : State) :
    taken c v a s = jumpsTo c v a s (s.regs c) := by
  rw [← taken_jumps, setRegs_same]

theorem notTaken_goesOn (c : CoreId) (s : State) : notTaken c s = goesOn c 1 s (s.regs c) := rfl

theorem unitNum_eq {n : Nat} [NeZero n] {f : UForm} {k : Fin n} (h : f.inst.toNat = k.val) : UForm.num n f = k := by
  apply Fin.ext; simp [UForm.num, finOf, Fin.ofNat, h, Nat.mod_eq_of_lt k.isLt]

end Sys2Proof.Machine
end

