-- ==== Sys2Proof/Laws/Memory.lean ====
section
/-!
SUPPORT. Sys2Proof/Laws/Memory.lean: the laws of memory: what a byte reads as after a write, and that every memory
operation keeps the canonical form.
-/
namespace Sys2Proof.Machine

open Host

/-! ## Canonical form -/

theorem rising_mono {lo k : Nat} {m : List Cell} (hk : k ≤ lo) (h : rising lo m = true) : rising k m = true := by
  cases m with
  | nil => rfl
  | cons c r =>
    obtain ⟨a, v⟩ := c
    simp only [rising, Bool.and_eq_true, decide_eq_true_eq] at h ⊢
    exact ⟨Nat.le_trans hk h.1, h.2⟩

theorem rising_cellSet {a : Nat} {v : Byte} : ∀ {lo : Nat} {m : List Cell}, rising lo m = true → lo ≤ a →
    rising lo (cellSet m a v) = true
  | _, [], _, hl => by simp [cellSet, rising, hl]
  | lo, (b, w) :: r, h, hl => by
    simp only [rising, Bool.and_eq_true, decide_eq_true_eq] at h
    unfold cellSet
    split
    · rename_i hb
      simp only [rising, Bool.and_eq_true, decide_eq_true_eq]
      exact ⟨h.1, rising_cellSet h.2 hb⟩
    · split
      · rename_i hb; subst hb
        simp only [rising, Bool.and_eq_true, decide_eq_true_eq]
        exact h
      · rename_i h1 h2
        simp only [rising, Bool.and_eq_true, decide_eq_true_eq]
        exact ⟨hl, by omega, h.2⟩

theorem rising_cellDel {a : Nat} : ∀ {lo : Nat} {m : List Cell}, rising lo m = true → rising lo (cellDel m a) = true
  | _, [], _ => rfl
  | lo, (b, w) :: r, h => by
    simp only [rising, Bool.and_eq_true, decide_eq_true_eq] at h
    unfold cellDel
    split
    · simp only [rising, Bool.and_eq_true, decide_eq_true_eq]
      exact ⟨h.1, rising_cellDel h.2⟩
    · split
      · exact rising_mono (by omega) h.2
      · simp only [rising, Bool.and_eq_true, decide_eq_true_eq]
        exact h

theorem rising_filter (p : Cell → Bool) : ∀ {lo : Nat} {m : List Cell}, rising lo m = true → rising lo (m.filter p) = true
  | _, [], _ => rfl
  | lo, (b, w) :: r, h => by
    simp only [rising, Bool.and_eq_true, decide_eq_true_eq] at h
    have ih := rising_filter p h.2
    rw [List.filter_cons]
    split
    · simp only [rising, Bool.and_eq_true, decide_eq_true_eq]
      exact ⟨h.1, ih⟩
    · exact rising_mono (by omega) ih

theorem mem_cellSet {a : Nat} {v : Byte} {c : Cell} : ∀ {m : List Cell}, c ∈ cellSet m a v → c = (a, v) ∨ c ∈ m
  | [], h => by simp [cellSet] at h; exact .inl h
  | (b, w) :: r, h => by
    unfold cellSet at h
    split at h
    · rcases List.mem_cons.1 h with h | h
      · exact .inr (h ▸ List.mem_cons_self ..)
      · rcases mem_cellSet h with h | h
        · exact .inl h
        · exact .inr (List.mem_cons_of_mem _ h)
    · split at h
      · rcases List.mem_cons.1 h with h | h
        · exact .inl h
        · exact .inr (List.mem_cons_of_mem _ h)
      · rcases List.mem_cons.1 h with h | h
        · exact .inl h
        · exact .inr h

theorem mem_cellDel {a : Nat} {c : Cell} : ∀ {m : List Cell}, c ∈ cellDel m a → c ∈ m
  | [], h => h
  | (b, w) :: r, h => by
    unfold cellDel at h
    split at h
    · rcases List.mem_cons.1 h with h | h
      · exact h ▸ List.mem_cons_self ..
      · exact List.mem_cons_of_mem _ (mem_cellDel h)
    · split at h
      · exact List.mem_cons_of_mem _ h
      · exact h

theorem wf_iff {m : List Cell} :
    Memory.wf m = true ↔ rising 0 m = true ∧ ∀ c ∈ m, c.2 ≠ unlisted c.1 := by
  simp [Memory.wf]

/-- The empty memory has the canonical form, and so has the memory of the reset. -/
theorem wf_nil : Memory.wf [] = true := rfl
theorem wf_reset : Memory.wf State.reset.mem = true := rfl

/-- A written byte keeps the canonical form. -/
@[simp] theorem wf_memPut {m : List Cell} (a : Nat) (v : Byte) (h : Memory.wf m = true) : Memory.wf (memPut m a v) = true := by
  rw [wf_iff] at h ⊢
  unfold memPut
  split
  · exact ⟨rising_cellDel h.1, fun c hc => h.2 c (mem_cellDel hc)⟩
  · rename_i hv
    refine ⟨rising_cellSet h.1 (Nat.zero_le _), fun c hc => ?_⟩
    rcases mem_cellSet hc with rfl | hc
    · exact hv
    · exact h.2 c hc

/-- Written bytes keep it. -/
@[simp] theorem wf_memPuts : ∀ (bs : List Byte) (m : List Cell) (a : Nat), Memory.wf m = true → Memory.wf (memPuts m a bs) = true
  | [], _, _, h => h
  | b :: r, _, a, h => wf_memPuts r _ (a + 1) (wf_memPut a b h)

/-- Cells left out keep it. -/
@[simp] theorem wf_filter (p : Cell → Bool) {m : List Cell} (h : Memory.wf m = true) : Memory.wf (m.filter p) = true := by
  rw [wf_iff] at h ⊢
  exact ⟨rising_filter p h.1, fun c hc => h.2 c (List.mem_filter.1 hc).1⟩

theorem wf_memForget {m : List Cell} (a n : Nat) (h : Memory.wf m = true) : Memory.wf (memForget m a n) = true :=
  wf_filter _ h

theorem wf_memZero {m : List Cell} (a n : Nat) (h : Memory.wf m = true) : Memory.wf (memZero m a n) = true :=
  wf_filter _ h

/-- The three operations of State that write memory keep it. -/
@[simp] theorem wf_putBytes {s : State} (a : Nat) (bs : List Byte) (h : Memory.wf s.mem = true) :
    Memory.wf (s.putBytes a bs).mem = true := wf_memPuts bs _ a h

@[simp] theorem wf_putWord {s : State} (a : Nat) (w : Word) (h : Memory.wf s.mem = true) :
    Memory.wf (s.putWord a w).mem = true := wf_memPuts _ _ a h

@[simp] theorem wf_zeroSpan {s : State} (a n : Nat) (h : Memory.wf s.mem = true) : Memory.wf (s.zeroSpan a n).mem = true :=
  wf_filter _ h

/-! ## Reading after a write -/

@[simp] theorem cellAt_cellSet_same (a : Nat) (v : Byte) : ∀ m : List Cell, cellAt (cellSet m a v) a = some v
  | [] => by simp [cellSet, cellAt]
  | (b, w) :: r => by
    unfold cellSet
    split
    · rename_i h
      rw [cellAt, if_neg (by omega)]; exact cellAt_cellSet_same a v r
    · split <;> simp [cellAt]

theorem cellAt_cellSet_other {a b : Nat} (v : Byte) (h : b ≠ a) : ∀ m : List Cell, cellAt (cellSet m a v) b = cellAt m b
  | [] => by simp [cellSet, cellAt, Ne.symm h]
  | (c, w) :: r => by
    unfold cellSet
    split
    · simp only [cellAt]; rw [cellAt_cellSet_other v h r]
    · split
      · rename_i hc; subst hc; simp [cellAt, Ne.symm h]
      · simp [cellAt, Ne.symm h]

theorem cellAt_cellDel_other {a b : Nat} (h : b ≠ a) : ∀ m : List Cell, cellAt (cellDel m a) b = cellAt m b
  | [] => rfl
  | (c, w) :: r => by
    unfold cellDel
    split
    · simp only [cellAt]; rw [cellAt_cellDel_other h r]
    · split
      · rename_i hc; subst hc; simp [cellAt, Ne.symm h]
      · rfl

/-- Below the first listed address nothing is listed. -/
theorem cellAt_below {a : Nat} : ∀ {lo : Nat} {m : List Cell}, rising lo m = true → a < lo → cellAt m a = none
  | _, [], _, _ => rfl
  | lo, (b, w) :: r, h, ha => by
    simp only [rising, Bool.and_eq_true, decide_eq_true_eq] at h
    rw [cellAt, if_neg (by omega)]
    exact cellAt_below h.2 (by omega)

theorem cellAt_cellDel_same {a : Nat} : ∀ {lo : Nat} {m : List Cell}, rising lo m = true → cellAt (cellDel m a) a = none
  | _, [], _ => rfl
  | lo, (b, w) :: r, h => by
    simp only [rising, Bool.and_eq_true, decide_eq_true_eq] at h
    unfold cellDel
    split
    · rename_i hb
      rw [cellAt, if_neg (by omega)]; exact cellAt_cellDel_same h.2
    · split
      · rename_i hb; subst hb; exact cellAt_below h.2 (by omega)
      · rename_i h1 h2
        rw [cellAt, if_neg h2]; exact cellAt_below h.2 (by omega)

/-- A byte written is the byte read. -/
theorem memGet_memPut_same {m : List Cell} (a : Nat) (v : Byte) (h : Memory.wf m = true) : memGet (memPut m a v) a = v := by
  unfold memGet memPut
  split
  · rename_i hv; rw [cellAt_cellDel_same (wf_iff.1 h).1]; exact hv.symm
  · simp

/-- A write leaves every other byte. -/
theorem memGet_memPut_other (m : List Cell) {a b : Nat} (v : Byte) (h : b ≠ a) : memGet (memPut m a v) b = memGet m b := by
  unfold memGet memPut
  split
  · rw [cellAt_cellDel_other h]
  · rw [cellAt_cellSet_other v h]

/-- Bytes written leave every byte outside them. -/
theorem memGet_memPuts_other : ∀ (bs : List Byte) (m : List Cell) (a b : Nat), b < a ∨ a + bs.length ≤ b →
    memGet (memPuts m a bs) b = memGet m b
  | [], _, _, _, _ => rfl
  | x :: r, m, a, b, h => by
    rw [memPuts, memGet_memPuts_other r _ (a + 1) b (by simp only [List.length_cons] at h; omega)]
    exact memGet_memPut_other m x (by simp only [List.length_cons] at h; omega)

/-- Each byte written is the byte read. -/
theorem memGet_memPuts_in : ∀ (bs : List Byte) (m : List Cell) (a i : Nat), Memory.wf m = true → (h : i < bs.length) →
    memGet (memPuts m a bs) (a + i) = bs[i]
  | [], _, _, _, _, h => absurd h (by simp)
  | x :: r, m, a, 0, hm, _ => by
    rw [memPuts, memGet_memPuts_other r _ (a + 1) (a + 0) (by omega)]
    exact memGet_memPut_same a x hm
  | x :: r, m, a, i + 1, hm, h => by
    have := memGet_memPuts_in r (memPut m a x) (a + 1) i (wf_memPut a x hm) (by simpa using h)
    rw [memPuts, show a + (i + 1) = a + 1 + i by omega, this]
    rfl

theorem cellAt_filter_in {p : Cell → Bool} {b : Nat} (hp : ∀ v, p (b, v) = false) :
    ∀ m : List Cell, cellAt (m.filter p) b = none
  | [] => rfl
  | (c, w) :: r => by
    rw [List.filter_cons]
    split
    · rename_i h
      have : c ≠ b := fun e => by subst e; rw [hp w] at h; cases h
      rw [cellAt, if_neg this]; exact cellAt_filter_in hp r
    · exact cellAt_filter_in hp r

theorem cellAt_filter_out {p : Cell → Bool} {b : Nat} (hp : ∀ v, p (b, v) = true) :
    ∀ m : List Cell, cellAt (m.filter p) b = cellAt m b
  | [] => rfl
  | (c, w) :: r => by
    rw [List.filter_cons]
    split
    · simp only [cellAt]; rw [cellAt_filter_out hp r]
    · rename_i h
      have : c ≠ b := fun e => by subst e; exact h (hp w)
      rw [cellAt, if_neg this]; exact cellAt_filter_out hp r

/-- A forgotten span reads as unlisted. -/
theorem memGet_memForget_in (m : List Cell) {a n b : Nat} (h : inSpan a n b = true) :
    memGet (memForget m a n) b = unlisted b := by
  unfold memGet memForget
  rw [cellAt_filter_in (by simp [h])]; rfl

/-- Outside it nothing changes. -/
theorem memGet_memForget_out (m : List Cell) {a n b : Nat} (h : inSpan a n b = false) :
    memGet (memForget m a n) b = memGet m b := by
  unfold memGet memForget
  rw [cellAt_filter_out (by simp [h])]

theorem memGets_length (m : List Cell) : ∀ (a n : Nat), (memGets m a n).length = n
  | _, 0 => rfl
  | a, n + 1 => by simp [memGets, memGets_length m (a + 1) n]

theorem memGets_congr {m m' : List Cell} : ∀ (a n : Nat), (∀ b, a ≤ b → b < a + n → memGet m b = memGet m' b) →
    memGets m a n = memGets m' a n
  | _, 0, _ => rfl
  | a, n + 1, h => by
    rw [memGets, memGets, h a (Nat.le_refl _) (by omega), memGets_congr (a + 1) n (fun b h1 h2 => h b (by omega) (by omega))]

/-- What was written is what is read back. -/
theorem memGets_memPuts (bs : List Byte) (m : List Cell) (a : Nat) (h : Memory.wf m = true) :
    memGets (memPuts m a bs) a bs.length = bs := by
  apply List.ext_getElem
  · exact memGets_length _ _ _
  · intro i h1 h2
    have key : ∀ (m : List Cell) (n a i : Nat) (h : i < (memGets m a n).length), (memGets m a n)[i] = memGet m (a + i) := by
      intro m n
      induction n with
      | zero => intro a i h; simp [memGets] at h
      | succ n ih =>
        intro a i h
        cases i with
        | zero => rfl
        | succ i =>
          simp only [memGets, List.getElem_cons_succ]
          rw [ih (a + 1) i]; congr 1; omega
    rw [key]; exact memGet_memPuts_in bs m a i h h2

end Sys2Proof.Machine
end

