-- ==== Sys2Proof/Laws/Ops.lean ====
section
/-!
SUPPORT. Sys2Proof/Laws/Ops.lean: for each operation that meanings share, one lemma that says what it can change (an
equation with the state it starts from), and what its effect on a core is.
-/
namespace Sys2Proof.Machine

/-! ## What each operation can change -/

theorem chargeQuota_only (t : Tid) (n : Nat) (s : State) :
    ∃ cs ts, chargeQuota t n s = { s with cores := cs, tenants := ts } := by
  obtain ⟨ts, h⟩ := rollPeriod_only t s
  unfold chargeQuota; dsimp only; rw [h]; split
  · exact ⟨_, _, rfl⟩
  · split <;> exact ⟨_, _, rfl⟩

theorem chargePart_only (c : CoreId) (n : Nat) (s : State) :
    ∃ cs ts, chargePart c n s = { s with cores := cs, tenants := ts } := by
  unfold chargePart addCycles; dsimp only; split
  · exact ⟨_, _, rfl⟩
  · rename_i i _
    generalize hk : State.setCore _ c _ = w
    obtain ⟨cs, ts, h⟩ := chargeQuota_only i.tenant (n - (s.core c).paid) w
    rw [h, ← hk]; exact ⟨_, _, rfl⟩

/-- Charging changes cores and tenants. -/
theorem charge_only (c : CoreId) (n : Nat) (s : State) : ∃ cs ts, charge c n s = { s with cores := cs, tenants := ts } := by
  obtain ⟨cs, ts, h⟩ := chargePart_only c n s
  unfold charge; dsimp only; rw [h]; exact ⟨_, _, rfl⟩

theorem fetchWait_only (c : CoreId) (s : State) :
    ∃ cs ts b, fetchWait c s = { s with cores := cs, tenants := ts, bankUse := b } := by
  unfold fetchWait; dsimp only
  generalize hw : useBanks c _ s = w
  obtain ⟨cs, ts, h⟩ := chargePart_only c (sramWait c (fetchBanks c s) s) w
  rw [h, ← hw]; exact ⟨_, _, _, rfl⟩

theorem modBinding_only (i : Inv) (f : Binding → Binding) (s : State) :
    ∃ bs, modBinding i f s = { s with bindings := bs } := by
  unfold modBinding; split
  · exact ⟨_, rfl⟩
  · split
    · exact ⟨_, rfl⟩
    · split <;> exact ⟨_, rfl⟩

/-- A fault changes cores, tenants, bindings and the host request in progress, nothing else (R50). -/
theorem fault_only (c : CoreId) (k : Nat) (a : Word) (s : State) :
    ∃ cs ts bs h, fault c k a s = { s with cores := cs, tenants := ts, bindings := bs, host := h } := by
  unfold fault; split
  · exact ⟨_, _, _, _, rfl⟩
  · rename_i i _
    obtain ⟨bs, h⟩ := modBinding_only i bindFault (recordFault i k a s)
    dsimp only; rw [h]; split
    · exact ⟨_, _, _, _, rfl⟩
    · split <;> exact ⟨_, _, _, _, rfl⟩

/-- A boundary does no more than a fault. -/
theorem boundary_only (c : CoreId) (s : State) :
    ∃ cs ts bs h, boundary c s = { s with cores := cs, tenants := ts, bindings := bs, host := h } := by
  unfold boundary; split
  · exact ⟨_, _, _, _, rfl⟩
  · split
    · exact ⟨_, _, _, _, rfl⟩
    · split
      · exact fault_only ..
      · exact ⟨_, _, _, _, rfl⟩

theorem goTo_only (c : CoreId) (v : Inv) (a : Word) (s : State) :
    ∃ cs ts bs h, goTo c v a s = { s with cores := cs, tenants := ts, bindings := bs, host := h } := by
  unfold goTo; dsimp only; split
  · exact ⟨_, _, _, _, rfl⟩
  · split
    · obtain ⟨cs, ts, bs, h, e⟩ := fault_only c fltFetch a (s.setRegs c { s.regs c with pc := a })
      rw [e]; exact ⟨_, _, _, _, rfl⟩
    · exact ⟨_, _, _, _, rfl⟩

theorem countRefusal_only (t : Tid) (st : BitVec 8) (s : State) :
    ∃ ts, countRefusal t st s = { s with tenants := ts } := by
  unfold countRefusal; split
  · exact ⟨_, rfl⟩
  · split <;> exact ⟨_, rfl⟩

/-- Retirement changes cores and tenants, nothing else. -/
theorem retire_only (c : CoreId) (t : Tid) (st : BitVec 8) (u : Regs → Regs) (n : Nat) (s : State) :
    ∃ cs ts, retire c t st u n s = { s with cores := cs, tenants := ts } := by
  obtain ⟨ts, h⟩ := countRefusal_only t st s
  unfold retire; dsimp only; rw [h]
  generalize hw : State.setCore _ c _ = w
  obtain ⟨cs, ts', e⟩ := charge_only c n w
  rw [e, ← hw]; exact ⟨_, _, rfl⟩

theorem wakeDomain_only (f : Func) (s : State) : ∃ p, wakeDomain f s = { s with sleep := p } := by
  unfold wakeDomain; dsimp only; split
  · exact ⟨_, rfl⟩
  · split <;> exact ⟨_, rfl⟩

theorem warmSensor_only (i : Instr) (f : Func) (s : State) : ∃ x, warmSensor i f s = { s with sensors := x } := by
  unfold warmSensor; split
  · split
    · dsimp only; split <;> exact ⟨_, rfl⟩
    · exact ⟨_, rfl⟩
  · exact ⟨_, rfl⟩

/-- A stall changes the core, and the domain and the sensor that it wakes. -/
theorem stallOn_only (c : CoreId) (i : Instr) (b : Bool) (f : Func) (s : State) :
    ∃ cs p x, stallOn c i b f s = { s with cores := cs, sleep := p, sensors := x } := by
  obtain ⟨p, hp⟩ := wakeDomain_only f s
  obtain ⟨x, hx⟩ := warmSensor_only i f (wakeDomain f s)
  unfold stallOn; dsimp only; split
  · rw [hx, hp]; exact ⟨_, _, _, rfl⟩
  · exact ⟨_, _, _, rfl⟩

/-- A read of flash that waits changes the core. -/
theorem stallRead_only (c : CoreId) (i : Instr) (b : Bool) (off n : Nat) (s : State) :
    ∃ cs, stallRead c i b off n s = { s with cores := cs } := ⟨_, rfl⟩

theorem longStall_only (s : State) (c : CoreId) : ∃ cs ts, longStall s c = { s with cores := cs, tenants := ts } := by
  unfold longStall; split
  · split <;> exact ⟨_, _, rfl⟩
  · exact ⟨_, _, rfl⟩

theorem longStalls_only (s : State) : ∃ cs ts, longStalls s = { s with cores := cs, tenants := ts } := by
  have key : ∀ (l : List CoreId) (s : State), ∃ cs ts, l.foldl longStall s = { s with cores := cs, tenants := ts } := by
    intro l
    induction l with
    | nil => intro s; exact ⟨_, _, rfl⟩
    | cons c r ih =>
      intro s
      obtain ⟨cs, ts, h⟩ := longStall_only s c
      obtain ⟨cs', ts', h'⟩ := ih (longStall s c)
      rw [List.foldl, h', h]; exact ⟨_, _, rfl⟩
  exact key _ s

theorem readSram_only (a : Nat) (s : State) : ∃ n, (readSram a s).s = { s with eccCnt := n } := by
  unfold readSram; dsimp only; split <;> exact ⟨_, rfl⟩

theorem readBlock_only : ∀ (n a : Nat) (s : State), ∃ k, (readBlock a n s).2.2 = { s with eccCnt := k }
  | 0, _, _ => ⟨_, rfl⟩
  | n + 1, a, s => by
    obtain ⟨k, h⟩ := readSram_only a s
    obtain ⟨k', h'⟩ := readBlock_only n (a + 4) (readSram a s).s
    rw [readBlock]; dsimp only
    rw [h', h]; exact ⟨_, rfl⟩

/-! ## Memory and time under each of them -/

@[simp] theorem charge_mem (c : CoreId) (n : Nat) (s : State) : (charge c n s).mem = s.mem := by
  obtain ⟨_, _, h⟩ := charge_only c n s; rw [h]
@[simp] theorem charge_time (c : CoreId) (n : Nat) (s : State) : (charge c n s).time = s.time := by
  obtain ⟨_, _, h⟩ := charge_only c n s; rw [h]
@[simp] theorem chargePart_mem (c : CoreId) (n : Nat) (s : State) : (chargePart c n s).mem = s.mem := by
  obtain ⟨_, _, h⟩ := chargePart_only c n s; rw [h]
@[simp] theorem fetchWait_mem (c : CoreId) (s : State) : (fetchWait c s).mem = s.mem := by
  obtain ⟨_, _, _, h⟩ := fetchWait_only c s; rw [h]
@[simp] theorem stallRead_mem (c : CoreId) (i : Instr) (b : Bool) (off n : Nat) (s : State) :
    (stallRead c i b off n s).mem = s.mem := rfl
@[simp] theorem endInv_mem (c : CoreId) (s : State) : (endInv c s).mem = s.mem := rfl
@[simp] theorem endInv_time (c : CoreId) (s : State) : (endInv c s).time = s.time := rfl
@[simp] theorem fault_mem (c : CoreId) (k : Nat) (a : Word) (s : State) : (fault c k a s).mem = s.mem := by
  obtain ⟨_, _, _, _, h⟩ := fault_only c k a s; rw [h]
@[simp] theorem fault_time (c : CoreId) (k : Nat) (a : Word) (s : State) : (fault c k a s).time = s.time := by
  obtain ⟨_, _, _, _, h⟩ := fault_only c k a s; rw [h]
@[simp] theorem boundary_mem (c : CoreId) (s : State) : (boundary c s).mem = s.mem := by
  obtain ⟨_, _, _, _, h⟩ := boundary_only c s; rw [h]
@[simp] theorem goTo_mem (c : CoreId) (v : Inv) (a : Word) (s : State) : (goTo c v a s).mem = s.mem := by
  obtain ⟨_, _, _, _, h⟩ := goTo_only c v a s; rw [h]
@[simp] theorem countRefusal_mem (t : Tid) (st : BitVec 8) (s : State) : (countRefusal t st s).mem = s.mem := by
  obtain ⟨_, h⟩ := countRefusal_only t st s; rw [h]
@[simp] theorem retire_mem (c : CoreId) (t : Tid) (st : BitVec 8) (u : Regs → Regs) (n : Nat) (s : State) :
    (retire c t st u n s).mem = s.mem := by
  obtain ⟨_, _, h⟩ := retire_only c t st u n s; rw [h]
@[simp] theorem retire_time (c : CoreId) (t : Tid) (st : BitVec 8) (u : Regs → Regs) (n : Nat) (s : State) :
    (retire c t st u n s).time = s.time := by
  obtain ⟨_, _, h⟩ := retire_only c t st u n s; rw [h]
@[simp] theorem stallOn_mem (c : CoreId) (i : Instr) (b : Bool) (f : Func) (s : State) :
    (stallOn c i b f s).mem = s.mem := by
  obtain ⟨_, _, _, h⟩ := stallOn_only c i b f s; rw [h]
@[simp] theorem stallOn_time (c : CoreId) (i : Instr) (b : Bool) (f : Func) (s : State) :
    (stallOn c i b f s).time = s.time := by
  obtain ⟨_, _, _, h⟩ := stallOn_only c i b f s; rw [h]
@[simp] theorem longStalls_mem (s : State) : (longStalls s).mem = s.mem := by
  obtain ⟨_, _, h⟩ := longStalls_only s; rw [h]
@[simp] theorem longStalls_time (s : State) : (longStalls s).time = s.time := by
  obtain ⟨_, _, h⟩ := longStalls_only s; rw [h]
@[simp] theorem readSram_mem (a : Nat) (s : State) : (readSram a s).s.mem = s.mem := by
  obtain ⟨_, h⟩ := readSram_only a s; rw [h]
@[simp] theorem readBlock_mem (a n : Nat) (s : State) : (readBlock a n s).2.2.mem = s.mem := by
  obtain ⟨_, h⟩ := readBlock_only n a s; rw [h]
@[simp] theorem cacheTouch_mem (a : Nat) (s : State) : (cacheTouch a s).2.mem = s.mem := rfl
@[simp] theorem cacheInval_mem (a n : Nat) (s : State) : (cacheInval a n s).mem = s.mem := rfl
@[simp] theorem wakeDomain_mem (f : Func) (s : State) : (wakeDomain f s).mem = s.mem := by
  obtain ⟨_, h⟩ := wakeDomain_only f s; rw [h]
@[simp] theorem flashRead_mem (off fill : Nat) (s : State) : (flashRead off fill s).mem = s.mem := by
  unfold flashRead; dsimp only; split
  · rfl
  · split
    · split <;> rfl
    · rfl

/-- A fetch leaves memory as it is, whether it answers a word or not. -/
theorem fetch_mem {c : CoreId} {i : Instr} {v : Inv} {s u : State} (h : fetch c i v s = .ok u ∨ fetch c i v s = .done u) :
    u.mem = s.mem := by
  unfold fetch at h
  dsimp only at h
  repeat' split at h
  all_goals (rcases h with h | h <;> cases h <;> simp)

/-- An instruction keeps a property of memory that what it does after its fetch keeps. -/
theorem issue_keeps (c : CoreId) (i : Instr) (s : State) (k : Inv → State → State) (p : List Host.Cell → Prop)
    (h : p s.mem) (hk : ∀ v u, p u.mem → p (k v u).mem) : p (issue c i s k).mem := by
  unfold issue; split
  · exact h
  · split
    · exact h
    · split
      · exact hk _ _ h
      · split
        · simpa using h
        · split <;> rename_i hf
          · rw [fetch_mem (.inr hf)]; exact h
          · exact hk _ _ (by rw [fetch_mem (.inl hf)]; exact h)

/-- An instruction changes memory only where what it does after its fetch changes memory. -/
theorem issue_mem (c : CoreId) (i : Instr) (s : State) (k : Inv → State → State)
    (hk : ∀ v u, u.mem = s.mem → (k v u).mem = s.mem) : (issue c i s k).mem = s.mem :=
  issue_keeps c i s k (· = s.mem) rfl hk

/-- ALU, VEC and FLOW instructions leave memory as it is. -/
theorem plainInstr_mem (c : CoreId) (i : Instr) (ok : Bool) (n : Nat) (f : Regs → Regs) (s : State) :
    (plainInstr c i ok n f s).mem = s.mem := by
  unfold plainInstr
  apply issue_mem
  intro v u hu
  split <;> simpa using hu

/-- A status-writing instruction keeps a property of memory that its body and what follows its retirement keep. -/
theorem specInstr_keeps (c : CoreId) (i : Instr) (sp : Spec) (s : State) (p : List Host.Cell → Prop) (h : p s.mem)
    (hb : ∀ t r u, p u.mem → p (sp.body c t r u).s.mem)
    (ha : ∀ t r u w, p w.mem → p ((sp.body c t r u).after w).mem) : p (specInstr c i sp s).mem := by
  unfold specInstr
  apply issue_keeps _ _ _ _ _ h
  intro v u hu
  dsimp only
  repeat' split
  all_goals first
    | (apply ha; simpa using hb _ _ _ hu)
    | exact hb _ _ _ hu
    | simpa using hu

/-- A status-writing instruction changes memory only by its body and by what follows its retirement. -/
theorem specInstr_mem (c : CoreId) (i : Instr) (sp : Spec) (s : State)
    (hb : ∀ t r u, u.mem = s.mem → (sp.body c t r u).s.mem = s.mem)
    (ha : ∀ t r u w, w.mem = s.mem → ((sp.body c t r u).after w).mem = s.mem) : (specInstr c i sp s).mem = s.mem :=
  specInstr_keeps c i sp s (· = s.mem) rfl hb ha

/-- The canonical form of memory passes through an instruction when its body and what follows it keep it. -/
theorem specInstr_wf (c : CoreId) (i : Instr) (sp : Spec) (s : State) (h : Memory.wf s.mem = true)
    (hb : ∀ t r u, Memory.wf u.mem = true → Memory.wf (sp.body c t r u).s.mem = true)
    (ha : ∀ t r u w, Memory.wf w.mem = true → Memory.wf ((sp.body c t r u).after w).mem = true) :
    Memory.wf (specInstr c i sp s).mem = true :=
  specInstr_keeps c i sp s (fun m => Memory.wf m = true) h hb ha

/-! ## Effects on a core -/

/-- A core after the end of its invocation (R50.2). -/
theorem endInv_core (c : CoreId) (s : State) :
    (endInv c s).core c =
      { s.core c with
        inv := none, stall := none, resuming := false, paid := 0, goAt := s.time.clk + 1, wokeEnd := true } := by
  simp [endInv]

theorem endInv_other {c d : CoreId} (s : State) (h : c ≠ d) : (endInv c s).core d = s.core d := by
  simp [endInv, core_setCore_other _ _ h]

/-- A fault on a core that holds an invocation frees it and leaves every other core (R50). -/
theorem fault_frees {c : CoreId} {v : Inv} {s : State} (k : Nat) (a : Word) (h : (s.core c).inv = some v) :
    ((fault c k a s).core c).inv = none := by
  unfold fault; rw [h]; dsimp only; rw [endInv_core]

theorem fault_other {c d : CoreId} {s : State} (k : Nat) (a : Word) (h : c ≠ d) : (fault c k a s).core d = s.core d := by
  unfold fault; split
  · rfl
  · rename_i i _
    dsimp only
    rw [endInv_other _ h]
    obtain ⟨bs, hb⟩ := modBinding_only i bindFault (recordFault i k a s)
    split
    · rw [hb]; rfl
    · split
      · rw [hb]; rfl
      · rw [hb]; rfl

/-- A fault of a core with no invocation does nothing. -/
theorem fault_idle {c : CoreId} {s : State} (k : Nat) (a : Word) (h : (s.core c).inv = none) : fault c k a s = s := by
  simp [fault, h]

/-- Charging leaves the registers of every core. -/
theorem charge_regs (c d : CoreId) (n : Nat) (s : State) : (charge c n s).regs d = s.regs d := (charge_core c n s d).1

/-- A retired instruction's core: its registers with FL.STAT and the next address, and nothing left to resume. -/
theorem retire_regs (c : CoreId) (t : Tid) (st : BitVec 8) (u : Regs → Regs) (n : Nat) (s : State) :
    (retire c t st u n s).regs c =
      { u (s.regs c) with fl := (u (s.regs c)).fl.setStat st, pc := (s.regs c).pc + 4 } := by
  unfold retire; dsimp only
  rw [charge_regs]
  have h : (countRefusal t st s).regs c = s.regs c := by
    obtain ⟨_, e⟩ := countRefusal_only t st s; rw [e]; rfl
  unfold State.regs at h ⊢
  simp only [core_setCore_same, State.setRegs, h]

theorem retire_other {c d : CoreId} (t : Tid) (st : BitVec 8) (u : Regs → Regs) (n : Nat) (s : State) (hd : c ≠ d) :
    (retire c t st u n s).regs d = s.regs d := by
  unfold retire; dsimp only
  rw [charge_regs]
  have h : (countRefusal t st s).regs d = s.regs d := by
    obtain ⟨_, e⟩ := countRefusal_only t st s; rw [e]; rfl
  unfold State.regs at h ⊢
  rw [core_setCore_other _ _ hd]
  show ((State.setCore _ c _).core d).regs = _
  rw [core_setCore_other _ _ hd]; exact h

/-! ## Events of a clock -/

/-- A command acts where no instruction of the clock has let its event act before. -/
theorem unlessEarly_acts (i : Instr) (k : State → State) (s : State) (h : i ∉ s.early) : unlessEarly i k s = k s := by
  simp [unlessEarly, h]

/-- A command whose event has acted already only leaves the list of such events. -/
theorem unlessEarly_acted (i : Instr) (k : State → State) (s : State) (h : i ∈ s.early) :
    unlessEarly i k s = { s with early := s.early.erase i } := by
  simp [unlessEarly, h]

theorem offerRaised_only (s : State) (r : Raised) :
    ∃ b x, offerRaised s r = { s with bindings := b, ctx := x } := ⟨_, _, rfl⟩

/-- A timer that is not due does nothing at the end of a clock. -/
theorem expireTimer_idle (s : State) (n : Fin 8) (h : (vget s.timers n).due = none) : expireTimer s n = s := by
  simp only [expireTimer, h]

theorem expireTimers_idle (l : List (Fin 8)) (s : State) (h : ∀ n, (vget s.timers n).due = none) :
    l.foldl expireTimer s = s := by
  induction l with
  | nil => rfl
  | cons n l ih => rw [List.foldl, expireTimer_idle s n (h n), ih]

/-- The end of a clock in which no timer is due: every event is offered in order, then the WAITs that stay expired. -/
theorem endEvents_idle (s : State) (h : ∀ n, (vget s.timers n).due = none) :
    endEvents s =
      (let t := s.raised.foldl offerRaised s
       { t with ctx := vmap (timeoutSaved t.time.clk) t.ctx, raised := [] }) := by
  simp only [endEvents, expireTimers_idle _ s h]

end Sys2Proof.Machine
end

