-- ==== Sys2Proof/Laws/MemFrame.lean ====
section
/-!
SUPPORT. Sys2Proof/Laws/MemFrame.lean: which shared operations leave memory as it is, and that those which write it keep
its canonical form. Each lemma is cited by the lemmas of the operations that call its operation.
-/
namespace Sys2Proof.Machine
@[simp] theorem forEach_mem {α : Type} (l : List α) (f : α → State → State) (s : State)
    (h : ∀ a s, (f a s).mem = s.mem) : (forEach l f s).mem = s.mem := by
  unfold forEach
  induction l generalizing s with
  | nil => rfl
  | cons a r ih => simp only [List.foldl]; rw [ih, h]
@[simp] theorem foldl_mem {α : Type} (l : List α) (f : State → α → State) (s : State)
    (h : ∀ s a, (f s a).mem = s.mem) : (l.foldl f s).mem = s.mem := by
  induction l generalizing s with
  | nil => rfl
  | cons a r ih => simp only [List.foldl]; rw [ih, h]
@[simp] theorem modBinding_mem (i : Inv) (f : Binding → Binding) (s : State) : (modBinding i f s).mem = s.mem := by
  obtain ⟨_, h⟩ := modBinding_only i f s; rw [h]
@[simp] theorem forEach_wf {α : Type} (l : List α) (f : α → State → State) (s : State)
    (hs : Memory.wf s.mem = true) (h : ∀ a s, Memory.wf s.mem = true → Memory.wf (f a s).mem = true) :
    Memory.wf (forEach l f s).mem = true := by
  unfold forEach
  induction l generalizing s with
  | nil => exact hs
  | cons a r ih => exact ih _ (h _ _ hs)
@[simp] theorem foldl_wf {α : Type} (l : List α) (f : State → α → State) (s : State)
    (hs : Memory.wf s.mem = true) (h : ∀ s a, Memory.wf s.mem = true → Memory.wf (f s a).mem = true) :
    Memory.wf (l.foldl f s).mem = true := by
  induction l generalizing s with
  | nil => exact hs
  | cons a r ih => exact ih _ (h _ _ hs)
@[simp] theorem eta_snd_mem {α : Type} (x : α) (s : State) : (x, s).2.mem = s.mem := rfl
@[simp] theorem offerRaised_mem (s : State) (r : Raised) : (offerRaised s r).mem = s.mem := by
  unfold offerRaised <;> (try dsimp only) <;> (repeat' split) <;> first | (simp; done) | (simp_all; done) | rfl
@[simp] theorem rollPeriod_mem (t : Tid) (s : State) : (rollPeriod t s).mem = s.mem := by
  unfold rollPeriod <;> (try dsimp only) <;> (repeat' split) <;> first | (simp; done) | (simp_all; done) | rfl
@[simp] theorem chargeQuota_mem (t : Tid) (n : Nat) (s : State) : (chargeQuota t n s).mem = s.mem := by
  unfold chargeQuota <;> (try dsimp only) <;> (repeat' split) <;> first | (simp; done) | (simp_all; done) | rfl
@[simp] theorem addCycles_mem (c : CoreId) (n : Nat) (s : State) : (addCycles c n s).mem = s.mem := by
  unfold addCycles <;> (try dsimp only) <;> (repeat' split) <;> first | (simp; done) | (simp_all; done) | rfl
@[simp] theorem recordFault_mem (i : Inv) (code : Nat) (addr : Word) (s : State) : (recordFault i code addr s).mem = s.mem := by
  unfold recordFault <;> (try dsimp only) <;> (repeat' split) <;> first | (simp; done) | (simp_all; done) | rfl
@[simp] theorem warmSensor_mem (i : Instr) (f : Func) (s : State) : (warmSensor i f s).mem = s.mem := by
  unfold warmSensor <;> (try dsimp only) <;> (repeat' split) <;> first | (simp; done) | (simp_all; done) | rfl
@[simp] theorem longStall_mem (s : State) (c : CoreId) : (longStall s c).mem = s.mem := by
  unfold longStall <;> (try dsimp only) <;> (repeat' split) <;> first | (simp; done) | (simp_all; done) | rfl
@[simp] theorem countEcc_mem (a : Nat) (e : EccMark) (s : State) : (countEcc a e s).mem = s.mem := by
  unfold countEcc <;> (try dsimp only) <;> (repeat' split) <;> first | (simp; done) | (simp_all; done) | rfl
@[simp] theorem putWord_wf (s : State) (a : Nat) (w : Word) (h : Memory.wf s.mem = true) : Memory.wf (State.putWord s a w).mem = true := by
  unfold State.putWord <;> (try dsimp only) <;> (repeat' split) <;> first | exact h | (simp [h]; done) | (simp_all; done)
@[simp] theorem flashTouch_mem (s : State) : (flashTouch s).mem = s.mem := by
  unfold flashTouch <;> (try dsimp only) <;> (repeat' split) <;> first | (simp; done) | (simp_all; done) | rfl
@[simp] theorem suspendOp_mem (fill : Nat) (s : State) : (suspendOp fill s).mem = s.mem := by
  unfold suspendOp <;> (try dsimp only) <;> (repeat' split) <;> first | (simp; done) | (simp_all; done) | rfl
@[simp] theorem suspendClock_mem (s : State) : (suspendClock s).mem = s.mem := by
  unfold suspendClock <;> (try dsimp only) <;> (repeat' split) <;> first | (simp; done) | (simp_all; done) | rfl
/-- A FLOW instruction keeps a property of memory that its own effect keeps. -/
theorem flowInstr_keeps (c : CoreId) (i : Instr) (ok : Bool) (k : Inv → Regs → State → State) (s : State)
    (p : List Host.Cell → Prop) (h : p s.mem) (hk : ∀ v r u, p u.mem → p (k v r u).mem) : p (flowInstr c i ok k s).mem := by
  unfold flowInstr
  apply issue_keeps _ _ _ _ _ h
  intro v u hu
  split
  · exact hk _ _ _ hu
  · simpa using hu
@[simp] theorem taken_mem (c : CoreId) (v : Inv) (target : Word) (s : State) : (taken c v target s).mem = s.mem := by
  unfold taken <;> (try dsimp only) <;> (repeat' split) <;> first | (simp; done) | (simp_all; done) | rfl
@[simp] theorem notTaken_mem (c : CoreId) (s : State) : (notTaken c s).mem = s.mem := by
  unfold notTaken <;> (try dsimp only) <;> (repeat' split) <;> first | (simp; done) | (simp_all; done) | rfl
@[simp] theorem branchIf_mem (c : CoreId) (v : Inv) (cond : Bool) (target : Word) (s : State) : (branchIf c v cond target s).mem = s.mem := by
  unfold branchIf <;> (try dsimp only) <;> (repeat' split) <;> first | (simp; done) | (simp_all; done) | rfl
@[simp] theorem callTo_mem (c : CoreId) (v : Inv) (target : Word) (s : State) : (callTo c v target s).mem = s.mem := by
  unfold callTo <;> (try dsimp only) <;> (repeat' split) <;> first | (simp; done) | (simp_all; done) | rfl
@[simp] theorem installBinding_mem (k : Nat) (b : BindBlock) (s : State) : (installBinding k b s).mem = s.mem := by
  unfold installBinding <;> (try dsimp only) <;> (repeat' split) <;> first | (simp; done) | (simp_all; done) | rfl
@[simp] theorem saveCtx_mem (c : CoreId) (k : Nat) (kind : SavedKind) (s : State) : (saveCtx c k kind s).mem = s.mem := by
  unfold saveCtx <;> (try dsimp only) <;> (repeat' split) <;> first | (simp; done) | (simp_all; done) | rfl
@[simp] theorem exitInv_mem (c : CoreId) (s : State) : (exitInv c s).mem = s.mem := by
  unfold exitInv <;> (try dsimp only) <;> (repeat' split) <;> first | (simp; done) | (simp_all; done) | rfl
@[simp] theorem withdrawCmp_mem (n : Fin 8) (s : State) : (withdrawCmp n s).mem = s.mem := by
  unfold withdrawCmp <;> (try dsimp only) <;> (repeat' split) <;> first | (simp; done) | (simp_all; done) | rfl
@[simp] theorem armTimer_mem (n : Fin 8) (k : TimerKind) (t : Tid) (s : State) : (armTimer n k t s).mem = s.mem := by
  unfold armTimer <;> (try dsimp only) <;> (repeat' split) <;> first | (simp; done) | (simp_all; done) | rfl
@[simp] theorem noteCompares_mem (s : State) : (noteCompares s).mem = s.mem := by
  unfold noteCompares <;> (try dsimp only) <;> (repeat' split) <;> first | (simp; done) | (simp_all; done) | rfl
@[simp] theorem expireTimer_mem (s : State) (n : Fin 8) : (expireTimer s n).mem = s.mem := by
  unfold expireTimer <;> (try dsimp only) <;> (repeat' split) <;> first | (simp; done) | (simp_all; done) | rfl
@[simp] theorem endEvents_mem (s : State) : (endEvents s).mem = s.mem := by
  unfold endEvents <;> (try dsimp only) <;> (repeat' split) <;> first | (simp; done) | (simp_all; done) | rfl
@[simp] theorem startBinding_mem (c : CoreId) (k : Nat) (s : State) : (startBinding c k s).mem = s.mem := by
  unfold startBinding <;> (try dsimp only) <;> (repeat' split) <;> first | (simp; done) | (simp_all; done) | rfl
@[simp] theorem resumeSaved_mem (c : CoreId) (k : Nat) (s : State) : (resumeSaved c k s).mem = s.mem := by
  unfold resumeSaved <;> (try dsimp only) <;> (repeat' split) <;> first | (simp; done) | (simp_all; done) | rfl
@[simp] theorem dispatchHandler_mem (c : CoreId) (s : State) : (dispatchHandler c s).mem = s.mem := by
  unfold dispatchHandler <;> (try dsimp only) <;> (repeat' split) <;> first | (simp; done) | (simp_all; done) | rfl
@[simp] theorem quotaEnd_mem (t : Tid) (s : State) (c : CoreId) : (quotaEnd t s c).mem = s.mem := by
  unfold quotaEnd <;> (try dsimp only) <;> (repeat' split) <;> first | (simp; done) | (simp_all; done) | rfl
@[simp] theorem clockCore_mem (s : State) (c : CoreId) : (clockCore s c).mem = s.mem := by
  unfold clockCore <;> (try dsimp only) <;> (repeat' split) <;> first | (simp; done) | (simp_all; done) | rfl
@[simp] theorem clockCores_mem (s : State) : (clockCores s).mem = s.mem := by
  unfold clockCores <;> (try dsimp only) <;> (repeat' split) <;> first | (simp; done) | (simp_all; done) | rfl
@[simp] theorem modSensor_mem (s : State) (i : SensorId) (f : Sensor → Sensor) : (State.modSensor s i f).mem = s.mem := by
  unfold State.modSensor <;> (try dsimp only) <;> (repeat' split) <;> first | (simp; done) | (simp_all; done) | rfl
@[simp] theorem modLane_mem (s : State) (l : LaneId) (f : Lane → Lane) : (State.modLane s l f).mem = s.mem := by
  unfold State.modLane <;> (try dsimp only) <;> (repeat' split) <;> first | (simp; done) | (simp_all; done) | rfl
@[simp] theorem modPort_mem (s : State) (p : PortId) (f : Port → Port) : (State.modPort s p f).mem = s.mem := by
  unfold State.modPort <;> (try dsimp only) <;> (repeat' split) <;> first | (simp; done) | (simp_all; done) | rfl
/-- The events of a unit's own that act first keep a property of memory that each keeps. -/
theorem ownFirst_keeps (mine : Instr → Option (State → State)) (s : State) (p : List Host.Cell → Prop) (h : p s.mem)
    (hm : ∀ i f u, mine i = some f → p u.mem → p (f u).mem) : p (ownFirst mine s).mem := by
  have key : ∀ (l : List Instr) (q : State × List Instr), p q.1.mem →
      p ((l.foldl (fun (p : State × List Instr) i =>
        if p.2.contains i then (p.1, p.2.erase i)
        else match mine i with
          | some f => (let t := f p.1; { t with early := t.early ++ [i] }, p.2)
          | none => p) q).1).mem := by
    intro l
    induction l with
    | nil => exact fun _ hq => hq
    | cons i r ih =>
      intro q hq
      apply ih
      dsimp only
      by_cases hc : q.2.contains i = true
      · rw [if_pos hc]; exact hq
      · rw [if_neg hc]
        cases hi : mine i with
        | none => exact hq
        | some f => exact hm i f q.1 hi hq
  exact key _ _ h
/-- A unit none of whose own events waits lets none act first. -/
theorem ownFirst_quiet (mine : Instr → Option (State → State)) (s : State) (h : ∀ i ∈ s.pending, mine i = none) :
    ownFirst mine s = s := by
  have key : ∀ (l : List Instr) (q : State × List Instr), (∀ i ∈ l, mine i = none) →
      (l.foldl (fun (p : State × List Instr) i =>
        if p.2.contains i then (p.1, p.2.erase i)
        else match mine i with
          | some f => (let t := f p.1; { t with early := t.early ++ [i] }, p.2)
          | none => p) q).1 = q.1 := by
    intro l
    induction l with
    | nil => exact fun _ _ => rfl
    | cons i r ih =>
      intro q hl
      have h1 := hl i (by simp)
      rw [List.foldl, ih _ (fun j hj => hl j (by simp [hj]))]
      rw [h1]; split <;> rfl
  exact key _ _ h
@[simp] theorem unlessEarlyIf_mem (p : Instr → Bool) (k : State → State) (s : State) (h : ∀ u, (k u).mem = u.mem) :
    (unlessEarlyIf p k s).mem = s.mem := by
  unfold unlessEarlyIf; split
  · rfl
  · exact h s
theorem unlessEarlyIf_wf (p : Instr → Bool) (k : State → State) (s : State) (hs : Memory.wf s.mem = true)
    (h : ∀ u, Memory.wf u.mem = true → Memory.wf (k u).mem = true) : Memory.wf (unlessEarlyIf p k s).mem = true := by
  unfold unlessEarlyIf; split
  · exact hs
  · exact h s hs
@[simp] theorem unlessEarly_mem (i : Instr) (k : State → State) (s : State) (h : ∀ u, (k u).mem = u.mem) :
    (unlessEarly i k s).mem = s.mem := by
  unfold unlessEarly; split
  · rfl
  · exact h s
theorem unlessEarly_wf (i : Instr) (k : State → State) (s : State) (hs : Memory.wf s.mem = true)
    (h : ∀ u, Memory.wf u.mem = true → Memory.wf (k u).mem = true) : Memory.wf (unlessEarly i k s).mem = true := by
  unfold unlessEarly; split
  · exact hs
  · exact h s hs
@[simp] theorem orWord7_wf (x : Ring) (k : Nat) (bits : Word) (s : State) (h : Memory.wf s.mem = true) : Memory.wf (orWord7 x k bits s).mem = true := by
  unfold orWord7 <;> (try dsimp only) <;> (repeat' split) <;> first | exact h | (simp [h]; done) | (simp_all; done)
@[simp] theorem ringNotice_mem (n : RingId) (kind : Nat) (stamp : Nat) (s : State) : (ringNotice n kind stamp s).mem = s.mem := by
  unfold ringNotice <;> (try dsimp only) <;> (repeat' split) <;> first | (simp; done) | (simp_all; done) | rfl
@[simp] theorem ringDone_mem (n : RingId) (s : State) : (ringDone n s).mem = s.mem := by
  unfold ringDone <;> (try dsimp only) <;> (repeat' split) <;> first | (simp; done) | (simp_all; done) | rfl
@[simp] theorem ringTrigger_wf (n : RingId) (src : Nat) (stamp : Nat) (s : State) (h : Memory.wf s.mem = true) : Memory.wf (ringTrigger n src stamp s).mem = true := by
  unfold ringTrigger <;> (try dsimp only) <;> (repeat' split) <;> first | exact h | (simp [h]; done) | (simp_all; done)
@[simp] theorem ringOffer_mem (l : LaneId) (ws : Words) (n : RingId) (s : State) : (ringOffer l ws n s).mem = s.mem := by
  unfold ringOffer <;> (try dsimp only) <;> (repeat' split) <;> first | (simp; done) | (simp_all; done) | rfl
@[simp] theorem writeEntry_wf (n : RingId) (ws : Words) (s : State) (h : Memory.wf s.mem = true) : Memory.wf (writeEntry n ws s).mem = true := by
  unfold writeEntry <;> (try dsimp only) <;> (repeat' split) <;> first | exact h | (simp [h]; done) | (simp_all; done)
@[simp] theorem combTaken_mem (s : State) : (State.combTaken s).mem = s.mem := by
  unfold State.combTaken <;> (try dsimp only) <;> (repeat' split) <;> first | (simp; done) | (simp_all; done) | rfl
@[simp] theorem ringWrite_wf (s : State) (h : Memory.wf s.mem = true) : Memory.wf (ringWrite s).mem = true := by
  unfold ringWrite <;> (try dsimp only) <;> (repeat' split) <;> first | exact h | (simp [h]; done) | (simp_all; done)
@[simp] theorem recogEvent_wf (r : RecogId) (kind arg stamp : Nat) (s : State) (h : Memory.wf s.mem = true) :
    Memory.wf (recogEvent r kind arg stamp s).mem = true := by
  unfold recogEvent; dsimp only; split
  · apply forEach_wf
    · simpa using h
    · intro n u hu; split
      · exact ringTrigger_wf _ _ _ _ hu
      · exact hu
  · simpa using h
@[simp] theorem abortCond_mem (r : RecogId) (s : State) : (abortCond r s).mem = s.mem := by
  unfold abortCond <;> (try dsimp only) <;> (repeat' split) <;> first | (simp; done) | (simp_all; done) | rfl
@[simp] theorem zeroDetect_mem (r : RecogId) (s : State) : (zeroDetect r s).mem = s.mem := by
  unfold zeroDetect <;> (try dsimp only) <;> (repeat' split) <;> first | (simp; done) | (simp_all; done) | rfl
@[simp] theorem recogDecide_wf (r : RecogId) (s : State) (h : Memory.wf s.mem = true) : Memory.wf (recogDecide r s).mem = true := by
  unfold recogDecide <;> (try dsimp only) <;> (repeat' split) <;> first | exact h | (simp [h]; done) | (simp_all; done)
@[simp] theorem recogLeave_mem (r : RecogId) (st : UState) (s : State) : (recogLeave r st s).mem = s.mem := by
  unfold recogLeave <;> (try dsimp only) <;> (repeat' split) <;> first | (simp; done) | (simp_all; done) | rfl
@[simp] theorem laneLeft_mem (l : LaneId) (s : State) : (laneLeft l s).mem = s.mem := by
  unfold laneLeft <;> (try dsimp only) <;> (repeat' split) <;> first | (simp; done) | (simp_all; done) | rfl
@[simp] theorem laneEntered_mem (l : LaneId) (s : State) : (laneEntered l s).mem = s.mem := by
  unfold laneEntered <;> (try dsimp only) <;> (repeat' split) <;> first | (simp; done) | (simp_all; done) | rfl
@[simp] theorem recogsHold_mem (l : LaneId) (s : State) : (recogsHold l s).mem = s.mem := by
  unfold recogsHold <;> (try dsimp only) <;> (repeat' split) <;> (repeat rw [forEach_mem _ _ _ (fun _ _ => by (try dsimp only) <;> (repeat' split) <;> first | (simp; done) | rfl)]) <;> first | (simp; done) | rfl
@[simp] theorem recogsRun_mem (l : LaneId) (s : State) : (recogsRun l s).mem = s.mem := by
  unfold recogsRun <;> (try dsimp only) <;> (repeat' split) <;> (repeat rw [forEach_mem _ _ _ (fun _ _ => by (try dsimp only) <;> (repeat' split) <;> first | (simp; done) | rfl)]) <;> first | (simp; done) | rfl
@[simp] theorem noteBalls_mem (s : State) : (noteBalls s).mem = s.mem := by
  unfold noteBalls <;> (try dsimp only) <;> (repeat' split) <;> first | (simp; done) | (simp_all; done) | rfl
@[simp] theorem queueEvent_mem (q : QueueId) (kind : Nat) (lo : Nat) (hi : Nat) (s : State) : (queueEvent q kind lo hi s).mem = s.mem := by
  unfold queueEvent <;> (try dsimp only) <;> (repeat' split) <;> first | (simp; done) | (simp_all; done) | rfl
@[simp] theorem creditRaised_mem (q : QueueId) (old : Nat) (s : State) : (creditRaised q old s).mem = s.mem := by
  unfold creditRaised <;> (try dsimp only) <;> (repeat' split) <;> first | (simp; done) | (simp_all; done) | rfl
@[simp] theorem writeItem_mem (q : QueueId) (item : List QSlot) (s : State) : (writeItem q item s).mem = s.mem := by
  unfold writeItem <;> (try dsimp only) <;> (repeat' split) <;> first | (simp; done) | (simp_all; done) | rfl
@[simp] theorem takeWord_snd_mem (q : QueueId) (s : State) : (takeWord q s).2.mem = s.mem := by
  unfold takeWord <;> (try dsimp only) <;> (repeat' split) <;> first | (simp; done) | (simp_all; done) | rfl
theorem takeWord_eq_mem {q : QueueId} {s : State} {a : Option QSlot} {u : State} (h : takeWord q s = (a, u)) : u.mem = s.mem := by
  have := takeWord_snd_mem q s; rw [h] at this; exact this
@[simp] theorem queueSwap_mem (q : QueueId) (s : State) : (queueSwap q s).mem = s.mem := by
  unfold queueSwap <;> (try dsimp only) <;> (repeat' split) <;> first | (simp; done) | (simp_all; done) | rfl
@[simp] theorem queueSwaps_mem (s : State) : (queueSwaps s).mem = s.mem := by
  unfold queueSwaps <;> (try dsimp only) <;> (repeat' split) <;> first | (simp; done) | (simp_all; done) | rfl
@[simp] theorem offerProposal_mem (i : SensorId) (l : LaneId) (stamp : Nat) (epoch : BitVec 8) (slot : BitVec 3) (p : Option Words) (s : State) : (offerProposal i l stamp epoch slot p s).mem = s.mem := by
  unfold offerProposal <;> (try dsimp only) <;> (repeat' split) <;> first | (simp; done) | (simp_all; done) | rfl
@[simp] theorem endRun_mem (i : SensorId) (l : LaneId) (s : State) : (endRun i l s).mem = s.mem := by
  unfold endRun <;> (try dsimp only) <;> (repeat' split) <;> first | (simp; done) | (simp_all; done) | rfl
@[simp] theorem runInput_mem (i : SensorId) (l : LaneId) (stamp : Nat) (epoch : BitVec 8) (slot : BitVec 3) (flags : Nat) (cal : Option (V3 × V3)) (s : State) : (runInput i l stamp epoch slot flags cal s).mem = s.mem := by
  unfold runInput <;> (try dsimp only) <;> (repeat' split) <;> first | (simp; done) | (simp_all; done) | rfl
@[simp] theorem stopRun_mem (l : LaneId) (s : State) : (stopRun l s).mem = s.mem := by
  unfold stopRun <;> (try dsimp only) <;> (repeat' split) <;> first | (simp; done) | (simp_all; done) | rfl
@[simp] theorem laneTake_mem (l : LaneId) (u : LaneIn) (s : State) : (laneTake l u s).mem = s.mem := by
  unfold laneTake <;> (try dsimp only) <;> (repeat' split) <;> first | (simp; done) | (simp_all; done) | rfl
@[simp] theorem laneSample_mem (i : SensorId) (m : Sample) (later : Nat) (l : LaneId) (s : State) : (laneSample i m later l s).mem = s.mem := by
  unfold laneSample <;> (try dsimp only) <;> (repeat' split) <;> first | (simp; done) | (simp_all; done) | rfl
@[simp] theorem laneFromLane_mem (m : LaneId) (r : LaneRec) (l : LaneId) (s : State) : (laneFromLane m r l s).mem = s.mem := by
  unfold laneFromLane <;> (try dsimp only) <;> (repeat' split) <;> first | (simp; done) | (simp_all; done) | rfl
@[simp] theorem delivery_mem (i : SensorId) (s : State) : (delivery i s).mem = s.mem := by
  unfold delivery <;> (try dsimp only) <;> (repeat' split) <;> first | (simp; done) | (simp_all; done) | rfl
@[simp] theorem laneRecord_mem (l : LaneId) (s : State) : (laneRecord l s).mem = s.mem := by
  unfold laneRecord <;> (try dsimp only) <;> (repeat' split) <;> (repeat rw [forEach_mem _ _ _ (fun _ _ => by (try dsimp only) <;> (repeat' split) <;> first | (simp; done) | rfl)]) <;> first | (simp; done) | rfl
@[simp] theorem writeSlot_mem (i : SensorId) (k : Nat) (ws : Words) (s : State) : (writeSlot i k ws s).mem = s.mem := by
  unfold writeSlot <;> (try dsimp only) <;> (repeat' split) <;> first | (simp; done) | (simp_all; done) | rfl
@[simp] theorem sensorNotice_mem (kind : Nat) (i : SensorId) (s : State) : (sensorNotice kind i s).mem = s.mem := by
  unfold sensorNotice <;> (try dsimp only) <;> (repeat' split) <;> (repeat rw [forEach_mem _ _ _ (fun _ _ => by (try dsimp only) <;> (repeat' split) <;> first | (simp; done) | rfl)]) <;> first | (simp; done) | rfl
@[simp] theorem abortTest'_wf (i : SensorId) (s : State) (h : Memory.wf s.mem = true) : Memory.wf (abortTest' i s).mem = true := by
  unfold abortTest' <;> (try dsimp only) <;> (repeat' split) <;> first | exact h | (simp [h]; done) | (simp_all; done)
@[simp] theorem plausCheck_mem (s : State) : (plausCheck s).mem = s.mem := by
  unfold plausCheck <;> (try dsimp only) <;> (repeat' split) <;> first | (simp; done) | (simp_all; done) | rfl
@[simp] theorem bumpLanes_mem (i : SensorId) (s : State) : (bumpLanes i s).mem = s.mem := by
  unfold bumpLanes <;> (try dsimp only) <;> (repeat' split) <;> first | (simp; done) | (simp_all; done) | rfl
@[simp] theorem takeSample_mem (i : SensorId) (k : Nat) (r : RawTriple) (s : State) : (takeSample i k r s).mem = s.mem := by
  unfold takeSample <;> (try dsimp only) <;> (repeat' split) <;> first | (simp; done) | (simp_all; done) | rfl
@[simp] theorem conversion_mem (i : SensorId) (v : RawTriple) (s : State) : (conversion i v s).mem = s.mem := by
  unfold conversion <;> (try dsimp only) <;> (repeat' split) <;> first | (simp; done) | (simp_all; done) | rfl
@[simp] theorem selfTestEnd_wf (i : SensorId) (v : RawTriple) (s : State) (h : Memory.wf s.mem = true) : Memory.wf (selfTestEnd i v s).mem = true := by
  unfold selfTestEnd <;> (try dsimp only) <;> (repeat' split) <;> first | exact h | (simp [h]; done) | (simp_all; done)
@[simp] theorem toneStart_mem (ch : Fin 8) (s : State) : (toneStart ch s).mem = s.mem := by
  unfold toneStart <;> (try dsimp only) <;> (repeat' split) <;> first | (simp; done) | (simp_all; done) | rfl
@[simp] theorem watchForce_mem (ch : Nat) (s : State) : (watchForce ch s).mem = s.mem := by
  unfold watchForce <;> (try dsimp only) <;> (repeat' split) <;> first | (simp; done) | (simp_all; done) | rfl
@[simp] theorem toneEstimate_mem (i : SensorId) (stamp : Nat) (gain : Nat) (s : State) : (toneEstimate i stamp gain s).mem = s.mem := by
  unfold toneEstimate <;> (try dsimp only) <;> (repeat' split) <;> first | (simp; done) | (simp_all; done) | rfl
@[simp] theorem validResult_mem (ch : Fin 8) (m : Nat) (r : ToneMeas) (s : State) : (validResult ch m r s).mem = s.mem := by
  unfold validResult <;> (try dsimp only) <;> (repeat' split) <;> first | (simp; done) | (simp_all; done) | rfl
@[simp] theorem invalidResult_mem (ch : Fin 8) (m : Nat) (s : State) : (invalidResult ch m s).mem = s.mem := by
  unfold invalidResult <;> (try dsimp only) <;> (repeat' split) <;> first | (simp; done) | (simp_all; done) | rfl
@[simp] theorem toneResult_mem (ch : Fin 8) (r : ToneMeas) (s : State) : (toneResult ch r s).mem = s.mem := by
  unfold toneResult <;> (try dsimp only) <;> (repeat' split) <;> first | (simp; done) | (simp_all; done) | rfl
@[simp] theorem aoutTimeout_mem (a : Fin 4) (s : State) : (aoutTimeout a s).mem = s.mem := by
  unfold aoutTimeout <;> (try dsimp only) <;> (repeat' split) <;> first | (simp; done) | (simp_all; done) | rfl
@[simp] theorem coolSensor_mem (i : SensorId) (s : State) : (coolSensor i s).mem = s.mem := by
  unfold coolSensor <;> (try dsimp only) <;> (repeat' split) <;> first | (simp; done) | (simp_all; done) | rfl
@[simp] theorem portEvent_mem (p : PortId) (kind : Nat) (arg : Word) (s : State) : (portEvent p kind arg s).mem = s.mem := by
  unfold portEvent <;> (try dsimp only) <;> (repeat' split) <;> first | (simp; done) | (simp_all; done) | rfl
@[simp] theorem deliver_mem (p : PortId) (w : Word) (tag : BitVec 4) (s : State) : (deliver p w tag s).mem = s.mem := by
  unfold deliver <;> (try dsimp only) <;> (repeat' split) <;> first | (simp; done) | (simp_all; done) | rfl
@[simp] theorem takeTx_snd_mem (p : PortId) (s : State) : (takeTx p s).2.mem = s.mem := by
  unfold takeTx <;> (try dsimp only) <;> (repeat' split) <;> (try (have hp := takeWord_eq_mem (by assumption))) <;> first | (simp; done) | (simp_all; done) | rfl
theorem takeTx_eq_mem {p : PortId} {s : State} {a : Option (QSlot × Bool)} {u : State} (h : takeTx p s = (a, u)) : u.mem = s.mem := by
  have := takeTx_snd_mem p s; rw [h] at this; exact this
@[simp] theorem beginWord_mem (p : PortId) (m : MFrame) (s : State) : (beginWord p m s).mem = s.mem := by
  unfold beginWord <;> (try dsimp only) <;> (repeat' split) <;> (try (have hp := takeTx_eq_mem (by assumption))) <;> first | (simp; done) | (simp_all; done) | rfl
@[simp] theorem nextStage_mem (p : PortId) (m : MFrame) (s : State) : (nextStage p m s).mem = s.mem := by
  unfold nextStage <;> (try dsimp only) <;> (repeat' split) <;> first | (simp; done) | (simp_all; done) | rfl
@[simp] theorem masterFlush_mem (p : PortId) : ∀ (n : Nat) (s : State), (masterFlush p n s).mem = s.mem
  | 0, _ => rfl
  | n + 1, s => by
    unfold masterFlush; dsimp only; split
    · rfl
    · split
      · rw [masterFlush_mem p n]; simp
      · rfl
@[simp] theorem wordDone_mem (p : PortId) (m : MFrame) (s : State) : (wordDone p m s).mem = s.mem := by
  unfold wordDone <;> (try dsimp only) <;> (repeat' split) <;> first | (simp; done) | (simp_all; done) | rfl
@[simp] theorem frameClock_mem (p : PortId) (s : State) : (frameClock p s).mem = s.mem := by
  unfold frameClock <;> (try dsimp only) <;> (repeat' split) <;> first | (simp; done) | (simp_all; done) | rfl
@[simp] theorem masterClock_mem (p : PortId) (s : State) : (masterClock p s).mem = s.mem := by
  unfold masterClock; split
  · rfl
  · simp
@[simp] theorem skipHeads_mem : ∀ (n : Nat) (p : PortId) (s : State), (skipHeads n p s).mem = s.mem
  | 0, _, _ => rfl
  | n + 1, p, s => by
    unfold skipHeads; split
    · rfl
    · split
      · rfl
      · rw [skipHeads_mem n p]; simp
@[simp] theorem beginFrame_mem (p : PortId) (m : MFrame) (phases : List (FStage × Nat)) (bad : Nat) (s : State) : (beginFrame p m phases bad s).mem = s.mem := by
  unfold beginFrame <;> (try dsimp only) <;> (repeat' split) <;> first | (simp; done) | (simp_all; done) | rfl
@[simp] theorem startHead_mem (p : PortId) (rx : Words) (s : State) : (startHead p rx s).mem = s.mem := by
  unfold startHead <;> (try dsimp only) <;> (repeat' split) <;> (try (have hp := takeTx_eq_mem (by assumption))) <;> first | (simp; done) | (simp_all; done) | rfl
@[simp] theorem startWord_mem (p : PortId) (rx : Words) (s : State) : (startWord p rx s).mem = s.mem := by
  unfold startWord <;> (try dsimp only) <;> (repeat' split) <;> first | (simp; done) | (simp_all; done) | rfl
@[simp] theorem frameStart_mem (p : PortId) (rx : Words) (s : State) : (frameStart p rx s).mem = s.mem := by
  unfold frameStart; dsimp only; repeat' split
  all_goals simp
@[simp] theorem frameResume_mem (p : PortId) (s : State) : (frameResume p s).mem = s.mem := by
  unfold frameResume <;> (try dsimp only) <;> (repeat' split) <;> first | (simp; done) | (simp_all; done) | rfl
@[simp] theorem frameEnd_mem (p : PortId) (s : State) : (frameEnd p s).mem = s.mem := by
  unfold frameEnd <;> (try dsimp only) <;> (repeat' split) <;> first | (simp; done) | (simp_all; done) | rfl
@[simp] theorem abandonFrame_snd_mem (p : PortId) (s : State) : (abandonFrame p s).2.mem = s.mem := by
  unfold abandonFrame; dsimp only; split
  · rfl
  · simp
theorem abandonFrame_eq_mem {p : PortId} {s : State} {a : Nat} {u : State} (h : abandonFrame p s = (a, u)) : u.mem = s.mem := by
  have := abandonFrame_snd_mem p s; rw [h] at this; exact this
@[simp] theorem mmfDetect_mem (p : PortId) (s : State) : (mmfDetect p s).mem = s.mem := by
  unfold mmfDetect <;> (try dsimp only) <;> (repeat' split) <;> first | (simp; done) | (simp_all; done) | rfl
@[simp] theorem selectAssert_mem (p : PortId) (s : State) : (selectAssert p s).mem = s.mem := by
  unfold selectAssert <;> (try dsimp only) <;> (repeat' split) <;> first | (simp; done) | (simp_all; done) | rfl
@[simp] theorem slaveWord_mem (p : PortId) (w : Word) (s : State) : (slaveWord p w s).mem = s.mem := by
  unfold slaveWord <;> (try dsimp only) <;> (repeat' split) <;> first | (simp; done) | (simp_all; done) | rfl
@[simp] theorem selectRelease_mem (p : PortId) (bits : Nat) (w : Word) (s : State) : (selectRelease p bits w s).mem = s.mem := by
  unfold selectRelease <;> (try dsimp only) <;> (repeat' split) <;> first | (simp; done) | (simp_all; done) | rfl
@[simp] theorem txClock_mem (p : PortId) (s : State) : (txClock p s).mem = s.mem := by
  unfold txClock <;> (try dsimp only) <;> (repeat' split) <;> (try (have hp := takeTx_eq_mem (by assumption))) <;> first | (simp; done) | (simp_all; done) | rfl
@[simp] theorem rxClock_mem (p : PortId) (s : State) : (rxClock p s).mem = s.mem := by
  unfold rxClock <;> (try dsimp only) <;> (repeat' split) <;> first | (simp; done) | (simp_all; done) | rfl
@[simp] theorem slaveClock_mem (p : PortId) (s : State) : (slaveClock p s).mem = s.mem := by
  unfold slaveClock <;> (try dsimp only) <;> (repeat' split) <;> first | (simp; done) | (simp_all; done) | rfl
@[simp] theorem stageClock_mem (p : PortId) (s : State) : (stageClock p s).mem = s.mem := by
  unfold stageClock <;> (try dsimp only) <;> (repeat' split) <;> (try (have hp := takeTx_eq_mem (by assumption))) <;> first | (simp; done) | (simp_all; done) | rfl
@[simp] theorem portClock_mem (p : PortId) (s : State) : (portClock p s).mem = s.mem := by
  unfold portClock <;> (try dsimp only) <;> (repeat' split) <;> first | (simp; done) | (simp_all; done) | rfl
@[simp] theorem deliverAll_mem (p : PortId) (l : List (Word × BitVec 4)) (s : State) : (deliverAll p l s).mem = s.mem := by
  unfold deliverAll <;> (try dsimp only) <;> (repeat' split) <;> first | (simp; done) | (simp_all; done) | rfl
@[simp] theorem hostEnd_mem (s : State) : (hostEnd s).mem = s.mem := by
  unfold hostEnd <;> (try dsimp only) <;> (repeat' split) <;> first | (simp; done) | (simp_all; done) | rfl
@[simp] theorem modEngine_mem (s : State) (e : EngineId) (f : Engine → Engine) : (State.modEngine s e f).mem = s.mem := by
  unfold State.modEngine <;> (try dsimp only) <;> (repeat' split) <;> first | (simp; done) | (simp_all; done) | rfl
@[simp] theorem engineEvent_mem (e : EngineId) (kind : Nat) (pc : Nat) (pin : Nat) (s : State) : (engineEvent e kind pc pin s).mem = s.mem := by
  unfold engineEvent <;> (try dsimp only) <;> (repeat' split) <;> first | (simp; done) | (simp_all; done) | rfl
@[simp] theorem settleLoser_mem (e : EngineId) (s : State) : (settleLoser e s).mem = s.mem := by
  unfold settleLoser <;> (try dsimp only) <;> (repeat' split) <;> first | (simp; done) | (simp_all; done) | rfl
@[simp] theorem noteHit_mem (e : EngineId) (s : State) : (noteHit e s).mem = s.mem := by
  unfold noteHit <;> (try dsimp only) <;> (repeat' split) <;> first | (simp; done) | (simp_all; done) | rfl
@[simp] theorem lineClock_mem (s : State) : (lineClock s).mem = s.mem := by
  unfold lineClock <;> (try dsimp only) <;> (repeat' split) <;> first | (simp; done) | (simp_all; done) | rfl
@[simp] theorem noteSeen_mem (e : EngineId) (lv : Byte) (s : State) : (noteSeen e lv s).mem = s.mem := by
  unfold noteSeen <;> (try dsimp only) <;> (repeat' split) <;> first | (simp; done) | (simp_all; done) | rfl
@[simp] theorem engineDo_mem (e : EngineId) (x : Engine) (s : State) : (engineDo e x s).mem = s.mem := by
  unfold engineDo <;> (try dsimp only) <;> (repeat' split) <;> first | (simp; done) | (simp_all; done) | rfl
@[simp] theorem pinComesUp_mem (e : EngineId) (op : EOp) (lv : Byte) (x : Engine) (s : State) : (pinComesUp e op lv x s).mem = s.mem := by
  unfold pinComesUp <;> (try dsimp only) <;> (repeat' split) <;> first | (simp; done) | (simp_all; done) | rfl
@[simp] theorem setStale_mem (e : EngineId) (pc : Nat) (s : State) : (setStale e pc s).mem = s.mem := by
  unfold setStale <;> (try dsimp only) <;> (repeat' split) <;> first | (simp; done) | (simp_all; done) | rfl
@[simp] theorem takeFull_mem (e : EngineId) (ev : Bool) (dst : Nat) (x : Engine) (s : State) : (takeFull e ev dst x s).mem = s.mem := by
  unfold takeFull <;> (try dsimp only) <;> (repeat' split) <;> first | (simp; done) | (simp_all; done) | rfl
@[simp] theorem takeComesUp_mem (e : EngineId) (ev : Bool) (n : Bool) (dst : Nat) (x : Engine) (s : State) : (takeComesUp e ev n dst x s).mem = s.mem := by
  unfold takeComesUp <;> (try dsimp only) <;> (repeat' split) <;> first | (simp; done) | (simp_all; done) | rfl
@[simp] theorem giveEmpty_mem (e : EngineId) (ev : Bool) (src : Nat) (x : Engine) (s : State) : (giveEmpty e ev src x s).mem = s.mem := by
  unfold giveEmpty <;> (try dsimp only) <;> (repeat' split) <;> first | (simp; done) | (simp_all; done) | rfl
@[simp] theorem giveComesUp_mem (e : EngineId) (ev : Bool) (n : Bool) (src : Nat) (x : Engine) (s : State) : (giveComesUp e ev n src x s).mem = s.mem := by
  unfold giveComesUp <;> (try dsimp only) <;> (repeat' split) <;> first | (simp; done) | (simp_all; done) | rfl
@[simp] theorem takeTo_mem (d : Nat) (e : EngineId) (op : EOp) (x : Engine) (s : State) : (takeTo d e op x s).mem = s.mem := by
  unfold takeTo <;> (try dsimp only) <;> (repeat' split) <;> first | (simp; done) | (simp_all; done) | rfl
@[simp] theorem giveFrom_mem (d : Nat) (e : EngineId) (op : EOp) (x : Engine) (s : State) : (giveFrom d e op x s).mem = s.mem := by
  unfold giveFrom <;> (try dsimp only) <;> (repeat' split) <;> first | (simp; done) | (simp_all; done) | rfl
@[simp] theorem countBy_mem (d : Nat) (e : EngineId) (op : EOp) (x : Engine) (s : State) : (countBy d e op x s).mem = s.mem := by
  unfold countBy <;> (try dsimp only) <;> (repeat' split) <;> first | (simp; done) | (simp_all; done) | rfl
@[simp] theorem awaitClock_mem (e : EngineId) (cond : Nat) (j : Nat) (t : Bool) (prev : Byte) (lv : Byte) (x : Engine) (s : State) : (awaitClock e cond j t prev lv x s).mem = s.mem := by
  unfold awaitClock <;> (try dsimp only) <;> (repeat' split) <;> first | (simp; done) | (simp_all; done) | rfl
@[simp] theorem awaitPins_mem (e : EngineId) (cond : Nat) (j : Nat) (t : Bool) (prev : Byte) (lv : Byte) (x : Engine) (s : State) : (awaitPins e cond j t prev lv x s).mem = s.mem := by
  unfold awaitPins <;> (try dsimp only) <;> (repeat' split) <;> first | (simp; done) | (simp_all; done) | rfl
@[simp] theorem stampBy_mem (d : Nat) (e : EngineId) (op : EOp) (x : Engine) (s : State) : (stampBy d e op x s).mem = s.mem := by
  unfold stampBy <;> (try dsimp only) <;> (repeat' split) <;> first | (simp; done) | (simp_all; done) | rfl
@[simp] theorem noteRound_mem (s : State) : (noteRound s).mem = s.mem := by
  unfold noteRound <;> (try dsimp only) <;> (repeat' split) <;> first | (simp; done) | (simp_all; done) | rfl
@[simp] theorem stepHive_mem (new : Nat) (s : State) : (stepHive new s).mem = s.mem := by
  unfold stepHive <;> (try dsimp only) <;> (repeat' split) <;> first | (simp; done) | (simp_all; done) | rfl
@[simp] theorem setTrim_mem (withhold : Bool) (rate : Nat) (s : State) : (setTrim withhold rate s).mem = s.mem := by
  unfold setTrim <;> (try dsimp only) <;> (repeat' split) <;> first | (simp; done) | (simp_all; done) | rfl
@[simp] theorem pushFrame_mem (s : State) (f : SrlFrame) : (State.pushFrame s f).mem = s.mem := by
  unfold State.pushFrame <;> (try dsimp only) <;> (repeat' split) <;> first | (simp; done) | (simp_all; done) | rfl
@[simp] theorem startChange_mem (n : BitVec 2) (forced : Bool) (s : State) : (startChange n forced s).mem = s.mem := by
  unfold startChange <;> (try dsimp only) <;> (repeat' split) <;> first | (simp; done) | (simp_all; done) | rfl
@[simp] theorem forceL1_mem (s : State) : (forceL1 s).mem = s.mem := by
  unfold forceL1 <;> (try dsimp only) <;> (repeat' split) <;> first | (simp; done) | (simp_all; done) | rfl
@[simp] theorem endChange_mem (ch : LevelChange) (st : BitVec 8) (s : State) : (endChange ch st s).mem = s.mem := by
  unfold endChange <;> (try dsimp only) <;> (repeat' split) <;> first | (simp; done) | (simp_all; done) | rfl
@[simp] theorem applyAssist_mem (l : BitVec 2) (s : State) : (applyAssist l s).mem = s.mem := by
  unfold applyAssist <;> (try dsimp only) <;> (repeat' split) <;> first | (simp; done) | (simp_all; done) | rfl
@[simp] theorem applyBias_mem (l : BitVec 2) (s : State) : (applyBias l s).mem = s.mem := by
  unfold applyBias <;> (try dsimp only) <;> (repeat' split) <;> first | (simp; done) | (simp_all; done) | rfl
@[simp] theorem biasNext_mem (l : BitVec 2) (s : State) : (biasNext l s).mem = s.mem := by
  unfold biasNext <;> (try dsimp only) <;> (repeat' split) <;> first | (simp; done) | (simp_all; done) | rfl
@[simp] theorem recostLoader_mem (s : State) : (recostLoader s).mem = s.mem := by
  unfold recostLoader <;> (try dsimp only) <;> (repeat' split) <;> first | (simp; done) | (simp_all; done) | rfl
@[simp] theorem switchClock_mem (n : BitVec 2) (s : State) : (switchClock n s).mem = s.mem := by
  unfold switchClock <;> (try dsimp only) <;> (repeat' split) <;> first | (simp; done) | (simp_all; done) | rfl
@[simp] theorem clockSwitch_mem (s : State) : (clockSwitch s).mem = s.mem := by
  unfold clockSwitch <;> (try dsimp only) <;> (repeat' split) <;> first | (simp; done) | (simp_all; done) | rfl
@[simp] theorem changeAck_mem (ch : LevelChange) (s : State) : (changeAck ch s).mem = s.mem := by
  unfold changeAck <;> (try dsimp only) <;> (repeat' split) <;> first | (simp; done) | (simp_all; done) | rfl
@[simp] theorem restoreAck_mem (ch : LevelChange) (s : State) : (restoreAck ch s).mem = s.mem := by
  unfold restoreAck <;> (try dsimp only) <;> (repeat' split) <;> first | (simp; done) | (simp_all; done) | rfl
@[simp] theorem changeTimeout_mem (ch : LevelChange) (s : State) : (changeTimeout ch s).mem = s.mem := by
  unfold changeTimeout <;> (try dsimp only) <;> (repeat' split) <;> first | (simp; done) | (simp_all; done) | rfl
@[simp] theorem applyStep_wf (st : JStep) (s : State) (h : Memory.wf s.mem = true) :
    Memory.wf (applyStep st s).mem = true := by
  cases st with
  | prog off bs => simp only [applyStep, cacheInval_mem]; exact wf_memPuts _ _ _ h
  | erase off =>
    simp only [applyStep, cacheInval_mem]
    generalize List.replicate 4096 (0xFF : Byte) = l
    exact wf_memPuts l _ _ h
@[simp] theorem applySteps_wf (l : List JStep) (s : State) (h : Memory.wf s.mem = true) :
    Memory.wf (applySteps l s).mem = true := by
  unfold applySteps; exact foldl_wf _ _ _ h (fun _ _ hu => applyStep_wf _ _ hu)
@[simp] theorem scrambleSteps_wf (l : List JStep) (s : State) (h : Memory.wf s.mem = true) :
    Memory.wf (scrambleSteps l s).mem = true := by
  unfold scrambleSteps; exact foldl_wf _ _ _ h (fun u _ hu => wf_memPuts _ u.mem _ hu)
@[simp] theorem cutSteps_wf : ∀ (l : List JStep) (k : Nat) (s : State), Memory.wf s.mem = true →
    Memory.wf (cutSteps l k s).mem = true
  | [], _, _, h => h
  | .prog off bs :: r, k, s, h => by
    unfold cutSteps; dsimp only; split
    · exact cutSteps_wf r _ _ (applyStep_wf _ _ h)
    · exact wf_memPut _ _ (applyStep_wf _ _ h)
  | .erase off :: r, k, s, h => by
    unfold cutSteps; split
    · exact scrambleSteps_wf _ _ h
    · exact cutSteps_wf r _ _ (applyStep_wf _ _ h)
@[simp] theorem readLayout_mem (s : State) : (readLayout s).mem = s.mem := by
  unfold readLayout <;> (try dsimp only) <;> (repeat' split) <;> first | (simp; done) | (simp_all; done) | rfl
@[simp] theorem loadCk_mem (k : Nat) (ckseq : Nat) (head : Nat) (lastg : Nat) (ents : List JEnt) (s : State) : (loadCk k ckseq head lastg ents s).mem = s.mem := by
  unfold loadCk <;> (try dsimp only) <;> (repeat' split) <;> first | (simp; done) | (simp_all; done) | rfl
@[simp] theorem modJ_mem (s : State) (f : JournalSt → JournalSt) : (State.modJ s f).mem = s.mem := by
  unfold State.modJ <;> (try dsimp only) <;> (repeat' split) <;> first | (simp; done) | (simp_all; done) | rfl
@[simp] theorem journalEvent_mem (kind : Nat) (st : BitVec 8) (ten : Tid) (nrec : Nat) (s : State) : (journalEvent kind st ten nrec s).mem = s.mem := by
  unfold journalEvent <;> (try dsimp only) <;> (repeat' split) <;> first | (simp; done) | (simp_all; done) | rfl
theorem placeGroup_mem {size : Nat} {s u : State} {p : Nat × Nat} {pre : List JStep}
    (h : placeGroup size s = some (p, pre, u)) : u.mem = s.mem := by
  unfold placeGroup at h; dsimp only at h
  repeat' split at h
  all_goals first | (cases h; done) | (cases h; rfl)
@[simp] theorem sectorErased_wf (k : Nat) (s : State) (h : Memory.wf s.mem = true) :
    Memory.wf (sectorErased k s).mem = true := by
  unfold sectorErased; dsimp only
  apply applyStep_wf
  exact h
@[simp] theorem gcStep_wf (s : State) (h : Memory.wf s.mem = true) : Memory.wf (gcStep s).2.mem = true := by
  unfold gcStep; dsimp only
  split
  · split
    · simp only [modJ_mem]; exact sectorErased_wf _ _ h
    · split
      · exact h
      · rename_i hp
        simp only [modJ_mem]
        refine applySteps_wf _ _ ?_
        rw [placeGroup_mem hp]; exact h
  · exact h
@[simp] theorem startCommit_mem (ten : Tid) (stop : Bool) (s : State) : (startCommit ten stop s).mem = s.mem := by
  unfold startCommit; dsimp only; split
  · rename_i hp; have := placeGroup_mem hp; exact this
  · rfl
theorem collectFor_wf : ∀ {n size : Nat} {s u : State} {p : Nat × Nat} {pre : List JStep},
    Memory.wf s.mem = true → collectFor n size s = some (p, pre, u) → Memory.wf u.mem = true
  | 0, _, _, _, _, _, _, e => by cases e
  | n + 1, size, s, u, p, pre, h, e => by
    unfold collectFor at e
    split at e
    · rename_i r hp
      cases e
      rw [placeGroup_mem hp]; exact h
    · have hg := gcStep_wf s h
      split at e
      · rename_i t ht; rw [ht] at hg; exact collectFor_wf hg e
      · cases e
@[simp] theorem stopGroup_mem (s : State) : (stopGroup s).mem = s.mem := by
  unfold stopGroup <;> (try dsimp only) <;> (repeat' split) <;> first | (simp; done) | (simp_all; done) | rfl
@[simp] theorem opEnded_mem (s : State) : (opEnded s).mem = s.mem := by
  unfold opEnded <;> (try dsimp only) <;> (repeat' split) <;> first | (simp; done) | (simp_all; done) | rfl
@[simp] theorem commitDone_wf (s : State) (h : Memory.wf s.mem = true) : Memory.wf (commitDone s).mem = true := by
  unfold commitDone; split
  · rename_i o _
    split
    · split
      · exact h
      · dsimp only
        split
        · rename_i u hp
          have hu : Memory.wf u.mem = true := by
            split at hp
            · split at hp
              · rename_i hc; cases hp; exact collectFor_wf h hc
              · cases hp
            · cases hp; exact h
          simpa using applySteps_wf _ _ hu
        · simpa using h
    · exact h
    · exact h
  · exact h
@[simp] theorem flashOpDone_wf (s : State) (h : Memory.wf s.mem = true) : Memory.wf (flashOpDone s).mem = true := by
  unfold flashOpDone <;> (try dsimp only) <;> (repeat' split) <;> first | exact h | (simp [h]; done) | (simp_all; done)
@[simp] theorem flashOpTimeout_wf (s : State) (h : Memory.wf s.mem = true) : Memory.wf (flashOpTimeout s).mem = true := by
  have hs : ∀ l, Memory.wf (scrambleSteps l s).mem = true := fun l => scrambleSteps_wf l s h
  simp only [flashOpTimeout]
  repeat' split
  all_goals simp only [opEnded_mem, journalEvent_mem, modJ_mem, h, hs]
@[simp] theorem sealBurnDone_mem (s : State) : (sealBurnDone s).mem = s.mem := by
  unfold sealBurnDone <;> (try dsimp only) <;> (repeat' split) <;> first | (simp; done) | (simp_all; done) | rfl
@[simp] theorem sealArmExpiry_mem (s : State) : (sealArmExpiry s).mem = s.mem := by
  unfold sealArmExpiry <;> (try dsimp only) <;> (repeat' split) <;> first | (simp; done) | (simp_all; done) | rfl
@[simp] theorem scanEnd_mem (s : State) : (scanEnd s).mem = s.mem := by
  unfold scanEnd <;> (try dsimp only) <;> (repeat' split) <;> first | (simp; done) | (simp_all; done) | rfl
@[simp] theorem cutPart_wf (l : List JStep) (s : State) (h : Memory.wf s.mem = true) : Memory.wf (cutPart l s).mem = true := by
  unfold cutPart; exact cutSteps_wf _ _ _ h
@[simp] theorem cutFlash_wf (s : State) (h : Memory.wf s.mem = true) : Memory.wf (cutFlash s).mem = true := by
  unfold cutFlash <;> (try dsimp only) <;> (repeat' split) <;> first | exact h | (simp [h]; done) | (simp_all; done)
@[simp] theorem linkEvent_mem (kind : Nat) (addr : Nat) (tlink : Bool) (top : Nat) (s : State) : (linkEvent kind addr tlink top s).mem = s.mem := by
  unfold linkEvent <;> (try dsimp only) <;> (repeat' split) <;> first | (simp; done) | (simp_all; done) | rfl
@[simp] theorem messageEvent_mem (kind : Nat) (tag : BitVec 16) (st : BitVec 8) (reason : Nat) (s : State) : (messageEvent kind tag st reason s).mem = s.mem := by
  unfold messageEvent <;> (try dsimp only) <;> (repeat' split) <;> first | (simp; done) | (simp_all; done) | rfl
@[simp] theorem updateRoot_mem (s : State) : (updateRoot s).mem = s.mem := by
  unfold updateRoot <;> (try dsimp only) <;> (repeat' split) <;> first | (simp; done) | (simp_all; done) | rfl
@[simp] theorem nbrRise_mem (a : Nat) (s : State) : (nbrRise a s).mem = s.mem := by
  unfold nbrRise <;> (try dsimp only) <;> (repeat' split) <;> first | (simp; done) | (simp_all; done) | rfl
@[simp] theorem nbrFall_mem (a : Nat) (s : State) : (nbrFall a s).mem = s.mem := by
  unfold nbrFall <;> (try dsimp only) <;> (repeat' split) <;> first | (simp; done) | (simp_all; done) | rfl
@[simp] theorem hearUid_mem (uid : Nat) (addr : Nat) (p : RxPkt) (info : Option (Nat × Nat × Nat × Nat × Byte)) (s : State) : (hearUid uid addr p info s).mem = s.mem := by
  unfold hearUid <;> (try dsimp only) <;> (repeat' split) <;> first | (simp; done) | (simp_all; done) | rfl
@[simp] theorem dropLease_mem (uid : Nat) (s : State) : (dropLease uid s).mem = s.mem := by
  unfold dropLease <;> (try dsimp only) <;> (repeat' split) <;> first | (simp; done) | (simp_all; done) | rfl
@[simp] theorem endMsg_mem (id : Nat) (st : BitVec 8) (reason : Nat) (s : State) : (endMsg id st reason s).mem = s.mem := by
  unfold endMsg <;> (try dsimp only) <;> (repeat' split) <;> first | (simp; done) | (simp_all; done) | rfl
@[simp] theorem markSent_mem (f : TxFor) (s : State) : (markSent f s).mem = s.mem := by
  unfold markSent <;> (try dsimp only) <;> (repeat' split) <;> first | (simp; done) | (simp_all; done) | rfl
@[simp] theorem settleLeave_mem (s : State) : (settleLeave s).mem = s.mem := by
  unfold settleLeave <;> (try dsimp only) <;> (repeat' split) <;> first | (simp; done) | (simp_all; done) | rfl
@[simp] theorem frameDone_mem (bcast : Bool) (f : TxFor) (s : State) : (frameDone bcast f s).mem = s.mem := by
  unfold frameDone <;> (try dsimp only) <;> (repeat' split) <;> first | (simp; done) | (simp_all; done) | rfl
@[simp] theorem takeFc_snd_mem (s : State) : (takeFc s).2.mem = s.mem := by
  unfold takeFc <;> (try dsimp only) <;> (repeat' split) <;> first | (simp; done) | (simp_all; done) | rfl
theorem takeFc_eq_mem {s : State} {a : Option Nat} {u : State} (h : takeFc s = (a, u)) : u.mem = s.mem := by
  have := takeFc_snd_mem s; rw [h] at this; exact this
@[simp] theorem makeFrame_snd_mem (f : HFrame) (dst : Nat) (ack : Bool) (seq : Byte) (s : State) : (makeFrame f dst ack seq s).2.mem = s.mem := by
  unfold makeFrame <;> (try dsimp only) <;> (repeat' split) <;> (try (have hp := takeFc_eq_mem (by assumption))) <;> first | (simp; done) | (simp_all; done) | rfl
theorem makeFrame_eq_mem {f : HFrame} {dst : Nat} {ack : Bool} {seq : Byte} {s : State} {a : Option (List Byte)} {u : State} (h : makeFrame f dst ack seq s = (a, u)) : u.mem = s.mem := by
  have := makeFrame_snd_mem f dst ack seq s; rw [h] at this; exact this
@[simp] theorem startBackoff_mem (s : State) : (startBackoff s).mem = s.mem := by
  unfold startBackoff <;> (try dsimp only) <;> (repeat' split) <;> first | (simp; done) | (simp_all; done) | rfl
@[simp] theorem enqueueRadio_mem (f : HFrame) (dst : Nat) (ack : Bool) (for_ : TxFor) (s : State) : (enqueueRadio f dst ack for_ s).mem = s.mem := by
  unfold enqueueRadio <;> (try dsimp only) <;> (repeat' split) <;> first | (simp; done) | (simp_all; done) | rfl
@[simp] theorem enqueueTether_mem (pos : Nat) (f : HFrame) (dst : Nat) (for_ : TxFor) (s : State) : (enqueueTether pos f dst for_ s).mem = s.mem := by
  unfold enqueueTether <;> (try dsimp only) <;> (repeat' split) <;> (try (have hp := makeFrame_eq_mem (by assumption))) <;> first | (simp; done) | (simp_all; done) | rfl
@[simp] theorem noteKey_mem (k : DupKey) (s : State) : (noteKey k s).mem = s.mem := by
  unfold noteKey <;> (try dsimp only) <;> (repeat' split) <;> first | (simp; done) | (simp_all; done) | rfl
@[simp] theorem floodSend_mem (f : HFrame) (for_ : TxFor) (ok : Peer → Bool) (s : State) : (floodSend f for_ ok s).mem = s.mem := by
  unfold floodSend <;> (try dsimp only) <;> (repeat' split) <;> first | (simp; done) | (simp_all; done) | rfl
@[simp] theorem protoFrame_snd_mem (typ : Nat) (fdest : Nat) (hleft : Nat) (src : MacSrc) (body : List Byte) (s : State) : (protoFrame typ fdest hleft src body s).2.mem = s.mem := by
  unfold protoFrame <;> (try dsimp only) <;> (repeat' split) <;> first | (simp; done) | (simp_all; done) | rfl
theorem protoFrame_eq_mem {typ : Nat} {fdest : Nat} {hleft : Nat} {src : MacSrc} {body : List Byte} {s : State} {a : HFrame} {u : State} (h : protoFrame typ fdest hleft src body s = (a, u)) : u.mem = s.mem := by
  have := protoFrame_snd_mem typ fdest hleft src body s; rw [h] at this; exact this
@[simp] theorem floodOwn_mem (typ : Nat) (hleft : Nat) (body : List Byte) (s : State) : (floodOwn typ hleft body s).mem = s.mem := by
  unfold floodOwn <;> (try dsimp only) <;> (repeat' split) <;> (try (have hp := protoFrame_eq_mem (by assumption))) <;> first | (simp; done) | (simp_all; done) | rfl
@[simp] theorem sendRenew_mem (s : State) : (sendRenew s).mem = s.mem := by
  unfold sendRenew <;> (try dsimp only) <;> (repeat' split) <;> first | (simp; done) | (simp_all; done) | rfl
@[simp] theorem commitRoute_mem (d : Nat) (next : Nat) (tlink : Bool) (k : Option Nat) (s : State) : (commitRoute d next tlink k s).mem = s.mem := by
  unfold commitRoute <;> (try dsimp only) <;> (repeat' split) <;> first | (simp; done) | (simp_all; done) | rfl
@[simp] theorem sendVia_mem (f : HFrame) (next : Nat) (tlink : Bool) (for_ : TxFor) (s : State) : (sendVia f next tlink for_ s).mem = s.mem := by
  unfold sendVia <;> (try dsimp only) <;> (repeat' split) <;> first | (simp; done) | (simp_all; done) | rfl
@[simp] theorem routeFrame_snd_mem (f : HFrame) (for_ : TxFor) (s : State) : (routeFrame f for_ s).2.mem = s.mem := by
  unfold routeFrame <;> (try dsimp only) <;> (repeat' split) <;> first | (simp; done) | (simp_all; done) | rfl
theorem routeFrame_eq_mem {f : HFrame} {for_ : TxFor} {s : State} {a : Option Nat} {u : State} (h : routeFrame f for_ s = (a, u)) : u.mem = s.mem := by
  have := routeFrame_snd_mem f for_ s; rw [h] at this; exact this
@[simp] theorem sendNack_mem (orig : Nat) (mseq : BitVec 16) (reason : Nat) (s : State) : (sendNack orig mseq reason s).mem = s.mem := by
  unfold sendNack <;> (try dsimp only) <;> (repeat' split) <;> (try (have hp := protoFrame_eq_mem (by assumption))) <;> (try (have hp := routeFrame_eq_mem (by assumption))) <;> first | (simp; done) | (simp_all; done) | rfl
@[simp] theorem frameFailed_mem (f : HFrame) (for_ : TxFor) (reason : Nat) (s : State) : (frameFailed f for_ reason s).mem = s.mem := by
  unfold frameFailed <;> (try dsimp only) <;> (repeat' split) <;> first | (simp; done) | (simp_all; done) | rfl
@[simp] theorem startBurst_mem (s : State) : (startBurst s).mem = s.mem := by
  unfold startBurst <;> (try dsimp only) <;> (repeat' split) <;> first | (simp; done) | (simp_all; done) | rfl
@[simp] theorem onChannel_mem (ch : Nat) (hr : Bool) (psdu : List Byte) (lead : Nat) (who : Tid) (s : State) : (onChannel ch hr psdu lead who s).mem = s.mem := by
  unfold onChannel <;> (try dsimp only) <;> (repeat' split) <;> first | (simp; done) | (simp_all; done) | rfl
@[simp] theorem onAir_mem (psdu : List Byte) (lead : Nat) (who : Tid) (s : State) : (onAir psdu lead who s).mem = s.mem := by
  unfold onAir <;> (try dsimp only) <;> (repeat' split) <;> first | (simp; done) | (simp_all; done) | rfl
@[simp] theorem transmit_mem (lead : Nat) (e : TxEnt) (s : State) : (transmit lead e s).mem = s.mem := by
  unfold transmit <;> (try dsimp only) <;> (repeat' split) <;> (try (have hp := makeFrame_eq_mem (by assumption))) <;> first | (simp; done) | (simp_all; done) | rfl
@[simp] theorem airEnd_mem (s : State) : (airEnd s).mem = s.mem := by
  unfold airEnd <;> (try dsimp only) <;> (repeat' split) <;> first | (simp; done) | (simp_all; done) | rfl
@[simp] theorem radioClock_mem (s : State) : (radioClock s).mem = s.mem := by
  unfold radioClock <;> (try dsimp only) <;> (repeat' split) <;> first | (simp; done) | (simp_all; done) | rfl
@[simp] theorem frameTransmit_mem (dbm : Int) (s : State) : (frameTransmit dbm s).mem = s.mem := by
  unfold frameTransmit <;> (try dsimp only) <;> (repeat' split) <;> first | (simp; done) | (simp_all; done) | rfl
@[simp] theorem macAckRx_mem (fr : RxFrame) (s : State) : (macAckRx fr s).mem = s.mem := by
  unfold macAckRx <;> (try dsimp only) <;> (repeat' split) <;> first | (simp; done) | (simp_all; done) | rfl
@[simp] theorem countExhausted_mem (a : Nat) (s : State) : (countExhausted a s).mem = s.mem := by
  unfold countExhausted <;> (try dsimp only) <;> (repeat' split) <;> first | (simp; done) | (simp_all; done) | rfl
@[simp] theorem macAckTimeout_mem (s : State) : (macAckTimeout s).mem = s.mem := by
  unfold macAckTimeout <;> (try dsimp only) <;> (repeat' split) <;> first | (simp; done) | (simp_all; done) | rfl
@[simp] theorem claimSend_mem (s : State) : (claimSend s).mem = s.mem := by
  unfold claimSend <;> (try dsimp only) <;> (repeat' split) <;> first | (simp; done) | (simp_all; done) | rfl
@[simp] theorem holdAddr_mem (s : State) : (holdAddr s).mem = s.mem := by
  unfold holdAddr <;> (try dsimp only) <;> (repeat' split) <;> first | (simp; done) | (simp_all; done) | rfl
@[simp] theorem swarmDecide_mem (s : State) : (swarmDecide s).mem = s.mem := by
  unfold swarmDecide <;> (try dsimp only) <;> (repeat' split) <;> first | (simp; done) | (simp_all; done) | rfl
@[simp] theorem renewAnswer_mem (s : State) : (renewAnswer s).mem = s.mem := by
  unfold renewAnswer <;> (try dsimp only) <;> (repeat' split) <;> first | (simp; done) | (simp_all; done) | rfl
@[simp] theorem renewSend_mem (s : State) : (renewSend s).mem = s.mem := by
  simp only [renewSend]; split
  · rw [sendRenew_mem, modHive_mem]
  · rfl
@[simp] theorem leaseExpiry_mem (k : Fin 128) (s : State) : (leaseExpiry k s).mem = s.mem := by
  unfold leaseExpiry <;> (try dsimp only) <;> (repeat' split) <;> first | (simp; done) | (simp_all; done) | rfl
@[simp] theorem advertise_mem (a : Nat) (tlink : Bool) (s : State) : (advertise a tlink s).mem = s.mem := by
  unfold advertise <;> (try dsimp only) <;> (repeat' split) <;> (try (have hp := protoFrame_eq_mem (by assumption))) <;> first | (simp; done) | (simp_all; done) | rfl
@[simp] theorem routeadvSend_mem (s : State) : (routeadvSend s).mem = s.mem := by
  unfold routeadvSend <;> (try dsimp only) <;> (repeat' split) <;> first | (simp; done) | (simp_all; done) | rfl
@[simp] theorem routeExpiry_mem (a : Fin 128) (s : State) : (routeExpiry a s).mem = s.mem := by
  unfold routeExpiry <;> (try dsimp only) <;> (repeat' split) <;> first | (simp; done) | (simp_all; done) | rfl
@[simp] theorem cacheLineExpiry_mem (k : Fin 32) (s : State) : (cacheLineExpiry k s).mem = s.mem := by
  unfold cacheLineExpiry <;> (try dsimp only) <;> (repeat' split) <;> first | (simp; done) | (simp_all; done) | rfl
@[simp] theorem acceptPkt_mem (x : RxCtx) (p : RxPkt) (s : State) : (acceptPkt x p s).mem = s.mem := by
  unfold acceptPkt <;> (try dsimp only) <;> (repeat' split) <;> first | (simp; done) | (simp_all; done) | rfl
@[simp] theorem noteFlood_mem (x : RxCtx) (p : RxPkt) (s : State) : (noteFlood x p s).mem = s.mem := by
  unfold noteFlood <;> (try dsimp only) <;> (repeat' split) <;> first | (simp; done) | (simp_all; done) | rfl
@[simp] theorem floodRelay_mem (s : State) : (floodRelay s).mem = s.mem := by
  unfold floodRelay <;> (try dsimp only) <;> (repeat' split) <;> first | (simp; done) | (simp_all; done) | rfl
@[simp] theorem yieldAddr_mem (s : State) : (yieldAddr s).mem = s.mem := by
  unfold yieldAddr <;> (try dsimp only) <;> (repeat' split) <;> first | (simp; done) | (simp_all; done) | rfl
@[simp] theorem onCall_mem (s : State) : (onCall s).mem = s.mem := by
  unfold onCall <;> (try dsimp only) <;> (repeat' split) <;> first | (simp; done) | (simp_all; done) | rfl
@[simp] theorem onClaim_mem (p : RxPkt) (s : State) : (onClaim p s).mem = s.mem := by
  unfold onClaim <;> (try dsimp only) <;> (repeat' split) <;> first | (simp; done) | (simp_all; done) | rfl
@[simp] theorem onDefend_mem (p : RxPkt) (s : State) : (onDefend p s).mem = s.mem := by
  unfold onDefend <;> (try dsimp only) <;> (repeat' split) <;> first | (simp; done) | (simp_all; done) | rfl
@[simp] theorem onRenew_mem (x : RxCtx) (p : RxPkt) (s : State) : (onRenew x p s).mem = s.mem := by
  unfold onRenew <;> (try dsimp only) <;> (repeat' split) <;> first | (simp; done) | (simp_all; done) | rfl
@[simp] theorem onRouteadv_mem (x : RxCtx) (p : RxPkt) (s : State) : (onRouteadv x p s).mem = s.mem := by
  unfold onRouteadv <;> (try dsimp only) <;> (repeat' split) <;> first | (simp; done) | (simp_all; done) | rfl
@[simp] theorem deliverMsg_snd_mem (x : RxCtx) (p : RxPkt) (s : State) : (deliverMsg x p s).2.mem = s.mem := by
  unfold deliverMsg <;> (try dsimp only) <;> (repeat' split) <;> first | (simp; done) | (simp_all; done) | rfl
theorem deliverMsg_eq_mem {x : RxCtx} {p : RxPkt} {s : State} {a : Option Nat} {u : State} (h : deliverMsg x p s = (a, u)) : u.mem = s.mem := by
  have := deliverMsg_snd_mem x p s; rw [h] at this; exact this
@[simp] theorem forwardPkt_mem (p : RxPkt) (s : State) : (forwardPkt p s).mem = s.mem := by
  unfold forwardPkt <;> (try dsimp only) <;> (repeat' split) <;> (try (have hp := routeFrame_eq_mem (by assumption))) <;> first | (simp; done) | (simp_all; done) | rfl
@[simp] theorem onData_mem (x : RxCtx) (p : RxPkt) (s : State) : (onData x p s).mem = s.mem := by
  unfold onData <;> (try dsimp only) <;> (repeat' split) <;> (try (have hp := routeFrame_eq_mem (by assumption))) <;> (try (have hp := deliverMsg_eq_mem (by assumption))) <;> first | (simp; done) | (simp_all; done) | rfl
@[simp] theorem onNack_mem (p : RxPkt) (s : State) : (onNack p s).mem = s.mem := by
  unfold onNack <;> (try dsimp only) <;> (repeat' split) <;> first | (simp; done) | (simp_all; done) | rfl
@[simp] theorem onDeliv_mem (p : RxPkt) (s : State) : (onDeliv p s).mem = s.mem := by
  unfold onDeliv <;> (try dsimp only) <;> (repeat' split) <;> first | (simp; done) | (simp_all; done) | rfl
@[simp] theorem onLeave_mem (p : RxPkt) (s : State) : (onLeave p s).mem = s.mem := by
  unfold onLeave <;> (try dsimp only) <;> (repeat' split) <;> first | (simp; done) | (simp_all; done) | rfl
@[simp] theorem onSreq_mem (x : RxCtx) (p : RxPkt) (s : State) : (onSreq x p s).mem = s.mem := by
  unfold onSreq <;> (try dsimp only) <;> (repeat' split) <;> first | (simp; done) | (simp_all; done) | rfl
@[simp] theorem firstSample_mem (th : Int) (s : State) : (firstSample th s).mem = s.mem := by
  unfold firstSample <;> (try dsimp only) <;> (repeat' split) <;> first | (simp; done) | (simp_all; done) | rfl
@[simp] theorem applySample_mem (th : Frac) (tk : Nat) (s : State) : (applySample th tk s).mem = s.mem := by
  unfold applySample <;> (try dsimp only) <;> (repeat' split) <;> first | (simp; done) | (simp_all; done) | rfl
@[simp] theorem onSresp_mem (x : RxCtx) (p : RxPkt) (s : State) : (onSresp x p s).mem = s.mem := by
  unfold onSresp <;> (try dsimp only) <;> (repeat' split) <;> first | (simp; done) | (simp_all; done) | rfl
@[simp] theorem syncSreq_mem (dbm : Int) (s : State) : (syncSreq dbm s).mem = s.mem := by
  unfold syncSreq <;> (try dsimp only) <;> (repeat' split) <;> (try (have hp := protoFrame_eq_mem (by assumption))) <;> first | (simp; done) | (simp_all; done) | rfl
@[simp] theorem srespSend_mem (dbm : Int) (s : State) : (srespSend dbm s).mem = s.mem := by
  unfold srespSend <;> (try dsimp only) <;> (repeat' split) <;> (try (have hp := protoFrame_eq_mem (by assumption))) <;> first | (simp; done) | (simp_all; done) | rfl
@[simp] theorem onFrame_mem (x : RxCtx) (p : RxPkt) (s : State) : (onFrame x p s).mem = s.mem := by
  unfold onFrame <;> (try dsimp only) <;> (repeat' split) <;> first | (simp; done) | (simp_all; done) | rfl
@[simp] theorem hearFrame_mem (x : RxCtx) (want : Nat → Bool) (psdu : List Byte) (s : State) : (hearFrame x want psdu s).mem = s.mem := by
  unfold hearFrame <;> (try dsimp only) <;> (repeat' split) <;> first | (simp; done) | (simp_all; done) | rfl
@[simp] theorem radioRx_mem (typ : Nat) (fr : RxFrame) (s : State) : (radioRx typ fr s).mem = s.mem := by
  unfold radioRx <;> (try dsimp only) <;> (repeat' split) <;> first | (simp; done) | (simp_all; done) | rfl
@[simp] theorem foreignFrameRx_mem (fr : RxFrame) (s : State) : (foreignFrameRx fr s).mem = s.mem := by
  unfold foreignFrameRx <;> (try dsimp only) <;> (repeat' split) <;> first | (simp; done) | (simp_all; done) | rfl
@[simp] theorem e2eTimeout_mem (s : State) : (e2eTimeout s).mem = s.mem := by
  unfold e2eTimeout <;> (try dsimp only) <;> (repeat' split) <;> first | (simp; done) | (simp_all; done) | rfl
@[simp] theorem captureSwitch_mem (strongerDb : Nat) (s : State) : (captureSwitch strongerDb s).mem = s.mem := by
  unfold captureSwitch <;> (try dsimp only) <;> (repeat' split) <;> first | (simp; done) | (simp_all; done) | rfl
@[simp] theorem waggleFrame_snd_mem (s : State) : (waggleFrame s).2.mem = s.mem := by
  unfold waggleFrame <;> (try dsimp only) <;> (repeat' split) <;> (try (have hp := takeFc_eq_mem (by assumption))) <;> first | (simp; done) | (simp_all; done) | rfl
theorem waggleFrame_eq_mem {s : State} {a : Option (List Byte)} {u : State} (h : waggleFrame s = (a, u)) : u.mem = s.mem := by
  have := waggleFrame_snd_mem s; rw [h] at this; exact this
@[simp] theorem burstFrame_mem (s : State) : (burstFrame s).mem = s.mem := by
  unfold burstFrame <;> (try dsimp only) <;> (repeat' split) <;> (try (have hp := waggleFrame_eq_mem (by assumption))) <;> first | (simp; done) | (simp_all; done) | rfl
@[simp] theorem flushPeer_mem (pos : Nat) (s : State) : (flushPeer pos s).mem = s.mem := by
  unfold flushPeer <;> (try dsimp only) <;> (repeat' split) <;> first | (simp; done) | (simp_all; done) | rfl
@[simp] theorem peerFall_mem (p : Peer) (s : State) : (peerFall p s).mem = s.mem := by
  unfold peerFall <;> (try dsimp only) <;> (repeat' split) <;> first | (simp; done) | (simp_all; done) | rfl
@[simp] theorem peerRise_mem (p : Peer) (s : State) : (peerRise p s).mem = s.mem := by
  unfold peerRise <;> (try dsimp only) <;> (repeat' split) <;> first | (simp; done) | (simp_all; done) | rfl
@[simp] theorem countSweep_mem (pos : Nat) (ok : Bool) (s : State) : (countSweep pos ok s).mem = s.mem := by
  unfold countSweep <;> (try dsimp only) <;> (repeat' split) <;> first | (simp; done) | (simp_all; done) | rfl
@[simp] theorem confirmSegment_mem (pos : Nat) (r : SegRead) (s : State) : (confirmSegment pos r s).mem = s.mem := by
  unfold confirmSegment <;> (try dsimp only) <;> (repeat' split) <;> first | (simp; done) | (simp_all; done) | rfl
@[simp] theorem hearTether_mem (pos : Nat) (rxt : Nat) (psdu : List Byte) (s : State) : (hearTether pos rxt psdu s).mem = s.mem := by
  unfold hearTether <;> (try dsimp only) <;> (repeat' split) <;> first | (simp; done) | (simp_all; done) | rfl
@[simp] theorem takeSegment_mem (pos : Nat) (rxt : Nat) (r : SegRead) (s : State) : (takeSegment pos rxt r s).mem = s.mem := by
  unfold takeSegment <;> (try dsimp only) <;> (repeat' split) <;> first | (simp; done) | (simp_all; done) | rfl
@[simp] theorem peerSweep_mem (pos : Nat) (rxt : Nat) (r : SegRead) (s : State) : (peerSweep pos rxt r s).mem = s.mem := by
  unfold peerSweep <;> (try dsimp only) <;> (repeat' split) <;> first | (simp; done) | (simp_all; done) | rfl
@[simp] theorem noteSent_mem (p : Peer) (s : State) : (noteSent p s).mem = s.mem := by
  unfold noteSent <;> (try dsimp only) <;> (repeat' split) <;> first | (simp; done) | (simp_all; done) | rfl
@[simp] theorem captureTether_mem (p : PortId) (s : State) : (captureTether p s).mem = s.mem := by
  unfold captureTether <;> (try dsimp only) <;> (repeat' split) <;> first | (simp; done) | (simp_all; done) | rfl
@[simp] theorem memberCapture_mem (p : PortId) (s : State) : (memberCapture p s).mem = s.mem := by
  unfold memberCapture <;> (try dsimp only) <;> (repeat' split) <;> first | (simp; done) | (simp_all; done) | rfl
@[simp] theorem timeSample_mem (r : SegRead) (s : State) : (timeSample r s).mem = s.mem := by
  unfold timeSample <;> (try dsimp only) <;> (repeat' split) <;> first | (simp; done) | (simp_all; done) | rfl
@[simp] theorem latchTether_mem (ok : Bool) (g : Seg) (s : State) : (latchTether ok g s).mem = s.mem := by
  unfold latchTether <;> (try dsimp only) <;> (repeat' split) <;> first | (simp; done) | (simp_all; done) | rfl
@[simp] theorem keepSegment_mem (s : State) : (keepSegment s).mem = s.mem := by
  unfold keepSegment <;> (try dsimp only) <;> (repeat' split) <;> first | (simp; done) | (simp_all; done) | rfl
@[simp] theorem sentSegment_mem (s : State) : (sentSegment s).mem = s.mem := by
  unfold sentSegment <;> (try dsimp only) <;> (repeat' split) <;> first | (simp; done) | (simp_all; done) | rfl
@[simp] theorem memberLatch_mem (p : PortId) (bits : Nat) (g : Seg) (s : State) : (memberLatch p bits g s).mem = s.mem := by
  unfold memberLatch <;> (try dsimp only) <;> (repeat' split) <;> first | (simp; done) | (simp_all; done) | rfl
@[simp] theorem beginSweep_mem (p : PortId) (ws : Words) (bad : Nat) (s : State) : (beginSweep p ws bad s).mem = s.mem := by
  unfold beginSweep <;> (try dsimp only) <;> (repeat' split) <;> first | (simp; done) | (simp_all; done) | rfl
@[simp] theorem startTetherSweep_mem (p : PortId) (s : State) : (startTetherSweep p s).mem = s.mem := by
  unfold startTetherSweep <;> (try dsimp only) <;> (repeat' split) <;> first | (simp; done) | (simp_all; done) | rfl
@[simp] theorem sweepStart_mem (p : PortId) (s : State) : (sweepStart p s).mem = s.mem := by
  unfold sweepStart <;> (try dsimp only) <;> (repeat' split) <;> first | (simp; done) | (simp_all; done) | rfl
@[simp] theorem endTetherSweep_mem (segw : Nat) (l : List (Nat × Option Seg)) (s : State) : (endTetherSweep segw l s).mem = s.mem := by
  unfold endTetherSweep <;> (try dsimp only) <;> (repeat' split) <;> first | (simp; done) | (simp_all; done) | rfl
@[simp] theorem sweepEnd_mem (p : PortId) (segs : List Seg) (s : State) : (sweepEnd p segs s).mem = s.mem := by
  unfold sweepEnd <;> (try dsimp only) <;> (repeat' split) <;> first | (simp; done) | (simp_all; done) | rfl
@[simp] theorem tetherSyncSample_mem (s : State) : (tetherSyncSample s).mem = s.mem := by
  unfold tetherSyncSample <;> (try dsimp only) <;> (repeat' split) <;> first | (simp; done) | (simp_all; done) | rfl
@[simp] theorem tapLoad_mem (i : TapInstr) (keep : Bool) (s : State) : (tapLoad i keep s).mem = s.mem := by
  unfold tapLoad <;> (try dsimp only) <;> (repeat' split) <;> first | (simp; done) | (simp_all; done) | rfl
@[simp] theorem coolSensors_mem (s : State) : (coolSensors s).mem = s.mem := by
  unfold coolSensors <;> (try dsimp only) <;> (repeat' split) <;> first | (simp; done) | (simp_all; done) | rfl
@[simp] theorem suspendBackground_mem (s : State) : (suspendBackground s).mem = s.mem := by
  unfold suspendBackground <;> (try dsimp only) <;> (repeat' split) <;> first | (simp; done) | (simp_all; done) | rfl
@[simp] theorem resumeBackground_mem (s : State) : (resumeBackground s).mem = s.mem := by
  unfold resumeBackground <;> (try dsimp only) <;> (repeat' split) <;> first | (simp; done) | (simp_all; done) | rfl
@[simp] theorem dropGather_mem (t : Tid) (s : State) : (dropGather t s).mem = s.mem := by
  unfold dropGather <;> (try dsimp only) <;> (repeat' split) <;> first | (simp; done) | (simp_all; done) | rfl
@[simp] theorem keepFlash_wf (old new : State) (h : Memory.wf old.mem = true) : Memory.wf (keepFlash old new).mem = true := by
  unfold keepFlash; exact wf_filter _ (cutFlash_wf _ h)
@[simp] theorem stopCommit_mem (s : State) : (stopCommit s).mem = s.mem := by
  unfold stopCommit <;> (try dsimp only) <;> (repeat' split) <;> first | (simp; done) | (simp_all; done) | rfl
@[simp] theorem stopAbandon_wf (s : State) (h : Memory.wf s.mem = true) : Memory.wf (stopAbandon s).mem = true := by
  unfold stopAbandon <;> (try dsimp only) <;> (repeat' split) <;> first | exact h | (simp [h]; done) | (simp_all; done)
@[simp] theorem dropFrames_mem (s : State) : (dropFrames s).mem = s.mem := by
  unfold dropFrames <;> (try dsimp only) <;> (repeat' split) <;> first | (simp; done) | (simp_all; done) | rfl
@[simp] theorem stopLeave_snd_mem (s : State) : (stopLeave s).2.mem = s.mem := by
  unfold stopLeave <;> (try dsimp only) <;> (repeat' split) <;> (try (have hp := makeFrame_eq_mem (by assumption))) <;> first | (simp; done) | (simp_all; done) | rfl
theorem stopLeave_eq_mem {s : State} {a : Bool} {u : State} (h : stopLeave s = (a, u)) : u.mem = s.mem := by
  have := stopLeave_snd_mem s; rw [h] at this; exact this
@[simp] theorem leaveEnd_mem (s : State) : (leaveEnd s).mem = s.mem := by
  unfold leaveEnd <;> (try dsimp only) <;> (repeat' split) <;> first | (simp; done) | (simp_all; done) | rfl
@[simp] theorem aoutAllLow_mem (s : State) : (aoutAllLow s).mem = s.mem := by
  unfold aoutAllLow <;> (try dsimp only) <;> (repeat' split) <;> first | (simp; done) | (simp_all; done) | rfl
@[simp] theorem faultSensor_mem (i : SensorId) (s : State) : (faultSensor i s).mem = s.mem := by
  unfold faultSensor <;> (try dsimp only) <;> (repeat' split) <;> first | (simp; done) | (simp_all; done) | rfl
@[simp] theorem unitsFault_mem (f : Func) (s : State) : (unitsFault f s).mem = s.mem := by
  unfold unitsFault <;> (try dsimp only) <;> (repeat' split) <;> first | (simp; done) | (simp_all; done) | rfl
@[simp] theorem loadFactory_mem (s : State) : (loadFactory s).mem = s.mem := by
  unfold loadFactory <;> (try dsimp only) <;> (repeat' split) <;> first | (simp; done) | (simp_all; done) | rfl
@[simp] theorem unitsRelease_mem (s : State) : (unitsRelease s).mem = s.mem := by
  simp only [unitsRelease]; split
  · rw [modPort_mem, loadFactory_mem]
  · rw [loadFactory_mem]
@[simp] theorem recordRefusers_mem (l : List Refuser) (s : State) : (recordRefusers l s).mem = s.mem := by
  unfold recordRefusers <;> (try dsimp only) <;> (repeat' split) <;> first | (simp; done) | (simp_all; done) | rfl
@[simp] theorem descWord_snd_mem (k : Nat) (s : State) : (descWord k s).2.mem = s.mem := by
  unfold descWord <;> (try dsimp only) <;> (repeat' split) <;> first | (simp; done) | (simp_all; done) | rfl
theorem descWord_eq_mem {k : Nat} {s : State} {a : Word} {u : State} (h : descWord k s = (a, u)) : u.mem = s.mem := by
  have := descWord_snd_mem k s; rw [h] at this; exact this
@[simp] theorem armedSet_snd_mem (dormant : Bool) (s : State) : (armedSet dormant s).2.mem = s.mem := by
  unfold armedSet <;> (try dsimp only) <;> (repeat' split) <;> (try (have hp := descWord_eq_mem (by assumption))) <;> first | (simp; done) | (simp_all; done) | rfl
theorem armedSet_eq_mem {dormant : Bool} {s : State} {a : ArmedSet} {u : State} (h : armedSet dormant s = (a, u)) : u.mem = s.mem := by
  have := armedSet_snd_mem dormant s; rw [h] at this; exact this
@[simp] theorem startEntry_mem (c : CoreId) (t : Tid) (dormant : Bool) (a : ArmedSet) (s : State) : (startEntry c t dormant a s).mem = s.mem := by
  unfold startEntry <;> (try dsimp only) <;> (repeat' split) <;> first | (simp; done) | (simp_all; done) | rfl
@[simp] theorem latchPads_snd_mem (s : State) : (latchPads s).2.mem = s.mem := by
  unfold latchPads <;> (try dsimp only) <;> (repeat' split) <;> first | (simp; done) | (simp_all; done) | rfl
theorem latchPads_eq_mem {s : State} {a : BitVec 11} {u : State} (h : latchPads s = (a, u)) : u.mem = s.mem := by
  have := latchPads_snd_mem s; rw [h] at this; exact this
@[simp] theorem resumeCores_mem (s : State) : (resumeCores s).mem = s.mem := by
  unfold resumeCores <;> (try dsimp only) <;> (repeat' split) <;> first | (simp; done) | (simp_all; done) | rfl
@[simp] theorem pauseCores_mem (s : State) : (pauseCores s).mem = s.mem := by
  unfold pauseCores <;> (try dsimp only) <;> (repeat' split) <;> first | (simp; done) | (simp_all; done) | rfl
@[simp] theorem releaseHolds_mem (e : Entry) (s : State) : (releaseHolds e s).mem = s.mem := by
  unfold releaseHolds <;> (try dsimp only) <;> (repeat' split) <;> first | (simp; done) | (simp_all; done) | rfl
@[simp] theorem undoEntry_mem (e : Entry) (s : State) : (undoEntry e s).mem = s.mem := by
  unfold undoEntry <;> (try dsimp only) <;> (repeat' split) <;> first | (simp; done) | (simp_all; done) | rfl
@[simp] theorem abortEntry_mem (e : Entry) (k : Nat) (w : WakeFlag) (s : State) : (abortEntry e k w s).mem = s.mem := by
  unfold abortEntry <;> (try dsimp only) <;> (repeat' split) <;> first | (simp; done) | (simp_all; done) | rfl
@[simp] theorem latchHolds_mem (e : Entry) (s : State) : (latchHolds e s).mem = s.mem := by
  unfold latchHolds <;> (try dsimp only) <;> (repeat' split) <;> (try (have hp := latchPads_eq_mem (by assumption))) <;> first | (simp; done) | (simp_all; done) | rfl
@[simp] theorem entryClock_mem (s : State) : (entryClock s).mem = s.mem := by
  unfold entryClock <;> (try dsimp only) <;> (repeat' split) <;> first | (simp; done) | (simp_all; done) | rfl
@[simp] theorem beginStep_mem (e : Entry) (k : Nat) (s : State) : (beginStep e k s).mem = s.mem := by
  unfold beginStep <;> (try dsimp only) <;> (repeat' split) <;> first | (simp; done) | (simp_all; done) | rfl
@[simp] theorem abortTest_mem (e : Entry) (k : Nat) (s : State) : (abortTest e k s).mem = s.mem := by
  unfold abortTest <;> (try dsimp only) <;> (repeat' split) <;> first | (simp; done) | (simp_all; done) | rfl
@[simp] theorem dropWorking_wf (s : State) (h : Memory.wf s.mem = true) : Memory.wf (dropWorking s).mem = true := by
  unfold dropWorking; exact keepFlash_wf _ _ h
@[simp] theorem enterSleep_wf (e : Entry) (s : State) (h : Memory.wf s.mem = true) : Memory.wf (enterSleep e s).mem = true := by
  unfold enterSleep <;> (try dsimp only) <;> (repeat' split) <;> first | exact h | (simp [h]; done) | (simp_all; done)
@[simp] theorem popFrame_mem (s : State) : (popFrame s).mem = s.mem := by
  unfold popFrame <;> (try dsimp only) <;> (repeat' split) <;> first | (simp; done) | (simp_all; done) | rfl
@[simp] theorem dropSent_mem (s : State) : (dropSent s).mem = s.mem := by
  unfold dropSent <;> (try dsimp only) <;> (repeat' split) <;> first | (simp; done) | (simp_all; done) | rfl
@[simp] theorem offEnds_mem (acked : Bool) (s : State) : (offEnds acked s).mem = s.mem := by
  unfold offEnds <;> (try dsimp only) <;> (repeat' split) <;> first | (simp; done) | (simp_all; done) | rfl
@[simp] theorem ackFrame_mem (f : SrlFrame) (s : State) : (ackFrame f s).mem = s.mem := by
  unfold ackFrame <;> (try dsimp only) <;> (repeat' split) <;> first | (simp; done) | (simp_all; done) | rfl
@[simp] theorem srqAck_mem (s : State) : (srqAck s).mem = s.mem := by
  unfold srqAck <;> (try dsimp only) <;> (repeat' split) <;> first | (simp; done) | (simp_all; done) | rfl
@[simp] theorem latchWake_mem (code : Nat) (info : Nat) (s : State) : (latchWake code info s).mem = s.mem := by
  unfold latchWake <;> (try dsimp only) <;> (repeat' split) <;> first | (simp; done) | (simp_all; done) | rfl
@[simp] theorem endWindow_mem (s : State) : (endWindow s).mem = s.mem := by
  unfold endWindow <;> (try dsimp only) <;> (repeat' split) <;> first | (simp; done) | (simp_all; done) | rfl
@[simp] theorem wokeOver_mem (s : State) : (wokeOver s).mem = s.mem := by
  unfold wokeOver <;> (try dsimp only) <;> (repeat' split) <;> first | (simp; done) | (simp_all; done) | rfl
@[simp] theorem noteUse_mem (s : State) : (noteUse s).mem = s.mem := by
  unfold noteUse <;> (try dsimp only) <;> (repeat' split) <;> first | (simp; done) | (simp_all; done) | rfl
@[simp] theorem thermEvent_mem (kind : Nat) (sensor : Nat) (s : State) : (thermEvent kind sensor s).mem = s.mem := by
  unfold thermEvent <;> (try dsimp only) <;> (repeat' split) <;> first | (simp; done) | (simp_all; done) | rfl
@[simp] theorem crossCheck_mem (read : Vector Int 6) (s : State) : (crossCheck read s).mem = s.mem := by
  unfold crossCheck <;> (try dsimp only) <;> (repeat' split) <;> first | (simp; done) | (simp_all; done) | rfl
@[simp] theorem warnStep_mem (s : State) : (warnStep s).mem = s.mem := by
  unfold warnStep <;> (try dsimp only) <;> (repeat' split) <;> first | (simp; done) | (simp_all; done) | rfl
@[simp] theorem throttleStep_mem (s : State) : (throttleStep s).mem = s.mem := by
  unfold throttleStep <;> (try dsimp only) <;> (repeat' split) <;> first | (simp; done) | (simp_all; done) | rfl
@[simp] theorem cutDomains_wf (s : State) (h : Memory.wf s.mem = true) : Memory.wf (cutDomains s).mem = true := by
  unfold cutDomains <;> (try dsimp only) <;> (repeat' split) <;> (try (have hp := latchPads_eq_mem (by assumption))) <;> first | exact h | (simp [h]; done) | (simp_all; done)
@[simp] theorem cutBySlope_wf (s : State) (h : Memory.wf s.mem = true) : Memory.wf (cutBySlope s).mem = true := by
  unfold cutBySlope <;> (try dsimp only) <;> (repeat' split) <;> first | exact h | (simp [h]; done) | (simp_all; done)
@[simp] theorem endAll_mem (s : State) : (endAll s).mem = s.mem := by
  unfold endAll <;> (try dsimp only) <;> (repeat' split) <;> first | (simp; done) | (simp_all; done) | rfl
@[simp] theorem startStop_mem (s : State) : (startStop s).mem = s.mem := by
  unfold startStop <;> (try dsimp only) <;> (repeat' split) <;> first | (simp; done) | (simp_all; done) | rfl
@[simp] theorem stopStep_wf (s : State) (h : Memory.wf s.mem = true) : Memory.wf (stopStep s).mem = true := by
  unfold stopStep <;> (try dsimp only) <;> (repeat' split) <;> first | exact h | (simp [h]; done) | (simp_all; done)
@[simp] theorem bootBegin_mem (s : State) : (bootBegin s).mem = s.mem := by
  unfold bootBegin <;> (try dsimp only) <;> (repeat' split) <;> first | (simp; done) | (simp_all; done) | rfl
@[simp] theorem refuseRestart_wf (s : State) (h : Memory.wf s.mem = true) : Memory.wf (refuseRestart s).mem = true := by
  unfold refuseRestart <;> (try dsimp only) <;> (repeat' split) <;> first | exact h | (simp [h]; done) | (simp_all; done)
@[simp] theorem restartRound_wf (s : State) (h : Memory.wf s.mem = true) : Memory.wf (restartRound s).mem = true := by
  unfold restartRound <;> (try dsimp only) <;> (repeat' split) <;> first | exact h | (simp [h]; done) | (simp_all; done)
@[simp] theorem thermalRound_wf (r : ThermRead) (s : State) (h : Memory.wf s.mem = true) : Memory.wf (thermalRound r s).mem = true := by
  unfold thermalRound <;> (try dsimp only) <;> (repeat' split) <;> first | exact h | (simp [h]; done) | (simp_all; done)
@[simp] theorem writeSections_wf (old n : Nat) : ∀ (off : Nat) (l : List Section) (s : State), Memory.wf s.mem = true →
    Memory.wf (writeSections old n off l s).mem = true
  | _, [], _, h => h
  | off, x :: r, s, h => by
    unfold writeSections; dsimp only; split
    · apply writeSections_wf
      split
      · exact wf_putBytes _ _ h
      · exact h
    · exact writeSections_wf _ _ _ _ _ h
@[simp] theorem zeroPart_wf : ∀ (b0 b1 : Nat) (l : List (Nat × Nat)) (s : State), Memory.wf s.mem = true →
    Memory.wf (zeroPart b0 b1 l s).mem = true
  | _, _, [], _, h => h
  | b0, b1, (a, n) :: r, s, h => by
    unfold zeroPart; dsimp only
    apply zeroPart_wf
    split
    · exact wf_zeroSpan _ _ h
    · exact h
@[simp] theorem loaderWrites_wf (l : Loader) (n : Nat) (s : State) (h : Memory.wf s.mem = true) :
    Memory.wf (loaderWrites l n s).mem = true := by
  unfold loaderWrites; exact writeSections_wf _ _ _ _ _ (zeroPart_wf _ _ _ _ h)
@[simp] theorem passReads_snd_mem (l : Loader) : ∀ (k n : Nat) (s : State), (passReads l k n s).2.mem = s.mem
  | _, 0, _ => rfl
  | k, n + 1, s => by
    unfold passReads; dsimp only; split
    · split
      · simp
      · rw [passReads_snd_mem l (k + 1) n]; simp
    · exact passReads_snd_mem l (k + 1) n s
@[simp] theorem startCleanup_mem (result : BitVec 8) (l : Loader) (s : State) : (startCleanup result l s).mem = s.mem := by
  unfold startCleanup <;> (try dsimp only) <;> (repeat' split) <;> first | (simp; done) | (simp_all; done) | rfl
@[simp] theorem loaderAdvance_wf (s : State) (h : Memory.wf s.mem = true) : Memory.wf (loaderAdvance s).mem = true := by
  unfold loaderAdvance; split
  · split
    · dsimp only; split
      · apply loaderWrites_wf
        split
        · exact h
        · simpa using h
      · exact h
    · dsimp only; split
      · exact zeroPart_wf _ _ _ _ h
      · exact h
  · exact h
@[simp] theorem loaderClock_wf (s : State) (h : Memory.wf s.mem = true) : Memory.wf (loaderClock s).mem = true := by
  unfold loaderClock <;> (try dsimp only) <;> (repeat' split) <;> first | exact h | (simp [h]; done) | (simp_all; done)
@[simp] theorem revokeCore_mem (t : Tid) (s : State) (c : CoreId) : (revokeCore t s c).mem = s.mem := by
  unfold revokeCore <;> (try dsimp only) <;> (repeat' split) <;> first | (simp; done) | (simp_all; done) | rfl
@[simp] theorem revokeSaved_mem (t : Tid) (s : State) (k : Nat) : (revokeSaved t s k).mem = s.mem := by
  unfold revokeSaved <;> (try dsimp only) <;> (repeat' split) <;> first | (simp; done) | (simp_all; done) | rfl
@[simp] theorem withdraw_mem (t : Tid) (s : State) : (withdraw t s).mem = s.mem := by
  unfold withdraw <;> (try dsimp only) <;> (repeat' split) <;> first | (simp; done) | (simp_all; done) | rfl
@[simp] theorem hardReset_wf (cause : BitVec 3) (s : State) (h : Memory.wf s.mem = true) :
    Memory.wf (hardReset cause s).mem = true := by
  unfold hardReset; exact keepFlash_wf _ _ h
@[simp] theorem powerDown_wf (s : State) (h : Memory.wf s.mem = true) : Memory.wf (powerDown s).mem = true := by
  unfold powerDown <;> (try dsimp only) <;> (repeat' split) <;> first | exact h | (simp [h]; done) | (simp_all; done)
@[simp] theorem externalReset_wf (s : State) (h : Memory.wf s.mem = true) : Memory.wf (externalReset s).mem = true := by
  unfold externalReset <;> (try dsimp only) <;> (repeat' split) <;> first | exact h | (simp [h]; done) | (simp_all; done)
@[simp] theorem bootDormant_wf (st : BitVec 8) (s : State) (h : Memory.wf s.mem = true) : Memory.wf (bootDormant st s).mem = true := by
  unfold bootDormant <;> (try dsimp only) <;> (repeat' split) <;> first | exact h | (simp [h]; done) | (simp_all; done)
@[simp] theorem setReady_mem (f : Func) (s : State) : (setReady f s).mem = s.mem := by
  unfold setReady <;> (try dsimp only) <;> (repeat' split) <;> first | (simp; done) | (simp_all; done) | rfl
@[simp] theorem sensorReady_mem (f : Func) (i : SensorId) (s : State) : (sensorReady f i s).mem = s.mem := by
  unfold sensorReady <;> (try dsimp only) <;> (repeat' split) <;> first | (simp; done) | (simp_all; done) | rfl
@[simp] theorem failFunction_mem (f : Func) (s : State) : (failFunction f s).mem = s.mem := by
  unfold failFunction <;> (try dsimp only) <;> (repeat' split) <;> first | (simp; done) | (simp_all; done) | rfl
@[simp] theorem bootLoad_mem (a : Nat) (key : BitVec 3) (s : State) : (bootLoad a key s).mem = s.mem := by
  unfold bootLoad <;> (try dsimp only) <;> (repeat' split) <;> first | (simp; done) | (simp_all; done) | rfl
@[simp] theorem beginAttempt_mem (slot : BitVec 2) (s : State) : (beginAttempt slot s).mem = s.mem := by
  unfold beginAttempt <;> (try dsimp only) <;> (repeat' split) <;> first | (simp; done) | (simp_all; done) | rfl
@[simp] theorem trySlots_wf : ∀ (n : Nat) (last : BitVec 8) (s : State), Memory.wf s.mem = true →
    Memory.wf (trySlots n last s).mem = true
  | 0, last, s, h => by unfold trySlots; exact bootDormant_wf _ _ h
  | n + 1, last, s, h => by
    unfold trySlots; split
    · exact bootDormant_wf _ _ h
    · dsimp only; split
      · simpa using h
      · exact trySlots_wf n _ _ (by simpa using h)
@[simp] theorem countReads_mem (s : State) : ∀ l : List Nat, (countReads s l).mem = s.mem
  | [] => rfl
  | a :: r => by unfold countReads; rw [countReads_mem _ r]; simp
@[simp] theorem tryHost_wf (s : State) (h : Memory.wf s.mem = true) : Memory.wf (tryHost s).mem = true := by
  unfold tryHost; dsimp only
  repeat' split
  all_goals simpa using wf_zeroSpan _ _ (by simpa using h)
@[simp] theorem ringDoorbell_mem (s : State) : (ringDoorbell s).mem = s.mem := by
  unfold ringDoorbell <;> (try dsimp only) <;> (repeat' split) <;> first | (simp; done) | (simp_all; done) | rfl
@[simp] theorem readDeclarations_mem (s : State) : (readDeclarations s).mem = s.mem := by
  unfold readDeclarations <;> (try dsimp only) <;> (repeat' split) <;> first | (simp; done) | (simp_all; done) | rfl
@[simp] theorem startOwner_wf (l : Loader) (s : State) (h : Memory.wf s.mem = true) : Memory.wf (startOwner l s).mem = true := by
  unfold startOwner; dsimp only
  split
  · simpa using h
  · simpa using wf_zeroSpan 0x201FFFFC 4 (s := readDeclarations s) (by simpa using h)
@[simp] theorem joinHive_mem (t : Tid) (ws : Words) (s : State) : (joinHive t ws s).mem = s.mem := by
  unfold joinHive <;> (try dsimp only) <;> (repeat' split) <;> first | (simp; done) | (simp_all; done) | rfl
@[simp] theorem leaveMsgs_mem (s : State) : (leaveMsgs s).mem = s.mem := by
  unfold leaveMsgs <;> (try dsimp only) <;> (repeat' split) <;> first | (simp; done) | (simp_all; done) | rfl
@[simp] theorem leaveHive_mem (s : State) : (leaveHive s).mem = s.mem := by
  unfold leaveHive <;> (try dsimp only) <;> (repeat' split) <;> first | (simp; done) | (simp_all; done) | rfl
@[simp] theorem newMsg_snd_mem (t : Tid) (ws : Words) (left : Nat) (wag : Option (Nat × Nat)) (s : State) : (newMsg t ws left wag s).2.mem = s.mem := by
  unfold newMsg <;> (try dsimp only) <;> (repeat' split) <;> first | (simp; done) | (simp_all; done) | rfl
theorem newMsg_eq_mem {t : Tid} {ws : Words} {left : Nat} {wag : Option (Nat × Nat)} {s : State} {a : Nat} {u : State} (h : newMsg t ws left wag s = (a, u)) : u.mem = s.mem := by
  have := newMsg_snd_mem t ws left wag s; rw [h] at this; exact this
@[simp] theorem invalLines_mem (a : Nat) (s : State) : (invalLines a s).mem = s.mem := by
  unfold invalLines <;> (try dsimp only) <;> (repeat' split) <;> first | (simp; done) | (simp_all; done) | rfl
@[simp] theorem atStart_mem (s : State) : (State.atStart s).mem = s.mem := by
  unfold State.atStart <;> (try dsimp only) <;> (repeat' split) <;> first | (simp; done) | (simp_all; done) | rfl
@[simp] theorem startHost_mem (q : HostReq) (s : State) : (startHost q s).mem = s.mem := by
  unfold startHost <;> (try dsimp only) <;> (repeat' split) <;> first | (simp; done) | (simp_all; done) | rfl
@[simp] theorem hostAfter_mem (s : State) : (hostAfter s).mem = s.mem := by
  unfold hostAfter <;> (try dsimp only) <;> (repeat' split) <;> first | (simp; done) | (simp_all; done) | rfl
@[simp] theorem hostSwap_mem (q : HostReq) (s : State) : (hostSwap q s).mem = s.mem := by
  unfold hostSwap <;> (try dsimp only) <;> (repeat' split) <;> first | (simp; done) | (simp_all; done) | rfl
@[simp] theorem settleWake_mem (st : Stall) (s : State) : (settleWake st s).mem = s.mem := by
  unfold settleWake <;> (try dsimp only) <;> (repeat' split) <;> first | (simp; done) | (simp_all; done) | rfl
@[simp] theorem sendStatus_mem (b : Byte) (s : State) : (sendStatus b s).mem = s.mem := by
  unfold sendStatus <;> (try dsimp only) <;> (repeat' split) <;> first | (simp; done) | (simp_all; done) | rfl
@[simp] theorem hostCommand_mem (s : State) : (hostCommand s).mem = s.mem := by
  unfold hostCommand <;> (try dsimp only) <;> (repeat' split) <;> first | (simp; done) | (simp_all; done) | rfl
@[simp] theorem hostFrame_mem (k : State → State) (s : State) (h : ∀ u, (k u).mem = u.mem) : (hostFrame k s).mem = s.mem := by
  unfold hostFrame; repeat' split
  · simp [h]
  · rfl
  · rfl
@[simp] theorem hostDiscard_mem (s : State) : (hostDiscard s).mem = s.mem := by
  unfold hostDiscard <;> (try dsimp only) <;> (repeat' split) <;> first | (simp; done) | (simp_all; done) | rfl
@[simp] theorem hostReject_mem (s : State) : (hostReject s).mem = s.mem := by
  unfold hostReject <;> (try dsimp only) <;> (repeat' split) <;> first | (simp; done) | (simp_all; done) | rfl
@[simp] theorem hostRequest_mem (ok : Bool) (q : HostReq) (s : State) : (hostRequest ok q s).mem = s.mem := by
  unfold hostRequest <;> (try dsimp only) <;> (repeat' split) <;> first | (simp; done) | (simp_all; done) | rfl
@[simp] theorem sendReply_mem (n : Nat) (lanes : BitVec 3) (s : State) : (sendReply n lanes s).mem = s.mem := by
  unfold sendReply <;> (try dsimp only) <;> (repeat' split) <;> first | (simp; done) | (simp_all; done) | rfl
@[simp] theorem doLater_mem (s : State) (x : Later) : (doLater s x).mem = s.mem := by
  unfold doLater; repeat' split
  all_goals simp
@[simp] theorem startOfClock_mem (s : State) : (startOfClock s).mem = s.mem := by
  unfold startOfClock; rw [foldl_mem _ _ _ (fun u x => doLater_mem u x)]
@[simp] theorem endClock_mem (s : State) : (endClock s).mem = s.mem := by
  unfold endClock <;> (try dsimp only) <;> (repeat' split) <;> first | (simp; done) | (simp_all; done) | rfl
@[simp] theorem startClock_wf (s : State) (h : Memory.wf s.mem = true) : Memory.wf (startClock s).mem = true := by
  have hn : ∀ u, (noteEdge u).mem = u.mem := fun _ => rfl
  simp only [startClock, hn, lineClock_mem]
  apply loaderClock_wf
  simp only [noteRound_mem, noteUse_mem, entryClock_mem, noteCompares_mem, startOfClock_mem]
  exact h
@[simp] theorem noteShown_mem (s : State) : (noteShown s).mem = s.mem := by
  unfold noteShown <;> (try dsimp only) <;> (repeat' split) <;> first | (simp; done) | (simp_all; done) | rfl
/-- A clock keeps the canonical form of memory. -/
@[simp] theorem tick_wf (s : State) (h : Memory.wf s.mem = true) : Memory.wf (tick s).mem = true := by
  unfold tick; split
  · simp only [noteShown_mem, dropSent_mem, longStalls_mem, portClock_mem]
    apply startClock_wf
    simpa using h
  · exact h
  · simpa using h
@[simp] theorem withFetchWord_mem (s : State) (nbits : Nat) (w : Nat) : (State.withFetchWord s nbits w).mem = s.mem := by
  unfold State.withFetchWord <;> (try dsimp only) <;> (repeat' split) <;> first | (simp; done) | (simp_all; done) | rfl

end Sys2Proof.Machine
end

