-- ==== Sys2Proof/Laws/All.lean ====
section
/-!
SUPPORT. Sys2Proof/Laws/All.lean: every lemma file, for the proofs to import.
-/
end

