-- ==== Sys2Proof/WellFormed.lean ====
section
/-!
DEFINITION. Sys2Proof/WellFormed.lean: which terms of `Instr` are commands that a core or the environment can give: an
instruction word of the core exists that is read as this row, and what arrives over a link fits it. No meaning depends
on it: every command has its outcome, well formed or not.
-/
namespace Sys2Proof

/-- A frame on air has at most 127 octets of PSDU (R408). -/
def RxFrame.wf (f : RxFrame) : Bool := f.psdu.length ≤ 127

/-- A packet ends within a word. -/
def HostPkt.wf (p : HostPkt) : Bool := p.extra < 32 && p.words.length ≤ 256

/-- A segment has at most 16 words (Table 13.2, SEGW). -/
def Seg.wf (g : Seg) : Bool := g.words.length ≤ 16

/-- A command is well formed. -/
def Instr.wf : Instr → Bool
  | .callRx f | .claimRx f | .defendRx f | .renewRx f | .routeadvRx f | .macAckRx f | .dataRx f | .nackRx f
  | .delivRx f | .leaveRx f | .sreqRx f | .srespRx f | .foreignFrameRx f => f.wf
  | .hostExecute p | .hostReadQueue p | .hostGrantCredit p | .hostReadWindow p | .hostReadReply p => p.wf
  | .slaveSelectRelease _ bits _ => bits < 32
  | .memberLatch _ _ g => g.wf
  | .sweepEnd _ gs => gs.length ≤ 63 && gs.all Seg.wf
  | i => encDefined i

end Sys2Proof
end

