-- ==== Sys2Proof/Tests/Slice0.lean ====
section
/-!
SUPPORT. Sys2Proof/Tests/Slice0.lean: the well-formedness smoke test, decoding of words that the manual spells out or that
are written from its encodings, a few of its worked examples, and for every statement with hypotheses a witness that
meets them, clause by clause.
-/
namespace Sys2Proof.Tests

open Sys2Proof Sys2Proof.Machine

set_option maxRecDepth 10000
set_option Elab.async false

/-! ## Ill-formed terms, one for each check -/

theorem test_wf_refuses_long_frame : Instr.wf (.callRx ⟨false, List.replicate 128 0, 0, 0, 0⟩) = false := by decide +kernel
theorem test_wf_refuses_extra_word_bits : Instr.wf (.hostExecute ⟨0, [], 32⟩) = false := by decide +kernel
theorem test_wf_refuses_long_packet : Instr.wf (.hostReadQueue ⟨0, List.replicate 257 0, 0⟩) = false := by decide +kernel
theorem test_wf_refuses_word_as_part : Instr.wf (.slaveSelectRelease 0 32 0) = false := by decide +kernel
theorem test_wf_refuses_wide_segment : Instr.wf (.memberLatch 0 0 ⟨List.replicate 17 0, 0⟩) = false := by decide +kernel
theorem test_wf_refuses_long_sweep : Instr.wf (.sweepEnd 0 (List.replicate 64 ⟨[], 0⟩)) = false := by decide +kernel
theorem test_wf_refuses_undefined_field : Instr.wf (.mul 0 ⟨0, 0, 0, 1⟩) = false := by decide +kernel
theorem test_wf_accepts_defined : Instr.wf (.mul 0 ⟨1, 2, 3, 0⟩) = true := by decide +kernel

/-! ## Words of Table 2.1 -/

/-- Example 2.A: MOVL w5, #0x0400 and MOVH w5, #0x2010. -/
theorem test_decode_mov : decodeCore 0 0x09400400 = some (.movl 0 ⟨5, 0, 0x0400⟩) ∧
    decodeCore 0 0x09502010 = some (.movh 0 ⟨5, 0, 0x2010⟩) := by decide +kernel
/-- Example 2.A: ADD w4, w4, #1. -/
theorem test_decode_add : decodeCore 0 0x05104001 = some (.add 0 ⟨4, 4, .imm 1⟩) := by decide +kernel
/-- Example 2.A: JPUT w5, w6 and JCOMMIT. -/
theorem test_decode_journal : decodeCore 0 0xB0158000 = some (.jput 0 ⟨0, 5, 6, 0⟩) ∧
    decodeCore 0 0xB0000100 = some (.jcommit 0 ⟨0, 0, 0, 0⟩) := by decide +kernel
/-- Example 2.A: BNZ ST over three instructions, and EXIT. -/
theorem test_decode_flow : decodeCore 0 0x31400003 = some (.bnzSt 0 ⟨0, 3⟩) ∧
    decodeCore 0 0x40000600 = some (.exit 0 ⟨0, 0, 0, 0⟩) := by decide +kernel
/-- Example 14.A: TAKE C, AWAIT fall, GIVE.N.EV MARK.LO, COUNT C0 INC, BRANCH TO 12 and a code of no instruction. -/
theorem test_decode_engine : decodeEngine 0x5002 = .take false false 1 ∧ decodeEngine 0x9400 = .await 2 false 0 ∧
    decodeEngine 0x600D = .give true true 2 ∧ decodeEngine 0x8200 = .count false 1 0 ∧
    decodeEngine 0x790C = .branch 9 0 12 ∧ decodeEngine 0xF000 = .reserved := by decide +kernel

/-! ## Worked examples -/

/-- Example 5.A: the SET frame to L3, VCODE 0x54, SEQ 5. -/
theorem test_supply_frame : frameWord ⟨.change, 0, 3, 0x54, 0, none⟩ 5 = 0xB3545C := by decide +kernel
/-- Example 15.A: θ of 150 ticks after 1 s at 12 ppm sets TRIMRATE 210 and adds. -/
theorem test_trim_rate :
    (applySample ⟨150, 1⟩ 192000000 { State.reset with
      time := { TimeSt.reset with valid := true }, hive := { HiveSt.reset with freq := ⟨12, 1000000⟩ } }).time.trimRate = 210 := by
  decide +kernel
/-- Example 16.A: the first word of a record of 16 bytes under key 0x0101 of T2. -/
theorem test_record_word : (recordBytes 0x0101 2 (List.replicate 16 0)).take 4 = [0x01, 0x01, 0x10, 0x10] := by decide +kernel
/-- Example 19.A: word 0 of the wake record of a waggle on PORT_2 in Hibernate. -/
theorem test_wake_word : wakeWord ⟨5, false, false, 2, 0, 0, 0, 0, 0, 0⟩ 0x80 = 0x00020005 := by decide +kernel
/-- RFC 8032, test 1 of section 7.1: the signature of the empty message, which Table 3.7 verifies. -/
theorem test_ed25519 : edVerify
    (beBytes 32 0xd75a980182b10ab7d54bfed3c964073a0ee172f3daa62325af021a68f707511a) []
    (beBytes 64 0xe5564300c360ac729086e2cc806e828a84877f1eb8e5d974d873e065224901555fb8821590a33bacc61e39701cf9b46bd25bf5f0595bbe24655141438e7a100b) =
    true := by decide +kernel
/-- The reset memory has its canonical form, and a store of what an address reads anyway lists nothing. -/
theorem test_memory_canonical : Memory.wf State.reset.mem = true ∧ memPut [] 0x20100000 0 = [] ∧
    memPut (memPut [] 0x20100000 1) 0x20100000 0 = [] := by decide +kernel
/-- The queue: the front command runs with the rest left, and an empty queue of a device without power idles. -/
theorem test_step_queue : (match step { State.reset with pending := [.pgoodLow 10, .pgoodLow 10] } with
    | .next t => t.pending.length == 1 | _ => false) = true := by decide +kernel

/-! ## Helpers of the witnesses -/

/-- A host packet's invocation, which is not fetched (R7). -/
def wI : Inv := ⟨0, none, 0, 7, 5, 0, 0, 0, false, false, false⟩
/-- The same for tenant 1, whose record admits nothing. -/
def wI1 : Inv := { wI with tenant := 1 }
/-- A device that runs, with every function ready, its owner started and core K in an invocation. -/
def wS : State := { State.reset with
  time := { TimeSt.reset with mode := .running, relAt := none }
  boot := { BootSt.reset with ready := 0x7FFFF, phase := .done, bootst := 0 }
  cores := vset State.reset.cores 0 { Core.idle with inv := some wI } }
/-- The same device with no invocation on any core. -/
def wF : State := { wS with cores := State.reset.cores }
/-- The registers w0 to w15 of core K. -/
def wReg (s : State) (l : Words) : State :=
  s.setRegs 0 { s.regs 0 with w := ⟨⟨(List.range 16).map (wordAt l)⟩, by simp⟩ }
/-- Words in memory. -/
def wMem (s : State) (a : Nat) (l : Words) : State := { s with mem := memPuts s.mem a (bytesOfWords l) }
/-- The next state of an outcome. -/
def wNext : Host.Outcome State Fault Refusal → State
  | .next t => t
  | _ => wS
/-- What Begins asks of the invocation of a host packet, which is not fetched. -/
def wOk (v : Inv) (s : State) : Bool :=
  (s.core 0).inv == some v && s.running && !(s.core 0).paused && (s.core 0).stall.isNone &&
  decide ((s.core 0).goAt ≤ s.time.clk) && !(s.core 0).resuming && !v.stopped && (dueFault v).isNone && v.bind.isNone
/-- An invocation of a host packet begins its instruction in the state as it is. -/
theorem wB {i : Instr} {v : Inv} {s : State} (h : wOk v s = true) : Begins 0 i v s s := by
  simp only [wOk, Bool.and_eq_true, beq_iff_eq, Bool.not_eq_true', Option.isNone_iff_eq_none, decide_eq_true_eq] at h
  obtain ⟨⟨⟨⟨⟨⟨⟨⟨hc, hr⟩, hp⟩, hs⟩, hg⟩, hz⟩, ht⟩, hd⟩, hb⟩ := h
  exact ⟨hc, hr, hp, hs, hg, hz, .inr ⟨ht, hd⟩, by simp [fetch, hb]⟩
/-- A binding of tenant 0 on the events of Q_0. -/
def wBd : Binding := ⟨0x30, 0, 3, 5, false, 0x20000000, 0, [], 0, 0, 0⟩
/-- Tenant 1 holds all of data SRAM and is signed for by the key of zeros. -/
def wTen : Tenant := { Tenant.vacant with
  state := .granted
  record := wordsVec 24 (List.replicate 13 0 ++ [0x10000, 0, 0] ++ wordsOfBytes (sha256 (List.replicate 32 0))) }
/-- A spool image of one zero section for tenant 1 in data SRAM, w1 naming it. -/
def wSpool : State :=
  (wMem (wReg wS [0, 0x20100000]) 0x20100000
    [0x4C4F5053, 1, 144, 1, 9, 0, 0, 0, 0, 0, 0, 0, 0, 0, 0, 0, 0x20110000, 4, 0, 2]).setTenant 1 wTen
/-- A hive that holds address 1, on the radio, unsecured. -/
def wHv : HiveSt := { HiveSt.reset with st := .run, join := [0x00200000, 0x600000, 0xC005, 0], addr := 1 }
def wHs (h : HiveSt) : State :=
  { wS with time := { wS.time with phys := 30720 }, hive := h, mem := (List.range 8).map (fun i => (0x087FFFB0 + i, if i = 0 then 7 else 0)) }
/-- A message descriptor that w1 names. -/
def wDesc (h : HiveSt) (l : Words) : State := wMem (wReg (wHs h) [0, 0x20100000]) 0x20100000 l
/-- A frame that waits for the radio with its backoff over. -/
def wTx (ack : Bool) : TxEnt := ⟨⟨0, 1, 2, false, 0, 0, 0, 0, 0, [], .short⟩, 2, ack, 0, 0, 0, 0, some 0, .forward⟩
/-- A hive that follows node 5 and has an exchange with it due. -/
def wSy : HiveSt :=
  { wHv with leases := vset wHv.leases 0 (some ⟨5, 9, 0, true, 0, 0, 0, 6, 0, none⟩), nbrs := [⟨5, 0⟩], sreq := some (0, 30720) }
/-- The PSDU of an unsecured hive frame from node 5, and the frame that the radio receives. -/
def wPs (typ orig fdest : Nat) (body : List Byte) (dst : Nat) (ext : Bool) : List Byte :=
  buildPsdu [] 0 0 0 (macHeader 0 false ext 0 0 dst 5)
    (HFrame.payload ⟨typ, orig, fdest, false, 1, 1, 0, 0, 0, body, .short⟩)
def wFr (l : List Byte) : RxFrame := ⟨false, l, 0, 0, 0⟩
def wIsPkt : RxClass → Bool | .frame _ => true | _ => false
def wPkt : RxClass → RxPkt
  | .frame p => p
  | _ => ⟨⟨0, 0, 0, false, 0, 0, 0, 0, 0, [], .short⟩, false, 0, none, 0, false, false, 0, false⟩
theorem wRx {r : RxClass} (h : wIsPkt r = true) : r = .frame (wPkt r) := by cases r <;> simp_all [wIsPkt, wPkt]
def wClass : RxClass → Nat | .ignore => 0 | .foreign => 1 | .mic => 2 | .replay => 3 | .frame _ => 4
theorem wForeign {r : RxClass} (h : wClass r = 1) : r = .foreign := by cases r <;> simp_all [wClass]
theorem wMic {r : RxClass} (h : wClass r = 2) : r = .mic := by cases r <;> simp_all [wClass]
theorem wReplay {r : RxClass} (h : wClass r = 3) : r = .replay := by cases r <;> simp_all [wClass]
def wAck : MacRes → Option Byte | .ack q => some q | _ => none
theorem wAcks {r : MacRes} {q : Byte} (h : wAck r = some q) : r = .ack q := by cases r <;> simp_all [wAck]
def wCand (d : Cand) : Nat × Nat × Bool × Nat × Nat × Nat := (d.prio, d.time, d.pendingEv, d.bindIx, d.order, d.ix)
theorem wSel {o : Option Cand} {d : Cand} (h : o.map wCand = some (wCand d)) : o = some d := by
  cases o <;> simp_all [wCand] <;> cases ‹Cand› <;> cases d <;> simp_all
/-- A load for tenant 31 that has an empty image. -/
def wLd : Loader :=
  ⟨.tenant 31, 0, 0, 0, 0, 0, 0, 0, 0, 0, [], [], [], [], [], 0, none, 0, 0, .loading, 0, 0, (0, 0), false⟩
/-- The neutral point as a public key, and the signature that it verifies for every message. -/
def wKey : List Byte := 1 :: List.replicate 31 0
def wSig : List Byte := wKey ++ List.replicate 32 0
def wClk (n : Nat) (s : State) : State := { s with time := { s.time with clk := n } }
def wPhys (n : Nat) (s : State) : State := { s with time := { s.time with phys := n } }
def wBoot (g : BootSt → BootSt) : State := { wS with boot := g wS.boot }
def wLv (l : LevelSt) (n : Nat) : State := wPhys n { wS with level := l }
/-- A device in Hibernate whose detectors are armed. -/
def wArm (a : ArmedSet) : State :=
  { wS with time := { wS.time with mode := .hibernate }, sleep := { wS.sleep with armed := a } }
/-- A sleep entry that stands at a step that began at clock 0. -/
def wEnt (n : Nat) : Entry := ⟨true, 0, 0, n, 0, 0, 0, false, 0, none⟩
def wSl (e : Entry) : State := { wS with sleep := { wS.sleep with entry := some e } }
/-- Step 4 of a sleep entry, whose OFF frame started at instant 0. -/
def wOff (n : Nat) : State :=
  wPhys n { wSl (wEnt 4) with level := { LevelSt.reset with srl := [⟨.sleepOff, 0, 0, 0, 0, some 0⟩] } }
/-- A step of SEAL with a code in w1, the journal as given. -/
def wSeal (a : Word) (g : JournalSt → JournalSt := id) : State :=
  { wReg wS [0, a] with journal := g { JournalSt.reset with st := .ready } }
/-- Engine 7 in RUN at an instruction, with eight input pins. -/
def wEng (op : Nat) (g : Engine → Engine := id) : State :=
  wS.setEngine 7 (g { Engine.reset with st := .run, load := [0, 0x100000, 0, 0, op] })
/-- A stall of core F0 in an instruction that touches AOUT. -/
def wStl (w : StallWhy) : Stall := ⟨.aoutStart 1 ⟨0, 0, 0, 0⟩, false, .aout, 0, 0, true, w⟩
def wStall (w : StallWhy) : State := (wBoot (fun b => { b with ready := 0 })).setCore 1 { Core.idle with inv := some wI, stall := some (wStl w) }
def wStop (n : Nat) : State := { wS with therm := { wS.therm with stop := some ⟨n, 0, false⟩ } }

/-! ## Witnesses of the hypotheses of every statement -/

/-- Every hypothesis of AluResults can be met, clause by clause. -/
theorem test_witness_aluResults :
    (∃ (c : CoreId) (v : Inv) (s : State) (s' : State) (rd : BitVec 4) (ra : BitVec 4) (b : AluSrc),
       let f : AluForm := ⟨rd, ra, b⟩
       Begins c (.add c f) v s s' ∧ modOk 1 b = true) ∧
    (∃ (c : CoreId) (v : Inv) (s : State) (s' : State) (rd : BitVec 4) (ra : BitVec 4) (b : AluSrc),
       let f : AluForm := ⟨rd, ra, b⟩
       Begins c (.sub c f) v s s' ∧ modOk 1 b = true) ∧
    (∃ (c : CoreId) (v : Inv) (s : State) (s' : State) (rd : BitVec 4) (ra : BitVec 4) (b : AluSrc),
       let f : AluForm := ⟨rd, ra, b⟩
       Begins c (.and c f) v s s' ∧ modOk 0 b = true) ∧
    (∃ (c : CoreId) (v : Inv) (s : State) (s' : State) (rd : BitVec 4) (ra : BitVec 4) (b : AluSrc),
       let f : AluForm := ⟨rd, ra, b⟩
       Begins c (.or c f) v s s' ∧ modOk 0 b = true) ∧
    (∃ (c : CoreId) (v : Inv) (s : State) (s' : State) (rd : BitVec 4) (ra : BitVec 4) (b : AluSrc),
       let f : AluForm := ⟨rd, ra, b⟩
       Begins c (.xor c f) v s s' ∧ modOk 0 b = true) ∧
    (∃ (c : CoreId) (v : Inv) (s : State) (s' : State) (rd : BitVec 4) (ra : BitVec 4) (b : AluSrc),
       let f : AluForm := ⟨rd, ra, b⟩
       Begins c (.shl c f) v s s' ∧ shiftOk b = true) ∧
    (∃ (c : CoreId) (v : Inv) (s : State) (s' : State) (rd : BitVec 4) (ra : BitVec 4) (b : AluSrc),
       let f : AluForm := ⟨rd, ra, b⟩
       Begins c (.shr c f) v s s' ∧ shiftOk b = true) ∧
    (∃ (c : CoreId) (v : Inv) (s : State) (s' : State) (rd : BitVec 4) (ra : BitVec 4) (b : AluSrc),
       let f : AluForm := ⟨rd, ra, b⟩
       Begins c (.sha c f) v s s' ∧ shiftOk b = true) ∧
    (∃ (c : CoreId) (v : Inv) (s : State) (s' : State) (rd : BitVec 4) (ra : BitVec 4) (b : AluSrc),
       let f : AluForm := ⟨rd, ra, b⟩
       Begins c (.slt c f) v s s' ∧ modOk 0 b = true) ∧
    (∃ (c : CoreId) (v : Inv) (s : State) (s' : State) (rd : BitVec 4) (ra : BitVec 4) (b : AluSrc),
       let f : AluForm := ⟨rd, ra, b⟩
       Begins c (.sltu c f) v s s' ∧ modOk 0 b = true) :=
  ⟨⟨0, wI, wS, wS, 0, 0, .imm 0, wB (by decide +kernel), by decide +kernel⟩,
   ⟨0, wI, wS, wS, 0, 0, .imm 0, wB (by decide +kernel), by decide +kernel⟩,
   ⟨0, wI, wS, wS, 0, 0, .imm 0, wB (by decide +kernel), by decide +kernel⟩,
   ⟨0, wI, wS, wS, 0, 0, .imm 0, wB (by decide +kernel), by decide +kernel⟩,
   ⟨0, wI, wS, wS, 0, 0, .imm 0, wB (by decide +kernel), by decide +kernel⟩,
   ⟨0, wI, wS, wS, 0, 0, .imm 0, wB (by decide +kernel), by decide +kernel⟩,
   ⟨0, wI, wS, wS, 0, 0, .imm 0, wB (by decide +kernel), by decide +kernel⟩,
   ⟨0, wI, wS, wS, 0, 0, .imm 0, wB (by decide +kernel), by decide +kernel⟩,
   ⟨0, wI, wS, wS, 0, 0, .imm 0, wB (by decide +kernel), by decide +kernel⟩,
   ⟨0, wI, wS, wS, 0, 0, .imm 0, wB (by decide +kernel), by decide +kernel⟩⟩

/-- Every hypothesis of MultiplyAndMove can be met, clause by clause. -/
theorem test_witness_multiplyAndMove :
    (∃ (c : CoreId) (v : Inv) (s : State) (s' : State) (f : RForm),
       Begins c (.mul c f) v s s' ∧ f.mod = 0) ∧
    (∃ (c : CoreId) (v : Inv) (s : State) (s' : State) (f : RForm),
       Begins c (.mulh c f) v s s' ∧ f.mod = 0) ∧
    (∃ (c : CoreId) (v : Inv) (s : State) (s' : State) (f : RForm),
       Begins c (.mulq c f) v s s' ∧ f.mod.toNat < 2) ∧
    (∃ (c : CoreId) (v : Inv) (s : State) (s' : State) (f : RForm),
       Begins c (.macq c f) v s s' ∧ f.mod.toNat < 8 ∧ f.rd = 0) ∧
    (∃ (c : CoreId) (v : Inv) (s : State) (s' : State) (f : RForm),
       Begins c (.sat c f) v s s' ∧ f.mod.toNat < 4 ∧ f.ra = 0 ∧ f.rb = 0) ∧
    (∃ (c : CoreId) (v : Inv) (s : State) (s' : State) (l : LForm),
       Begins c (.movl c l) v s s' ∧ l.zero = 0) ∧
    (∃ (c : CoreId) (v : Inv) (s : State) (s' : State) (l : LForm),
       Begins c (.movh c l) v s s' ∧ l.zero = 0) ∧
    (∃ (c : CoreId) (v : Inv) (s : State) (s' : State) (l : LForm),
       Begins c (.movs c l) v s s' ∧ l.zero = 0) :=
  ⟨⟨0, wI, wS, wS, ⟨0, 0, 0, 0⟩, wB (by decide +kernel), by decide +kernel⟩,
   ⟨0, wI, wS, wS, ⟨0, 0, 0, 0⟩, wB (by decide +kernel), by decide +kernel⟩,
   ⟨0, wI, wS, wS, ⟨0, 0, 0, 0⟩, wB (by decide +kernel), by decide +kernel⟩,
   ⟨0, wI, wS, wS, ⟨0, 0, 0, 0⟩, wB (by decide +kernel), by decide +kernel⟩,
   ⟨0, wI, wS, wS, ⟨0, 0, 0, 0⟩, wB (by decide +kernel), by decide +kernel⟩,
   ⟨0, wI, wS, wS, ⟨0, 0, 0⟩, wB (by decide +kernel), by decide +kernel⟩,
   ⟨0, wI, wS, wS, ⟨0, 0, 0⟩, wB (by decide +kernel), by decide +kernel⟩,
   ⟨0, wI, wS, wS, ⟨0, 0, 0⟩, wB (by decide +kernel), by decide +kernel⟩⟩

/-- Every hypothesis of VectorResults can be met, clause by clause. -/
theorem test_witness_vectorResults :
    (∃ (c : CoreId) (v : Inv) (s : State) (s' : State) (f : RForm),
       let vd := isVec f.rd = true
       let va := isVec f.ra = true
       let vb := isVec f.rb = true
       Begins c (.vadd c f) v s s' ∧ f.mod = 0 ∧ vd ∧ va ∧ vb) ∧
    (∃ (c : CoreId) (v : Inv) (s : State) (s' : State) (f : RForm),
       let vd := isVec f.rd = true
       let va := isVec f.ra = true
       let vb := isVec f.rb = true
       Begins c (.vsub c f) v s s' ∧ f.mod = 1 ∧ vd ∧ va ∧ vb) ∧
    (∃ (c : CoreId) (v : Inv) (s : State) (s' : State) (f : RForm),
       let vd := isVec f.rd = true
       let va := isVec f.ra = true
       let vb := isVec f.rb = true
       Begins c (.vmul c f) v s s' ∧ f.mod.toNat < 2 ∧ vd ∧ va ∧ vb) ∧
    (∃ (c : CoreId) (v : Inv) (s : State) (s' : State) (f : RForm),
       let va := isVec f.ra = true
       let vb := isVec f.rb = true
       Begins c (.vdot c f) v s s' ∧ f.mod = 0 ∧ va ∧ vb) ∧
    (∃ (c : CoreId) (v : Inv) (s : State) (s' : State) (f : RForm),
       let vd := isVec f.rd = true
       let va := isVec f.ra = true
       let vb := isVec f.rb = true
       Begins c (.vcross c f) v s s' ∧ f.mod = 0 ∧ vd ∧ va ∧ vb) ∧
    (∃ (c : CoreId) (v : Inv) (s : State) (s' : State) (f : RForm),
       let vd := isVec f.rd = true
       Begins c (.vins c f) v s s' ∧ f.mod.toNat < 3 ∧ vd ∧ f.rb = 0) ∧
    (∃ (c : CoreId) (v : Inv) (s : State) (s' : State) (f : RForm),
       let va := isVec f.ra = true
       Begins c (.vext c f) v s s' ∧ f.mod.toNat < 3 ∧ va ∧ f.rb = 0) :=
  ⟨⟨0, wI, wS, wS, ⟨0, 0, 0, 0⟩, wB (by decide +kernel), by decide +kernel⟩,
   ⟨0, wI, wS, wS, ⟨0, 0, 0, 1⟩, wB (by decide +kernel), by decide +kernel⟩,
   ⟨0, wI, wS, wS, ⟨0, 0, 0, 0⟩, wB (by decide +kernel), by decide +kernel⟩,
   ⟨0, wI, wS, wS, ⟨0, 0, 0, 0⟩, wB (by decide +kernel), by decide +kernel⟩,
   ⟨0, wI, wS, wS, ⟨0, 0, 0, 0⟩, wB (by decide +kernel), by decide +kernel⟩,
   ⟨0, wI, wS, wS, ⟨0, 0, 0, 0⟩, wB (by decide +kernel), by decide +kernel⟩,
   ⟨0, wI, wS, wS, ⟨0, 0, 0, 0⟩, wB (by decide +kernel), by decide +kernel⟩⟩

/-- Every hypothesis of VnormWithinFourLsb can be met, clause by clause. -/
theorem test_witness_vnormWithinFourLsb :
    (∃ (c : CoreId) (v : Inv) (s : State) (s' : State) (f : RForm),
       Begins c (.vnorm c f) v { s with free := s.free + 3 } s' ∧ f.mod = 0 ∧ isVec f.rd = true ∧
         isVec f.ra = true ∧ f.rb = 0) :=
  ⟨0, wI, wS, { wS with free := 3 }, ⟨0, 0, 0, 0⟩, wB (by decide +kernel), by decide +kernel⟩

/-- Every hypothesis of LoadsDeliver can be met, clause by clause. -/
theorem test_witness_loadsDeliver :
    (∃ (c : CoreId) (v : Inv) (s : State) (s' : State) (f : IForm),
       let ea := ((s'.regs c).rd f.ra + BitVec.ofInt 32 f.imm14.toInt)
       let a := ea.toNat
       let t := v.tenant
       Begins c (.ldw c f) v s s' ∧ a % 4 = 0 ∧
         ((regionOf a = .code ∧ inCodeSram s' t a 4 = true) ∨ (regionOf a = .data ∧ inData s' t a 4 = true))) ∧
    (∃ (c : CoreId) (v : Inv) (s : State) (s' : State) (f : IForm),
       let ea := ((s'.regs c).rd f.ra + BitVec.ofInt 32 f.imm14.toInt)
       let a := ea.toNat
       let t := v.tenant
       Begins c (.ldw c f) v s s' ∧ a % 4 = 0 ∧ regionOf a = .flash ∧ inXip s' t a 4 = true ∧
         sealedMay t (a - 0x08000000) = true ∧ s'.hasFailed .flash = false ∧ waitsFor .flash s' = none) ∧
    (∃ (c : CoreId) (v : Inv) (s : State) (s' : State) (f : IForm),
       let ea := ((s'.regs c).rd f.ra + BitVec.ofInt 32 f.imm14.toInt)
       let a := ea.toNat
       let t := v.tenant
       Begins c (.ldw c f) v s s' ∧ a % 4 = 0 ∧ regionOf a = .comb ∧ combMay s' t a = true ∧
         s'.hasFailed .comb = false ∧ waitsFor .comb s' = none ∧ (∀ e ∈ s'.ecc, e.addr ≠ a)) ∧
    (∃ (c : CoreId) (v : Inv) (s : State) (s' : State) (f : IForm) (w : _),
       let ea := ((s'.regs c).rd f.ra + BitVec.ofInt 32 f.imm14.toInt)
       let a := ea.toNat
       let t := v.tenant
       Begins c (.ldw c f) v s s' ∧ a % 4 = 0 ∧ regionOf a = .window ∧ winAt a = some w ∧
         winMay s' t w (a % 4096) = true) ∧
    (∃ (c : CoreId) (v : Inv) (s : State) (s' : State) (f : IForm),
       let ea := ((s'.regs c).rd f.ra + BitVec.ofInt 32 f.imm14.toInt)
       let a := ea.toNat
       Begins c (.ldw c f) v s s' ∧ a % 4 = 0 ∧ regionOf a = .aonWin) ∧
    (∃ (c : CoreId) (v : Inv) (s : State) (s' : State) (f : IForm),
       let ea := ((s'.regs c).rd f.ra + BitVec.ofInt 32 f.imm14.toInt)
       let a := ea.toNat
       let t := v.tenant
       Begins c (.ldv c f) v s s' ∧ isVec f.rd = true ∧ a % 4 = 0 ∧ CleanAt s' a 3 ∧
         ((regionOf a = .code ∧ inCodeSram s' t a 12 = true) ∨ (regionOf a = .data ∧ inData s' t a 12 = true)) ∧
         (spanIn 0x20000000 0x00080000 a 12 || spanIn 0x20100000 0x00100000 a 12)) :=
  ⟨⟨0, wI, wReg wS [0, 0x20100000], wReg wS [0, 0x20100000], ⟨2, 1, 0⟩, wB (by decide +kernel), by decide +kernel⟩,
   ⟨0, wI, wReg wS [0, 0x08000000], wReg wS [0, 0x08000000], ⟨2, 1, 0⟩, wB (by decide +kernel), by decide +kernel⟩,
   ⟨0, wI, wReg wS [0, 0x30000000], wReg wS [0, 0x30000000], ⟨2, 1, 0⟩, wB (by decide +kernel), by decide +kernel⟩,
   ⟨0, wI, wReg wS [0, 0x40000000], wReg wS [0, 0x40000000], ⟨2, 1, 0⟩, .dispatch, wB (by decide +kernel),
    by decide +kernel⟩,
   ⟨0, wI, wReg wS [0, 0x50000000], wReg wS [0, 0x50000000], ⟨2, 1, 0⟩, wB (by decide +kernel), by decide +kernel⟩,
   ⟨0, wI, wReg wS [0, 0x20100000], wReg wS [0, 0x20100000], ⟨2, 1, 0⟩, wB (by decide +kernel), by decide +kernel⟩⟩

/-- Every hypothesis of StoresWriteTheirBytes can be met, clause by clause. -/
theorem test_witness_storesWriteTheirBytes :
    (∃ (c : CoreId) (v : Inv) (s : State) (s' : State) (f : IForm),
       let ea := ((s'.regs c).rd f.ra + BitVec.ofInt 32 f.imm14.toInt)
       let a := ea.toNat
       let t := v.tenant
       let u := if v.bind = none then ownFirst attemptEnds s' else s'
       let free := v.bind = none → hostStoreBusy u = false
       Begins c (.stw c f) v s s' ∧ a % 4 = 0 ∧ regionOf a = .data ∧ inData s' t a 4 = true ∧ free ∧ a ≠ 0x201FFFFC) ∧
    (∃ (c : CoreId) (v : Inv) (s : State) (s' : State) (f : IForm),
       let ea := ((s'.regs c).rd f.ra + BitVec.ofInt 32 f.imm14.toInt)
       let a := ea.toNat
       let t := v.tenant
       let u := if v.bind = none then ownFirst attemptEnds s' else s'
       let free := v.bind = none → hostStoreBusy u = false
       Begins c (.stv c f) v s s' ∧ isVec f.rd = true ∧ a % 4 = 0 ∧ inData s' t a 12 = true ∧
         spanIn 0x20100000 0x00100000 a 12 ∧ free ∧ a ≠ 0x201FFFF4) ∧
    (∃ (c : CoreId) (v : Inv) (s : State) (s' : State) (f : IForm),
       let ea := ((s'.regs c).rd f.ra + BitVec.ofInt 32 f.imm14.toInt)
       let a := ea.toNat
       let t := v.tenant
       let u := if v.bind = none then ownFirst attemptEnds s' else s'
       let free := v.bind = none → hostStoreBusy u = false
       Begins c (.stw c f) v s s' ∧ a = 0x201FFFFC ∧ inData s' t a 4 = true ∧ free) ∧
    (∃ (c : CoreId) (v : Inv) (s : State) (s' : State) (f : IForm),
       let ea := ((s'.regs c).rd f.ra + BitVec.ofInt 32 f.imm14.toInt)
       let a := ea.toNat
       let t := v.tenant
       let u := if v.bind = none then ownFirst attemptEnds s' else s'
       Begins c (.stw c f) v s s' ∧ a % 4 = 0 ∧ regionOf a = .data ∧ inData s' t a 4 = true ∧ v.bind = none ∧
         hostStoreBusy u = true) ∧
    (∃ (c : CoreId) (v : Inv) (s : State) (s' : State) (t : State) (f : IForm) (b : Nat),
       let a := ((s'.regs c).rd f.ra + BitVec.ofInt 32 f.imm14.toInt).toNat
       let quiet := v.bind = none → Instr.loadCleanupEnd ∉ s.pending
       Begins c (.stw c f) v s s' ∧ exec (.stw c f) s = .next t ∧ quiet ∧ ¬ (a ≤ b ∧ b < a + 4)) ∧
    (∃ (c : CoreId) (v : Inv) (s : State) (s' : State) (t : State) (f : IForm) (b : Nat),
       let a := ((s'.regs c).rd f.ra + BitVec.ofInt 32 f.imm14.toInt).toNat
       let quiet := v.bind = none → Instr.loadCleanupEnd ∉ s.pending
       Begins c (.stv c f) v s s' ∧ exec (.stv c f) s = .next t ∧ quiet ∧ ¬ (a ≤ b ∧ b < a + 12)) :=
  ⟨⟨0, wI, wReg wS [0, 0x201FFFF8], wReg wS [0, 0x201FFFF8], ⟨2, 1, 0⟩, wB (by decide +kernel), by decide +kernel⟩,
   ⟨0, wI, wReg wS [0, 0x20100000], wReg wS [0, 0x20100000], ⟨2, 1, 0⟩, wB (by decide +kernel), by decide +kernel⟩,
   ⟨0, wI, wReg wS [0, 0x201FFFFC], wReg wS [0, 0x201FFFFC], ⟨2, 1, 0⟩, wB (by decide +kernel), by decide +kernel⟩,
   ⟨0, wI, { wReg wS [0, 0x201FFFFC] with boot := { wS.boot with phase := .loading } },
    { wReg wS [0, 0x201FFFFC] with boot := { wS.boot with phase := .loading } }, ⟨2, 1, 0⟩, wB (by decide +kernel),
    by decide +kernel⟩,
   ⟨0, wI, wReg wS [0, 0x20100000], wReg wS [0, 0x20100000],
    wNext (exec (.stw 0 ⟨2, 1, 0⟩) (wReg wS [0, 0x20100000])), ⟨2, 1, 0⟩, 0x20100004, wB (by decide +kernel), rfl,
    by decide +kernel⟩,
   ⟨0, wI, wReg wS [0, 0x20100000], wReg wS [0, 0x20100000],
    wNext (exec (.stv 0 ⟨2, 1, 0⟩) (wReg wS [0, 0x20100000])), ⟨2, 1, 0⟩, 0x200FFFFF, wB (by decide +kernel), rfl,
    by decide +kernel⟩⟩

/-- Every hypothesis of RefusalsAndUndefinedWords can be met, clause by clause. -/
theorem test_witness_refusalsAndUndefinedWords :
    (∃ (c : CoreId) (v : Inv) (s : State) (s' : State) (f : IForm),
       let ea := ((s'.regs c).rd f.ra + BitVec.ofInt 32 f.imm14.toInt)
       let a := ea.toNat
       let reg := regionOf a
       Begins c (.ldw c f) v s s' ∧ (a % 4 ≠ 0 ∨ reg = .rom ∨ reg = .none ∨ (reg = .window ∧ winAt a = none))) ∧
    (∃ (c : CoreId) (v : Inv) (s : State) (s' : State) (f : IForm),
       let ea := ((s'.regs c).rd f.ra + BitVec.ofInt 32 f.imm14.toInt)
       let a := ea.toNat
       let reg := regionOf a
       Begins c (.stw c f) v s s' ∧ (a % 4 ≠ 0 ∨ reg ≠ .data)) ∧
    (∃ (c : CoreId) (v : Inv) (s : State) (s' : State) (f : IForm),
       let ea := ((s'.regs c).rd f.ra + BitVec.ofInt 32 f.imm14.toInt)
       let a := ea.toNat
       let t := v.tenant
       let reg := regionOf a
       Begins c (.ldw c f) v s s' ∧ a % 4 = 0 ∧
         (reg = .code ∧ inCodeSram s' t a 4 = false ∨ reg = .data ∧ inData s' t a 4 = false)) ∧
    (∃ (c : CoreId) (v : Inv) (s : State) (s' : State) (f : IForm),
       let ea := ((s'.regs c).rd f.ra + BitVec.ofInt 32 f.imm14.toInt)
       let a := ea.toNat
       let t := v.tenant
       let reg := regionOf a
       Begins c (.stw c f) v s s' ∧ a % 4 = 0 ∧ reg = .data ∧ inData s' t a 4 = false) ∧
    (∃ (c : CoreId) (v : Inv) (s : State) (s' : State) (f : IForm),
       let ea := ((s'.regs c).rd f.ra + BitVec.ofInt 32 f.imm14.toInt)
       let a := ea.toNat
       let reg := regionOf a
       Begins c (.ldv c f) v s s' ∧ isVec f.rd = true ∧
         (a % 4 ≠ 0 ∨ reg = .rom ∨ reg = .none ∨ regionOf (ea + 8).toNat = .none ∨ regionOf (ea + 8).toNat = .rom)) ∧
    (∃ (c : CoreId) (v : Inv) (s : State) (s' : State) (f : IForm),
       let ea := ((s'.regs c).rd f.ra + BitVec.ofInt 32 f.imm14.toInt)
       let a := ea.toNat
       let reg := regionOf a
       Begins c (.stv c f) v s s' ∧ isVec f.rd = true ∧
         (a % 4 ≠ 0 ∨ reg ≠ .data ∨ regionOf (ea + 4).toNat ≠ .data ∨ regionOf (ea + 8).toNat ≠ .data)) ∧
    (∃ (c : CoreId) (v : Inv) (s : State) (s' : State) (f : IForm),
       let ea := ((s'.regs c).rd f.ra + BitVec.ofInt 32 f.imm14.toInt)
       let a := ea.toNat
       let t := v.tenant
       Begins c (.stv c f) v s s' ∧ isVec f.rd = true ∧ a % 4 = 0 ∧ spanIn 0x20100000 0x00100000 a 12 ∧
         inData s' t a 12 = false) ∧
    (∃ (c : CoreId) (v : Inv) (s : State) (s' : State) (w : Word),
       Begins c (.undefinedInstruction c w) v s s' ∧ decodeCore c w = none) ∧
    (∃ (c : CoreId) (v : Inv) (s : State) (s' : State) (f : AluForm),
       Begins c (.add c f) v s s' ∧ modOk 1 f.b = false) ∧
    (∃ (c : CoreId) (v : Inv) (s : State) (s' : State) (f : AluForm),
       Begins c (.shl c f) v s s' ∧ shiftOk f.b = false) ∧
    (∃ (c : CoreId) (v : Inv) (s : State) (s' : State) (g : RForm),
       Begins c (.mul c g) v s s' ∧ g.mod ≠ 0) ∧
    (∃ (c : CoreId) (v : Inv) (s : State) (s' : State) (g : RForm),
       Begins c (.macq c g) v s s' ∧ g.rd ≠ 0) ∧
    (∃ (c : CoreId) (v : Inv) (s : State) (s' : State) (g : RForm),
       Begins c (.vdot c g) v s s' ∧ 8 ≤ g.ra.toNat) ∧
    (∃ (c : CoreId) (v : Inv) (s : State) (s' : State) (g : RForm),
       Begins c (.vins c g) v s s' ∧ g.mod = 3) ∧
    (∃ (c : CoreId) (v : Inv) (s : State) (s' : State) (b : BForm),
       Begins c (.bra c b) v s s' ∧ b.ra ≠ 0) ∧
    (∃ (c : CoreId) (v : Inv) (s : State) (s' : State) (g : RForm),
       Begins c (.nop c g) v s s' ∧ g.mod ≠ 0) :=
  ⟨⟨0, wI, wReg wS [0, 0x0FFFC], wReg wS [0, 0x0FFFC], ⟨2, 1, 0⟩, wB (by decide +kernel), by decide +kernel⟩,
   ⟨0, wI, wReg wS [0, 0x2007FFFC], wReg wS [0, 0x2007FFFC], ⟨2, 1, 0⟩, wB (by decide +kernel), by decide +kernel⟩,
   ⟨0, wI1, wReg (wS.setCore 0 { Core.idle with inv := some wI1 }) [0, 0x20100000],
    wReg (wS.setCore 0 { Core.idle with inv := some wI1 }) [0, 0x20100000], ⟨2, 1, 0⟩, wB (by decide +kernel),
    by decide +kernel⟩,
   ⟨0, wI1, wReg (wS.setCore 0 { Core.idle with inv := some wI1 }) [0, 0x20100000],
    wReg (wS.setCore 0 { Core.idle with inv := some wI1 }) [0, 0x20100000], ⟨2, 1, 0⟩, wB (by decide +kernel),
    by decide +kernel⟩,
   ⟨0, wI, wReg wS [0, 0x20080000], wReg wS [0, 0x20080000], ⟨2, 1, 0⟩, wB (by decide +kernel), by decide +kernel⟩,
   ⟨0, wI, wReg wS [0, 0x201FFFFC], wReg wS [0, 0x201FFFFC], ⟨2, 1, 0⟩, wB (by decide +kernel), by decide +kernel⟩,
   ⟨0, wI1, wReg (wS.setCore 0 { Core.idle with inv := some wI1 }) [0, 0x20100000],
    wReg (wS.setCore 0 { Core.idle with inv := some wI1 }) [0, 0x20100000], ⟨2, 1, 0⟩, wB (by decide +kernel),
    by decide +kernel⟩,
   ⟨0, wI, wS, wS, 0, wB (by decide +kernel), by decide +kernel⟩,
   ⟨0, wI, wS, wS, ⟨0, 0, .reg 0 2⟩, wB (by decide +kernel), by decide +kernel⟩,
   ⟨0, wI, wS, wS, ⟨0, 0, .imm 32⟩, wB (by decide +kernel), by decide +kernel⟩,
   ⟨0, wI, wS, wS, ⟨0, 0, 0, 1⟩, wB (by decide +kernel), by decide +kernel⟩,
   ⟨0, wI, wS, wS, ⟨1, 0, 0, 0⟩, wB (by decide +kernel), by decide +kernel⟩,
   ⟨0, wI, wS, wS, ⟨0, 8, 0, 0⟩, wB (by decide +kernel), by decide +kernel⟩,
   ⟨0, wI, wS, wS, ⟨0, 0, 0, 3⟩, wB (by decide +kernel), by decide +kernel⟩,
   ⟨0, wI, wS, wS, ⟨1, 0⟩, wB (by decide +kernel), by decide +kernel⟩,
   ⟨0, wI, wS, wS, ⟨0, 0, 0, 1⟩, wB (by decide +kernel), by decide +kernel⟩⟩

/-- Every hypothesis of BranchesGo can be met, clause by clause. -/
theorem test_witness_branchesGo :
    (∃ (c : CoreId) (v : Inv) (s : State) (s' : State) (f : BForm),
       Begins c (.bra c f) v s s' ∧ f.ra = 0) ∧
    (∃ (c : CoreId) (v : Inv) (s : State) (s' : State) (f : BForm),
       Begins c (.bz c f) v s s') ∧
    (∃ (c : CoreId) (v : Inv) (s : State) (s' : State) (f : BForm),
       Begins c (.bnz c f) v s s') ∧
    (∃ (c : CoreId) (v : Inv) (s : State) (s' : State) (f : BForm),
       Begins c (.bzSt c f) v s s' ∧ f.ra = 0) ∧
    (∃ (c : CoreId) (v : Inv) (s : State) (s' : State) (f : BForm),
       Begins c (.bnzSt c f) v s s' ∧ f.ra = 0) ∧
    (∃ (c : CoreId) (v : Inv) (s : State) (s' : State) (g : RForm),
       Begins c (.braReg c g) v s s' ∧ g.mod = 0 ∧ g.rd = 0 ∧ g.rb = 0) ∧
    (∃ (c : CoreId) (v : Inv) (s : State) (s' : State) (g : RForm),
       Begins c (.nop c g) v s s' ∧ g = ⟨0, 0, 0, 0⟩) :=
  ⟨⟨0, wI, wS, wS, ⟨0, 0⟩, wB (by decide +kernel), by decide +kernel⟩,
   ⟨0, wI, wS, wS, ⟨0, 0⟩, wB (by decide +kernel)⟩,
   ⟨0, wI, wS, wS, ⟨0, 0⟩, wB (by decide +kernel)⟩,
   ⟨0, wI, wS, wS, ⟨0, 0⟩, wB (by decide +kernel), by decide +kernel⟩,
   ⟨0, wI, wS, wS, ⟨0, 0⟩, wB (by decide +kernel), by decide +kernel⟩,
   ⟨0, wI, wS, wS, ⟨0, 0, 0, 0⟩, wB (by decide +kernel), by decide +kernel⟩,
   ⟨0, wI, wS, wS, ⟨0, 0, 0, 0⟩, wB (by decide +kernel), by decide +kernel⟩⟩

/-- Every hypothesis of CallsAndReturns can be met, clause by clause. -/
theorem test_witness_callsAndReturns :
    (∃ (c : CoreId) (v : Inv) (s : State) (s' : State) (f : BForm),
       Begins c (.call c f) v s s' ∧ f.ra = 0) ∧
    (∃ (c : CoreId) (v : Inv) (s : State) (s' : State) (g : RForm),
       Begins c (.callReg c g) v s s' ∧ g.mod = 0 ∧ g.rd = 0 ∧ g.rb = 0) ∧
    (∃ (c : CoreId) (v : Inv) (s : State) (s' : State) (g : RForm) (a : Word) (rest : List Word),
       let r := s'.regs c
       Begins c (.ret c g) v s s' ∧ g = ⟨0, 0, 0, 0⟩ ∧ r.stack = a :: rest) ∧
    (∃ (c : CoreId) (v : Inv) (s : State) (s' : State) (g : RForm),
       let r := s'.regs c
       Begins c (.ret c g) v s s' ∧ g = ⟨0, 0, 0, 0⟩ ∧ r.stack = []) :=
  ⟨⟨0, wI, wS, wS, ⟨0, 0⟩, wB (by decide +kernel), by decide +kernel⟩,
   ⟨0, wI, wS, wS, ⟨0, 0, 0, 0⟩, wB (by decide +kernel), by decide +kernel⟩,
   ⟨0, wI, wS.setRegs 0 { Regs.zero with stack := [0x20000010] },
    wS.setRegs 0 { Regs.zero with stack := [0x20000010] }, ⟨0, 0, 0, 0⟩, 0x20000010, [], wB (by decide +kernel),
    by decide +kernel⟩,
   ⟨0, wI, wS, wS, ⟨0, 0, 0, 0⟩, wB (by decide +kernel), by decide +kernel⟩⟩

/-- Every hypothesis of FaultEnds can be met, clause by clause. -/
theorem test_witness_faultEnds :
    (∃ (c : CoreId) (v : Inv) (s : State) (s' : State) (w : Word),
       Begins c (.undefinedInstruction c w) v s s' ∧ decodeCore c w = none) ∧
    (∃ (c : CoreId) (s : State) (v : Inv) (code : Nat),
       (s.core c).inv = some v ∧ code < 16) ∧
    (∃ (c : CoreId) (s : State) (v : Inv) (code : Nat) (k : _),
       (s.core c).inv = some v ∧ code < 16 ∧ v.bind = some k) ∧
    (∃ (c : CoreId) (s : State) (v : Inv) (code : Nat) (k : _) (b : _),
       (s.core c).inv = some v ∧ code < 16 ∧ v.bind = some k ∧ vget s.bindings k = some b ∧ b.serial = v.serial) ∧
    (∃ (c : CoreId) (s : State) (v : Inv) (code : Nat) (d : _),
       (s.core c).inv = some v ∧ code < 16 ∧ d ≠ c) ∧
    (∃ (c : CoreId) (s : State) (v : Inv) (code : Nat) (u : _),
       (s.core c).inv = some v ∧ code < 16 ∧ u ≠ v.tenant) :=
  ⟨⟨0, wI, wS, wS, 0xFFFFFFFF, wB (by decide +kernel), by decide +kernel⟩,
   ⟨0, wS, wI, 15, by decide +kernel⟩,
   ⟨0, { wS with cores := vset State.reset.cores 0 { Core.idle with inv := some { wI with bind := some 255 } } },
    { wI with bind := some 255 }, 0, 255, by decide +kernel⟩,
   ⟨0,
    { (wS.setCore 0 { Core.idle with inv := some { wI with bind := some 3 } }) with bindings := vset wS.bindings 3 (some wBd) },
    { wI with bind := some 3 }, 15, 3, wBd, by decide +kernel⟩,
   ⟨0, wS, wI, 15, 1, by decide +kernel⟩,
   ⟨0, wS, wI, 15, 1, by decide +kernel⟩⟩

/-- Every hypothesis of EventInstructions can be met, clause by clause. -/
theorem test_witness_eventInstructions :
    (∃ (c : CoreId) (v : Inv) (s : State) (s' : State) (f : RForm) (k : Nat),
       let r := s'.regs c
       let t := v.tenant
       let a := (r.rd f.ra).toNat
       let b0 := wordSeen s' a
       let b1 := wordSeen s' (a + 4)
       let b2 := wordSeen s' (a + 8)
       let blk : BindBlock := ⟨b0, b1, b2⟩
       Begins c (.bind c f) v s s' ∧ f.mod = 0 ∧ f.rb = 0 ∧ blockOk t a 3 = true ∧ blockMay s' t a 3 = true ∧
         CleanAt s' a 3 ∧ blk.rangeOk = true ∧ blk.capOk s' t = true ∧ freeBinding s' = some k) ∧
    (∃ (c : CoreId) (v : Inv) (s : State) (s' : State) (f : RForm) (b : _),
       let r := s'.regs c
       let t := v.tenant
       let a := (r.rd f.ra).toNat
       Begins c (.unbind c f) v s s' ∧ f.mod = 0 ∧ f.rd = 0 ∧ f.rb = 0 ∧ a < 256 ∧
         vgetD s'.bindings a none = some b ∧ (b.tenant = t ∨ t = 0)) ∧
    (∃ (c : CoreId) (v : Inv) (s : State) (s' : State) (f : RForm),
       let r := s'.regs c
       let a := (r.rd f.ra).toNat
       Begins c (.unbind c f) v s s' ∧ f.mod = 0 ∧ f.rd = 0 ∧ f.rb = 0 ∧ a < 256 ∧ vgetD s'.bindings a none = none) ∧
    (∃ (c : CoreId) (v : Inv) (s : State) (s' : State) (f : RForm) (k : Nat),
       let r := s'.regs c
       let t := v.tenant
       let a := (r.rd f.ra).toNat
       Begins c (.wait c f) v s s' ∧ f.mod = 0 ∧ a < 256 ∧ srcDefined a = true ∧ mayReceive s' t a = true ∧
         freeCtx s' = some k) ∧
    (∃ (c : CoreId) (v : Inv) (s : State) (s' : State) (f : RForm),
       let r := s'.regs c
       let t := v.tenant
       let a := (r.rd f.ra).toNat
       Begins c (.wait c f) v s s' ∧ f.mod = 0 ∧ a < 256 ∧ srcDefined a = true ∧ mayReceive s' t a = true ∧
         freeCtx s' = none) ∧
    (∃ (c : CoreId) (v : Inv) (s : State) (s' : State) (f : RForm) (k : Nat),
       Begins c (.yield c f) v s s' ∧ f = ⟨0, 0, 0, 0⟩ ∧ freeCtx s' = some k) ∧
    (∃ (c : CoreId) (v : Inv) (s : State) (s' : State) (f : RForm),
       Begins c (.yield c f) v s s' ∧ f = ⟨0, 0, 0, 0⟩ ∧ freeCtx s' = none) ∧
    (∃ (c : CoreId) (v : Inv) (s : State) (s' : State) (f : RForm),
       let r := s'.regs c
       let t := v.tenant
       let a := (r.rd f.ra).toNat
       Begins c (.raise c f) v s s' ∧ f.mod = 0 ∧ f.rd = 0 ∧ a < 256 ∧ srcDefined a = true ∧ mayRaise s' t a = true) ∧
    (∃ (c : CoreId) (v : Inv) (s : State) (s' : State) (f : RForm),
       Begins c (.exit c f) v s s' ∧ f = ⟨0, 0, 0, 0⟩) :=
  ⟨⟨0, wI, wMem (wReg wS [0, 0x20100000]) 0x20100000 [0x00000030, 0x20000000, 0],
    wMem (wReg wS [0, 0x20100000]) 0x20100000 [0x00000030, 0x20000000, 0], ⟨2, 1, 0, 0⟩, 0, wB (by decide +kernel),
    by decide +kernel⟩,
   ⟨0, wI, { wReg wS [0, 255] with bindings := vset wS.bindings 255 (some wBd) },
    { wReg wS [0, 255] with bindings := vset wS.bindings 255 (some wBd) }, ⟨0, 1, 0, 0⟩, wBd, wB (by decide +kernel),
    by decide +kernel⟩,
   ⟨0, wI, wReg wS [0, 255], wReg wS [0, 255], ⟨0, 1, 0, 0⟩, wB (by decide +kernel), by decide +kernel⟩,
   ⟨0, wI, wReg wS [0, 0xB8], wReg wS [0, 0xB8], ⟨2, 1, 0, 0⟩, 0, wB (by decide +kernel), by decide +kernel⟩,
   ⟨0, wI, { wReg wS [0, 0xB8] with ctx := Vector.replicate 16 (some ⟨Regs.zero, wI, .ready, 0, 0⟩) },
    { wReg wS [0, 0xB8] with ctx := Vector.replicate 16 (some ⟨Regs.zero, wI, .ready, 0, 0⟩) }, ⟨2, 1, 0, 0⟩,
    wB (by decide +kernel), by decide +kernel⟩,
   ⟨0, wI, wS, wS, ⟨0, 0, 0, 0⟩, 0, wB (by decide +kernel), by decide +kernel⟩,
   ⟨0, wI, { wS with ctx := Vector.replicate 16 (some ⟨Regs.zero, wI, .ready, 0, 0⟩) },
    { wS with ctx := Vector.replicate 16 (some ⟨Regs.zero, wI, .ready, 0, 0⟩) }, ⟨0, 0, 0, 0⟩, wB (by decide +kernel),
    by decide +kernel⟩,
   ⟨0, wI, wReg wS [0, 0x6F], wReg wS [0, 0x6F], ⟨0, 1, 2, 0⟩, wB (by decide +kernel), by decide +kernel⟩,
   ⟨0, wI, wS, wS, ⟨0, 0, 0, 0⟩, wB (by decide +kernel), by decide +kernel⟩⟩

/-- Every hypothesis of EventOffered can be met, clause by clause. -/
theorem test_witness_eventOffered :
    (∃ (s : State) (k : Fin 256) (b : Binding),
       (∀ e ∈ s.raised, e.src < 256) ∧ (∀ n, (vget s.timers n).due = none) ∧ vget s.bindings k = some b ∧
         b.held = false ∧ b.pend.length ≤ 4) ∧
    (∃ (s : State) (e : Raised) (k : Fin 256) (b : Binding),
       e.src < 256 ∧ s.raised = [e] ∧ (∀ n, (vget s.timers n).due = none) ∧ vget s.bindings k = some b ∧
         b.src.toNat = e.src ∧ b.held = false) ∧
    (∃ (s : State) (e : Raised) (k : Fin 256),
       e.src < 256 ∧ s.raised = [e] ∧ (∀ n, (vget s.timers n).due = none) ∧
         (∀ b, vget s.bindings k = some b → b.src.toNat ≠ e.src ∨ b.held = true)) ∧
    (∃ (s : State) (e : Raised) (k : Fin 16) (sv : Saved) (w : BitVec 8) (dl : Option Nat) (rd : Fin 16) (x : Bool),
       e.src < 256 ∧ s.raised = [e] ∧ (∀ n, (vget s.timers n).due = none) ∧ vget s.ctx k = some sv ∧
         sv.kind = .waiting w dl rd x ∧ w.toNat = e.src) ∧
    (∃ (s : State) (e : Raised) (k : Fin 16) (sv : Saved) (w : BitVec 8) (dl : Option Nat) (rd : Fin 16) (x : Bool),
       e.src < 256 ∧ s.raised = [e] ∧ (∀ n, (vget s.timers n).due = none) ∧ vget s.ctx k = some sv ∧
         sv.kind = .waiting w dl rd x ∧ w.toNat ≠ e.src) ∧
    (∃ (s : State) (e : Raised),
       e.src < 256 ∧ s.raised = [e] ∧ (∀ n, (vget s.timers n).due = none)) :=
  ⟨⟨{ wS with raised := [⟨0x30, 1, 2, false, 3⟩, ⟨255, 4, 2, false, 3⟩, ⟨0x30, 5, 6, false, 3⟩], bindings := vset wS.bindings 3 (some wBd) },
    3, wBd, by decide +kernel⟩,
   ⟨{ wS with raised := [⟨0x30, 1, 2, false, 3⟩], bindings := vset wS.bindings 3 (some wBd) },
    ⟨0x30, 1, 2, false, 3⟩, 3, wBd, by decide +kernel⟩,
   ⟨{ wS with raised := [⟨255, 1, 2, false, 3⟩] }, ⟨255, 1, 2, false, 3⟩, 0, by decide +kernel, by decide +kernel,
    by decide +kernel, fun b h => absurd h (by simp [wS, State.reset, vget])⟩,
   ⟨{ wS with raised := [⟨0x30, 1, 2, false, 3⟩], ctx := vset wS.ctx 15 (some ⟨Regs.zero, wI, .waiting 0x30 none 2 true, 0, 0⟩) },
    ⟨0x30, 1, 2, false, 3⟩, 15, ⟨Regs.zero, wI, .waiting 0x30 none 2 true, 0, 0⟩, 0x30, none, 2, true,
    by decide +kernel⟩,
   ⟨{ wS with raised := [⟨0, 1, 2, false, 3⟩], ctx := vset wS.ctx 15 (some ⟨Regs.zero, wI, .waiting 0x30 none 2 true, 0, 0⟩) },
    ⟨0, 1, 2, false, 3⟩, 15, ⟨Regs.zero, wI, .waiting 0x30 none 2 true, 0, 0⟩, 0x30, none, 2, true, by decide +kernel⟩,
   ⟨{ wS with raised := [⟨255, 1, 2, false, 3⟩] }, ⟨255, 1, 2, false, 3⟩, by decide +kernel⟩⟩

/-- Every hypothesis of TimeInstructions can be met, clause by clause. -/
theorem test_witness_timeInstructions :
    (∃ (c : CoreId) (v : Inv) (s : State) (s' : State) (f : RForm),
       Begins c (.time c f) v s s' ∧ f.mod = 0 ∧ f.ra = 0 ∧ f.rb = 0) ∧
    (∃ (c : CoreId) (v : Inv) (s : State) (s' : State) (f : RForm),
       Begins c (.timeH c f) v s s' ∧ f.mod = 1 ∧ f.ra = 0 ∧ f.rb = 0) ∧
    (∃ (c : CoreId) (v : Inv) (s : State) (s' : State) (f : RForm),
       let t := v.tenant
       let n : Fin 8 := ⟨f.mod.toNat % 8, Nat.mod_lt _ (by decide)⟩
       let held := s'.may t (capTimer n.val) = true
       Begins c (.alarmAt c f) v s s' ∧ f.mod.toNat < 16 ∧ f.rd = 0 ∧ held ∧ (f.mod.getLsbD 3 = true → t = 0)) ∧
    (∃ (c : CoreId) (v : Inv) (s : State) (s' : State) (f : RForm),
       let t := v.tenant
       let n : Fin 8 := ⟨f.mod.toNat % 8, Nat.mod_lt _ (by decide)⟩
       let held := s'.may t (capTimer n.val) = true
       Begins c (.alarmEvery c f) v s s' ∧ f.mod.toNat < 8 ∧ f.rd = 0 ∧ f.rb = 0 ∧ held) ∧
    (∃ (c : CoreId) (v : Inv) (s : State) (s' : State) (f : RForm),
       let t := v.tenant
       let n : Fin 8 := ⟨f.mod.toNat % 8, Nat.mod_lt _ (by decide)⟩
       let held := s'.may t (capTimer n.val) = true
       Begins c (.alarmOff c f) v s s' ∧ f.mod.toNat < 8 ∧ f.rd = 0 ∧ f.ra = 0 ∧ f.rb = 0 ∧ held) :=
  ⟨⟨0, wI, wS, wS, ⟨0, 0, 0, 0⟩, wB (by decide +kernel), by decide +kernel⟩,
   ⟨0, wI, wS, wS, ⟨2, 0, 0, 1⟩, wB (by decide +kernel), by decide +kernel⟩,
   ⟨0, wI, wS, wS, ⟨0, 1, 2, 15⟩, wB (by decide +kernel), by decide +kernel⟩,
   ⟨0, wI, wS, wS, ⟨0, 1, 0, 7⟩, wB (by decide +kernel), by decide +kernel⟩,
   ⟨0, wI, wS, wS, ⟨0, 0, 0, 7⟩, wB (by decide +kernel), by decide +kernel⟩⟩

/-- Every hypothesis of SystemInstructions can be met, clause by clause. -/
theorem test_witness_systemInstructions :
    (∃ (c : CoreId) (v : Inv) (s : State) (s' : State) (f : RForm),
       let t := v.tenant
       let m := f.mod.toNat
       Begins c (.level c f) v s s' ∧ m < 4 ∧ f.rd = 0 ∧ f.ra = 0 ∧ f.rb = 0 ∧ s'.may t capLevel = true) ∧
    (∃ (c : CoreId) (v : Inv) (s : State) (s' : State) (f : RForm),
       let t := v.tenant
       let m := f.mod.toNat
       Begins c (.sleep c f) v s s' ∧ m < 2 ∧ f.rd = 0 ∧ f.ra = 0 ∧ f.rb = 0 ∧ s'.may t capSleep = true ∧
         s'.sleep.entry = none ∧ refusers s' = []) ∧
    (∃ (c : CoreId) (v : Inv) (s : State) (s' : State) (f : RForm),
       let t := v.tenant
       let m := f.mod.toNat
       Begins c (.sleep c f) v s s' ∧ m < 2 ∧ f.rd = 0 ∧ f.ra = 0 ∧ f.rb = 0 ∧ s'.may t capSleep = true ∧
         s'.sleep.entry = none ∧ refusers s' ≠ []) ∧
    (∃ (c : CoreId) (v : Inv) (s : State) (s' : State) (f : RForm),
       let t := v.tenant
       let m := f.mod.toNat
       Begins c (.vote c f) v s s' ∧ m < 2 ∧ f.rd = 0 ∧ f.ra = 0 ∧ f.rb = 0 ∧ s'.may t capVote = true) ∧
    (∃ (c : CoreId) (v : Inv) (s : State) (s' : State) (f : RForm),
       let t := v.tenant
       let m := f.mod.toNat
       Begins c (.holdrel c f) v s s' ∧ m < 11 ∧ f.rd = 0 ∧ f.ra = 0 ∧ f.rb = 0 ∧ t = 0) ∧
    (∃ (c : CoreId) (v : Inv) (s : State) (s' : State) (f : RForm),
       let t := v.tenant
       Begins c (.inval c f) v s s' ∧ f.mod = 0 ∧ f.rd = 0 ∧ f.rb = 0 ∧ t = 0) ∧
    (∃ (c : CoreId) (v : Inv) (s : State) (s' : State) (f : RForm),
       Begins c (.flags c f) v s s' ∧ f.mod = 0 ∧ f.ra = 0 ∧ f.rb = 0) :=
  ⟨⟨0, wI, wS, wS, ⟨0, 0, 0, 3⟩, wB (by decide +kernel), by decide +kernel⟩,
   ⟨0, wI, wS, wS, ⟨0, 0, 0, 1⟩, wB (by decide +kernel), by decide +kernel⟩,
   ⟨0, wI, wS.setTenant 1 { Tenant.vacant with vote := true }, wS.setTenant 1 { Tenant.vacant with vote := true },
    ⟨0, 0, 0, 0⟩, wB (by decide +kernel), by decide +kernel⟩,
   ⟨0, wI, wS, wS, ⟨0, 0, 0, 0⟩, wB (by decide +kernel), by decide +kernel⟩,
   ⟨0, wI, wS, wS, ⟨0, 0, 0, 10⟩, wB (by decide +kernel), by decide +kernel⟩,
   ⟨0, wI, wReg wS [0, 127], wReg wS [0, 127], ⟨0, 1, 0, 0⟩, wB (by decide +kernel), by decide +kernel⟩,
   ⟨0, wI, wS, wS, ⟨0, 0, 0, 0⟩, wB (by decide +kernel), by decide +kernel⟩⟩

/-- Every hypothesis of TenantInstructions can be met, clause by clause. -/
theorem test_witness_tenantInstructions :
    (∃ (c : CoreId) (v : Inv) (s : State) (s' : State) (f : RForm),
       let r := s'.regs c
       let a := (r.rd f.ra).toNat
       let k : Tid := ⟨f.mod.toNat % 32, Nat.mod_lt _ (by decide)⟩
       let named := 0 < f.mod.toNat ∧ f.mod.toNat < 32
       Begins c (.grant c f) v s s' ∧ named ∧ f.rd = 0 ∧ f.rb = 0 ∧ v.tenant = 0 ∧ blockOk 0 a 24 = true ∧
         blockMay s' 0 a 24 = true ∧ CleanAt s' a 24 ∧ ((s'.tenant k).state = .vacant ∨ (s'.tenant k).state = .granted)) ∧
    (∃ (c : CoreId) (v : Inv) (s : State) (s' : State) (f : RForm),
       let r := s'.regs c
       let a := (r.rd f.ra).toNat
       let k : Tid := ⟨f.mod.toNat % 32, Nat.mod_lt _ (by decide)⟩
       let named := 0 < f.mod.toNat ∧ f.mod.toNat < 32
       let flash := inSpan 0x08000000 0x00800000 a = true
       let hd := parseHeader (wordsAt s' a 16)
       let tb := wordsAt s' (a + 64) hd.tableWords
       let sects := parseSects hd.nsect tb
       Begins c (.spool c f) v s s' ∧ named ∧ f.rb = 0 ∧ v.tenant = 0 ∧ imagePlaced s' a = true ∧
         (flash → s'.hasFailed .flash = false ∧ waitsFor .flash s' = none) ∧ (s'.tenant k).state = .granted ∧
         s'.loader = none ∧ CleanAt s' a 16 ∧ CleanAt s' (a + 64) hd.tableWords ∧ hd.formOk = true ∧
         hd.owner = false ∧ hd.fmode = false ∧ layoutOk hd sects = true ∧ hd.total % 4 = 0 ∧
         (∀ x ∈ sects, sectInWindow s' k x = true) ∧ tenantKeyOk s' k hd.pubkey = true) ∧
    (∃ (c : CoreId) (v : Inv) (s : State) (s' : State) (f : RForm),
       let k : Tid := ⟨f.mod.toNat % 32, Nat.mod_lt _ (by decide)⟩
       let named := 0 < f.mod.toNat ∧ f.mod.toNat < 32
       Begins c (.revoke c f) v s s' ∧ named ∧ f.rd = 0 ∧ f.ra = 0 ∧ f.rb = 0 ∧ v.tenant = 0 ∧
         (s'.tenant k).state = .vacant) ∧
    (∃ (c : CoreId) (v : Inv) (s : State) (s' : State) (f : RForm),
       let k : Tid := ⟨f.mod.toNat % 32, Nat.mod_lt _ (by decide)⟩
       let named := 0 < f.mod.toNat ∧ f.mod.toNat < 32
       Begins c (.revoke c f) v s s' ∧ named ∧ f.rd = 0 ∧ f.ra = 0 ∧ f.rb = 0 ∧ v.tenant = 0 ∧
         ((s'.tenant k).state = .granted ∨ (s'.tenant k).state = .active)) ∧
    (∃ (c : CoreId) (v : Inv) (s : State) (s' : State) (f : RForm) (l : _) (e : _),
       let k : Tid := ⟨f.mod.toNat % 32, Nat.mod_lt _ (by decide)⟩
       let named := 0 < f.mod.toNat ∧ f.mod.toNat < 32
       Begins c (.revoke c f) v s s' ∧ named ∧ f.rd = 0 ∧ f.ra = 0 ∧ f.rb = 0 ∧ v.tenant = 0 ∧
         (s'.tenant k).state = .loading ∧ s'.loader = some l ∧ (l.phase = .loading ∨ l.phase = .cleanup e)) :=
  ⟨⟨0, wI, wReg wS [0, 0x20100000], wReg wS [0, 0x20100000], ⟨0, 1, 0, 31⟩, wB (by decide +kernel),
    by decide +kernel⟩,
   ⟨0, wI, wSpool, wSpool, ⟨2, 1, 0, 1⟩, wB (by decide +kernel), by decide +kernel⟩,
   ⟨0, wI, wS, wS, ⟨0, 0, 0, 31⟩, wB (by decide +kernel), by decide +kernel⟩,
   ⟨0, wI, wS.setTenant 31 { Tenant.vacant with state := .active },
    wS.setTenant 31 { Tenant.vacant with state := .active }, ⟨0, 0, 0, 31⟩, wB (by decide +kernel), by decide +kernel⟩,
   ⟨0, wI,
    { wS.setTenant 31 { Tenant.vacant with state := .loading } with loader := some { wLd with phase := .cleanup 7 } },
    { wS.setTenant 31 { Tenant.vacant with state := .loading } with loader := some { wLd with phase := .cleanup 7 } },
    ⟨0, 0, 0, 31⟩, { wLd with phase := .cleanup 7 }, 7, wB (by decide +kernel), by decide +kernel⟩⟩

/-- Every hypothesis of SenseInstructions can be met, clause by clause. -/
theorem test_witness_senseInstructions :
    (∃ (c : CoreId) (v : Inv) (s : State) (s' : State) (f : UForm) (k : SensorId),
       let s0 := ownFirst (senseFirst k) s
       let t := v.tenant
       let x := s'.sensor k
       let r := s'.regs c
       let a := (r.rd f.ra).toNat
       let up := s'.may t (capSens k.val) = true ∧ s'.hasFailed (sensorFunc k) = false ∧
         waitsFor (sensorFunc k) s' = none ∧ x.st ≠ .fault
       Begins c (.senseSet c f) v s0 s' ∧ f.inst.toNat = k.val ∧ up ∧ f.rd = 0 ∧ f.rb = 0 ∧ blockOk t a 2 = true ∧
         blockMay s' t a 2 = true ∧ CleanAt s' a 2 ∧
         (inertial k = true → x.st = .off → x.warm = true ∧ x.warmAt = none)) ∧
    (∃ (c : CoreId) (v : Inv) (s : State) (s' : State) (f : UForm) (k : SensorId),
       let s0 := ownFirst (senseFirst k) s
       let t := v.tenant
       let x := s'.sensor k
       let up := s'.may t (capSens k.val) = true ∧ s'.hasFailed (sensorFunc k) = false ∧
         waitsFor (sensorFunc k) s' = none ∧ x.st ≠ .fault
       let bare := f.rd = 0 ∧ f.ra = 0 ∧ f.rb = 0
       Begins c (.senseStart c f) v s0 s' ∧ f.inst.toNat = k.val ∧ up ∧ bare) ∧
    (∃ (c : CoreId) (v : Inv) (s : State) (s' : State) (f : UForm) (k : SensorId),
       let s0 := ownFirst (senseFirst k) s
       let t := v.tenant
       let x := s'.sensor k
       let up := s'.may t (capSens k.val) = true ∧ s'.hasFailed (sensorFunc k) = false ∧
         waitsFor (sensorFunc k) s' = none ∧ x.st ≠ .fault
       let bare := f.rd = 0 ∧ f.ra = 0 ∧ f.rb = 0
       Begins c (.senseStop c f) v s0 s' ∧ f.inst.toNat = k.val ∧ up ∧ bare ∧ x.test = none) ∧
    (∃ (c : CoreId) (v : Inv) (s : State) (s' : State) (f : UForm) (k : SensorId),
       let s0 := ownFirst (senseFirst k) s
       let t := v.tenant
       let x := s'.sensor k
       let up := s'.may t (capSens k.val) = true ∧ s'.hasFailed (sensorFunc k) = false ∧
         waitsFor (sensorFunc k) s' = none ∧ x.st ≠ .fault
       Begins c (.senseHold c f) v s0 s' ∧ f.inst.toNat = k.val ∧ up ∧ f.rd = 0 ∧ f.rb = 0) ∧
    (∃ (c : CoreId) (v : Inv) (s : State) (s' : State) (f : UForm) (k : SensorId),
       let s0 := ownFirst (senseFirst k) s
       let t := v.tenant
       let x := s'.sensor k
       let up := s'.may t (capSens k.val) = true ∧ s'.hasFailed (sensorFunc k) = false ∧
         waitsFor (sensorFunc k) s' = none ∧ x.st ≠ .fault
       let bare := f.rd = 0 ∧ f.ra = 0 ∧ f.rb = 0
       Begins c (.senseReturn c f) v s0 s' ∧ f.inst.toNat = k.val ∧ up ∧ bare ∧ x.test = none) ∧
    (∃ (c : CoreId) (v : Inv) (s : State) (s' : State) (f : UForm) (k : SensorId) (e : _),
       let s0 := ownFirst (senseFirst k) s
       let t := v.tenant
       let x := s'.sensor k
       let up := s'.may t (capSens k.val) = true ∧ s'.hasFailed (sensorFunc k) = false ∧
         waitsFor (sensorFunc k) s' = none ∧ x.st ≠ .fault
       let bare := f.rd = 0 ∧ f.ra = 0 ∧ f.rb = 0
       Begins c (.senseReturn c f) v s0 s' ∧ f.inst.toNat = k.val ∧ up ∧ bare ∧ x.test = some e ∧ x.st = .held) ∧
    (∃ (c : CoreId) (v : Inv) (s : State) (s' : State) (f : UForm) (k : SensorId),
       let s0 := ownFirst (senseFirst k) s
       let t := v.tenant
       let x := s'.sensor k
       let up := s'.may t (capSens k.val) = true ∧ s'.hasFailed (sensorFunc k) = false ∧
         waitsFor (sensorFunc k) s' = none ∧ x.st ≠ .fault
       let bare := f.rd = 0 ∧ f.ra = 0 ∧ f.rb = 0
       Begins c (.senseOff c f) v s0 s' ∧ f.inst.toNat = k.val ∧ up ∧ bare) ∧
    (∃ (c : CoreId) (v : Inv) (s : State) (s' : State) (f : UForm) (k : SensorId),
       let s0 := ownFirst (senseFirst k) s
       let t := v.tenant
       let x := s'.sensor k
       let bare := f.rd = 0 ∧ f.ra = 0 ∧ f.rb = 0
       Begins c (.senseOff c f) v s0 s' ∧ f.inst.toNat = k.val ∧ s'.may t (capSens k.val) = true ∧ bare ∧
         x.st = .fault) ∧
    (∃ (c : CoreId) (v : Inv) (s : State) (s' : State) (f : UForm) (k : SensorId),
       let s0 := ownFirst (senseFirst k) s
       let t := v.tenant
       let x := s'.sensor k
       let up := s'.may t (capSens k.val) = true ∧ s'.hasFailed (sensorFunc k) = false ∧
         waitsFor (sensorFunc k) s' = none ∧ x.st ≠ .fault
       Begins c (.tone c f) v s0 s' ∧ f.inst.toNat = k.val ∧ up ∧ f.rd = 0 ∧ f.rb = 0 ∧ 3 ≤ k.val) :=
  ⟨⟨0, wI, (wReg wS [0, 0x20100000]).setSensor 10 Sensor.reset, (wReg wS [0, 0x20100000]).setSensor 10 Sensor.reset,
    ⟨0, 1, 0, 10⟩, 10, wB (by decide +kernel), by decide +kernel⟩,
   ⟨0, wI, wS, wS, ⟨0, 0, 0, 0⟩, 0, wB (by decide +kernel), by decide +kernel⟩,
   ⟨0, wI, wS, wS, ⟨0, 0, 0, 0⟩, 0, wB (by decide +kernel), by decide +kernel⟩,
   ⟨0, wI, wS, wS, ⟨0, 1, 0, 10⟩, 10, wB (by decide +kernel), by decide +kernel⟩,
   ⟨0, wI, wS, wS, ⟨0, 0, 0, 0⟩, 0, wB (by decide +kernel), by decide +kernel⟩,
   ⟨0, wI, wS.setSensor 2 { Sensor.reset with st := .held, test := some 5 },
    wS.setSensor 2 { Sensor.reset with st := .held, test := some 5 }, ⟨0, 0, 0, 2⟩, 2, 5, wB (by decide +kernel),
    by decide +kernel⟩,
   ⟨0, wI, wS, wS, ⟨0, 0, 0, 0⟩, 0, wB (by decide +kernel), by decide +kernel⟩,
   ⟨0, wI, wS.setSensor 2 { Sensor.reset with st := .fault }, wS.setSensor 2 { Sensor.reset with st := .fault },
    ⟨0, 0, 0, 2⟩, 2, wB (by decide +kernel), by decide +kernel⟩,
   ⟨0, wI, wS, wS, ⟨0, 1, 0, 10⟩, 10, wB (by decide +kernel), by decide +kernel⟩⟩

/-- Every hypothesis of SensorEvents can be met, clause by clause. -/
theorem test_witness_sensorEvents :
    (∃ (s : State) (k : SensorId) (w : RawTriple) (n : _),
       let x := s.sensor k
       Instr.conversion k w ∉ s.early ∧ s.running = true ∧ x.next = some n ∧ n * periodOf k x ≤ s.time.hive) ∧
    (∃ (s : State) (k : SensorId) (w : RawTriple),
       let x := s.sensor k
       Instr.conversion k w ∉ s.early ∧ (x.next = none ∨ s.running = false)) ∧
    (∃ (s : State) (k : SensorId) (w : RawTriple),
       Instr.conversion k w ∈ s.early) ∧
    (∃ (s : State) (k : SensorId) (q : _) (rest : _),
       let x := s.sensor k
       Instr.sensorSampleDelivery k ∉ s.early ∧ s.running = true ∧ x.pend = q :: rest ∧ lanesFed s k = []) ∧
    (∃ (s : State) (k : SensorId) (w : RawTriple) (n : _),
       let x := s.sensor k
       Instr.selfTestEnd k w ∉ s.early ∧ s.running = true ∧ x.test = some n ∧ n ≤ s.time.hive ∧ lanesFed s k = []) ∧
    (∃ (s : State) (ch : Fin 8),
       let e := extOf ch
       let y := (s.sensor e).tone
       let p := tonePeriod y.tper
       Instr.toneMeasStart ch ∉ s.early ∧ s.running = true ∧ (s.sensor e).st = .run ∧ y.tper ≠ 0 ∧ y.meas = none ∧
         y.notBefore ≤ s.time.hive / p * p) ∧
    (∃ (s : State) (ch : Fin 8),
       let e := extOf ch
       Instr.toneMeasStart ch ∉ s.early ∧ (s.sensor e).st ≠ .run) ∧
    (∃ (s : State) (ch : Fin 8) (m : ToneMeas) (n : _),
       let e := extOf ch
       let y := (s.sensor e).tone
       Instr.toneResult ch m ∉ s.early ∧ s.running = true ∧ y.meas = some n ∧ n + 6291456 + 192 ≤ s.time.hive ∧
         y.measSat = true) ∧
    (∃ (s : State) (ch : Fin 8) (m : ToneMeas) (n : _),
       let e := extOf ch
       let y := (s.sensor e).tone
       Instr.toneResult ch m ∉ s.early ∧ s.running = true ∧ y.meas = some n ∧ n + 6291456 + 192 ≤ s.time.hive ∧
         y.measSat = false ∧ (s.sensor e).voltage = true) :=
  ⟨⟨wS.setSensor 0 { Sensor.reset with st := .run, next := some 0 }, 0, ⟨0, 0, 0⟩, 0, by decide +kernel⟩,
   ⟨wS, 0, ⟨0, 0, 0⟩, by decide +kernel⟩,
   ⟨{ wS with early := [.conversion 0 ⟨0, 0, 0⟩] }, 0, ⟨0, 0, 0⟩, by decide +kernel⟩,
   ⟨wS.setSensor 0 { Sensor.reset with pend := [default] }, 0, default, [], by decide +kernel⟩,
   ⟨wS.setSensor 0 { Sensor.reset with st := .held, test := some 0 }, 0, ⟨0, 0, 0⟩, 0, by decide +kernel⟩,
   ⟨wS.setSensor 10 { Sensor.reset with st := .run, tone := { ToneSt.reset with tper := 9 } }, 7, by decide +kernel⟩,
   ⟨wS, 0, by decide +kernel⟩,
   ⟨{ (wS.setSensor 10 { Sensor.reset with st := .run, tone := { ToneSt.reset with meas := some 0, measSat := true } }) with time := { wS.time with hive := 6291648 } },
    7, ⟨0, 0, 0⟩, 0, by decide +kernel⟩,
   ⟨{ (wS.setSensor 10 { Sensor.reset with st := .run, set0 := 0x100, tone := { ToneSt.reset with meas := some 0 } }) with time := { wS.time with hive := 6291648 } },
    7, ⟨0, 0, 0⟩, 0, by decide +kernel⟩⟩

/-- Every hypothesis of AoutInstructions can be met, clause by clause. -/
theorem test_witness_aoutInstructions :
    (∃ (c : CoreId) (v : Inv) (s : State) (s' : State) (f : UForm) (k : Fin 4),
       let s0 := ownFirst (aoutFirst k) (ownFirst watchFirst s)
       let t := v.tenant
       let x := s'.aout k
       let r := s'.regs c
       let a := (r.rd f.ra).toNat
       let up := s'.may t (capAout k.val) = true ∧ s'.hasFailed .aout = false ∧ waitsFor .aout s' = none ∧ x.st ≠ .fault
       Begins c (.aoutSet c f) v s0 s' ∧ f.inst.toNat = k.val ∧ up ∧ f.rd = 0 ∧ f.rb = 0 ∧ blockOk t a 2 = true ∧
         blockMay s' t a 2 = true ∧ CleanAt s' a 2) ∧
    (∃ (c : CoreId) (v : Inv) (s : State) (s' : State) (f : UForm) (k : Fin 4),
       let s0 := ownFirst (aoutFirst k) (ownFirst watchFirst s)
       let t := v.tenant
       let x := s'.aout k
       let up := s'.may t (capAout k.val) = true ∧ s'.hasFailed .aout = false ∧ waitsFor .aout s' = none ∧ x.st ≠ .fault
       let bare := f.rd = 0 ∧ f.ra = 0 ∧ f.rb = 0
       Begins c (.aoutStart c f) v s0 s' ∧ f.inst.toNat = k.val ∧ up ∧ bare) ∧
    (∃ (c : CoreId) (v : Inv) (s : State) (s' : State) (f : UForm) (k : Fin 4),
       let s0 := ownFirst (aoutFirst k) (ownFirst watchFirst s)
       let t := v.tenant
       let x := s'.aout k
       let up := s'.may t (capAout k.val) = true ∧ s'.hasFailed .aout = false ∧ waitsFor .aout s' = none ∧ x.st ≠ .fault
       Begins c (.aoutWrite c f) v s0 s' ∧ f.inst.toNat = k.val ∧ up ∧ f.rd = 0 ∧ f.rb = 0) ∧
    (∃ (c : CoreId) (v : Inv) (s : State) (s' : State) (f : UForm) (k : Fin 4),
       let s0 := ownFirst (aoutFirst k) (ownFirst watchFirst s)
       let t := v.tenant
       let x := s'.aout k
       let up := s'.may t (capAout k.val) = true ∧ s'.hasFailed .aout = false ∧ waitsFor .aout s' = none ∧ x.st ≠ .fault
       Begins c (.aoutDiag c f) v s0 s' ∧ f.inst.toNat = k.val ∧ up ∧ f.rd = 0 ∧ f.rb = 0) ∧
    (∃ (c : CoreId) (v : Inv) (s : State) (s' : State) (f : UForm) (k : Fin 4),
       let s0 := ownFirst (aoutFirst k) (ownFirst watchFirst s)
       let t := v.tenant
       let x := s'.aout k
       let up := s'.may t (capAout k.val) = true ∧ s'.hasFailed .aout = false ∧ waitsFor .aout s' = none ∧ x.st ≠ .fault
       let bare := f.rd = 0 ∧ f.ra = 0 ∧ f.rb = 0
       Begins c (.aoutRelease c f) v s0 s' ∧ f.inst.toNat = k.val ∧ up ∧ bare) ∧
    (∃ (c : CoreId) (v : Inv) (s : State) (s' : State) (f : UForm) (k : Fin 4),
       let s0 := ownFirst (aoutFirst k) (ownFirst watchFirst s)
       let t := v.tenant
       let x := s'.aout k
       let up := s'.may t (capAout k.val) = true ∧ s'.hasFailed .aout = false ∧ waitsFor .aout s' = none ∧ x.st ≠ .fault
       let bare := f.rd = 0 ∧ f.ra = 0 ∧ f.rb = 0
       Begins c (.aoutStop c f) v s0 s' ∧ f.inst.toNat = k.val ∧ up ∧ bare) :=
  ⟨⟨0, wI, wReg wS [0, 0x20100000], wReg wS [0, 0x20100000], ⟨0, 1, 0, 3⟩, 3, wB (by decide +kernel),
    by decide +kernel⟩,
   ⟨0, wI, wS, wS, ⟨0, 0, 0, 0⟩, 0, wB (by decide +kernel), by decide +kernel⟩,
   ⟨0, wI, wS, wS, ⟨0, 1, 0, 3⟩, 3, wB (by decide +kernel), by decide +kernel⟩,
   ⟨0, wI, wS, wS, ⟨0, 1, 0, 3⟩, 3, wB (by decide +kernel), by decide +kernel⟩,
   ⟨0, wI, wS, wS, ⟨0, 0, 0, 0⟩, 0, wB (by decide +kernel), by decide +kernel⟩,
   ⟨0, wI, wS, wS, ⟨0, 0, 0, 0⟩, 0, wB (by decide +kernel), by decide +kernel⟩⟩

/-- Every hypothesis of AoutEvents can be met, clause by clause. -/
theorem test_witness_aoutEvents :
    (∃ (s : State) (k : Fin 4),
       Instr.aoutTimeout k ∉ s.early) ∧
    (∃ (s : State) (k : Fin 4),
       let x := s.aout k
       x.low = false) :=
  ⟨⟨wS, 0, by decide +kernel⟩,
   ⟨wS, 0, by decide +kernel⟩⟩

/-- Every hypothesis of LaneInstructions can be met, clause by clause. -/
theorem test_witness_laneInstructions :
    (∃ (c : CoreId) (v : Inv) (s : State) (s' : State) (f : UForm) (l : LaneId),
       let s0 := ownFirst laneFirst s
       let t := v.tenant
       let x := s'.lane l
       let r := s'.regs c
       let a := (r.rd f.ra).toNat
       let words := wordsAt s'
       let up := s'.may t (capLane l.val) = true ∧ waitsFor .lanes s' = none
       let ws := words a 11
       let u := upstream s' (fieldOf (wordAt ws 0) 5 0)
       let k := fieldOf (wordAt ws 2) 9 0
       let sts := mkStages u.2.1 0 ((ws.drop 3).take (fieldOf (wordAt ws 0) 11 8))
       Begins c (.laneBuild c f) v s0 s' ∧ f.inst.toNat = l.val ∧ up ∧ f.rd = 0 ∧ f.rb = 0 ∧ blockOk t a 11 = true ∧
         blockMay s' t a 11 = true ∧ CleanAt s' a 11 ∧ (x.st = .off ∨ x.st = .ready) ∧
         sourceMay s' t (fieldOf (wordAt ws 0) 5 0) = true ∧ buildFieldsOk l ws u = true ∧
         (k = 0 ∨ (blockOk t (wordAt ws 1).toNat k = true ∧ blockMay s' t (wordAt ws 1).toNat k = true ∧ CleanAt s' (wordAt ws 1).toNat k)) ∧
         buildRefusal s' l ws sts (words (wordAt ws 1).toNat k) = none) ∧
    (∃ (c : CoreId) (v : Inv) (s : State) (s' : State) (f : UForm) (l : LaneId),
       let s0 := ownFirst laneFirst s
       let t := v.tenant
       let x := s'.lane l
       let r := s'.regs c
       let a := (r.rd f.ra).toNat
       let up := s'.may t (capLane l.val) = true ∧ waitsFor .lanes s' = none
       Begins c (.laneBuild c f) v s0 s' ∧ f.inst.toNat = l.val ∧ up ∧ f.rd = 0 ∧ f.rb = 0 ∧ blockOk t a 11 = true ∧
         blockMay s' t a 11 = true ∧ (x.st = .run ∨ x.st = .held)) ∧
    (∃ (c : CoreId) (v : Inv) (s : State) (s' : State) (f : UForm) (l : LaneId),
       let s0 := ownFirst laneFirst s
       let t := v.tenant
       let x := s'.lane l
       let r := s'.regs c
       let a := (r.rd f.ra).toNat
       let n := x.ctlen
       let up := s'.may t (capLane l.val) = true ∧ waitsFor .lanes s' = none
       Begins c (.laneLoad c f) v s0 s' ∧ f.inst.toNat = l.val ∧ up ∧ f.rd = 0 ∧ f.rb = 0 ∧ blockOk t a n = true ∧
         blockMay s' t a n = true ∧ CleanAt s' a n) ∧
    (∃ (c : CoreId) (v : Inv) (s : State) (s' : State) (f : UForm) (l : LaneId),
       let s0 := ownFirst laneFirst s
       let t := v.tenant
       let x := s'.lane l
       let n := x.ctlen
       let up := s'.may t (capLane l.val) = true ∧ waitsFor .lanes s' = none
       let bare := f.rd = 0 ∧ f.ra = 0 ∧ f.rb = 0
       let table := n = 0 ∨ (blockOk t x.ctab.toNat n = true ∧ blockMay s' t x.ctab.toNat n = true ∧ CleanAt s' x.ctab.toNat n)
       Begins c (.laneStart c f) v s0 s' ∧ f.inst.toNat = l.val ∧ up ∧ bare ∧ table) ∧
    (∃ (c : CoreId) (v : Inv) (s : State) (s' : State) (f : UForm) (l : LaneId),
       let s0 := ownFirst laneFirst s
       let t := v.tenant
       let up := s'.may t (capLane l.val) = true ∧ waitsFor .lanes s' = none
       let bare := f.rd = 0 ∧ f.ra = 0 ∧ f.rb = 0
       Begins c (.laneSuspend c f) v s0 s' ∧ f.inst.toNat = l.val ∧ up ∧ bare) ∧
    (∃ (c : CoreId) (v : Inv) (s : State) (s' : State) (f : UForm) (l : LaneId),
       let s0 := ownFirst laneFirst s
       let t := v.tenant
       let x := s'.lane l
       let n := x.ctlen
       let up := s'.may t (capLane l.val) = true ∧ waitsFor .lanes s' = none
       let table := n = 0 ∨ (blockOk t x.ctab.toNat n = true ∧ blockMay s' t x.ctab.toNat n = true ∧ CleanAt s' x.ctab.toNat n)
       Begins c (.laneResume c f) v s0 s' ∧ f.inst.toNat = l.val ∧ up ∧ f.ra = 0 ∧ f.rb = 0 ∧ table) ∧
    (∃ (c : CoreId) (v : Inv) (s : State) (s' : State) (f : UForm) (l : LaneId),
       let s0 := ownFirst laneFirst s
       let t := v.tenant
       let up := s'.may t (capLane l.val) = true ∧ waitsFor .lanes s' = none
       let bare := f.rd = 0 ∧ f.ra = 0 ∧ f.rb = 0
       Begins c (.laneStop c f) v s0 s' ∧ f.inst.toNat = l.val ∧ up ∧ bare) ∧
    (∃ (c : CoreId) (v : Inv) (s : State) (s' : State) (f : UForm) (l : LaneId),
       let s0 := ownFirst laneFirst s
       let t := v.tenant
       let up := s'.may t (capLane l.val) = true ∧ waitsFor .lanes s' = none
       let bare := f.rd = 0 ∧ f.ra = 0 ∧ f.rb = 0
       Begins c (.laneClear c f) v s0 s' ∧ f.inst.toNat = l.val ∧ up ∧ bare) :=
  ⟨⟨0, wI, wMem (wReg wS [0, 0x20100000]) 0x20100000 [0x100, 0, 0, 36],
    wMem (wReg wS [0, 0x20100000]) 0x20100000 [0x100, 0, 0, 36], ⟨0, 1, 0, 23⟩, 23, wB (by decide +kernel),
    by decide +kernel⟩,
   ⟨0, wI, (wReg wS [0, 0x20100000]).setLane 23 { Lane.reset with st := .held },
    (wReg wS [0, 0x20100000]).setLane 23 { Lane.reset with st := .held }, ⟨0, 1, 0, 23⟩, 23, wB (by decide +kernel),
    by decide +kernel⟩,
   ⟨0, wI, (wReg wS [0, 0x20100000]).setLane 23 { Lane.reset with st := .ready },
    (wReg wS [0, 0x20100000]).setLane 23 { Lane.reset with st := .ready }, ⟨0, 1, 0, 23⟩, 23, wB (by decide +kernel),
    by decide +kernel⟩,
   ⟨0, wI, wS, wS, ⟨0, 0, 0, 23⟩, 23, wB (by decide +kernel), by decide +kernel⟩,
   ⟨0, wI, wS, wS, ⟨0, 0, 0, 0⟩, 0, wB (by decide +kernel), by decide +kernel⟩,
   ⟨0, wI, wS, wS, ⟨0, 0, 0, 0⟩, 0, wB (by decide +kernel), by decide +kernel⟩,
   ⟨0, wI, wS, wS, ⟨0, 0, 0, 0⟩, 0, wB (by decide +kernel), by decide +kernel⟩,
   ⟨0, wI, wS, wS, ⟨0, 0, 0, 0⟩, 0, wB (by decide +kernel), by decide +kernel⟩⟩

/-- Every hypothesis of CalibrationInstructions can be met, clause by clause. -/
theorem test_witness_calibrationInstructions :
    (∃ (c : CoreId) (v : Inv) (s : State) (s' : State) (f : UForm) (k : SensorId),
       let s0 := ownFirst laneFirst s
       let t := v.tenant
       let x := s'.sensor k
       let r := s'.regs c
       let b := (r.rd f.rb).toNat
       let up := s'.hasFailed (sensorFunc k) = false ∧ x.st ≠ .fault ∧ waitsFor .lanes s' = none
       Begins c (.calput c f) v s0 s' ∧ f.inst.toNat = k.val ∧ up ∧ s'.may t (capSens k.val) = true ∧ f.rd = 0 ∧
         blockOk t b 22 = true ∧ blockMay s' t b 22 = true ∧ CleanAt s' b 22) ∧
    (∃ (c : CoreId) (v : Inv) (s : State) (s' : State) (f : UForm) (k : SensorId),
       let s0 := ownFirst laneFirst s
       let t := v.tenant
       let x := s'.sensor k
       let up := s'.hasFailed (sensorFunc k) = false ∧ x.st ≠ .fault ∧ waitsFor .lanes s' = none
       Begins c (.calputP c f) v s0 s' ∧ f.inst.toNat = k.val ∧ up ∧ s'.may t (capSens k.val) = true ∧
         s'.may t capCal = true ∧ f.rd = 0 ∧ f.rb = 0) ∧
    (∃ (c : CoreId) (v : Inv) (s : State) (s' : State) (f : UForm) (l : LaneId),
       let s0 := ownFirst laneFirst s
       let t := v.tenant
       let y := s'.lane l
       let r := s'.regs c
       let j := (r.rd f.ra).toNat % 8
       Begins c (.calswap c f) v s0 s' ∧ f.inst.toNat = l.val ∧ waitsFor .lanes s' = none ∧
         s'.may t (capLane l.val) = true ∧ s'.may t capCal = true ∧ f.rb = 0 ∧ y.hasCal = true ∧
         (slotOf s' y.src j).isSome = true ∧ y.st ≠ .fault) ∧
    (∃ (s' : State) (l : LaneId),
       let y := s'.lane l
       (vgetD s'.sensors y.src Sensor.reset).pend = []) ∧
    (∃ (c : CoreId) (v : Inv) (s : State) (s' : State) (f : UForm) (l : LaneId),
       let s0 := ownFirst laneFirst s
       let t := v.tenant
       let y := s'.lane l
       let r := s'.regs c
       let j := (r.rd f.ra).toNat % 8
       Begins c (.calswap c f) v s0 s' ∧ f.inst.toNat = l.val ∧ waitsFor .lanes s' = none ∧
         s'.may t (capLane l.val) = true ∧ s'.may t capCal = true ∧ f.rb = 0 ∧
         (y.hasCal = false ∨ slotOf s' y.src j = none)) :=
  ⟨⟨0, wI, wReg wS [0, 0x20100000], wReg wS [0, 0x20100000], ⟨0, 2, 1, 10⟩, 10, wB (by decide +kernel),
    by decide +kernel⟩,
   ⟨0, wI, wS, wS, ⟨0, 1, 0, 10⟩, 10, wB (by decide +kernel), by decide +kernel⟩,
   ⟨0, wI,
    ((wS.setLane 23 { Lane.reset with st := .ready, stages := [⟨7, 1, 0, 0, [], [], none, false⟩] }).setSensor 0 { Sensor.reset with slots := vset Sensor.reset.slots 0 (some (identitySet 0)) }),
    ((wS.setLane 23 { Lane.reset with st := .ready, stages := [⟨7, 1, 0, 0, [], [], none, false⟩] }).setSensor 0 { Sensor.reset with slots := vset Sensor.reset.slots 0 (some (identitySet 0)) }),
    ⟨2, 1, 0, 23⟩, 23, wB (by decide +kernel), by decide +kernel⟩,
   ⟨wS, 23, by decide +kernel⟩,
   ⟨0, wI, wS, wS, ⟨2, 1, 0, 23⟩, 23, wB (by decide +kernel), by decide +kernel⟩⟩

/-- Every hypothesis of RecogInstructions can be met, clause by clause. -/
theorem test_witness_recogInstructions :
    (∃ (c : CoreId) (v : Inv) (s : State) (s' : State) (f : UForm) (k : RecogId),
       let s0 := ownFirst recogFirst s
       let t := v.tenant
       let r := s'.regs c
       let a := (r.rd f.ra).toNat
       let w0 := wordSeen s' a
       let lane := fieldOf w0 4 0
       let up := s'.may t (capRecog k.val) = true ∧ waitsFor .lanes s' = none
       Begins c (.recogSet c f) v s0 s' ∧ f.inst.toNat = k.val ∧ up ∧ f.rd = 0 ∧ f.rb = 0 ∧ blockOk t a 2 = true ∧
         blockMay s' t a 2 = true ∧ CleanAt s' a 2 ∧ (lane < 24 → s'.may t (capLane lane) = true)) ∧
    (∃ (c : CoreId) (v : Inv) (s : State) (s' : State) (f : UForm) (k : RecogId),
       let s0 := ownFirst recogFirst s
       let t := v.tenant
       let up := s'.may t (capRecog k.val) = true ∧ waitsFor .lanes s' = none
       let bare := f.rd = 0 ∧ f.ra = 0 ∧ f.rb = 0
       Begins c (.recogArm c f) v s0 s' ∧ f.inst.toNat = k.val ∧ up ∧ bare) ∧
    (∃ (s' : State) (f : UForm) (k : RecogId),
       let x := s'.recog k
       f.inst.toNat = k.val ∧ x.st = .run) ∧
    (∃ (c : CoreId) (v : Inv) (s : State) (s' : State) (f : UForm) (k : RecogId),
       let s0 := ownFirst recogFirst s
       let t := v.tenant
       let x := s'.recog k
       let up := s'.may t (capRecog k.val) = true ∧ waitsFor .lanes s' = none
       let bare := f.rd = 0 ∧ f.ra = 0 ∧ f.rb = 0
       Begins c (.recogDisarm c f) v s0 s' ∧ f.inst.toNat = k.val ∧ up ∧ bare ∧ x.st ≠ .run ∧ x.st ≠ .held) ∧
    (∃ (c : CoreId) (v : Inv) (s : State) (s' : State) (f : UForm) (k : RecogId),
       let s0 := ownFirst recogFirst s
       let t := v.tenant
       let x := s'.recog k
       let up := s'.may t (capRecog k.val) = true ∧ waitsFor .lanes s' = none
       let bare := f.rd = 0 ∧ f.ra = 0 ∧ f.rb = 0
       Begins c (.recogDisarm c f) v s0 s' ∧ f.inst.toNat = k.val ∧ up ∧ bare ∧ (x.st = .run ∨ x.st = .held)) ∧
    (∃ (c : CoreId) (v : Inv) (s : State) (s' : State) (f : UForm) (k : RecogId),
       let s0 := ownFirst recogFirst s
       let t := v.tenant
       let up := s'.may t (capRecog k.val) = true ∧ waitsFor .lanes s' = none
       let bare := f.rd = 0 ∧ f.ra = 0 ∧ f.rb = 0
       Begins c (.recogClear c f) v s0 s' ∧ f.inst.toNat = k.val ∧ up ∧ bare) :=
  ⟨⟨0, wI, wReg wS [0, 0x20100000], wReg wS [0, 0x20100000], ⟨0, 1, 0, 13⟩, 13, wB (by decide +kernel),
    by decide +kernel⟩,
   ⟨0, wI, wS, wS, ⟨0, 0, 0, 0⟩, 0, wB (by decide +kernel), by decide +kernel⟩,
   ⟨wS.setRecog 7 { Recog.reset with st := .run }, ⟨0, 0, 0, 7⟩, 7, by decide +kernel⟩,
   ⟨0, wI, wS, wS, ⟨0, 0, 0, 0⟩, 0, wB (by decide +kernel), by decide +kernel⟩,
   ⟨0, wI, wS.setRecog 13 { Recog.reset with st := .run }, wS.setRecog 13 { Recog.reset with st := .run },
    ⟨0, 0, 0, 13⟩, 13, wB (by decide +kernel), by decide +kernel⟩,
   ⟨0, wI, wS, wS, ⟨0, 0, 0, 0⟩, 0, wB (by decide +kernel), by decide +kernel⟩⟩

/-- Every hypothesis of RingInstructions can be met, clause by clause. -/
theorem test_witness_ringInstructions :
    (∃ (c : CoreId) (v : Inv) (s : State) (s' : State) (f : UForm) (k : RingId),
       let s0 := ownFirst recogFirst s
       let t := v.tenant
       let x := s'.ring k
       let r := s'.regs c
       let a := (r.rd f.ra).toNat
       let up := s'.may t (capRing k.val) = true ∧ s'.hasFailed .comb = false ∧ waitsFor .comb s' = none ∧ x.st ≠ .fault
       Begins c (.ringSet c f) v s0 s' ∧ f.inst.toNat = k.val ∧ up ∧ f.rd = 0 ∧ f.rb = 0 ∧ blockOk t a 5 = true ∧
         blockMay s' t a 5 = true ∧ CleanAt s' a 5) ∧
    (∃ (c : CoreId) (v : Inv) (s : State) (s' : State) (f : UForm) (k : RingId),
       let s0 := ownFirst recogFirst s
       let t := v.tenant
       let x := s'.ring k
       let up := s'.may t (capRing k.val) = true ∧ s'.hasFailed .comb = false ∧ waitsFor .comb s' = none ∧ x.st ≠ .fault
       let bare := f.rd = 0 ∧ f.ra = 0 ∧ f.rb = 0
       Begins c (.ringArm c f) v s0 s' ∧ f.inst.toNat = k.val ∧ up ∧ bare) ∧
    (∃ (c : CoreId) (v : Inv) (s : State) (s' : State) (f : UForm) (k : RingId),
       let s0 := ownFirst recogFirst s
       let t := v.tenant
       let x := s'.ring k
       let up := s'.may t (capRing k.val) = true ∧ s'.hasFailed .comb = false ∧ waitsFor .comb s' = none ∧ x.st ≠ .fault
       let bare := f.rd = 0 ∧ f.ra = 0 ∧ f.rb = 0
       Begins c (.ringTrig c f) v s0 s' ∧ f.inst.toNat = k.val ∧ up ∧ bare ∧ x.st ≠ .run) ∧
    (∃ (c : CoreId) (v : Inv) (s : State) (s' : State) (f : UForm) (k : RingId),
       let s0 := ownFirst recogFirst s
       let t := v.tenant
       let x := s'.ring k
       let up := s'.may t (capRing k.val) = true ∧ s'.hasFailed .comb = false ∧ waitsFor .comb s' = none ∧ x.st ≠ .fault
       let bare := f.rd = 0 ∧ f.ra = 0 ∧ f.rb = 0
       Begins c (.ringTrig c f) v s0 s' ∧ f.inst.toNat = k.val ∧ up ∧ bare ∧ x.st = .run ∧ x.trigd = true) ∧
    (∃ (c : CoreId) (v : Inv) (s : State) (s' : State) (f : UForm) (k : RingId),
       let s0 := ownFirst recogFirst s
       let t := v.tenant
       let x := s'.ring k
       let up := s'.may t (capRing k.val) = true ∧ s'.hasFailed .comb = false ∧ waitsFor .comb s' = none ∧ x.st ≠ .fault
       let bare := f.rd = 0 ∧ f.ra = 0 ∧ f.rb = 0
       Begins c (.ringTrig c f) v s0 s' ∧ f.inst.toNat = k.val ∧ up ∧ bare ∧ x.st = .run ∧ x.trigd = false) ∧
    (∃ (c : CoreId) (v : Inv) (s : State) (s' : State) (f : UForm) (k : RingId),
       let s0 := ownFirst recogFirst s
       let t := v.tenant
       let x := s'.ring k
       let up := s'.may t (capRing k.val) = true ∧ s'.hasFailed .comb = false ∧ waitsFor .comb s' = none ∧ x.st ≠ .fault
       let bare := f.rd = 0 ∧ f.ra = 0 ∧ f.rb = 0
       Begins c (.ringDisarm c f) v s0 s' ∧ f.inst.toNat = k.val ∧ up ∧ bare) ∧
    (∃ (c : CoreId) (v : Inv) (s : State) (s' : State) (f : UForm) (k : RingId),
       let s0 := ownFirst recogFirst s
       let t := v.tenant
       let x := s'.ring k
       let up := s'.may t (capRing k.val) = true ∧ s'.hasFailed .comb = false ∧ waitsFor .comb s' = none ∧ x.st ≠ .fault
       let bare := f.rd = 0 ∧ f.ra = 0 ∧ f.rb = 0
       Begins c (.ringFree c f) v s0 s' ∧ f.inst.toNat = k.val ∧ up ∧ bare) :=
  ⟨⟨0, wI, wReg wS [0, 0x20100000], wReg wS [0, 0x20100000], ⟨0, 1, 0, 63⟩, 63, wB (by decide +kernel),
    by decide +kernel⟩,
   ⟨0, wI, wS, wS, ⟨0, 0, 0, 0⟩, 0, wB (by decide +kernel), by decide +kernel⟩,
   ⟨0, wI, wS, wS, ⟨0, 0, 0, 0⟩, 0, wB (by decide +kernel), by decide +kernel⟩,
   ⟨0, wI, wS.setRing 63 { Ring.reset with st := .run, trigd := true },
    wS.setRing 63 { Ring.reset with st := .run, trigd := true }, ⟨0, 0, 0, 63⟩, 63, wB (by decide +kernel),
    by decide +kernel⟩,
   ⟨0, wI, wS.setRing 63 { Ring.reset with st := .run, trigd := false },
    wS.setRing 63 { Ring.reset with st := .run, trigd := false }, ⟨0, 0, 0, 63⟩, 63, wB (by decide +kernel),
    by decide +kernel⟩,
   ⟨0, wI, wS, wS, ⟨0, 0, 0, 0⟩, 0, wB (by decide +kernel), by decide +kernel⟩,
   ⟨0, wI, wS, wS, ⟨0, 0, 0, 0⟩, 0, wB (by decide +kernel), by decide +kernel⟩⟩

/-- Every hypothesis of StreamEvents can be met, clause by clause. -/
theorem test_witness_streamEvents :
    (∃ (s : State) (l : LaneId) (r : _) (rest : _),
       let x := s.lane l
       Instr.laneRecord l ∉ s.early ∧ s.running = true ∧ x.outq = r :: rest) ∧
    (∃ (s : State) (l : LaneId),
       let x := s.lane l
       Instr.laneRecord l ∉ s.early ∧ (x.outq = [] ∨ s.running = false)) ∧
    (∃ (s : State) (k : RecogId) (r : _) (rest : _) (i : _),
       let y := s.recog k
       Instr.recogDecide k ∉ s.early ∧ s.running = true ∧ y.st = .run ∧ y.inq = r :: rest ∧
         sensorBehind s y.srcLane = some i ∧ i.val = y.sensor ∧ r.flags &&& 83 ≠ 0) ∧
    (∃ (s : State) (k : RecogId) (r : _) (rest : _) (i : _),
       let y := s.recog k
       Instr.recogDecide k ∉ s.early ∧ s.running = true ∧ y.st = .run ∧ y.inq = r :: rest ∧
         sensorBehind s y.srcLane = some i ∧ i.val = y.sensor ∧ r.flags &&& 83 = 0) ∧
    (∃ (s : State),
       s.running = true) ∧
    (∃ (s : State) (n : _) (m : _) (ws : _) (rest : _),
       Instr.ringWrite ∉ s.early ∧ s.running = true ∧ s.comb.busyClk ≠ some s.time.clk ∧ Memory.wf s.mem = true ∧
         s.comb.wq = (n, m, ws) :: rest) ∧
    (∃ (s : State),
       Instr.ringWrite ∉ s.early ∧ (s.comb.wq = [] ∨ s.comb.busyClk = some s.time.clk)) ∧
    (∃ (s : State),
       let a := 0x30000000 + 32 * s.comb.scrubix
       s.running = true ∧ s.comb.busyClk ≠ some s.time.clk ∧ s.isReady .comb = true ∧ s.domUp .comb = true ∧
         s.comb.lastScrub + 3072 ≤ s.time.phys ∧ (∀ e ∈ s.ecc, ¬ (a ≤ e.addr ∧ e.addr < a + 32))) ∧
    (∃ (s : State),
       let a := 0x30000000 + 32 * s.comb.scrubix
       s.running = true ∧ s.comb.busyClk ≠ some s.time.clk ∧ s.isReady .comb = true ∧ s.domUp .comb = true ∧
         s.comb.lastScrub + 3072 ≤ s.time.phys ∧ (∃ e ∈ s.ecc, a ≤ e.addr ∧ e.addr < a + 32) ∧
         (∀ e ∈ s.ecc, a ≤ e.addr → e.addr < a + 32 → e.dbl = false)) :=
  ⟨⟨wS.setLane 23 { Lane.reset with st := .run, outq := [⟨0, 0, V3.zero, 0, 0, 0, []⟩] }, 23,
    ⟨0, 0, V3.zero, 0, 0, 0, []⟩, [], by decide +kernel⟩,
   ⟨wS, 0, by decide +kernel⟩,
   ⟨(wS.setLane 0 { Lane.reset with st := .run }).setRecog 13 { Recog.reset with st := .run, inq := [⟨0, 0, V3.zero, 2, 0, 0, []⟩] },
    13, ⟨0, 0, V3.zero, 2, 0, 0, []⟩, [], 0, by decide +kernel⟩,
   ⟨(wS.setLane 0 { Lane.reset with st := .run }).setRecog 13 { Recog.reset with st := .run, inq := [⟨0, 0, V3.zero, 0, 0, 0, []⟩] },
    13, ⟨0, 0, V3.zero, 0, 0, 0, []⟩, [], 0, by decide +kernel⟩,
   ⟨wS, by decide +kernel⟩,
   ⟨{ wS with comb := { CombSt.reset with wq := [(63, 0, [1])] } }, 63, 0, [1], [], by decide +kernel⟩,
   ⟨wS, by decide +kernel⟩,
   ⟨{ wS with time := { wS.time with phys := 3072 } }, by decide +kernel⟩,
   ⟨{ wS with time := { wS.time with phys := 3072 }, ecc := [⟨0x3000001C, false, 1⟩] }, by decide +kernel⟩⟩

/-- Every hypothesis of QueueControl can be met, clause by clause. -/
theorem test_witness_queueControl :
    (∃ (c : CoreId) (v : Inv) (s : State) (s' : State) (f : UForm) (k : QueueId),
       let s0 := ownFirst queueFirst s
       let t := v.tenant
       let a := ((s'.regs c).rd f.ra).toNat
       let up := s'.may t (capQueue k.val) = true ∧ waitsFor .queues s' = none
       Begins c (.qset c f) v s0 s' ∧ f.inst.toNat = k.val ∧ up ∧ f.rd = 0 ∧ f.rb = 0 ∧ blockOk t a 2 = true ∧
         blockMay s' t a 2 = true ∧ CleanAt s' a 2) ∧
    (∃ (c : CoreId) (v : Inv) (s : State) (s' : State) (f : UForm) (k : QueueId),
       let s0 := ownFirst queueFirst s
       let t := v.tenant
       let up := s'.may t (capQueue k.val) = true ∧ waitsFor .queues s' = none
       let bare := f.rd = 0 ∧ f.ra = 0 ∧ f.rb = 0
       Begins c (.qen c f) v s0 s' ∧ f.inst.toNat = k.val ∧ up ∧ bare) ∧
    (∃ (c : CoreId) (v : Inv) (s : State) (s' : State) (f : UForm) (k : QueueId),
       let s0 := ownFirst queueFirst s
       let t := v.tenant
       let up := s'.may t (capQueue k.val) = true ∧ waitsFor .queues s' = none
       let bare := f.rd = 0 ∧ f.ra = 0 ∧ f.rb = 0
       Begins c (.qdis c f) v s0 s' ∧ f.inst.toNat = k.val ∧ up ∧ bare) ∧
    (∃ (c : CoreId) (v : Inv) (s : State) (s' : State) (f : UForm) (k : QueueId),
       let s0 := ownFirst queueFirst s
       let t := v.tenant
       let up := s'.may t (capQueue k.val) = true ∧ waitsFor .queues s' = none
       let bare := f.rd = 0 ∧ f.ra = 0 ∧ f.rb = 0
       Begins c (.qfree c f) v s0 s' ∧ f.inst.toNat = k.val ∧ up ∧ bare) ∧
    (∃ (c : CoreId) (v : Inv) (s : State) (s' : State) (f : UForm) (k : QueueId),
       let s0 := ownFirst queueFirst s
       let t := v.tenant
       let up := s'.may t (capQueue k.val) = true ∧ waitsFor .queues s' = none
       let bare := f.rd = 0 ∧ f.ra = 0 ∧ f.rb = 0
       Begins c (.qflush c f) v s0 s' ∧ f.inst.toNat = k.val ∧ up ∧ bare) :=
  ⟨⟨0, wI, wReg wS [0, 0x20100000], wReg wS [0, 0x20100000], ⟨0, 1, 0, 63⟩, 63, wB (by decide +kernel),
    by decide +kernel⟩,
   ⟨0, wI, wS, wS, ⟨0, 0, 0, 0⟩, 0, wB (by decide +kernel), by decide +kernel⟩,
   ⟨0, wI, wS, wS, ⟨0, 0, 0, 0⟩, 0, wB (by decide +kernel), by decide +kernel⟩,
   ⟨0, wI, wS, wS, ⟨0, 0, 0, 0⟩, 0, wB (by decide +kernel), by decide +kernel⟩,
   ⟨0, wI, wS, wS, ⟨0, 0, 0, 0⟩, 0, wB (by decide +kernel), by decide +kernel⟩⟩

/-- Every hypothesis of QueueData can be met, clause by clause. -/
theorem test_witness_queueData :
    (∃ (c : CoreId) (v : Inv) (s : State) (s' : State) (f : UForm) (k : QueueId),
       let s0 := ownFirst queueFirst s
       let t := v.tenant
       let up := s'.may t (capQueue k.val) = true ∧ waitsFor .queues s' = none
       Begins c (.qput c f) v s0 s' ∧ f.inst.toNat = k.val ∧ up ∧ f.rd = 0 ∧ f.rb = 0) ∧
    (∃ (c : CoreId) (v : Inv) (s : State) (s' : State) (f : UForm) (k : QueueId),
       let s0 := ownFirst queueFirst s
       let t := v.tenant
       let r := s'.regs c
       let up := s'.may t (capQueue k.val) = true ∧ waitsFor .queues s' = none
       Begins c (.qputT c f) v s0 s' ∧ f.inst.toNat = k.val ∧ up ∧ f.rd = 0 ∧ (r.rd f.rb).toNat < 16) ∧
    (∃ (c : CoreId) (v : Inv) (s : State) (s' : State) (f : UForm) (k : QueueId),
       let s0 := ownFirst queueFirst s
       let t := v.tenant
       let r := s'.regs c
       let up := s'.may t (capQueue k.val) = true ∧ waitsFor .queues s' = none
       Begins c (.qputT c f) v s0 s' ∧ f.inst.toNat = k.val ∧ up ∧ f.rd = 0 ∧ 16 ≤ (r.rd f.rb).toNat) ∧
    (∃ (c : CoreId) (v : Inv) (s : State) (s' : State) (f : UForm) (k : QueueId),
       let s0 := ownFirst queueFirst s
       let t := v.tenant
       let up := s'.may t (capQueue k.val) = true ∧ waitsFor .queues s' = none
       Begins c (.qget c f) v s0 s' ∧ f.inst.toNat = k.val ∧ up ∧ f.ra = 0 ∧ f.rb = 0) ∧
    (∃ (c : CoreId) (v : Inv) (s : State) (s' : State) (f : UForm) (k : QueueId),
       let s0 := ownFirst queueFirst s
       let t := v.tenant
       let up := s'.may t (capQueue k.val) = true ∧ waitsFor .queues s' = none
       Begins c (.qcred c f) v s0 s' ∧ f.inst.toNat = k.val ∧ up ∧ f.rd = 0 ∧ f.rb = 0) :=
  ⟨⟨0, wI, wS, wS, ⟨0, 0, 0, 0⟩, 0, wB (by decide +kernel), by decide +kernel⟩,
   ⟨0, wI, wReg wS [0, 5, 15], wReg wS [0, 5, 15], ⟨0, 1, 2, 63⟩, 63, wB (by decide +kernel), by decide +kernel⟩,
   ⟨0, wI, wReg wS [0, 5, 16], wReg wS [0, 5, 16], ⟨0, 1, 2, 63⟩, 63, wB (by decide +kernel), by decide +kernel⟩,
   ⟨0, wI, wS, wS, ⟨0, 0, 0, 0⟩, 0, wB (by decide +kernel), by decide +kernel⟩,
   ⟨0, wI, wS, wS, ⟨0, 0, 0, 0⟩, 0, wB (by decide +kernel), by decide +kernel⟩⟩

/-- Every hypothesis of QueueSwaps can be met, clause by clause. -/
theorem test_witness_queueSwaps :
    (∃ (s : State) (k : QueueId),
       let x := s.queue k
       let due := if x.swapm = 0 then x.fill ≠ []
         else if x.swapm = 1 then ∃ d ∈ x.fill, d.tag.getLsbD 3 = true
         else x.swcnt ≤ x.fill.length
       s.running = true ∧ x.st = .run ∧ x.drain = [] ∧ due) ∧
    (∃ (s : State) (k : QueueId),
       let x := s.queue k
       let due := if x.swapm = 0 then x.fill ≠ []
         else if x.swapm = 1 then ∃ d ∈ x.fill, d.tag.getLsbD 3 = true
         else x.swcnt ≤ x.fill.length
       (s.running = false ∨ x.st ≠ .run ∨ x.drain ≠ [] ∨ ¬ due)) :=
  ⟨⟨wS.setQueue 63 { Queue.reset with st := .run, fill := [⟨1, 8, 0⟩] }, 63, by decide +kernel⟩,
   ⟨wS, 0, by decide +kernel⟩⟩

/-- Every hypothesis of JournalRecords can be met, clause by clause. -/
theorem test_witness_journalRecords :
    (∃ (c : CoreId) (v : Inv) (s : State) (s' : State) (f : UForm),
       let s0 := ownFirst journalFirst s
       let t := v.tenant
       let j := s'.journal
       let r := s'.regs c
       let a := (r.rd f.ra).toNat
       let b := (r.rd f.rb).toNat
       let up := s'.hasFailed .journal = false ∧ s'.hasFailed .flash = false ∧ j.st ≠ .fault ∧
         (j.st = .held ∨ waitsFor .journal s' = none)
       let len := b / 2 ^ 16 % 2 ^ 11
       let key := b % 2 ^ 16
       let n := if len ≤ 1024 then (len + 3) / 4 else 0
       Begins c (.jput c f) v s0 s' ∧ f.inst = 0 ∧ up ∧ f.rd = 0 ∧ s'.may t (capJw key) = true ∧
         (n = 0 ∨ blockOk t a n = true ∧ blockMay s' t a n = true ∧ CleanAt s' a n)) ∧
    (∃ (c : CoreId) (v : Inv) (s : State) (s' : State) (f : UForm),
       let s0 := ownFirst journalFirst s
       let t := v.tenant
       let j := s'.journal
       let up := s'.hasFailed .journal = false ∧ s'.hasFailed .flash = false ∧ j.st ≠ .fault ∧
         (j.st = .held ∨ waitsFor .journal s' = none)
       Begins c (.jcommit c f) v s0 s' ∧ f.inst = 0 ∧ up ∧ f.rd = 0 ∧ f.ra = 0 ∧ f.rb = 0 ∧
         s'.may t capJwAny = true ∧ j.st = .off) ∧
    (∃ (c : CoreId) (v : Inv) (s : State) (s' : State) (f : UForm),
       let s0 := ownFirst journalFirst s
       let t := v.tenant
       let j := s'.journal
       let up := s'.hasFailed .journal = false ∧ s'.hasFailed .flash = false ∧ j.st ≠ .fault ∧
         (j.st = .held ∨ waitsFor .journal s' = none)
       Begins c (.jcommit c f) v s0 s' ∧ f.inst = 0 ∧ up ∧ f.rd = 0 ∧ f.ra = 0 ∧ f.rb = 0 ∧
         s'.may t capJwAny = true ∧ (j.st = .run ∨ j.st = .held)) ∧
    (∃ (c : CoreId) (v : Inv) (s : State) (s' : State) (f : UForm),
       let s0 := ownFirst journalFirst s
       let t := v.tenant
       let j := s'.journal
       let up := s'.hasFailed .journal = false ∧ s'.hasFailed .flash = false ∧ j.st ≠ .fault ∧
         (j.st = .held ∨ waitsFor .journal s' = none)
       Begins c (.jcommit c f) v s0 s' ∧ f.inst = 0 ∧ up ∧ f.rd = 0 ∧ f.ra = 0 ∧ f.rb = 0 ∧
         s'.may t capJwAny = true ∧ j.st = .ready ∧ (∀ g ∈ j.gather, g.ten ≠ t)) ∧
    (∃ (c : CoreId) (v : Inv) (s : State) (s' : State) (f : UForm),
       let s0 := ownFirst journalFirst s
       let t := v.tenant
       let j := s'.journal
       let up := s'.hasFailed .journal = false ∧ s'.hasFailed .flash = false ∧ j.st ≠ .fault ∧
         (j.st = .held ∨ waitsFor .journal s' = none)
       Begins c (.jcommit c f) v s0 s' ∧ f.inst = 0 ∧ up ∧ f.rd = 0 ∧ f.ra = 0 ∧ f.rb = 0 ∧
         s'.may t capJwAny = true ∧ j.st = .ready ∧ (∃ g ∈ j.gather, g.ten = t)) ∧
    (∃ (c : CoreId) (v : Inv) (s : State) (s' : State) (f : UForm),
       let s0 := ownFirst journalFirst s
       let t := v.tenant
       let j := s'.journal
       let r := s'.regs c
       let a := (r.rd f.ra).toNat
       let b := (r.rd f.rb).toNat
       let up := s'.hasFailed .journal = false ∧ s'.hasFailed .flash = false ∧ j.st ≠ .fault ∧
         (j.st = .held ∨ waitsFor .journal s' = none)
       let gkey := a % 2 ^ 16
       let lim := a / 2 ^ 16 % 2 ^ 11
       let gup := up ∧ blockOk t b (max ((lim + 3) / 4) 1) = true ∧ (lim = 0 ∨ inData s' t b (4 * ((lim + 3) / 4)) = true) ∧
         (s'.may t (capJw gkey) = true ∨ s'.may t (capJr gkey) = true) ∧ j.op = none
       Begins c (.jget c f) v s0 s' ∧ f.inst = 0 ∧ gup ∧ j.st = .off) ∧
    (∃ (c : CoreId) (v : Inv) (s : State) (s' : State) (f : UForm),
       let s0 := ownFirst journalFirst s
       let t := v.tenant
       let j := s'.journal
       let r := s'.regs c
       let a := (r.rd f.ra).toNat
       let b := (r.rd f.rb).toNat
       let up := s'.hasFailed .journal = false ∧ s'.hasFailed .flash = false ∧ j.st ≠ .fault ∧
         (j.st = .held ∨ waitsFor .journal s' = none)
       let gkey := a % 2 ^ 16
       let lim := a / 2 ^ 16 % 2 ^ 11
       let gup := up ∧ blockOk t b (max ((lim + 3) / 4) 1) = true ∧ (lim = 0 ∨ inData s' t b (4 * ((lim + 3) / 4)) = true) ∧
         (s'.may t (capJw gkey) = true ∨ s'.may t (capJr gkey) = true) ∧ j.op = none
       Begins c (.jget c f) v s0 s' ∧ f.inst = 0 ∧ gup ∧ j.st = .held) ∧
    (∃ (c : CoreId) (v : Inv) (s : State) (s' : State) (f : UForm),
       let s0 := ownFirst journalFirst s
       let t := v.tenant
       let j := s'.journal
       let r := s'.regs c
       let a := (r.rd f.ra).toNat
       let b := (r.rd f.rb).toNat
       let up := s'.hasFailed .journal = false ∧ s'.hasFailed .flash = false ∧ j.st ≠ .fault ∧
         (j.st = .held ∨ waitsFor .journal s' = none)
       let gkey := a % 2 ^ 16
       let lim := a / 2 ^ 16 % 2 ^ 11
       let gup := up ∧ blockOk t b (max ((lim + 3) / 4) 1) = true ∧ (lim = 0 ∨ inData s' t b (4 * ((lim + 3) / 4)) = true) ∧
         (s'.may t (capJw gkey) = true ∨ s'.may t (capJr gkey) = true) ∧ j.op = none
       Begins c (.jget c f) v s0 s' ∧ f.inst = 0 ∧ gup ∧ (j.st = .ready ∨ j.st = .run) ∧
         (∀ e ∈ j.index, e.key ≠ gkey ∨ e.len = 0)) ∧
    (∃ (c : CoreId) (v : Inv) (s : State) (s' : State) (f : UForm) (e : _),
       let s0 := ownFirst journalFirst s
       let t := v.tenant
       let j := s'.journal
       let r := s'.regs c
       let a := (r.rd f.ra).toNat
       let b := (r.rd f.rb).toNat
       let up := s'.hasFailed .journal = false ∧ s'.hasFailed .flash = false ∧ j.st ≠ .fault ∧
         (j.st = .held ∨ waitsFor .journal s' = none)
       let gkey := a % 2 ^ 16
       let lim := a / 2 ^ 16 % 2 ^ 11
       let gup := up ∧ blockOk t b (max ((lim + 3) / 4) 1) = true ∧ (lim = 0 ∨ inData s' t b (4 * ((lim + 3) / 4)) = true) ∧
         (s'.may t (capJw gkey) = true ∨ s'.may t (capJr gkey) = true) ∧ j.op = none
       Begins c (.jget c f) v s0 s' ∧ f.inst = 0 ∧ gup ∧ (j.st = .ready ∨ j.st = .run) ∧
         j.index.find? (fun e => e.key == gkey && e.len != 0) = some e ∧ lim < e.len) ∧
    (∃ (c : CoreId) (v : Inv) (s : State) (s' : State) (f : UForm) (e : _),
       let s0 := ownFirst journalFirst s
       let t := v.tenant
       let j := s'.journal
       let r := s'.regs c
       let a := (r.rd f.ra).toNat
       let b := (r.rd f.rb).toNat
       let up := s'.hasFailed .journal = false ∧ s'.hasFailed .flash = false ∧ j.st ≠ .fault ∧
         (j.st = .held ∨ waitsFor .journal s' = none)
       let gkey := a % 2 ^ 16
       let lim := a / 2 ^ 16 % 2 ^ 11
       let gup := up ∧ blockOk t b (max ((lim + 3) / 4) 1) = true ∧ (lim = 0 ∨ inData s' t b (4 * ((lim + 3) / 4)) = true) ∧
         (s'.may t (capJw gkey) = true ∨ s'.may t (capJr gkey) = true) ∧ j.op = none
       let o := j.base * 4096 + e.off
       let size := 8 + 4 * ((e.len + 3) / 4)
       let raw := memGets s'.mem (0x08000000 + o) size
       let good := crc32c (raw.take (size - 4)) = wordOfBytes (raw.drop (size - 4))
       Begins c (.jget c f) v s0 s' ∧ f.inst = 0 ∧ gup ∧ (j.st = .ready ∨ j.st = .run) ∧
         j.index.find? (fun e => e.key == gkey && e.len != 0) = some e ∧ e.len ≤ lim ∧ good) ∧
    (∃ (c : CoreId) (v : Inv) (s : State) (s' : State) (f : UForm) (e : _),
       let s0 := ownFirst journalFirst s
       let t := v.tenant
       let j := s'.journal
       let r := s'.regs c
       let a := (r.rd f.ra).toNat
       let b := (r.rd f.rb).toNat
       let up := s'.hasFailed .journal = false ∧ s'.hasFailed .flash = false ∧ j.st ≠ .fault ∧
         (j.st = .held ∨ waitsFor .journal s' = none)
       let gkey := a % 2 ^ 16
       let lim := a / 2 ^ 16 % 2 ^ 11
       let gup := up ∧ blockOk t b (max ((lim + 3) / 4) 1) = true ∧ (lim = 0 ∨ inData s' t b (4 * ((lim + 3) / 4)) = true) ∧
         (s'.may t (capJw gkey) = true ∨ s'.may t (capJr gkey) = true) ∧ j.op = none
       let o := j.base * 4096 + e.off
       let size := 8 + 4 * ((e.len + 3) / 4)
       let raw := memGets s'.mem (0x08000000 + o) size
       let good := crc32c (raw.take (size - 4)) = wordOfBytes (raw.drop (size - 4))
       Begins c (.jget c f) v s0 s' ∧ f.inst = 0 ∧ gup ∧ (j.st = .ready ∨ j.st = .run) ∧
         j.index.find? (fun e => e.key == gkey && e.len != 0) = some e ∧ e.len ≤ lim ∧ ¬ good) :=
  ⟨⟨0, wI, (wReg wS [0, 0x20100000, 0x0400FFFF]), (wReg wS [0, 0x20100000, 0x0400FFFF]), ⟨0, 1, 2, 0⟩,
    wB (by decide +kernel), by decide +kernel⟩,
   ⟨0, wI, wS, wS, ⟨0, 0, 0, 0⟩, wB (by decide +kernel), by decide +kernel⟩,
   ⟨0, wI, { wS with journal := { JournalSt.reset with st := .held } },
    { wS with journal := { JournalSt.reset with st := .held } }, ⟨0, 0, 0, 0⟩, wB (by decide +kernel),
    by decide +kernel⟩,
   ⟨0, wI, { wS with journal := { JournalSt.reset with st := .ready } },
    { wS with journal := { JournalSt.reset with st := .ready } }, ⟨0, 0, 0, 0⟩, wB (by decide +kernel),
    by decide +kernel⟩,
   ⟨0, wI, { wS with journal := { JournalSt.reset with st := .ready, gather := [⟨0, 1, [], false⟩] } },
    { wS with journal := { JournalSt.reset with st := .ready, gather := [⟨0, 1, [], false⟩] } }, ⟨0, 0, 0, 0⟩,
    wB (by decide +kernel), by decide +kernel⟩,
   ⟨0, wI, (wReg wS [0, 0x0400FFFF, 0x20100000]), (wReg wS [0, 0x0400FFFF, 0x20100000]), ⟨0, 1, 2, 0⟩,
    wB (by decide +kernel), by decide +kernel⟩,
   ⟨0, wI, { (wReg wS [0, 0x0400FFFF, 0x20100000]) with journal := { JournalSt.reset with st := .held } },
    { (wReg wS [0, 0x0400FFFF, 0x20100000]) with journal := { JournalSt.reset with st := .held } }, ⟨0, 1, 2, 0⟩,
    wB (by decide +kernel), by decide +kernel⟩,
   ⟨0, wI, { (wReg wS [0, 0x04000005, 0x20100000]) with journal := { JournalSt.reset with st := .run } },
    { (wReg wS [0, 0x04000005, 0x20100000]) with journal := { JournalSt.reset with st := .run } }, ⟨0, 1, 2, 0⟩,
    wB (by decide +kernel), by decide +kernel⟩,
   ⟨0, wI,
    { (wReg wS [0, 0x00000005, 0x20100000]) with journal := { JournalSt.reset with st := .ready, index := [⟨5, 1, 0, 0⟩] } },
    { (wReg wS [0, 0x00000005, 0x20100000]) with journal := { JournalSt.reset with st := .ready, index := [⟨5, 1, 0, 0⟩] } },
    ⟨0, 1, 2, 0⟩, ⟨5, 1, 0, 0⟩, wB (by decide +kernel), by decide +kernel⟩,
   ⟨0, wI,
    { (wMem ((wReg wS [0, 0x04000005, 0x20100000])) 0x08000000 [0x00000105, 0x00000001, (crc32c [5, 1, 0, 0, 1, 0, 0, 0])]) with journal := { JournalSt.reset with st := .ready, index := [⟨5, 1, 0, 0⟩] } },
    { (wMem ((wReg wS [0, 0x04000005, 0x20100000])) 0x08000000 [0x00000105, 0x00000001, (crc32c [5, 1, 0, 0, 1, 0, 0, 0])]) with journal := { JournalSt.reset with st := .ready, index := [⟨5, 1, 0, 0⟩] } },
    ⟨0, 1, 2, 0⟩, ⟨5, 1, 0, 0⟩, wB (by decide +kernel), by decide +kernel⟩,
   ⟨0, wI,
    { (wReg wS [0, 0x00010005, 0x20100000]) with journal := { JournalSt.reset with st := .ready, index := [⟨5, 1, 0, 0⟩] } },
    { (wReg wS [0, 0x00010005, 0x20100000]) with journal := { JournalSt.reset with st := .ready, index := [⟨5, 1, 0, 0⟩] } },
    ⟨0, 1, 2, 0⟩, ⟨5, 1, 0, 0⟩, wB (by decide +kernel), by decide +kernel⟩⟩

/-- Every hypothesis of FlashInstructions can be met, clause by clause. -/
theorem test_witness_flashInstructions :
    (∃ (c : CoreId) (v : Inv) (s : State) (s' : State) (f : UForm),
       let j := s'.journal
       let a := ((s'.regs c).rd f.ra).toNat
       let s0 := ownFirst journalFirst s
       let up := s'.hasFailed .journal = false ∧ s'.hasFailed .flash = false ∧ j.st ≠ .fault ∧
         (j.st = .held ∨ waitsFor .journal s' = none)
       Begins c (.jprog c f) v s0 s' ∧ f.inst = 0 ∧ v.tenant = 0 ∧ f.rd = 0 ∧ f.rb = 0 ∧ up ∧ blockOk 0 a 3 = true ∧
         CleanAt s' a 3 ∧ j.st = .off) ∧
    (∃ (c : CoreId) (v : Inv) (s : State) (s' : State) (f : UForm),
       let j := s'.journal
       let a := ((s'.regs c).rd f.ra).toNat
       let s0 := ownFirst journalFirst s
       let up := s'.hasFailed .journal = false ∧ s'.hasFailed .flash = false ∧ j.st ≠ .fault ∧
         (j.st = .held ∨ waitsFor .journal s' = none)
       let busy (st : UState) := st = .run ∨ st = .held
       Begins c (.jprog c f) v s0 s' ∧ f.inst = 0 ∧ v.tenant = 0 ∧ f.rd = 0 ∧ f.rb = 0 ∧ up ∧ blockOk 0 a 3 = true ∧
         CleanAt s' a 3 ∧ busy j.st) ∧
    (∃ (c : CoreId) (v : Inv) (s : State) (s' : State) (f : UForm),
       let j := s'.journal
       let a := ((s'.regs c).rd f.ra).toNat
       let off := (wordSeen s' a).toNat
       let src := (wordSeen s' (a + 4)).toNat
       let len := (wordSeen s' (a + 8)).toNat
       let s0 := ownFirst journalFirst s
       let up := s'.hasFailed .journal = false ∧ s'.hasFailed .flash = false ∧ j.st ≠ .fault ∧
         (j.st = .held ∨ waitsFor .journal s' = none)
       Begins c (.jprog c f) v s0 s' ∧ f.inst = 0 ∧ v.tenant = 0 ∧ f.rd = 0 ∧ f.rb = 0 ∧ up ∧ blockOk 0 a 3 = true ∧
         CleanAt s' a 3 ∧ j.st = .ready ∧
         (off % 4 ≠ 0 ∨ len < 4 ∨ 256 < len ∨ len % 4 ≠ 0 ∨ 0x800000 < off + len ∨ blockOk 0 src (len / 4) = false)) ∧
    (∃ (c : CoreId) (v : Inv) (s : State) (s' : State) (f : UForm),
       let j := s'.journal
       let a := ((s'.regs c).rd f.ra).toNat
       let off := (wordSeen s' a).toNat
       let src := (wordSeen s' (a + 4)).toNat
       let len := (wordSeen s' (a + 8)).toNat
       let s0 := ownFirst journalFirst s
       let up := s'.hasFailed .journal = false ∧ s'.hasFailed .flash = false ∧ j.st ≠ .fault ∧
         (j.st = .held ∨ waitsFor .journal s' = none)
       let area (o n : Nat) := j.nsec ≠ 0 ∧ o < (j.base + j.nsec + 2) * 4096 ∧ j.base * 4096 < o + n
       Begins c (.jprog c f) v s0 s' ∧ f.inst = 0 ∧ v.tenant = 0 ∧ f.rd = 0 ∧ f.rb = 0 ∧ up ∧ blockOk 0 a 3 = true ∧
         CleanAt s' a 3 ∧ j.st = .ready ∧ off % 4 = 0 ∧ 4 ≤ len ∧ len ≤ 256 ∧ len % 4 = 0 ∧
         blockOk 0 src (len / 4) = true ∧ CleanAt s' src (len / 4) ∧ off + len ≤ 0x800000 ∧
         (v.bind = none ∨ (s'.regs c).pc.toNat < 0x08000000 ∨ 0x08800000 ≤ (s'.regs c).pc.toNat) ∧
         (¬ (off < 0x400000 ∧ 0x3FF000 < off + len)) ∧ off + len ≤ 0x7FF000 ∧ area off len) ∧
    (∃ (c : CoreId) (v : Inv) (s : State) (s' : State) (f : UForm),
       let j := s'.journal
       let a := ((s'.regs c).rd f.ra).toNat
       let off := (wordSeen s' a).toNat
       let src := (wordSeen s' (a + 4)).toNat
       let len := (wordSeen s' (a + 8)).toNat
       let s0 := ownFirst journalFirst s
       let up := s'.hasFailed .journal = false ∧ s'.hasFailed .flash = false ∧ j.st ≠ .fault ∧
         (j.st = .held ∨ waitsFor .journal s' = none)
       let area (o n : Nat) := j.nsec ≠ 0 ∧ o < (j.base + j.nsec + 2) * 4096 ∧ j.base * 4096 < o + n
       Begins c (.jprog c f) v s0 s' ∧ f.inst = 0 ∧ v.tenant = 0 ∧ f.rd = 0 ∧ f.rb = 0 ∧ up ∧ blockOk 0 a 3 = true ∧
         CleanAt s' a 3 ∧ j.st = .ready ∧ off % 4 = 0 ∧ 4 ≤ len ∧ len ≤ 256 ∧ len % 4 = 0 ∧
         blockOk 0 src (len / 4) = true ∧ CleanAt s' src (len / 4) ∧ off + len ≤ 0x800000 ∧
         (v.bind = none ∨ (s'.regs c).pc.toNat < 0x08000000 ∨ 0x08800000 ≤ (s'.regs c).pc.toNat) ∧
         (¬ (off < 0x400000 ∧ 0x3FF000 < off + len)) ∧ off + len ≤ 0x7FF000 ∧ ¬ area off len) ∧
    (∃ (c : CoreId) (v : Inv) (s : State) (s' : State) (f : UForm),
       let j := s'.journal
       let s0 := ownFirst journalFirst s
       let up := s'.hasFailed .journal = false ∧ s'.hasFailed .flash = false ∧ j.st ≠ .fault ∧
         (j.st = .held ∨ waitsFor .journal s' = none)
       Begins c (.jerase c f) v s0 s' ∧ f.inst = 0 ∧ v.tenant = 0 ∧ f.rd = 0 ∧ f.rb = 0 ∧ up ∧ j.st = .off) ∧
    (∃ (c : CoreId) (v : Inv) (s : State) (s' : State) (f : UForm),
       let j := s'.journal
       let s0 := ownFirst journalFirst s
       let up := s'.hasFailed .journal = false ∧ s'.hasFailed .flash = false ∧ j.st ≠ .fault ∧
         (j.st = .held ∨ waitsFor .journal s' = none)
       let busy (st : UState) := st = .run ∨ st = .held
       Begins c (.jerase c f) v s0 s' ∧ f.inst = 0 ∧ v.tenant = 0 ∧ f.rd = 0 ∧ f.rb = 0 ∧ up ∧ busy j.st) ∧
    (∃ (c : CoreId) (v : Inv) (s : State) (s' : State) (f : UForm),
       let j := s'.journal
       let a := ((s'.regs c).rd f.ra).toNat
       let s0 := ownFirst journalFirst s
       let up := s'.hasFailed .journal = false ∧ s'.hasFailed .flash = false ∧ j.st ≠ .fault ∧
         (j.st = .held ∨ waitsFor .journal s' = none)
       let area (o n : Nat) := j.nsec ≠ 0 ∧ o < (j.base + j.nsec + 2) * 4096 ∧ j.base * 4096 < o + n
       Begins c (.jerase c f) v s0 s' ∧ f.inst = 0 ∧ v.tenant = 0 ∧ f.rd = 0 ∧ f.rb = 0 ∧ up ∧ j.st = .ready ∧
         (a % 4096 ≠ 0 ∨ 0x800000 ≤ a ∨ area a 4096 ∨ a / 4096 = 1023 ∨ a / 4096 = 2047)) ∧
    (∃ (c : CoreId) (v : Inv) (s : State) (s' : State) (f : UForm),
       let j := s'.journal
       let a := ((s'.regs c).rd f.ra).toNat
       let s0 := ownFirst journalFirst s
       let up := s'.hasFailed .journal = false ∧ s'.hasFailed .flash = false ∧ j.st ≠ .fault ∧
         (j.st = .held ∨ waitsFor .journal s' = none)
       let area (o n : Nat) := j.nsec ≠ 0 ∧ o < (j.base + j.nsec + 2) * 4096 ∧ j.base * 4096 < o + n
       Begins c (.jerase c f) v s0 s' ∧ f.inst = 0 ∧ v.tenant = 0 ∧ f.rd = 0 ∧ f.rb = 0 ∧ up ∧ j.st = .ready ∧
         ¬ (a % 4096 ≠ 0 ∨ 0x800000 ≤ a ∨ area a 4096 ∨ a / 4096 = 1023 ∨ a / 4096 = 2047) ∧
         (v.bind = none ∨ (s'.regs c).pc.toNat < 0x08000000 ∨ 0x08800000 ≤ (s'.regs c).pc.toNat)) ∧
    (∃ (c : CoreId) (v : Inv) (s : State) (s' : State) (f : UForm),
       let j := s'.journal
       let s0 := ownFirst journalFirst s
       let up := s'.hasFailed .journal = false ∧ s'.hasFailed .flash = false ∧ j.st ≠ .fault ∧
         (j.st = .held ∨ waitsFor .journal s' = none)
       let busy (st : UState) := st = .run ∨ st = .held
       let i : Instr := (.sealArm c f)
       Begins c i v s0 s' ∧ f.inst = 0 ∧ v.tenant = 0 ∧ f.rd = 0 ∧ f.rb = 0 ∧ up ∧ busy j.st) ∧
    (∃ (c : CoreId) (v : Inv) (s : State) (s' : State) (f : UForm),
       let j := s'.journal
       let s0 := ownFirst journalFirst s
       let up := s'.hasFailed .journal = false ∧ s'.hasFailed .flash = false ∧ j.st ≠ .fault ∧
         (j.st = .held ∨ waitsFor .journal s' = none)
       let busy (st : UState) := st = .run ∨ st = .held
       let i : Instr := (.sealArm c f)
       Begins c i v s0 s' ∧ f.inst = 0 ∧ v.tenant = 0 ∧ f.rd = 0 ∧ f.rb = 0 ∧ up ∧ ¬ busy j.st ∧
         (j.sealed = true ∨ j.burn ≠ none)) ∧
    (∃ (c : CoreId) (v : Inv) (s : State) (s' : State) (f : UForm),
       let j := s'.journal
       let a := ((s'.regs c).rd f.ra).toNat
       let s0 := ownFirst journalFirst s
       let up := s'.hasFailed .journal = false ∧ s'.hasFailed .flash = false ∧ j.st ≠ .fault ∧
         (j.st = .held ∨ waitsFor .journal s' = none)
       let busy (st : UState) := st = .run ∨ st = .held
       let i : Instr := (.sealArm c f)
       Begins c i v s0 s' ∧ f.inst = 0 ∧ v.tenant = 0 ∧ f.rd = 0 ∧ f.rb = 0 ∧ up ∧ ¬ busy j.st ∧ j.sealed = false ∧
         j.burn = none ∧ a = 0x5EA1) ∧
    (∃ (c : CoreId) (v : Inv) (s : State) (s' : State) (f : UForm) (m : _),
       let j := s'.journal
       let a := ((s'.regs c).rd f.ra).toNat
       let s0 := ownFirst journalFirst s
       let up := s'.hasFailed .journal = false ∧ s'.hasFailed .flash = false ∧ j.st ≠ .fault ∧
         (j.st = .held ∨ waitsFor .journal s' = none)
       let busy (st : UState) := st = .run ∨ st = .held
       let i : Instr := (.sealArm c f)
       Begins c i v s0 s' ∧ f.inst = 0 ∧ v.tenant = 0 ∧ f.rd = 0 ∧ f.rb = 0 ∧ up ∧ ¬ busy j.st ∧ j.sealed = false ∧
         j.burn = none ∧ a = 0x1AE5 ∧ j.arm = some m ∧ s'.time.hive - m ≤ 192000000) ∧
    (∃ (c : CoreId) (v : Inv) (s : State) (s' : State) (f : UForm),
       let j := s'.journal
       let a := ((s'.regs c).rd f.ra).toNat
       let s0 := ownFirst journalFirst s
       let up := s'.hasFailed .journal = false ∧ s'.hasFailed .flash = false ∧ j.st ≠ .fault ∧
         (j.st = .held ∨ waitsFor .journal s' = none)
       let busy (st : UState) := st = .run ∨ st = .held
       let i : Instr := (.sealArm c f)
       Begins c i v s0 s' ∧ f.inst = 0 ∧ v.tenant = 0 ∧ f.rd = 0 ∧ f.rb = 0 ∧ up ∧ ¬ busy j.st ∧ j.sealed = false ∧
         j.burn = none ∧
         ((a ≠ 0x5EA1 ∧ a ≠ 0x1AE5) ∨ (a = 0x1AE5 ∧ ∀ m, j.arm = some m → 192000000 < s'.time.hive - m))) ∧
    (∃ (c : CoreId) (v : Inv) (s : State) (s' : State) (f : UForm),
       let j := s'.journal
       let s0 := ownFirst journalFirst s
       let up := s'.hasFailed .journal = false ∧ s'.hasFailed .flash = false ∧ j.st ≠ .fault ∧
         (j.st = .held ∨ waitsFor .journal s' = none)
       let busy (st : UState) := st = .run ∨ st = .held
       let i : Instr := (.sealBurn c f)
       Begins c i v s0 s' ∧ f.inst = 0 ∧ v.tenant = 0 ∧ f.rd = 0 ∧ f.rb = 0 ∧ up ∧ busy j.st) ∧
    (∃ (c : CoreId) (v : Inv) (s : State) (s' : State) (f : UForm),
       let j := s'.journal
       let s0 := ownFirst journalFirst s
       let up := s'.hasFailed .journal = false ∧ s'.hasFailed .flash = false ∧ j.st ≠ .fault ∧
         (j.st = .held ∨ waitsFor .journal s' = none)
       let busy (st : UState) := st = .run ∨ st = .held
       let i : Instr := (.sealBurn c f)
       Begins c i v s0 s' ∧ f.inst = 0 ∧ v.tenant = 0 ∧ f.rd = 0 ∧ f.rb = 0 ∧ up ∧ ¬ busy j.st ∧
         (j.sealed = true ∨ j.burn ≠ none)) ∧
    (∃ (c : CoreId) (v : Inv) (s : State) (s' : State) (f : UForm),
       let j := s'.journal
       let a := ((s'.regs c).rd f.ra).toNat
       let s0 := ownFirst journalFirst s
       let up := s'.hasFailed .journal = false ∧ s'.hasFailed .flash = false ∧ j.st ≠ .fault ∧
         (j.st = .held ∨ waitsFor .journal s' = none)
       let busy (st : UState) := st = .run ∨ st = .held
       let i : Instr := (.sealBurn c f)
       Begins c i v s0 s' ∧ f.inst = 0 ∧ v.tenant = 0 ∧ f.rd = 0 ∧ f.rb = 0 ∧ up ∧ ¬ busy j.st ∧ j.sealed = false ∧
         j.burn = none ∧ a = 0x5EA1) ∧
    (∃ (c : CoreId) (v : Inv) (s : State) (s' : State) (f : UForm) (m : _),
       let j := s'.journal
       let a := ((s'.regs c).rd f.ra).toNat
       let s0 := ownFirst journalFirst s
       let up := s'.hasFailed .journal = false ∧ s'.hasFailed .flash = false ∧ j.st ≠ .fault ∧
         (j.st = .held ∨ waitsFor .journal s' = none)
       let busy (st : UState) := st = .run ∨ st = .held
       let i : Instr := (.sealBurn c f)
       Begins c i v s0 s' ∧ f.inst = 0 ∧ v.tenant = 0 ∧ f.rd = 0 ∧ f.rb = 0 ∧ up ∧ ¬ busy j.st ∧ j.sealed = false ∧
         j.burn = none ∧ a = 0x1AE5 ∧ j.arm = some m ∧ s'.time.hive - m ≤ 192000000) ∧
    (∃ (c : CoreId) (v : Inv) (s : State) (s' : State) (f : UForm),
       let j := s'.journal
       let a := ((s'.regs c).rd f.ra).toNat
       let s0 := ownFirst journalFirst s
       let up := s'.hasFailed .journal = false ∧ s'.hasFailed .flash = false ∧ j.st ≠ .fault ∧
         (j.st = .held ∨ waitsFor .journal s' = none)
       let busy (st : UState) := st = .run ∨ st = .held
       let i : Instr := (.sealBurn c f)
       Begins c i v s0 s' ∧ f.inst = 0 ∧ v.tenant = 0 ∧ f.rd = 0 ∧ f.rb = 0 ∧ up ∧ ¬ busy j.st ∧ j.sealed = false ∧
         j.burn = none ∧
         ((a ≠ 0x5EA1 ∧ a ≠ 0x1AE5) ∨ (a = 0x1AE5 ∧ ∀ m, j.arm = some m → 192000000 < s'.time.hive - m))) :=
  ⟨⟨0, wI, (wReg wS [0, 0x20100000, 0x0400FFFF]), (wReg wS [0, 0x20100000, 0x0400FFFF]), ⟨0, 1, 0, 0⟩,
    wB (by decide +kernel), by decide +kernel⟩,
   ⟨0, wI, { (wReg wS [0, 0x20100000, 0x0400FFFF]) with journal := { JournalSt.reset with st := .held } },
    { (wReg wS [0, 0x20100000, 0x0400FFFF]) with journal := { JournalSt.reset with st := .held } }, ⟨0, 1, 0, 0⟩,
    wB (by decide +kernel), by decide +kernel⟩,
   ⟨0, wI,
    { (wMem (wReg wS [0, 0x20100000]) 0x20100000 [0, 0x20100000, 260]) with journal := { JournalSt.reset with st := .ready } },
    { (wMem (wReg wS [0, 0x20100000]) 0x20100000 [0, 0x20100000, 260]) with journal := { JournalSt.reset with st := .ready } },
    ⟨0, 1, 0, 0⟩, wB (by decide +kernel), by decide +kernel⟩,
   ⟨0, wI,
    { (wMem (wReg wS [0, 0x20100000]) 0x20100000 [0x3FF000 - 4, 0x20100000, 4]) with journal := { JournalSt.reset with st := .ready, base := 1022, nsec := 4 } },
    { (wMem (wReg wS [0, 0x20100000]) 0x20100000 [0x3FF000 - 4, 0x20100000, 4]) with journal := { JournalSt.reset with st := .ready, base := 1022, nsec := 4 } },
    ⟨0, 1, 0, 0⟩, wB (by decide +kernel), by decide +kernel⟩,
   ⟨0, wI,
    { (wMem (wReg wS [0, 0x20100000]) 0x20100000 [0x7FF000 - 256, 0x20100000, 256]) with journal := { JournalSt.reset with st := .ready } },
    { (wMem (wReg wS [0, 0x20100000]) 0x20100000 [0x7FF000 - 256, 0x20100000, 256]) with journal := { JournalSt.reset with st := .ready } },
    ⟨0, 1, 0, 0⟩, wB (by decide +kernel), by decide +kernel⟩,
   ⟨0, wI, wS, wS, ⟨0, 0, 0, 0⟩, wB (by decide +kernel), by decide +kernel⟩,
   ⟨0, wI, { wS with journal := { JournalSt.reset with st := .held } },
    { wS with journal := { JournalSt.reset with st := .held } }, ⟨0, 0, 0, 0⟩, wB (by decide +kernel),
    by decide +kernel⟩,
   ⟨0, wI, { (wReg wS [0, 0x3FF000]) with journal := { JournalSt.reset with st := .ready } },
    { (wReg wS [0, 0x3FF000]) with journal := { JournalSt.reset with st := .ready } }, ⟨0, 1, 0, 0⟩,
    wB (by decide +kernel), by decide +kernel⟩,
   ⟨0, wI, { (wReg wS [0, 0x7FE000]) with journal := { JournalSt.reset with st := .ready } },
    { (wReg wS [0, 0x7FE000]) with journal := { JournalSt.reset with st := .ready } }, ⟨0, 1, 0, 0⟩,
    wB (by decide +kernel), by decide +kernel⟩,
   ⟨0, wI, wSeal 0 (fun j => { j with st := .held }), wSeal 0 (fun j => { j with st := .held }), ⟨0, 1, 0, 0⟩,
    wB (by decide +kernel), by decide +kernel⟩,
   ⟨0, wI, wSeal 0 (fun j => { j with sealed := true }), wSeal 0 (fun j => { j with sealed := true }), ⟨0, 1, 0, 0⟩,
    wB (by decide +kernel), by decide +kernel⟩,
   ⟨0, wI, wSeal 0x5EA1, wSeal 0x5EA1, ⟨0, 1, 0, 0⟩, wB (by decide +kernel), by decide +kernel⟩,
   ⟨0, wI, wSeal 0x1AE5 (fun j => { j with arm := some 0 }), wSeal 0x1AE5 (fun j => { j with arm := some 0 }),
    ⟨0, 1, 0, 0⟩, 0, wB (by decide +kernel), by decide +kernel⟩,
   ⟨0, wI, wSeal 0x1AE4, wSeal 0x1AE4, ⟨0, 1, 0, 0⟩, wB (by decide +kernel),
    ⟨by decide +kernel, by decide +kernel, by decide +kernel, by decide +kernel, by decide +kernel, by decide +kernel, by decide +kernel, by decide +kernel, .inl (by decide +kernel)⟩⟩,
   ⟨0, wI, wSeal 0 (fun j => { j with st := .run }), wSeal 0 (fun j => { j with st := .run }), ⟨0, 1, 0, 0⟩,
    wB (by decide +kernel), by decide +kernel⟩,
   ⟨0, wI, wSeal 0 (fun j => { j with burn := some 0 }), wSeal 0 (fun j => { j with burn := some 0 }), ⟨0, 1, 0, 0⟩,
    wB (by decide +kernel), by decide +kernel⟩,
   ⟨0, wI, wSeal 0x5EA1, wSeal 0x5EA1, ⟨0, 1, 0, 0⟩, wB (by decide +kernel), by decide +kernel⟩,
   ⟨0, wI, wSeal 0x1AE5 (fun j => { j with arm := some 0 }), wSeal 0x1AE5 (fun j => { j with arm := some 0 }),
    ⟨0, 1, 0, 0⟩, 0, wB (by decide +kernel), by decide +kernel⟩,
   ⟨0, wI, wSeal 0x5EA2, wSeal 0x5EA2, ⟨0, 1, 0, 0⟩, wB (by decide +kernel),
    ⟨by decide +kernel, by decide +kernel, by decide +kernel, by decide +kernel, by decide +kernel, by decide +kernel, by decide +kernel, by decide +kernel, .inl (by decide +kernel)⟩⟩⟩

/-- Every hypothesis of FlashOperationEnds can be met, clause by clause. -/
theorem test_witness_flashOperationEnds :
    (∃ (s : State) (o : JOp) (off : _) (bs : _),
       Memory.wf s.mem = true ∧ s.running = true ∧ s.journal.op = some o ∧ s.therm.stop = none ∧
         Instr.flashOpDone ∉ s.early ∧ Instr.flashOpTimeout ∉ s.early ∧ o.kind = .prog ∧
         o.suspended s.time.phys = false ∧ o.steps = [.prog off bs] ∧ s.time.phys ≤ o.limit) ∧
    (∃ (s : State) (o : JOp) (off : _),
       Memory.wf s.mem = true ∧ s.running = true ∧ s.journal.op = some o ∧ s.therm.stop = none ∧
         Instr.flashOpDone ∉ s.early ∧ Instr.flashOpTimeout ∉ s.early ∧ o.kind = .erase ∧
         o.suspended s.time.phys = false ∧ o.steps = [.erase off] ∧ s.time.phys ≤ o.limit) ∧
    (∃ (s : State) (o : JOp),
       Memory.wf s.mem = true ∧ s.running = true ∧ s.journal.op = some o ∧ s.therm.stop = none ∧
         Instr.flashOpDone ∉ s.early ∧ Instr.flashOpTimeout ∉ s.early ∧ (o.kind = .prog ∨ o.kind = .erase) ∧
         o.suspended s.time.phys = false ∧ o.limit < s.time.phys) ∧
    (∃ (s : State) (o : JOp) (x : _),
       Memory.wf s.mem = true ∧ s.running = true ∧ s.journal.op = some o ∧ s.therm.stop = none ∧
         Instr.flashOpDone ∉ s.early ∧ Instr.flashOpTimeout ∉ s.early ∧ o.susp = some x ∧ x.at_ ≤ s.time.phys) ∧
    (∃ (s : State) (o : JOp) (x : _),
       Memory.wf s.mem = true ∧ s.running = true ∧ s.journal.op = some o ∧ s.therm.stop = none ∧
         Instr.flashOpDone ∉ s.early ∧ Instr.flashOpTimeout ∉ s.early ∧ o.susp = some x) ∧
    (∃ (s : State) (o : JOp),
       Memory.wf s.mem = true ∧ s.running = true ∧ s.journal.op = some o ∧ s.therm.stop = none ∧
         Instr.flashOpDone ∉ s.early ∧ Instr.flashOpTimeout ∉ s.early) :=
  ⟨⟨{ wS with journal := { JournalSt.reset with op := some ⟨.prog, 0, [.prog 0 [1]], (0, 0), 0, none, 0⟩ } },
    ⟨.prog, 0, [.prog 0 [1]], (0, 0), 0, none, 0⟩, 0, [1], by decide +kernel⟩,
   ⟨{ wS with journal := { JournalSt.reset with op := some ⟨.erase, 0, [.erase 0], (0, 0), 0, none, 0⟩ } },
    ⟨.erase, 0, [.erase 0], (0, 0), 0, none, 0⟩, 0, by decide +kernel⟩,
   ⟨{ { wS with journal := { JournalSt.reset with op := some ⟨.prog, 0, [], (0, 0), 0, none, 0⟩ } } with time := { wS.time with phys := 1 } },
    ⟨.prog, 0, [], (0, 0), 0, none, 0⟩, by decide +kernel⟩,
   ⟨{ wS with journal := { JournalSt.reset with op := some ⟨.prog, 0, [], (0, 0), 0, some ⟨0, 1, false⟩, 0⟩ } },
    ⟨.prog, 0, [], (0, 0), 0, some ⟨0, 1, false⟩, 0⟩, ⟨0, 1, false⟩, by decide +kernel⟩,
   ⟨{ wS with journal := { JournalSt.reset with op := some ⟨.prog, 0, [], (0, 0), 0, some ⟨0, 1, false⟩, 0⟩ } },
    ⟨.prog, 0, [], (0, 0), 0, some ⟨0, 1, false⟩, 0⟩, ⟨0, 1, false⟩, by decide +kernel⟩,
   ⟨{ wS with journal := { JournalSt.reset with op := some ⟨.prog, 0, [], (0, 0), 0, none, 0⟩ } },
    ⟨.prog, 0, [], (0, 0), 0, none, 0⟩, by decide +kernel⟩⟩

/-- Every hypothesis of JournalEvents can be met, clause by clause. -/
theorem test_witness_journalEvents :
    (∃ (s : State) (o : _),
       let j := s.journal
       Memory.wf s.mem = true ∧ s.running = true ∧ s.therm.stop = none ∧ s.early = [] ∧ j.op = some o ∧
         o.kind = .commit false ∧ o.suspended s.time.phys = false ∧ o.steps ≠ []) ∧
    (∃ (s : State),
       let j := s.journal
       Memory.wf s.mem = true ∧ s.running = true ∧ s.therm.stop = none ∧ s.early = [] ∧ j.op = none) ∧
    (∃ (s : State) (t0 : _) (t1 : _) (r : _),
       let j := s.journal
       let quiet := j.st = .ready ∧ j.op = none ∧ j.hold = false
       Memory.wf s.mem = true ∧ s.running = true ∧ s.therm.stop = none ∧ s.early = [] ∧ quiet ∧ j.gc = true ∧
         j.secs = t0 :: t1 :: r ∧ (∀ e ∈ j.index, e.off / 4096 = t0 → e.len = 0)) ∧
    (∃ (s : State),
       let j := s.journal
       let quiet := j.st = .ready ∧ j.op = none ∧ j.hold = false
       Memory.wf s.mem = true ∧ s.running = true ∧ s.therm.stop = none ∧ s.early = [] ∧ quiet ∧ j.ckDue = true) ∧
    (∃ (s : State),
       let j := s.journal
       let quiet := j.st = .ready ∧ j.op = none ∧ j.hold = false
       Memory.wf s.mem = true ∧ s.running = true ∧ s.therm.stop = none ∧ s.early = [] ∧ quiet ∧ j.ckDue = false) ∧
    (∃ (s : State) (p : _),
       let j := s.journal
       Memory.wf s.mem = true ∧ s.running = true ∧ s.therm.stop = none ∧ s.early = [] ∧ j.st = .held ∧
         j.scan = some p ∧ s.hasFailed .journal = false ∧ p + scanTicks j ≤ s.time.phys ∧ s.time.phys ≤ scanMax s p) ∧
    (∃ (s : State) (p : _),
       let j := s.journal
       Memory.wf s.mem = true ∧ s.running = true ∧ s.therm.stop = none ∧ s.early = [] ∧ j.scan = some p ∧
         (s.time.phys < p + scanTicks j ∨ scanMax s p < s.time.phys)) ∧
    (∃ (s : State),
       let j := s.journal
       Memory.wf s.mem = true ∧ s.running = true ∧ s.therm.stop = none ∧ s.early = [] ∧ s.boot.mode = true ∧
         s.loader = none ∧ s.boot.phase = .done ∧ j.st = .held ∧ j.scan = none) ∧
    (∃ (s : State) (p : _),
       let j := s.journal
       Memory.wf s.mem = true ∧ s.running = true ∧ s.therm.stop = none ∧ s.early = [] ∧ j.burn = some p) ∧
    (∃ (s : State) (m : _),
       let j := s.journal
       Memory.wf s.mem = true ∧ s.running = true ∧ s.therm.stop = none ∧ s.early = [] ∧ j.arm = some m) :=
  ⟨⟨{ wS with journal := { JournalSt.reset with op := some ⟨.commit false, 0, [.erase 0], (0, 0), 0, none, 0⟩ } },
    ⟨.commit false, 0, [.erase 0], (0, 0), 0, none, 0⟩, by decide +kernel⟩,
   ⟨wS, by decide +kernel⟩,
   ⟨{ wS with journal := { JournalSt.reset with st := .ready, gc := true, secs := [0, 1] } }, 0, 1, [],
    by decide +kernel⟩,
   ⟨{ wS with journal := { JournalSt.reset with st := .ready, ckDue := true } }, by decide +kernel⟩,
   ⟨{ wS with journal := { JournalSt.reset with st := .ready } }, by decide +kernel⟩,
   ⟨{ wS with journal := { JournalSt.reset with st := .held, scan := some 0 } }, 0, by decide +kernel⟩,
   ⟨{ wS with journal := { JournalSt.reset with st := .held, scan := some 1 } }, 1, by decide +kernel⟩,
   ⟨{ { wS with journal := { JournalSt.reset with st := .held } } with boot := { wS.boot with mode := true } },
    by decide +kernel⟩,
   ⟨{ wS with journal := { JournalSt.reset with burn := some 0 } }, 0, by decide +kernel⟩,
   ⟨{ wS with journal := { JournalSt.reset with arm := some 0 } }, 0, by decide +kernel⟩⟩

/-- Every hypothesis of HiveInstructions can be met, clause by clause. -/
theorem test_witness_hiveInstructions :
    (∃ (c : CoreId) (v : Inv) (s : State) (s' : State) (f : UForm),
       let s0 := ownFirst hiveFirst s
       let t := v.tenant
       let h := s'.hive
       let r := s'.regs c
       let a := (r.rd f.ra).toNat
       let up := s'.hasFailed .radio = false ∧ h.st ≠ .fault
       Begins c (.fjoin c f) v s0 s' ∧ up ∧ f.inst = 0 ∧ f.rd = 0 ∧ f.rb = 0 ∧ s'.may t capFabric = true ∧
         blockOk t a 4 = true ∧ blockMay s' t a 4 = true ∧ CleanAt s' a 4 ∧ waitsFor .radio s' = none ∧
         h.leaving = none ∧ h.st ≠ .off) ∧
    (∃ (c : CoreId) (v : Inv) (s : State) (s' : State) (f : UForm),
       let s0 := ownFirst hiveFirst s
       let t := v.tenant
       let h := s'.hive
       let r := s'.regs c
       let a := (r.rd f.ra).toNat
       let ws := wordsAt s' a 4
       let up := s'.hasFailed .radio = false ∧ h.st ≠ .fault
       Begins c (.fjoin c f) v s0 s' ∧ up ∧ f.inst = 0 ∧ f.rd = 0 ∧ f.rb = 0 ∧ s'.may t capFabric = true ∧
         blockOk t a 4 = true ∧ blockMay s' t a 4 = true ∧ CleanAt s' a 4 ∧ waitsFor .radio s' = none ∧
         h.leaving = none ∧ h.st = .off ∧ joinOk ws = false) ∧
    (∃ (c : CoreId) (v : Inv) (s : State) (s' : State) (f : UForm),
       let s0 := ownFirst hiveFirst s
       let t := v.tenant
       let h := s'.hive
       let r := s'.regs c
       let a := (r.rd f.ra).toNat
       let ws := wordsAt s' a 4
       let up := s'.hasFailed .radio = false ∧ h.st ≠ .fault
       Begins c (.fjoin c f) v s0 s' ∧ up ∧ f.inst = 0 ∧ f.rd = 0 ∧ f.rb = 0 ∧ s'.may t capFabric = true ∧
         blockOk t a 4 = true ∧ blockMay s' t a 4 = true ∧ CleanAt s' a 4 ∧ waitsFor .radio s' = none ∧
         h.leaving = none ∧ h.st = .off ∧ joinOk ws = true ∧ (wordAt ws 0).getLsbD 24 = false ∧
         (wordAt ws 0).toNat / 2 ^ 22 % 4 = 0) ∧
    (∃ (c : CoreId) (v : Inv) (s : State) (s' : State) (f : UForm),
       let s0 := ownFirst hiveFirst s
       let t := v.tenant
       let h := s'.hive
       let up := s'.hasFailed .radio = false ∧ h.st ≠ .fault
       Begins c (.fleave c f) v s0 s' ∧ up ∧ f.inst = 0 ∧ f.rd = 0 ∧ f.ra = 0 ∧ f.rb = 0 ∧
         s'.may t capFabric = true ∧ s'.isReady .radio = true ∧ h.st = .off) ∧
    (∃ (c : CoreId) (v : Inv) (s : State) (s' : State) (f : UForm),
       let s0 := ownFirst hiveFirst s
       let t := v.tenant
       let h := s'.hive
       let up := s'.hasFailed .radio = false ∧ h.st ≠ .fault
       Begins c (.fleave c f) v s0 s' ∧ up ∧ f.inst = 0 ∧ f.rd = 0 ∧ f.ra = 0 ∧ f.rb = 0 ∧
         s'.may t capFabric = true ∧ s'.isReady .radio = true ∧ h.st ≠ .off) ∧
    (∃ (c : CoreId) (v : Inv) (s : State) (s' : State) (f : UForm),
       let s0 := ownFirst hiveFirst s
       let t := v.tenant
       let h := s'.hive
       let r := s'.regs c
       let a := (r.rd f.ra).toNat
       let b := (r.rd f.rb).toNat
       let up := s'.hasFailed .radio = false ∧ h.st ≠ .fault
       Begins c (.frecv c f) v s0 s' ∧ up ∧ f.inst = 0 ∧ f.rd = 0 ∧ waitsFor .radio s' = none ∧
         s'.may t (capFp (a % 256)) = true ∧ (b / 64 % 2 = 1 ∨ s'.may t (capQueue (b % 64)) = true) ∧
         (h.st = .off ∨ h.st = .ready)) ∧
    (∃ (c : CoreId) (v : Inv) (s : State) (s' : State) (f : UForm),
       let s0 := ownFirst hiveFirst s
       let t := v.tenant
       let h := s'.hive
       let r := s'.regs c
       let a := (r.rd f.ra).toNat
       let b := (r.rd f.rb).toNat
       let up := s'.hasFailed .radio = false ∧ h.st ≠ .fault
       let port : BitVec 8 := BitVec.ofNat 8 a
       let mine := t = 0 ∨ ∀ m ∈ h.fmap, m.port = port → m.owner = t
       Begins c (.frecv c f) v s0 s' ∧ up ∧ f.inst = 0 ∧ f.rd = 0 ∧ waitsFor .radio s' = none ∧
         s'.may t (capFp (a % 256)) = true ∧ (b / 64 % 2 = 1 ∨ s'.may t (capQueue (b % 64)) = true) ∧
         (h.st = .run ∨ h.st = .held) ∧ ¬ mine) ∧
    (∃ (c : CoreId) (v : Inv) (s : State) (s' : State) (f : UForm),
       let s0 := ownFirst hiveFirst s
       let t := v.tenant
       let h := s'.hive
       let r := s'.regs c
       let a := (r.rd f.ra).toNat
       let b := (r.rd f.rb).toNat
       let up := s'.hasFailed .radio = false ∧ h.st ≠ .fault
       let port : BitVec 8 := BitVec.ofNat 8 a
       let mine := t = 0 ∨ ∀ m ∈ h.fmap, m.port = port → m.owner = t
       Begins c (.frecv c f) v s0 s' ∧ up ∧ f.inst = 0 ∧ f.rd = 0 ∧ waitsFor .radio s' = none ∧
         s'.may t (capFp (a % 256)) = true ∧ (b / 64 % 2 = 1 ∨ s'.may t (capQueue (b % 64)) = true) ∧
         (h.st = .run ∨ h.st = .held) ∧ mine ∧ b = 64) ∧
    (∃ (c : CoreId) (v : Inv) (s : State) (s' : State) (f : UForm),
       let s0 := ownFirst hiveFirst s
       let t := v.tenant
       let h := s'.hive
       let r := s'.regs c
       let a := (r.rd f.ra).toNat
       let b := (r.rd f.rb).toNat
       let up := s'.hasFailed .radio = false ∧ h.st ≠ .fault
       let port : BitVec 8 := BitVec.ofNat 8 a
       let mine := t = 0 ∨ ∀ m ∈ h.fmap, m.port = port → m.owner = t
       Begins c (.frecv c f) v s0 s' ∧ up ∧ f.inst = 0 ∧ f.rd = 0 ∧ waitsFor .radio s' = none ∧
         s'.may t (capFp (a % 256)) = true ∧ (b / 64 % 2 = 1 ∨ s'.may t (capQueue (b % 64)) = true) ∧
         (h.st = .run ∨ h.st = .held) ∧ mine ∧ b < 64) ∧
    (∃ (c : CoreId) (v : Inv) (s : State) (s' : State) (f : UForm),
       let s0 := ownFirst hiveFirst s
       let t := v.tenant
       let h := s'.hive
       let r := s'.regs c
       let a := (r.rd f.ra).toNat
       let b := (r.rd f.rb).toNat
       let up := s'.hasFailed .radio = false ∧ h.st ≠ .fault
       let port : BitVec 8 := BitVec.ofNat 8 a
       let mine := t = 0 ∨ ∀ m ∈ h.fmap, m.port = port → m.owner = t
       Begins c (.frecv c f) v s0 s' ∧ up ∧ f.inst = 0 ∧ f.rd = 0 ∧ waitsFor .radio s' = none ∧
         s'.may t (capFp (a % 256)) = true ∧ (b / 64 % 2 = 1 ∨ s'.may t (capQueue (b % 64)) = true) ∧
         (h.st = .run ∨ h.st = .held) ∧ mine ∧ 128 ≤ b) ∧
    (∃ (c : CoreId) (v : Inv) (s : State) (s' : State) (f : UForm),
       let s0 := ownFirst hiveFirst s
       let t := v.tenant
       let h := s'.hive
       let r := s'.regs c
       let a := (r.rd f.ra).toNat
       let b := (r.rd f.rb).toNat
       let up := s'.hasFailed .radio = false ∧ h.st ≠ .fault
       let w := wordSeen s' b
       let d := a % 128
       let good := w.toNat < 2 ^ 13 ∧ (w.getLsbD 12 = true → w.toNat % 128 ≠ 0 ∧ w.toNat % 128 ≠ 127 ∧
         1 ≤ w.toNat / 256 % 8 ∧ w.toNat / 256 % 8 ≤ 4)
       let i : Instr := (.froute c f)
       Begins c i v s0 s' ∧ f.inst = 0 ∧ up ∧ t = 0 ∧ f.rd = 0 ∧ s'.isReady .radio = true ∧ blockOk 0 b 1 = true ∧
         CleanAt s' b 1 ∧ (d = 0 ∨ d = 127 ∨ ¬ good)) ∧
    (∃ (c : CoreId) (v : Inv) (s : State) (s' : State) (f : UForm),
       let s0 := ownFirst hiveFirst s
       let t := v.tenant
       let h := s'.hive
       let r := s'.regs c
       let a := (r.rd f.ra).toNat
       let b := (r.rd f.rb).toNat
       let up := s'.hasFailed .radio = false ∧ h.st ≠ .fault
       let w := wordSeen s' b
       let d := a % 128
       let good := w.toNat < 2 ^ 13 ∧ (w.getLsbD 12 = true → w.toNat % 128 ≠ 0 ∧ w.toNat % 128 ≠ 127 ∧
         1 ≤ w.toNat / 256 % 8 ∧ w.toNat / 256 % 8 ≤ 4)
       let i : Instr := (.froute c f)
       Begins c i v s0 s' ∧ f.inst = 0 ∧ up ∧ t = 0 ∧ f.rd = 0 ∧ s'.isReady .radio = true ∧ blockOk 0 b 1 = true ∧
         CleanAt s' b 1 ∧ d ≠ 0 ∧ d ≠ 127 ∧ good) ∧
    (∃ (c : CoreId) (v : Inv) (s : State) (s' : State) (f : UForm),
       let s0 := ownFirst hiveFirst s
       let t := v.tenant
       let h := s'.hive
       let r := s'.regs c
       let a := (r.rd f.ra).toNat
       let b := (r.rd f.rb).toNat
       let up := s'.hasFailed .radio = false ∧ h.st ≠ .fault
       let w := wordSeen s' b
       let d := a % 128
       let good := w.toNat < 2 ^ 13 ∧ (w.getLsbD 12 = true → w.toNat % 128 ≠ 0 ∧ w.toNat % 128 ≠ 127 ∧
         1 ≤ w.toNat / 256 % 8 ∧ w.toNat / 256 % 8 ≤ 4)
       let i : Instr := (.frouteInval c f)
       Begins c i v s0 s' ∧ f.inst = 1 ∧ up ∧ t = 0 ∧ f.rd = 0 ∧ s'.isReady .radio = true ∧ blockOk 0 b 1 = true ∧
         CleanAt s' b 1 ∧ (d = 0 ∨ d = 127 ∨ ¬ good)) ∧
    (∃ (c : CoreId) (v : Inv) (s : State) (s' : State) (f : UForm),
       let s0 := ownFirst hiveFirst s
       let t := v.tenant
       let h := s'.hive
       let r := s'.regs c
       let a := (r.rd f.ra).toNat
       let b := (r.rd f.rb).toNat
       let up := s'.hasFailed .radio = false ∧ h.st ≠ .fault
       let w := wordSeen s' b
       let d := a % 128
       let good := w.toNat < 2 ^ 13 ∧ (w.getLsbD 12 = true → w.toNat % 128 ≠ 0 ∧ w.toNat % 128 ≠ 127 ∧
         1 ≤ w.toNat / 256 % 8 ∧ w.toNat / 256 % 8 ≤ 4)
       let i : Instr := (.frouteInval c f)
       Begins c i v s0 s' ∧ f.inst = 1 ∧ up ∧ t = 0 ∧ f.rd = 0 ∧ s'.isReady .radio = true ∧ blockOk 0 b 1 = true ∧
         CleanAt s' b 1 ∧ d ≠ 0 ∧ d ≠ 127 ∧ good) :=
  ⟨⟨0, wI, (wReg (wHs wHv) [0, 0x20100000]), (wReg (wHs wHv) [0, 0x20100000]), ⟨0, 1, 0, 0⟩, wB (by decide +kernel),
    by decide +kernel⟩,
   ⟨0, wI, (wReg wS [0, 0x20100000]), (wReg wS [0, 0x20100000]), ⟨0, 1, 0, 0⟩, wB (by decide +kernel),
    by decide +kernel⟩,
   ⟨0, wI, (wMem (wReg wS [0, 0x20100000]) 0x20100000 [0x00200000, 0x600000, 0xC005, 0]),
    (wMem (wReg wS [0, 0x20100000]) 0x20100000 [0x00200000, 0x600000, 0xC005, 0]), ⟨0, 1, 0, 0⟩,
    wB (by decide +kernel), by decide +kernel⟩,
   ⟨0, wI, wS, wS, ⟨0, 0, 0, 0⟩, wB (by decide +kernel), by decide +kernel⟩,
   ⟨0, wI, (wHs wHv), (wHs wHv), ⟨0, 0, 0, 0⟩, wB (by decide +kernel), by decide +kernel⟩,
   ⟨0, wI, wReg wS [0, 255, 63], wReg wS [0, 255, 63], ⟨0, 1, 2, 0⟩, wB (by decide +kernel), by decide +kernel⟩,
   ⟨0, wI1,
    { wReg (wS.setCore 0 { Core.idle with inv := some wI1 }) [0, 255, 64] with hive := { wHv with fmap := [⟨255, 0, 2⟩] }, tenants := vset wS.tenants 1 { wTen with record := wordsVec 24 ([1] ++ List.replicate 9 0 ++ [0xFF00] ++ List.replicate 13 0) } },
    { wReg (wS.setCore 0 { Core.idle with inv := some wI1 }) [0, 255, 64] with hive := { wHv with fmap := [⟨255, 0, 2⟩] }, tenants := vset wS.tenants 1 { wTen with record := wordsVec 24 ([1] ++ List.replicate 9 0 ++ [0xFF00] ++ List.replicate 13 0) } },
    ⟨0, 1, 2, 0⟩, wB (by decide +kernel), by decide +kernel⟩,
   ⟨0, wI, (wReg (wHs wHv) [0, 255, 64]), (wReg (wHs wHv) [0, 255, 64]), ⟨0, 1, 2, 0⟩, wB (by decide +kernel),
    by decide +kernel⟩,
   ⟨0, wI, (wReg (wHs wHv) [0, 255, 63]), (wReg (wHs wHv) [0, 255, 63]), ⟨0, 1, 2, 0⟩, wB (by decide +kernel),
    by decide +kernel⟩,
   ⟨0, wI, (wReg (wHs wHv) [0, 255, 128]), (wReg (wHs wHv) [0, 255, 128]), ⟨0, 1, 2, 0⟩, wB (by decide +kernel),
    by decide +kernel⟩,
   ⟨0, wI, wReg wS [0, 127, 0x20100000], wReg wS [0, 127, 0x20100000], ⟨0, 1, 2, 0⟩, wB (by decide +kernel),
    by decide +kernel⟩,
   ⟨0, wI, wReg wS [0, 126, 0x20100000], wReg wS [0, 126, 0x20100000], ⟨0, 1, 2, 0⟩, wB (by decide +kernel),
    by decide +kernel⟩,
   ⟨0, wI, wReg wS [0, 0, 0x20100000], wReg wS [0, 0, 0x20100000], ⟨0, 1, 2, 1⟩, wB (by decide +kernel),
    by decide +kernel⟩,
   ⟨0, wI, wReg wS [0, 1, 0x20100000], wReg wS [0, 1, 0x20100000], ⟨0, 1, 2, 1⟩, wB (by decide +kernel),
    by decide +kernel⟩⟩

/-- Every hypothesis of HiveMessages can be met, clause by clause. -/
theorem test_witness_hiveMessages :
    (∃ (c : CoreId) (v : Inv) (s : State) (s' : State) (f : UForm) (i : Instr),
       let t := v.tenant
       let h := s'.hive
       let a := ((s'.regs c).rd f.ra).toNat
       let ws := wordsAt s' a 4
       let w0 := (wordAt ws 0).toNat
       Begins c i v (ownFirst hiveFirst s) s' ∧ (i = .fsend c f ∨ i = .waggleBurst c f) ∧ f.inst = 0 ∧ f.rd = 0 ∧
         f.rb = 0 ∧ s'.hasFailed .radio = false ∧ h.st ≠ .fault ∧ waitsFor .radio s' = none ∧
         s'.may t capFabric = true ∧ blockOk t a 4 = true ∧ blockMay s' t a 4 = true ∧ CleanAt s' a 4 ∧
         s'.may t (capFp (w0 / 256 % 256)) = true ∧ h.st ≠ .run) ∧
    (∃ (c : CoreId) (v : Inv) (s : State) (s' : State) (f : UForm) (i : Instr),
       let t := v.tenant
       let h := s'.hive
       let a := ((s'.regs c).rd f.ra).toNat
       let ws := wordsAt s' a 4
       let w0 := (wordAt ws 0).toNat
       Begins c i v (ownFirst hiveFirst s) s' ∧ (i = .fsend c f ∨ i = .waggleBurst c f) ∧ f.inst = 0 ∧ f.rd = 0 ∧
         f.rb = 0 ∧ s'.hasFailed .radio = false ∧ h.st ≠ .fault ∧ waitsFor .radio s' = none ∧
         s'.may t capFabric = true ∧ blockOk t a 4 = true ∧ blockMay s' t a 4 = true ∧ CleanAt s' a 4 ∧
         s'.may t (capFp (w0 / 256 % 256)) = true ∧ h.st = .run ∧ descOk h ws = false) ∧
    (∃ (c : CoreId) (v : Inv) (s : State) (s' : State) (f : UForm) (i : Instr),
       let t := v.tenant
       let h := s'.hive
       let a := ((s'.regs c).rd f.ra).toNat
       let ws := wordsAt s' a 4
       let w0 := (wordAt ws 0).toNat
       let len := (wordAt ws 2).toNat % 32
       let src := (wordAt ws 1).toNat
       let dest := w0 % 128
       Begins c i v (ownFirst hiveFirst s) s' ∧ (i = .fsend c f ∨ i = .waggleBurst c f) ∧ f.inst = 0 ∧ f.rd = 0 ∧
         f.rb = 0 ∧ s'.hasFailed .radio = false ∧ h.st ≠ .fault ∧ waitsFor .radio s' = none ∧
         s'.may t capFabric = true ∧ blockOk t a 4 = true ∧ blockMay s' t a 4 = true ∧ CleanAt s' a 4 ∧
         s'.may t (capFp (w0 / 256 % 256)) = true ∧ h.st = .run ∧ descOk h ws = true ∧ w0 / 2 ^ 28 % 2 = 0 ∧
         blockOk t src len = true ∧ blockMay s' t src len = true ∧ CleanAt s' src len ∧ dest ≠ 127 ∧
         peekRoute s' dest = none) ∧
    (∃ (c : CoreId) (v : Inv) (s : State) (s' : State) (f : UForm) (i : Instr) (next : _) (tl : _) (k : _),
       let t := v.tenant
       let h := s'.hive
       let a := ((s'.regs c).rd f.ra).toNat
       let ws := wordsAt s' a 4
       let w0 := (wordAt ws 0).toNat
       let len := (wordAt ws 2).toNat % 32
       let src := (wordAt ws 1).toNat
       let dest := w0 % 128
       Begins c i v (ownFirst hiveFirst s) s' ∧ (i = .fsend c f ∨ i = .waggleBurst c f) ∧ f.inst = 0 ∧ f.rd = 0 ∧
         f.rb = 0 ∧ s'.hasFailed .radio = false ∧ h.st ≠ .fault ∧ waitsFor .radio s' = none ∧
         s'.may t capFabric = true ∧ blockOk t a 4 = true ∧ blockMay s' t a 4 = true ∧ CleanAt s' a 4 ∧
         s'.may t (capFp (w0 / 256 % 256)) = true ∧ h.st = .run ∧ descOk h ws = true ∧ w0 / 2 ^ 28 % 2 = 0 ∧
         blockOk t src len = true ∧ blockMay s' t src len = true ∧ CleanAt s' src len ∧ dest ≠ 127 ∧
         peekRoute s' dest = some (next, tl, k) ∧ h.linkUp next tl = false) ∧
    (∃ (c : CoreId) (v : Inv) (s : State) (s' : State) (f : UForm) (i : Instr) (next : _) (k : _),
       let t := v.tenant
       let h := s'.hive
       let a := ((s'.regs c).rd f.ra).toNat
       let ws := wordsAt s' a 4
       let w0 := (wordAt ws 0).toNat
       let len := (wordAt ws 2).toNat % 32
       let src := (wordAt ws 1).toNat
       let dest := w0 % 128
       Begins c i v (ownFirst hiveFirst s) s' ∧ (i = .fsend c f ∨ i = .waggleBurst c f) ∧ f.inst = 0 ∧ f.rd = 0 ∧
         f.rb = 0 ∧ s'.hasFailed .radio = false ∧ h.st ≠ .fault ∧ waitsFor .radio s' = none ∧
         s'.may t capFabric = true ∧ blockOk t a 4 = true ∧ blockMay s' t a 4 = true ∧ CleanAt s' a 4 ∧
         s'.may t (capFp (w0 / 256 % 256)) = true ∧ h.st = .run ∧ descOk h ws = true ∧ w0 / 2 ^ 28 % 2 = 0 ∧
         blockOk t src len = true ∧ blockMay s' t src len = true ∧ CleanAt s' src len ∧ dest ≠ 127 ∧
         peekRoute s' dest = some (next, false, k) ∧ h.linkUp next false = true ∧ h.msgs.length < 32 ∧
         (h.sec = false ∨ h.fc < 2 ^ 32)) ∧
    (∃ (c : CoreId) (v : Inv) (s : State) (s' : State) (f : UForm) (i : Instr) (next : _) (k : _) (q : _),
       let t := v.tenant
       let h := s'.hive
       let a := ((s'.regs c).rd f.ra).toNat
       let ws := wordsAt s' a 4
       let w0 := (wordAt ws 0).toNat
       let len := (wordAt ws 2).toNat % 32
       let src := (wordAt ws 1).toNat
       let dest := w0 % 128
       Begins c i v (ownFirst hiveFirst s) s' ∧ (i = .fsend c f ∨ i = .waggleBurst c f) ∧ f.inst = 0 ∧ f.rd = 0 ∧
         f.rb = 0 ∧ s'.hasFailed .radio = false ∧ h.st ≠ .fault ∧ waitsFor .radio s' = none ∧
         s'.may t capFabric = true ∧ blockOk t a 4 = true ∧ blockMay s' t a 4 = true ∧ CleanAt s' a 4 ∧
         s'.may t (capFp (w0 / 256 % 256)) = true ∧ h.st = .run ∧ descOk h ws = true ∧ w0 / 2 ^ 28 % 2 = 0 ∧
         blockOk t src len = true ∧ blockMay s' t src len = true ∧ CleanAt s' src len ∧ h.msgs.length < 32 ∧
         (h.sec = false ∨ h.fc < 2 ^ 32) ∧ dest ≠ 127 ∧ peekRoute s' dest = some (next, true, k) ∧
         h.peerAt next = some q ∧ q.up = true) ∧
    (∃ (c : CoreId) (v : Inv) (s : State) (s' : State) (f : UForm) (i : Instr),
       let t := v.tenant
       let h := s'.hive
       let a := ((s'.regs c).rd f.ra).toNat
       let ws := wordsAt s' a 4
       let w0 := (wordAt ws 0).toNat
       let len := (wordAt ws 2).toNat % 32
       let src := (wordAt ws 1).toNat
       let dest := w0 % 128
       Begins c i v (ownFirst hiveFirst s) s' ∧ (i = .fsend c f ∨ i = .waggleBurst c f) ∧ f.inst = 0 ∧ f.rd = 0 ∧
         f.rb = 0 ∧ s'.hasFailed .radio = false ∧ h.st ≠ .fault ∧ waitsFor .radio s' = none ∧
         s'.may t capFabric = true ∧ blockOk t a 4 = true ∧ blockMay s' t a 4 = true ∧ CleanAt s' a 4 ∧
         s'.may t (capFp (w0 / 256 % 256)) = true ∧ h.st = .run ∧ descOk h ws = true ∧ w0 / 2 ^ 28 % 2 = 0 ∧
         blockOk t src len = true ∧ blockMay s' t src len = true ∧ CleanAt s' src len ∧ h.msgs.length < 32 ∧
         (h.sec = false ∨ h.fc < 2 ^ 32) ∧ dest = 127 ∧ h.radio = true ∧ (∀ q ∈ h.peers, q.up = false)) ∧
    (∃ (c : CoreId) (v : Inv) (s : State) (s' : State) (f : UForm) (i : Instr),
       let t := v.tenant
       let h := s'.hive
       let a := ((s'.regs c).rd f.ra).toNat
       let ws := wordsAt s' a 4
       let w0 := (wordAt ws 0).toNat
       Begins c i v (ownFirst hiveFirst s) s' ∧ (i = .fsend c f ∨ i = .waggleBurst c f) ∧ f.inst = 0 ∧ f.rd = 0 ∧
         f.rb = 0 ∧ s'.hasFailed .radio = false ∧ h.st ≠ .fault ∧ waitsFor .radio s' = none ∧
         s'.may t capFabric = true ∧ blockOk t a 4 = true ∧ blockMay s' t a 4 = true ∧ CleanAt s' a 4 ∧
         s'.may t (capFp (w0 / 256 % 256)) = true ∧ h.st = .run ∧ descOk h ws = true ∧ w0 / 2 ^ 28 % 2 = 1 ∧
         h.msgs.length < 32 ∧ h.fc < 2 ^ 32 ∧ h.burst = none ∧ (∀ m ∈ h.msgs, m.wag = none)) :=
  ⟨⟨0, wI, (wReg wS [0, 0x20100000]), (wReg wS [0, 0x20100000]), ⟨0, 1, 0, 0⟩, .fsend 0 ⟨0, 1, 0, 0⟩,
    wB (by decide +kernel), by decide +kernel⟩,
   ⟨0, wI, (wReg (wHs wHv) [0, 0x20100000]), (wReg (wHs wHv) [0, 0x20100000]), ⟨0, 1, 0, 0⟩, .fsend 0 ⟨0, 1, 0, 0⟩,
    wB (by decide +kernel), by decide +kernel⟩,
   ⟨0, wI, (wDesc { wHv with fc := 0 } [2, 0x20100000, 23, 0]), (wDesc { wHv with fc := 0 } [2, 0x20100000, 23, 0]),
    ⟨0, 1, 0, 0⟩, .fsend 0 ⟨0, 1, 0, 0⟩, wB (by decide +kernel), by decide +kernel⟩,
   ⟨0, wI, (wDesc { wHv with routes := vset wHv.routes 2 ⟨2, false, 0, false, true⟩ } [2, 0x20100000, 23, 0]),
    (wDesc { wHv with routes := vset wHv.routes 2 ⟨2, false, 0, false, true⟩ } [2, 0x20100000, 23, 0]), ⟨0, 1, 0, 0⟩,
    .fsend 0 ⟨0, 1, 0, 0⟩, 2, false, none, wB (by decide +kernel), by decide +kernel⟩,
   ⟨0, wI,
    (wDesc { wHv with routes := vset wHv.routes 2 ⟨2, false, 0, false, true⟩, nbrs := [⟨2, 0⟩] } [2, 0x20100000, 23, 0]),
    (wDesc { wHv with routes := vset wHv.routes 2 ⟨2, false, 0, false, true⟩, nbrs := [⟨2, 0⟩] } [2, 0x20100000, 23, 0]),
    ⟨0, 1, 0, 0⟩, .fsend 0 ⟨0, 1, 0, 0⟩, 2, none, wB (by decide +kernel), by decide +kernel⟩,
   ⟨0, wI,
    (wDesc { wHv with routes := vset wHv.routes 2 ⟨2, true, 0, false, true⟩, peers := [⟨1, 2, true, 0, 0, false, [], 0, false, false, [], false⟩] } [2, 0x20100000, 23, 0]),
    (wDesc { wHv with routes := vset wHv.routes 2 ⟨2, true, 0, false, true⟩, peers := [⟨1, 2, true, 0, 0, false, [], 0, false, false, [], false⟩] } [2, 0x20100000, 23, 0]),
    ⟨0, 1, 0, 0⟩, .fsend 0 ⟨0, 1, 0, 0⟩, 2, none, ⟨1, 2, true, 0, 0, false, [], 0, false, false, [], false⟩,
    wB (by decide +kernel), by decide +kernel⟩,
   ⟨0, wI, (wDesc { wHv with fc := 0 } [0x0400007F, 0x20100000, 1, 0]),
    (wDesc { wHv with fc := 0 } [0x0400007F, 0x20100000, 1, 0]), ⟨0, 1, 0, 0⟩, .fsend 0 ⟨0, 1, 0, 0⟩,
    wB (by decide +kernel), by decide +kernel⟩,
   ⟨0, wI, (wDesc { wHv with fc := 0 } [0x1100007F, 0, 0xFF1F00, 0]),
    (wDesc { wHv with fc := 0 } [0x1100007F, 0, 0xFF1F00, 0]), ⟨0, 1, 0, 0⟩, .waggleBurst 0 ⟨0, 1, 0, 0⟩,
    wB (by decide +kernel), by decide +kernel⟩⟩

/-- Every hypothesis of SwarmEvents can be met, clause by clause. -/
theorem test_witness_swarmEvents :
    (∃ (s : State),
       let h := s.hive
       let now := s.time.hive
       let claims := s.running = true ∧ (h.st = .ready ∨ h.st = .held)
       s.early = [] ∧ claims ∧ h.claims < 3 ∧ h.claimAt + h.claims * 3840000 ≤ now) ∧
    (∃ (s : State),
       let h := s.hive
       let now := s.time.hive
       let claims := s.running = true ∧ (h.st = .ready ∨ h.st = .held)
       s.early = [] ∧ claims ∧ h.claims = 3 ∧ h.claimAt + 26880000 ≤ now ∧ (h.beaten = true ∨ h.cand = 0)) ∧
    (∃ (s : State),
       let h := s.hive
       let now := s.time.hive
       let claims := s.running = true ∧ (h.st = .ready ∨ h.st = .held)
       s.early = [] ∧ claims ∧ h.claims = 3 ∧ h.claimAt + 26880000 ≤ now ∧ h.beaten = false ∧ h.cand ≠ 0) ∧
    (∃ (s : State),
       let h := s.hive
       s.early = [] ∧ (h.st = .run ∨ h.st = .off)) ∧
    (∃ (s : State) (fr : RxFrame) (p : RxPkt),
       let heard (n : Nat) := received fr s = true ∧ classify s fr.psdu = .frame p ∧ p.f.typ = n
       s.early = [] ∧ heard 3) ∧
    (∃ (s : State) (d : _),
       let h := s.hive
       let now := s.time.hive
       s.early = [] ∧ s.running = true ∧ h.st = .run ∧ h.renewDue.find? (fun d => decide (d ≤ now)) = some d) ∧
    (∃ (s : State),
       let h := s.hive
       let now := s.time.hive
       s.early = [] ∧ s.running = true ∧ h.st = .run ∧ h.addr * 15000000 ≤ now) ∧
    (∃ (s : State),
       let h := s.hive
       let now := s.time.hive
       s.early = [] ∧ s.running = true ∧ h.st = .run ∧ h.addr * 15000000 ≤ now ∧ h.radio = true) ∧
    (∃ (s : State) (fr : RxFrame) (p : RxPkt),
       let heard (n : Nat) := received fr s = true ∧ classify s fr.psdu = .frame p ∧ p.f.typ = n
       let fresh := p.f.htaken ≤ 1
       s.early = [] ∧ heard 4 ∧ fresh) ∧
    (∃ (s : State) (fr : RxFrame) (p : RxPkt),
       let heard (n : Nat) := received fr s = true ∧ classify s fr.psdu = .frame p ∧ p.f.typ = n
       let fresh := p.f.htaken ≤ 1
       s.early = [] ∧ heard 5 ∧ fresh) ∧
    (∃ (s : State) (fr : RxFrame) (p : RxPkt),
       let heard (n : Nat) := received fr s = true ∧ classify s fr.psdu = .frame p ∧ p.f.typ = n
       let fresh := p.f.htaken ≤ 1
       let who := p.uid.getD p.src
       s.early = [] ∧ heard 6 ∧ fresh ∧ 13 ≤ p.f.body.length ∧ who ≠ uidOf s) ∧
    (∃ (s : State) (k : Fin 128) (l : Lease),
       let h := s.hive
       let now := s.time.hive
       s.early = [] ∧ vgetD h.leases k.val none = some l ∧ h.leaseOf l.uid = some l ∧ s.running = true ∧ l.exp ≤ now) ∧
    (∃ (s : State) (fr : RxFrame) (p : RxPkt) (l : _),
       let h := s.hive
       let heard (n : Nat) := received fr s = true ∧ classify s fr.psdu = .frame p ∧ p.f.typ = n
       let fresh := p.f.htaken ≤ 1
       s.early = [] ∧ heard 10 ∧ fresh ∧ h.leaseAt p.f.orig = some l ∧ h.leaseOf l.uid = some l) :=
  ⟨⟨{ (wHs { wHv with st := .held, claims := 2 }) with time := { wS.time with hive := 7680000 } }, by decide +kernel⟩,
   ⟨{ (wHs { wHv with st := .ready, claims := 3 }) with time := { wS.time with hive := 26880000 } },
    by decide +kernel⟩,
   ⟨{ (wHs { wHv with st := .ready, claims := 3, cand := 126 }) with time := { wS.time with hive := 26880000 } },
    by decide +kernel⟩,
   ⟨(wHs wHv), by decide +kernel⟩,
   ⟨(wHs wHv), (wFr (wPs 3 0 0x7F [] 0x7F true)), (wPkt (classify ((wHs wHv)) (wPs 3 0 0x7F [] 0x7F true))),
    by decide +kernel, ⟨by decide +kernel, wRx (by decide +kernel), by decide +kernel⟩⟩,
   ⟨(wHs { wHv with renewDue := [0] }), 0, by decide +kernel⟩,
   ⟨{ (wHs wHv) with time := { wS.time with hive := 15000000 } }, by decide +kernel⟩,
   ⟨{ (wHs wHv) with time := { wS.time with hive := 15000000 } }, by decide +kernel⟩,
   ⟨(wHs wHv), (wFr (wPs 4 0 0x7F [5] 0x7F true)), (wPkt (classify ((wHs wHv)) (wPs 4 0 0x7F [5] 0x7F true))),
    by decide +kernel, ⟨by decide +kernel, wRx (by decide +kernel), by decide +kernel⟩, by decide +kernel⟩,
   ⟨(wHs wHv), (wFr (wPs 5 5 0x7F [] 0x7F true)), (wPkt (classify ((wHs wHv)) (wPs 5 5 0x7F [] 0x7F true))),
    by decide +kernel, ⟨by decide +kernel, wRx (by decide +kernel), by decide +kernel⟩, by decide +kernel⟩,
   ⟨(wHs wHv), (wFr (wPs 6 5 0x7F (List.replicate 13 0) 0x7F true)),
    (wPkt (classify ((wHs wHv)) (wPs 6 5 0x7F (List.replicate 13 0) 0x7F true))), by decide +kernel,
    ⟨by decide +kernel, wRx (by decide +kernel), by decide +kernel⟩, by decide +kernel⟩,
   ⟨(wHs { wHv with leases := vset wHv.leases 125 (some ⟨2, 9, 0, false, 0, 0, 0, 0, 0, none⟩) }), 125,
    ⟨2, 9, 0, false, 0, 0, 0, 0, 0, none⟩, by decide +kernel⟩,
   ⟨(wHs { wHv with leases := vset wHv.leases 125 (some ⟨5, 9, 0, false, 0, 0, 0, 0, 0, none⟩) }),
    (wFr (wPs 10 5 0x7F [] 0x7F false)),
    (wPkt (classify ((wHs { wHv with leases := vset wHv.leases 125 (some ⟨5, 9, 0, false, 0, 0, 0, 0, 0, none⟩) })) (wPs 10 5 0x7F [] 0x7F false))),
    ⟨5, 9, 0, false, 0, 0, 0, 0, 0, none⟩, by decide +kernel,
    ⟨by decide +kernel, wRx (by decide +kernel), by decide +kernel⟩, by decide +kernel⟩⟩

/-- Every hypothesis of RouteEvents can be met, clause by clause. -/
theorem test_witness_routeEvents :
    (∃ (s : State),
       let h := s.hive
       let now := s.time.hive
       s.early = [] ∧ s.running = true ∧ h.st = .run ∧ (h.advNew = true ∨ h.advAt + 1920000000 ≤ now)) ∧
    (∃ (s : State),
       let h := s.hive
       let now := s.time.hive
       s.early = [] ∧ h.advNew = false ∧ now < h.advAt + 1920000000) ∧
    (∃ (s : State) (fr : RxFrame) (p : RxPkt),
       let h := s.hive
       s.early = [] ∧ received fr s = true ∧ classify s fr.psdu = .frame p ∧ p.f.typ = 7 ∧ p.ext = false ∧
         h.nbrUp p.src = true) ∧
    (∃ (s : State) (a : Fin 128),
       let h := s.hive
       let now := s.time.hive
       let old (x : RouteCand) : Bool := x.dest == a.val && decide (x.seen + 6720000000 ≤ now)
       s.early = [] ∧ s.running = true ∧ (∃ x ∈ h.cands, old x = true)) ∧
    (∃ (s : State) (a : Fin 128),
       let h := s.hive
       let now := s.time.hive
       let old (x : RouteCand) : Bool := x.dest == a.val && decide (x.seen + 6720000000 ≤ now)
       s.early = [] ∧ (∀ x ∈ h.cands, old x = false)) ∧
    (∃ (s : State),
       s.early = []) ∧
    (∃ (s : State) (fr : RxFrame),
       s.early = [] ∧ received fr s = true ∧ classify s fr.psdu = .foreign) ∧
    (∃ (s : State) (fr : RxFrame) (i : _),
       s.early = [] ∧ received fr s = true ∧
         i ∈ [Instr.dataRx fr, .nackRx fr, .delivRx fr, .callRx fr, .claimRx fr, .defendRx fr, .renewRx fr, .routeadvRx fr, .sreqRx fr, .srespRx fr, .leaveRx fr] ∧
         classify s fr.psdu = .mic) ∧
    (∃ (s : State) (fr : RxFrame) (i : _),
       s.early = [] ∧ received fr s = true ∧
         i ∈ [Instr.dataRx fr, .nackRx fr, .delivRx fr, .callRx fr, .claimRx fr, .defendRx fr, .renewRx fr, .routeadvRx fr, .sreqRx fr, .srespRx fr, .leaveRx fr] ∧
         classify s fr.psdu = .replay) ∧
    (∃ (s : State) (fr : RxFrame) (i : _),
       s.early = [] ∧ received fr s = true ∧
         i ∈ [Instr.dataRx fr, .nackRx fr, .delivRx fr, .callRx fr, .claimRx fr, .defendRx fr, .renewRx fr, .routeadvRx fr, .sreqRx fr, .srespRx fr, .leaveRx fr] ∧
         (classify s fr.psdu = .foreign ∨ classify s fr.psdu = .ignore)) :=
  ⟨⟨{ (wHs wHv) with time := { wS.time with hive := 1920000000 } }, by decide +kernel⟩,
   ⟨(wHs wHv), by decide +kernel⟩,
   ⟨(wHs { wHv with nbrs := [⟨5, 2⟩] }), (wFr (wPs 7 5 0x7F [] 0x7F false)),
    (wPkt (classify ((wHs { wHv with nbrs := [⟨5, 2⟩] })) (wPs 7 5 0x7F [] 0x7F false))), by decide +kernel,
    by decide +kernel, wRx (by decide +kernel), by decide +kernel⟩,
   ⟨{ (wHs { wHv with cands := [⟨127, 2, false, 0, 0⟩] }) with time := { wS.time with hive := 6720000000 } }, 127,
    by decide +kernel, by decide +kernel, by decide +kernel⟩,
   ⟨{ (wHs { wHv with cands := [⟨127, 2, false, 0, 0⟩] }) with time := { wS.time with hive := 6719999999 } }, 127,
    by decide +kernel⟩,
   ⟨wS, by decide +kernel⟩,
   ⟨(wHs wHv), (wFr (wPs 12 5 0x7F [] 0x7F false)), by decide +kernel, by decide +kernel,
    wForeign (by decide +kernel)⟩,
   ⟨wHs { wHv with join := [0x01200000, 0x600000, 0xC005, 0] }, wFr (wPs 0 5 0x7F [] 0x7F false),
    .leaveRx (wFr (wPs 0 5 0x7F [] 0x7F false)), by decide +kernel, by decide +kernel, by decide +kernel,
    wMic (by decide +kernel)⟩,
   ⟨wHs { wHv with join := [0x01200000, 0x600000, 0xC005, 0], leases := vset wHv.leases 0 (some ⟨5, 9, 0, false, 0, 0, 0, 0, 0, some 0⟩) },
    wFr (buildPsdu (List.replicate 16 0) 5 0 0 (macHeader 5 false false 0 0 0x7F 5) []),
    .dataRx (wFr (buildPsdu (List.replicate 16 0) 5 0 0 (macHeader 5 false false 0 0 0x7F 5) [])), by decide +kernel,
    by decide +kernel, by decide +kernel, wReplay (by decide +kernel)⟩,
   ⟨wHs wHv, wFr (wPs 12 5 0x7F [] 0x7F false), .dataRx (wFr (wPs 12 5 0x7F [] 0x7F false)), by decide +kernel,
    by decide +kernel, by decide +kernel, .inl (wForeign (by decide +kernel))⟩⟩

/-- Every hypothesis of MessageEvents can be met, clause by clause. -/
theorem test_witness_messageEvents :
    (∃ (s : State) (e : TxEnt) (rest : List TxEnt) (dbm : Int),
       let h := s.hive
       let clear := dbm ≤ -100 + (h.ccathr : Int)
       let first := h.txq = e :: rest ∧ radioFree s = true ∧ h.on = true ∧ ∃ t, e.ready = some t ∧ t ≤ s.time.phys
       s.early = [] ∧ first ∧ clear ∧ h.fc < 2 ^ 32 ∧ e.ack = true) ∧
    (∃ (s : State) (e : TxEnt) (rest : List TxEnt) (dbm : Int),
       let h := s.hive
       let clear := dbm ≤ -100 + (h.ccathr : Int)
       let first := h.txq = e :: rest ∧ radioFree s = true ∧ h.on = true ∧ ∃ t, e.ready = some t ∧ t ≤ s.time.phys
       s.early = [] ∧ first ∧ clear ∧ h.fc < 2 ^ 32 ∧ e.ack = false) ∧
    (∃ (s : State) (e : TxEnt) (rest : List TxEnt) (dbm : Int),
       let h := s.hive
       let clear := dbm ≤ -100 + (h.ccathr : Int)
       let first := h.txq = e :: rest ∧ radioFree s = true ∧ h.on = true ∧ ∃ t, e.ready = some t ∧ t ≤ s.time.phys
       s.early = [] ∧ first ∧ ¬ clear) ∧
    (∃ (s : State),
       let h := s.hive
       s.early = [] ∧ h.txq = []) ∧
    (∃ (s : State) (r : _),
       let h := s.hive
       s.early = [] ∧ s.running = true ∧ h.on = true ∧
         h.relays.find? (fun r => decide (r.due ≤ s.time.hive)) = some r) ∧
    (∃ (s : State) (fr : RxFrame) (e : TxEnt) (n : _) (q : _),
       let h := s.hive
       s.early = [] ∧ h.await = some (e, n) ∧ readPsdu fr.psdu = .ack q ∧ s.running = true ∧ h.on = true ∧
         fr.hr = h.hr ∧ h.busyTo ≤ s.time.phys ∧ s.time.phys ≤ n ∧ q ≠ e.seq) ∧
    (∃ (s : State) (fr : RxFrame) (e : TxEnt) (n : _) (q : _),
       let h := s.hive
       s.early = [] ∧ h.await = some (e, n) ∧ readPsdu fr.psdu = .ack q ∧ s.running = true ∧ h.on = true ∧
         fr.hr = h.hr ∧ h.busyTo ≤ s.time.phys ∧ s.time.phys ≤ n ∧ q = e.seq) ∧
    (∃ (s : State) (e : TxEnt) (n : _),
       let h := s.hive
       s.early = [] ∧ h.await = some (e, n) ∧ s.running = true ∧ n ≤ s.time.phys ∧ e.tries < h.retry) ∧
    (∃ (s : State) (e : TxEnt) (n : _),
       let h := s.hive
       s.early = [] ∧ h.await = some (e, n) ∧ s.running = true ∧ n ≤ s.time.phys ∧ h.retry ≤ e.tries) ∧
    (∃ (s : State) (fr : RxFrame) (p : RxPkt),
       let h := s.hive
       let heard (n : Nat) := received fr s = true ∧ classify s fr.psdu = .frame p ∧ p.f.typ = n
       s.early = [] ∧ heard 0 ∧ h.st ≠ .run ∧ p.f.fdest ≠ 0x7F) ∧
    (∃ (s : State) (fr : RxFrame) (p : RxPkt) (m : _) (item : _),
       let h := s.hive
       let heard (n : Nat) := received fr s = true ∧ classify s fr.psdu = .frame p ∧ p.f.typ = n
       let mine := s.running = true ∧ h.st = .run ∧ p.f.fdest = h.addr ∧ h.addr ≠ 0x7F
       s.early = [] ∧ heard 0 ∧ mine ∧ p.f.e2e = false ∧ h.fmap.find? (fun m => m.port == p.f.dport) = some m ∧
         (s.queue m.queue).st = .run ∧ (s.queue m.queue).prod = 2 ∧
         item = messageItem ⟨true, 0, fr.lqi, fr.rssi, s.time.hive - fr.ago⟩ p ∧ item.length ≤ (s.queue m.queue).cred) ∧
    (∃ (s : State) (fr : RxFrame) (p : RxPkt),
       let h := s.hive
       let heard (n : Nat) := received fr s = true ∧ classify s fr.psdu = .frame p ∧ p.f.typ = n
       s.early = [] ∧ heard 0 ∧ h.st = .run ∧ p.f.fdest = 0x7F ∧ p.f.orig ≠ h.addr ∧ p.f.htaken ≤ 1 ∧ h.fmap = []) ∧
    (∃ (s : State) (fr : RxFrame) (p : RxPkt),
       let h := s.hive
       let heard (n : Nat) := received fr s = true ∧ classify s fr.psdu = .frame p ∧ p.f.typ = n
       let mine := s.running = true ∧ h.st = .run ∧ p.f.fdest = h.addr ∧ h.addr ≠ 0x7F
       s.early = [] ∧ heard 1 ∧ mine ∧ 4 ≤ p.f.body.length) ∧
    (∃ (s : State) (fr : RxFrame) (p : RxPkt) (m : _),
       let h := s.hive
       let heard (n : Nat) := received fr s = true ∧ classify s fr.psdu = .frame p ∧ p.f.typ = n
       let mine := s.running = true ∧ h.st = .run ∧ p.f.fdest = h.addr ∧ h.addr ≠ 0x7F
       s.early = [] ∧ heard 2 ∧ mine ∧
         h.msgs.find? (fun m => m.e2e && m.tag == p.f.mseq && m.sentAt.isSome && (m.dest == p.f.orig)) = some m ∧
         h.msgs.find? (fun x => x.id == m.id) = some m) ∧
    (∃ (s : State) (m : _),
       let h := s.hive
       s.early = [] ∧ s.running = true ∧
         h.msgs.find? (fun m => m.e2e && (match m.sentAt with | some t => decide (t + 192000000 ≤ s.time.hive) | none => false)) = some m ∧
         h.msgs.find? (fun x => x.id == m.id) = some m) ∧
    (∃ (s : State) (b : _),
       let h := s.hive
       s.early = [] ∧ h.burst = some b ∧ s.running = true ∧ s.isReady .radio = true ∧ s.time.phys < b.next) ∧
    (∃ (s : State) (b : _),
       let h := s.hive
       s.early = [] ∧ h.burst = some b ∧ s.running = true ∧ s.isReady .radio = true ∧ b.next ≤ s.time.phys ∧
         b.left ≠ 0 ∧ h.fc < 2 ^ 32) ∧
    (∃ (s : State) (b : _) (m : _),
       let h := s.hive
       s.early = [] ∧ h.burst = some b ∧ s.running = true ∧ s.isReady .radio = true ∧ b.next ≤ s.time.phys ∧
         b.left = 0 ∧ h.msgs.find? (fun x => x.id == b.id) = some m) ∧
    (∃ (s : State),
       s.early = []) :=
  ⟨⟨wHs { wHv with txq := [wTx true] }, wTx true, [], -95, by decide +kernel,
    ⟨by decide +kernel, by decide +kernel, by decide +kernel, 0, by decide +kernel⟩, by decide +kernel⟩,
   ⟨wHs { wHv with txq := [wTx false] }, wTx false, [], -95, by decide +kernel,
    ⟨by decide +kernel, by decide +kernel, by decide +kernel, 0, by decide +kernel⟩, by decide +kernel⟩,
   ⟨wHs { wHv with txq := [wTx true] }, wTx true, [], -94, by decide +kernel,
    ⟨by decide +kernel, by decide +kernel, by decide +kernel, 0, by decide +kernel⟩, by decide +kernel⟩,
   ⟨wS, by decide +kernel⟩,
   ⟨(wHs { wHv with relays := [⟨⟨0, 1, 2, false, 0, 0, 0, 0, 0, [], .short⟩, 0, true, 0⟩] }),
    ⟨⟨0, 1, 2, false, 0, 0, 0, 0, 0, [], .short⟩, 0, true, 0⟩, by decide +kernel⟩,
   ⟨wHs { wHv with await := some (wTx true, 30720) }, wFr (ackPsdu 1), wTx true, 30720, 1, by decide +kernel,
    by decide +kernel, wAcks (by decide +kernel), by decide +kernel⟩,
   ⟨wHs { wHv with await := some (wTx true, 30720) }, wFr (ackPsdu 0), wTx true, 30720, 0, by decide +kernel,
    by decide +kernel, wAcks (by decide +kernel), by decide +kernel⟩,
   ⟨wHs { wHv with await := some (wTx true, 30720), join := [0x00200000, 0x600000, 0xC105, 0] }, wTx true, 30720,
    by decide +kernel⟩,
   ⟨wHs { wHv with await := some (wTx true, 30720) }, wTx true, 30720, by decide +kernel⟩,
   ⟨(wHs { wHv with st := .ready }), (wFr (wPs 0 5 1 [] 0x7F false)),
    (wPkt (classify ((wHs { wHv with st := .ready })) (wPs 0 5 1 [] 0x7F false))), by decide +kernel,
    ⟨by decide +kernel, wRx (by decide +kernel), by decide +kernel⟩, by decide +kernel⟩,
   ⟨({ (wHs { wHv with fmap := [⟨0, 63, 0⟩] }) with queues := vset wS.queues 63 { Queue.reset with st := .run, set1 := 2, cred := 23 } }),
    (wFr (wPs 0 5 1 [] 0x7F false)),
    (wPkt (classify (({ (wHs { wHv with fmap := [⟨0, 63, 0⟩] }) with queues := vset wS.queues 63 { Queue.reset with st := .run, set1 := 2, cred := 23 } })) (wPs 0 5 1 [] 0x7F false))),
    ⟨0, 63, 0⟩,
    messageItem ⟨true, 0, 0, 0, 0⟩ (wPkt (classify (({ (wHs { wHv with fmap := [⟨0, 63, 0⟩] }) with queues := vset wS.queues 63 { Queue.reset with st := .run, set1 := 2, cred := 23 } })) (wPs 0 5 1 [] 0x7F false))),
    by decide +kernel, ⟨by decide +kernel, wRx (by decide +kernel), by decide +kernel⟩, by decide +kernel, rfl,
    by decide +kernel⟩,
   ⟨(wHs wHv), (wFr (wPs 0 5 0x7F [] 0x7F false)), (wPkt (classify ((wHs wHv)) (wPs 0 5 0x7F [] 0x7F false))),
    by decide +kernel, ⟨by decide +kernel, wRx (by decide +kernel), by decide +kernel⟩, by decide +kernel⟩,
   ⟨(wHs wHv), (wFr (wPs 1 5 1 [1, 2, 3, 4] 0x7F false)),
    (wPkt (classify ((wHs wHv)) (wPs 1 5 1 [1, 2, 3, 4] 0x7F false))), by decide +kernel,
    ⟨by decide +kernel, wRx (by decide +kernel), by decide +kernel⟩, by decide +kernel⟩,
   ⟨(wHs { wHv with msgs := [⟨3, 5, true, 0, 0, 0, some 0, none⟩] }), (wFr (wPs 2 5 1 [] 0x7F false)),
    (wPkt (classify ((wHs { wHv with msgs := [⟨3, 5, true, 0, 0, 0, some 0, none⟩] })) (wPs 2 5 1 [] 0x7F false))),
    ⟨3, 5, true, 0, 0, 0, some 0, none⟩, by decide +kernel,
    ⟨by decide +kernel, wRx (by decide +kernel), by decide +kernel⟩, by decide +kernel⟩,
   ⟨{ (wHs { wHv with msgs := [⟨3, 5, true, 0, 0, 0, some 0, none⟩] }) with time := { wS.time with hive := 192000000 } },
    ⟨3, 5, true, 0, 0, 0, some 0, none⟩, by decide +kernel⟩,
   ⟨(wHs { wHv with burst := some ⟨3, 0, 1, 30721⟩ }), ⟨3, 0, 1, 30721⟩, by decide +kernel⟩,
   ⟨(wHs { wHv with burst := some ⟨3, 0, 1, 0⟩ }), ⟨3, 0, 1, 0⟩, by decide +kernel⟩,
   ⟨(wHs { wHv with burst := some ⟨3, 0, 0, 0⟩, msgs := [⟨3, 5, true, 0, 0, 0, some 0, some (0, 4)⟩] }),
    ⟨3, 0, 0, 0⟩, ⟨3, 5, true, 0, 0, 0, some 0, some (0, 4)⟩, by decide +kernel⟩,
   ⟨wS, by decide +kernel⟩⟩

/-- Every hypothesis of SyncEvents can be met, clause by clause. -/
theorem test_witness_syncEvents :
    (∃ (s : State) (a : Nat) (x : Nat) (dbm : Int) (k : _) (t : _),
       let h := s.hive
       let clear := dbm ≤ -100 + (h.ccathr : Int)
       let due := parentOf s = some (a, false, x) ∧ s.running = true ∧ h.st = .run ∧ h.radio = true
       s.early = [] ∧ due ∧ h.sreq = some (k, t) ∧ t ≤ s.time.phys ∧ clear ∧ radioFree s = true ∧ h.fc < 2 ^ 32) ∧
    (∃ (s : State) (a : Nat) (x : Nat) (dbm : Int) (k : _) (t : _),
       let h := s.hive
       let clear := dbm ≤ -100 + (h.ccathr : Int)
       let due := parentOf s = some (a, false, x) ∧ s.running = true ∧ h.st = .run ∧ h.radio = true
       s.early = [] ∧ due ∧ h.sreq = some (k, t) ∧ t ≤ s.time.phys ∧ ¬ clear) ∧
    (∃ (s : State),
       s.early = [] ∧ parentOf s = none) ∧
    (∃ (s : State) (fr : RxFrame) (p : RxPkt),
       let h := s.hive
       let heard (n : Nat) := received fr s = true ∧ classify s fr.psdu = .frame p ∧ p.f.typ = n
       s.early = [] ∧ heard 8 ∧ h.st = .run ∧ p.ext = false ∧ 8 ≤ p.f.body.length) ∧
    (∃ (s : State) (dbm : Int) (r : _),
       let h := s.hive
       let clear := dbm ≤ -100 + (h.ccathr : Int)
       s.early = [] ∧ s.running = true ∧ h.st = .run ∧
         h.sresp.find? (fun r => decide (r.due ≤ s.time.hive)) = some r ∧ clear ∧ radioFree s = true ∧ h.fc < 2 ^ 32) ∧
    (∃ (s : State) (dbm : Int) (r : _),
       let h := s.hive
       let clear := dbm ≤ -100 + (h.ccathr : Int)
       s.early = [] ∧ s.running = true ∧ h.st = .run ∧
         h.sresp.find? (fun r => decide (r.due ≤ s.time.hive)) = some r ∧ ¬ clear) ∧
    (∃ (s : State) (fr : RxFrame) (p : RxPkt) (x : Nat) (e : _),
       let h := s.hive
       let heard (n : Nat) := received fr s = true ∧ classify s fr.psdu = .frame p ∧ p.f.typ = n
       let t2 := s.time.hive - fr.ago
       let t3 := leNat ((p.f.body.drop 16).take 8)
       let y2 := leNat ((p.f.body.drop 8).take 8)
       let d2 : Int := ((t2 : Int) - e.t1) - (t3 - y2)
       s.early = [] ∧ heard 9 ∧ h.exch = some e ∧ parentOf s = some (p.src, false, x) ∧ p.sec = false ∧
         p.ext = false ∧ 24 ≤ p.f.body.length ∧ leNat (p.f.body.take 8) = e.t1 ∧
         (d2 < 0 ∨ 1920 < d2 ∨ e.spoiled = true)) ∧
    (∃ (s : State) (fr : RxFrame) (p : RxPkt) (x : Nat) (e : _),
       let h := s.hive
       let heard (n : Nat) := received fr s = true ∧ classify s fr.psdu = .frame p ∧ p.f.typ = n
       let t2 := s.time.hive - fr.ago
       let t3 := leNat ((p.f.body.drop 16).take 8)
       let y2 := leNat ((p.f.body.drop 8).take 8)
       let d2 : Int := ((t2 : Int) - e.t1) - (t3 - y2)
       s.early = [] ∧ heard 9 ∧ h.exch = some e ∧ parentOf s = some (p.src, false, x) ∧ p.sec = false ∧
         p.ext = false ∧ 24 ≤ p.f.body.length ∧ leNat (p.f.body.take 8) = e.t1 ∧ 0 ≤ d2 ∧ d2 ≤ 1920 ∧
         e.spoiled = false ∧ s.time.valid = false) ∧
    (∃ (s : State) (fr : RxFrame) (p : RxPkt) (x : Nat) (e : _),
       let h := s.hive
       let heard (n : Nat) := received fr s = true ∧ classify s fr.psdu = .frame p ∧ p.f.typ = n
       let t2 := s.time.hive - fr.ago
       let t3 := leNat ((p.f.body.drop 16).take 8)
       let y2 := leNat ((p.f.body.drop 8).take 8)
       let d2 : Int := ((t2 : Int) - e.t1) - (t3 - y2)
       s.early = [] ∧ heard 9 ∧ h.exch = some e ∧ parentOf s = some (p.src, false, x) ∧ p.sec = false ∧
         p.ext = false ∧ 24 ≤ p.f.body.length ∧ leNat (p.f.body.take 8) = e.t1 ∧ 0 ≤ d2 ∧ d2 ≤ 1920 ∧
         e.spoiled = false ∧ s.time.valid = true) ∧
    (∃ (s : State),
       s.early = [] ∧ s.time.valid = false) :=
  ⟨⟨wHs wSy, 5, 6, -95, 0, 30720, by decide +kernel⟩,
   ⟨wHs wSy, 5, 6, -94, 0, 30720, by decide +kernel⟩,
   ⟨(wHs { wHv with rootUid := 7 }), by decide +kernel⟩,
   ⟨(wHs wHv), (wFr (wPs 8 5 1 (List.replicate 8 0) 0x7F false)),
    (wPkt (classify ((wHs wHv)) (wPs 8 5 1 (List.replicate 8 0) 0x7F false))), by decide +kernel,
    ⟨by decide +kernel, wRx (by decide +kernel), by decide +kernel⟩, by decide +kernel⟩,
   ⟨wHs { wHv with sresp := [⟨5, 0, 0, 0, 0⟩] }, -95, ⟨5, 0, 0, 0, 0⟩, by decide +kernel⟩,
   ⟨wHs { wHv with sresp := [⟨5, 0, 0, 0, 0⟩] }, -94, ⟨5, 0, 0, 0, 0⟩, by decide +kernel⟩,
   ⟨(wHs { wHv with leases := vset wHv.leases 0 (some ⟨5, 9, 0, true, 0, 0, 0, 6, 0, none⟩), nbrs := [⟨5, 0⟩], exch := some ⟨0, true⟩ }),
    (wFr (wPs 9 5 1 (List.replicate 24 0) 0x7F false)),
    (wPkt (classify ((wHs { wHv with leases := vset wHv.leases 0 (some ⟨5, 9, 0, true, 0, 0, 0, 6, 0, none⟩), nbrs := [⟨5, 0⟩], exch := some ⟨0, true⟩ })) (wPs 9 5 1 (List.replicate 24 0) 0x7F false))),
    6, ⟨0, true⟩, by decide +kernel, ⟨by decide +kernel, wRx (by decide +kernel), by decide +kernel⟩,
    by decide +kernel⟩,
   ⟨(wHs { wHv with leases := vset wHv.leases 0 (some ⟨5, 9, 0, true, 0, 0, 0, 6, 0, none⟩), nbrs := [⟨5, 0⟩], exch := some ⟨0, false⟩ }),
    (wFr (wPs 9 5 1 (List.replicate 24 0) 0x7F false)),
    (wPkt (classify ((wHs { wHv with leases := vset wHv.leases 0 (some ⟨5, 9, 0, true, 0, 0, 0, 6, 0, none⟩), nbrs := [⟨5, 0⟩], exch := some ⟨0, false⟩ })) (wPs 9 5 1 (List.replicate 24 0) 0x7F false))),
    6, ⟨0, false⟩, by decide +kernel, ⟨by decide +kernel, wRx (by decide +kernel), by decide +kernel⟩,
    by decide +kernel⟩,
   ⟨{ (wHs { wHv with leases := vset wHv.leases 0 (some ⟨5, 9, 0, true, 0, 0, 0, 6, 0, none⟩), nbrs := [⟨5, 0⟩], exch := some ⟨0, false⟩ }) with time := { wS.time with valid := true, phys := 30720 } },
    (wFr (wPs 9 5 1 (List.replicate 24 0) 0x7F false)),
    (wPkt (classify ({ (wHs { wHv with leases := vset wHv.leases 0 (some ⟨5, 9, 0, true, 0, 0, 0, 6, 0, none⟩), nbrs := [⟨5, 0⟩], exch := some ⟨0, false⟩ }) with time := { wS.time with valid := true, phys := 30720 } }) (wPs 9 5 1 (List.replicate 24 0) 0x7F false))),
    6, ⟨0, false⟩, by decide +kernel, ⟨by decide +kernel, wRx (by decide +kernel), by decide +kernel⟩,
    by decide +kernel⟩,
   ⟨(wHs { wHv with rootUid := 7 }), by decide +kernel⟩⟩

/-- Every hypothesis of PortInstructions can be met, clause by clause. -/
theorem test_witness_portInstructions :
    (∃ (c : CoreId) (v : Inv) (s : State) (s' : State) (f : UForm) (k : PortId),
       let s0 := ownFirst (portFirst k) s
       let t := v.tenant
       let x := s'.port k
       let a := ((s'.regs c).rd f.ra).toNat
       let up := s'.may t (capPort k.val) = true ∧ s'.hasFailed .ports = false ∧ waitsFor .ports s' = none
       let owned := (k.val = 0 ∧ s'.boot.mode = false ∧ s'.boot.testEn = false) ∨ x.hive = true
       Begins c (.portSet c f) v s0 s' ∧ f.inst.toNat = k.val ∧ up ∧ f.rd = 0 ∧ f.rb = 0 ∧ blockOk t a 4 = true ∧
         blockMay s' t a 4 = true ∧ CleanAt s' a 4 ∧ (owned ∨ x.st = .run ∨ x.st = .held)) ∧
    (∃ (c : CoreId) (v : Inv) (s : State) (s' : State) (f : UForm) (k : PortId),
       let s0 := ownFirst (portFirst k) s
       let t := v.tenant
       let x := s'.port k
       let a := ((s'.regs c).rd f.ra).toNat
       let up := s'.may t (capPort k.val) = true ∧ s'.hasFailed .ports = false ∧ waitsFor .ports s' = none
       let owned := (k.val = 0 ∧ s'.boot.mode = false ∧ s'.boot.testEn = false) ∨ x.hive = true
       Begins c (.portSet c f) v s0 s' ∧ f.inst.toNat = k.val ∧ up ∧ f.rd = 0 ∧ f.rb = 0 ∧ blockOk t a 4 = true ∧
         blockMay s' t a 4 = true ∧ CleanAt s' a 4 ∧ ¬ owned ∧ (x.st = .off ∨ x.st = .ready)) ∧
    (∃ (c : CoreId) (v : Inv) (s : State) (s' : State) (f : UForm) (k : PortId),
       let s0 := ownFirst (portFirst k) s
       let t := v.tenant
       let x := s'.port k
       let up := s'.may t (capPort k.val) = true ∧ s'.hasFailed .ports = false ∧ waitsFor .ports s' = none
       let bare := f.rd = 0 ∧ f.ra = 0 ∧ f.rb = 0
       let owned := (k.val = 0 ∧ s'.boot.mode = false ∧ s'.boot.testEn = false) ∨ x.hive = true
       Begins c (.portStart c f) v s0 s' ∧ f.inst.toNat = k.val ∧ up ∧ bare ∧ (owned ∨ x.st ≠ .ready)) ∧
    (∃ (c : CoreId) (v : Inv) (s : State) (s' : State) (f : UForm) (k : PortId),
       let s0 := ownFirst (portFirst k) s
       let t := v.tenant
       let x := s'.port k
       let up := s'.may t (capPort k.val) = true ∧ s'.hasFailed .ports = false ∧ waitsFor .ports s' = none
       let bare := f.rd = 0 ∧ f.ra = 0 ∧ f.rb = 0
       let owned := (k.val = 0 ∧ s'.boot.mode = false ∧ s'.boot.testEn = false) ∨ x.hive = true
       let queues :=
         (x.txen = true → (s'.queue x.txq).st ≠ .off ∧ (s'.queue x.txq).cons = 1 ∧ (s'.queue x.txq).cinst = k.val) ∧
         (x.rxen = true → (s'.queue x.rxq).st ≠ .off ∧ (s'.queue x.rxq).prod = 3 ∧ (s'.queue x.rxq).pinst = k.val)
       Begins c (.portStart c f) v s0 s' ∧ f.inst.toNat = k.val ∧ up ∧ bare ∧ ¬ owned ∧ x.st = .ready ∧ queues) ∧
    (∃ (c : CoreId) (v : Inv) (s : State) (s' : State) (f : UForm) (k : PortId),
       let s0 := ownFirst (portFirst k) s
       let t := v.tenant
       let x := s'.port k
       let up := s'.may t (capPort k.val) = true ∧ s'.hasFailed .ports = false ∧ waitsFor .ports s' = none
       let bare := f.rd = 0 ∧ f.ra = 0 ∧ f.rb = 0
       let owned := (k.val = 0 ∧ s'.boot.mode = false ∧ s'.boot.testEn = false) ∨ x.hive = true
       let queues :=
         (x.txen = true → (s'.queue x.txq).st ≠ .off ∧ (s'.queue x.txq).cons = 1 ∧ (s'.queue x.txq).cinst = k.val) ∧
         (x.rxen = true → (s'.queue x.rxq).st ≠ .off ∧ (s'.queue x.rxq).prod = 3 ∧ (s'.queue x.rxq).pinst = k.val)
       Begins c (.portStart c f) v s0 s' ∧ f.inst.toNat = k.val ∧ up ∧ bare ∧ ¬ owned ∧ x.st = .ready ∧ ¬ queues) ∧
    (∃ (c : CoreId) (v : Inv) (s : State) (s' : State) (f : UForm) (k : PortId),
       let s0 := ownFirst (portFirst k) s
       let t := v.tenant
       let x := s'.port k
       let up := s'.may t (capPort k.val) = true ∧ s'.hasFailed .ports = false ∧ waitsFor .ports s' = none
       let bare := f.rd = 0 ∧ f.ra = 0 ∧ f.rb = 0
       let owned := (k.val = 0 ∧ s'.boot.mode = false ∧ s'.boot.testEn = false) ∨ x.hive = true
       Begins c (.portStop c f) v s0 s' ∧ f.inst.toNat = k.val ∧ up ∧ bare ∧ (owned ∨ x.st ≠ .run)) ∧
    (∃ (c : CoreId) (v : Inv) (s : State) (s' : State) (f : UForm) (k : PortId),
       let s0 := ownFirst (portFirst k) s
       let t := v.tenant
       let x := s'.port k
       let up := s'.may t (capPort k.val) = true ∧ s'.hasFailed .ports = false ∧ waitsFor .ports s' = none
       let bare := f.rd = 0 ∧ f.ra = 0 ∧ f.rb = 0
       let owned := (k.val = 0 ∧ s'.boot.mode = false ∧ s'.boot.testEn = false) ∨ x.hive = true
       Begins c (.portStop c f) v s0 s' ∧ f.inst.toNat = k.val ∧ up ∧ bare ∧ ¬ owned ∧ x.st = .run ∧
         x.mframe = none ∧ x.sframe = none) ∧
    (∃ (c : CoreId) (v : Inv) (s : State) (s' : State) (f : UForm) (k : PortId) (g : _),
       let s0 := ownFirst (portFirst k) s
       let t := v.tenant
       let x := s'.port k
       let up := s'.may t (capPort k.val) = true ∧ s'.hasFailed .ports = false ∧ waitsFor .ports s' = none
       let bare := f.rd = 0 ∧ f.ra = 0 ∧ f.rb = 0
       let owned := (k.val = 0 ∧ s'.boot.mode = false ∧ s'.boot.testEn = false) ∨ x.hive = true
       Begins c (.portStop c f) v s0 s' ∧ f.inst.toNat = k.val ∧ up ∧ bare ∧ ¬ owned ∧ x.st = .run ∧
         x.mframe = none ∧ x.sframe = some g) ∧
    (∃ (c : CoreId) (v : Inv) (s : State) (s' : State) (f : UForm) (k : PortId) (m : _),
       let s0 := ownFirst (portFirst k) s
       let t := v.tenant
       let x := s'.port k
       let up := s'.may t (capPort k.val) = true ∧ s'.hasFailed .ports = false ∧ waitsFor .ports s' = none
       let bare := f.rd = 0 ∧ f.ra = 0 ∧ f.rb = 0
       let owned := (k.val = 0 ∧ s'.boot.mode = false ∧ s'.boot.testEn = false) ∨ x.hive = true
       Begins c (.portStop c f) v s0 s' ∧ f.inst.toNat = k.val ∧ up ∧ bare ∧ ¬ owned ∧ x.st = .run ∧
         x.mframe = some m) ∧
    (∃ (c : CoreId) (v : Inv) (s : State) (s' : State) (f : UForm) (k : PortId),
       let s0 := ownFirst (portFirst k) s
       let t := v.tenant
       let up := s'.may t (capPort k.val) = true ∧ s'.hasFailed .ports = false ∧ waitsFor .ports s' = none
       let bare := f.rd = 0 ∧ f.ra = 0 ∧ f.rb = 0
       Begins c (.portClr c f) v s0 s' ∧ f.inst.toNat = k.val ∧ up ∧ bare) :=
  ⟨⟨0, wI, wReg wS [0, 0x20100000], wReg wS [0, 0x20100000], ⟨0, 1, 0, 0⟩, 0, wB (by decide +kernel),
    by decide +kernel⟩,
   ⟨0, wI, wReg wS [0, 0x20100000], wReg wS [0, 0x20100000], ⟨0, 1, 0, 2⟩, 2, wB (by decide +kernel),
    by decide +kernel⟩,
   ⟨0, wI, wS, wS, ⟨0, 0, 0, 0⟩, 0, wB (by decide +kernel), by decide +kernel⟩,
   ⟨0, wI, (wS.setPort 2 { Port.reset with st := .ready }), (wS.setPort 2 { Port.reset with st := .ready }),
    ⟨0, 0, 0, 2⟩, 2, wB (by decide +kernel), by decide +kernel⟩,
   ⟨0, wI, (wS.setPort 2 { Port.reset with st := .ready, set := [0x4000, 0, 0, 0] }),
    (wS.setPort 2 { Port.reset with st := .ready, set := [0x4000, 0, 0, 0] }), ⟨0, 0, 0, 2⟩, 2,
    wB (by decide +kernel), by decide +kernel⟩,
   ⟨0, wI, wS, wS, ⟨0, 0, 0, 2⟩, 2, wB (by decide +kernel), by decide +kernel⟩,
   ⟨0, wI, (wS.setPort 2 { Port.reset with st := .run }), (wS.setPort 2 { Port.reset with st := .run }),
    ⟨0, 0, 0, 2⟩, 2, wB (by decide +kernel), by decide +kernel⟩,
   ⟨0, wI, wS.setPort 2 { Port.reset with st := .run, sframe := some ⟨0, none, false, 0⟩ },
    wS.setPort 2 { Port.reset with st := .run, sframe := some ⟨0, none, false, 0⟩ }, ⟨0, 0, 0, 2⟩, 2,
    ⟨0, none, false, 0⟩, wB (by decide +kernel), by decide +kernel⟩,
   ⟨0, wI, (wS.setPort 2 { Port.reset with st := .run, mframe := some default }),
    (wS.setPort 2 { Port.reset with st := .run, mframe := some default }), ⟨0, 0, 0, 2⟩, 2, default,
    wB (by decide +kernel), by decide +kernel⟩,
   ⟨0, wI, wS, wS, ⟨0, 0, 0, 2⟩, 2, wB (by decide +kernel), by decide +kernel⟩⟩

/-- Every hypothesis of HostFrames can be met, clause by clause. -/
theorem test_witness_hostFrames :
    (∃ (s : State) (opc : Byte) (whole : Bool),
       let serves := s.running = true ∧ s.isReady .ports = true
       s.boot.mode = false ∧ s.boot.testEn = false ∧ serves ∧ (whole = false ∨ opc = 0)) ∧
    (∃ (s : State) (opc : Byte) (whole : Bool),
       let serves := s.running = true ∧ s.isReady .ports = true
       s.boot.mode = false ∧ s.boot.testEn = false ∧ whole = true ∧ opc ≠ 0 ∧ opc ≠ 0x60 ∧ serves) ∧
    (∃ (s : State),
       let serves := s.running = true ∧ s.isReady .ports = true
       s.boot.mode = false ∧ s.boot.testEn = false ∧ serves) ∧
    (∃ (s : State) (p : HostPkt) (opc : Byte) (whole : Bool) (i : _),
       let serves := s.running = true ∧ s.isReady .ports = true
       s.boot.mode = false ∧ s.boot.testEn = false ∧ ¬ serves ∧ s.time.mode ≠ .off ∧
         i ∈ [Instr.hostStatus opc whole, .hostExecute p, .hostReadQueue p, .hostGrantCredit p, .hostReadWindow p, .hostReadReply p]) :=
  ⟨⟨wS, 1, false, by decide +kernel⟩,
   ⟨wS, 1, true, by decide +kernel⟩,
   ⟨wS, by decide +kernel⟩,
   ⟨State.reset, ⟨0, [], 0⟩, 0, false, .hostStatus 0 false, by decide +kernel⟩⟩

/-- Every hypothesis of LineInstructions can be met, clause by clause. -/
theorem test_witness_lineInstructions :
    (∃ (c : CoreId) (v : Inv) (s : State) (s' : State) (f : UForm) (e : EngineId),
       let t := v.tenant
       let u0 := engineFirst e s'
       let a := (s'.regs c).rd f.ra
       let up := s'.may t (capLine e.val) = true ∧ s'.hasFailed .line = false ∧ waitsFor .line s' = none
       Begins c (.lineLoad c f) v s s' ∧ f.inst.toNat = e.val ∧ up ∧ f.rd = 0 ∧ f.rb = 0 ∧
         blockOk t a.toNat 20 = true ∧ blockMay s' t a.toNat 20 = true ∧ CleanAt u0 a.toNat 20) ∧
    (∃ (c : CoreId) (v : Inv) (s : State) (s' : State) (f : UForm) (e : EngineId),
       let t := v.tenant
       let u0 := engineFirst e s'
       let x := u0.engine e
       let up := s'.may t (capLine e.val) = true ∧ s'.hasFailed .line = false ∧ waitsFor .line s' = none
       let bare := f.rd = 0 ∧ f.ra = 0 ∧ f.rb = 0
       Begins c (.lineStart c f) v s s' ∧ f.inst.toNat = e.val ∧ up ∧ bare ∧ x.st ≠ .ready) ∧
    (∃ (c : CoreId) (v : Inv) (s : State) (s' : State) (f : UForm) (e : EngineId),
       let t := v.tenant
       let u0 := engineFirst e s'
       let x := u0.engine e
       let up := s'.may t (capLine e.val) = true ∧ s'.hasFailed .line = false ∧ waitsFor .line s' = none
       let bare := f.rd = 0 ∧ f.ra = 0 ∧ f.rb = 0
       Begins c (.lineStart c f) v s s' ∧ f.inst.toNat = e.val ∧ up ∧ bare ∧ x.st = .ready) ∧
    (∃ (c : CoreId) (v : Inv) (s : State) (s' : State) (f : UForm) (e : EngineId),
       let t := v.tenant
       let u0 := engineFirst e s'
       let x := u0.engine e
       let up := s'.may t (capLine e.val) = true ∧ s'.hasFailed .line = false ∧ waitsFor .line s' = none
       let bare := f.rd = 0 ∧ f.ra = 0 ∧ f.rb = 0
       Begins c (.lineStop c f) v s s' ∧ f.inst.toNat = e.val ∧ up ∧ bare ∧ x.st ≠ .run) ∧
    (∃ (c : CoreId) (v : Inv) (s : State) (s' : State) (f : UForm) (e : EngineId),
       let t := v.tenant
       let u0 := engineFirst e s'
       let x := u0.engine e
       let up := s'.may t (capLine e.val) = true ∧ s'.hasFailed .line = false ∧ waitsFor .line s' = none
       let bare := f.rd = 0 ∧ f.ra = 0 ∧ f.rb = 0
       Begins c (.lineStop c f) v s s' ∧ f.inst.toNat = e.val ∧ up ∧ bare ∧ x.st = .run) ∧
    (∃ (c : CoreId) (v : Inv) (s : State) (s' : State) (f : UForm) (e : EngineId),
       let t := v.tenant
       let up := s'.may t (capLine e.val) = true ∧ s'.hasFailed .line = false ∧ waitsFor .line s' = none
       Begins c (.lineTx c f) v s s' ∧ f.inst.toNat = e.val ∧ up ∧ f.rd = 0 ∧ f.rb = 0) ∧
    (∃ (c : CoreId) (v : Inv) (s : State) (s' : State) (f : UForm) (e : EngineId),
       let t := v.tenant
       let up := s'.may t (capLine e.val) = true ∧ s'.hasFailed .line = false ∧ waitsFor .line s' = none
       Begins c (.lineRx c f) v s s' ∧ f.inst.toNat = e.val ∧ up ∧ f.ra = 0 ∧ f.rb = 0) :=
  ⟨⟨0, wI, wReg wS [0, 0x20100000], wReg wS [0, 0x20100000], ⟨0, 1, 0, 7⟩, 7, wB (by decide +kernel),
    by decide +kernel⟩,
   ⟨0, wI, wS, wS, ⟨0, 0, 0, 7⟩, 7, wB (by decide +kernel), by decide +kernel⟩,
   ⟨0, wI, (wS.setEngine 7 { Engine.reset with st := .ready }), (wS.setEngine 7 { Engine.reset with st := .ready }),
    ⟨0, 0, 0, 7⟩, 7, wB (by decide +kernel), by decide +kernel⟩,
   ⟨0, wI, wS, wS, ⟨0, 0, 0, 7⟩, 7, wB (by decide +kernel), by decide +kernel⟩,
   ⟨0, wI, (wS.setEngine 7 { Engine.reset with st := .run }), (wS.setEngine 7 { Engine.reset with st := .run }),
    ⟨0, 0, 0, 7⟩, 7, wB (by decide +kernel), by decide +kernel⟩,
   ⟨0, wI, wS, wS, ⟨0, 0, 0, 7⟩, 7, wB (by decide +kernel), by decide +kernel⟩,
   ⟨0, wI, wS, wS, ⟨0, 0, 0, 7⟩, 7, wB (by decide +kernel), by decide +kernel⟩⟩

/-- Every hypothesis of EnginePins can be met, clause by clause. -/
theorem test_witness_enginePins :
    (∃ (s : State) (e : EngineId),
       let x := s.engine e
       let goes := s.running = true ∧ x.st = .run ∧ x.at_ ≤ s.time.clk
       goes ∧ x.wait = .none ∧ x.op = .halt) ∧
    (∃ (s : State) (e : EngineId) (j : _) (oe : _) (b : _),
       let x := s.engine e
       let goes := s.running = true ∧ x.st = .run ∧ x.at_ ≤ s.time.clk
       let now := x.timed = false ∨ x.mark ≤ s.time.hive
       goes ∧ x.wait = .none ∧ now ∧ x.op = .drive j oe b) ∧
    (∃ (s : State) (e : EngineId) (b : _),
       let x := s.engine e
       let goes := s.running = true ∧ x.st = .run ∧ x.at_ ≤ s.time.clk
       let now := x.timed = false ∨ x.mark ≤ s.time.hive
       goes ∧ x.wait = .none ∧ now ∧ x.op = .driveAll b) ∧
    (∃ (s : State) (e : EngineId) (n : _),
       let x := s.engine e
       let goes := s.running = true ∧ x.st = .run ∧ x.at_ ≤ s.time.clk
       let now := x.timed = false ∨ x.mark ≤ s.time.hive
       goes ∧ x.wait = .none ∧ now ∧ x.op = .sample n) ∧
    (∃ (s : State) (e : EngineId) (j : _) (lsb : _) (tg : _),
       let x := s.engine e
       let goes := s.running = true ∧ x.st = .run ∧ x.at_ ≤ s.time.clk
       let now := x.timed = false ∨ x.mark ≤ s.time.hive
       goes ∧ x.wait = .none ∧ now ∧ x.op = .shout j lsb tg ∧ tg ≠ some j) ∧
    (∃ (s : State) (e : EngineId) (j : _) (lsb : _) (tg : _),
       let x := s.engine e
       let goes := s.running = true ∧ x.st = .run ∧ x.at_ ≤ s.time.clk
       let now := x.timed = false ∨ x.mark ≤ s.time.hive
       goes ∧ x.wait = .none ∧ now ∧ x.op = .shin j lsb tg) ∧
    (∃ (s : State) (e : EngineId) (j : _) (oe : _) (b : _),
       let x := s.engine e
       let goes := s.running = true ∧ x.st = .run ∧ x.at_ ≤ s.time.clk
       goes ∧ x.wait = .none ∧ x.timed = true ∧ s.hiveNext < x.mark ∧ s.time.hive < x.mark ∧ x.op = .drive j oe b) ∧
    (∃ (s : State) (e : EngineId) (j : _) (oe : _) (b : _),
       let x := s.engine e
       let goes := s.running = true ∧ x.st = .run ∧ x.at_ ≤ s.time.clk
       goes ∧ x.wait = .timed ∧ x.op = .drive j oe b ∧ s.hiveNext < x.mark) ∧
    (∃ (s : State) (e : EngineId) (j : _) (oe : _) (b : _),
       let x := s.engine e
       let goes := s.running = true ∧ x.st = .run ∧ x.at_ ≤ s.time.clk
       goes ∧ x.wait = .timed ∧ x.op = .drive j oe b ∧ x.mark ≤ s.hiveNext) ∧
    (∃ (s : State) (e : EngineId) (j : _) (oe : _) (b : _),
       let x := s.engine e
       let goes := s.running = true ∧ x.st = .run ∧ x.at_ ≤ s.time.clk
       goes ∧ x.wait = .none ∧ x.timed = true ∧ s.time.hive < x.mark ∧ x.mark ≤ s.hiveNext ∧ x.op = .drive j oe b) ∧
    (∃ (s : State) (e : EngineId) (n : _),
       let x := s.engine e
       let goes := s.running = true ∧ x.st = .run ∧ x.at_ ≤ s.time.clk
       goes ∧ x.wait = .none ∧ x.timed = true ∧ s.time.hive < x.mark ∧ x.op = .sample n) ∧
    (∃ (s : State) (e : EngineId) (n : _),
       let x := s.engine e
       let goes := s.running = true ∧ x.st = .run ∧ x.at_ ≤ s.time.clk
       goes ∧ x.wait = .timed ∧ x.op = .sample n ∧ x.hit = none) ∧
    (∃ (s : State) (e : EngineId) (n : _) (k : _),
       let x := s.engine e
       let goes := s.running = true ∧ x.st = .run ∧ x.at_ ≤ s.time.clk
       goes ∧ x.wait = .timed ∧ x.op = .sample n ∧ x.hit = some k ∧ s.time.clk < k + 2) ∧
    (∃ (s : State) (e : EngineId) (n : _) (k : _),
       let x := s.engine e
       let goes := s.running = true ∧ x.st = .run ∧ x.at_ ≤ s.time.clk
       goes ∧ x.wait = .timed ∧ x.op = .sample n ∧ x.hit = some k ∧ k + 2 ≤ s.time.clk) ∧
    (∃ (s : State) (e : EngineId) (k : _) (b : _),
       let x := s.engine e
       let ball (k : Nat) := (x.ibase + k) % 48
       k < x.icnt ∧ k < 8 ∧ capturedDrive s 0 (ball k) = some b) ∧
    (∃ (s : State) (e : EngineId) (k : _),
       let x := s.engine e
       let ball (k : Nat) := (x.ibase + k) % 48
       k < x.icnt ∧ k < 8 ∧ capturedDrive s 0 (ball k) = none ∧ seenOn s.lines.seen (ball k) = none) ∧
    (∃ (s : State) (e : EngineId) (lv : Byte) (i : _),
       let x := s.engine e
       (x.st ≠ .run ∨ s.running = false) ∧
         i ∈ [Instr.leHalt e, .leDrive e, .leDriveAll e, .leSample e lv, .leShout e, .leShin e lv, .leTimedAction e lv]) :=
  ⟨⟨(wS.setEngine 7 { Engine.reset with st := .run, load := [0, 0, 0, 0, 0] }), 7, by decide +kernel⟩,
   ⟨(wS.setEngine 7 { Engine.reset with st := .run, load := [0, 0, 0, 0, 0x1703] }), 7, 7, true, true,
    by decide +kernel⟩,
   ⟨(wS.setEngine 7 { Engine.reset with st := .run, load := [0, 0, 0, 0, 0x18FF] }), 7, 0xFF, by decide +kernel⟩,
   ⟨(wS.setEngine 7 { Engine.reset with st := .run, load := [0, 0, 0, 0, 0x2008] }), 7, 8, by decide +kernel⟩,
   ⟨(wS.setEngine 7 { Engine.reset with st := .run, load := [0, 0, 0, 0, 0x3700] }), 7, 7, false, none,
    by decide +kernel⟩,
   ⟨(wS.setEngine 7 { Engine.reset with st := .run, load := [0, 0, 0, 0, 0x4700] }), 7, 7, false, none,
    by decide +kernel⟩,
   ⟨(wS.setEngine 7 { Engine.reset with st := .run, load := [1, 0, 0, 0, 0x1703], mark := 1000 }), 7, 7, true, true,
    by decide +kernel⟩,
   ⟨(wS.setEngine 7 { Engine.reset with st := .run, load := [1, 0, 0, 0, 0x1703], mark := 1000, wait := .timed }), 7,
    7, true, true, by decide +kernel⟩,
   ⟨(wS.setEngine 7 { Engine.reset with st := .run, load := [1, 0, 0, 0, 0x1703], wait := .timed }), 7, 7, true,
    true, by decide +kernel⟩,
   ⟨wS.setEngine 7 { Engine.reset with st := .run, load := [1, 0, 0, 0, 0x1703], mark := 1 }, 7, 7, true, true,
    by decide +kernel⟩,
   ⟨wS.setEngine 7 { Engine.reset with st := .run, load := [1, 0, 0, 0, 0x2008], mark := 1 }, 7, 8,
    by decide +kernel⟩,
   ⟨wS.setEngine 7 { Engine.reset with st := .run, load := [1, 0, 0, 0, 0x2008], wait := .timed }, 7, 8,
    by decide +kernel⟩,
   ⟨wS.setEngine 7 { Engine.reset with st := .run, load := [1, 0, 0, 0, 0x2008], wait := .timed, hit := some 0 }, 7,
    8, 0, by decide +kernel⟩,
   ⟨wClk 2 (wS.setEngine 7 { Engine.reset with st := .run, load := [1, 0, 0, 0, 0x2008], wait := .timed, hit := some 0 }),
    7, 8, 0, by decide +kernel⟩,
   ⟨{ wS.setEngine 7 { Engine.reset with load := [0, 0x117800] } with lines := { wS.lines with edges := List.replicate 4 ⟨0, 64, 64⟩ } },
    7, 7, true, by decide +kernel⟩,
   ⟨wS.setEngine 7 { Engine.reset with load := [0, 0x117800] }, 7, 7, by decide +kernel⟩,
   ⟨wS, 7, 0, .leHalt 7, by decide +kernel⟩⟩

/-- Every hypothesis of EngineMoves can be met, clause by clause. -/
theorem test_witness_engineMoves :
    (∃ (s : State) (e : EngineId) (ev : _) (n : _),
       let x := s.engine e
       let goes := s.running = true ∧ x.st = .run ∧ x.at_ ≤ s.time.clk
       let runs := goes ∧ x.wait = .none
       let d : Nat := 0
       runs ∧ x.op = .take ev n d ∧ x.thFull = true) ∧
    (∃ (s : State) (e : EngineId) (ev : _) (n : _),
       let x := s.engine e
       let goes := s.running = true ∧ x.st = .run ∧ x.at_ ≤ s.time.clk
       let runs := goes ∧ x.wait = .none
       let d : Nat := 0
       runs ∧ x.op = .take ev n d ∧ x.thFull = false ∧ n = true) ∧
    (∃ (s : State) (e : EngineId) (ev : _) (n : _),
       let x := s.engine e
       let goes := s.running = true ∧ x.st = .run ∧ x.at_ ≤ s.time.clk
       let runs := goes ∧ x.wait = .none
       let d : Nat := 0
       runs ∧ x.op = .take ev n d ∧ x.thFull = false ∧ n = false) ∧
    (∃ (s : State) (e : EngineId) (ev : _) (n : _),
       let x := s.engine e
       let goes := s.running = true ∧ x.st = .run ∧ x.at_ ≤ s.time.clk
       let runs := goes ∧ x.wait = .none
       let d : Nat := 1
       runs ∧ x.op = .take ev n d ∧ x.thFull = true) ∧
    (∃ (s : State) (e : EngineId) (ev : _) (n : _),
       let x := s.engine e
       let goes := s.running = true ∧ x.st = .run ∧ x.at_ ≤ s.time.clk
       let runs := goes ∧ x.wait = .none
       let d : Nat := 1
       runs ∧ x.op = .take ev n d ∧ x.thFull = false ∧ n = true) ∧
    (∃ (s : State) (e : EngineId) (ev : _) (n : _),
       let x := s.engine e
       let goes := s.running = true ∧ x.st = .run ∧ x.at_ ≤ s.time.clk
       let runs := goes ∧ x.wait = .none
       let d : Nat := 1
       runs ∧ x.op = .take ev n d ∧ x.thFull = false ∧ n = false) ∧
    (∃ (s : State) (e : EngineId) (ev : _) (n : _),
       let x := s.engine e
       let goes := s.running = true ∧ x.st = .run ∧ x.at_ ≤ s.time.clk
       let runs := goes ∧ x.wait = .none
       let d : Nat := 2
       runs ∧ x.op = .take ev n d ∧ x.thFull = true) ∧
    (∃ (s : State) (e : EngineId) (ev : _) (n : _),
       let x := s.engine e
       let goes := s.running = true ∧ x.st = .run ∧ x.at_ ≤ s.time.clk
       let runs := goes ∧ x.wait = .none
       let d : Nat := 2
       runs ∧ x.op = .take ev n d ∧ x.thFull = false ∧ n = true) ∧
    (∃ (s : State) (e : EngineId) (ev : _) (n : _),
       let x := s.engine e
       let goes := s.running = true ∧ x.st = .run ∧ x.at_ ≤ s.time.clk
       let runs := goes ∧ x.wait = .none
       let d : Nat := 2
       runs ∧ x.op = .take ev n d ∧ x.thFull = false ∧ n = false) ∧
    (∃ (s : State) (e : EngineId) (ev : _) (n : _),
       let x := s.engine e
       let goes := s.running = true ∧ x.st = .run ∧ x.at_ ≤ s.time.clk
       let runs := goes ∧ x.wait = .none
       let d : Nat := 3
       runs ∧ x.op = .take ev n d ∧ x.thFull = true) ∧
    (∃ (s : State) (e : EngineId) (ev : _) (n : _),
       let x := s.engine e
       let goes := s.running = true ∧ x.st = .run ∧ x.at_ ≤ s.time.clk
       let runs := goes ∧ x.wait = .none
       let d : Nat := 3
       runs ∧ x.op = .take ev n d ∧ x.thFull = false ∧ n = true) ∧
    (∃ (s : State) (e : EngineId) (ev : _) (n : _),
       let x := s.engine e
       let goes := s.running = true ∧ x.st = .run ∧ x.at_ ≤ s.time.clk
       let runs := goes ∧ x.wait = .none
       let d : Nat := 3
       runs ∧ x.op = .take ev n d ∧ x.thFull = false ∧ n = false) ∧
    (∃ (s : State) (e : EngineId) (ev : _) (n : _),
       let x := s.engine e
       let goes := s.running = true ∧ x.st = .run ∧ x.at_ ≤ s.time.clk
       let runs := goes ∧ x.wait = .none
       let d : Nat := 0
       runs ∧ x.op = .give ev n d ∧ x.ghFull = false) ∧
    (∃ (s : State) (e : EngineId) (ev : _) (n : _),
       let x := s.engine e
       let goes := s.running = true ∧ x.st = .run ∧ x.at_ ≤ s.time.clk
       let runs := goes ∧ x.wait = .none
       let d : Nat := 0
       runs ∧ x.op = .give ev n d ∧ x.ghFull = true ∧ n = true) ∧
    (∃ (s : State) (e : EngineId) (ev : _) (n : _),
       let x := s.engine e
       let goes := s.running = true ∧ x.st = .run ∧ x.at_ ≤ s.time.clk
       let runs := goes ∧ x.wait = .none
       let d : Nat := 0
       runs ∧ x.op = .give ev n d ∧ x.ghFull = true ∧ n = false) ∧
    (∃ (s : State) (e : EngineId) (ev : _) (n : _),
       let x := s.engine e
       let goes := s.running = true ∧ x.st = .run ∧ x.at_ ≤ s.time.clk
       let runs := goes ∧ x.wait = .none
       let d : Nat := 1
       runs ∧ x.op = .give ev n d ∧ x.ghFull = false) ∧
    (∃ (s : State) (e : EngineId) (ev : _) (n : _),
       let x := s.engine e
       let goes := s.running = true ∧ x.st = .run ∧ x.at_ ≤ s.time.clk
       let runs := goes ∧ x.wait = .none
       let d : Nat := 1
       runs ∧ x.op = .give ev n d ∧ x.ghFull = true ∧ n = true) ∧
    (∃ (s : State) (e : EngineId) (ev : _) (n : _),
       let x := s.engine e
       let goes := s.running = true ∧ x.st = .run ∧ x.at_ ≤ s.time.clk
       let runs := goes ∧ x.wait = .none
       let d : Nat := 1
       runs ∧ x.op = .give ev n d ∧ x.ghFull = true ∧ n = false) ∧
    (∃ (s : State) (e : EngineId) (ev : _) (n : _),
       let x := s.engine e
       let goes := s.running = true ∧ x.st = .run ∧ x.at_ ≤ s.time.clk
       let runs := goes ∧ x.wait = .none
       let d : Nat := 2
       runs ∧ x.op = .give ev n d ∧ x.ghFull = false) ∧
    (∃ (s : State) (e : EngineId) (ev : _) (n : _),
       let x := s.engine e
       let goes := s.running = true ∧ x.st = .run ∧ x.at_ ≤ s.time.clk
       let runs := goes ∧ x.wait = .none
       let d : Nat := 2
       runs ∧ x.op = .give ev n d ∧ x.ghFull = true ∧ n = true) ∧
    (∃ (s : State) (e : EngineId) (ev : _) (n : _),
       let x := s.engine e
       let goes := s.running = true ∧ x.st = .run ∧ x.at_ ≤ s.time.clk
       let runs := goes ∧ x.wait = .none
       let d : Nat := 2
       runs ∧ x.op = .give ev n d ∧ x.ghFull = true ∧ n = false) ∧
    (∃ (s : State) (e : EngineId) (ev : _) (n : _),
       let x := s.engine e
       let goes := s.running = true ∧ x.st = .run ∧ x.at_ ≤ s.time.clk
       let runs := goes ∧ x.wait = .none
       let d : Nat := 3
       runs ∧ x.op = .give ev n d ∧ x.ghFull = false) ∧
    (∃ (s : State) (e : EngineId) (ev : _) (n : _),
       let x := s.engine e
       let goes := s.running = true ∧ x.st = .run ∧ x.at_ ≤ s.time.clk
       let runs := goes ∧ x.wait = .none
       let d : Nat := 3
       runs ∧ x.op = .give ev n d ∧ x.ghFull = true ∧ n = true) ∧
    (∃ (s : State) (e : EngineId) (ev : _) (n : _),
       let x := s.engine e
       let goes := s.running = true ∧ x.st = .run ∧ x.at_ ≤ s.time.clk
       let runs := goes ∧ x.wait = .none
       let d : Nat := 3
       runs ∧ x.op = .give ev n d ∧ x.ghFull = true ∧ n = false) ∧
    (∃ (s : State) (e : EngineId) (ev : _) (n : _) (d : _),
       let x := s.engine e
       let goes := s.running = true ∧ x.st = .run ∧ x.at_ ≤ s.time.clk
       goes ∧ x.wait = .stall ∧ x.op = .take ev n d ∧ x.thFull = false) ∧
    (∃ (s : State) (e : EngineId) (ev : _) (n : _) (d : _),
       let x := s.engine e
       let goes := s.running = true ∧ x.st = .run ∧ x.at_ ≤ s.time.clk
       goes ∧ x.wait = .stall ∧ x.op = .take ev n d ∧ x.thFull = true) ∧
    (∃ (s : State) (e : EngineId) (ev : _) (n : _) (d : _),
       let x := s.engine e
       let goes := s.running = true ∧ x.st = .run ∧ x.at_ ≤ s.time.clk
       goes ∧ x.wait = .stall ∧ x.op = .give ev n d ∧ x.ghFull = true) ∧
    (∃ (s : State) (e : EngineId) (ev : _) (n : _) (d : _),
       let x := s.engine e
       let goes := s.running = true ∧ x.st = .run ∧ x.at_ ≤ s.time.clk
       goes ∧ x.wait = .stall ∧ x.op = .give ev n d ∧ x.ghFull = false) ∧
    (∃ (s : State) (e : EngineId) (k : _) (imm : _),
       let x := s.engine e
       let goes := s.running = true ∧ x.st = .run ∧ x.at_ ≤ s.time.clk
       let runs := goes ∧ x.wait = .none
       let d : Nat := 0
       runs ∧ x.op = .count k d imm) ∧
    (∃ (s : State) (e : EngineId) (k : _) (imm : _),
       let x := s.engine e
       let goes := s.running = true ∧ x.st = .run ∧ x.at_ ≤ s.time.clk
       let runs := goes ∧ x.wait = .none
       let d : Nat := 1
       runs ∧ x.op = .count k d imm) ∧
    (∃ (s : State) (e : EngineId) (k : _) (imm : _),
       let x := s.engine e
       let goes := s.running = true ∧ x.st = .run ∧ x.at_ ≤ s.time.clk
       let runs := goes ∧ x.wait = .none
       let d : Nat := 2
       runs ∧ x.op = .count k d imm) ∧
    (∃ (s : State) (e : EngineId) (k : _) (imm : _),
       let x := s.engine e
       let goes := s.running = true ∧ x.st = .run ∧ x.at_ ≤ s.time.clk
       let runs := goes ∧ x.wait = .none
       let d : Nat := 3
       runs ∧ x.op = .count k d imm) ∧
    (∃ (s : State) (e : EngineId) (imm : _),
       let x := s.engine e
       let goes := s.running = true ∧ x.st = .run ∧ x.at_ ≤ s.time.clk
       let runs := goes ∧ x.wait = .none
       let d : Nat := 0
       runs ∧ x.op = .stamp d imm) ∧
    (∃ (s : State) (e : EngineId) (imm : _),
       let x := s.engine e
       let goes := s.running = true ∧ x.st = .run ∧ x.at_ ≤ s.time.clk
       let runs := goes ∧ x.wait = .none
       let d : Nat := 1
       runs ∧ x.op = .stamp d imm) ∧
    (∃ (s : State) (e : EngineId) (imm : _),
       let x := s.engine e
       let goes := s.running = true ∧ x.st = .run ∧ x.at_ ≤ s.time.clk
       let runs := goes ∧ x.wait = .none
       let d : Nat := 2
       runs ∧ x.op = .stamp d imm) ∧
    (∃ (s : State) (e : EngineId) (imm : _),
       let x := s.engine e
       let goes := s.running = true ∧ x.st = .run ∧ x.at_ ≤ s.time.clk
       let runs := goes ∧ x.wait = .none
       let d : Nat := 3
       runs ∧ x.op = .stamp d imm) ∧
    (∃ (s : State) (e : EngineId) (imm : _),
       let x := s.engine e
       let goes := s.running = true ∧ x.st = .run ∧ x.at_ ≤ s.time.clk
       let runs := goes ∧ x.wait = .none
       let d : Nat := 4
       runs ∧ x.op = .stamp d imm) ∧
    (∃ (s : State) (e : EngineId) (imm : _),
       let x := s.engine e
       let goes := s.running = true ∧ x.st = .run ∧ x.at_ ≤ s.time.clk
       let runs := goes ∧ x.wait = .none
       let d : Nat := 5
       runs ∧ x.op = .stamp d imm) ∧
    (∃ (s : State) (e : EngineId) (n : _) (j : _) (t : _),
       let x := s.engine e
       let goes := s.running = true ∧ x.st = .run ∧ x.at_ ≤ s.time.clk
       let runs := goes ∧ x.wait = .none
       runs ∧ x.op = .branch n j t ∧ n ≤ 9) ∧
    (∃ (s : State) (e : EngineId) (pv : Byte) (lv : Byte) (n : _) (t : _) (j : _),
       let x := s.engine e
       let goes := s.running = true ∧ x.st = .run ∧ x.at_ ≤ s.time.clk
       let runs := goes ∧ x.wait = .none
       let was := inBefore s e pv
       let pins := inLevels s e lv
       let edge := (n = 1 ∧ was.getLsbD j = false ∧ pins.getLsbD j = true) ∨
         (n = 2 ∧ was.getLsbD j = true ∧ pins.getLsbD j = false)
       runs ∧ x.op = .await n t j ∧ edge) ∧
    (∃ (s : State) (e : EngineId) (lv : Byte) (n : _) (t : _) (j : _),
       let x := s.engine e
       let h := s.time.hive
       let goes := s.running = true ∧ x.st = .run ∧ x.at_ ≤ s.time.clk
       let runs := goes ∧ x.wait = .none
       let pins := inLevels s e lv
       let other := (n = 0 ∧ x.mark ≤ h) ∨ (n = 3 ∧ pins.getLsbD j = true) ∨ (n = 4 ∧ pins.getLsbD j = false) ∨
         (n = 5 ∧ x.thFull = true) ∨ (n = 6 ∧ x.ghFull = false)
       runs ∧ x.op = .await n t j ∧ other) ∧
    (∃ (s : State) (e : EngineId) (pv : Byte) (lv : Byte) (n : _) (t : _) (j : _),
       let x := s.engine e
       let h := s.time.hive
       let goes := s.running = true ∧ x.st = .run ∧ x.at_ ≤ s.time.clk
       let runs := goes ∧ x.wait = .none
       let was := inBefore s e pv
       let pins := inLevels s e lv
       let edge := (n = 1 ∧ was.getLsbD j = false ∧ pins.getLsbD j = true) ∨
         (n = 2 ∧ was.getLsbD j = true ∧ pins.getLsbD j = false)
       let other := (n = 0 ∧ x.mark ≤ h) ∨ (n = 3 ∧ pins.getLsbD j = true) ∨ (n = 4 ∧ pins.getLsbD j = false) ∨
         (n = 5 ∧ x.thFull = true) ∨ (n = 6 ∧ x.ghFull = false)
       runs ∧ x.op = .await n t j ∧ n ≤ 6 ∧ ¬ edge ∧ ¬ other ∧ t = true ∧ x.mark ≤ h) ∧
    (∃ (s : State) (e : EngineId) (pv : Byte) (lv : Byte) (n : _) (t : _) (j : _),
       let x := s.engine e
       let h := s.time.hive
       let goes := s.running = true ∧ x.st = .run ∧ x.at_ ≤ s.time.clk
       let runs := goes ∧ x.wait = .none
       let was := inBefore s e pv
       let pins := inLevels s e lv
       let edge := (n = 1 ∧ was.getLsbD j = false ∧ pins.getLsbD j = true) ∨
         (n = 2 ∧ was.getLsbD j = true ∧ pins.getLsbD j = false)
       let other := (n = 0 ∧ x.mark ≤ h) ∨ (n = 3 ∧ pins.getLsbD j = true) ∨ (n = 4 ∧ pins.getLsbD j = false) ∨
         (n = 5 ∧ x.thFull = true) ∨ (n = 6 ∧ x.ghFull = false)
       runs ∧ x.op = .await n t j ∧ n ≤ 6 ∧ ¬ edge ∧ ¬ other ∧ (t = false ∨ h < x.mark)) ∧
    (∃ (s : State) (e : EngineId) (pv : Byte) (lv : Byte) (n : _) (t : _) (j : _),
       let x := s.engine e
       let goes := s.running = true ∧ x.st = .run ∧ x.at_ ≤ s.time.clk
       let was := inBefore s e pv
       let pins := inLevels s e lv
       let edge := (n = 1 ∧ was.getLsbD j = false ∧ pins.getLsbD j = true) ∨
         (n = 2 ∧ was.getLsbD j = true ∧ pins.getLsbD j = false)
       goes ∧ x.wait = .await ∧ x.op = .await n t j ∧ edge) ∧
    (∃ (s : State) (e : EngineId) (lv : Byte) (n : _) (t : _) (j : _),
       let x := s.engine e
       let h := s.time.hive
       let goes := s.running = true ∧ x.st = .run ∧ x.at_ ≤ s.time.clk
       let pins := inLevels s e lv
       let other := (n = 0 ∧ x.mark ≤ h) ∨ (n = 3 ∧ pins.getLsbD j = true) ∨ (n = 4 ∧ pins.getLsbD j = false) ∨
         (n = 5 ∧ x.thFull = true) ∨ (n = 6 ∧ x.ghFull = false)
       goes ∧ x.wait = .await ∧ x.op = .await n t j ∧ other) ∧
    (∃ (s : State) (e : EngineId) (pv : Byte) (lv : Byte) (n : _) (t : _) (j : _),
       let x := s.engine e
       let h := s.time.hive
       let goes := s.running = true ∧ x.st = .run ∧ x.at_ ≤ s.time.clk
       let was := inBefore s e pv
       let pins := inLevels s e lv
       let edge := (n = 1 ∧ was.getLsbD j = false ∧ pins.getLsbD j = true) ∨
         (n = 2 ∧ was.getLsbD j = true ∧ pins.getLsbD j = false)
       let other := (n = 0 ∧ x.mark ≤ h) ∨ (n = 3 ∧ pins.getLsbD j = true) ∨ (n = 4 ∧ pins.getLsbD j = false) ∨
         (n = 5 ∧ x.thFull = true) ∨ (n = 6 ∧ x.ghFull = false)
       goes ∧ x.wait = .await ∧ x.op = .await n t j ∧ n ≤ 6 ∧ ¬ edge ∧ ¬ other ∧ t = true ∧ x.mark ≤ h) ∧
    (∃ (s : State) (e : EngineId) (pv : Byte) (lv : Byte) (n : _) (t : _) (j : _),
       let x := s.engine e
       let h := s.time.hive
       let goes := s.running = true ∧ x.st = .run ∧ x.at_ ≤ s.time.clk
       let was := inBefore s e pv
       let pins := inLevels s e lv
       let edge := (n = 1 ∧ was.getLsbD j = false ∧ pins.getLsbD j = true) ∨
         (n = 2 ∧ was.getLsbD j = true ∧ pins.getLsbD j = false)
       let other := (n = 0 ∧ x.mark ≤ h) ∨ (n = 3 ∧ pins.getLsbD j = true) ∨ (n = 4 ∧ pins.getLsbD j = false) ∨
         (n = 5 ∧ x.thFull = true) ∨ (n = 6 ∧ x.ghFull = false)
       goes ∧ x.wait = .await ∧ x.op = .await n t j ∧ n ≤ 6 ∧ ¬ edge ∧ ¬ other ∧ (t = false ∨ h < x.mark)) :=
  ⟨⟨wEng 0x5008 (fun y => { y with thFull := true }), 7, true, false, by decide +kernel⟩,
   ⟨wEng 0x5009, 7, true, true, by decide +kernel⟩,
   ⟨wEng 0x5008, 7, true, false, by decide +kernel⟩,
   ⟨wEng 0x500A (fun y => { y with thFull := true }), 7, true, false, by decide +kernel⟩,
   ⟨wEng 0x500B, 7, true, true, by decide +kernel⟩,
   ⟨wEng 0x500A, 7, true, false, by decide +kernel⟩,
   ⟨wEng 0x500C (fun y => { y with thFull := true }), 7, true, false, by decide +kernel⟩,
   ⟨wEng 0x500D, 7, true, true, by decide +kernel⟩,
   ⟨wEng 0x500C, 7, true, false, by decide +kernel⟩,
   ⟨wEng 0x500E (fun y => { y with thFull := true }), 7, true, false, by decide +kernel⟩,
   ⟨wEng 0x500F, 7, true, true, by decide +kernel⟩,
   ⟨wEng 0x500E, 7, true, false, by decide +kernel⟩,
   ⟨wEng 0x6008, 7, true, false, by decide +kernel⟩,
   ⟨wEng 0x6009 (fun y => { y with ghFull := true }), 7, true, true, by decide +kernel⟩,
   ⟨wEng 0x6008 (fun y => { y with ghFull := true }), 7, true, false, by decide +kernel⟩,
   ⟨wEng 0x600A, 7, true, false, by decide +kernel⟩,
   ⟨wEng 0x600B (fun y => { y with ghFull := true }), 7, true, true, by decide +kernel⟩,
   ⟨wEng 0x600A (fun y => { y with ghFull := true }), 7, true, false, by decide +kernel⟩,
   ⟨wEng 0x600C, 7, true, false, by decide +kernel⟩,
   ⟨wEng 0x600D (fun y => { y with ghFull := true }), 7, true, true, by decide +kernel⟩,
   ⟨wEng 0x600C (fun y => { y with ghFull := true }), 7, true, false, by decide +kernel⟩,
   ⟨wEng 0x600E, 7, true, false, by decide +kernel⟩,
   ⟨wEng 0x600F (fun y => { y with ghFull := true }), 7, true, true, by decide +kernel⟩,
   ⟨wEng 0x600E (fun y => { y with ghFull := true }), 7, true, false, by decide +kernel⟩,
   ⟨(wS.setEngine 7 { Engine.reset with st := .run, load := [0, 0, 0, 0, 0x500F], wait := .stall }), 7, true, true,
    3, by decide +kernel⟩,
   ⟨(wS.setEngine 7 { Engine.reset with st := .run, load := [0, 0, 0, 0, 0x500F], wait := .stall, thFull := true }),
    7, true, true, 3, by decide +kernel⟩,
   ⟨(wS.setEngine 7 { Engine.reset with st := .run, load := [0, 0, 0, 0, 0x600F], wait := .stall, ghFull := true }),
    7, true, true, 3, by decide +kernel⟩,
   ⟨(wS.setEngine 7 { Engine.reset with st := .run, load := [0, 0, 0, 0, 0x600F], wait := .stall }), 7, true, true,
    3, by decide +kernel⟩,
   ⟨wEng 0x89FF, 7, true, 511, by decide +kernel⟩,
   ⟨wEng 0x8A00, 7, true, 0, by decide +kernel⟩,
   ⟨wEng 0x8C00, 7, true, 0, by decide +kernel⟩,
   ⟨wEng 0x8FFF, 7, true, 511, by decide +kernel⟩,
   ⟨wEng 0xA000, 7, 0, by decide +kernel⟩,
   ⟨wEng 0xA200, 7, 0, by decide +kernel⟩,
   ⟨wEng 0xA5FF, 7, 511, by decide +kernel⟩,
   ⟨wEng 0xA600, 7, 0, by decide +kernel⟩,
   ⟨wEng 0xA800, 7, 0, by decide +kernel⟩,
   ⟨wEng 0xAA00, 7, 0, by decide +kernel⟩,
   ⟨(wS.setEngine 7 { Engine.reset with st := .run, load := [0, 0, 0, 0, 0x791F] }), 7, 9, 0, 31, by decide +kernel⟩,
   ⟨wEng 0x92E0, 7, 0, 0x80, 1, false, 7, by decide +kernel⟩,
   ⟨wEng 0x96E0, 7, 0x80, 3, false, 7, by decide +kernel⟩,
   ⟨wEng 0x97E0, 7, 0, 0x7F, 3, true, 7, by decide +kernel⟩,
   ⟨wEng 0x97E0 (fun y => { y with mark := 1 }), 7, 0, 0x7F, 3, true, 7, by decide +kernel⟩,
   ⟨wEng 0x92E0 (fun y => { y with wait := .await }), 7, 0, 0x80, 1, false, 7, by decide +kernel⟩,
   ⟨wEng 0x96E0 (fun y => { y with wait := .await }), 7, 0x80, 3, false, 7, by decide +kernel⟩,
   ⟨wEng 0x97E0 (fun y => { y with wait := .await }), 7, 0, 0x7F, 3, true, 7, by decide +kernel⟩,
   ⟨wEng 0x97E0 (fun y => { y with wait := .await, mark := 1 }), 7, 0, 0x7F, 3, true, 7, by decide +kernel⟩⟩

/-- Every hypothesis of PortFrames can be met, clause by clause. -/
theorem test_witness_portFrames :
    (∃ (s : State) (p : PortId) (d : _) (rest : _),
       let x := s.port p
       let q := s.queue x.txq
       let free := ¬ (p.val = 0 ∧ s.boot.mode = false ∧ s.boot.testEn = false)
       let master := s.running = true ∧ free ∧ x.st = .run ∧ x.slave = false ∧ x.mode = 0
       let sending := master ∧ x.mframe = none ∧ x.txen = true ∧ q.st = .run ∧ q.cons = 1 ∧ q.cinst = p.val
       let rested := x.held = none ∧ x.freeAt ≤ s.time.phys
       s.early = [] ∧ sending ∧ x.headFrm = false ∧ q.drain = d :: rest ∧ rested) ∧
    (∃ (s : State) (p : PortId) (d : _) (rest : _),
       let x := s.port p
       let q := s.queue x.txq
       let free := ¬ (p.val = 0 ∧ s.boot.mode = false ∧ s.boot.testEn = false)
       let master := s.running = true ∧ free ∧ x.st = .run ∧ x.slave = false ∧ x.mode = 0
       let sending := master ∧ x.mframe = none ∧ x.txen = true ∧ q.st = .run ∧ q.cons = 1 ∧ q.cinst = p.val
       let rested := x.held = none ∧ x.freeAt ≤ s.time.phys
       let may (d : QSlot) : Prop := d.tag.getLsbD 1 = true ∧ d.w.toNat / 2 ^ 16 % 2 ^ 13 ≤ 4096 ∧ (p.val = 1 ∨ d.w.toNat < 2 ^ 30)
       s.early = [] ∧ sending ∧ x.headFrm = true ∧ q.drain = d :: rest ∧ may d ∧ x.aw = 0 ∧ rested) ∧
    (∃ (s : State) (p : PortId) (d : _) (a : _) (rest : _),
       let x := s.port p
       let q := s.queue x.txq
       let free := ¬ (p.val = 0 ∧ s.boot.mode = false ∧ s.boot.testEn = false)
       let master := s.running = true ∧ free ∧ x.st = .run ∧ x.slave = false ∧ x.mode = 0
       let sending := master ∧ x.mframe = none ∧ x.txen = true ∧ q.st = .run ∧ q.cons = 1 ∧ q.cinst = p.val
       let rested := x.held = none ∧ x.freeAt ≤ s.time.phys
       let may (d : QSlot) : Prop := d.tag.getLsbD 1 = true ∧ d.w.toNat / 2 ^ 16 % 2 ^ 13 ≤ 4096 ∧ (p.val = 1 ∨ d.w.toNat < 2 ^ 30)
       s.early = [] ∧ sending ∧ x.headFrm = true ∧ q.drain = d :: a :: rest ∧ may d ∧ x.aw ≠ 0 ∧ rested) ∧
    (∃ (s : State) (p : PortId) (d : _),
       let x := s.port p
       let q := s.queue x.txq
       let free := ¬ (p.val = 0 ∧ s.boot.mode = false ∧ s.boot.testEn = false)
       let master := s.running = true ∧ free ∧ x.st = .run ∧ x.slave = false ∧ x.mode = 0
       let sending := master ∧ x.mframe = none ∧ x.txen = true ∧ q.st = .run ∧ q.cons = 1 ∧ q.cinst = p.val
       let may (d : QSlot) : Prop := d.tag.getLsbD 1 = true ∧ d.w.toNat / 2 ^ 16 % 2 ^ 13 ≤ 4096 ∧ (p.val = 1 ∨ d.w.toNat < 2 ^ 30)
       s.early = [] ∧ sending ∧ x.headFrm = true ∧ q.drain = [d] ∧ may d ∧ x.aw ≠ 0) ∧
    (∃ (s : State) (p : PortId) (d : _) (k : _),
       let x := s.port p
       let q := s.queue x.txq
       let free := ¬ (p.val = 0 ∧ s.boot.mode = false ∧ s.boot.testEn = false)
       let master := s.running = true ∧ free ∧ x.st = .run ∧ x.slave = false ∧ x.mode = 0
       let sending := master ∧ x.mframe = none ∧ x.txen = true ∧ q.st = .run ∧ q.cons = 1 ∧ q.cinst = p.val
       let may (d : QSlot) : Prop := d.tag.getLsbD 1 = true ∧ d.w.toNat / 2 ^ 16 % 2 ^ 13 ≤ 4096 ∧ (p.val = 1 ∨ d.w.toNat < 2 ^ 30)
       s.early = [] ∧ sending ∧ x.headFrm = true ∧ q.drain = [d] ∧ may d ∧ x.aw = 0 ∧ x.held = some k ∧
         k ≠ d.w.toNat / 2 ^ 30) ∧
    (∃ (s : State) (p : PortId) (d : _),
       let x := s.port p
       let q := s.queue x.txq
       let free := ¬ (p.val = 0 ∧ s.boot.mode = false ∧ s.boot.testEn = false)
       let master := s.running = true ∧ free ∧ x.st = .run ∧ x.slave = false ∧ x.mode = 0
       let sending := master ∧ x.mframe = none ∧ x.txen = true ∧ q.st = .run ∧ q.cons = 1 ∧ q.cinst = p.val
       let may (d : QSlot) : Prop := d.tag.getLsbD 1 = true ∧ d.w.toNat / 2 ^ 16 % 2 ^ 13 ≤ 4096 ∧ (p.val = 1 ∨ d.w.toNat < 2 ^ 30)
       s.early = [] ∧ sending ∧ x.headFrm = true ∧ q.drain = [d] ∧ ¬ may d) ∧
    (∃ (s : State) (p : PortId),
       let x := s.port p
       let q := s.queue x.txq
       let free := ¬ (p.val = 0 ∧ s.boot.mode = false ∧ s.boot.testEn = false)
       let master := s.running = true ∧ free ∧ x.st = .run ∧ x.slave = false ∧ x.mode = 0
       let sending := master ∧ x.mframe = none ∧ x.txen = true ∧ q.st = .run ∧ q.cons = 1 ∧ q.cinst = p.val
       s.early = [] ∧ (¬ sending ∨ q.drain = [])) ∧
    (∃ (s : State) (p : PortId) (m : _),
       let x := s.port p
       let free := ¬ (p.val = 0 ∧ s.boot.mode = false ∧ s.boot.testEn = false)
       let master := s.running = true ∧ free ∧ x.st = .run ∧ x.slave = false ∧ x.mode = 0
       s.early = [] ∧ master ∧ x.mframe = some m ∧ m.stage = .paused ∧ wordReady s p m = false) ∧
    (∃ (s : State) (p : PortId) (m : _),
       let x := s.port p
       let free := ¬ (p.val = 0 ∧ s.boot.mode = false ∧ s.boot.testEn = false)
       let master := s.running = true ∧ free ∧ x.st = .run ∧ x.slave = false ∧ x.mode = 0
       s.early = [] ∧ master ∧ x.mframe = some m ∧ m.stage = .paused ∧ wordReady s p m = true) ∧
    (∃ (s : State) (p : PortId) (m : _),
       let x := s.port p
       let free := ¬ (p.val = 0 ∧ s.boot.mode = false ∧ s.boot.testEn = false)
       let master := s.running = true ∧ free ∧ x.st = .run ∧ x.slave = false ∧ x.mode = 0
       s.early = [] ∧ master ∧ x.mframe = some m ∧ m.stage ≠ .done) ∧
    (∃ (s : State) (p : PortId) (m : _),
       let x := s.port p
       let free := ¬ (p.val = 0 ∧ s.boot.mode = false ∧ s.boot.testEn = false)
       let master := s.running = true ∧ free ∧ x.st = .run ∧ x.slave = false ∧ x.mode = 0
       s.early = [] ∧ master ∧ x.mframe = some m ∧ m.stage = .done) ∧
    (∃ (s : State) (p : PortId),
       let x := s.port p
       let free := ¬ (p.val = 0 ∧ s.boot.mode = false ∧ s.boot.testEn = false)
       let slave := s.running = true ∧ free ∧ x.st = .run ∧ x.slave = true ∧ x.mode = 0
       s.early = [] ∧ slave ∧ x.inframe = false) ∧
    (∃ (s : State) (p : PortId),
       let free := ¬ (p.val = 0 ∧ s.boot.mode = false ∧ s.boot.testEn = false)
       s.early = [] ∧ ¬ free ∧ s.running = true ∧ s.isReady .ports = true) ∧
    (∃ (s : State) (p : PortId),
       let free := ¬ (p.val = 0 ∧ s.boot.mode = false ∧ s.boot.testEn = false)
       s.early = [] ∧ ¬ free ∧ s.isReady .ports = false ∧ s.time.mode ≠ .off) ∧
    (∃ (s : State) (p : PortId) (f : _),
       let x := s.port p
       let free := ¬ (p.val = 0 ∧ s.boot.mode = false ∧ s.boot.testEn = false)
       let slave := s.running = true ∧ free ∧ x.st = .run ∧ x.slave = true ∧ x.mode = 0
       s.early = [] ∧ slave ∧ x.sframe = some f) ∧
    (∃ (s : State) (p : PortId),
       let x := s.port p
       let free := ¬ (p.val = 0 ∧ s.boot.mode = false ∧ s.boot.testEn = false)
       s.early = [] ∧ s.running = true ∧ free ∧ x.st = .run ∧ x.slave = false ∧ x.mmd = true ∧
         (x.inframe = false ∨ p.val = 1)) ∧
    (∃ (s : State) (p : PortId),
       let x := s.port p
       s.early = [] ∧ (x.mmd = false ∨ x.slave = true ∨ x.st ≠ .run)) :=
  ⟨⟨((wS.setPort 2 { Port.reset with st := .run, set := [0x7F00, 0, 0, 0] }).setQueue 63 { Queue.reset with st := .run, set1 := 0x1100, drain := [⟨1, 8, 0⟩] }),
    2, ⟨1, 8, 0⟩, [], by decide +kernel⟩,
   ⟨(wS.setPort 2 { Port.reset with st := .run, set := [0x7F20, 0, 0, 0] }).setQueue 63 { Queue.reset with st := .run, set1 := 0x1100, drain := [⟨0x10000000, 2, 0⟩] },
    2, ⟨0x10000000, 2, 0⟩, [], by decide +kernel⟩,
   ⟨(wS.setPort 2 { Port.reset with st := .run, set := [0x7F20, 0, 0x100, 0] }).setQueue 63 { Queue.reset with st := .run, set1 := 0x1100, drain := [⟨0x10000000, 2, 0⟩, ⟨0, 0, 0⟩] },
    2, ⟨0x10000000, 2, 0⟩, ⟨0, 0, 0⟩, [], by decide +kernel⟩,
   ⟨(wS.setPort 2 { Port.reset with st := .run, set := [0x7F20, 0, 0x100, 0] }).setQueue 63 { Queue.reset with st := .run, set1 := 0x1100, drain := [⟨0x10000000, 2, 0⟩] },
    2, ⟨0x10000000, 2, 0⟩, by decide +kernel⟩,
   ⟨(wS.setPort 2 { Port.reset with st := .run, set := [0x7F20, 0, 0, 0], held := some 1 }).setQueue 63 { Queue.reset with st := .run, set1 := 0x1100, drain := [⟨0x10000000, 2, 0⟩] },
    2, ⟨0x10000000, 2, 0⟩, 1, by decide +kernel⟩,
   ⟨(wS.setPort 2 { Port.reset with st := .run, set := [0x7F20, 0, 0, 0] }).setQueue 63 { Queue.reset with st := .run, set1 := 0x1100, drain := [⟨0, 0, 0⟩] },
    2, ⟨0, 0, 0⟩, by decide +kernel⟩,
   ⟨wS, 2, by decide +kernel⟩,
   ⟨wS.setPort 2 { Port.reset with st := .run, mframe := some { MFrame.idle with stage := .paused, send := true } },
    2, { MFrame.idle with stage := .paused, send := true }, by decide +kernel⟩,
   ⟨(wS.setPort 2 { Port.reset with st := .run, mframe := some { (default : MFrame) with stage := .paused } }), 2,
    { (default : MFrame) with stage := .paused }, by decide +kernel⟩,
   ⟨(wS.setPort 2 { Port.reset with st := .run, mframe := some { (default : MFrame) with stage := .tail } }), 2,
    { (default : MFrame) with stage := .tail }, by decide +kernel⟩,
   ⟨(wS.setPort 2 { Port.reset with st := .run, mframe := some { (default : MFrame) with stage := .done } }), 2,
    { (default : MFrame) with stage := .done }, by decide +kernel⟩,
   ⟨(wS.setPort 2 { Port.reset with st := .run, set := [1, 0, 0, 0] }), 2, by decide +kernel⟩,
   ⟨wS, 0, by decide +kernel⟩,
   ⟨State.reset, 0, by decide +kernel⟩,
   ⟨wS.setPort 2 { Port.reset with st := .run, set := [1, 0, 0, 0], sframe := some ⟨0, none, false, 0⟩ }, 2,
    ⟨0, none, false, 0⟩, by decide +kernel⟩,
   ⟨(wS.setPort 2 { Port.reset with st := .run, set := [0x40, 0, 0, 0] }), 2, by decide +kernel⟩,
   ⟨(wS.setPort 2 { Port.reset with st := .run, set := [1, 0, 0, 0] }), 2, by decide +kernel⟩⟩

/-- Every hypothesis of ChainEvents can be met, clause by clause. -/
theorem test_witness_chainEvents :
    (∃ (s : State) (p : PortId),
       let x := s.port p
       let free := s.running = true ∧ x.st = .run
       let daisy := free ∧ x.mode = 1
       s.early = [] ∧ daisy ∧ x.slave = true ∧ x.inframe = false) ∧
    (∃ (s : State) (p : PortId) (y : _),
       let x := s.port p
       let free := s.running = true ∧ x.st = .run
       let teth := free ∧ x.mode = 2 ∧ x.hive = true
       s.early = [] ∧ teth ∧ x.slave = true ∧ x.inframe = false ∧ s.hive.peers = [y] ∧ y.pos = 0) ∧
    (∃ (s : State) (p : PortId),
       let x := s.port p
       let free := s.running = true ∧ x.st = .run
       s.early = [] ∧ free ∧ x.mode ≠ 0 ∧ x.slave = true ∧ x.inframe = true) ∧
    (∃ (s : State) (p : PortId) (bits : Nat),
       let x := s.port p
       let free := s.running = true ∧ x.st = .run
       let daisy := free ∧ x.mode = 1
       s.early = [] ∧ daisy ∧ x.slave = true ∧ x.inframe = true ∧ bits = 0) ∧
    (∃ (s : State) (p : PortId) (bits : Nat),
       let x := s.port p
       let free := s.running = true ∧ x.st = .run
       let daisy := free ∧ x.mode = 1
       s.early = [] ∧ daisy ∧ x.slave = true ∧ x.inframe = true ∧ bits ≠ 0) ∧
    (∃ (s : State) (p : PortId) (bits : Nat),
       let x := s.port p
       let free := s.running = true ∧ x.st = .run
       let teth := free ∧ x.mode = 2 ∧ x.hive = true
       s.early = [] ∧ teth ∧ x.slave = true ∧ x.inframe = true ∧ bits ≠ 0 ∧ s.hive.peers = []) ∧
    (∃ (s : State) (p : PortId),
       let x := s.port p
       let q := s.queue x.rxq
       let free := s.running = true ∧ x.st = .run
       let daisy := free ∧ x.mode = 1
       let n := x.pos * x.segw
       let credit (k : Nat) : Prop := x.rxen = true ∧ q.st = .run ∧ q.prod = 3 ∧ q.pinst = p.val ∧ k ≤ q.cred
       s.early = [] ∧ daisy ∧ x.slave = false ∧ x.inframe = false ∧ x.held = none ∧ x.freeAt ≤ s.time.phys ∧
         0 < x.pos ∧ n ≤ x.stage.length ∧ (x.rxen = false ∨ credit n)) ∧
    (∃ (s : State) (p : PortId),
       let x := s.port p
       let q := s.queue x.rxq
       let free := s.running = true ∧ x.st = .run
       let daisy := free ∧ x.mode = 1
       let n := x.pos * x.segw
       let credit (k : Nat) : Prop := x.rxen = true ∧ q.st = .run ∧ q.prod = 3 ∧ q.pinst = p.val ∧ k ≤ q.cred
       s.early = [] ∧ daisy ∧ x.slave = false ∧ (x.stage.length < n ∨ (x.rxen = true ∧ ¬ credit n))) ∧
    (∃ (s : State) (p : PortId),
       let x := s.port p
       let free := s.running = true ∧ x.st = .run
       let teth := free ∧ x.mode = 2 ∧ x.hive = true
       s.early = [] ∧ teth ∧ x.slave = false ∧ x.inframe = false ∧ x.freeAt ≤ s.time.phys ∧ sweepDue s = true) ∧
    (∃ (s : State) (p : PortId) (m : _),
       let x := s.port p
       let free := s.running = true ∧ x.st = .run
       let daisy := free ∧ x.mode = 1
       s.early = [] ∧ daisy ∧ x.slave = false ∧ x.mframe = some m ∧ m.stage = .done) ∧
    (∃ (s : State) (p : PortId),
       let x := s.port p
       s.early = [] ∧ x.mframe = none) ∧
    (∃ (s : State) (p : PortId) (m : _),
       let x := s.port p
       s.early = [] ∧ x.mframe = some m ∧ m.stage ≠ .done) ∧
    (∃ (s : State) (p : PortId),
       let x := s.port p
       let free := s.running = true ∧ x.st = .run
       let teth := free ∧ x.mode = 2 ∧ x.hive = true
       s.early = [] ∧ p.val = 2 ∧ teth ∧ x.slave = true ∧ s.hive.latchAt + 192000 ≤ s.time.phys ∧ s.hive.peers = []) ∧
    (∃ (s : State) (p : PortId),
       s.early = [] ∧ (p.val ≠ 2 ∨ s.time.phys < s.hive.latchAt + 192000)) ∧
    (∃ (s : State) (a : _) (d : _) (m : _),
       let now := s.time.hive
       s.early = [] ∧ parentOf s = some (a, true, d) ∧ s.running = true ∧ s.hive.on = true ∧ s.hive.teth = 2 ∧
         s.hive.addr * 192000 ≤ now ∧ m = (now - s.hive.addr * 192000) / s.hive.ts + 1 ∧ s.hive.syncIx ≠ m) ∧
    (∃ (s : State),
       s.early = [] ∧ parentOf s = none) :=
  ⟨⟨(wS.setPort 2 { Port.reset with st := .run, set := [3, 0, 0, 0x41] }), 2, by decide +kernel⟩,
   ⟨((wHs { wHv with peers := [⟨0, 0, true, 0, 0, false, [], 0, false, false, [], false⟩] }).setPort 2 { Port.reset with st := .run, set := [5, 0, 0, 0x41], hive := true }),
    2, ⟨0, 0, true, 0, 0, false, [], 0, false, false, [], false⟩, by decide +kernel⟩,
   ⟨(wS.setPort 2 { Port.reset with st := .run, set := [3, 0, 0, 0x41], inframe := true }), 2, by decide +kernel⟩,
   ⟨(wS.setPort 2 { Port.reset with st := .run, set := [3, 0, 0, 0x41], inframe := true }), 2, 0, by decide +kernel⟩,
   ⟨(wS.setPort 2 { Port.reset with st := .run, set := [3, 0, 0, 0x41], inframe := true }), 2, 31, by decide +kernel⟩,
   ⟨wS.setPort 2 { Port.reset with st := .run, set := [5, 0, 0, 0x41], inframe := true, hive := true }, 2, 1,
    by decide +kernel⟩,
   ⟨wS.setPort 2 { Port.reset with st := .run, set := [2, 0, 0, 0x41], stage := [(0, false, 0)] }, 2,
    by decide +kernel⟩,
   ⟨(wS.setPort 2 { Port.reset with st := .run, set := [2, 0, 0, 0x41] }), 2, by decide +kernel⟩,
   ⟨((wHs { wHv with sweepIx := 1 }).setPort 2 { Port.reset with st := .run, set := [4, 0, 0, 0x41], hive := true }),
    2, by decide +kernel⟩,
   ⟨wS.setPort 2 { Port.reset with st := .run, set := [2, 0, 0, 0x41], mframe := some { MFrame.idle with stage := .done } },
    2, { MFrame.idle with stage := .done }, by decide +kernel⟩,
   ⟨wS, 0, by decide +kernel⟩,
   ⟨wS.setPort 0 { Port.reset with mframe := some MFrame.idle }, 0, MFrame.idle, by decide +kernel⟩,
   ⟨({ wS with time := { wS.time with phys := 192000 } }.setPort 2 { Port.reset with st := .run, set := [5, 0, 0, 0x41], hive := true }),
    2, by decide +kernel⟩,
   ⟨wS, 2, by decide +kernel⟩,
   ⟨{ (wHs { wHv with join := [0x00800000, 0x600000, 0xC005, 0], peers := [⟨1, 2, true, 0, 0, false, [], 0, false, false, [], false⟩], leases := vset wHv.leases 0 (some ⟨2, 9, 0, true, 0, 0, 0, 6, 0, none⟩) }) with time := { wS.time with hive := 192000 } },
    2, 6, 1, by decide +kernel⟩,
   ⟨(wHs { wHv with rootUid := 7 }), by decide +kernel⟩⟩

/-- Every hypothesis of Dispatching can be met, clause by clause. -/
theorem test_witness_dispatching :
    (∃ (s : State) (c : CoreId) (k : Fin 256) (b : _) (e : _) (rest : _),
       let free := s.running = true ∧ s.isReady (coreFunc c) = true ∧ (s.core c).inv = none ∧ (s.core c).paused = false ∧
         s.therm.stop = none ∧ s.sleep.entry = none
       let noHost := s.host.req = none ∨ c ≠ 0
       free ∧ noHost ∧ vget s.bindings k = some b ∧ b.pend = e :: rest ∧
         (b.coreSel = 0 ∧ c ≠ 0 ∨ b.coreSel = 5 ∧ c = 0 ∨ (b.coreSel ≠ 0 ∧ b.coreSel ≠ 5 ∧ b.coreSel.toNat = c.val)) ∧
         (s.tenant b.tenant).qout = false) ∧
    (∃ (s : State) (c : CoreId) (k : Fin 256) (d : _) (b : _) (e : _) (rest : _),
       let free := s.running = true ∧ s.isReady (coreFunc c) = true ∧ (s.core c).inv = none ∧ (s.core c).paused = false ∧
         s.therm.stop = none ∧ s.sleep.entry = none
       let noHost := s.host.req = none ∨ c ≠ 0
       selectFor s c = some d ∧ free ∧ noHost ∧ d.pendingEv = true ∧ d.ix = k.val ∧ vget s.bindings k = some b ∧
         b.pend = e :: rest) ∧
    (∃ (s : State) (c : CoreId) (k : Fin 16) (d : _) (sv : _),
       let free := s.running = true ∧ s.isReady (coreFunc c) = true ∧ (s.core c).inv = none ∧ (s.core c).paused = false ∧
         s.therm.stop = none ∧ s.sleep.entry = none
       let noHost := s.host.req = none ∨ c ≠ 0
       selectFor s c = some d ∧ free ∧ noHost ∧ d.pendingEv = false ∧ d.ix = k.val ∧ vget s.ctx k = some sv) ∧
    (∃ (s : State) (c : CoreId),
       ((s.core c).inv ≠ none ∨ s.running = false)) ∧
    (∃ (s : State) (c : CoreId) (q : _),
       let free := s.running = true ∧ s.isReady (coreFunc c) = true ∧ (s.core c).inv = none ∧ (s.core c).paused = false ∧
         s.therm.stop = none ∧ s.sleep.entry = none
       let w := wordAt q.words 0
       c = 0 ∧ free ∧ (s.core c).stall = none ∧ s.host.req = some q ∧ q.opc = 0x30 ∧ q.left = 1 ∧ q.fcode = 0 ∧
         q.tag.toNat < 32 ∧ decodeCore 0 w = none) ∧
    (∃ (s : State) (c : CoreId) (q : _) (f : _),
       let free := s.running = true ∧ s.isReady (coreFunc c) = true ∧ (s.core c).inv = none ∧ (s.core c).paused = false ∧
         s.therm.stop = none ∧ s.sleep.entry = none
       let w := wordAt q.words 0
       c = 0 ∧ free ∧ (s.core c).stall = none ∧ s.host.req = some q ∧ q.opc = 0x30 ∧ q.left = 1 ∧ q.fcode = 0 ∧
         q.tag.toNat < 32 ∧ decodeCore 0 w = some (.qen 0 f) ∧ s.boot.phase ≠ .done) ∧
    (∃ (s : State) (c : CoreId) (q : _) (f : _),
       let free := s.running = true ∧ s.isReady (coreFunc c) = true ∧ (s.core c).inv = none ∧ (s.core c).paused = false ∧
         s.therm.stop = none ∧ s.sleep.entry = none
       let w := wordAt q.words 0
       c = 0 ∧ free ∧ (s.core c).stall = none ∧ s.host.req = some q ∧ q.opc = 0x30 ∧ q.left = 1 ∧ q.fcode = 0 ∧
         q.tag.toNat < 32 ∧ decodeCore 0 w = some (.bra 0 f) ∧ s.boot.phase = .done) ∧
    (∃ (s : State) (c : CoreId) (q : _) (f : _),
       let free := s.running = true ∧ s.isReady (coreFunc c) = true ∧ (s.core c).inv = none ∧ (s.core c).paused = false ∧
         s.therm.stop = none ∧ s.sleep.entry = none
       let w := wordAt q.words 0
       c = 0 ∧ free ∧ (s.core c).stall = none ∧ s.host.req = some q ∧ q.opc = 0x30 ∧ q.left = 1 ∧ q.fcode = 0 ∧
         q.tag.toNat < 32 ∧ decodeCore 0 w = some (.movl 0 f) ∧ s.boot.phase = .done) :=
  ⟨⟨{ wF with bindings := vset wF.bindings 255 (some ({ wBd with pend := [⟨7, 5, true, 0⟩] })) }, 0, 255,
    { wBd with pend := [⟨7, 5, true, 0⟩] }, ⟨7, 5, true, 0⟩, [], by decide +kernel⟩,
   ⟨{ wF with bindings := vset wF.bindings 255 (some ({ wBd with pend := [⟨7, 5, true, 0⟩] })) }, 0, 255,
    ⟨3, 5, true, 255, 0, 255⟩, { wBd with pend := [⟨7, 5, true, 0⟩] }, ⟨7, 5, true, 0⟩, [], wSel (by decide +kernel),
    by decide +kernel⟩,
   ⟨{ wF with ctx := vset wF.ctx 15 (some ⟨Regs.zero, wI, .ready, 0, 0⟩) }, 0, 15, ⟨7, 0, false, 256, 0, 15⟩,
    ⟨Regs.zero, wI, .ready, 0, 0⟩, wSel (by decide +kernel), by decide +kernel⟩,
   ⟨wS, 0, by decide +kernel⟩,
   ⟨{ wF with host := { HostSt.reset with req := some ⟨0x30, 31, [0], 1, [], [], 0, 0, 0⟩ } }, 0,
    ⟨0x30, 31, [0], 1, [], [], 0, 0, 0⟩, by decide +kernel⟩,
   ⟨{ { wF with boot := { wF.boot with phase := .waiting } } with host := { HostSt.reset with req := some ⟨0x30, 31, [0xA0000100], 1, [], [], 0, 0, 0⟩ } },
    0, ⟨0x30, 31, [0xA0000100], 1, [], [], 0, 0, 0⟩, ⟨0, 0, 0, 0⟩, by decide +kernel⟩,
   ⟨{ wF with host := { HostSt.reset with req := some ⟨0x30, 31, [0x30000000], 1, [], [], 0, 0, 0⟩ } }, 0,
    ⟨0x30, 31, [0x30000000], 1, [], [], 0, 0, 0⟩, ⟨0, 0⟩, by decide +kernel⟩,
   ⟨{ wF with host := { HostSt.reset with req := some ⟨0x30, 31, [0x09400400], 1, [], [], 0, 0, 0⟩ } }, 0,
    ⟨0x30, 31, [0x09400400], 1, [], [], 0, 0, 0⟩, ⟨5, 0, 0x400⟩, by decide +kernel⟩⟩

/-- Every hypothesis of TimersAndLimits can be met, clause by clause. -/
theorem test_witness_timersAndLimits :
    (∃ (s : State) (n : Fin 8) (cmp : _) (w : _),
       let x := vget s.timers n
       s.running = true ∧ s.sleep.entry = none ∧ x.kind = .at cmp w) ∧
    (∃ (s : State) (n : Fin 8) (cmp : _) (w : _) (z : _),
       let x := vget s.timers n
       s.running = true ∧ s.sleep.entry = none ∧ x.kind = .at cmp w ∧ x.due = some z) ∧
    (∃ (s : State) (n : Fin 8) (p : _) (nx : _),
       let x := vget s.timers n
       s.running = true ∧ s.sleep.entry = none ∧ x.kind = .every p nx) ∧
    (∃ (s : State) (n : Fin 8) (p : _) (nx : _) (z : _),
       let x := vget s.timers n
       s.running = true ∧ s.sleep.entry = none ∧ x.kind = .every p nx ∧ x.due = some z) ∧
    (∃ (s : State) (n : Fin 8),
       let x := vget s.timers n
       s.running = true ∧ s.sleep.entry = none ∧ x.kind = .off) ∧
    (∃ (s : State) (n : Fin 8),
       let x := vget s.timers n
       s.running = true ∧ s.sleep.entry = none ∧ x.due = none) ∧
    (∃ (s : State) (k : Fin 16) (sv : _) (src : _) (d : _) (rd : _) (e : _),
       s.running = true ∧ s.sleep.entry = none ∧ vget s.ctx k = some sv ∧ sv.kind = .waiting src (some d) rd e) ∧
    (∃ (s : State) (k : Fin 16) (sv : _) (src : _) (d : _) (rd : _) (e : _),
       s.running = true ∧ s.sleep.entry = none ∧ vget s.ctx k = some sv ∧ sv.kind = .waiting src (some d) rd e ∧
         e = true) ∧
    (∃ (s : State) (c : CoreId) (v : _),
       let standing := (s.core c).stall = none ∧ (s.core c).paused = false ∧ (s.core c).paid = 0
       s.running = true ∧ s.sleep.entry = none ∧ (s.core c).inv = some v ∧ standing ∧ v.stopped = false ∧
         v.revoked = false ∧ v.quotaOut = false ∧ v.budget ≠ 0 ∧ v.used < v.budget.toNat * 16) ∧
    (∃ (s : State) (c : CoreId) (v : _),
       let standing := (s.core c).stall = none ∧ (s.core c).paused = false ∧ (s.core c).paid = 0
       s.running = true ∧ s.sleep.entry = none ∧ (s.core c).inv = some v ∧ standing ∧ v.stopped = false ∧
         v.revoked = false ∧ v.quotaOut = false ∧ v.budget ≠ 0 ∧ v.budget.toNat * 16 ≤ v.used) ∧
    (∃ (s : State) (t : Tid),
       let y := s.tenant t
       s.running = true ∧ s.sleep.entry = none ∧ y.qout = true) ∧
    (∃ (s : State) (t : Tid),
       let y := s.tenant t
       s.running = true ∧ s.sleep.entry = none ∧ y.qout = false) ∧
    (∃ (s : State),
       s.running = true ∧ s.sleep.entry = none) :=
  ⟨⟨{ wS with timers := vset wS.timers 7 ⟨.at 0 true, 0, 0, 0, none, none⟩ }, 7, 0, true, by decide +kernel⟩,
   ⟨{ wS with timers := vset wS.timers 7 ⟨.at 0 true, 0, 0, 0, none, some 0⟩ }, 7, 0, true, 0, by decide +kernel⟩,
   ⟨{ wS with timers := vset wS.timers 7 ⟨.every 192 0, 0, 0, 0, none, none⟩ }, 7, 192, 0, by decide +kernel⟩,
   ⟨{ wS with timers := vset wS.timers 7 ⟨.every 192 0, 0, 0, 0, none, some 0⟩ }, 7, 192, 0, 0, by decide +kernel⟩,
   ⟨wS, 7, by decide +kernel⟩,
   ⟨wS, 7, by decide +kernel⟩,
   ⟨{ wS with ctx := vset wS.ctx 15 (some ⟨Regs.zero, wI, .waiting 0x30 (some 0) 2 false, 0, 0⟩) }, 15,
    ⟨Regs.zero, wI, .waiting 0x30 (some 0) 2 false, 0, 0⟩, 0x30, 0, 2, false, by decide +kernel⟩,
   ⟨{ wS with ctx := vset wS.ctx 15 (some ⟨Regs.zero, wI, .waiting 0x30 (some 0) 2 true, 0, 0⟩) }, 15,
    ⟨Regs.zero, wI, .waiting 0x30 (some 0) 2 true, 0, 0⟩, 0x30, 0, 2, true, by decide +kernel⟩,
   ⟨wS.setCore 0 { Core.idle with inv := some { wI with budget := 1, used := 15 } }, 0,
    { wI with budget := 1, used := 15 }, by decide +kernel⟩,
   ⟨wS.setCore 0 { Core.idle with inv := some { wI with budget := 1, used := 16 } }, 0,
    { wI with budget := 1, used := 16 }, by decide +kernel⟩,
   ⟨wS.setTenant 31 { Tenant.vacant with qout := true }, 31, by decide +kernel⟩,
   ⟨wS, 31, by decide +kernel⟩,
   ⟨wS, by decide +kernel⟩⟩

/-- Every hypothesis of StallEvents can be met, clause by clause. -/
theorem test_witness_stallEvents :
    (∃ (s : State) (c : CoreId) (st : Stall) (f : _) (u : _),
       let held := (s.core c).stall = some st ∧ (s.core c).paused = false
       exec (.qen c f) (s.setCore c { s.core c with stall := none, resuming := true }) = .next u ∧
         s.running = true ∧ held ∧ c ≠ 0 ∧ st.instr = .qen c f ∧ st.why = .start ∧ st.fetch = false ∧
         st.fn = .queues ∧ st.long = true ∧ s.isReady .queues = true ∧ vget s.sleep.upAt (Domain.idx .core) = none) ∧
    (∃ (s : State) (c : CoreId) (st : Stall),
       let held := (s.core c).stall = some st ∧ (s.core c).paused = false
       s.running = true ∧ held ∧ st.why = .start ∧ s.isReady st.fn = false ∧ s.hasFailed st.fn = false) ∧
    (∃ (s : State) (c : CoreId) (st : Stall) (t : _),
       let held := (s.core c).stall = some st ∧ (s.core c).paused = false
       s.running = true ∧ held ∧ st.why = .wake t ∧ s.time.phys < t ∧ s.hasFailed st.fn = false) ∧
    (∃ (s : State) (c : CoreId) (st : Stall) (a : _) (n : _),
       let held := (s.core c).stall = some st ∧ (s.core c).paused = false
       s.running = true ∧ held ∧ st.why = .flashOp a n ∧ flashServed a n (settleWake st s) = false) ∧
    (∃ (s : State) (c : CoreId) (st : Stall),
       let held := (s.core c).stall = some st ∧ (s.core c).paused = false
       s.running = true ∧ held ∧ st.why = .leaving ∧ s.hive.leaving ≠ none) ∧
    (∃ (s : State) (c : CoreId) (st : Stall) (t : _),
       let held := (s.core c).stall = some st ∧ (s.core c).paused = false
       s.running = true ∧ held ∧ st.why = .wake t ∧ s.time.phys ≤ t + wakeUs st.fn * 192) ∧
    (∃ (s : State) (c : CoreId) (st : Stall),
       let held := (s.core c).stall = some st ∧ (s.core c).paused = false
       s.running = true ∧ held ∧ ((∃ a n, st.why = .flashOp a n) ∨ st.why = .leaving)) ∧
    (∃ (s : State) (c : CoreId),
       s.running = true ∧ (s.core c).stall = none) ∧
    (∃ (s : State) (c : CoreId) (st : Stall) (f : _) (v : _),
       let held := (s.core c).stall = some st ∧ (s.core c).paused = false
       s.running = true ∧ held ∧ c ≠ 0 ∧ (s.core c).inv = some v ∧ st.instr = .aoutStart c f ∧ st.why = .start ∧
         st.fetch = false ∧ st.fn = .aout ∧ s.isReady .aout = false ∧ (s.core c).goAt ≤ s.time.clk ∧
         s.time.phys ≤ s.boot.relPhys + 163200) ∧
    (∃ (s : State) (c : CoreId) (st : Stall) (f : _) (v : _),
       let held := (s.core c).stall = some st ∧ (s.core c).paused = false
       s.running = true ∧ held ∧ c ≠ 0 ∧ (s.core c).inv = some v ∧ st.instr = .aoutStart c f ∧ st.why = .start ∧
         st.fetch = false ∧ st.fn = .aout ∧ s.isReady .aout = false ∧ (s.core c).goAt ≤ s.time.clk ∧
         s.boot.relPhys + 163200 < s.time.phys) ∧
    (∃ (s : State) (d : Domain),
       s.running = true ∧ d ≠ .sense ∧ s.domOn d = true ∧ domTouched d s = false ∧ idleDue d s = true) ∧
    (∃ (s : State),
       s.running = true ∧ s.domOn .sense = true ∧ domTouched .sense s = false ∧ sensorsOff s = true) ∧
    (∃ (s : State) (d : Domain),
       s.running = true ∧ (s.domOn d = false ∨ idleDue d s = false)) ∧
    (∃ (s : State) (d : Domain),
       s.running = true ∧ (d = .core ∨ d = .aon ∨ d = .sramCode ∨ d = .sramData)) :=
  ⟨⟨(wS.setCore 1 { Core.idle with inv := some wI, stall := some ⟨.qen 1 ⟨0, 0, 0, 0⟩, false, .queues, 0, 0, true, .start⟩ }),
    1, ⟨.qen 1 ⟨0, 0, 0, 0⟩, false, .queues, 0, 0, true, .start⟩, ⟨0, 0, 0, 0⟩,
    wNext (exec (.qen 1 ⟨0, 0, 0, 0⟩) (wS.setCore 1 { Core.idle with inv := some wI, resuming := true })), rfl,
    by decide +kernel⟩,
   ⟨((wBoot (fun b => { b with ready := 0 })).setCore 1 { Core.idle with inv := some wI, stall := some ⟨.aoutStart 1 ⟨0, 0, 0, 0⟩, false, .aout, 0, 0, true, .start⟩ }),
    1, ⟨.aoutStart 1 ⟨0, 0, 0, 0⟩, false, .aout, 0, 0, true, .start⟩, by decide +kernel⟩,
   ⟨wStall (.wake 1), 1, wStl (.wake 1), 1, by decide +kernel⟩,
   ⟨{ wStall (.flashOp 0 4) with journal := { JournalSt.reset with op := some ⟨.prog, 0, [.prog 0 [1]], (0, 0), 1, none, 0⟩ } },
    1, wStl (.flashOp 0 4), 0, 4, by decide +kernel⟩,
   ⟨{ wStall .leaving with hive := { HiveSt.reset with leaving := some 1 } }, 1, wStl .leaving, by decide +kernel⟩,
   ⟨wStall (.wake 0), 1, wStl (.wake 0), 0, by decide +kernel⟩,
   ⟨wStall .leaving, 1, wStl .leaving, by decide +kernel, by decide +kernel, .inr rfl⟩,
   ⟨wS, 0, by decide +kernel⟩,
   ⟨((wBoot (fun b => { b with ready := 0 })).setCore 1 { Core.idle with inv := some wI, stall := some ⟨.aoutStart 1 ⟨0, 0, 0, 0⟩, false, .aout, 0, 0, true, .start⟩ }),
    1, ⟨.aoutStart 1 ⟨0, 0, 0, 0⟩, false, .aout, 0, 0, true, .start⟩, ⟨0, 0, 0, 0⟩, wI, by decide +kernel⟩,
   ⟨((wPhys 163201 (wBoot (fun b => { b with ready := 0 }))).setCore 1 { Core.idle with inv := some wI, stall := some ⟨.aoutStart 1 ⟨0, 0, 0, 0⟩, false, .aout, 0, 0, true, .start⟩ }),
    1, ⟨.aoutStart 1 ⟨0, 0, 0, 0⟩, false, .aout, 0, 0, true, .start⟩, ⟨0, 0, 0, 0⟩, wI, by decide +kernel⟩,
   ⟨(wPhys 192000 wS), .comb, by decide +kernel⟩,
   ⟨wS, by decide +kernel⟩,
   ⟨wS, .comb, by decide +kernel⟩,
   ⟨wS, .sramData, by decide +kernel⟩⟩

/-- Every hypothesis of ResetEvents can be met, clause by clause. -/
theorem test_witness_resetEvents :
    (∃ (s : State),
       let quiet := s.journal.op = none ∧ s.journal.burn = none
       quiet ∧ s.time.mode = .off) ∧
    (∃ (s : State),
       s.time.mode ≠ .off) ∧
    (∃ (s : State) (ns : Nat),
       (s.time.mode = .off ∨ ns < 50)) ∧
    (∃ (s : State) (ns : Nat),
       let quiet := s.journal.op = none ∧ s.journal.burn = none
       quiet ∧ s.time.mode ≠ .off ∧ 200 ≤ ns) ∧
    (∃ (s : State) (ns : Nat),
       s.time.mode ≠ .off ∧ 50 ≤ ns ∧ ns < 200) ∧
    (∃ (s : State) (ns : Nat),
       (s.time.mode = .off ∨ ns < 100)) ∧
    (∃ (s : State) (ns : Nat),
       let quiet := s.journal.op = none ∧ s.journal.burn = none
       quiet ∧ s.time.mode ≠ .off ∧ 1000 ≤ ns) ∧
    (∃ (s : State) (ns : Nat),
       s.time.mode ≠ .off ∧ 100 ≤ ns ∧ ns < 1000) ∧
    (∃ (s : State) (t : _),
       s.time.mode = .releasing ∧ s.time.relAt = some t ∧ t ≤ s.time.phys ∧ s.time.relAck = false ∧
         s.time.phys % 24 = 0) ∧
    (∃ (s : State) (t : _),
       (s.time.mode ≠ .releasing ∨ (s.time.relAt = some t ∧ s.time.phys < t) ∨ s.time.relAck = true ∨ s.time.phys % 24 ≠ 0)) :=
  ⟨⟨{ wS with time := { wS.time with mode := .off } }, by decide +kernel⟩,
   ⟨wS, by decide +kernel⟩,
   ⟨wS, 49, by decide +kernel⟩,
   ⟨wS, 200, by decide +kernel⟩,
   ⟨wS, 199, by decide +kernel⟩,
   ⟨wS, 99, by decide +kernel⟩,
   ⟨wS, 1000, by decide +kernel⟩,
   ⟨wS, 999, by decide +kernel⟩,
   ⟨{ State.reset with time := { TimeSt.reset with phys := 28800 } }, 28800, by decide +kernel⟩,
   ⟨{ State.reset with time := { TimeSt.reset with phys := 28776 } }, 28800, by decide +kernel⟩⟩

/-- Every hypothesis of StartUpEvents can be met, clause by clause. -/
theorem test_witness_startUpEvents :
    (∃ (s : State) (f : Func),
       let b := s.boot
       let open_ := s.isReady f = false ∧ s.hasFailed f = false ∧ s.time.phys ≤ b.relPhys + usTicks (2 * readyUs f - 150)
       s.running = true ∧ f ∉ [Func.keeper, .journal, .thermal, .accA, .accB, .gyro, .aout] ∧ open_) ∧
    (∃ (s : State) (f : Func),
       let b := s.boot
       let open_ := s.isReady f = false ∧ s.hasFailed f = false ∧ s.time.phys ≤ b.relPhys + usTicks (2 * readyUs f - 150)
       s.running = true ∧ f = .keeper ∧ open_ ∧ b.testEn = false) ∧
    (∃ (s : State) (f : Func),
       let b := s.boot
       let open_ := s.isReady f = false ∧ s.hasFailed f = false ∧ s.time.phys ≤ b.relPhys + usTicks (2 * readyUs f - 150)
       s.running = true ∧ f = .thermal ∧ open_) ∧
    (∃ (s : State) (f : Func),
       let b := s.boot
       let open_ := s.isReady f = false ∧ s.hasFailed f = false ∧ s.time.phys ≤ b.relPhys + usTicks (2 * readyUs f - 150)
       s.running = true ∧ f = .aout ∧ open_ ∧ 2700 ≤ s.vaout) ∧
    (∃ (s : State) (f : Func),
       let b := s.boot
       let open_ := s.isReady f = false ∧ s.hasFailed f = false ∧ s.time.phys ≤ b.relPhys + usTicks (2 * readyUs f - 150)
       s.running = true ∧ f = .aout ∧ open_ ∧ s.vaout < 2700) ∧
    (∃ (s : State) (f : Func),
       let b := s.boot
       let open_ := s.isReady f = false ∧ s.hasFailed f = false ∧ s.time.phys ≤ b.relPhys + usTicks (2 * readyUs f - 150)
       s.running = true ∧ f = .gyro ∧ open_ ∧ (∀ c, (s.core c).stall = none)) ∧
    (∃ (s : State) (f : Func),
       let b := s.boot
       let open_ := s.isReady f = false ∧ s.hasFailed f = false ∧ s.time.phys ≤ b.relPhys + usTicks (2 * readyUs f - 150)
       s.running = true ∧ f = .journal ∧ open_ ∧ b.testEn = false ∧ b.jdecided = false ∧ findDescriptor s = none) ∧
    (∃ (s : State) (f : Func),
       let b := s.boot
       s.running = true ∧
         (s.isReady f = true ∨ s.hasFailed f = true ∨ b.relPhys + usTicks (2 * readyUs f - 150) < s.time.phys)) ∧
    (∃ (s : State) (f : Func),
       s.running = true ∧ s.isReady f = false ∧ s.hasFailed f = false ∧ 5 ≤ Func.idx f ∧ Func.idx f ≤ 13 ∧ f ≠ .flash) ∧
    (∃ (s : State) (f : Func),
       s.running = true ∧ (Func.idx f < 5 ∨ 13 < Func.idx f)) ∧
    (∃ (s : State) (f : Func),
       s.running = true ∧ f = .flash ∧ s.isReady f = false ∧ s.hasFailed f = false) ∧
    (∃ (s : State),
       let b := s.boot
       s.running = true ∧ s.isReady .ports = true ∧ b.mode = false ∧ b.phase = .waiting) ∧
    (∃ (s : State),
       let b := s.boot
       s.running = true ∧ s.isReady .ports = true ∧ b.mode = false ∧ b.phase = .thermal ∧ b.bell = none) ∧
    (∃ (s : State),
       let b := s.boot
       s.running = true ∧ ((b.phase ≠ .waiting ∧ b.phase ≠ .thermal) ∨ s.isReady .ports = false ∨ b.mode = true)) ∧
    (∃ (s : State) (e : _),
       let b := s.boot
       s.running = true ∧ b.phase = .armed e ∧ s.therm.stop = none ∧ e ≤ s.time.clk ∧ s.ecc = [] ∧
         s.unseen = ⟨[], []⟩ ∧ (memWord s.mem 0x201FFFFC).toNat ≠ (headerAt s 0x20100000).total) ∧
    (∃ (s : State) (e : _),
       let b := s.boot
       s.running = true ∧ b.phase = .armed e ∧ s.time.clk < e) ∧
    (∃ (s : State) (e : _),
       let b := s.boot
       s.running = true ∧ b.phase = .fixed e ∧ s.therm.stop = none ∧ e ≤ s.time.clk ∧ b.jdecided = true ∧
         s.hasFailed .flash = true) :=
  ⟨⟨(wBoot (fun b => { b with ready := 0 })), .ports, by decide +kernel⟩,
   ⟨(wBoot (fun b => { b with ready := 0 })), .keeper, by decide +kernel⟩,
   ⟨(wBoot (fun b => { b with ready := 0 })), .thermal, by decide +kernel⟩,
   ⟨(wBoot (fun b => { b with ready := 0 })), .aout, by decide +kernel⟩,
   ⟨{ (wBoot (fun b => { b with ready := 0 })) with vaout := 2699 }, .aout, by decide +kernel⟩,
   ⟨(wBoot (fun b => { b with ready := 0 })), .gyro, by decide +kernel⟩,
   ⟨{ (wBoot (fun b => { b with ready := 0 })) with mem := [(0x083FF000, 0)] }, .journal, by decide +kernel⟩,
   ⟨wS, .thermal, by decide +kernel⟩,
   ⟨(wBoot (fun b => { b with ready := 0 })), .radio, by decide +kernel⟩,
   ⟨wS, .thermal, by decide +kernel⟩,
   ⟨wBoot (fun b => { b with ready := 0 }), .flash, by decide +kernel⟩,
   ⟨(wBoot (fun b => { b with phase := .waiting })), by decide +kernel⟩,
   ⟨wBoot (fun b => { b with phase := .thermal }), by decide +kernel⟩,
   ⟨wS, by decide +kernel⟩,
   ⟨(wMem (wBoot (fun b => { b with phase := .armed 0 })) 0x201FFFFC [1]), 0, by decide +kernel⟩,
   ⟨(wBoot (fun b => { b with phase := .armed 1 })), 1, by decide +kernel⟩,
   ⟨(wBoot (fun b => { b with phase := .fixed 0, jdecided := true, fail := 0x7FFFF })), 0, by decide +kernel⟩⟩

/-- Every hypothesis of LoaderEvents can be met, clause by clause. -/
theorem test_witness_loaderEvents :
    (∃ (s : State) (l : Loader) (t : Tid) (r : _),
       let w := loaderAdvance s
       let m := w.loader.getD l
       let good := m.eccBad = none ∧ edVerify m.pubkey (spoolDigest m) m.sig = true
       installAll t m.binds w = .ok r ∧ s.running = true ∧ s.loader = some l ∧ l.target = .tenant t ∧
         l.phase = .loading ∧ l.revoked = false ∧ l.startClk + l.clocks ≤ s.time.clk ∧ good) ∧
    (∃ (s : State) (l : Loader),
       s.running = true ∧ s.loader = some l ∧ l.phase = .loading ∧ s.time.clk < l.startClk + l.clocks) ∧
    (∃ (s : State) (l : Loader),
       s.running = true ∧ s.loader = some l ∧ l.phase = .loading ∧ s.time.clk + 1 < l.startClk + l.clocks) ∧
    (∃ (s : State) (l : Loader) (r : _),
       let w := loaderAdvance s
       let m := w.loader.getD l
       let good := m.eccBad = none ∧ edVerify m.pubkey (spoolDigest m) m.sig = true
       installAll 0 m.binds w = .ok r ∧ s.running = true ∧ s.loader = some l ∧ l.target = .owner ∧
         l.phase = .loading ∧ l.startClk + l.clocks ≤ s.time.clk + 1 ∧ good) ∧
    (∃ (s : State) (l : Loader) (t : Tid),
       let w := loaderAdvance s
       let m := w.loader.getD l
       s.running = true ∧ s.loader = some l ∧ l.target = .tenant t ∧ l.phase = .loading ∧ l.revoked = false ∧
         m.eccBad = none ∧ edVerify m.pubkey (spoolDigest m) m.sig = false ∧
         l.startClk + 512 + l.pass + 250000 ≤ s.time.clk) ∧
    (∃ (s : State) (l : Loader) (t : Tid),
       let w := loaderAdvance s
       let m := w.loader.getD l
       s.running = true ∧ s.loader = some l ∧ l.target = .tenant t ∧ l.phase = .loading ∧ l.revoked = false ∧
         m.eccBad = none ∧ edVerify m.pubkey (spoolDigest m) m.sig = false ∧
         s.time.clk < l.startClk + 512 + l.pass + 250000) ∧
    (∃ (s : State) (l : Loader),
       s.running = true ∧ s.loader = some l ∧ l.phase = .loading ∧ l.revoked = true) ∧
    (∃ (s : State) (l : Loader) (t : Tid) (e : _),
       s.running = true ∧ s.loader = some l ∧ s.early = [] ∧ l.target = .tenant t ∧ l.phase = .cleanup e ∧
         e ≤ s.time.clk ∧ 0x20000000 ≤ l.win.1 ∧ l.win.1 + l.win.2 ≤ 0x20080000) ∧
    (∃ (s : State) (l : Loader) (e : _),
       s.running = true ∧ s.loader = some l ∧ s.early = [] ∧ l.phase = .cleanup e ∧ s.time.clk < e) ∧
    (∃ (s : State) (l : Loader),
       s.running = true ∧ s.loader = some l ∧ s.early = [] ∧ l.phase = .loading) :=
  ⟨⟨(wClk 250512 { wS with loader := some { wLd with pubkey := wKey, sig := wSig } }),
    { wLd with pubkey := wKey, sig := wSig }, 31,
    loaderAdvance (wClk 250512 { wS with loader := some { wLd with pubkey := wKey, sig := wSig } }), rfl,
    by decide +kernel⟩,
   ⟨(wClk 250511 { wS with loader := some { wLd with h := 0 } }), { wLd with h := 0 }, by decide +kernel⟩,
   ⟨(wClk 250510 { wS with loader := some { wLd with h := 0 } }), { wLd with h := 0 }, by decide +kernel⟩,
   ⟨(wClk 250511 { wS with loader := some { wLd with pubkey := wKey, sig := wSig, target := .owner } }),
    { wLd with pubkey := wKey, sig := wSig, target := .owner },
    loaderAdvance (wClk 250511 { wS with loader := some { wLd with pubkey := wKey, sig := wSig, target := .owner } }),
    rfl, by decide +kernel⟩,
   ⟨(wClk 250512 { wS with loader := some { wLd with sig := List.replicate 64 0xFF } }),
    { wLd with sig := List.replicate 64 0xFF }, 31, by decide +kernel⟩,
   ⟨(wClk 250511 { wS with loader := some { wLd with sig := List.replicate 64 0xFF } }),
    { wLd with sig := List.replicate 64 0xFF }, 31, by decide +kernel⟩,
   ⟨{ wS with loader := some { wLd with revoked := true } }, { wLd with revoked := true }, by decide +kernel⟩,
   ⟨(wClk 0 { wS with loader := some { wLd with phase := .cleanup 0, win := (0x2007FFFC, 4) } }),
    { wLd with phase := .cleanup 0, win := (0x2007FFFC, 4) }, 31, 0, by decide +kernel⟩,
   ⟨(wClk 0 { wS with loader := some { wLd with phase := .cleanup 1 } }), { wLd with phase := .cleanup 1 }, 1,
    by decide +kernel⟩,
   ⟨(wClk 0 { wS with loader := some { wLd with h := 0 } }), { wLd with h := 0 }, by decide +kernel⟩⟩

/-- Every hypothesis of ClockAndLink can be met, clause by clause. -/
theorem test_witness_clockAndLink :
    (∃ (s : State) (f : SrlFrame) (r : List SrlFrame),
       let L := s.level
       let crystal := s.time.mode = .running ∨ s.time.mode = .releasing ∨ s.time.mode = .postStop
       s.early = [] ∧ crystal ∧ L.srl = f :: r ∧ f.started = none ∧ (f.why ≠ .sleepOff ∨ L.change = none) ∧
         f.decided < s.time.phys ∧ s.time.phys % 192 = 0) ∧
    (∃ (s : State) (f : SrlFrame) (r : List SrlFrame),
       let L := s.level
       s.early = [] ∧ L.srl = f :: r ∧ f.why = .sleepOff ∧ L.change ≠ none) ∧
    (∃ (s : State),
       let L := s.level
       s.early = [] ∧ (L.srl = [] ∨ s.time.phys % 192 ≠ 0)) ∧
    (∃ (s : State) (f : SrlFrame) (r : List SrlFrame) (st : Nat),
       let L := s.level
       let awaited := f.why ≠ .stopOff ∧ f.why ≠ .ended
       s.early = [] ∧ L.srl = f :: r ∧ f.started = some st ∧ ¬ awaited) ∧
    (∃ (s : State) (f : SrlFrame) (r : List SrlFrame) (ch : LevelChange) (st : Nat),
       let L := s.level
       let now := L.srl = f :: r ∧ f.started = some st ∧ st + 4992 ≤ s.time.phys ∧ s.time.phys ≤ st + 81408
       s.early = [] ∧ now ∧ f.why = .change ∧ L.change = some ch ∧ ch.was.toNat < ch.tgt.toNat ∧ L.fixed = false) ∧
    (∃ (s : State),
       s.early = []) ∧
    (∃ (s : State) (l : _),
       let L := s.level
       s.early = [] ∧ L.as_ ≠ levelAs l) ∧
    (∃ (s : State) (f : SrlFrame) (r : List SrlFrame) (ch : LevelChange) (st : Nat),
       let L := s.level
       let now := L.srl = f :: r ∧ f.started = some st ∧ st + 4992 ≤ s.time.phys ∧ s.time.phys ≤ st + 81408
       s.early = [] ∧ now ∧ f.why = .change ∧ L.change = some ch ∧ ch.tgt.toNat ≤ ch.was.toNat ∧ L.forceNext = false) ∧
    (∃ (s : State) (f : SrlFrame) (r : List SrlFrame) (st : Nat),
       let L := s.level
       let now := L.srl = f :: r ∧ f.started = some st ∧ st + 4992 ≤ s.time.phys ∧ s.time.phys ≤ st + 81408
       s.early = [] ∧ now ∧ f.why = .wake) ∧
    (∃ (s : State) (f : SrlFrame) (r : List SrlFrame) (st : Nat),
       let L := s.level
       s.early = [] ∧ L.srl = f :: r ∧ f.started = some st ∧ (s.time.phys < st + 4992 ∨ st + 81408 < s.time.phys)) ∧
    (∃ (s : State) (f : SrlFrame) (r : List SrlFrame) (ch : LevelChange) (st : Nat),
       let L := s.level
       let late := L.srl = f :: r ∧ f.started = some st ∧ st + 81408 ≤ s.time.phys
       s.early = [] ∧ late ∧ (f.why = .change ∨ f.why = .restore) ∧ L.change = some ch) ∧
    (∃ (s : State) (f : SrlFrame) (r : List SrlFrame) (st : Nat),
       let L := s.level
       let late := L.srl = f :: r ∧ f.started = some st ∧ st + 81408 ≤ s.time.phys
       s.early = [] ∧ late ∧ f.why = .wake) ∧
    (∃ (s : State) (f : SrlFrame) (r : List SrlFrame) (st : Nat),
       let L := s.level
       s.early = [] ∧ L.srl = f :: r ∧ f.started = some st ∧ s.time.phys < st + 81408) ∧
    (∃ (s : State) (ch : LevelChange) (e : _),
       let L := s.level
       let edge := L.change = some ch ∧ s.running = true ∧ s.time.phys % 24 = 0
       let locked := ∃ p, L.pll = some p ∧ p ≤ s.time.phys
       s.early = [] ∧ edge ∧
         (ch.phase = .biasUp e ∧ e ≤ s.time.phys ∨ ch.phase = .fixedSwitch ∧ ch.start < s.time.phys) ∧ locked ∧
         L.forceNext = false) ∧
    (∃ (s : State) (ch : LevelChange),
       let L := s.level
       let edge := L.change = some ch ∧ s.running = true ∧ s.time.phys % 24 = 0
       s.early = [] ∧ edge ∧ ch.phase = .switchDown ∧ ch.start < s.time.phys ∧ L.fixed = false) ∧
    (∃ (s : State),
       let L := s.level
       s.early = [] ∧ (L.change = none ∨ s.time.phys % 24 ≠ 0)) ∧
    (∃ (s : State),
       let h := (s.time.hive + (s.time.phys - s.time.hiveAt)) % 2 ^ 64
       let A := s.sleep.armed
       s.early = [] ∧
         ((s.time.mode = .hibernate ∧ wakeDue s = false) ∨ (s.time.mode = .releasing ∧ s.boot.htv = true ∧ s.boot.cause = 2)) ∧
         (s.time.phys - s.time.phase0) / 6 % 1024 = 0 ∧ s.time.hiveAt < s.time.phys ∧ (∀ p ∈ A.cmps, h < p.2)) ∧
    (∃ (s : State) (n : _) (c : _),
       let h := (s.time.hive + (s.time.phys - s.time.hiveAt)) % 2 ^ 64
       let A := s.sleep.armed
       s.early = [] ∧
         ((s.time.mode = .hibernate ∧ wakeDue s = false) ∨ (s.time.mode = .releasing ∧ s.boot.htv = true ∧ s.boot.cause = 2)) ∧
         (s.time.phys - s.time.phase0) / 6 % 1024 = 0 ∧ s.time.hiveAt < s.time.phys ∧ s.time.mode = .hibernate ∧
         A.cmps = [(n, c)] ∧ c ≤ h ∧ A.mask.getLsbD 9 = true ∧ A.flags = []) ∧
    (∃ (s : State),
       s.early = [] ∧ (s.time.mode ≠ .hibernate ∨ wakeDue s = true) ∧
         (s.time.mode ≠ .releasing ∨ s.boot.htv = false ∨ s.boot.cause ≠ 2)) :=
  ⟨⟨(wLv { LevelSt.reset with srl := [⟨.stopOff, 0, 0, 0, 0, none⟩], change := none } 192),
    ⟨.stopOff, 0, 0, 0, 0, none⟩, [], by decide +kernel⟩,
   ⟨wLv { LevelSt.reset with srl := [⟨.sleepOff, 0, 0, 0, 0, none⟩], change := some ⟨1, 2, false, .biasUp 24, 0⟩ } 1,
    ⟨.sleepOff, 0, 0, 0, 0, none⟩, [], by decide +kernel⟩,
   ⟨wS, by decide +kernel⟩,
   ⟨wLv { LevelSt.reset with srl := [⟨.stopOff, 0, 0, 0, 0, some 0⟩] } 1, ⟨.stopOff, 0, 0, 0, 0, some 0⟩, [], 0,
    by decide +kernel⟩,
   ⟨(wLv { LevelSt.reset with srl := [⟨.change, 0, 0, 0, 0, some 0⟩], change := some ⟨1, 2, false, .frame, 0⟩ } 81408),
    ⟨.change, 0, 0, 0, 0, some 0⟩, [], ⟨1, 2, false, .frame, 0⟩, 0, by decide +kernel⟩,
   ⟨wS, by decide +kernel⟩,
   ⟨wS, by decide +kernel⟩,
   ⟨(wLv { LevelSt.reset with srl := [⟨.change, 0, 0, 0, 0, some 0⟩], change := some ⟨2, 1, false, .frame, 0⟩ } 4992),
    ⟨.change, 0, 0, 0, 0, some 0⟩, [], ⟨2, 1, false, .frame, 0⟩, 0, by decide +kernel⟩,
   ⟨(wLv { LevelSt.reset with srl := [⟨.wake, 0, 0, 0, 0, some 0⟩], change := none } 4992),
    ⟨.wake, 0, 0, 0, 0, some 0⟩, [], 0, by decide +kernel⟩,
   ⟨(wLv { LevelSt.reset with srl := [⟨.wake, 0, 0, 0, 0, some 0⟩], change := none } 4991),
    ⟨.wake, 0, 0, 0, 0, some 0⟩, [], 0, by decide +kernel⟩,
   ⟨(wLv { LevelSt.reset with srl := [⟨.restore, 0, 0, 0, 0, some 0⟩], change := some ⟨1, 2, false, .frame, 0⟩ } 81408),
    ⟨.restore, 0, 0, 0, 0, some 0⟩, [], ⟨1, 2, false, .frame, 0⟩, 0, by decide +kernel⟩,
   ⟨(wLv { LevelSt.reset with srl := [⟨.wake, 0, 0, 0, 0, some 0⟩], change := none } 81408),
    ⟨.wake, 0, 0, 0, 0, some 0⟩, [], 0, by decide +kernel⟩,
   ⟨(wLv { LevelSt.reset with srl := [⟨.wake, 0, 0, 0, 0, some 0⟩], change := none } 81407),
    ⟨.wake, 0, 0, 0, 0, some 0⟩, [], 0, by decide +kernel⟩,
   ⟨wLv { LevelSt.reset with pll := some 24, change := some ⟨1, 2, false, .biasUp 24, 0⟩ } 24,
    ⟨1, 2, false, .biasUp 24, 0⟩, 24, by decide +kernel, by decide +kernel, .inl (by decide +kernel),
    ⟨24, by decide +kernel⟩, by decide +kernel⟩,
   ⟨(wLv { LevelSt.reset with change := some ⟨2, 1, false, .switchDown, 0⟩ } 24), ⟨2, 1, false, .switchDown, 0⟩,
    by decide +kernel⟩,
   ⟨wS, by decide +kernel⟩,
   ⟨(wPhys 6144 (wArm { ArmedSet.empty with cmps := [(7, 6145)] })), by decide +kernel⟩,
   ⟨(wPhys 6144 (wArm { ArmedSet.empty with cmps := [(7, 6144)], mask := 0x200 })), 7, 6144, by decide +kernel⟩,
   ⟨wS, by decide +kernel⟩⟩

/-- Every hypothesis of WakeDetectors can be met, clause by clause. -/
theorem test_witness_wakeDetectors :
    (∃ (s : State) (ns : Nat),
       let A := s.sleep.armed
       let ready (n : Nat) := detecting s = true ∧ A.mask.getLsbD n = true ∧ (∀ w ∈ A.flags, w.code ≠ n) ∧ s.time.mode ≠ .releasing
       let on := 1140 ≤ s.vioH ∧ s.vioH ≤ 1980
       on ∧ 50 ≤ ns ∧ ready 2) ∧
    (∃ (s : State) (ns : Nat),
       let A := s.sleep.armed
       let ready (n : Nat) := detecting s = true ∧ A.mask.getLsbD n = true ∧ (∀ w ∈ A.flags, w.code ≠ n) ∧ s.time.mode ≠ .releasing
       let on := 1140 ≤ s.vioH ∧ s.vioH ≤ 1980
       on ∧ 50 ≤ ns ∧ ready 4) ∧
    (∃ (s : State) (ns : Nat),
       let on := 1140 ≤ s.vioH ∧ s.vioH ≤ 1980
       on ∧ ns < 50) ∧
    (∃ (s : State),
       let on := 1140 ≤ s.vioH ∧ s.vioH ≤ 1980
       ¬on) ∧
    (∃ (s : State) (b : Bool),
       let A := s.sleep.armed
       let on := 1140 ≤ s.vioH ∧ s.vioH ≤ 1980
       let sh (w : Word) : Word := (w <<< 1) ||| (if b then 1 else 0)
       on ∧ sh A.wag0 ≠ 0xA55AC33C) ∧
    (∃ (s : State) (b : Bool),
       let A := s.sleep.armed
       let ready (n : Nat) := detecting s = true ∧ A.mask.getLsbD n = true ∧ (∀ w ∈ A.flags, w.code ≠ n) ∧ s.time.mode ≠ .releasing
       let on := 1140 ≤ s.vioH ∧ s.vioH ≤ 1980
       let sh (w : Word) : Word := (w <<< 1) ||| (if b then 1 else 0)
       on ∧ sh A.wag0 = 0xA55AC33C ∧ ready 3) ∧
    (∃ (s : State) (b : Bool),
       let A := s.sleep.armed
       let on := 1140 ≤ s.vioH ∧ s.vioH ≤ 1980
       let sh (w : Word) : Word := (w <<< 1) ||| (if b then 1 else 0)
       on ∧ sh A.wag2 ≠ 0xA55AC33C) ∧
    (∃ (s : State) (b : Bool),
       let A := s.sleep.armed
       let ready (n : Nat) := detecting s = true ∧ A.mask.getLsbD n = true ∧ (∀ w ∈ A.flags, w.code ≠ n) ∧ s.time.mode ≠ .releasing
       let on := 1140 ≤ s.vioH ∧ s.vioH ≤ 1980
       let sh (w : Word) : Word := (w <<< 1) ||| (if b then 1 else 0)
       on ∧ sh A.wag2 = 0xA55AC33C ∧ ready 5) ∧
    (∃ (s : State) (b : Bool) (pin : Fin 48),
       let A := s.sleep.armed
       let ready (n : Nat) := detecting s = true ∧ A.mask.getLsbD n = true ∧ (∀ w ∈ A.flags, w.code ≠ n) ∧ s.time.mode ≠ .releasing
       let onL := 1620 ≤ s.vioL ∧ s.vioL ≤ 3630
       onL ∧ (pin.val, b) ∈ A.pins ∧ ready 8) ∧
    (∃ (s : State) (b : Bool) (pin : Fin 48),
       let A := s.sleep.armed
       let onL := 1620 ≤ s.vioL ∧ s.vioL ≤ 3630
       (¬onL ∨ (pin.val, b) ∉ A.pins ∨ (∃ w ∈ A.flags, w.code = 8))) ∧
    (∃ (s : State) (r : RfWindow),
       let A := s.sleep.armed
       let ready (n : Nat) := detecting s = true ∧ A.mask.getLsbD n = true ∧ (∀ w ∈ A.flags, w.code ≠ n) ∧ s.time.mode ≠ .releasing
       let thr : Int := -100 + max 5 (min 60 (A.edthr.toNat : Int))
       let due := s.time.mode = .hibernate ∧ A.lastWin + (A.lper.toNat + 1) * 1536000 ≤ s.time.phys
       due ∧ thr < r.dbm ∧ ready 6) ∧
    (∃ (s : State) (r : RfWindow),
       let A := s.sleep.armed
       let ready (n : Nat) := detecting s = true ∧ A.mask.getLsbD n = true ∧ (∀ w ∈ A.flags, w.code ≠ n) ∧ s.time.mode ≠ .releasing
       let thr : Int := -100 + max 5 (min 60 (A.edthr.toNat : Int))
       let due := s.time.mode = .hibernate ∧ A.lastWin + (A.lper.toNat + 1) * 1536000 ≤ s.time.phys
       due ∧ thr < r.dbm ∧ A.mask.getLsbD 6 = false ∧ ready 7 ∧ listenerTakes r s = true) ∧
    (∃ (s : State) (r : RfWindow),
       let A := s.sleep.armed
       let thr : Int := -100 + max 5 (min 60 (A.edthr.toNat : Int))
       let due := s.time.mode = .hibernate ∧ A.lastWin + (A.lper.toNat + 1) * 1536000 ≤ s.time.phys
       due ∧ thr < r.dbm ∧ A.mask.getLsbD 6 = false ∧ A.mask.getLsbD 7 = true ∧ listenerTakes r s = false) ∧
    (∃ (s : State) (r : RfWindow),
       let A := s.sleep.armed
       let thr : Int := -100 + max 5 (min 60 (A.edthr.toNat : Int))
       let due := s.time.mode = .hibernate ∧ A.lastWin + (A.lper.toNat + 1) * 1536000 ≤ s.time.phys
       due ∧ r.dbm ≤ thr ∧ (A.mask.getLsbD 6 = true ∨ A.mask.getLsbD 7 = true)) ∧
    (∃ (s : State) (r : RfWindow),
       let A := s.sleep.armed
       r.hr ≠ A.hr) ∧
    (∃ (s : State),
       s.time.mode = .hibernate ∧ s.sleep.listenTo ≤ s.time.phys) ∧
    (∃ (s : State),
       let A := s.sleep.armed
       (s.time.mode ≠ .hibernate ∨ s.time.phys < A.lastWin + (A.lper.toNat + 1) * 1536000 ∨ (A.mask.getLsbD 6 = false ∧ A.mask.getLsbD 7 = false))) :=
  ⟨⟨(wArm { ArmedSet.empty with mask := 4 }), 50, by decide +kernel⟩,
   ⟨(wArm { ArmedSet.empty with mask := 0x10 }), 50, by decide +kernel⟩,
   ⟨wS, 49, by decide +kernel⟩,
   ⟨{ wS with vioH := 1981 }, by decide +kernel⟩,
   ⟨wS, true, by decide +kernel⟩,
   ⟨(wArm { ArmedSet.empty with mask := 8, wag0 := 0x52AD619E }), false, by decide +kernel⟩,
   ⟨wS, true, by decide +kernel⟩,
   ⟨(wArm { ArmedSet.empty with mask := 0x20, wag2 := 0x52AD619E }), false, by decide +kernel⟩,
   ⟨(wArm { ArmedSet.empty with mask := 0x100, pins := [(47, true)] }), true, 47, by decide +kernel⟩,
   ⟨wS, true, 0, .inr (.inl (by decide +kernel))⟩,
   ⟨wPhys 1536000 (wArm { ArmedSet.empty with mask := 0x40, edthr := 0 }), ⟨-94, false, [], 0⟩, by decide +kernel⟩,
   ⟨wPhys 1536000 (wArm { ArmedSet.empty with mask := 0x80 }),
    ⟨-94, false, wPs 11 5 0x7F [0x3C, 0xC3, 0x5A, 0xA5] 0x7F false, 0⟩, by decide +kernel⟩,
   ⟨wPhys 1536000 (wArm { ArmedSet.empty with mask := 0x80 }), ⟨-94, false, [], 0⟩, by decide +kernel⟩,
   ⟨wPhys 1536000 (wArm { ArmedSet.empty with mask := 0x40 }), ⟨-95, false, [], 0⟩, by decide +kernel⟩,
   ⟨wS, ⟨0, true, [], 0⟩, by decide +kernel⟩,
   ⟨wArm ArmedSet.empty, by decide +kernel⟩,
   ⟨wS, by decide +kernel⟩⟩

/-- Every hypothesis of WakeAndEntry can be met, clause by clause. -/
theorem test_witness_wakeAndEntry :
    (∃ (s : State),
       s.sleep.entry = none) ∧
    (∃ (s : State) (e : Entry),
       let live := s.running = true ∧ s.sleep.entry = some e ∧ e.ep = 0
       live ∧ e.step = 0 ∧ s.time.clk = e.since) ∧
    (∃ (s : State) (e : Entry),
       let A := s.sleep.armed
       let live := s.running = true ∧ s.sleep.entry = some e ∧ e.ep = 0
       let calm := ∀ x ∈ A.flags, s.time.clk < x.visible
       live ∧ e.step = 0 ∧ e.since < s.time.clk ∧ calm) ∧
    (∃ (s : State) (e : Entry),
       let live := s.running = true ∧ s.sleep.entry = some e ∧ e.ep = 0
       live ∧ e.step = 1 ∧ (∃ c, (s.core c).inv ≠ none ∧ (s.core c).paused = false)) ∧
    (∃ (s : State) (e : Entry),
       let A := s.sleep.armed
       let live := s.running = true ∧ s.sleep.entry = some e ∧ e.ep = 0
       let calm := ∀ x ∈ A.flags, s.time.clk < x.visible
       live ∧ e.step = 1 ∧ (∀ c, (s.core c).inv = none ∨ (s.core c).paused = true) ∧ calm) ∧
    (∃ (s : State) (e : Entry),
       let A := s.sleep.armed
       let live := s.running = true ∧ s.sleep.entry = some e ∧ e.ep = 0
       let calm := ∀ x ∈ A.flags, s.time.clk < x.visible
       live ∧ e.step = 2 ∧ calm) ∧
    (∃ (s : State) (e : Entry) (g : _),
       let live := s.running = true ∧ s.sleep.entry = some e ∧ e.ep = 0
       live ∧ e.step = 3 ∧ s.time.clk = e.since + 1 ∧ g < 11) ∧
    (∃ (s : State) (e : Entry),
       let live := s.running = true ∧ s.sleep.entry = some e ∧ e.ep = 0
       live ∧ e.step = 3 ∧ s.time.clk = e.since + 1) ∧
    (∃ (s : State) (e : Entry),
       let A := s.sleep.armed
       let live := s.running = true ∧ s.sleep.entry = some e ∧ e.ep = 0
       let calm := ∀ x ∈ A.flags, s.time.clk < x.visible
       live ∧ e.step = 3 ∧ e.since + 2 ≤ s.time.clk ∧ forcedChange s = false ∧ calm ∧ s.level.fixed = false) ∧
    (∃ (s : State) (e : Entry),
       let live := s.running = true ∧ s.sleep.entry = some e ∧ e.ep = 0
       live ∧ e.step = 3 ∧ (s.time.clk < e.since + 2 ∨ forcedChange s = true)) ∧
    (∃ (s : State) (e : Entry),
       let A := s.sleep.armed
       let live := s.running = true ∧ s.sleep.entry = some e ∧ e.ep = 0
       let calm := ∀ x ∈ A.flags, s.time.clk < x.visible
       live ∧ e.step = 4 ∧ calm ∧ s.level.fixed = true ∧ s.level.change = none) ∧
    (∃ (s : State) (e : Entry),
       let live := s.running = true ∧ s.sleep.entry = some e ∧ e.ep = 0
       live ∧ e.step = 4 ∧ s.level.fixed = false) ∧
    (∃ (s : State) (e : Entry) (f : _) (t : _),
       let A := s.sleep.armed
       let live := s.running = true ∧ s.sleep.entry = some e ∧ e.ep = 0
       let calm := ∀ x ∈ A.flags, s.time.clk < x.visible
       let frame (f : SrlFrame) (t : Nat) := s.early = [] ∧ s.level.srl = [f] ∧ f.why = .sleepOff ∧ f.started = some t
       live ∧ e.step = 4 ∧ calm ∧ frame f t ∧ t + 4992 ≤ s.time.phys ∧ s.time.phys ≤ t + 81408) ∧
    (∃ (s : State) (e : Entry) (f : _) (t : _),
       let A := s.sleep.armed
       let live := s.running = true ∧ s.sleep.entry = some e ∧ e.ep = 0
       let calm := ∀ x ∈ A.flags, s.time.clk < x.visible
       let frame (f : SrlFrame) (t : Nat) := s.early = [] ∧ s.level.srl = [f] ∧ f.why = .sleepOff ∧ f.started = some t
       live ∧ e.step = 4 ∧ calm ∧ frame f t ∧ t + 81408 ≤ s.time.phys) ∧
    (∃ (s : State) (e : Entry),
       let quiet := s.journal.op = none ∧ s.journal.burn = none
       let live := s.running = true ∧ s.sleep.entry = some e ∧ e.ep = 0
       quiet ∧ live ∧ e.step = 5 ∧ s.time.phys % 24 = 0) ∧
    (∃ (s : State) (e : Entry) (w : WakeFlag) (r : List WakeFlag),
       let A := s.sleep.armed
       let live := s.running = true ∧ s.sleep.entry = some e ∧ e.ep = 0
       live ∧ e.step = 0 ∧ e.since < s.time.clk ∧ A.flags = w :: r ∧ w.visible ≤ s.time.clk) ∧
    (∃ (s : State) (e : Entry) (c : _),
       s.sleep.entry = some e ∧ 1 ≤ e.ep ∧ e.ep ≤ 3 ∧ e.endAt = some c ∧ c ≤ s.time.clk ∧ s.host.running = none) ∧
    (∃ (s : State),
       let A := s.sleep.armed
       A.flags = []) ∧
    (∃ (s : State),
       s.time.mode = .hibernate ∧ (s.time.hiveAt ≠ s.time.phys ∨ wakeDue s = false)) ∧
    (∃ (s : State) (w : WakeFlag) (r : List WakeFlag),
       let A := s.sleep.armed
       A.flags = w :: r ∧
         ((s.time.mode = .hibernate ∧ s.time.hiveAt = s.time.phys ∧ wakeDue s = true) ∨ s.time.mode = .dormant)) ∧
    (∃ (s : State),
       s.time.mode = .running) :=
  ⟨⟨wS, by decide +kernel⟩,
   ⟨(wClk 0 (wSl (wEnt 0))), (wEnt 0), by decide +kernel⟩,
   ⟨wClk 1 (wSl (wEnt 0)), wEnt 0, by decide +kernel⟩,
   ⟨wClk 0 (wSl (wEnt 1)), wEnt 1, by decide +kernel, by decide +kernel, ⟨0, by decide +kernel⟩⟩,
   ⟨{ wSl (wEnt 1) with cores := State.reset.cores }, wEnt 1, by decide +kernel⟩,
   ⟨(wClk 0 (wSl (wEnt 2))), (wEnt 2), by decide +kernel⟩,
   ⟨wClk 1 (wSl (wEnt 3)), wEnt 3, 10, by decide +kernel⟩,
   ⟨wClk 1 (wSl (wEnt 3)), wEnt 3, by decide +kernel⟩,
   ⟨wClk 2 (wSl (wEnt 3)), wEnt 3, by decide +kernel⟩,
   ⟨wClk 1 (wSl (wEnt 3)), wEnt 3, by decide +kernel⟩,
   ⟨{ wSl (wEnt 4) with level := { LevelSt.reset with fixed := true } }, wEnt 4, by decide +kernel⟩,
   ⟨(wClk 0 (wSl (wEnt 4))), (wEnt 4), by decide +kernel⟩,
   ⟨wOff 4992, wEnt 4, ⟨.sleepOff, 0, 0, 0, 0, some 0⟩, 0, by decide +kernel⟩,
   ⟨wOff 81408, wEnt 4, ⟨.sleepOff, 0, 0, 0, 0, some 0⟩, 0, by decide +kernel⟩,
   ⟨(wClk 0 (wSl (wEnt 5))), (wEnt 5), by decide +kernel⟩,
   ⟨(wClk 1 { wS with sleep := { wS.sleep with entry := some (wEnt 0), armed := { ArmedSet.empty with flags := [⟨8, 0, 0, 1⟩] } } }),
    (wEnt 0), ⟨8, 0, 0, 1⟩, [], by decide +kernel⟩,
   ⟨wSl { wEnt 0 with ep := 3, endAt := some 0 }, { wEnt 0 with ep := 3, endAt := some 0 }, 0, by decide +kernel⟩,
   ⟨wS, by decide +kernel⟩,
   ⟨wArm ArmedSet.empty, by decide +kernel⟩,
   ⟨{ wArm { ArmedSet.empty with flags := [⟨8, 0, 0, 1⟩] } with time := { wS.time with mode := .dormant } },
    ⟨8, 0, 0, 1⟩, [], by decide +kernel⟩,
   ⟨wS, by decide +kernel⟩⟩

/-- Every hypothesis of ThermalUnit can be met, clause by clause. -/
theorem test_witness_thermalUnit :
    (∃ (s : State),
       let T := s.therm
       let due := s.running = true ∧ (∀ x, T.stop = some x → x.step ≠ 6) ∧ T.roundClk = some (s.time.clk - 4) ∧ 4 ≤ s.time.clk
       s.early = [] ∧ ¬due) ∧
    (∃ (s : State),
       let T := s.therm
       let due := s.running = true ∧ (∀ x, T.stop = some x → x.step ≠ 6) ∧ T.roundClk = some (s.time.clk - 4) ∧ 4 ≤ s.time.clk
       s.early = [] ∧ due) ∧
    (∃ (s : State) (r : ThermRead),
       s.early = [] ∧ (s.time.mode = .off ∨ s.time.mode = .postStop ∨ (r.d1 < 2000 ∧ r.d4 < 2000 ∧ r.d5 < 2000))) ∧
    (∃ (s : State) (r : ThermRead),
       let quiet := s.journal.op = none ∧ s.journal.burn = none
       s.early = [] ∧ quiet ∧ s.time.mode ≠ .off ∧ s.time.mode ≠ .postStop ∧
         (2000 ≤ r.d1 ∨ 2000 ≤ r.d4 ∨ 2000 ≤ r.d5)) ∧
    (∃ (s : State),
       let T := s.therm
       s.early = [] ∧ T.stop = none) ∧
    (∃ (s : State) (st : Stop),
       let T := s.therm
       let stopping := s.running = true ∧ T.stop = some st
       s.early = [] ∧ stopping ∧ st.step = 1 ∧ s.time.phys < st.since + 2 * levelInc s.level.cur) ∧
    (∃ (s : State) (st : Stop),
       let T := s.therm
       let stopping := s.running = true ∧ T.stop = some st
       s.early = [] ∧ stopping ∧ st.step = 1 ∧ st.since + 2 * levelInc s.level.cur ≤ s.time.phys) ∧
    (∃ (s : State) (st : Stop),
       let T := s.therm
       let stopping := s.running = true ∧ T.stop = some st
       s.early = [] ∧ stopping ∧ st.step = 2 ∧ s.journal.op = none) ∧
    (∃ (s : State) (st : Stop),
       let T := s.therm
       let stopping := s.running = true ∧ T.stop = some st
       s.early = [] ∧ stopping ∧ st.step = 2 ∧ s.journal.op ≠ none ∧ st.since + 192000 ≤ s.time.phys) ∧
    (∃ (s : State) (st : Stop),
       let T := s.therm
       let stopping := s.running = true ∧ T.stop = some st
       s.early = [] ∧ stopping ∧ st.step = 2 ∧ s.journal.op ≠ none ∧ s.time.phys < st.since + 192000) ∧
    (∃ (s : State) (st : Stop),
       let T := s.therm
       let stopping := s.running = true ∧ T.stop = some st
       s.early = [] ∧ stopping ∧ st.step = 3 ∧ leaveOver s = false ∧ s.time.phys < st.since + 134400) ∧
    (∃ (s : State) (st : Stop),
       let T := s.therm
       let stopping := s.running = true ∧ T.stop = some st
       s.early = [] ∧ stopping ∧ st.step = 3 ∧ (leaveOver s = true ∨ st.since + 134400 ≤ s.time.phys)) ∧
    (∃ (s : State) (st : Stop),
       let T := s.therm
       let stopping := s.running = true ∧ T.stop = some st
       s.early = [] ∧ stopping ∧ st.step = 4) ∧
    (∃ (s : State) (st : Stop),
       let T := s.therm
       let stopping := s.running = true ∧ T.stop = some st
       s.early = [] ∧ stopping ∧ st.step = 5 ∧ st.since + 2 * levelInc s.level.cur ≤ s.time.phys) ∧
    (∃ (s : State) (st : Stop),
       let T := s.therm
       let stopping := s.running = true ∧ T.stop = some st
       s.early = [] ∧ stopping ∧ st.step = 6) ∧
    (∃ (s : State) (r : ThermRead),
       let T := s.therm
       let p : Int := T.record.rpoint.toNat * 16
       s.early = [] ∧ s.time.mode = .postStop ∧ r.d1 < p ∧ r.d4 < p ∧ r.d5 < p) ∧
    (∃ (s : State) (r : ThermRead),
       let T := s.therm
       let p : Int := T.record.rpoint.toNat * 16
       s.early = [] ∧ (s.time.mode ≠ .postStop ∨ p ≤ r.d1 ∨ p ≤ r.d4 ∨ p ≤ r.d5)) :=
  ⟨⟨State.reset, by decide +kernel, fun h => absurd h.1 (by decide +kernel)⟩,
   ⟨{ wClk 4 wS with therm := { wS.therm with roundClk := some 0 } }, by decide +kernel, by decide +kernel,
    fun _ h => absurd h (by simp [wS, State.reset, ThermSt.reset]), by decide +kernel⟩,
   ⟨{ wS with time := { wS.time with mode := .off } }, ⟨0, 0, 0, 0, 0, 0, 1999, 1999, 1999⟩, by decide +kernel⟩,
   ⟨wS, ⟨0, 0, 0, 0, 0, 0, 0, 0, 2000⟩, by decide +kernel⟩,
   ⟨wS, by decide +kernel⟩,
   ⟨(wPhys 0 (wStop 1)), ⟨1, 0, false⟩, by decide +kernel⟩,
   ⟨(wPhys 48 (wStop 1)), ⟨1, 0, false⟩, by decide +kernel⟩,
   ⟨(wPhys 0 (wStop 2)), ⟨2, 0, false⟩, by decide +kernel⟩,
   ⟨{ wPhys 192000 (wStop 2) with journal := { JournalSt.reset with op := some default } }, ⟨2, 0, false⟩,
    by decide +kernel⟩,
   ⟨{ (wPhys 191999 (wStop 2)) with journal := { JournalSt.reset with op := some default } }, ⟨2, 0, false⟩,
    by decide +kernel⟩,
   ⟨{ wPhys 134399 (wStop 3) with hive := { HiveSt.reset with busyTo := 134400 } }, ⟨3, 0, false⟩, by decide +kernel⟩,
   ⟨(wPhys 0 (wStop 3)), ⟨3, 0, false⟩, by decide +kernel⟩,
   ⟨(wPhys 0 (wStop 4)), ⟨4, 0, false⟩, by decide +kernel⟩,
   ⟨(wPhys 48 (wStop 5)), ⟨5, 0, false⟩, by decide +kernel⟩,
   ⟨(wPhys 0 (wStop 6)), ⟨6, 0, false⟩, by decide +kernel⟩,
   ⟨{ wS with time := { wS.time with mode := .postStop }, therm := { wS.therm with record := { wS.therm.record with rpoint := 60 } } },
    ⟨0, 0, 0, 0, 0, 0, 959, 959, 959⟩, by decide +kernel⟩,
   ⟨wS, ⟨0, 0, 0, 0, 0, 0, 0, 0, 0⟩, by decide +kernel⟩⟩

/-- Every hypothesis of PadsAndTap can be met, clause by clause. -/
theorem test_witness_padsAndTap :
    (∃ (s : State),
       let on := 1140 ≤ s.vioH ∧ s.vioH ≤ 1980
       let live := s.running = true ∧ on
       live) ∧
    (∃ (s : State),
       let on := 1140 ≤ s.vioH ∧ s.vioH ≤ 1980
       let live := s.running = true ∧ on
       live ∧ s.boot.testEn = false) ∧
    (∃ (s : State),
       let on := 1140 ≤ s.vioH ∧ s.vioH ≤ 1980
       let live := s.running = true ∧ on
       live ∧ s.boot.testEn = true) ∧
    (∃ (s : State),
       let on := 1140 ≤ s.vioH ∧ s.vioH ≤ 1980
       let dead := s.running = false ∨ ¬on
       dead) ∧
    (∃ (b : Ball),
       b.hasOut = true) ∧
    (∃ (s : State) (b : Ball),
       b.hasOut = true ∧ b.powered s = true ∧ b ∈ scanBalls) ∧
    (∃ (s : State),
       s.vaon < 600) ∧
    (∃ (s : State) (b : Ball) (k : _),
       b.hasOut = true ∧ b ≠ .thermN ∧ b.powered s = true ∧ 600 ≤ s.vaon ∧ firstCell b = some k ∧ b ∈ scanBalls) ∧
    (∃ (s : State),
       let on := 1140 ≤ s.vioH ∧ s.vioH ≤ 1980
       let live := s.running = true ∧ on
       live ∧ s.tap.ir = .idcode) ∧
    (∃ (s : State),
       let on := 1140 ≤ s.vioH ∧ s.vioH ≤ 1980
       let live := s.running = true ∧ on
       live ∧ (s.tap.ir = .bypass ∨ s.tap.ir = .clamp ∨ s.tap.ir = .highz ∨ s.tap.ir = .priv)) ∧
    (∃ (s : State) (d : DrScan),
       let on := 1140 ≤ s.vioH ∧ s.vioH ≤ 1980
       let live := s.running = true ∧ on
       live ∧ (s.tap.ir = .extest ∨ s.tap.ir = .sample) ∧ d.bits.length = 259) ∧
    (∃ (mv : Nat),
       1140 ≤ mv ∧ mv ≤ 1980) ∧
    (∃ (s : State) (mv : Nat),
       (mv < 1140 ∨ 1980 < mv) ∧
         (s.time.mode = .off ∨ s.time.mode = .postStop ∨ ((s.time.mode = .hibernate ∨ s.time.mode = .dormant) ∧ s.level.fixed = true))) ∧
    (∃ (s : State) (mv : Nat),
       (mv < 1140 ∨ 1980 < mv) ∧
         (s.time.mode = .running ∨ s.time.mode = .releasing ∨ (s.time.mode = .hibernate ∧ s.level.fixed = false))) :=
  ⟨⟨wS, by decide +kernel⟩,
   ⟨wS, by decide +kernel⟩,
   ⟨(wBoot (fun b => { b with testEn := true })), by decide +kernel⟩,
   ⟨{ wS with vioH := 1139 }, by decide +kernel⟩,
   ⟨.sdo, by decide +kernel⟩,
   ⟨wS, .line 47, by decide +kernel⟩,
   ⟨{ wS with vaon := 599 }, by decide +kernel⟩,
   ⟨wS, .line 47, 256, by decide +kernel⟩,
   ⟨{ wS with tap := { TapSt.reset with ir := .idcode } }, by decide +kernel⟩,
   ⟨{ wS with tap := { TapSt.reset with ir := .priv } }, by decide +kernel⟩,
   ⟨{ wS with tap := { TapSt.reset with ir := .sample } }, ⟨[], List.replicate 259 true⟩, by decide +kernel⟩,
   ⟨1140, by decide +kernel⟩,
   ⟨{ wS with time := { wS.time with mode := .off } }, 1139, by decide +kernel⟩,
   ⟨wS, 1981, by decide +kernel⟩⟩

/-- Every hypothesis of StepTakesFront can be met, clause by clause. -/
theorem test_witness_stepTakesFront :
    (∃ (s : State),
       s.pending = [] ∧ s.time.mode = .running) ∧
    (∃ (s : State),
       s.pending = [] ∧ s.time.mode = .off) ∧
    (∃ (s : State),
       s.pending = [] ∧ s.time.mode ≠ .running ∧ s.time.mode ≠ .off) ∧
    (∃ (s : State),
       s.pending = [] ∧ s.time.mode ≠ .running ∧ s.time.mode ≠ .off ∧ s.time.mode ≠ .hibernate ∧ s.level.srl = []) :=
  ⟨⟨{ wS with time := { wS.time with mode := .running } }, by decide +kernel⟩,
   ⟨{ wS with time := { wS.time with mode := .off } }, by decide +kernel⟩,
   ⟨{ wS with time := { wS.time with mode := .hibernate } }, by decide +kernel⟩,
   ⟨State.reset, by decide +kernel⟩⟩

/-- Every hypothesis of MemoryFormKept can be met, clause by clause. -/
theorem test_witness_memoryFormKept :
    (∃ (s : State) (t : State),
       Memory.wf s.mem = true ∧ step s = .next t) :=
  ⟨wS, (wNext (step wS)), by decide +kernel, rfl⟩

/-- Every hypothesis of EncodingIsUnique can be met, clause by clause. -/
theorem test_witness_encodingIsUnique :
    (∃ (c : CoreId) (w : Word) (i : Instr),
       decodeCore c w = some i) :=
  ⟨0, 0x05104001, .add 0 ⟨4, 4, .imm 1⟩, by decide +kernel⟩

/-- Every hypothesis of PlainFrame can be met, clause by clause. -/
theorem test_witness_plainFrame :
    (∃ (c : CoreId) (f : AluForm) (g : RForm) (l : LForm) (b : BForm) (w : Word) (i : Instr) (s : State) (u :
       State) (d : _),
       exec i s = .next u ∧
         i ∈ [.add c f, .sub c f, .and c f, .or c f, .xor c f, .shl c f, .shr c f, .sha c f, .slt c f, .sltu c f, .mul c g, .mulh c g, .mulq c g, .macq c g, .sat c g, .movl c l, .movh c l, .movs c l, .vadd c g, .vsub c g, .vmul c g, .vdot c g, .vcross c g, .vnorm c g, .vins c g, .vext c g, .bra c b, .bz c b, .bnz c b, .call c b, .bzSt c b, .bnzSt c b, .braReg c g, .callReg c g, .ret c g, .nop c g, .time c g, .timeH c g, .flags c g, Instr.undefinedInstruction c w] ∧
         d ≠ c) ∧
    (∃ (c : CoreId) (f : AluForm) (g : RForm) (l : LForm) (b : BForm) (w : Word) (i : Instr) (s : State) (u :
       State),
       exec i s = .next u ∧
         i ∈ [.add c f, .sub c f, .and c f, .or c f, .xor c f, .shl c f, .shr c f, .sha c f, .slt c f, .sltu c f, .mul c g, .mulh c g, .mulq c g, .macq c g, .sat c g, .movl c l, .movh c l, .movs c l, .vadd c g, .vsub c g, .vmul c g, .vdot c g, .vcross c g, .vnorm c g, .vins c g, .vext c g, .bra c b, .bz c b, .bnz c b, .call c b, .bzSt c b, .bnzSt c b, .braReg c g, .callReg c g, .ret c g, .nop c g, .time c g, .timeH c g, .flags c g, Instr.undefinedInstruction c w]) :=
  ⟨⟨0, ⟨0, 0, .imm 0⟩, ⟨0, 0, 0, 0⟩, ⟨0, 0, 0⟩, ⟨0, 0⟩, 0, .add 0 ⟨0, 0, .imm 0⟩, wS,
    (wNext (exec (.add 0 ⟨0, 0, .imm 0⟩) wS)), 1, rfl, by decide +kernel⟩,
   ⟨0, ⟨0, 0, .imm 0⟩, ⟨0, 0, 0, 0⟩, ⟨0, 0, 0⟩, ⟨0, 0⟩, 0, .add 0 ⟨0, 0, .imm 0⟩, wS,
    (wNext (exec (.add 0 ⟨0, 0, .imm 0⟩) wS)), rfl, by decide +kernel⟩⟩

end Sys2Proof.Tests
end

section
/-!
PROOFS. The programmer's model (spec/01_programmers_model.md): faults (R50, R51, R54), events (R38, R77), and the timers,
WAIT timeouts, budgets and quotas that come due (R46, R77, R81, R108 to R110).
-/
namespace Sys2Proof.Machine

/-! ## Saturating counters -/

theorem satInc_toNat {n : Nat} (b : BitVec n) : (satInc b).toNat = min (2 ^ n - 1) (b.toNat + 1) := by
  have hb := b.isLt
  unfold satInc
  split
  next h => subst h; rw [BitVec.toNat_allOnes]; omega
  next h =>
    have hne : b.toNat ≠ 2 ^ n - 1 := fun e => h (BitVec.eq_of_toNat_eq (by rw [e, BitVec.toNat_allOnes]))
    change (b + BitVec.ofNat n 1).toNat = _
    rw [BitVec.toNat_add, BitVec.toNat_ofNat, Nat.add_mod_mod, Nat.mod_eq_of_lt (by omega)]
    omega

theorem satAdd_toNat {n : Nat} (b : BitVec n) (k : Nat) : (satAdd b k).toNat = min (2 ^ n - 1) (b.toNat + k) := by
  unfold satAdd
  split
  next h => rw [BitVec.toNat_ofNat, Nat.mod_eq_of_lt h]; omega
  next h => rw [BitVec.toNat_allOnes]; omega

theorem satInc_eq_satAdd {n : Nat} (b : BitVec n) : satInc b = satAdd b 1 :=
  BitVec.eq_of_toNat_eq (by rw [satInc_toNat, satAdd_toNat])

theorem satAdd_zero {n : Nat} (b : BitVec n) : satAdd b 0 = b := by
  have hb := b.isLt
  exact BitVec.eq_of_toNat_eq (by rw [satAdd_toNat]; omega)

theorem satAdd_satAdd {n : Nat} (b : BitVec n) (j k : Nat) : satAdd (satAdd b j) k = satAdd b (j + k) :=
  BitVec.eq_of_toNat_eq (by simp only [satAdd_toNat]; omega)

theorem satAdd_eq_ofNat (b : BitVec 8) (k : Nat) : satAdd b k = BitVec.ofNat 8 (min 255 (b.toNat + k)) := by
  apply BitVec.eq_of_toNat_eq
  rw [satAdd_toNat, BitVec.toNat_ofNat]
  omega

/-! ## The tenant of a running invocation -/

/-- The tenant whose invocation a core holds. -/
def State.tenantOn (s : State) (c : CoreId) : Option Tid := (s.core c).inv.map Inv.tenant

theorem tenantOn_setCore {s : State} {c : CoreId} {k : Core} (h : k.inv.map Inv.tenant = s.tenantOn c) (d : CoreId) :
    (s.setCore c k).tenantOn d = s.tenantOn d := by
  by_cases hd : c = d
  · subst hd; simpa [State.tenantOn] using h
  · simp [State.tenantOn, core_setCore_other _ _ hd]

theorem markQuota_tenant (t : Tid) (k : Core) : (markQuota t k).inv.map Inv.tenant = k.inv.map Inv.tenant := by
  unfold markQuota
  split
  next i h => split <;> simp [h]
  next h => rfl

/-- A quota's charge marks invocations and leaves each with its tenant. -/
theorem chargeQuota_tenantOn (t : Tid) (n : Nat) (s : State) (d : CoreId) :
    (chargeQuota t n s).tenantOn d = s.tenantOn d := by
  have hroll : (rollPeriod t s).tenantOn d = s.tenantOn d := by simp [State.tenantOn, rollPeriod_core]
  rw [← hroll]
  unfold chargeQuota
  dsimp only
  generalize rollPeriod t s = u
  split
  · rfl
  · split
    · simp [State.tenantOn, State.core, markQuota_tenant]
    · rfl

theorem addCycles_tenantOn (c : CoreId) (n : Nat) (s : State) (d : CoreId) :
    (addCycles c n s).tenantOn d = s.tenantOn d := by
  unfold addCycles
  split
  · rfl
  next i h => rw [chargeQuota_tenantOn, tenantOn_setCore (by simp [State.tenantOn, h])]

theorem chargePart_tenantOn (c : CoreId) (n : Nat) (s : State) (d : CoreId) :
    (chargePart c n s).tenantOn d = s.tenantOn d := by
  unfold chargePart
  dsimp only
  rw [addCycles_tenantOn, tenantOn_setCore (by rfl)]

/-- A fetch that answers a word leaves the core the same tenant's invocation. -/
theorem fetch_ok_tenantOn {c : CoreId} {i : Instr} {v : Inv} {s s' : State} (h : fetch c i v s = .ok s') :
    s'.tenantOn c = s.tenantOn c := by
  unfold fetch at h
  dsimp only at h
  repeat' split at h
  all_goals cases h
  · rfl
  · simp only [fetchWait, chargePart_tenantOn]
    exact congrArg (Option.map Inv.tenant ·.inv) (readSram_core _ s c)
  · rfl
  · rw [chargePart_tenantOn]
    exact congrArg (Option.map Inv.tenant ·.inv) (flashRead_core _ _ _ c)

/-- A core that begins an instruction still holds an invocation of its tenant after the fetch. -/
theorem Begins.fetched_inv {c : CoreId} {i : Instr} {v : Inv} {s s' : State} (h : Begins c i v s s') :
    ∃ v', (s'.core c).inv = some v' ∧ v'.tenant = v.tenant := by
  obtain ⟨hi, -, -, -, -, -, -, hf⟩ := h
  have ht := fetch_ok_tenantOn hf
  simpa [State.tenantOn, hi] using ht

/-! ## Faults -/

/-- What a fault does, operation by operation (R50): the record, the binding's count, the fault code of a host packet in
progress, and the release of the core. -/
theorem fault_running {c : CoreId} {v : Inv} {s : State} (code : Nat) (a : Word) (h : (s.core c).inv = some v) :
    ∃ ho, fault c code a s = endInv c { modBinding v bindFault (recordFault v code a s) with host := ho } := by
  simp only [fault, h]
  split
  · exact ⟨_, rfl⟩
  · split <;> exact ⟨_, rfl⟩

/-- A tenant after a fault of an invocation: its record written and the fault counted (R50). -/
def Tenant.faulted (x : Tenant) (v : Inv) (code : Nat) (a : Word) (hive : Nat) : Tenant :=
  { x with
    fcode := BitVec.ofNat 4 code
    fbind := match v.bind with | some k => BitVec.ofNat 8 k.val | none => 0
    faddr := a
    ftime := toWord hive
    nfault := satInc x.nfault }

theorem modBinding_tenant (i : Inv) (f : Binding → Binding) (s : State) (u : Tid) :
    (modBinding i f s).tenant u = s.tenant u := by
  obtain ⟨_, h⟩ := modBinding_only i f s; rw [h]; rfl

theorem modBinding_installed {i : Inv} {s : State} {k : Fin 256} {b : Binding} (f : Binding → Binding)
    (hk : i.bind = some k) (hb : vget s.bindings k = some b) (hs : b.serial = i.serial) :
    vget (modBinding i f s).bindings k = some (f b) := by
  simp [modBinding, hk, hb, hs]

/-- The faulted invocation's tenant after a fault. -/
theorem fault_tenant {c : CoreId} {v : Inv} {s : State} (code : Nat) (a : Word) (h : (s.core c).inv = some v) :
    (fault c code a s).tenant v.tenant = (s.tenant v.tenant).faulted v code a s.time.hive := by
  obtain ⟨ho, e⟩ := fault_running code a h
  calc (fault c code a s).tenant v.tenant
      = (modBinding v bindFault (recordFault v code a s)).tenant v.tenant := by rw [e]; rfl
    _ = (recordFault v code a s).tenant v.tenant := modBinding_tenant ..
    _ = _ := tenant_setTenant_same ..

theorem fault_tenant_other {c : CoreId} {v : Inv} {s : State} {u : Tid} (code : Nat) (a : Word)
    (h : (s.core c).inv = some v) (hu : u ≠ v.tenant) : (fault c code a s).tenant u = s.tenant u := by
  obtain ⟨ho, e⟩ := fault_running code a h
  calc (fault c code a s).tenant u
      = (modBinding v bindFault (recordFault v code a s)).tenant u := by rw [e]; rfl
    _ = (recordFault v code a s).tenant u := modBinding_tenant ..
    _ = _ := tenant_setTenant_other _ _ hu.symm

/-- The binding of a faulted invocation, while it is still installed (R44, R51). -/
theorem fault_binding {c : CoreId} {v : Inv} {s : State} {k : Fin 256} {b : Binding} (code : Nat) (a : Word)
    (h : (s.core c).inv = some v) (hk : v.bind = some k) (hb : vget s.bindings k = some b) (hs : b.serial = v.serial) :
    vget (fault c code a s).bindings k = some (bindFault b) := by
  obtain ⟨ho, e⟩ := fault_running code a h
  rw [e]
  exact modBinding_installed (s := recordFault v code a s) bindFault hk hb hs

theorem fault_stall {c : CoreId} {v : Inv} {s : State} (code : Nat) (a : Word) (h : (s.core c).inv = some v) :
    ((fault c code a s).core c).stall = none := by
  obtain ⟨ho, e⟩ := fault_running code a h
  rw [e, endInv_core]

@[simp] theorem fault_queues (c : CoreId) (k : Nat) (a : Word) (s : State) : (fault c k a s).queues = s.queues := by
  obtain ⟨_, _, _, _, h⟩ := fault_only c k a s; rw [h]
@[simp] theorem fault_ctx (c : CoreId) (k : Nat) (a : Word) (s : State) : (fault c k a s).ctx = s.ctx := by
  obtain ⟨_, _, _, _, h⟩ := fault_only c k a s; rw [h]

/-- The count of R51 and the hold at the eighth fault in a row, its arithmetic written out. -/
theorem bindFault_eq (b : Binding) : bindFault b =
    if b.frun + 1 < 8 then { b with frun := b.frun + 1 }
    else { b with frun := 8, held := true, ovr := BitVec.ofNat 8 (min 255 (b.ovr.toNat + b.pend.length)), pend := [] } := by
  rw [bindFault, satAdd_eq_ofNat]

/-- A word that is no instruction raises FLT_OPCODE at its address (R54). -/
theorem exec_undefinedInstruction {c : CoreId} {v : Inv} {s s' : State} {w : Word}
    (h : Begins c (.undefinedInstruction c w) v s s') (hw : decodeCore c w = none) :
    exec (.undefinedInstruction c w) s = .next (fault c fltOpcode (s'.regs c).pc s') := by
  change execUndefinedInstruction c w s = _
  simp only [execUndefinedInstruction, hw, issue_begins h]

/-- Settles O10: a fault is its four operations (`fault_running`), and each writes its own part of the state. -/
theorem faultEnds : Obligations.FaultEnds := by
  unfold Obligations.FaultEnds
  refine ⟨fun c v s s' w hb hw => ?_, fun c s v code a hv hcode => ?_⟩
  · obtain ⟨v', hv', ht⟩ := hb.fetched_inv
    have hten := fault_tenant fltOpcode (s'.regs c).pc hv'
    rw [ht] at hten
    refine ⟨_, exec_undefinedInstruction hb hw, rfl, fault_frees _ _ hv', ?_, ?_⟩
    · rw [hten]; rfl
    · rw [hten]; rfl
  · intro t
    have hten : t.tenant v.tenant = _ := fault_tenant code a hv
    refine ⟨fault_frees _ _ hv, fault_stall _ _ hv, ?_, ?_, ?_, ?_, fun k hk => ⟨?_, fun b hb hs => ?_⟩,
      fun d hd => fault_other _ _ hd.symm, fun u hu => fault_tenant_other _ _ hv hu,
      fault_mem .., fault_time .., fault_queues .., fault_ctx ..⟩
    · rw [hten]; exact (BitVec.toNat_ofNat ..).trans (Nat.mod_eq_of_lt hcode)
    · rw [hten]; rfl
    · rw [hten]; rfl
    · rw [hten]; exact satInc_toNat _
    · rw [hten]; simp only [Tenant.faulted, hk]; exact (BitVec.toNat_ofNat ..).trans (Nat.mod_eq_of_lt k.isLt)
    · rw [fault_binding code a hv hk hb hs, bindFault_eq]

/-! ## Events offered to bindings (R38) -/

/-- A binding that has taken a list of events: the first go into its free places and the others are counted lost. -/
def Binding.takes (b : Binding) (es : List Ev) : Binding :=
  { b with pend := (b.pend ++ es).take 4, ovr := satAdd b.ovr (b.pend.length + es.length - 4) }

theorem Binding.takes_nil {b : Binding} (h : b.pend.length ≤ 4) : b.takes [] = b := by
  have hpend : (b.pend ++ []).take 4 = b.pend := by rw [List.append_nil, List.take_of_length_le h]
  have hlost : b.pend.length + ([] : List Ev).length - 4 = 0 := by rw [List.length_nil]; omega
  rw [Binding.takes, hpend, hlost, satAdd_zero]

theorem take_take_append {α : Type} (n : Nat) (l m : List α) : (l.take n ++ m).take n = (l ++ m).take n := by
  rw [List.take_append, List.take_append, List.take_take, List.length_take, min_self]
  congr 2
  omega

/-- Taking one event and then others is taking them all. -/
theorem Binding.takes_cons (b : Binding) (h : b.pend.length ≤ 4) (e : Ev) (es : List Ev) :
    (b.takes [e]).takes es = b.takes (e :: es) := by
  have hpend : ((b.pend ++ [e]).take 4 ++ es).take 4 = (b.pend ++ e :: es).take 4 := by
    rw [take_take_append, ← List.append_cons]
  have hlost : b.pend.length + [e].length - 4 + (((b.pend ++ [e]).take 4).length + es.length - 4) =
      b.pend.length + (e :: es).length - 4 := by
    simp only [List.length_take, List.length_append, List.length_cons, List.length_nil]
    omega
  simp only [Binding.takes, hpend, satAdd_satAdd, hlost]

theorem ofNat_eq_src_iff {n : Nat} (h : n < 256) (x : BitVec 8) : x = BitVec.ofNat 8 n ↔ x.toNat = n := by
  rw [← BitVec.toNat_inj, BitVec.toNat_ofNat, Nat.mod_eq_of_lt h]

/-- An event on the source of a binding that is not held is stored while there is room, else counted lost. -/
theorem offerTo_match {b : Binding} {n : Nat} (e : Ev) (hn : n < 256) (hsrc : b.src.toNat = n) (hheld : b.held = false) :
    offerTo (BitVec.ofNat 8 n) e (some b) =
      some (if b.pend.length < 4 then { b with pend := b.pend ++ [e] } else { b with ovr := satAdd b.ovr 1 }) := by
  simp only [offerTo, (ofNat_eq_src_iff hn b.src).2 hsrc, hheld, satInc_eq_satAdd, and_self, if_true]
  split <;> rfl

theorem offerTo_takes {b : Binding} {n : Nat} (e : Ev) (hn : n < 256) (hsrc : b.src.toNat = n) (hheld : b.held = false)
    (hlen : b.pend.length ≤ 4) : offerTo (BitVec.ofNat 8 n) e (some b) = some (b.takes [e]) := by
  rw [offerTo_match e hn hsrc hheld, Binding.takes, List.length_singleton]
  split
  next hroom =>
    have hlost : b.pend.length + 1 - 4 = 0 := by omega
    have hfits : (b.pend ++ [e]).length ≤ 4 := by rw [List.length_append, List.length_singleton]; omega
    rw [hlost, satAdd_zero, List.take_of_length_le hfits]
  next hfull =>
    have hlost : b.pend.length + 1 - 4 = 1 := by omega
    rw [hlost, List.take_append_of_le_length (by omega), List.take_of_length_le hlen]

/-- Any other event leaves a binding as it is. -/
theorem offerTo_other {o : Option Binding} {n : Nat} (e : Ev) (hn : n < 256)
    (h : ∀ b, o = some b → b.src.toNat ≠ n ∨ b.held = true) : offerTo (BitVec.ofNat 8 n) e o = o := by
  cases o with
  | none => rfl
  | some b =>
    have : ¬(b.src = BitVec.ofNat 8 n ∧ b.held = false) := by
      rw [ofNat_eq_src_iff hn]
      rcases h b rfl with h | h <;> simp [h]
    simp [offerTo, this]

/-- An event offered to what a binding index holds. -/
def offeredBy (o : Option Binding) (r : Raised) : Option Binding := offerTo (BitVec.ofNat 8 r.src) r.ev o

/-- Of the events of a clock, a binding that is not held takes those on its source in their order. -/
theorem foldl_offeredBy {b : Binding} (hheld : b.held = false) (hlen : b.pend.length ≤ 4) (l : List Raised)
    (hl : ∀ e ∈ l, e.src < 256) :
    l.foldl offeredBy (some b) =
      some (b.takes ((l.filter (fun e => decide (e.src = b.src.toNat))).map Raised.ev)) := by
  induction l generalizing b with
  | nil => exact (congrArg some (Binding.takes_nil hlen)).symm
  | cons r l ih =>
    obtain ⟨hr, hl⟩ := List.forall_mem_cons.1 hl
    rw [List.foldl_cons]
    by_cases hsrc : r.src = b.src.toNat
    · have hlen' : (b.takes [r.ev]).pend.length ≤ 4 := List.length_take_le _ _
      rw [offeredBy, offerTo_takes r.ev hr hsrc.symm hheld hlen, ih (b := b.takes [r.ev]) hheld hlen' hl,
        Binding.takes_cons b hlen, List.filter_cons_of_pos (by simpa using hsrc), List.map_cons]
      rfl
    · have hother : offeredBy (some b) r = some b :=
        offerTo_other r.ev hr (by rintro _ ⟨⟩; exact .inl fun e => hsrc e.symm)
      rw [hother, ih hheld hlen hl, List.filter_cons_of_neg (by simpa using hsrc)]

/-! ## WAITs that events release and that expire (R77) -/

theorem releaseBy_match {sv : Saved} {src : BitVec 8} {dl : Option Nat} {rd : Fin 16} {x : Bool} (a : Word) (clk : Nat)
    (h : sv.kind = .waiting src dl rd x) :
    releaseBy src a clk (some sv) = some { sv with
      kind := .ready, since := clk, regs := { sv.regs with w := vset sv.regs.w rd a, fl := sv.regs.fl.setStat stOk } } := by
  simp [releaseBy, h]

theorem releaseBy_other {sv : Saved} {src w : BitVec 8} {dl : Option Nat} {rd : Fin 16} {x : Bool} (a : Word) (clk : Nat)
    (h : sv.kind = .waiting w dl rd x) (hw : w ≠ src) : releaseBy src a clk (some sv) = some sv := by
  simp [releaseBy, h, hw]

theorem timeoutSaved_ready {sv : Saved} (clk : Nat) (h : sv.kind = .ready) : timeoutSaved clk (some sv) = some sv := by
  simp [timeoutSaved, h]

theorem timeoutSaved_waiting {sv : Saved} {w : BitVec 8} {dl : Option Nat} {rd : Fin 16} {x : Bool} (clk : Nat)
    (h : sv.kind = .waiting w dl rd x) :
    timeoutSaved clk (some sv) = some (if x then { sv with
      kind := .ready, since := clk, regs := { sv.regs with fl := sv.regs.fl.setStat stTimeout } } else sv) := by
  cases x <;> simp [timeoutSaved, h]

/-! ## The end of a clock in which no timer is due -/

theorem foldl_offerRaised_binding (l : List Raised) (s : State) (k : Fin 256) :
    vget (l.foldl offerRaised s).bindings k = l.foldl offeredBy (vget s.bindings k) := by
  induction l generalizing s with
  | nil => rfl
  | cons r l ih => rw [List.foldl_cons, ih, offerRaised_binding, List.foldl_cons, offeredBy]

/-- A binding at the end of a clock has been offered every event of the clock. -/
theorem endEvents_binding {s : State} (h : ∀ n, (vget s.timers n).due = none) (k : Fin 256) :
    vget (endEvents s).bindings k = s.raised.foldl offeredBy (vget s.bindings k) := by
  rw [endEvents_idle s h]
  exact foldl_offerRaised_binding ..

/-- A saved invocation at the end of a clock with one event: first the event, then the timeout. -/
theorem endEvents_saved {s : State} {e : Raised} (h : ∀ n, (vget s.timers n).due = none) (he : s.raised = [e])
    (k : Fin 16) :
    vget (endEvents s).ctx k =
      timeoutSaved s.time.clk (releaseBy (BitVec.ofNat 8 e.src) e.ev.arg e.ev.clk (vget s.ctx k)) := by
  rw [endEvents_idle s h, he]
  simp only [List.foldl_cons, List.foldl_nil, vget_vmap, offerRaised_saved]
  rfl

/-- One event changes bindings and saved invocations, nothing else. -/
theorem endEvents_one_only {s : State} {e : Raised} (h : ∀ n, (vget s.timers n).due = none) (he : s.raised = [e]) :
    ∃ bs x, endEvents s = { s with bindings := bs, ctx := x, raised := [] } := by
  rw [endEvents_idle s h, he]
  exact ⟨_, _, rfl⟩

/-- Settles O12, by induction on the events of the clock for a binding, and event before timeout for a WAIT. -/
theorem eventOffered : Obligations.EventOffered := by
  unfold Obligations.EventOffered
  refine ⟨fun _ _ _ _ _ => rfl, fun s k b hsrc hdue hb hheld hlen => ?_, fun s e he hr hdue => ?_⟩
  · rw [endEvents_binding hdue, hb, foldl_offeredBy hheld hlen _ hsrc, Binding.takes, List.length_map,
      satAdd_eq_ofNat]
  · have hbind : ∀ k, vget (endEvents s).bindings k = offerTo (BitVec.ofNat 8 e.src) e.ev (vget s.bindings k) :=
      fun k => by rw [endEvents_binding hdue, hr]; rfl
    refine ⟨fun k b hb hsrc hheld => ?_, fun k hk => ?_, fun k sv w dl rd x hsv hkind hw => ?_,
      fun k sv w dl rd x hsv hkind hw => ?_, ?_⟩
    · rw [hbind, hb, offerTo_match e.ev he hsrc hheld, satAdd_eq_ofNat]
    · rw [hbind, offerTo_other e.ev he hk]
    · have hw' : BitVec.ofNat 8 e.src = w := ((ofNat_eq_src_iff he w).2 hw).symm
      rw [endEvents_saved hdue hr, hsv, hw', releaseBy_match _ _ hkind, timeoutSaved_ready _ rfl]
      exact ⟨_, rfl, rfl, rfl, rfl, rfl, vget_vset_same .., rfl, fun j hj => vget_vset_other _ _ _ _ hj.symm, rfl, rfl⟩
    · have hw' : w ≠ BitVec.ofNat 8 e.src := fun h => hw ((ofNat_eq_src_iff he w).1 h)
      rw [endEvents_saved hdue hr, hsv, releaseBy_other _ _ hkind hw', timeoutSaved_waiting _ hkind]
      rfl
    · obtain ⟨bs, x, h⟩ := endEvents_one_only hdue hr
      rw [h]
      exact ⟨rfl, rfl, rfl, rfl, rfl, rfl⟩

/-! ## Timers (R81) -/

/-- With no sleep entry in progress no compare is carried, and there is none to withdraw. -/
theorem withdrawCmp_awake {s : State} (n : Fin 8) (h : s.sleep.entry = none) : withdrawCmp n s = s := by
  simp [withdrawCmp, h]

/-- TIMER_EXPIRY of a running device notes the stamp of an expiry where the compare is reached. -/
theorem exec_timerExpiry {s : State} {n : Fin 8} {p : Prop} [Decidable p] (hrun : s.running = true)
    (hp : (vget s.timers n).reached s.time.clk s.time.hive = true ↔ p) :
    exec (.timerExpiry n) s = if p then
      .next { s with timers := vset s.timers n { vget s.timers n with
        due := some ((vget s.timers n).passed.getD s.time.hive) } }
      else .next s := by
  change execTimerExpiry n s = _
  simp only [execTimerExpiry, hrun, hp, true_and]
  split <;> rfl

/-- The setting of a timer after an expiry: an ALARM.EVERY goes on to its next compare, a one-shot disarms (R81). -/
def TimerKind.afterExpiry : TimerKind → TimerKind
  | .every p next => .every p (next + p)
  | _ => .off

/-- An expiry that takes effect raises the timer's event with its count and sets the timer again. -/
theorem expireTimer_due {s : State} {n : Fin 8} {z : Nat} {kind : TimerKind} (hawake : s.sleep.entry = none)
    (hz : (vget s.timers n).due = some z) (hkind : (vget s.timers n).kind.afterExpiry = kind) :
    expireTimer s n =
      let x := vget s.timers n
      State.event { s with timers := vset s.timers n ⟨kind, x.owner, x.count + 1, x.since, none, none⟩ }
        (0x90 + n.val) (BitVec.ofNat 32 (x.count + 1)) z := by
  subst hkind
  simp only [expireTimer, hz, withdrawCmp_awake n hawake]
  rfl

/-! ## WAIT timeouts (R77) -/

/-- WAIT_TIMEOUT of a running device marks a WAIT whose deadline hive time has reached. -/
theorem exec_waitTimeout {s : State} {k : Fin 16} {sv : Saved} {src : BitVec 8} {d : Nat} {rd : Fin 16} {e : Bool}
    (hrun : s.running = true) (hsv : vget s.ctx k = some sv) (hkind : sv.kind = .waiting src (some d) rd e) :
    exec (.waitTimeout k) s = if d ≤ s.time.hive then
      .next { s with ctx := vset s.ctx k (some { sv with kind := .waiting src (some d) rd true }) } else .next s := by
  change execWaitTimeout k s = _
  simp only [execWaitTimeout, hsv, hkind, hrun, true_and]
  split <;> rfl

/-! ## Boundaries, budgets and quotas (R46, R109, R110) -/

/-- A core that stands at an instruction boundary: neither stalled nor paused nor inside an instruction. -/
abbrev Core.Standing (k : Core) : Prop := k.stall = none ∧ k.paused = false ∧ k.paid = 0

/-- A boundary at which a fault is due is that fault. -/
theorem boundary_fault {c : CoreId} {v : Inv} {s : State} {f : Nat} (hv : (s.core c).inv = some v)
    (hstop : v.stopped = false) (hf : dueFault v = some f) : boundary c s = fault c f (s.regs c).pc s := by
  simp [boundary, hv, hstop, hf]

/-- An invocation that a boundary is due to end leaves its core free. -/
theorem boundary_frees {c : CoreId} {v : Inv} {s : State} (hv : (s.core c).inv = some v)
    (hf : (dueFault v).isSome = true) : ((boundary c s).core c).inv = none := by
  obtain ⟨f, hf⟩ := Option.isSome_iff_exists.1 hf
  cases hstop : v.stopped with
  | true => simp [boundary, hv, hstop, endInv_core]
  | false => rw [boundary_fault hv hstop hf, fault_frees _ _ hv]

theorem boundary_other {c d : CoreId} (s : State) (h : c ≠ d) : (boundary c s).core d = s.core d := by
  unfold boundary
  split
  · rfl
  · split
    · exact endInv_other s h
    · split
      · exact fault_other _ _ h
      · rfl

theorem dueFault_quota {v : Inv} (h : v.quotaOut = true) : (dueFault v).isSome = true := by
  rw [dueFault, if_pos h]
  split <;> rfl

theorem dueFault_budget {v : Inv} (hrev : v.revoked = false) (hquota : v.quotaOut = false) (hb : v.budget ≠ 0)
    (hused : v.budget.toNat * 16 ≤ v.used) : dueFault v = some fltBudget := by
  rw [dueFault, if_neg (by simp [hrev]), if_neg (by simp [hquota]), if_pos ⟨hb, hused⟩]

/-- BUDGET_EXHAUSTED of a running device on a core that stands at a boundary: below the budget nothing, at it the
boundary. -/
theorem exec_budgetExhausted {c : CoreId} {v : Inv} {s : State} (hrun : s.running = true)
    (hv : (s.core c).inv = some v) (hstand : (s.core c).Standing) (hb : v.budget ≠ 0) :
    exec (.budgetExhausted c) s = .next (if v.budget.toNat * 16 ≤ v.used then boundary c s else s) := by
  obtain ⟨hstall, hpause, hpaid⟩ := hstand
  change execBudgetExhausted c s = _
  simp only [execBudgetExhausted, hrun, hv, hstall, hpause, hpaid, hb, ne_eq, not_false_iff, true_and]

theorem quotaEnd_other (t : Tid) (s : State) {c d : CoreId} (h : c ≠ d) : (quotaEnd t s c).core d = s.core d := by
  unfold quotaEnd
  split
  · split
    · exact boundary_other s h
    · rfl
  · rfl

/-- The end of a quota leaves a core that holds no invocation of the tenant. -/
theorem quotaEnd_core {t : Tid} {s : State} {d : CoreId} (hd : ∀ v, (s.core d).inv = some v → v.tenant ≠ t)
    (c : CoreId) : (quotaEnd t s c).core d = s.core d := by
  by_cases h : c = d
  · subst h
    unfold quotaEnd
    split
    next v hv => rw [if_neg fun h => hd v hv h.1]
    next => rfl
  · exact quotaEnd_other t s h

theorem foldl_quotaEnd_core {t : Tid} {s : State} {d : CoreId} (hd : ∀ v, (s.core d).inv = some v → v.tenant ≠ t)
    (l : List CoreId) : (l.foldl (quotaEnd t) s).core d = s.core d := by
  induction l generalizing s with
  | nil => rfl
  | cons c l ih =>
    have hstep := quotaEnd_core hd c
    rw [List.foldl_cons, ih (by rwa [hstep]), hstep]

/-- A core that stands at a boundary with an invocation past its tenant's quota is freed (R109). -/
theorem quotaEnd_frees {t : Tid} {s : State} {c : CoreId} {v : Inv} (hv : (s.core c).inv = some v)
    (ht : v.tenant = t) (hq : v.quotaOut = true)
    (hstand : (s.core c).Standing) :
    ((quotaEnd t s c).core c).inv = none := by
  simp only [quotaEnd, hv]
  rw [if_pos ⟨ht, hq, hstand⟩]
  exact boundary_frees hv (dueFault_quota hq)

/-- The cores in turn: one that is to be freed is freed at its turn and stays free. -/
theorem foldl_quotaEnd_frees {t : Tid} {s : State} {c : CoreId} {v : Inv} (hv : (s.core c).inv = some v)
    (ht : v.tenant = t) (hq : v.quotaOut = true)
    (hstand : (s.core c).Standing) {l : List CoreId}
    (hl : c ∈ l) : ((l.foldl (quotaEnd t) s).core c).inv = none := by
  induction l generalizing s with
  | nil => cases hl
  | cons d l ih =>
    rw [List.foldl_cons]
    by_cases hd : d = c
    · subst hd
      have hfree := quotaEnd_frees hv ht hq hstand
      rw [foldl_quotaEnd_core (by simp [hfree]), hfree]
    · have hkept := quotaEnd_other t s hd
      exact ih (by rwa [hkept]) (by rwa [hkept]) (List.mem_of_ne_of_mem (Ne.symm hd) hl)

theorem exec_quotaExhausted {s : State} (t : Tid) (hrun : s.running = true) :
    exec (.quotaExhausted t) s =
      .next (if (s.tenant t).qout = true then [0, 1, 2, 3, 4].foldl (quotaEnd t) s else s) := by
  change execQuotaExhausted t s = _
  simp only [execQuotaExhausted, hrun, true_and]

theorem exec_quotaPeriod {s : State} (t : Tid) (hrun : s.running = true) :
    exec (.quotaPeriod t) s = .next (rollPeriod t s) := by
  change execQuotaPeriod t s = _
  simp only [execQuotaPeriod, hrun, if_true]

/-- Settles O46: each command by its equation; a quota's end by induction on the cores in turn. -/
theorem timersAndLimits : Obligations.TimersAndLimits := by
  unfold Obligations.TimersAndLimits
  intro s n k c t hrun hawake
  refine ⟨fun cmp w hx => ⟨?_, fun z hz => ?_⟩, fun p nx hx => ⟨?_, fun z hz => ?_⟩, fun hx => ?_, expireTimer_idle s n,
    fun sv src d rd e hsv hkind => ⟨exec_waitTimeout hrun hsv hkind, fun m he => ?_, fun a l m => ?_⟩,
    fun v hv hstand hstop hrev hquota hb => ?_, fun hq => ?_, fun hq => ?_, exec_quotaPeriod t hrun⟩
  · exact exec_timerExpiry hrun (by simp [Timer.reached, hx])
  · exact expireTimer_due hawake hz (by simp only [hx, TimerKind.afterExpiry])
  · exact exec_timerExpiry hrun (by simp [Timer.reached, hx])
  · exact expireTimer_due hawake hz (by simp only [hx, TimerKind.afterExpiry])
  · rw [exec_timerExpiry (p := False) hrun (by simp [Timer.reached, hx]), if_neg not_false]
  · subst he
    exact timeoutSaved_waiting m hkind
  · rw [releaseBy_match a l hkind]
    exact timeoutSaved_ready m rfl
  · rw [exec_budgetExhausted hrun hv hstand hb]
    refine ⟨fun hlt => by rw [if_neg (by omega)], fun hge => ?_⟩
    rw [if_pos hge, boundary_fault hv hstop (dueFault_budget hrev hquota hb hge)]
    have hten := fault_tenant fltBudget (s.regs c).pc hv
    exact ⟨_, rfl, fault_frees _ _ hv, by rw [hten]; rfl, by rw [hten]; rfl, by rw [hten]; rfl, fault_mem .., rfl⟩
  · rw [exec_quotaExhausted t hrun, if_pos hq]
    refine ⟨_, rfl, by simp, fun v hv ht hout hstand => ?_, fun d hd => foldl_quotaEnd_core hd _⟩
    exact foldl_quotaEnd_frees hv ht hout hstand (by fin_cases c <;> simp)
  · rw [exec_quotaExhausted t hrun, if_neg (by simp [hq])]

end Sys2Proof.Machine
end

section
/-!
PROOFS. The instruction reference (spec/02_instruction_reference.md): VNORM (R67, R68), CALL and RET (R71 to R73), and
the SYSTEM instructions (R84, R86, R87, R171, R202, R215, R422).
-/
namespace Sys2Proof.Machine

/-! ## VNORM (R68) -/

/-- The bitwise root from `r`, known to lie below `r + 2 ^ k`, is the integer square root. -/
theorem isqrtBits_eq_sqrt {n : Nat} : ∀ {k r : Nat}, r * r ≤ n → n < (r + 2 ^ k) * (r + 2 ^ k) →
    isqrtBits n k r = Nat.sqrt n
  | 0, _, hlo, hhi => Nat.eq_sqrt.mpr ⟨hlo, hhi⟩
  | k + 1, r, hlo, hhi => by
    unfold isqrtBits
    split
    next h => exact isqrtBits_eq_sqrt h (by rwa [Nat.add_assoc, ← Nat.two_mul, ← Nat.pow_succ'])
    next h => exact isqrtBits_eq_sqrt hlo (Nat.lt_of_not_le h)

/-- The exact quotient in Q31 of a lane `a` of a vector whose squares sum to `n`. -/
noncomputable def exactLane (a : Int) (n : Nat) : ℝ := (a : ℝ) * 2 ^ 31 / Real.sqrt n

theorem exactLane_sq {n : Nat} (a : Int) (hn : 0 < n) : exactLane a n ^ 2 * n = (a : ℝ) ^ 2 * 2 ^ 62 := by
  have hpos : (0 : ℝ) < n := by exact_mod_cast hn
  rw [exactLane, div_pow, Real.sq_sqrt hpos.le, div_mul_cancel₀ _ hpos.ne']
  ring

theorem exactLane_neg (a : Int) (n : Nat) : exactLane (-a) n = -exactLane a n := by
  simp only [exactLane, Int.cast_neg, neg_mul, neg_div]

theorem exactLane_nonneg {a : Int} (n : Nat) (ha : 0 ≤ a) : 0 ≤ exactLane a n := by
  have : (0 : ℝ) ≤ a := by exact_mod_cast ha
  unfold exactLane
  positivity

/-- The quotient of a lane has magnitude 1 at most. -/
theorem abs_exactLane_le {a : Int} {n : Nat} (hn : 0 < n) (ha : a ^ 2 ≤ n) : |exactLane a n| ≤ 2 ^ 31 := by
  have hpos : (0 : ℝ) < n := by exact_mod_cast hn
  have hle : (a : ℝ) ^ 2 ≤ n := by exact_mod_cast ha
  have hsq := exactLane_sq a hn
  refine abs_le_of_sq_le_sq (le_of_mul_le_mul_right ?_ hpos) (by positivity)
  linarith

/-- The quotient of a lane that is all of a vector, and positive, is +1.0. -/
theorem exactLane_one {a : Int} {n : Nat} (ha : 0 < a) (h : a ^ 2 = n) : exactLane a n = 2 ^ 31 := by
  have hpos : (0 : ℝ) < a := by exact_mod_cast ha
  have hn : (n : ℝ) = (a : ℝ) ^ 2 := by exact_mod_cast h.symm
  rw [exactLane, hn, Real.sqrt_sq hpos.le, mul_div_cancel_left₀ _ hpos.ne']

/-- The root that `normFloor` takes. -/
def normRoot (a : Int) (n : Nat) : Nat := isqrtBits (a.natAbs * a.natAbs * 2 ^ 62 / n) 32 0

/-- The root is the floor of the quotient's magnitude. -/
theorem normRoot_floor {a : Int} {n : Nat} (hn : 0 < n) (ha : a ^ 2 ≤ n) :
    (normRoot a n : ℝ) ≤ |exactLane a n| ∧ |exactLane a n| < normRoot a n + 1 := by
  have hpos : (0 : ℝ) < n := by exact_mod_cast hn
  have hsq := exactLane_sq a hn
  have habs : a.natAbs * a.natAbs ≤ n := by zify; rw [← sq, sq_abs]; exact ha
  have hq : a.natAbs * a.natAbs * 2 ^ 62 / n ≤ 2 ^ 62 :=
    Nat.div_le_of_le_mul (Nat.mul_le_mul_right _ habs)
  have hroot : normRoot a n = Nat.sqrt (a.natAbs * a.natAbs * 2 ^ 62 / n) :=
    isqrtBits_eq_sqrt (Nat.zero_le _) (by omega)
  have hm : ((a.natAbs * a.natAbs * 2 ^ 62 : ℕ) : ℝ) = (a : ℝ) ^ 2 * 2 ^ 62 := by
    push_cast [Nat.cast_natAbs]; rw [← sq, sq_abs]; norm_num
  obtain ⟨hlo, hhi⟩ := Nat.eq_sqrt.mp hroot
  rw [Nat.le_div_iff_mul_le hn] at hlo
  rw [Nat.div_lt_iff_lt_mul hn] at hhi
  have hlo' : (normRoot a n : ℝ) * normRoot a n * n ≤ exactLane a n ^ 2 * n := by
    rw [hsq, ← hm]; exact_mod_cast hlo
  have hhi' : exactLane a n ^ 2 * n < ((normRoot a n : ℝ) + 1) * (normRoot a n + 1) * n := by
    rw [hsq, ← hm]; exact_mod_cast hhi
  constructor
  · exact (le_abs_self _).trans (sq_le_sq.mp (by rw [sq]; exact le_of_mul_le_mul_right hlo' hpos))
  · exact abs_lt_of_sq_lt_sq (by rw [sq (_ + _)]; exact lt_of_mul_lt_mul_right hhi' hpos.le) (by positivity)

/-- `normFloor` takes a root for exact where it is the quotient's magnitude itself. -/
theorem normRoot_exact_iff {n : Nat} (a : Int) (hn : 0 < n) :
    normRoot a n * normRoot a n * n = a.natAbs * a.natAbs * 2 ^ 62 ↔ |exactLane a n| = normRoot a n := by
  have hpos : (0 : ℝ) < n := by exact_mod_cast hn
  have hsq : |exactLane a n| = normRoot a n ↔ exactLane a n ^ 2 = (normRoot a n : ℝ) ^ 2 := by
    rw [sq_eq_sq_iff_abs_eq_abs, abs_of_nonneg (Nat.cast_nonneg (α := ℝ) (normRoot a n))]
  rw [hsq, ← mul_left_inj' hpos.ne', exactLane_sq a hn, ← sq_abs (a : ℝ), ← Int.cast_abs, ← Nat.cast_natAbs, sq, sq,
    eq_comm]
  exact_mod_cast Iff.rfl

theorem normFloor_eq (a : Int) (n : Nat) : normFloor a n =
    let ex := normRoot a n * normRoot a n * n == a.natAbs * a.natAbs * 2 ^ 62
    if a < 0 then (if ex then (-(normRoot a n : Int), true) else (-(normRoot a n : Int) - 1, false))
    else ((normRoot a n : Int), ex) := rfl

/-- `normFloor` gives the floor of the exact quotient, and where it says so the quotient itself. -/
theorem normFloor_spec {a : Int} {n : Nat} (hn : 0 < n) (ha : a ^ 2 ≤ n) :
    ((normFloor a n).1 : ℝ) ≤ exactLane a n ∧ exactLane a n < (normFloor a n).1 + 1 ∧
      ((normFloor a n).2 = true → exactLane a n = (normFloor a n).1) := by
  obtain ⟨hlo, hhi⟩ := normRoot_floor hn ha
  have hexact := normRoot_exact_iff a hn
  rw [normFloor_eq]
  by_cases hneg : a < 0
  · have hx : |exactLane a n| = -exactLane a n := by
      rw [← abs_neg, ← exactLane_neg, abs_of_nonneg (exactLane_nonneg n (by omega))]
    rw [hx] at hlo hhi hexact
    by_cases hex : normRoot a n * normRoot a n * n = a.natAbs * a.natAbs * 2 ^ 62
    · have heq := hexact.mp hex
      simp only [hneg, hex, BEq.rfl, if_true]
      push_cast
      exact ⟨by linarith, by linarith, fun _ => by linarith⟩
    · simp only [hneg, beq_false_of_ne hex, if_true]
      push_cast
      have hlt := hlo.lt_of_ne fun h => hex (hexact.mpr h.symm)
      exact ⟨by linarith, by linarith, fun h => absurd h (by simp)⟩
  · rw [abs_of_nonneg (exactLane_nonneg n (by omega))] at hlo hhi hexact
    simp only [hneg, if_false]
    exact ⟨hlo, hhi, fun h => hexact.mp (eq_of_beq h)⟩

theorem toInt_satWord_32 (x : Int) : (satWord 32 x).toInt = clampTo 32 x := by
  unfold satWord clampTo
  exact BitVec.toInt_ofInt_eq_self (by decide) (by omega) (by omega)

/-- Saturation to Q31 keeps a value within 4 LSB of one that lies between -1.0 and +1.0. -/
theorem clampTo_32_near {e : Int} {x : ℝ} (hx : |x| ≤ 2 ^ 31) (h : |(e : ℝ) - x| ≤ 4) :
    |((clampTo 32 e : Int) : ℝ) - x| ≤ 4 := by
  rw [abs_le] at *
  obtain ⟨hx, hx'⟩ := hx
  rcases lt_or_ge e (-2 ^ 31) with hbelow | habove
  · have hc : clampTo 32 e = -2 ^ 31 := by unfold clampTo; omega
    have : (e : ℝ) < -2 ^ 31 := by exact_mod_cast hbelow
    rw [hc]; push_cast
    constructor <;> linarith
  rcases lt_or_ge e (2 ^ 31) with hin | htop
  · rwa [show clampTo 32 e = e by unfold clampTo; omega]
  · have hc : clampTo 32 e = 2 ^ 31 - 1 := by unfold clampTo; omega
    have : (2 : ℝ) ^ 31 ≤ e := by exact_mod_cast htop
    rw [hc]; push_cast
    constructor <;> linarith

/-- How far from the floor the free word puts a lane: four LSB below it only where the floor is the quotient. -/
def normStep (ex : Bool) (w : Word) : Int :=
  if ((w.toNat % 9 : Nat) : Int) = 0 ∧ ex = false then 0 else (w.toNat % 9 : Nat) - 4

theorem normStep_bounds (ex : Bool) (w : Word) :
    (if ex then -4 else -3) ≤ normStep ex w ∧ normStep ex w ≤ 4 := by
  unfold normStep
  cases ex
  case false => grind
  case true => grind

theorem normLane_eq (a : Int) (n : Nat) (w : Word) : normLane a n w =
    if (normFloor a n).1 = 2 ^ 31 then (0x7FFFFFFF, true)
    else
      let e := (normFloor a n).1 + normStep (normFloor a n).2 w
      (satWord 32 e, outside 32 e) := by
  simp only [← wordOfInt_satInt, ← not_fitsInt]
  rfl

/-- A lane of VNORM lies within 4 LSB of the exact quotient, whatever the free word. -/
theorem normLane_near {a : Int} {n : Nat} (w : Word) (hn : 0 < n) (ha : a ^ 2 ≤ n) :
    |((normLane a n w).1.toInt : ℝ) - exactLane a n| ≤ 4 := by
  obtain ⟨hlo, hhi, hexact⟩ := normFloor_spec hn ha
  have hone := abs_exactLane_le hn ha
  rw [normLane_eq]
  split
  next htop =>
    rw [htop] at hlo
    rw [abs_le] at *
    rw [show (0x7FFFFFFF : Word).toInt = 2 ^ 31 - 1 from rfl]
    push_cast at *
    constructor <;> linarith
  next =>
    rw [toInt_satWord_32]
    refine clampTo_32_near hone ?_
    have hstep := normStep_bounds (normFloor a n).2 w
    generalize normStep (normFloor a n).2 w = d at hstep
    rw [abs_le, Int.cast_add]
    cases hex : (normFloor a n).2 <;> rw [hex] at hstep <;> obtain ⟨hd, hd'⟩ := hstep
    case false =>
      have : (-3 : ℝ) ≤ d ∧ (d : ℝ) ≤ 4 := ⟨by exact_mod_cast hd, by exact_mod_cast hd'⟩
      constructor <;> linarith
    case true =>
      have : (-4 : ℝ) ≤ d ∧ (d : ℝ) ≤ 4 := ⟨by exact_mod_cast hd, by exact_mod_cast hd'⟩
      have := hexact hex
      constructor <;> linarith

/-- A lane that is exactly +1.0 saturates (R67). -/
theorem normLane_one {a : Int} {n : Nat} (w : Word) (ha : 0 < a) (h : a ^ 2 = n) :
    normLane a n w = (0x7FFFFFFF, true) := by
  have hn : 0 < n := by have := pow_pos ha 2; omega
  obtain ⟨hlo, hhi, -⟩ := normFloor_spec hn h.le
  rw [exactLane_one ha h] at hlo hhi
  have hle : (normFloor a n).1 ≤ 2 ^ 31 := by exact_mod_cast hlo
  have hge : 2 ^ 31 < (normFloor a n).1 + 1 := by exact_mod_cast hhi
  rw [normLane_eq, if_pos (by omega)]

/-- Both claims of R68 about a lane, for the sum of the squares as an integer. -/
theorem normLane_spec {a n : Int} (w : Word) (hn : 0 < n) (ha : a ^ 2 ≤ n) :
    |((normLane a n.toNat w).1.toInt : ℝ) - (a : ℝ) * 2 ^ 31 / Real.sqrt n| ≤ 4 ∧
      (0 < a ∧ a ^ 2 = n → normLane a n.toNat w = (0x7FFFFFFF, true)) := by
  obtain ⟨k, rfl⟩ := Int.eq_ofNat_of_zero_le hn.le
  exact ⟨normLane_near w (by omega) ha, fun ⟨hpos, hone⟩ => normLane_one w hpos hone⟩

theorem dotSum_self (a : XYZ) : dotSum a a = a.x.toInt ^ 2 + a.y.toInt ^ 2 + a.z.toInt ^ 2 := by
  simp only [dotSum, sq]

theorem dotSum_self_nonneg (a : XYZ) : 0 ≤ dotSum a a := by rw [dotSum_self]; positivity

theorem dotSum_self_eq_zero (a : XYZ) : dotSum a a = 0 ↔ a = ⟨0, 0, 0⟩ := by
  have hzero (w : Word) : w.toInt ^ 2 = 0 ↔ w = 0 := by
    rw [sq_eq_zero_iff, ← BitVec.toInt_inj]; rfl
  obtain ⟨x, y, z⟩ := a
  rw [dotSum_self, XYZ.mk.injEq, ← hzero x, ← hzero y, ← hzero z]
  constructor
  · intro h
    have := sq_nonneg x.toInt
    have := sq_nonneg y.toInt
    have := sq_nonneg z.toInt
    refine ⟨?_, ?_, ?_⟩ <;> linarith
  · rintro ⟨hx, hy, hz⟩
    rw [hx, hy, hz]; rfl

/-- VNORM of a vector that is not zero: each lane by its own. -/
theorem vnorm_of_ne {a : XYZ} (h : a ≠ ⟨0, 0, 0⟩) (w0 w1 w2 : Word) :
    vnorm a w0 w1 w2 =
      let n := (dotSum a a).toNat
      (⟨(normLane a.x.toInt n w0).1, (normLane a.y.toInt n w1).1, (normLane a.z.toInt n w2).1⟩,
        (normLane a.x.toInt n w0).2 || (normLane a.y.toInt n w1).2 || (normLane a.z.toInt n w2).2) := by
  have hn : ¬(dotSum a a).toNat = 0 := by
    have := dotSum_self_nonneg a
    have := mt (dotSum_self_eq_zero a).mp h
    omega
  simp only [vnorm, if_neg hn]

theorem vnorm_zero (w0 w1 w2 : Word) : vnorm ⟨0, 0, 0⟩ w0 w1 w2 = (⟨0, 0, 0⟩, false) := rfl

/-- Every lane of VNORM of a vector that is not zero is as R68 says. -/
theorem vnorm_lanes {a : XYZ} (h : a ≠ ⟨0, 0, 0⟩) (w0 w1 w2 : Word) :
    let n : Int := a.x.toInt ^ 2 + a.y.toInt ^ 2 + a.z.toInt ^ 2
    let r := vnorm a w0 w1 w2
    ∀ p ∈ [(a.x, r.1.x), (a.y, r.1.y), (a.z, r.1.z)],
      |(p.2.toInt : ℝ) - (p.1.toInt : ℝ) * 2 ^ 31 / Real.sqrt n| ≤ 4 ∧
      (0 < p.1.toInt ∧ p.1.toInt ^ 2 = n → p.2 = 0x7FFFFFFF ∧ r.2 = true) := by
  intro n r p hp
  have hsum : dotSum a a = n := dotSum_self a
  have hr : r = _ := vnorm_of_ne h w0 w1 w2
  have hn : 0 < dotSum a a := (dotSum_self_nonneg a).lt_of_ne' (mt (dotSum_self_eq_zero a).mp h)
  rw [hsum] at hr hn
  have hx := sq_nonneg a.x.toInt
  have hy := sq_nonneg a.y.toInt
  have hz := sq_nonneg a.z.toInt
  rw [hr] at hp ⊢
  simp only [List.mem_cons, List.not_mem_nil, or_false] at hp
  rcases hp with rfl | rfl | rfl
  · obtain ⟨hnear, hone⟩ := normLane_spec w0 hn (show a.x.toInt ^ 2 ≤ n by omega)
    exact ⟨hnear, fun h => by simp [hone h]⟩
  · obtain ⟨hnear, hone⟩ := normLane_spec w1 hn (show a.y.toInt ^ 2 ≤ n by omega)
    exact ⟨hnear, fun h => by simp [hone h]⟩
  · obtain ⟨hnear, hone⟩ := normLane_spec w2 hn (show a.z.toInt ^ 2 ≤ n by omega)
    exact ⟨hnear, fun h => by simp [hone h]⟩

/-- A cost that L0 and L1 share (Table 2.3). -/
theorem byLevel_low (s : State) (a b d : Nat) :
    byLevel s a a b d = if s.level.cur = 2 then b else if s.level.cur = 3 then d else a := by
  have hlevels : ∀ l : BitVec 2, l = 0 ∨ l = 1 ∨ l = 2 ∨ l = 3 := by decide
  rcases hlevels s.level.cur with h | h | h | h <;> simp [byLevel, h]

/-- VNORM with a defined encoding writes `vnorm` of its operand and its flags. -/
theorem exec_vnorm {c : CoreId} {v : Inv} {s s' : State} {f : RForm}
    (h : Begins c (.vnorm c f) v { s with free := s.free + 3 } s')
    (hmod : f.mod = 0) (hd : isVec f.rd = true) (ha : isVec f.ra = true) (hb : f.rb = 0) :
    exec (.vnorm c f) s =
      let r := s'.regs c
      let p := vnorm (r.rv f.ra) (Config.freeWord s.free) (Config.freeWord (s.free + 1)) (Config.freeWord (s.free + 2))
      .next (goesOn c (if s.level.cur = 2 then 10 else if s.level.cur = 3 then 12 else 8) s' { (r.wv f.rd p.1) with
        fl := { r.fl with z := decide (r.rv f.ra = ⟨0, 0, 0⟩), q := r.fl.q || p.2 } }) := by
  change execVnorm c f s = _
  have hok : (f.mod == 0 && isVec f.rd && isVec f.ra && f.rb == 0) = true := by simp [hmod, hd, ha, hb]
  have hz : (dotSum ((s'.regs c).rv f.ra) ((s'.regs c).rv f.ra) == 0) = decide ((s'.regs c).rv f.ra = ⟨0, 0, 0⟩) :=
    decide_eq_decide.mpr (dotSum_self_eq_zero _)
  simp only [execVnorm, hok, plainInstr_begins h, byLevel_low, hz]
  rfl

/-- Settles O4: the lanes by `normLane_near` and `normLane_one`, whatever the free words. -/
theorem vnormWithinFourLsb : Obligations.VnormWithinFourLsb := by
  unfold Obligations.VnormWithinFourLsb
  intro c v s s' f h hmod hd ha hb r a n cyc
  refine ⟨_, _, exec_vnorm h hmod hd ha hb, fun hzero => ?_, fun hne p hp => ?_⟩
  · rw [show (s'.regs c).rv f.ra = ⟨0, 0, 0⟩ from hzero, vnorm_zero]
    exact ⟨rfl, rfl⟩
  · exact vnorm_lanes hne _ _ _ p hp

/-! ## CALL and RET (R71 to R73) -/

/-- A label is a displacement in words from the branch's own address (R71). -/
theorem branchTarget_eq (pc : Word) (off : BitVec 18) :
    branchTarget pc off = BitVec.ofInt 32 (pc.toInt + 4 * off.toInt) := by
  rw [BitVec.ofInt_add, BitVec.ofInt_toInt, BitVec.ofInt_mul, mul_comm]
  exact congrArg (pc + ·) (BitVec.shiftLeft_eq_mul_twoPow ..)

/-- A call pushes the return address and jumps, or finds the stack full. -/
theorem callTo_eq (c : CoreId) (v : Inv) (target : Word) (s : State) :
    callTo c v target s =
      let r := s.regs c
      if r.stack.length < 8 then jumpsTo c v target s { r with stack := (r.pc + 4) :: r.stack }
      else fault c fltStack r.pc s := by
  by_cases h : (s.regs c).stack.length < 8
  · simp only [callTo, if_neg (Nat.not_le.mpr h), taken_jumps, if_pos h]
  · simp only [callTo, if_pos (Nat.not_lt.mp h), if_neg h]

/-- Settles O9: a call by `callTo_eq`, a return by what the stack holds. -/
theorem callsAndReturns : Obligations.CallsAndReturns := by
  unfold Obligations.CallsAndReturns
  intro c v s s' f g
  refine ⟨fun h hra => ?_, fun h hmod hrd hrb => ?_, fun a rest h hg hstack => ?_, fun h hg hstack => ?_⟩
  · change execCall c f s = _
    simp only [execCall, hra, BEq.rfl, flowInstr_begins h, callTo_eq, branchTarget_eq]
    rfl
  · change execCallReg c g s = _
    have hok : (g.mod == 0 && unusedZero [g.rd, g.rb]) = true := by simp [hmod, hrd, hrb, unusedZero]
    simp only [execCallReg, hok, flowInstr_begins h, callTo_eq]
    rfl
  · subst hg
    change execRet c ⟨0, 0, 0, 0⟩ s = _
    simp only [execRet, unusedZero, List.all_cons, List.all_nil, BEq.rfl, Bool.and_true, flowInstr_begins h, hstack,
      taken_jumps]
  · subst hg
    change execRet c ⟨0, 0, 0, 0⟩ s = _
    simp only [execRet, unusedZero, List.all_cons, List.all_nil, BEq.rfl, Bool.and_true, flowInstr_begins h, hstack]
    rfl

/-! ## The SYSTEM instructions (Table 2.10) -/

/-- An instruction that addresses no unit passes orders 4 and 5 with orders 2 and 3. -/
theorem specInstr_noUnit {c : CoreId} {i : Instr} {v : Inv} {s s' : State} {o2 o3 : Tid → Regs → State → Bool}
    {body : CoreId → Tid → Regs → State → Ans} {cyc : State → Nat} (h : Begins c i v s s')
    (h2 : o2 v.tenant (s'.regs c) s' = true) (h3 : o3 v.tenant (s'.regs c) s' = true) :
    specInstr c i { o2 := o2, o3 := o3, body := body, cyc := cyc } s =
      let a := body c v.tenant (s'.regs c) s'
      if a.retires then a.after (retireUsing c v a.banks s a.st a.upd (cyc s' + a.extra) a.s) else a.s :=
  specInstr_passes _ h rfl h2 h3 rfl rfl rfl

/-- An instruction that addresses no unit retires with the status that its body answers. -/
theorem specInstr_status {c : CoreId} {i : Instr} {v : Inv} {s s' u : State} {o2 o3 : Tid → Regs → State → Bool}
    {body : CoreId → Tid → Regs → State → Ans} {cyc : State → Nat} {st : BitVec 8} (h : Begins c i v s s')
    (h2 : o2 v.tenant (s'.regs c) s' = true) (h3 : o3 v.tenant (s'.regs c) s' = true)
    (hb : body c v.tenant (s'.regs c) s' = .status st u) :
    specInstr c i { o2 := o2, o3 := o3, body := body, cyc := cyc } s = retire c v.tenant st id (cyc s') u := by
  rw [specInstr_noUnit h h2 h3, hb]
  exact retireUsing_nil c v s st id _ u

/-- MOD of one defined bit. -/
theorem mod_bit0 {m : BitVec 8} (h : m.toNat < 2) : m.getLsbD 0 = decide (m.toNat = 1) := by
  rw [BitVec.getLsbD, Nat.testBit_zero, Nat.mod_eq_of_lt h]

theorem unusedZero_of {f : RForm} (hrd : f.rd = 0) (hra : f.ra = 0) (hrb : f.rb = 0) :
    unusedZero [f.rd, f.ra, f.rb] = true := by
  rw [hrd, hra, hrb]; rfl

/-- Order 2 of an instruction that uses MOD alone. -/
theorem modField_ok {f : RForm} {n : Nat} (hm : f.mod.toNat < n) (hrd : f.rd = 0) (hra : f.ra = 0) (hrb : f.rb = 0) :
    (f.mod.toNat / n == 0 && unusedZero [f.rd, f.ra, f.rb]) = true := by
  rw [unusedZero_of hrd hra hrb, Nat.div_eq_of_lt hm]; rfl

/-- LEVEL in the order of R171, after what the device does by itself in the clock. -/
theorem exec_level {c : CoreId} {v : Inv} {s s' u : State} {f : RForm} (h : Begins c (.level c f) v s s')
    (hm : f.mod.toNat < 4) (hrd : f.rd = 0) (hra : f.ra = 0) (hrb : f.rb = 0)
    (hmay : s'.may v.tenant capLevel = true) (hu : ownFirst levelFirst s' = u) :
    exec (.level c f) s = .next (
      if u.level.change.isSome then retire c v.tenant stBusy id s'.base u
      else if f.mod.toNat = u.level.cur.toNat then retire c v.tenant stOk id s'.base u
      else if u.level.maxl.toNat < f.mod.toNat then retire c v.tenant stRange id s'.base u
      else if u.level.thlim.toNat < f.mod.toNat then retire c v.tenant stTherm id s'.base u
      else retire c v.tenant stPending id s'.base (startChange (BitVec.ofNat 2 f.mod.toNat) false u)) := by
  have hn : (BitVec.ofNat 2 f.mod.toNat).toNat = f.mod.toNat := (BitVec.toNat_ofNat ..).trans (Nat.mod_eq_of_lt hm)
  have hcur : BitVec.ofNat 2 f.mod.toNat = u.level.cur ↔ f.mod.toNat = u.level.cur.toNat := by
    rw [← BitVec.toNat_inj, hn]
  refine congrArg Host.Outcome.next ?_
  split_ifs with hchange hsame hmax hlim <;> refine specInstr_status h (modField_ok hm hrd hra hrb) hmay ?_ <;>
    simp only [hu, hcur, hn]
  · rw [if_pos hchange]
  · rw [if_neg hchange, if_pos hsame]; rfl
  · rw [if_neg hchange, if_neg hsame, if_pos hmax]
  · rw [if_neg hchange, if_neg hsame, if_neg hmax, if_pos hlim]
  · rw [if_neg hchange, if_neg hsame, if_neg hmax, if_neg hlim]

/-- SLEEP that no entry in progress stops: refused by its refusers or by an empty armed set, or entered (R202, R203). -/
theorem exec_sleep {c : CoreId} {v : Inv} {s s' : State} {f : RForm} (h : Begins c (.sleep c f) v s s')
    (hm : f.mod.toNat < 2) (hrd : f.rd = 0) (hra : f.ra = 0) (hrb : f.rb = 0)
    (hmay : s'.may v.tenant capSleep = true) (hentry : s'.sleep.entry = none) :
    exec (.sleep c f) s = .next (
      let (a, u) := armedSet (decide (f.mod.toNat = 1)) s'
      if refusers s' ≠ [] then retire c v.tenant stState id s'.base (recordRefusers (refusers s') s')
      else if a.mask = 0 then retire c v.tenant stState id s'.base u
      else startEntry c v.tenant (decide (f.mod.toNat = 1)) a u) := by
  refine congrArg Host.Outcome.next ?_
  have ho2 := modField_ok hm hrd hra hrb
  have hfree : ¬s'.sleep.entry.isSome = true := by simp [hentry]
  dsimp only
  split_ifs with href hmask
  · refine specInstr_status h ho2 hmay ?_
    simp only [mod_bit0 hm]
    rw [if_neg hfree, if_pos href]
  · refine specInstr_status h ho2 hmay ?_
    simp only [mod_bit0 hm]
    rw [if_neg hfree, if_neg href, if_pos hmask]
  · rw [specInstr_noUnit h ho2 hmay]
    simp only [mod_bit0 hm]
    rw [if_neg hfree, if_neg href, if_neg hmask]
    rfl

/-- The cache lines that INVAL leaves valid (R422). -/
theorem invalLines_field (w : Word) (s : State) :
    invalLines (fieldOf w 6 0) s = { s with hive := { s.hive with
      cache := vmap (fun l => { l with valid := l.valid && decide (w.toNat % 128 ≠ 127 ∧ l.dest.toNat ≠ w.toNat % 128) })
        s.hive.cache } } := by
  have hfield : fieldOf w 6 0 = w.toNat % 128 := congrArg (· % 128) (Nat.div_one _)
  have hline (d : Nat) (l : CacheLine) : (if d = 127 ∨ l.dest.toNat = d then { l with valid := false } else l) =
      { l with valid := l.valid && decide (d ≠ 127 ∧ l.dest.toNat ≠ d) } := by
    by_cases h : d = 127 ∨ l.dest.toNat = d
    · rw [if_pos h, decide_eq_false (by tauto), Bool.and_false]
    · rw [if_neg h, decide_eq_true (by tauto), Bool.and_true]
  simp only [invalLines, State.modHive, hfield, hline]

/-- Settles O14: each instruction by the equation of its orders; none addresses a unit. -/
theorem systemInstructions : Obligations.SystemInstructions := by
  unfold Obligations.SystemInstructions
  intro c v s s' f r t m ret
  refine ⟨fun h hm hrd hra hrb hmay => ?_, fun h hm hrd hra hrb hmay hentry href => ?_,
    fun h hm hrd hra hrb hmay hentry href => ?_, fun h hm hrd hra hrb hmay => ?_, fun h hm hrd hra hrb ht => ?_, rfl,
    fun h hmod hrd hrb ht => ?_, fun h hmod hra hrb => ?_⟩
  · rw [exec_level h hm hrd hra hrb hmay rfl]
    simp only [apply_ite Host.Outcome.next]
    rfl
  · rw [exec_sleep h hm hrd hra hrb hmay hentry]
    simp only [href, ne_eq, not_true_eq_false, if_false, apply_ite Host.Outcome.next]
    rfl
  · rw [exec_sleep h hm hrd hra hrb hmay hentry]
    dsimp only
    rw [if_pos href]
    rfl
  · refine congrArg Host.Outcome.next ((specInstr_status h (modField_ok hm hrd hra hrb) hmay rfl).trans ?_)
    rw [mod_bit0 hm]
    rfl
  · have ho2 : (f.mod.toNat < 11 && unusedZero [f.rd, f.ra, f.rb]) = true := by
      rw [unusedZero_of hrd hra hrb, decide_eq_true hm]; rfl
    exact congrArg Host.Outcome.next (specInstr_status h ho2 (decide_eq_true ht) rfl)
  · have ho2 : (f.mod == 0 && unusedZero [f.rd, f.rb]) = true := by simp [hmod, hrd, hrb, unusedZero]
    refine congrArg Host.Outcome.next (specInstr_status h ho2 (decide_eq_true ht) ?_)
    rw [← invalLines_field]
    rfl
  · have ho2 : (f.mod == 0 && unusedZero [f.ra, f.rb]) = true := by simp [hmod, hra, hrb, unusedZero]
    refine congrArg Host.Outcome.next ((specInstr_noUnit h ho2 rfl).trans ?_)
    exact retireUsing_nil ..

end Sys2Proof.Machine
end

section
/-!
PROOFS. Sleep and wake (spec/06_sleep_and_wake.md): the latch of a wake source, the wired detectors of the ports and the
LINE pins, and the radio wake listener (R195, R196, R198, R199, R205, R445).
-/
namespace Sys2Proof.Machine

/-! ## A wake source latches (R205) -/

/-- Source `code` can latch: the detectors are armed, it is in the armed set, it has not latched yet, and the device is
not on its way to the release point, where WAKEMASK would record the flag too (R211). -/
def CanLatch (code : Nat) (s : State) : Prop :=
  detecting s = true ∧ s.sleep.armed.mask.getLsbD code = true ∧ (∀ w ∈ s.sleep.armed.flags, w.code ≠ code) ∧
    s.time.mode ≠ .releasing

/-- The flag that a source leaves when it latches now. An abort test sees it two clocks later (R205). -/
def flagNow (code info : Nat) (s : State) : WakeFlag := ⟨code, info, s.time.phys, s.time.clk + 2⟩

/-- The state with another armed set. -/
def State.withArmed (s : State) (B : ArmedSet) : State := s.setSleep (fun p => { p with armed := B })

theorem armed_eq_mask (A : ArmedSet) (code : Nat) : A.armed code = A.mask.getLsbD code := rfl

theorem CanLatch.armed {code : Nat} {s : State} (h : CanLatch code s) : s.sleep.armed.armed code = true := h.2.1

theorem latchWake_canLatch {code : Nat} {s : State} (info : Nat) (h : CanLatch code s) :
    latchWake code info s =
      s.withArmed { s.sleep.armed with flags := s.sleep.armed.flags ++ [flagNow code info s] } := by
  obtain ⟨hdet, hmask, hnew, hmode⟩ := h
  have hany : s.sleep.armed.flags.any (fun w => w.code == code) = false := by simpa using hnew
  rw [latchWake, if_neg (by simp [hdet, armed_eq_mask, hmask, hany])]
  exact if_neg hmode

theorem latchWake_latched {code : Nat} {s : State} (info : Nat) (h : ∃ w ∈ s.sleep.armed.flags, w.code = code) :
    latchWake code info s = s :=
  if_pos (.inr (.inr (by simpa using h)))

/-! ## The supplies of the banks -/

theorem vioHOn_iff (s : State) : vioHOn s = true ↔ 1140 ≤ s.vioH ∧ s.vioH ≤ 1980 := by simp [vioHOn]

theorem vioLOn_iff (s : State) : vioLOn s = true ↔ 1620 ≤ s.vioL ∧ s.vioL ≤ 3630 := by simp [vioLOn]

/-! ## The wired detectors of PORT_0 (0) and PORT_2 (1) (R195, R196) -/

/-- The waggle shift register of a port. -/
def ArmedSet.waggle (A : ArmedSet) (p : Fin 2) : Word := if p = 0 then A.wag0 else A.wag2

/-- The armed set with another waggle shift register. -/
def ArmedSet.setWaggle (A : ArmedSet) (p : Fin 2) (w : Word) : ArmedSet :=
  if p = 0 then { A with wag0 := w } else { A with wag2 := w }

/-- The wake code of a port's activity detector: P0ACT or P2ACT. -/
def activityCode (p : Fin 2) : Nat := if p = 0 then 2 else 4

/-- The wake code of a port's waggle detector: P0WAG or P2WAG. -/
def waggleCode (p : Fin 2) : Nat := if p = 0 then 3 else 5

/-- The number of the port in INFO. -/
def portInfo (p : Fin 2) : Nat := if p = 0 then 0 else 2

/-- A waggle register after the shift of one bit, most significant bit first. -/
def shiftIn (w : Word) (b : Bool) : Word := (w <<< 1) ||| (if b then 1 else 0)

/-- The latch beside a write of a waggle register: neither field touches the other. -/
theorem latchWake_setWaggle {code : Nat} {s : State} (info : Nat) (p : Fin 2) (w : Word) (h : CanLatch code s) :
    latchWake code info (s.withArmed (s.sleep.armed.setWaggle p w)) =
      s.withArmed { s.sleep.armed.setWaggle p w with flags := s.sleep.armed.flags ++ [flagNow code info s] } := by
  obtain rfl | rfl : p = 0 ∨ p = 1 := by omega
  · exact latchWake_canLatch (s := s.withArmed (s.sleep.armed.setWaggle 0 w)) info h
  · exact latchWake_canLatch (s := s.withArmed (s.sleep.armed.setWaggle 1 w)) info h

theorem exec_wakeActivity_off {s : State} (p : Fin 2) (ns : Nat) (h : vioHOn s = false) :
    exec (.wakeActivity p ns) s = .next s :=
  congrArg Host.Outcome.next (if_pos h)

theorem exec_wakeActivity_on {s : State} (p : Fin 2) (ns : Nat) (h : vioHOn s = true) :
    exec (.wakeActivity p ns) s = .next (
      if 50 ≤ ns then latchWake (activityCode p) (portInfo p) (s.withArmed (s.sleep.armed.setWaggle p 0))
      else s.withArmed (s.sleep.armed.setWaggle p 0)) := by
  refine congrArg Host.Outcome.next ((if_neg (by simp [h])).trans ?_)
  obtain rfl | rfl : p = 0 ∨ p = 1 := by omega
  · rfl
  · rfl

theorem exec_wakeActivity_short {s : State} {ns : Nat} (p : Fin 2) (h : vioHOn s = true) (hns : ns < 50) :
    exec (.wakeActivity p ns) s = .next (s.withArmed (s.sleep.armed.setWaggle p 0)) := by
  rw [exec_wakeActivity_on p ns h, if_neg (by omega)]

theorem exec_wakeActivity_fires {s : State} {ns : Nat} {p : Fin 2} (h : vioHOn s = true) (hns : 50 ≤ ns)
    (hr : CanLatch (activityCode p) s) :
    exec (.wakeActivity p ns) s = .next (s.withArmed { s.sleep.armed.setWaggle p 0 with
      flags := s.sleep.armed.flags ++ [flagNow (activityCode p) (portInfo p) s] }) := by
  rw [exec_wakeActivity_on p ns h, if_pos hns, latchWake_setWaggle _ p 0 hr]

theorem exec_wakeWaggle_off {s : State} (p : Fin 2) (b : Bool) (h : vioHOn s = false) :
    exec (.wakeWaggle p b) s = .next s :=
  congrArg Host.Outcome.next (if_pos h)

theorem exec_wakeWaggle_on {s : State} (p : Fin 2) (b : Bool) (h : vioHOn s = true) :
    exec (.wakeWaggle p b) s = .next (
      let w := shiftIn (s.sleep.armed.waggle p) b
      if w = 0xA55AC33C then latchWake (waggleCode p) (portInfo p) (s.withArmed (s.sleep.armed.setWaggle p w))
      else s.withArmed (s.sleep.armed.setWaggle p w)) := by
  refine congrArg Host.Outcome.next ((if_neg (by simp [h])).trans ?_)
  obtain rfl | rfl : p = 0 ∨ p = 1 := by omega
  · rfl
  · rfl

theorem exec_wakeWaggle_shifts {s : State} {p : Fin 2} {b : Bool} (h : vioHOn s = true)
    (hw : shiftIn (s.sleep.armed.waggle p) b ≠ 0xA55AC33C) :
    exec (.wakeWaggle p b) s =
      .next (s.withArmed (s.sleep.armed.setWaggle p (shiftIn (s.sleep.armed.waggle p) b))) := by
  rw [exec_wakeWaggle_on p b h]
  exact congrArg Host.Outcome.next (if_neg hw)

theorem exec_wakeWaggle_fires {s : State} {p : Fin 2} {b : Bool} (h : vioHOn s = true)
    (hw : shiftIn (s.sleep.armed.waggle p) b = 0xA55AC33C) (hr : CanLatch (waggleCode p) s) :
    exec (.wakeWaggle p b) s = .next (s.withArmed { s.sleep.armed.setWaggle p 0xA55AC33C with
      flags := s.sleep.armed.flags ++ [flagNow (waggleCode p) (portInfo p) s] }) := by
  rw [exec_wakeWaggle_on p b h, hw]
  exact congrArg Host.Outcome.next (latchWake_setWaggle _ p _ hr)

/-! ## The LINE pins (R198) -/

theorem exec_wakeLine_edge {s : State} {pin : Fin 48} {lvl : Bool} (h : vioLOn s = true)
    (hpin : (pin.val, lvl) ∈ s.sleep.armed.pins) :
    exec (.wakeLine pin lvl) s = .next (latchWake 8 pin.val s) :=
  congrArg Host.Outcome.next (if_pos ⟨h, List.contains_iff_mem.mpr hpin⟩)

theorem exec_wakeLine_ignored {s : State} {pin : Fin 48} {lvl : Bool}
    (h : vioLOn s = false ∨ (pin.val, lvl) ∉ s.sleep.armed.pins) : exec (.wakeLine pin lvl) s = .next s := by
  refine congrArg Host.Outcome.next (if_neg fun ⟨hon, hpin⟩ => ?_)
  obtain hoff | hnot := h
  · simp [hoff] at hon
  · exact hnot (List.contains_iff_mem.mp hpin)

/-! ## The radio wake listener (R199, R445) -/

theorem edThreshold_eq (A : ArmedSet) : edThreshold A = -100 + max 5 (min 60 (A.edthr.toNat : Int)) := by
  simp [edThreshold]

/-- A window of the listener is due: it is armed in Hibernate, and its period is over since the last one. -/
def windowDue (s : State) : Prop :=
  s.time.mode = .hibernate ∧ (s.sleep.armed.armed 6 = true ∨ s.sleep.armed.armed 7 = true) ∧
    s.sleep.armed.lastWin + (s.sleep.armed.lper.toNat + 1) * usTicks 8000 ≤ s.time.phys

/-- The state in which a listener window of `us` microseconds has opened. -/
def openWindow (us : Nat) (s : State) : State :=
  (s.setDom .radio true).setSleep (fun p => { p with
    armed := { p.armed with lastWin := s.time.phys }
    listenTo := s.time.phys + usTicks us })

theorem listenerTakes_openWindow (r : RfWindow) (us : Nat) (s : State) :
    listenerTakes r (openWindow us s) = listenerTakes r s := rfl

theorem listenerTakes_otherMode {r : RfWindow} {s : State} (h : r.hr ≠ s.sleep.armed.hr) :
    listenerTakes r s = false := by
  simp [listenerTakes, h]

theorem latchWake_openWindow {code : Nat} {s : State} (info us : Nat) (h : CanLatch code s) :
    latchWake code info (openWindow us s) = (openWindow us s).withArmed
      { s.sleep.armed with lastWin := s.time.phys, flags := s.sleep.armed.flags ++ [flagNow code info s] } :=
  latchWake_canLatch (s := openWindow us s) info h

theorem exec_listenerWindow_notDue {s : State} (r : RfWindow) (h : ¬windowDue s) :
    exec (.listenerWindow r) s = .next s :=
  congrArg Host.Outcome.next (if_neg h)

theorem exec_listenerWindow_quiet {s : State} {r : RfWindow} (h : windowDue s) (hdbm : r.dbm ≤ edThreshold s.sleep.armed) :
    exec (.listenerWindow r) s = .next (openWindow 192 s) := by
  have hquiet : decide (edThreshold s.sleep.armed < r.dbm) = false := by simpa using hdbm
  refine congrArg Host.Outcome.next ((if_pos h).trans ?_)
  simp only [hquiet, Bool.false_eq_true, and_false, if_false]
  rfl

theorem exec_listenerWindow_energy {s : State} {r : RfWindow} (h : windowDue s)
    (hdbm : edThreshold s.sleep.armed < r.dbm) (h6 : s.sleep.armed.armed 6 = true) :
    exec (.listenerWindow r) s = .next (latchWake 6 (11 + s.sleep.armed.ch.toNat) (openWindow 192 s)) := by
  refine congrArg Host.Outcome.next ((if_pos h).trans ?_)
  simp only [decide_eq_true hdbm, h6, Bool.true_eq_false, false_and, if_true, if_false]
  rfl

theorem exec_listenerWindow_waggle {s : State} {r : RfWindow} (h : windowDue s)
    (hdbm : edThreshold s.sleep.armed < r.dbm) (h6 : s.sleep.armed.armed 6 = false) :
    exec (.listenerWindow r) s = .next (
      if listenerTakes r s then latchWake 7 (11 + s.sleep.armed.ch.toNat) (openWindow 5000 s) else openWindow 5000 s) := by
  refine congrArg Host.Outcome.next ((if_pos h).trans ?_)
  simp only [decide_eq_true hdbm, h6, Bool.false_eq_true, and_self, if_true, if_false]
  rfl

/-! ## RADIO, powered by a window and down at its end -/

theorem domOn_setDom (s : State) (d : Domain) (on : Bool) : (s.setDom d on).domOn d = on := by
  cases on <;> simp [State.setDom, State.domOn]

theorem endWindow_over {s : State} (hmode : s.time.mode = .hibernate) (h : s.sleep.listenTo ≤ s.time.phys) :
    endWindow s = s.setDom .radio false :=
  if_pos ⟨hmode, h⟩

/-- Settles O52: each detector by its equation, and the latch of a source by `latchWake_canLatch`. -/
theorem wakeDetectors : Obligations.WakeDetectors := by
  unfold Obligations.WakeDetectors
  intro s ns b p pin r A set ready flag heard onL on sh thr due
  have hthr : edThreshold A = thr := edThreshold_eq A
  have hH : on → vioHOn s = true := (vioHOn_iff s).mpr
  have hHoff : ¬on → vioHOn s = false := fun h => by simpa using mt (vioHOn_iff s).mp h
  have hL : onL → vioLOn s = true := (vioLOn_iff s).mpr
  have hLoff : ¬onL → vioLOn s = false := fun h => by simpa using mt (vioLOn_iff s).mp h
  have hdue : due → A.armed 6 = true ∨ A.armed 7 = true → windowDue s := fun h harm => ⟨h.1, harm, h.2⟩
  refine ⟨fun h hns hr => ?_, fun h hns hr => ?_, fun h hns => ⟨?_, ?_⟩, fun h => ⟨?_, ?_⟩, fun h hw => ?_, fun h hw hr => ?_,
    fun h hw => ?_, fun h hw hr => ?_, fun h hpin hr => ?_, fun h => ?_, fun h hdbm hr => ?_, fun h hdbm h6 hr htake => ?_,
    fun h hdbm h6 h7 htake => ?_, fun h hdbm harm => ?_, ?_, ?_, fun hmode hto => ?_, fun h => ?_⟩
  · exact exec_wakeActivity_fires (p := 0) (hH h) hns hr
  · exact exec_wakeActivity_fires (p := 1) (hH h) hns hr
  · exact exec_wakeActivity_short 0 (hH h) hns
  · exact exec_wakeActivity_short 1 (hH h) hns
  · exact exec_wakeActivity_off p ns (hHoff h)
  · exact exec_wakeWaggle_off p b (hHoff h)
  · exact exec_wakeWaggle_shifts (p := 0) (hH h) hw
  · exact exec_wakeWaggle_fires (p := 0) (hH h) hw hr
  · exact exec_wakeWaggle_shifts (p := 1) (hH h) hw
  · exact exec_wakeWaggle_fires (p := 1) (hH h) hw hr
  · rw [exec_wakeLine_edge (hL h) hpin, latchWake_canLatch _ hr]
    rfl
  · obtain hoff | hpin | hlatched := h
    · exact exec_wakeLine_ignored (.inl (hLoff hoff))
    · exact exec_wakeLine_ignored (.inr hpin)
    · by_cases hedge : vioLOn s = true ∧ (pin.val, b) ∈ A.pins
      · rw [exec_wakeLine_edge hedge.1 hedge.2, latchWake_latched _ hlatched]
      · refine exec_wakeLine_ignored ?_
        rwa [not_and_or, Bool.not_eq_true] at hedge
  · have h6 : A.armed 6 = true := CanLatch.armed hr
    rw [exec_listenerWindow_energy (hdue h (.inl h6)) (hthr ▸ hdbm) h6, latchWake_openWindow _ _ hr]
    rfl
  · have h7 : A.armed 7 = true := CanLatch.armed hr
    rw [exec_listenerWindow_waggle (hdue h (.inr h7)) (hthr ▸ hdbm) h6, if_pos htake, latchWake_openWindow _ _ hr]
    rfl
  · rw [exec_listenerWindow_waggle (hdue h (.inr h7)) (hthr ▸ hdbm) h6, if_neg (by simp [htake])]
    rfl
  · exact exec_listenerWindow_quiet (hdue h harm) (hthr ▸ hdbm)
  · exact listenerTakes_otherMode
  · exact domOn_setDom s .radio true
  · rw [endWindow_over hmode hto, domOn_setDom]
  · refine exec_listenerWindow_notDue r fun ⟨hmode, harm, hper⟩ => ?_
    obtain hawake | hearly | ⟨h6, h7⟩ := h
    · exact hawake hmode
    · exact absurd hper (Nat.not_le.mpr hearly)
    · exact harm.elim (Bool.eq_false_iff.mp h6) (Bool.eq_false_iff.mp h7)

end Sys2Proof.Machine
end

section
/-!
PROOFS. Credit queues (spec/12_credit_queues.md): the swap of a queue's banks (R339, R344) and its events (R350).
-/
namespace Sys2Proof.Machine

/-! ## When the banks swap (R339) -/

/-- The fill bank meets the condition that SWAPM selects: a word (eager), a word with END, or SWCNT words. -/
def Queue.FillDue (x : Queue) : Prop :=
  if x.swapm = 0 then x.fill ≠ []
  else if x.swapm = 1 then ∃ d ∈ x.fill, d.tag.getLsbD 3 = true
  else x.swcnt ≤ x.fill.length

theorem Queue.swaps_iff (x : Queue) : x.swaps = true ↔ x.st = .run ∧ x.drain = [] ∧ x.FillDue := by
  simp only [Queue.swaps, Bool.and_eq_true, beq_iff_eq, List.isEmpty_iff, and_assoc, Queue.FillDue]
  refine and_congr_right' (and_congr_right' ?_)
  split
  · simp
  · split
    · exact List.any_eq_true
    · exact decide_eq_true_iff

/-! ## What a swap does (R339, R344, R350) -/

/-- A queue after its swap: the fill bank is the drain bank, and with ACRED the credits are a whole bank. -/
def Queue.swapped (x : Queue) : Queue :=
  { x with
    drain := x.fill, fill := [], fbank := !x.fbank, nswap := satInc x.nswap
    cred := if x.acred then x.bankWords else x.cred }

/-- A queue event, enabled or not, adds to the events of the next clock alone. -/
theorem queueEvent_adds_later (q : QueueId) (kind lo hi : Nat) (s : State) :
    ∃ l, queueEvent q kind lo hi s = { s with later := s.later ++ l } := by
  unfold queueEvent
  split
  · exact ⟨_, rfl⟩
  · exact ⟨[], by rw [List.append_nil]⟩

theorem creditRaised_adds_later (q : QueueId) (old : Nat) (s : State) :
    ∃ l, creditRaised q old s = { s with later := s.later ++ l } := by
  unfold creditRaised
  dsimp only
  split
  · exact queueEvent_adds_later ..
  · exact ⟨[], by rw [List.append_nil]⟩

/-- A swap that is due writes its queue, and beside that adds to the events of the next clock alone. -/
theorem queueSwap_due {q : QueueId} {s : State} (hrun : s.running = true) (hswap : (s.queue q).swaps = true) :
    ∃ l, queueSwap q s = { s.setQueue q (s.queue q).swapped with later := s.later ++ l } := by
  rw [queueSwap, if_pos ⟨hrun, hswap⟩]
  change ∃ l, creditRaised q _ (queueEvent q 1 _ _ (s.setQueue q (s.queue q).swapped)) = _
  obtain ⟨l₁, hswapEvent⟩ := queueEvent_adds_later q 1 (s.queue q).swapped.drain.length (s.queue q).swapped.room
    (s.setQueue q (s.queue q).swapped)
  obtain ⟨l₂, hcreditEvent⟩ := creditRaised_adds_later q (s.queue q).cred
    { s.setQueue q (s.queue q).swapped with later := s.later ++ l₁ }
  refine ⟨l₁ ++ l₂, ?_⟩
  rw [← List.append_assoc]
  exact (congrArg (creditRaised q _) hswapEvent).trans hcreditEvent

theorem queueSwap_notDue {q : QueueId} {s : State} (h : ¬(s.running = true ∧ (s.queue q).swaps = true)) :
    queueSwap q s = s :=
  if_neg h

/-- Settles O27: the condition by `Queue.swaps_iff`, and the swap by what it writes, `queueSwap_due` (the name `queueSwaps`
is the model's). -/
theorem queueSwapsWhenDue : Obligations.QueueSwaps := by
  unfold Obligations.QueueSwaps
  intro s k x due
  have hiff : x.swaps = true ↔ x.st = .run ∧ x.drain = [] ∧ due := x.swaps_iff
  refine ⟨fun hrun hst hdrain hdue => ?_, fun hnot => ?_⟩
  · obtain ⟨l, hu⟩ := queueSwap_due hrun (hiff.mpr ⟨hst, hdrain, hdue⟩)
    exact ⟨_, congrArg Host.Outcome.next hu, queue_setQueue_same s k x.swapped,
      fun j hj => queue_setQueue_other s x.swapped hj.symm, rfl, fun _ => ⟨rfl, rfl⟩⟩
  · refine congrArg Host.Outcome.next (queueSwap_notDue fun ⟨hrun, hswap⟩ => ?_)
    obtain ⟨hst, hdrain, hdue⟩ := hiff.mp hswap
    obtain hoff | hst' | hdrain' | hdue' := hnot
    · simp [hoff] at hrun
    · exact hst' hst
    · exact hdrain' hdrain
    · exact hdue' hdue

end Sys2Proof.Machine
end

section
/-!
PROOFS. Decoding and encoding (spec/02_instruction_reference.md section 2.1): the fields of a word put together again
are the word, form by form (Table 2.1), and so each class reads a word as its one encoding (Table 2.2).
-/
namespace Sys2Proof

open Sys2Proof.Machine

/-! ## The fields of each form cover the word (Table 2.1) -/

/-- The six fields of forms R and U. -/
theorem fieldsR_append (w : Word) : w.extractLsb' 26 6 ++ w.extractLsb' 22 4 ++ w.extractLsb' 18 4 ++
    w.extractLsb' 14 4 ++ w.extractLsb' 8 6 ++ w.extractLsb' 0 8 = w := by
  repeat rw [BitVec.extractLsb'_append_extractLsb'_eq_extractLsb' (by decide)]
  exact BitVec.extractLsb'_eq_self

/-- The five fields of form I. -/
theorem fieldsI_append (w : Word) : w.extractLsb' 26 6 ++ w.extractLsb' 22 4 ++ w.extractLsb' 18 4 ++
    w.extractLsb' 14 4 ++ w.extractLsb' 0 14 = w := by
  repeat rw [BitVec.extractLsb'_append_extractLsb'_eq_extractLsb' (by decide)]
  exact BitVec.extractLsb'_eq_self

theorem encR_rForm {w : Word} {op fn : BitVec 6} (hop : majorOf w = op.toNat) (hfn : fnOf w = fn.toNat) :
    encR op fn (rForm w) = w := by
  obtain rfl : w.extractLsb' 26 6 = op := BitVec.eq_of_toNat_eq hop
  obtain rfl : w.extractLsb' 8 6 = fn := BitVec.eq_of_toNat_eq hfn
  exact fieldsR_append w

theorem encU_uForm {w : Word} {op fn : BitVec 6} (hop : majorOf w = op.toNat) (hfn : fnOf w = fn.toNat) :
    encU op fn (uForm w) = w := encR_rForm hop hfn

theorem encI_iForm {w : Word} {fn : BitVec 4} (hop : majorOf w = 0x08) (hfn : fnIOf w = fn.toNat) :
    encI fn (iForm w) = w := by
  have hop : w.extractLsb' 26 6 = 0x08 := BitVec.eq_of_toNat_eq hop
  obtain rfl : w.extractLsb' 14 4 = fn := BitVec.eq_of_toNat_eq hfn
  simp only [encI, iForm, ← hop]
  exact fieldsI_append w

theorem encL_lForm {w : Word} {fn : BitVec 2} (hop : majorOf w = 0x02) (hfn : fnLOf w = fn.toNat) :
    encL fn (lForm w) = w := by
  have hop : w.extractLsb' 26 6 = 0x02 := BitVec.eq_of_toNat_eq hop
  obtain rfl : w.extractLsb' 20 2 = fn := BitVec.eq_of_toNat_eq hfn
  simp only [encL, lForm, ← hop]
  repeat rw [BitVec.extractLsb'_append_extractLsb'_eq_extractLsb' (by decide)]
  exact BitVec.extractLsb'_eq_self

theorem encB_bForm {w : Word} {fn : BitVec 4} (hop : majorOf w = 0x0C) (hfn : fnBOf w = fn.toNat) :
    encB fn (bForm w) = w := by
  have hop : w.extractLsb' 26 6 = 0x0C := BitVec.eq_of_toNat_eq hop
  obtain rfl : w.extractLsb' 22 4 = fn := BitVec.eq_of_toNat_eq hfn
  simp only [encB, bForm, ← hop]
  repeat rw [BitVec.extractLsb'_append_extractLsb'_eq_extractLsb' (by decide)]
  exact BitVec.extractLsb'_eq_self

/-- Form R of the ALU: FN below 16 leaves its two upper bits zero. -/
theorem encAlu_aluR {w : Word} {fn : BitVec 4} (hop : majorOf w = 0x00) (hfn : fnOf w = fn.toNat) :
    encAlu fn (aluR w) = w := by
  have hop : w.extractLsb' 26 6 = 0x00 := BitVec.eq_of_toNat_eq hop
  have hlt := fn.isLt
  simp only [fnOf, BitVec.extractLsb'_toNat, Nat.shiftRight_eq_div_pow] at hfn
  have hzero : w.extractLsb' 12 2 = 0 := BitVec.eq_of_toNat_eq (by
    simp only [BitVec.extractLsb'_toNat, Nat.shiftRight_eq_div_pow, BitVec.ofNat_eq_ofNat, BitVec.toNat_ofNat]; omega)
  obtain rfl : w.extractLsb' 8 4 = fn := BitVec.eq_of_toNat_eq (by
    simp only [BitVec.extractLsb'_toNat, Nat.shiftRight_eq_div_pow]; omega)
  simp only [encAlu, aluR, ← hop, ← hzero]
  repeat rw [BitVec.extractLsb'_append_extractLsb'_eq_extractLsb' (by decide)]
  exact BitVec.extractLsb'_eq_self

theorem encAlu_aluI {w : Word} {fn : BitVec 4} (hop : majorOf w = 0x01) (hfn : fnIOf w = fn.toNat) :
    encAlu fn (aluI w) = w := by
  have hop : w.extractLsb' 26 6 = 0x01 := BitVec.eq_of_toNat_eq hop
  obtain rfl : w.extractLsb' 14 4 = fn := BitVec.eq_of_toNat_eq hfn
  simp only [encAlu, aluI, ← hop]
  exact fieldsI_append w

/-! ## Each class reads a word as its encoding (Tables 2.5 to 2.12) -/

section
variable {c : CoreId} {w : Word} {i : Instr}

theorem encodeCore_decAluR (hop : majorOf w = 0x00) (h : decAluR c w = some i) : encodeCore i = some w := by
  unfold decAluR at h
  split at h <;> cases h <;> simp [encodeCore, encAlu_aluR, encR_rForm, *]

theorem encodeCore_decAluI (hop : majorOf w = 0x01) (h : decAluI c w = some i) : encodeCore i = some w := by
  unfold decAluI at h
  split at h <;> cases h <;> simp [encodeCore, encAlu_aluI, *]

theorem encodeCore_decAluL (hop : majorOf w = 0x02) (h : decAluL c w = some i) : encodeCore i = some w := by
  unfold decAluL at h
  split at h <;> cases h <;> simp [encodeCore, encL_lForm, *]

theorem encodeCore_decVec (hop : majorOf w = 0x04) (h : decVec c w = some i) : encodeCore i = some w := by
  unfold decVec at h
  split at h <;> cases h <;> (repeat' split) <;> simp [encodeCore, encR_rForm, *]

theorem encodeCore_decMem (hop : majorOf w = 0x08) (h : decMem c w = some i) : encodeCore i = some w := by
  unfold decMem at h
  split at h <;> cases h <;> simp [encodeCore, encI_iForm, *]

theorem encodeCore_decFlowB (hop : majorOf w = 0x0C) (h : decFlowB c w = some i) : encodeCore i = some w := by
  unfold decFlowB at h
  split at h <;> cases h <;> simp [encodeCore, encB_bForm, *]

theorem encodeCore_decFlowR (hop : majorOf w = 0x0D) (h : decFlowR c w = some i) : encodeCore i = some w := by
  unfold decFlowR at h
  split at h <;> cases h <;> simp [encodeCore, encR_rForm, *]

theorem encodeCore_decEvent (hop : majorOf w = 0x10) (h : decEvent c w = some i) : encodeCore i = some w := by
  unfold decEvent at h
  split at h <;> cases h <;> simp [encodeCore, encR_rForm, *]

theorem encodeCore_decTime (hop : majorOf w = 0x11) (h : decTime c w = some i) : encodeCore i = some w := by
  unfold decTime at h
  split at h <;> cases h <;> (repeat' split) <;> simp [encodeCore, encR_rForm, *]

theorem encodeCore_decSystem (hop : majorOf w = 0x12) (h : decSystem c w = some i) : encodeCore i = some w := by
  unfold decSystem at h
  split at h <;> cases h <;> simp [encodeCore, encR_rForm, *]

theorem encodeCore_decSense (hop : majorOf w = 0x20) (h : decSense c w = some i) : encodeCore i = some w := by
  unfold decSense at h
  split at h <;> cases h <;> simp [encodeCore, encU_uForm, *]

theorem encodeCore_decCal (hop : majorOf w = 0x21) (h : decCal c w = some i) : encodeCore i = some w := by
  unfold decCal at h
  split at h <;> cases h <;> simp [encodeCore, encU_uForm, *]

theorem encodeCore_decLane (hop : majorOf w = 0x22) (h : decLane c w = some i) : encodeCore i = some w := by
  unfold decLane at h
  split at h <;> cases h <;> simp [encodeCore, encU_uForm, *]

theorem encodeCore_decRecog (hop : majorOf w = 0x23) (h : decRecog c w = some i) : encodeCore i = some w := by
  unfold decRecog at h
  split at h <;> cases h <;> simp [encodeCore, encU_uForm, *]

theorem encodeCore_decRing (hop : majorOf w = 0x24) (h : decRing c w = some i) : encodeCore i = some w := by
  unfold decRing at h
  split at h <;> cases h <;> simp [encodeCore, encU_uForm, *]

theorem encodeCore_decAout (hop : majorOf w = 0x25) (h : decAout c w = some i) : encodeCore i = some w := by
  unfold decAout at h
  split at h <;> cases h <;> simp [encodeCore, encU_uForm, *]

theorem encodeCore_decQueue (hop : majorOf w = 0x28) (h : decQueue c w = some i) : encodeCore i = some w := by
  unfold decQueue at h
  split at h <;> cases h <;> simp [encodeCore, encU_uForm, *]

theorem encodeCore_decJournal (hop : majorOf w = 0x2C) (h : decJournal c w = some i) : encodeCore i = some w := by
  unfold decJournal at h
  split at h <;> cases h <;> simp [encodeCore, encU_uForm, *]

theorem encodeCore_decHive (hop : majorOf w = 0x30) (h : decHive c w = some i) : encodeCore i = some w := by
  unfold decHive at h
  split at h <;> cases h <;> (repeat' split) <;> simp [encodeCore, encU_uForm, *]

theorem encodeCore_decPort (hop : majorOf w = 0x34) (h : decPort c w = some i) : encodeCore i = some w := by
  unfold decPort at h
  split at h <;> cases h <;> simp [encodeCore, encU_uForm, *]

theorem encodeCore_decLine (hop : majorOf w = 0x35) (h : decLine c w = some i) : encodeCore i = some w := by
  unfold decLine at h
  split at h <;> cases h <;> simp [encodeCore, encU_uForm, *]

theorem encodeCore_decodeRaw (h : decodeRaw c w = some i) : encodeCore i = some w := by
  unfold decodeRaw at h
  split at h
  next hop => exact encodeCore_decAluR hop h
  next hop => exact encodeCore_decAluI hop h
  next hop => exact encodeCore_decAluL hop h
  next hop => exact encodeCore_decVec hop h
  next hop => exact encodeCore_decMem hop h
  next hop => exact encodeCore_decFlowB hop h
  next hop => exact encodeCore_decFlowR hop h
  next hop => exact encodeCore_decEvent hop h
  next hop => exact encodeCore_decTime hop h
  next hop => exact encodeCore_decSystem hop h
  next hop => exact encodeCore_decSense hop h
  next hop => exact encodeCore_decCal hop h
  next hop => exact encodeCore_decLane hop h
  next hop => exact encodeCore_decRecog hop h
  next hop => exact encodeCore_decRing hop h
  next hop => exact encodeCore_decAout hop h
  next hop => exact encodeCore_decQueue hop h
  next hop => exact encodeCore_decJournal hop h
  next hop => exact encodeCore_decHive hop h
  next hop => exact encodeCore_decPort hop h
  next hop => exact encodeCore_decLine hop h
  next => cases h

end

/-- Settles O59, class by class. -/
theorem encodingIsUnique : Obligations.EncodingIsUnique := by
  unfold Obligations.EncodingIsUnique
  intro c w i h
  exact encodeCore_decodeRaw (Option.eq_some_of_filter_eq_some h)

end Sys2Proof
end

section
/-!
PROOFS. The canonical form of memory under the core instructions (spec/19_codes_and_system_space.md section 19.5): what
keeps it is said once of an outcome (`KeepsForm`) and of an answer of orders 6 to 9 (`Ans.KeepsForm`), and then of each
unit's instructions by the body that each gives.
-/
namespace Sys2Proof.Machine

/-! ## Outcomes -/

/-- Every next state of an outcome has memory in its canonical form. -/
def KeepsForm (o : Out) : Prop := ∀ t, o = .next t → Memory.wf t.mem = true

@[simp] theorem keepsForm_next {s : State} : KeepsForm (.next s) ↔ Memory.wf s.mem = true :=
  ⟨fun h => h s rfl, fun h _ e => by cases e; exact h⟩

@[simp] theorem keepsForm_fault (f : Fault) : KeepsForm (.fault f) := fun _ e => nomatch e

/-- An operation that leaves memory as it is. -/
theorem keepsForm_of_mem {s t : State} (h : Memory.wf s.mem = true) (ht : t.mem = s.mem) : KeepsForm (.next t) := by
  rw [keepsForm_next, ht]; exact h

/-- The command of an event that may have acted already. -/
theorem keepsForm_early {i : Instr} {k : State → State} {s : State} (h : Memory.wf s.mem = true)
    (hk : ∀ u, Memory.wf u.mem = true → Memory.wf (k u).mem = true) : KeepsForm (.next (unlessEarly i k s)) :=
  keepsForm_next.mpr (unlessEarly_wf _ _ _ h hk)

theorem keepsForm_early_of_mem {i : Instr} {k : State → State} {s : State} (h : Memory.wf s.mem = true)
    (hk : ∀ u, (k u).mem = u.mem) : KeepsForm (.next (unlessEarly i k s)) :=
  keepsForm_of_mem h (unlessEarly_mem _ _ _ hk)

theorem keepsForm_earlyIf {p : Instr → Bool} {k : State → State} {s : State} (h : Memory.wf s.mem = true)
    (hk : ∀ u, Memory.wf u.mem = true → Memory.wf (k u).mem = true) : KeepsForm (.next (unlessEarlyIf p k s)) :=
  keepsForm_next.mpr (unlessEarlyIf_wf _ _ _ h hk)

/-- The state that an outcome leads to, a stop left out. -/
theorem KeepsForm.state {o : Out} {s : State} (h : Memory.wf s.mem = true) (ho : KeepsForm o) :
    Memory.wf (match (generalizing := false) o with | .next t => t | _ => s).mem = true := by
  cases o
  case next t => exact ho t rfl
  all_goals exact h

/-! ## Answers of orders 6 to 9 -/

/-- An answer keeps the form: its state has it, and what follows retirement keeps it. -/
def Ans.KeepsForm (a : Ans) : Prop :=
  Memory.wf a.s.mem = true ∧ ∀ w, Memory.wf w.mem = true → Memory.wf (a.after w).mem = true

@[simp] theorem Ans.keepsForm_status (st : BitVec 8) (s : State) (n : Nat) :
    (Ans.status st s n).KeepsForm ↔ Memory.wf s.mem = true := and_iff_left fun _ h => h

@[simp] theorem Ans.keepsForm_ok (s : State) (n : Nat) : (Ans.ok s n).KeepsForm ↔ Memory.wf s.mem = true :=
  and_iff_left fun _ h => h

@[simp] theorem Ans.keepsForm_val (d : BitVec 4) (x : Word) (s : State) (n : Nat) (st : BitVec 8) :
    (Ans.val d x s n st).KeepsForm ↔ Memory.wf s.mem = true := and_iff_left fun _ h => h

/-- Which banks an answer's accesses use says nothing of memory. -/
@[simp] theorem Ans.keepsForm_banks (a : Ans) (b : List Nat) : ({ a with banks := b } : Ans).KeepsForm ↔ a.KeepsForm :=
  Iff.rfl

section
variable {s : State}

theorem inStates_keepsForm {st : UState} {ok : List UState} {k : Ans} (h : Memory.wf s.mem = true) (hk : k.KeepsForm) :
    (inStates st ok s k).KeepsForm := by
  unfold inStates
  split
  · exact hk
  · exact (Ans.keepsForm_status ..).mpr h

theorem ite_keepsForm {p : Prop} [Decidable p] {a b : Ans} (ha : a.KeepsForm) (hb : b.KeepsForm) :
    (if p then a else b).KeepsForm := by
  split
  · exact ha
  · exact hb

theorem readBlock_wf (a n : Nat) (h : Memory.wf s.mem = true) : Memory.wf (readBlock a n s).2.2.mem = true := by
  rw [readBlock_mem]; exact h

theorem withBlock_keepsForm {a n : Nat} {k : Words → State → Ans} (h : Memory.wf s.mem = true)
    (hk : ∀ ws u, Memory.wf u.mem = true → (k ws u).KeepsForm) : (withBlock a n s k).KeepsForm := by
  have hread := readBlock_wf a n h
  simp only [withBlock, Ans.keepsForm_banks]
  split
  · exact (Ans.keepsForm_status ..).mpr hread
  · exact hk _ _ hread

theorem withMore_keepsForm {w a n : Nat} {k : Words → State → Ans} (h : Memory.wf s.mem = true)
    (hk : ∀ ws u, Memory.wf u.mem = true → (k ws u).KeepsForm) : (withMore w a n s k).KeepsForm := by
  have hread := readBlock_wf a n h
  simp only [withMore, Ans.keepsForm_banks]
  split
  · exact (Ans.keepsForm_status ..).mpr hread
  · exact hk _ _ hread

end

/-! ## The ways a core instruction runs -/

section
variable {c : CoreId} {i : Instr} {s : State}

theorem plainInstr_keepsForm {ok : Bool} {n : Nat} {f : Regs → Regs} (h : Memory.wf s.mem = true) :
    KeepsForm (.next (plainInstr c i ok n f s)) :=
  keepsForm_of_mem h (plainInstr_mem ..)

theorem flowInstr_keepsForm {ok : Bool} {k : Inv → Regs → State → State} (h : Memory.wf s.mem = true)
    (hk : ∀ v r u, (k v r u).mem = u.mem) : KeepsForm (.next (flowInstr c i ok k s)) :=
  keepsForm_next.mpr (flowInstr_keeps _ _ _ _ _ (fun m => Memory.wf m = true) h fun v r u hu => by rw [hk]; exact hu)

theorem specInstr_keepsForm {sp : Spec} (h : Memory.wf s.mem = true)
    (hb : ∀ t r u, Memory.wf u.mem = true → (sp.body c t r u).KeepsForm) : KeepsForm (.next (specInstr c i sp s)) := by
  unfold specInstr
  refine keepsForm_next.mpr (issue_keeps _ _ _ _ (fun m => Memory.wf m = true) h fun v u hu => ?_)
  obtain ⟨hstate, hafter⟩ := hb v.tenant (u.regs c) u hu
  dsimp only
  split
  · rw [fault_mem]; exact hu
  split
  · rw [retire_mem]; exact hu
  split
  · rw [retire_mem]; exact hu
  split
  · rw [retire_mem]; exact hu
  split
  · rw [stallOn_mem]; exact hu
  split
  · rw [stallRead_mem]; exact hu
  split
  · exact hafter _ (by rw [retire_mem]; exact hstate)
  · exact hstate

end

/-! ## Events of a unit's own that act first (R95) -/

section
variable {s : State}

theorem ownFirst_wf {mine : Instr → Option (State → State)} (h : Memory.wf s.mem = true)
    (hm : ∀ i f u, mine i = some f → Memory.wf u.mem = true → Memory.wf (f u).mem = true) :
    Memory.wf (ownFirst mine s).mem = true :=
  ownFirst_keeps mine s (fun m => Memory.wf m = true) h hm

theorem senseFirst_wf (k : SensorId) (h : Memory.wf s.mem = true) : Memory.wf (ownFirst (senseFirst k) s).mem = true := by
  refine ownFirst_wf h fun i f u hf hu => ?_
  unfold senseFirst at hf
  split at hf <;> (try split at hf) <;> cases hf <;> simp [hu]

theorem laneFirst_wf (h : Memory.wf s.mem = true) : Memory.wf (ownFirst laneFirst s).mem = true := by
  refine ownFirst_wf h fun i f u hf hu => ?_
  unfold laneFirst at hf
  split at hf <;> cases hf <;> simp [hu]

theorem watchFirst_wf (h : Memory.wf s.mem = true) : Memory.wf (ownFirst watchFirst s).mem = true := by
  refine ownFirst_wf h fun i f u hf hu => ?_
  unfold watchFirst at hf
  split at hf <;> cases hf <;> simp [hu]

theorem aoutFirst_wf (a : Fin 4) (h : Memory.wf s.mem = true) : Memory.wf (ownFirst (aoutFirst a) s).mem = true := by
  refine ownFirst_wf h fun i f u hf hu => ?_
  unfold aoutFirst at hf
  split at hf <;> (try split at hf) <;> cases hf <;> simp [hu]

theorem recogFirst_wf (h : Memory.wf s.mem = true) : Memory.wf (ownFirst recogFirst s).mem = true := by
  refine ownFirst_wf h fun i f u hf hu => ?_
  unfold recogFirst at hf
  split at hf <;> cases hf <;> simp [hu]

theorem queueFirst_wf (h : Memory.wf s.mem = true) : Memory.wf (ownFirst queueFirst s).mem = true := by
  refine ownFirst_wf h fun i f u hf hu => ?_
  unfold queueFirst at hf
  split at hf <;> cases hf <;> simp [hu]

theorem journalFirst_wf (h : Memory.wf s.mem = true) : Memory.wf (ownFirst journalFirst s).mem = true := by
  refine ownFirst_wf h fun i f u hf hu => ?_
  unfold journalFirst at hf
  split at hf <;> cases hf <;> simp [hu]

theorem hiveFirst_wf (h : Memory.wf s.mem = true) : Memory.wf (ownFirst hiveFirst s).mem = true := by
  refine ownFirst_wf h fun i f u hf hu => ?_
  unfold hiveFirst at hf
  split at hf <;> cases hf <;> simp [hu]

theorem portFirst_wf (p : PortId) (h : Memory.wf s.mem = true) : Memory.wf (ownFirst (portFirst p) s).mem = true := by
  refine ownFirst_wf h fun i f u hf hu => ?_
  unfold portFirst at hf
  split at hf <;> (try split at hf) <;> cases hf <;> simp [hu]

theorem levelFirst_wf (h : Memory.wf s.mem = true) : Memory.wf (ownFirst levelFirst s).mem = true := by
  refine ownFirst_wf h fun i f u hf hu => ?_
  unfold levelFirst at hf
  split at hf <;> cases hf <;> simp [hu]

end

/-! ## EVENT, TIME and SYSTEM (Tables 2.8 to 2.10) -/

section
variable {c : CoreId} {f : RForm} {s : State}

theorem execBind_keepsForm (h : Memory.wf s.mem = true) : KeepsForm (execBind c f s) := by
  refine specInstr_keepsForm h fun t r u hu => withBlock_keepsForm hu fun ws w hw => ?_
  dsimp only
  split <;> simp [hw]

theorem execUnbind_keepsForm (h : Memory.wf s.mem = true) : KeepsForm (execUnbind c f s) := by
  refine specInstr_keepsForm h fun t r u hu => ?_
  dsimp only
  split <;> simp [hu]

theorem execWait_keepsForm (h : Memory.wf s.mem = true) : KeepsForm (execWait c f s) := by
  refine specInstr_keepsForm h fun t r u hu => ?_
  dsimp only
  split
  · simp [hu]
  · exact ⟨hu, fun w hw => by rw [saveCtx_mem]; exact hw⟩

theorem execYield_keepsForm (h : Memory.wf s.mem = true) : KeepsForm (execYield c f s) := by
  refine specInstr_keepsForm h fun t r u hu => ?_
  dsimp only
  split
  · simp [hu]
  · exact ⟨hu, fun w hw => by rw [saveCtx_mem]; exact hw⟩

theorem execRaise_keepsForm (h : Memory.wf s.mem = true) : KeepsForm (execRaise c f s) :=
  specInstr_keepsForm h fun t r u hu => by simp [hu]

theorem execExit_keepsForm (h : Memory.wf s.mem = true) : KeepsForm (execExit c f s) :=
  specInstr_keepsForm h fun _ _ _ hu => ⟨hu, fun w hw => by rw [exitInv_mem]; exact hw⟩

theorem execTime_keepsForm (h : Memory.wf s.mem = true) : KeepsForm (execTime c f s) :=
  specInstr_keepsForm h fun _ _ _ hu => ⟨hu, fun _ hw => hw⟩

theorem execTimeH_keepsForm (h : Memory.wf s.mem = true) : KeepsForm (execTimeH c f s) :=
  specInstr_keepsForm h fun t r u hu => by simp [hu]

theorem execAlarmAt_keepsForm (h : Memory.wf s.mem = true) : KeepsForm (execAlarmAt c f s) :=
  specInstr_keepsForm h fun t r u hu => by simp [hu]

theorem execAlarmEvery_keepsForm (h : Memory.wf s.mem = true) : KeepsForm (execAlarmEvery c f s) := by
  refine specInstr_keepsForm h fun t r u hu => ?_
  dsimp only
  split <;> simp [hu]

theorem execAlarmOff_keepsForm (h : Memory.wf s.mem = true) : KeepsForm (execAlarmOff c f s) :=
  specInstr_keepsForm h fun t r u hu => by simp [hu]

theorem execLevel_keepsForm (h : Memory.wf s.mem = true) : KeepsForm (execLevel c f s) := by
  refine specInstr_keepsForm h fun t r u hu => ?_
  have hown := levelFirst_wf hu
  dsimp only
  repeat' split
  all_goals simp [hown]

theorem execSleep_keepsForm (h : Memory.wf s.mem = true) : KeepsForm (execSleep c f s) := by
  refine specInstr_keepsForm h fun t r u hu => ?_
  dsimp only
  split
  · simp [hu]
  split
  · simp [hu]
  split
  · simp [hu]
  · exact ⟨by simp [hu], fun _ hw => hw⟩

theorem execVote_keepsForm (h : Memory.wf s.mem = true) : KeepsForm (execVote c f s) :=
  specInstr_keepsForm h fun t r u hu => by simp [hu]

theorem execHoldrel_keepsForm (h : Memory.wf s.mem = true) : KeepsForm (execHoldrel c f s) :=
  specInstr_keepsForm h fun t r u hu => by simp [hu]

theorem execInval_keepsForm (h : Memory.wf s.mem = true) : KeepsForm (execInval c f s) :=
  specInstr_keepsForm h fun t r u hu => by simp [hu]

theorem execFlags_keepsForm (h : Memory.wf s.mem = true) : KeepsForm (execFlags c f s) :=
  specInstr_keepsForm h fun t r u hu => by simp [hu]

theorem readImage_mem (a n : Nat) (s : State) : (readImage a n s).2.2.2.mem = s.mem := by
  induction n generalizing a s with
  | zero => rfl
  | succ n ih =>
    unfold readImage
    dsimp only
    split
    · exact readSram_mem a s
    · rw [ih, readSram_mem]

theorem execSpool_keepsForm (h : Memory.wf s.mem = true) : KeepsForm (execSpool c f s) := by
  refine specInstr_keepsForm h fun t r u hu => ?_
  dsimp only
  split
  · simp [hu]
  repeat' split
  all_goals simp [readImage_mem, hu]

theorem execGrant_keepsForm (h : Memory.wf s.mem = true) : KeepsForm (execGrant c f s) := by
  refine specInstr_keepsForm h fun t r u hu => ?_
  dsimp only
  split
  · simp [hu]
  · refine withBlock_keepsForm hu fun ws w hw => ?_
    split <;> simp [hw]

theorem execRevoke_keepsForm (h : Memory.wf s.mem = true) : KeepsForm (execRevoke c f s) := by
  refine specInstr_keepsForm h fun t r u hu => ?_
  dsimp only
  repeat' split
  all_goals simp [hu]

end

/-! ## MEM (Table 2.7) -/

section
variable {c : CoreId} {f : IForm} {s : State}

theorem readComb_mem (a : Nat) (s : State) : (readComb a s).s.mem = s.mem := by
  unfold readComb
  dsimp only
  split
  · rfl
  · split <;> rfl

theorem loadWord_mem (a : Nat) (s : State) : (loadWord a s).s.mem = s.mem := by
  unfold loadWord
  split
  · exact flashRead_mem ..
  · exact (readComb_mem ..).trans (combTaken_mem s)
  · rfl
  · rfl
  · exact readSram_mem ..

theorem loadWords_mem (l : List Nat) (s : State) : (loadWords l s).2.2.mem = s.mem := by
  induction l generalizing s with
  | nil => rfl
  | cons a l ih => exact (ih _).trans (loadWord_mem a s)

theorem loadInstr_keepsForm {i : Instr} {n : Nat} {o1 : Bool} {upd : Words → Regs → Regs} (h : Memory.wf s.mem = true) :
    KeepsForm (.next (loadInstr c i f n o1 upd s)) :=
  specInstr_keepsForm h fun _ _ u hu => ⟨by rw [← loadWords_mem] at hu; exact hu, fun _ hw => hw⟩

theorem execLoadCleanupEnd_keepsForm (h : Memory.wf s.mem = true) : KeepsForm (execLoadCleanupEnd s) := by
  refine keepsForm_early h fun u hu => ?_
  repeat' split
  all_goals simp [hu]

theorem attemptEnds_wf (h : Memory.wf s.mem = true) : Memory.wf (ownFirst attemptEnds s).mem = true := by
  refine ownFirst_wf h fun i k u hk hu => ?_
  unfold attemptEnds at hk
  split at hk <;> cases hk
  exact (execLoadCleanupEnd_keepsForm hu).state hu

theorem storeInstr_keepsForm {i : Instr} {n : Nat} {o1 : Bool} {src : Regs → Words} (h : Memory.wf s.mem = true) :
    KeepsForm (.next (storeInstr c i f n o1 src s)) := by
  refine specInstr_keepsForm h fun t r u hu => ?_
  have hfirst : ∀ b : Bool, Memory.wf (if b then ownFirst attemptEnds u else u).mem = true := fun b => by
    cases b
    case false => exact hu
    case true => exact attemptEnds_wf hu
  refine ite_keepsForm ((Ans.keepsForm_status ..).mpr (hfirst _)) ((Ans.keepsForm_ok _ 0).mpr ?_)
  change Memory.wf (ite ((accessWords (effAddr r f) n).contains 0x201FFFFC = true) (ringDoorbell _) _).mem = true
  rw [apply_ite State.mem, ringDoorbell_mem, ite_self]
  exact wf_memPuts _ _ _ (hfirst _)

end

/-! ## Sensors and analogue outputs (Tables 8.1 and 9.1) -/

section
variable {c : CoreId} {i : Instr} {f : UForm} {unused : List (BitVec 4)} {blk : Bool} {s : State}

theorem senseInstr_keepsForm {lo : Nat} {off : Bool} {waits : SensorId → State → Option Func}
    {body : SensorId → Tid → Regs → State → Ans} (h : Memory.wf s.mem = true)
    (hb : ∀ k t r u, Memory.wf u.mem = true → (body k t r u).KeepsForm) :
    KeepsForm (senseInstr c i f unused lo blk off waits body s) :=
  specInstr_keepsForm (senseFirst_wf _ h) (hb _)

theorem execSenseSet_keepsForm (h : Memory.wf s.mem = true) : KeepsForm (execSenseSet c f s) := by
  refine senseInstr_keepsForm h fun k t r u hu => inStates_keepsForm hu ?_
  dsimp only
  rw [Ans.keepsForm_banks]
  repeat' split
  all_goals simp [hu]

theorem execSenseStart_keepsForm (h : Memory.wf s.mem = true) : KeepsForm (execSenseStart c f s) :=
  senseInstr_keepsForm h fun k t r u hu => inStates_keepsForm hu (by simp [hu])

theorem execSenseStop_keepsForm (h : Memory.wf s.mem = true) : KeepsForm (execSenseStop c f s) :=
  senseInstr_keepsForm h fun k t r u hu => inStates_keepsForm hu (by simp [hu])

theorem execSenseHold_keepsForm (h : Memory.wf s.mem = true) : KeepsForm (execSenseHold c f s) := by
  refine senseInstr_keepsForm h fun k t r u hu => inStates_keepsForm hu ?_
  split
  · simp [hu]
  · exact ⟨hu, fun _ hw => hw⟩

theorem execSenseReturn_keepsForm (h : Memory.wf s.mem = true) : KeepsForm (execSenseReturn c f s) :=
  senseInstr_keepsForm h fun k t r u hu => inStates_keepsForm hu (by simp [hu])

theorem execSenseOff_keepsForm (h : Memory.wf s.mem = true) : KeepsForm (execSenseOff c f s) :=
  senseInstr_keepsForm h fun k t r u hu => inStates_keepsForm hu (by simp [hu])

theorem execTone_keepsForm (h : Memory.wf s.mem = true) : KeepsForm (execTone c f s) := by
  refine senseInstr_keepsForm h fun k t r u hu => inStates_keepsForm hu ?_
  repeat' split
  all_goals simp [hu]

theorem aoutInstr_keepsForm {body : Fin 4 → Tid → Regs → State → Ans} (h : Memory.wf s.mem = true)
    (hb : ∀ k t r u, Memory.wf u.mem = true → (body k t r u).KeepsForm) :
    KeepsForm (aoutInstr c i f unused blk body s) :=
  specInstr_keepsForm (aoutFirst_wf _ (watchFirst_wf h)) (hb _)

theorem execAoutSet_keepsForm (h : Memory.wf s.mem = true) : KeepsForm (execAoutSet c f s) := by
  refine aoutInstr_keepsForm h fun k t r u hu => inStates_keepsForm hu (withBlock_keepsForm hu fun ws w hw => ?_)
  dsimp only
  split <;> simp [hw]

theorem execAoutStart_keepsForm (h : Memory.wf s.mem = true) : KeepsForm (execAoutStart c f s) :=
  aoutInstr_keepsForm h fun k t r u hu => inStates_keepsForm hu (by simp [hu])

theorem execAoutWrite_keepsForm (h : Memory.wf s.mem = true) : KeepsForm (execAoutWrite c f s) := by
  refine aoutInstr_keepsForm h fun k t r u hu => inStates_keepsForm hu ?_
  split <;> simp [hu]

theorem execAoutDiag_keepsForm (h : Memory.wf s.mem = true) : KeepsForm (execAoutDiag c f s) :=
  aoutInstr_keepsForm h fun k t r u hu => inStates_keepsForm hu (by simp [hu])

theorem execAoutRelease_keepsForm (h : Memory.wf s.mem = true) : KeepsForm (execAoutRelease c f s) :=
  aoutInstr_keepsForm h fun k t r u hu => inStates_keepsForm hu (by simp [hu])

theorem execAoutStop_keepsForm (h : Memory.wf s.mem = true) : KeepsForm (execAoutStop c f s) :=
  aoutInstr_keepsForm h fun k t r u hu => inStates_keepsForm hu (by simp [hu])

end

/-! ## Lanes, calibration, recognizers and rings (chapters 10 and 11) -/

section
variable {c : CoreId} {i : Instr} {f : UForm} {unused : List (BitVec 4)} {s : State}

theorem laneInstr_keepsForm {blk : LaneId → State → Option Nat} {body : LaneId → Tid → Regs → State → Ans}
    (h : Memory.wf s.mem = true) (hb : ∀ k t r u, Memory.wf u.mem = true → (body k t r u).KeepsForm) :
    KeepsForm (laneInstr c i f unused blk body s) :=
  specInstr_keepsForm (laneFirst_wf h) (hb _)

theorem readTable_mem (t : Tid) (a n : Nat) (s : State) : (readTable t a n s).2.mem = s.mem := by
  unfold readTable
  split
  · rfl
  split
  · rfl
  split
  · rfl
  · exact readBlock_mem a n s

theorem execLaneBuild_keepsForm (h : Memory.wf s.mem = true) : KeepsForm (execLaneBuild c f s) := by
  refine laneInstr_keepsForm h fun l t r u hu => inStates_keepsForm hu (withBlock_keepsForm hu fun ws w hw => ?_)
  have htab := readTable_mem t (wordAt ws 1).toNat (fieldOf (wordAt ws 2) 9 0) w
  dsimp only
  split
  · simp [hw]
  split
  · simp [hw]
  split
  next e x hx =>
    have htab : x.mem = w.mem := by rw [hx] at htab; exact htab
    rw [Ans.keepsForm_status, htab]; exact hw
  next tab x hx =>
    have htab : x.mem = w.mem := by rw [hx] at htab; exact htab
    rw [Ans.keepsForm_banks]
    split <;> simp [htab, hw]

theorem execLaneLoad_keepsForm (h : Memory.wf s.mem = true) : KeepsForm (execLaneLoad c f s) := by
  refine laneInstr_keepsForm h fun l t r u hu => inStates_keepsForm hu (withBlock_keepsForm hu fun ws w hw => ?_)
  dsimp only
  split <;> simp [hw]

theorem startLane_keepsForm {l : LaneId} {t : Tid} {k : Lane → State → Ans} (h : Memory.wf s.mem = true)
    (hk : ∀ x u, Memory.wf u.mem = true → (k x u).KeepsForm) : (startLane l t s k).KeepsForm := by
  have htab := readTable_mem t (s.lane l).ctab.toNat (s.lane l).ctlen s
  unfold startLane
  dsimp only
  split
  next e x hx =>
    rw [hx] at htab
    rw [Ans.keepsForm_status, htab]; exact h
  next tab x hx =>
    rw [hx] at htab
    rw [Ans.keepsForm_banks]
    exact hk _ _ (by rw [htab]; exact h)

theorem execLaneStart_keepsForm (h : Memory.wf s.mem = true) : KeepsForm (execLaneStart c f s) :=
  laneInstr_keepsForm h fun l t r u hu => inStates_keepsForm hu (startLane_keepsForm hu fun x w hw => by simp [hw])

theorem execLaneSuspend_keepsForm (h : Memory.wf s.mem = true) : KeepsForm (execLaneSuspend c f s) :=
  laneInstr_keepsForm h fun l t r u hu => inStates_keepsForm hu (by simp [hu])

theorem execLaneResume_keepsForm (h : Memory.wf s.mem = true) : KeepsForm (execLaneResume c f s) :=
  laneInstr_keepsForm h fun l t r u hu => inStates_keepsForm hu (startLane_keepsForm hu fun x w hw => by simp [hw])

theorem execLaneStop_keepsForm (h : Memory.wf s.mem = true) : KeepsForm (execLaneStop c f s) :=
  laneInstr_keepsForm h fun l t r u hu => inStates_keepsForm hu (by simp [hu])

theorem execLaneClear_keepsForm (h : Memory.wf s.mem = true) : KeepsForm (execLaneClear c f s) :=
  laneInstr_keepsForm h fun l t r u hu => inStates_keepsForm hu (by simp [hu])

theorem calInstr_keepsForm {blk cal : Bool} {body : SensorId → Tid → Regs → State → Ans} (h : Memory.wf s.mem = true)
    (hb : ∀ k t r u, Memory.wf u.mem = true → (body k t r u).KeepsForm) :
    KeepsForm (calInstr c i f unused blk cal body s) :=
  specInstr_keepsForm (laneFirst_wf h) (hb _)

theorem execCalput_keepsForm (h : Memory.wf s.mem = true) : KeepsForm (execCalput c f s) := by
  refine calInstr_keepsForm h fun k t r u hu => ?_
  dsimp only
  split
  · simp [hu]
  · refine withBlock_keepsForm hu fun ws w hw => ?_
    split <;> simp [hw]

theorem execCalputP_keepsForm (h : Memory.wf s.mem = true) : KeepsForm (execCalputP c f s) := by
  refine calInstr_keepsForm h fun k t r u hu => ?_
  dsimp only
  repeat' split
  all_goals simp [hu]

theorem calSwap_keepsForm {l : LaneId} {k : BitVec 3} {d : BitVec 4} (h : Memory.wf s.mem = true) :
    (calSwap l k d s).KeepsForm := by
  unfold calSwap
  dsimp only
  repeat' split
  all_goals simp [h]

theorem execCalswap_keepsForm (h : Memory.wf s.mem = true) : KeepsForm (execCalswap c f s) :=
  specInstr_keepsForm (laneFirst_wf h) fun _ _ _ hu => inStates_keepsForm hu (calSwap_keepsForm hu)

theorem recogInstr_keepsForm {blk : Bool} {body : RecogId → Tid → Regs → State → Ans} (h : Memory.wf s.mem = true)
    (hb : ∀ k t r u, Memory.wf u.mem = true → (body k t r u).KeepsForm) :
    KeepsForm (recogInstr c i f unused blk body s) :=
  specInstr_keepsForm (recogFirst_wf h) (hb _)

theorem execRecogSet_keepsForm (h : Memory.wf s.mem = true) : KeepsForm (execRecogSet c f s) := by
  refine recogInstr_keepsForm h fun k t r u hu => inStates_keepsForm hu (withBlock_keepsForm hu fun ws w hw => ?_)
  dsimp only
  repeat' split
  all_goals simp [hw]

theorem execRecogArm_keepsForm (h : Memory.wf s.mem = true) : KeepsForm (execRecogArm c f s) := by
  refine recogInstr_keepsForm h fun k t r u hu => inStates_keepsForm hu ?_
  rw [Ans.keepsForm_ok]
  split <;> simp [hu]

theorem execRecogDisarm_keepsForm (h : Memory.wf s.mem = true) : KeepsForm (execRecogDisarm c f s) :=
  recogInstr_keepsForm h fun k t r u hu => inStates_keepsForm hu (by simp [hu])

theorem execRecogClear_keepsForm (h : Memory.wf s.mem = true) : KeepsForm (execRecogClear c f s) :=
  recogInstr_keepsForm h fun k t r u hu => inStates_keepsForm hu (by simp [hu])

theorem ringInstr_keepsForm {blk : Bool} {body : RingId → Tid → Regs → State → Ans} (h : Memory.wf s.mem = true)
    (hb : ∀ k t r u, Memory.wf u.mem = true → (body k t r u).KeepsForm) :
    KeepsForm (ringInstr c i f unused blk body s) :=
  specInstr_keepsForm (recogFirst_wf h) fun t r _ hu => hb _ t r _ hu

theorem execRingSet_keepsForm (h : Memory.wf s.mem = true) : KeepsForm (execRingSet c f s) := by
  refine ringInstr_keepsForm h fun k t r u hu => inStates_keepsForm hu (withBlock_keepsForm hu fun ws w hw => ?_)
  split <;> simp [hw]

theorem execRingArm_keepsForm (h : Memory.wf s.mem = true) : KeepsForm (execRingArm c f s) :=
  ringInstr_keepsForm h fun k t r u hu => inStates_keepsForm hu (by simp [hu])

theorem execRingTrig_keepsForm (h : Memory.wf s.mem = true) : KeepsForm (execRingTrig c f s) :=
  ringInstr_keepsForm h fun k t r u hu => inStates_keepsForm hu (by simp [hu])

theorem execRingDisarm_keepsForm (h : Memory.wf s.mem = true) : KeepsForm (execRingDisarm c f s) :=
  ringInstr_keepsForm h fun k t r u hu => inStates_keepsForm hu (by simp [hu])

theorem execRingFree_keepsForm (h : Memory.wf s.mem = true) : KeepsForm (execRingFree c f s) :=
  ringInstr_keepsForm h fun k t r u hu => inStates_keepsForm hu (by simp [hu])

end

/-! ## Queues (chapter 12) -/

section
variable {c : CoreId} {i : Instr} {f : UForm} {s : State}

theorem queueInstr_keepsForm {unused : List (BitVec 4)} {blk : Option Nat} {body : QueueId → Tid → Regs → State → Ans}
    (h : Memory.wf s.mem = true) (hb : ∀ k t r u, Memory.wf u.mem = true → (body k t r u).KeepsForm) :
    KeepsForm (queueInstr c i f unused blk body s) :=
  specInstr_keepsForm (queueFirst_wf h) (hb _)

theorem execQset_keepsForm (h : Memory.wf s.mem = true) : KeepsForm (execQset c f s) := by
  refine queueInstr_keepsForm h fun k t r u hu => inStates_keepsForm hu (withBlock_keepsForm hu fun ws w hw => ?_)
  dsimp only
  repeat' split
  all_goals simp [hw]

theorem execQen_keepsForm (h : Memory.wf s.mem = true) : KeepsForm (execQen c f s) :=
  queueInstr_keepsForm h fun k t r u hu => inStates_keepsForm hu (by simp [hu])

theorem execQdis_keepsForm (h : Memory.wf s.mem = true) : KeepsForm (execQdis c f s) :=
  queueInstr_keepsForm h fun k t r u hu => inStates_keepsForm hu (by simp [hu])

theorem execQfree_keepsForm (h : Memory.wf s.mem = true) : KeepsForm (execQfree c f s) :=
  queueInstr_keepsForm h fun k t r u hu => inStates_keepsForm hu (by simp [hu])

theorem putWord_keepsForm {q : QueueId} {w : Word} {tag : BitVec 4} (h : Memory.wf s.mem = true) :
    (putWord q w tag s).KeepsForm := by
  unfold putWord
  dsimp only
  repeat' split
  all_goals simp [h]

theorem execQput_keepsForm (h : Memory.wf s.mem = true) : KeepsForm (execQput c f s) :=
  queueInstr_keepsForm h fun _ _ _ _ hu => inStates_keepsForm hu (putWord_keepsForm hu)

theorem execQputT_keepsForm (h : Memory.wf s.mem = true) : KeepsForm (execQputT c f s) := by
  refine queueInstr_keepsForm h fun k t r u hu => inStates_keepsForm hu ?_
  split
  · simp [hu]
  · exact putWord_keepsForm hu

theorem execQget_keepsForm (h : Memory.wf s.mem = true) : KeepsForm (execQget c f s) := by
  refine queueInstr_keepsForm h fun k t r u hu => inStates_keepsForm hu ?_
  split
  · simp [hu]
  split
  · simp [hu]
  next hw => exact ⟨by rw [takeWord_eq_mem hw]; exact hu, fun _ hw => hw⟩

theorem execQcred_keepsForm (h : Memory.wf s.mem = true) : KeepsForm (execQcred c f s) := by
  refine queueInstr_keepsForm h fun k t r u hu => inStates_keepsForm hu ?_
  split <;> simp [hu]

theorem execQflush_keepsForm (h : Memory.wf s.mem = true) : KeepsForm (execQflush c f s) :=
  queueInstr_keepsForm h fun k t r u hu => inStates_keepsForm hu (by simp [hu])

end

/-! ## Ports and line engines (chapters 13 and 14) -/

section
variable {c : CoreId} {i : Instr} {f : UForm} {blk : Bool} {s : State}

theorem portInstr_keepsForm {body : PortId → Tid → Regs → State → Ans} (h : Memory.wf s.mem = true)
    (hb : ∀ k t r u, Memory.wf u.mem = true → (body k t r u).KeepsForm) : KeepsForm (portInstr c i f blk body s) := by
  refine specInstr_keepsForm (portFirst_wf _ h) fun t r u hu => ?_
  dsimp only
  split
  · simp [hu]
  · exact hb _ _ _ _ hu

theorem execPortSet_keepsForm (h : Memory.wf s.mem = true) : KeepsForm (execPortSet c f s) := by
  refine portInstr_keepsForm h fun k t r u hu => inStates_keepsForm hu (withBlock_keepsForm hu fun ws w hw => ?_)
  split <;> simp [hw]

theorem execPortStart_keepsForm (h : Memory.wf s.mem = true) : KeepsForm (execPortStart c f s) := by
  refine portInstr_keepsForm h fun k t r u hu => inStates_keepsForm hu ?_
  split <;> simp [hu]

theorem execPortStop_keepsForm (h : Memory.wf s.mem = true) : KeepsForm (execPortStop c f s) := by
  refine portInstr_keepsForm h fun k t r u hu => inStates_keepsForm hu ?_
  dsimp only
  split
  · rw [Ans.keepsForm_ok]
    split <;> simp [hu]
  · simp [hu]
  · simp [hu]

theorem execPortClr_keepsForm (h : Memory.wf s.mem = true) : KeepsForm (execPortClr c f s) :=
  portInstr_keepsForm h fun k t r u hu => inStates_keepsForm hu (by simp [hu])

end
end Sys2Proof.Machine
end

section
/-!
PROOFS. The canonical form of memory under the line engines, the journal and the hive (chapters 14 to 16), then under
every core instruction.
-/
namespace Sys2Proof.Machine

/-! ## Line engines (chapter 14) -/

section
variable {e : EngineId} {s : State}

theorem engineRun_keepsForm {k : EOp → Engine → State → State} (h : Memory.wf s.mem = true)
    (hk : ∀ op x, (k op x s).mem = s.mem) : KeepsForm (engineRun e k s) := by
  refine keepsForm_of_mem h ?_
  split
  · exact hk _ _
  · rfl

theorem execLeHalt_keepsForm (h : Memory.wf s.mem = true) : KeepsForm (execLeHalt e s) :=
  engineRun_keepsForm h fun op x => by split <;> simp

theorem execLeDrive_keepsForm (h : Memory.wf s.mem = true) : KeepsForm (execLeDrive e s) :=
  engineRun_keepsForm h fun op x => by split <;> simp

theorem execLeDriveAll_keepsForm (h : Memory.wf s.mem = true) : KeepsForm (execLeDriveAll e s) :=
  engineRun_keepsForm h fun op x => by split <;> simp

theorem execLeSample_keepsForm {v : Byte} (h : Memory.wf s.mem = true) : KeepsForm (execLeSample e v s) :=
  engineRun_keepsForm h fun op x => by split <;> simp

theorem execLeShout_keepsForm (h : Memory.wf s.mem = true) : KeepsForm (execLeShout e s) :=
  engineRun_keepsForm h fun op x => by split <;> simp

theorem execLeShin_keepsForm {v : Byte} (h : Memory.wf s.mem = true) : KeepsForm (execLeShin e v s) :=
  engineRun_keepsForm h fun op x => by split <;> simp

theorem execLeBranch_keepsForm {v : Byte} (h : Memory.wf s.mem = true) : KeepsForm (execLeBranch e v s) := by
  refine engineRun_keepsForm h fun op x => ?_
  dsimp only
  split
  · rw [setEngine_mem]; split <;> simp
  · rfl

theorem execLeAwait_keepsForm {p v : Byte} (h : Memory.wf s.mem = true) : KeepsForm (execLeAwait e p v s) :=
  engineRun_keepsForm h fun op x => by split <;> simp

theorem execLeAwaitEnd_keepsForm {p v : Byte} (h : Memory.wf s.mem = true) : KeepsForm (execLeAwaitEnd e p v s) := by
  refine keepsForm_of_mem h ?_
  dsimp only
  repeat' split
  all_goals simp

theorem execLeStallEnd_keepsForm (h : Memory.wf s.mem = true) : KeepsForm (execLeStallEnd e s) := by
  refine keepsForm_of_mem h ?_
  dsimp only
  repeat' split
  all_goals simp

theorem execLeTimedAction_keepsForm {v : Byte} (h : Memory.wf s.mem = true) : KeepsForm (execLeTimedAction e v s) := by
  refine keepsForm_of_mem h ?_
  rw [apply_ite State.mem, engineDo_mem, apply_ite State.mem, noteSeen_mem, ite_self, ite_self]

/-- An engine's own command keeps the form. -/
theorem engineCmd_keepsForm {i : Instr} {d : EngineId} {f : State → Out} (hi : engineCmd i = some (d, f))
    (h : Memory.wf s.mem = true) : KeepsForm (f s) := by
  unfold engineCmd at hi
  split at hi
  all_goals cases hi
  case h_1 => exact execLeHalt_keepsForm h
  case h_2 => exact execLeDrive_keepsForm h
  case h_3 => exact execLeDriveAll_keepsForm h
  case h_4 => exact execLeSample_keepsForm h
  case h_5 => exact execLeShout_keepsForm h
  case h_6 => exact execLeShin_keepsForm h
  case h_15 => exact execLeBranch_keepsForm h
  case h_20 => exact execLeAwait_keepsForm h
  case h_21 => exact execLeAwaitEnd_keepsForm h
  case h_28 => exact execLeStallEnd_keepsForm h
  case h_29 => exact execLeTimedAction_keepsForm h
  all_goals exact engineRun_keepsForm h fun _ _ => by simp only [takeTo_mem, giveFrom_mem, countBy_mem, stampBy_mem]

theorem engineFirst_wf (h : Memory.wf s.mem = true) : Memory.wf (engineFirst e s).mem = true := by
  refine List.foldlRecOn (motive := fun u : State => Memory.wf u.mem = true) s.pending _ h fun u hu i _ => ?_
  split
  next d f hi =>
    split
    · exact (engineCmd_keepsForm hi hu).state hu
    · exact hu
  · exact hu

variable {c : CoreId} {f : UForm}

theorem lineInstr_keepsForm {i : Instr} {unused : List (BitVec 4)} {blk : Bool} {body : EngineId → Regs → State → Ans}
    (h : Memory.wf s.mem = true) (hb : ∀ k r u, Memory.wf u.mem = true → (body k r u).KeepsForm) :
    KeepsForm (lineInstr c i f unused blk body s) :=
  specInstr_keepsForm h fun _ r u hu => hb _ r _ (engineFirst_wf (s := u) hu)

theorem execLineLoad_keepsForm (h : Memory.wf s.mem = true) : KeepsForm (execLineLoad c f s) := by
  refine lineInstr_keepsForm h fun k r u hu => inStates_keepsForm hu (withBlock_keepsForm hu fun ws w hw => ?_)
  split <;> simp [hw]

theorem execLineStart_keepsForm (h : Memory.wf s.mem = true) : KeepsForm (execLineStart c f s) :=
  lineInstr_keepsForm h fun k r u hu => inStates_keepsForm hu (by simp [hu])

theorem execLineStop_keepsForm (h : Memory.wf s.mem = true) : KeepsForm (execLineStop c f s) :=
  lineInstr_keepsForm h fun k r u hu => inStates_keepsForm hu (by simp [hu])

theorem execLineTx_keepsForm (h : Memory.wf s.mem = true) : KeepsForm (execLineTx c f s) := by
  refine lineInstr_keepsForm h fun k r u hu => inStates_keepsForm hu ?_
  split <;> simp [hu]

theorem execLineRx_keepsForm (h : Memory.wf s.mem = true) : KeepsForm (execLineRx c f s) := by
  refine lineInstr_keepsForm h fun k r u hu => inStates_keepsForm hu ?_
  split <;> simp [hu]

end

/-! ## The journal (chapter 16) -/

section
variable {c : CoreId} {i : Instr} {f : UForm} {s : State}

theorem journalInstr_keepsForm {o2 o3 : Tid → Regs → State → Bool} {reads : Regs → State → Option (Nat × Nat)}
    {body : Tid → Regs → State → Ans} (h : Memory.wf s.mem = true)
    (hb : ∀ t r u, Memory.wf u.mem = true → (body t r u).KeepsForm) : KeepsForm (journalInstr c i o2 o3 reads body s) :=
  specInstr_keepsForm (journalFirst_wf h) fun t r u hu =>
    hb t r { u with sleep := { u.sleep with flashUse := u.time.phys } } hu

theorem journalStates_keepsForm {b : Bool} {a : Ans} (h : Memory.wf s.mem = true) (ha : a.KeepsForm) :
    (journalStates b s a).KeepsForm := by
  unfold journalStates
  repeat' split
  all_goals simp [h, ha]

theorem startOp_keepsForm {k : JKind} {t : Tid} {steps : List JStep} {n : Nat} (h : Memory.wf s.mem = true) :
    (startOp k t steps n s).KeepsForm := by
  rw [startOp, Ans.keepsForm_status, modJ_mem]; exact h

theorem execJput_keepsForm (h : Memory.wf s.mem = true) : KeepsForm (execJput c f s) := by
  unfold execJput
  dsimp only
  refine journalInstr_keepsForm h fun t r u hu => journalStates_keepsForm hu ?_
  split
  · simp [hu]
  · refine withBlock_keepsForm hu fun ws w hw => ?_
    split <;> simp [hw]

theorem execJcommit_keepsForm (h : Memory.wf s.mem = true) : KeepsForm (execJcommit c f s) := by
  refine journalInstr_keepsForm h fun t r u hu => journalStates_keepsForm hu ?_
  split <;> simp [hu]

theorem execJget_keepsForm (h : Memory.wf s.mem = true) : KeepsForm (execJget c f s) := by
  unfold execJget
  dsimp only
  refine journalInstr_keepsForm h fun t r u hu => journalStates_keepsForm hu ?_
  split
  · simp [hu]
  split
  · simp [hu]
  split
  · simp [hu]
  · rw [Ans.keepsForm_banks, Ans.keepsForm_val]
    exact wf_memPuts _ _ _ (by rw [flashRead_mem]; exact hu)

theorem execJprog_keepsForm (h : Memory.wf s.mem = true) : KeepsForm (execJprog c f s) := by
  refine journalInstr_keepsForm h fun t r u hu => journalStates_keepsForm hu (withBlock_keepsForm hu fun ws w hw => ?_)
  dsimp only
  split
  · simp [hw]
  · refine withMore_keepsForm hw fun d x hx => ?_
    repeat' split
    all_goals simp [hx, startOp_keepsForm]

theorem execJerase_keepsForm (h : Memory.wf s.mem = true) : KeepsForm (execJerase c f s) := by
  refine journalInstr_keepsForm h fun t r u hu => journalStates_keepsForm hu ?_
  repeat' split
  all_goals simp [hu, startOp_keepsForm]

theorem sealBody_keepsForm {wa : Word} (h : Memory.wf s.mem = true) : (sealBody wa s).KeepsForm := by
  unfold sealBody
  dsimp only
  repeat' split
  all_goals simp [h]

theorem sealInstr_keepsForm (h : Memory.wf s.mem = true) : KeepsForm (sealInstr c i f s) :=
  journalInstr_keepsForm h fun _ _ _ hu => sealBody_keepsForm hu

end

/-! ## The hive (chapter 15) -/

section
variable {c : CoreId} {i : Instr} {f : UForm} {s : State}

theorem hiveInstr_keepsForm {unused : List (BitVec 4)} {ok may : Tid → Regs → State → Bool} {waits : State → Option Func}
    {body : Tid → Regs → State → Ans} (h : Memory.wf s.mem = true)
    (hb : ∀ t r u, Memory.wf u.mem = true → (body t r u).KeepsForm) :
    KeepsForm (hiveInstr c i f unused ok may waits body s) :=
  specInstr_keepsForm (hiveFirst_wf h) hb

theorem execFjoin_keepsForm (h : Memory.wf s.mem = true) : KeepsForm (execFjoin c f s) := by
  refine hiveInstr_keepsForm h fun t r u hu => inStates_keepsForm hu (withBlock_keepsForm hu fun ws w hw => ?_)
  dsimp only
  split
  · simp [hw]
  · exact ⟨by simp [hw], fun _ hx => hx⟩

theorem execFleave_keepsForm (h : Memory.wf s.mem = true) : KeepsForm (execFleave c f s) :=
  hiveInstr_keepsForm h fun t r u hu => inStates_keepsForm hu (by simp [hu])

theorem execFrecv_keepsForm (h : Memory.wf s.mem = true) : KeepsForm (execFrecv c f s) := by
  refine hiveInstr_keepsForm h fun t r u hu => inStates_keepsForm hu ?_
  repeat' split
  all_goals simp [hu]

theorem frouteInstr_keepsForm (h : Memory.wf s.mem = true) : KeepsForm (frouteInstr c i f s) := by
  refine hiveInstr_keepsForm h fun t r u hu => withBlock_keepsForm hu fun ws w hw => ?_
  dsimp only
  split
  · simp [hw]
  · rw [Ans.keepsForm_ok]
    split <;> simp [hw]

/-- An answer that keeps memory as it is. -/
theorem Ans.keepsForm_pending {st : BitVec 8} {u : State} {n : Nat} (h : Memory.wf u.mem = true) :
    ({ st := st, s := u, extra := n } : Ans).KeepsForm := ⟨h, fun _ hw => hw⟩

theorem linkRefused_keepsForm {why : BitVec 4} {n : Nat} (h : Memory.wf s.mem = true) : (linkRefused why n s).KeepsForm := by
  rw [linkRefused, Ans.keepsForm_status, modHive_mem]; exact h

theorem sendMessage_keepsForm {t : Tid} {ws data : Words} (h : Memory.wf s.mem = true) :
    (sendMessage t ws data s).KeepsForm := by
  unfold sendMessage
  dsimp only
  split
  · split
    · exact linkRefused_keepsForm h
    split
    · exact linkRefused_keepsForm h
    · exact Ans.keepsForm_pending (by simp [h])
  split
  · split
    · exact linkRefused_keepsForm h
    split
    · exact linkRefused_keepsForm h
    · refine Ans.keepsForm_pending ?_
      split <;> simp [h]
  split
  · exact linkRefused_keepsForm h
  split
  · exact linkRefused_keepsForm h
  split
  · exact linkRefused_keepsForm h
  split
  · exact linkRefused_keepsForm h
  · exact Ans.keepsForm_pending (by simp [h])

theorem sendBody_keepsForm {t : Tid} {ws : Words} (h : Memory.wf s.mem = true) : (sendBody t ws s).KeepsForm := by
  unfold sendBody
  dsimp only
  split
  · simp [h]
  split
  · exact sendMessage_keepsForm h
  split
  · simp [h]
  split
  · simp [h]
  · have hread := readBlock_wf (wordAt ws 1).toNat (fieldOf (wordAt ws 2) 4 0) h
    rw [Ans.keepsForm_banks]
    split
    · exact (Ans.keepsForm_status ..).mpr hread
    · exact sendMessage_keepsForm hread

theorem fsendInstr_keepsForm (h : Memory.wf s.mem = true) : KeepsForm (fsendInstr c i f s) :=
  hiveInstr_keepsForm h fun _ _ _ hu => inStates_keepsForm hu (withBlock_keepsForm hu fun _ _ hw => sendBody_keepsForm hw)

end

/-! ## Every core instruction -/

theorem execUndefinedInstruction_keepsForm {c : CoreId} {w : Word} {s : State} (h : Memory.wf s.mem = true) :
    KeepsForm (execUndefinedInstruction c w s) := by
  refine keepsForm_next.mpr ?_
  split
  · exact h
  · refine issue_keeps _ _ _ _ (fun m => Memory.wf m = true) h fun v u hu => ?_
    rw [fault_mem]; exact hu

theorem coreExec_keepsForm (i : Instr) {s : State} (h : Memory.wf s.mem = true) : KeepsForm (coreExec i s) := by
  cases i
  case add | sub | and | or | xor | shl | shr | sha | slt | sltu | mul | mulh | mulq | macq | sat | movl |
    movh | movs | vadd | vsub | vmul | vdot | vcross | vnorm | vins | vext =>
    exact plainInstr_keepsForm h
  case bra | bz | bnz | call | bzSt | bnzSt | braReg | callReg | nop =>
    exact flowInstr_keepsForm h fun _ _ _ => by simp
  case ret => exact flowInstr_keepsForm h fun _ _ _ => by split <;> simp
  case ldw => exact loadInstr_keepsForm h
  case stw => exact storeInstr_keepsForm h
  case ldv => exact loadInstr_keepsForm h
  case stv => exact storeInstr_keepsForm h
  case undefinedInstruction => exact execUndefinedInstruction_keepsForm h
  case bind => exact execBind_keepsForm h
  case unbind => exact execUnbind_keepsForm h
  case wait => exact execWait_keepsForm h
  case raise => exact execRaise_keepsForm h
  case yield => exact execYield_keepsForm h
  case exit => exact execExit_keepsForm h
  case time => exact execTime_keepsForm h
  case timeH => exact execTimeH_keepsForm h
  case alarmAt => exact execAlarmAt_keepsForm h
  case alarmEvery => exact execAlarmEvery_keepsForm h
  case alarmOff => exact execAlarmOff_keepsForm h
  case level => exact execLevel_keepsForm h
  case sleep => exact execSleep_keepsForm h
  case vote => exact execVote_keepsForm h
  case holdrel => exact execHoldrel_keepsForm h
  case inval => exact execInval_keepsForm h
  case flags => exact execFlags_keepsForm h
  case spool => exact execSpool_keepsForm h
  case grant => exact execGrant_keepsForm h
  case revoke => exact execRevoke_keepsForm h
  case senseSet => exact execSenseSet_keepsForm h
  case senseStart => exact execSenseStart_keepsForm h
  case senseStop => exact execSenseStop_keepsForm h
  case senseHold => exact execSenseHold_keepsForm h
  case senseReturn => exact execSenseReturn_keepsForm h
  case senseOff => exact execSenseOff_keepsForm h
  case tone => exact execTone_keepsForm h
  case calput => exact execCalput_keepsForm h
  case calswap => exact execCalswap_keepsForm h
  case calputP => exact execCalputP_keepsForm h
  case laneBuild => exact execLaneBuild_keepsForm h
  case laneLoad => exact execLaneLoad_keepsForm h
  case laneStart => exact execLaneStart_keepsForm h
  case laneSuspend => exact execLaneSuspend_keepsForm h
  case laneResume => exact execLaneResume_keepsForm h
  case laneStop => exact execLaneStop_keepsForm h
  case laneClear => exact execLaneClear_keepsForm h
  case recogSet => exact execRecogSet_keepsForm h
  case recogArm => exact execRecogArm_keepsForm h
  case recogDisarm => exact execRecogDisarm_keepsForm h
  case recogClear => exact execRecogClear_keepsForm h
  case ringSet => exact execRingSet_keepsForm h
  case ringArm => exact execRingArm_keepsForm h
  case ringTrig => exact execRingTrig_keepsForm h
  case ringDisarm => exact execRingDisarm_keepsForm h
  case ringFree => exact execRingFree_keepsForm h
  case aoutSet => exact execAoutSet_keepsForm h
  case aoutStart => exact execAoutStart_keepsForm h
  case aoutWrite => exact execAoutWrite_keepsForm h
  case aoutDiag => exact execAoutDiag_keepsForm h
  case aoutRelease => exact execAoutRelease_keepsForm h
  case aoutStop => exact execAoutStop_keepsForm h
  case qset => exact execQset_keepsForm h
  case qen => exact execQen_keepsForm h
  case qdis => exact execQdis_keepsForm h
  case qfree => exact execQfree_keepsForm h
  case qput => exact execQput_keepsForm h
  case qputT => exact execQputT_keepsForm h
  case qget => exact execQget_keepsForm h
  case qcred => exact execQcred_keepsForm h
  case qflush => exact execQflush_keepsForm h
  case jput => exact execJput_keepsForm h
  case jcommit => exact execJcommit_keepsForm h
  case jget => exact execJget_keepsForm h
  case sealArm => exact sealInstr_keepsForm h
  case sealBurn => exact sealInstr_keepsForm h
  case jprog => exact execJprog_keepsForm h
  case jerase => exact execJerase_keepsForm h
  case fjoin => exact execFjoin_keepsForm h
  case fleave => exact execFleave_keepsForm h
  case fsend => exact fsendInstr_keepsForm h
  case waggleBurst => exact fsendInstr_keepsForm h
  case frecv => exact execFrecv_keepsForm h
  case froute => exact frouteInstr_keepsForm h
  case frouteInval => exact frouteInstr_keepsForm h
  case portSet => exact execPortSet_keepsForm h
  case portStart => exact execPortStart_keepsForm h
  case portStop => exact execPortStop_keepsForm h
  case portClr => exact execPortClr_keepsForm h
  case lineLoad => exact execLineLoad_keepsForm h
  case lineStart => exact execLineStart_keepsForm h
  case lineStop => exact execLineStop_keepsForm h
  case lineTx => exact execLineTx_keepsForm h
  case lineRx => exact execLineRx_keepsForm h
  all_goals exact keepsForm_next.mpr h

end Sys2Proof.Machine
end

section
/-!
PROOFS. The canonical form of memory under the events, and under every step (O58).
-/
namespace Sys2Proof.Machine

/-! ## What a dispatch or the end of a stall runs -/

theorem coreNext_wf (i : Instr) {s : State} (h : Memory.wf s.mem = true) : Memory.wf (coreNext i s).mem = true := by
  have ho := coreExec_keepsForm i h
  unfold coreNext
  split
  next t e => exact ho t e
  · exact h

theorem hostIssue_wf (q : HostReq) {s : State} (h : Memory.wf s.mem = true) : Memory.wf (hostIssue q s).mem = true := by
  unfold hostIssue
  split
  · rw [fault_mem]; exact h
  split
  · rw [retire_mem]; exact h
  split
  · rw [retire_mem]; exact h
  · exact coreNext_wf _ h

theorem hostRun_wf (n : Nat) {s : State} (h : Memory.wf s.mem = true) : Memory.wf (hostRun n s).mem = true := by
  induction n generalizing s with
  | zero => exact h
  | succ n ih =>
    unfold hostRun
    split
    · exact h
    split
    · exact h
    · exact ih (by rw [hostAfter_mem, hostSwap_mem]; exact hostIssue_wf _ h)

theorem resumeStall_wf (c : CoreId) (st : Stall) {s : State} (h : Memory.wf s.mem = true) :
    Memory.wf (resumeStall c st s).mem = true := by
  have hnext := coreNext_wf st.instr (s := s.setCore c { s.core c with stall := none, resuming := !st.fetch }) h
  unfold resumeStall
  dsimp only
  split
  · exact hostRun_wf _ (by rw [hostAfter_mem]; exact hnext)
  · exact hnext

theorem execDispatch_keepsForm {c : CoreId} {s : State} (h : Memory.wf s.mem = true) : KeepsForm (execDispatch c s) := by
  refine keepsForm_next.mpr ?_
  split
  · split
    · split
      · exact hostRun_wf _ (by rw [startHost_mem]; exact h)
      · rw [dispatchHandler_mem]; exact h
    · rw [dispatchHandler_mem]; exact h
  · exact h

theorem execStallEnd_keepsForm {c : CoreId} {s : State} (h : Memory.wf s.mem = true) : KeepsForm (execStallEnd c s) := by
  refine keepsForm_next.mpr ?_
  split
  · exact h
  split
  · exact h
  dsimp only
  split
  · exact resumeStall_wf _ _ (by rw [longStall_mem, settleWake_mem]; exact h)
  · exact h

theorem execStallTimeout_keepsForm {c : CoreId} {s : State} (h : Memory.wf s.mem = true) :
    KeepsForm (execStallTimeout c s) := by
  refine keepsForm_next.mpr ?_
  split
  · exact h
  split
  · split
    · exact resumeStall_wf _ _ (by rw [failFunction_mem, longStall_mem]; exact h)
    · exact h
  · exact h

/-! ## The loader -/

theorem installAll_mem {t : Tid} {bs : List (Word × Word × Word)} {s u : State} (h : installAll t bs s = .ok u) :
    u.mem = s.mem := by
  induction bs generalizing s with
  | nil => cases h; rfl
  | cons b bs ih =>
    obtain ⟨a, b, c⟩ := b
    simp only [installAll] at h
    split at h
    · cases h
    split at h
    · cases h
    · exact (ih h).trans (installBinding_mem ..)

theorem loadOutcome_mem {l : Loader} {t : Tid} {s u : State} (h : loadOutcome l t s = .ok u) : u.mem = s.mem := by
  unfold loadOutcome at h
  split at h
  · cases h
  split at h
  · cases h
  · exact installAll_mem h

theorem execSpoolLoadDone_keepsForm {s : State} (h : Memory.wf s.mem = true) : KeepsForm (execSpoolLoadDone s) := by
  have hadv := loaderAdvance_wf s h
  refine keepsForm_next.mpr ?_
  split
  · split
    · split
      · dsimp only
        split
        next hok => simp only [modTenant_mem, loadOutcome_mem hok]; exact hadv
        · exact hadv
      · exact h
    · exact h
  · exact h

theorem execOwnerLoadDone_keepsForm {s : State} (h : Memory.wf s.mem = true) : KeepsForm (execOwnerLoadDone s) := by
  have hadv := loaderAdvance_wf s h
  refine keepsForm_next.mpr ?_
  split
  · split
    · split
      · dsimp only
        split
        next hok => exact startOwner_wf _ _ (by rw [loadOutcome_mem hok]; exact hadv)
        · exact hadv
      · exact h
    · exact h
  · exact h

theorem execSpoolLoadFail_keepsForm {s : State} (h : Memory.wf s.mem = true) : KeepsForm (execSpoolLoadFail s) := by
  have hadv := loaderAdvance_wf s h
  refine keepsForm_next.mpr ?_
  split
  · split
    · dsimp only
      split
      · split
        · split <;> simp [hadv]
        · exact hadv
      · exact hadv
    · exact h
  · exact h

/-! ## The other events -/

theorem journalDecide_mem (s : State) : (journalDecide s).1.mem = s.mem := by
  unfold journalDecide decideJournal
  dsimp only
  repeat' split
  all_goals simp

section
variable {s : State}

theorem execHostStatus_keepsForm {opc : Byte} {whole : Bool} (h : Memory.wf s.mem = true) : KeepsForm (execHostStatus opc whole s) := by
  refine keepsForm_next.mpr ?_
  repeat' split
  all_goals simp [h]

theorem execHostExecute_keepsForm {p : HostPkt} (h : Memory.wf s.mem = true) : KeepsForm (execHostExecute p s) := by
  refine keepsForm_next.mpr ?_
  all_goals simp [h]

theorem execHostReadQueue_keepsForm {p : HostPkt} (h : Memory.wf s.mem = true) : KeepsForm (execHostReadQueue p s) := by
  refine keepsForm_next.mpr ?_
  all_goals simp [h]

theorem execHostGrantCredit_keepsForm {p : HostPkt} (h : Memory.wf s.mem = true) : KeepsForm (execHostGrantCredit p s) := by
  refine keepsForm_next.mpr ?_
  all_goals simp [h]

theorem execHostReadWindow_keepsForm {p : HostPkt} (h : Memory.wf s.mem = true) : KeepsForm (execHostReadWindow p s) := by
  refine keepsForm_next.mpr ?_
  all_goals simp [h]

theorem execHostReadReply_keepsForm {p : HostPkt} (h : Memory.wf s.mem = true) : KeepsForm (execHostReadReply p s) := by
  refine keepsForm_next.mpr ?_
  all_goals simp [h]

theorem execWaitTimeout_keepsForm {k : Fin 16} (h : Memory.wf s.mem = true) : KeepsForm (execWaitTimeout k s) := by
  refine keepsForm_next.mpr ?_
  repeat' split
  all_goals simp [h]

theorem execTimerExpiry_keepsForm {n : Fin 8} (h : Memory.wf s.mem = true) : KeepsForm (execTimerExpiry n s) := by
  refine keepsForm_next.mpr ?_
  dsimp only
  repeat' split
  all_goals simp [h]

theorem execBudgetExhausted_keepsForm {c : CoreId} (h : Memory.wf s.mem = true) : KeepsForm (execBudgetExhausted c s) := by
  refine keepsForm_next.mpr ?_
  repeat' split
  all_goals simp [h]

theorem execQuotaExhausted_keepsForm {t : Tid} (h : Memory.wf s.mem = true) : KeepsForm (execQuotaExhausted t s) := by
  refine keepsForm_next.mpr ?_
  repeat' split
  all_goals simp [h]

theorem execQuotaPeriod_keepsForm {t : Tid} (h : Memory.wf s.mem = true) : KeepsForm (execQuotaPeriod t s) := by
  refine keepsForm_next.mpr ?_
  repeat' split
  all_goals simp [h]

theorem execDomainIdleOff_keepsForm {d : Domain} (h : Memory.wf s.mem = true) : KeepsForm (execDomainIdleOff d s) := by
  refine keepsForm_next.mpr ?_
  dsimp only
  repeat' split
  all_goals simp [h]

theorem execPowerOnReset_keepsForm (h : Memory.wf s.mem = true) : KeepsForm (execPowerOnReset s) := by
  refine keepsForm_next.mpr ?_
  repeat' split
  all_goals simp [h]

theorem execPgoodLow_keepsForm {ns : Nat} (h : Memory.wf s.mem = true) : KeepsForm (execPgoodLow ns s) := by
  refine keepsForm_next.mpr ?_
  repeat' split
  all_goals simp [h]

theorem execExternalReset_keepsForm {ns : Nat} (h : Memory.wf s.mem = true) : KeepsForm (execExternalReset ns s) := by
  refine keepsForm_next.mpr ?_
  repeat' split
  all_goals simp [h]

theorem execResetRelease_keepsForm {modeBall testEn : Bool} (h : Memory.wf s.mem = true) : KeepsForm (execResetRelease modeBall testEn s) := by
  refine keepsForm_next.mpr ?_
  dsimp only
  repeat' split
  all_goals simp [h]

theorem execFunctionReady_keepsForm {f : Func} (h : Memory.wf s.mem = true) : KeepsForm (execFunctionReady f s) := by
  refine keepsForm_next.mpr ?_
  dsimp only
  repeat' split
  all_goals simp [h, journalDecide_mem]

theorem execFunctionFail_keepsForm {f : Func} (h : Memory.wf s.mem = true) : KeepsForm (execFunctionFail f s) := by
  refine keepsForm_next.mpr ?_
  dsimp only
  repeat' split
  all_goals simp [h]

theorem execBootAttempt_keepsForm (h : Memory.wf s.mem = true) : KeepsForm (execBootAttempt s) := by
  refine keepsForm_next.mpr ?_
  dsimp only
  repeat' split
  all_goals simp [h]

theorem execDoorbellStore_keepsForm {w : Word} (h : Memory.wf s.mem = true) : KeepsForm (execDoorbellStore w s) := by
  refine keepsForm_next.mpr ?_
  repeat' split
  all_goals simp [h]

theorem execSrlFrameStart_keepsForm (h : Memory.wf s.mem = true) : KeepsForm (execSrlFrameStart s) := by
  refine keepsForm_next.mpr ?_
  dsimp only
  repeat' split
  all_goals simp [h]

theorem execSrlTimeout_keepsForm (h : Memory.wf s.mem = true) : KeepsForm (execSrlTimeout s) := by
  refine keepsForm_next.mpr ?_
  dsimp only
  repeat' split
  all_goals simp [h]

theorem execAonAdvance_keepsForm (h : Memory.wf s.mem = true) : KeepsForm (execAonAdvance s) := by
  refine keepsForm_next.mpr ?_
  dsimp only
  repeat' split
  all_goals simp [h]

theorem execWakeActivity_keepsForm {p : Fin 2} {ns : Nat} (h : Memory.wf s.mem = true) : KeepsForm (execWakeActivity p ns s) := by
  refine keepsForm_next.mpr ?_
  dsimp only
  repeat' split
  all_goals simp [h]

theorem execWakeWaggle_keepsForm {p : Fin 2} {b : Bool} (h : Memory.wf s.mem = true) : KeepsForm (execWakeWaggle p b s) := by
  refine keepsForm_next.mpr ?_
  dsimp only
  repeat' split
  all_goals simp [h]

theorem execWakeLine_keepsForm {pin : Fin 48} {lvl : Bool} (h : Memory.wf s.mem = true) : KeepsForm (execWakeLine pin lvl s) := by
  refine keepsForm_next.mpr ?_
  repeat' split
  all_goals simp [h]

theorem execListenerWindow_keepsForm {r : RfWindow} (h : Memory.wf s.mem = true) : KeepsForm (execListenerWindow r s) := by
  refine keepsForm_next.mpr ?_
  dsimp only
  repeat' split
  all_goals simp [h]

theorem execWakeEvent_keepsForm (h : Memory.wf s.mem = true) : KeepsForm (execWakeEvent s) := by
  refine keepsForm_next.mpr ?_
  dsimp only
  repeat' split
  all_goals simp [h]

theorem execThermalCut_keepsForm {r : ThermRead} (h : Memory.wf s.mem = true) : KeepsForm (execThermalCut r s) := by
  refine keepsForm_next.mpr ?_
  dsimp only
  repeat' split
  all_goals simp [h]

theorem execThermalRestart_keepsForm {r : ThermRead} (h : Memory.wf s.mem = true) : KeepsForm (execThermalRestart r s) := by
  refine keepsForm_next.mpr ?_
  dsimp only
  repeat' split
  all_goals simp [h]

theorem execAoutTimeout_keepsForm {a : Fin 4} (h : Memory.wf s.mem = true) : KeepsForm (execAoutTimeout a s) :=
  keepsForm_early h fun u hu => by rw [aoutTimeout_mem]; exact watchFirst_wf hu

theorem execEvtPulseEnd_keepsForm {b : Fin 8} (h : Memory.wf s.mem = true) : KeepsForm (execEvtPulseEnd b s) := by
  refine keepsForm_next.mpr ?_
  repeat' split
  all_goals simp [h]

theorem execScrubLine_keepsForm (h : Memory.wf s.mem = true) : KeepsForm (execScrubLine s) := by
  refine keepsForm_next.mpr ?_
  dsimp only
  repeat' split
  all_goals simp [h]

theorem execFlashOpResume_keepsForm (h : Memory.wf s.mem = true) : KeepsForm (execFlashOpResume s) := by
  refine keepsForm_next.mpr ?_
  repeat' split
  all_goals simp [h]

theorem execGcStep_keepsForm (h : Memory.wf s.mem = true) : KeepsForm (execGcStep s) := by
  refine keepsForm_next.mpr ?_
  repeat' split
  all_goals simp [h]

theorem execCheckpointWrite_keepsForm (h : Memory.wf s.mem = true) : KeepsForm (execCheckpointWrite s) := by
  refine keepsForm_next.mpr ?_
  dsimp only
  repeat' split
  all_goals simp [h]

theorem execTapReset_keepsForm (h : Memory.wf s.mem = true) : KeepsForm (execTapReset s) := by
  refine keepsForm_next.mpr ?_
  dsimp only
  all_goals simp [h]

theorem execTapPrivate_keepsForm (h : Memory.wf s.mem = true) : KeepsForm (execTapPrivate s) := by
  unfold execTapPrivate
  split
  · exact keepsForm_fault _
  · exact keepsForm_of_mem h (tapLoad_mem ..)

theorem execSleepEntryStepEnd_keepsForm (h : Memory.wf s.mem = true) : KeepsForm (execSleepEntryStepEnd s) := by
  refine keepsForm_next.mpr ?_
  repeat' split
  all_goals simp [h]

theorem execOrderlyStopStepEnd_keepsForm (h : Memory.wf s.mem = true) : KeepsForm (execOrderlyStopStepEnd s) := by
  refine keepsForm_next.mpr ?_
  dsimp only
  repeat' split
  all_goals simp [h]

theorem execScanStart_keepsForm (h : Memory.wf s.mem = true) : KeepsForm (execScanStart s) := by
  refine keepsForm_next.mpr ?_
  dsimp only
  repeat' split
  all_goals simp [h]

theorem execNoLatchPeriod_keepsForm {p : PortId} (h : Memory.wf s.mem = true) : KeepsForm (execNoLatchPeriod p s) := by
  refine keepsForm_next.mpr ?_
  dsimp only
  repeat' split
  all_goals simp [h]

theorem execIoBankSupplyChange_keepsForm {bank : Fin 2} {mv : Nat} (h : Memory.wf s.mem = true) : KeepsForm (execIoBankSupplyChange bank mv s) := by
  unfold execIoBankSupplyChange
  dsimp only
  repeat' split
  all_goals simp [h]

theorem execVaoutChange_keepsForm {mv : Nat} (h : Memory.wf s.mem = true) : KeepsForm (execVaoutChange mv s) := by
  refine keepsForm_next.mpr ?_
  dsimp only
  all_goals simp [h]

theorem execDrScan_keepsForm {d : DrScan} (h : Memory.wf s.mem = true) : KeepsForm (execDrScan d s) := by
  refine keepsForm_next.mpr ?_
  dsimp only
  repeat' split
  all_goals simp [h]

end

/-! ## Every step -/

theorem exec_keepsForm (i : Instr) {s : State} (h : Memory.wf s.mem = true) : KeepsForm (exec i s) := by
  have hcore := coreExec_keepsForm i h
  cases i
  case hostStatus => exact execHostStatus_keepsForm h
  case hostExecute => exact execHostExecute_keepsForm h
  case hostReadQueue => exact execHostReadQueue_keepsForm h
  case hostGrantCredit => exact execHostGrantCredit_keepsForm h
  case hostReadWindow => exact execHostReadWindow_keepsForm h
  case hostReadReply => exact execHostReadReply_keepsForm h
  case leHalt => exact execLeHalt_keepsForm h
  case leDrive => exact execLeDrive_keepsForm h
  case leDriveAll => exact execLeDriveAll_keepsForm h
  case leSample => exact execLeSample_keepsForm h
  case leShout => exact execLeShout_keepsForm h
  case leShin => exact execLeShin_keepsForm h
  case leBranch => exact execLeBranch_keepsForm h
  case leAwait => exact execLeAwait_keepsForm h
  case leAwaitEnd => exact execLeAwaitEnd_keepsForm h
  case leStallEnd => exact execLeStallEnd_keepsForm h
  case leTimedAction => exact execLeTimedAction_keepsForm h
  case leTakeSr | leTakeC | leTakeMarkAdd | leTakeMarkAbs | leGiveSr | leGiveC | leGiveMarkLo |
    leGiveMarkHi | leCountLoad | leCountInc | leCountDec | leCountAdd | leStampNow | leStampEdge |
    leStampAddi | leStampAddc1 | leStampAddsr | leStampAddc0 =>
    exact engineRun_keepsForm h fun _ _ => by simp only [takeTo_mem, giveFrom_mem, countBy_mem, stampBy_mem]
  case dispatch => exact execDispatch_keepsForm h
  case waitTimeout => exact execWaitTimeout_keepsForm h
  case timerExpiry => exact execTimerExpiry_keepsForm h
  case budgetExhausted => exact execBudgetExhausted_keepsForm h
  case quotaExhausted => exact execQuotaExhausted_keepsForm h
  case quotaPeriod => exact execQuotaPeriod_keepsForm h
  case stallEnd => exact execStallEnd_keepsForm h
  case stallTimeout => exact execStallTimeout_keepsForm h
  case domainIdleOff => exact execDomainIdleOff_keepsForm h
  case powerOnReset => exact execPowerOnReset_keepsForm h
  case pgoodLow => exact execPgoodLow_keepsForm h
  case externalReset => exact execExternalReset_keepsForm h
  case resetRelease => exact execResetRelease_keepsForm h
  case functionReady => exact execFunctionReady_keepsForm h
  case functionFail => exact execFunctionFail_keepsForm h
  case bootAttempt => exact execBootAttempt_keepsForm h
  case doorbellStore => exact execDoorbellStore_keepsForm h
  case ownerLoadDone => exact execOwnerLoadDone_keepsForm h
  case spoolLoadDone => exact execSpoolLoadDone_keepsForm h
  case spoolLoadFail => exact execSpoolLoadFail_keepsForm h
  case loadCleanupEnd => exact execLoadCleanupEnd_keepsForm h
  case srlFrameStart => exact execSrlFrameStart_keepsForm h
  case srqAck => exact keepsForm_early_of_mem h fun _ => srqAck_mem ..
  case srlTimeout => exact execSrlTimeout_keepsForm h
  case clockSwitch => exact keepsForm_early_of_mem h fun _ => clockSwitch_mem ..
  case aonAdvance => exact execAonAdvance_keepsForm h
  case wakeActivity => exact execWakeActivity_keepsForm h
  case wakeWaggle => exact execWakeWaggle_keepsForm h
  case wakeLine => exact execWakeLine_keepsForm h
  case listenerWindow => exact execListenerWindow_keepsForm h
  case wakeEvent => exact execWakeEvent_keepsForm h
  case thermalRound => exact keepsForm_early h fun _ hu => thermalRound_wf _ _ hu
  case thermalCut => exact execThermalCut_keepsForm h
  case thermalRestart => exact execThermalRestart_keepsForm h
  case conversion => exact keepsForm_early_of_mem h fun _ => conversion_mem ..
  case sensorSampleDelivery => exact keepsForm_early_of_mem h fun _ => delivery_mem ..
  case selfTestEnd => exact keepsForm_early h fun _ hu => selfTestEnd_wf _ _ _ hu
  case toneMeasStart => exact keepsForm_early_of_mem h fun _ => toneStart_mem ..
  case toneResult => exact keepsForm_early_of_mem h fun _ => toneResult_mem ..
  case aoutTimeout => exact execAoutTimeout_keepsForm h
  case laneRecord => exact keepsForm_early_of_mem h fun _ => laneRecord_mem ..
  case recogDecide => exact keepsForm_early h fun _ hu => recogDecide_wf _ _ hu
  case evtPulseEnd => exact execEvtPulseEnd_keepsForm h
  case ringWrite => exact keepsForm_early h fun _ hu => ringWrite_wf _ hu
  case scrubLine => exact execScrubLine_keepsForm h
  case queueSwap => exact keepsForm_of_mem h (queueSwap_mem ..)
  case masterFrameStart => exact keepsForm_early_of_mem h fun _ => frameStart_mem ..
  case masterResume => exact keepsForm_early_of_mem h fun _ => frameResume_mem ..
  case masterFrameEnd => exact keepsForm_early_of_mem h fun _ => frameEnd_mem ..
  case slaveSelectAssert => exact keepsForm_early_of_mem h fun _ => selectAssert_mem ..
  case slaveWord => exact keepsForm_early_of_mem h fun _ => slaveWord_mem ..
  case slaveSelectRelease => exact keepsForm_early_of_mem h fun _ => selectRelease_mem ..
  case mmfDetect => exact keepsForm_early_of_mem h fun _ => mmfDetect_mem ..
  case memberCapture => exact keepsForm_early_of_mem h fun _ => memberCapture_mem ..
  case memberLatch => exact keepsForm_early_of_mem h fun _ => memberLatch_mem ..
  case sweepStart => exact keepsForm_early_of_mem h fun _ => sweepStart_mem ..
  case sweepEnd => exact keepsForm_early_of_mem h fun _ => sweepEnd_mem ..
  case claimSend => exact keepsForm_early_of_mem h fun _ => claimSend_mem ..
  case swarmDecide => exact keepsForm_early_of_mem h fun _ => swarmDecide_mem ..
  case callRx | claimRx | defendRx | renewRx | routeadvRx | dataRx | nackRx | delivRx | leaveRx | sreqRx |
    srespRx =>
    exact keepsForm_early_of_mem h fun _ => radioRx_mem ..
  case renewAnswer => exact keepsForm_early_of_mem h fun _ => renewAnswer_mem ..
  case renewSend => exact keepsForm_early_of_mem h fun _ => renewSend_mem ..
  case leaseExpiry => exact keepsForm_early_of_mem h fun _ => leaseExpiry_mem ..
  case routeadvSend => exact keepsForm_early_of_mem h fun _ => routeadvSend_mem ..
  case routeExpiry => exact keepsForm_early_of_mem h fun _ => routeExpiry_mem ..
  case cacheLineExpiry => exact keepsForm_early_of_mem h fun _ => cacheLineExpiry_mem ..
  case frameTransmit => exact keepsForm_early_of_mem h fun _ => frameTransmit_mem ..
  case floodRelay => exact keepsForm_early_of_mem h fun _ => floodRelay_mem ..
  case macAckRx => exact keepsForm_early_of_mem h fun _ => macAckRx_mem ..
  case macAckTimeout => exact keepsForm_early_of_mem h fun _ => macAckTimeout_mem ..
  case e2eTimeout => exact keepsForm_early_of_mem h fun _ => e2eTimeout_mem ..
  case waggleFrame => exact keepsForm_early_of_mem h fun _ => burstFrame_mem ..
  case syncSreq => exact keepsForm_early_of_mem h fun _ => syncSreq_mem ..
  case srespSend => exact keepsForm_early_of_mem h fun _ => srespSend_mem ..
  case captureSwitch => exact keepsForm_of_mem h (captureSwitch_mem ..)
  case commitDone => exact keepsForm_earlyIf h fun _ hu => commitDone_wf _ hu
  case flashOpDone => exact keepsForm_earlyIf h fun _ hu => flashOpDone_wf _ hu
  case flashOpTimeout => exact keepsForm_earlyIf h fun _ hu => flashOpTimeout_wf _ hu
  case flashOpResume => exact execFlashOpResume_keepsForm h
  case gcStep => exact execGcStep_keepsForm h
  case checkpointWrite => exact execCheckpointWrite_keepsForm h
  case scanEnd => exact keepsForm_earlyIf h fun u hu => by rw [scanEnd_mem]; exact hu
  case sealBurnDone => exact keepsForm_earlyIf h fun u hu => by rw [sealBurnDone_mem]; exact hu
  case sealArmExpiry => exact keepsForm_earlyIf h fun u hu => by rw [sealArmExpiry_mem]; exact hu
  case tapReset => exact execTapReset_keepsForm h
  case tapExtest | tapSamplePreload | tapIdcode | tapClamp | tapHighz | tapBypass =>
    exact keepsForm_of_mem h (tapLoad_mem ..)
  case tapPrivate => exact execTapPrivate_keepsForm h
  case sleepEntryStepEnd => exact execSleepEntryStepEnd_keepsForm h
  case orderlyStopStepEnd => exact execOrderlyStopStepEnd_keepsForm h
  case scanStart => exact execScanStart_keepsForm h
  case foreignFrameRx => exact keepsForm_of_mem h (foreignFrameRx_mem ..)
  case noLatchPeriod => exact execNoLatchPeriod_keepsForm h
  case tetherSyncSample => exact keepsForm_of_mem h (tetherSyncSample_mem ..)
  case ioBankSupplyChange => exact execIoBankSupplyChange_keepsForm h
  case vaoutChange => exact execVaoutChange_keepsForm h
  case drScan => exact execDrScan_keepsForm h
  all_goals exact hcore

/-- Settles O58: every step runs one command or lets one clock pass, and each keeps the canonical form. -/
theorem memoryFormKept : Obligations.MemoryFormKept := by
  unfold Obligations.MemoryFormKept
  intro s t h hstep
  unfold step at hstep
  split at hstep
  · cases hstep; exact tick_wf s h
  next i rest _ => exact exec_keepsForm i (s := { s with pending := rest }) h t hstep

end Sys2Proof.Machine
end

section
/-!
PROOFS. The ALU, VEC and FLOW instructions (spec/02_instruction_reference.md sections 2.3, 2.4 and 2.6): the flag
functions in the terms of Safety, then each instruction by `plainInstr_goesOn` or `flowInstr_begins`.
-/
namespace Sys2Proof.Machine

/-! ## Results and flags (Tables 2.5 and 2.6) -/

theorem addFlags_eq (x y : Word) (sat : Bool) (fl : Flags) :
    addFlags x y sat fl =
      let w := if sat then satWord 32 (x.toInt + y.toInt) else x + y
      (w, { (znOf fl w) with
        c := decide (2 ^ 32 ≤ x.toNat + y.toNat), v := outside 32 (x.toInt + y.toInt)
        q := fl.q || (sat && outside 32 (x.toInt + y.toInt)) }) := by
  simp only [addFlags, zn_eq, wordOfInt_satInt, not_fitsInt]

theorem subFlags_eq (x y : Word) (sat : Bool) (fl : Flags) :
    subFlags x y sat fl =
      let w := if sat then satWord 32 (x.toInt - y.toInt) else x - y
      (w, { (znOf fl w) with
        c := decide (y.toNat ≤ x.toNat), v := outside 32 (x.toInt - y.toInt)
        q := fl.q || (sat && outside 32 (x.toInt - y.toInt)) }) := by
  simp only [subFlags, zn_eq, wordOfInt_satInt, not_fitsInt]

theorem logicFlags_eq (w : Word) (fl : Flags) : logicFlags w fl = (w, znOf fl w) := by rw [logicFlags, zn_eq]

theorem shlFlags_eq (x : Word) (n : Nat) (fl : Flags) :
    shlFlags x n fl = (x <<< n, { (znOf fl (x <<< n)) with
      c := if n = 0 then fl.c else decide (n ≤ 32) && x.getLsbD (32 - n) }) := by
  have hc : (if n ≤ 32 then x.getLsbD (32 - n) else false) = (decide (n ≤ 32) && x.getLsbD (32 - n)) := by
    by_cases hn : n ≤ 32 <;> simp [hn]
  simp only [shlFlags, shl_of, zn_eq, hc]

theorem shrFlags_eq (x : Word) (n : Nat) (fl : Flags) :
    shrFlags x n fl = (x >>> n, { (znOf fl (x >>> n)) with c := if n = 0 then fl.c else x.getLsbD (n - 1) }) := by
  have hc : (if n ≤ 32 then x.getLsbD (n - 1) else false) = x.getLsbD (n - 1) := by
    split
    · rfl
    · exact (BitVec.getLsbD_of_ge x (n - 1) (by omega)).symm
  simp only [shrFlags, shr_of, zn_eq, hc]

theorem shaFlags_eq (x : Word) (n : Nat) (fl : Flags) :
    shaFlags x n fl = (x.sshiftRight n, { (znOf fl (x.sshiftRight n)) with
      c := if n = 0 then fl.c else (x.sshiftRight (n - 1)).getLsbD 0 }) := by
  have hc (hn : n ≠ 0) : (if n ≤ 32 then x.getLsbD (n - 1) else x.msb) = (x.sshiftRight (n - 1)).getLsbD 0 := by
    rw [BitVec.getLsbD_sshiftRight]
    by_cases h : n ≤ 32
    · simp [h, show n - 1 < 32 by omega]
    · simp [h, show ¬ n - 1 < 32 by omega]
  by_cases hn : n = 0
  · simp only [shaFlags, sha_of, zn_eq, hn, if_true]
  · simp only [shaFlags, sha_of, zn_eq, hn, hc hn]

theorem mulFlags_eq (x y : Word) (fl : Flags) :
    mulFlags x y fl = (x * y, { (znOf fl (x * y)) with v := outside 32 (x.toInt * y.toInt) }) := by
  simp only [mulFlags, zn_eq, not_fitsInt]

/-- The exact product of MULQ and VMUL, rounded (Table 2.5). -/
def roundedProduct (is15 : Bool) (x y : Word) : Int :=
  if is15 then (half15 x * half15 y + 2 ^ 14) >>> (15 : Nat) else (x.toInt * y.toInt + 2 ^ 30) >>> (31 : Nat)

theorem mulQ_eq (is15 : Bool) (x y : Word) :
    mulQ is15 x y =
      (satWord (if is15 then 16 else 32) (roundedProduct is15 x y),
        outside (if is15 then 16 else 32) (roundedProduct is15 x y)) := by
  cases is15 <;>
    simp [mulQ, mulQ15, mulQ31, roundedProduct, roundShift_eq, q15_eq, wordOfInt_satInt, not_fitsInt]

theorem macStep_eq (acc : BitVec 72) (clr neg : Bool) (p : Int) :
    macStep acc clr neg p =
      let e := (if clr then 0 else acc.toInt) + (if neg then -p else p)
      (BitVec.ofInt 72 (clampTo 72 e), outside 72 e) := by
  cases neg <;> simp [macStep, satInt_eq_clamp, not_fitsInt, Int.sub_eq_add_neg]

theorem macProd_eq (is15 : Bool) (x y : Word) :
    macProd is15 x y = if is15 then half15 x * half15 y * 2 ^ 32 else x.toInt * y.toInt := by
  simp only [macProd, q15_eq]

theorem satAcc_eq (is15 : Bool) (acc : BitVec 72) :
    satAcc is15 acc =
      let e := if is15 then (acc.toInt + 2 ^ 46) >>> (47 : Nat) else (acc.toInt + 2 ^ 30) >>> (31 : Nat)
      (satWord (if is15 then 16 else 32) e, outside (if is15 then 16 else 32) e) := by
  cases is15 <;> simp [satAcc, roundShift_eq, wordOfInt_satInt, not_fitsInt]

theorem zext16_eq_append (i : BitVec 16) : i.zeroExtend 32 = 0#16 ++ i := by
  refine BitVec.eq_of_getLsbD_eq fun k hk => ?_
  rw [BitVec.getLsbD_append, BitVec.getLsbD_setWidth]
  by_cases h : k < 16
  · simp [h, hk]
  · simp [h, BitVec.getLsbD_of_ge i k (by omega)]

/-- A halfword shifted up beside the kept low half is the two halves appended. -/
theorem halves_append (i : BitVec 16) (w : Word) :
    (i.zeroExtend 32 <<< 16) ||| (w &&& 0xFFFF) = i ++ w.extractLsb' 0 16 := by
  have hm : (0xFFFF : Word) = BitVec.setWidth 32 (BitVec.allOnes 16) := by decide
  refine BitVec.eq_of_getLsbD_eq fun k hk => ?_
  simp only [hm, BitVec.getLsbD_append, BitVec.getLsbD_or, BitVec.getLsbD_and, BitVec.getLsbD_setWidth,
    BitVec.getLsbD_shiftLeft, BitVec.getLsbD_allOnes, BitVec.getLsbD_extractLsb', hk]
  by_cases h : k < 16
  · simp [h]
  · simp only [h]; simp; omega

theorem vecFlags_eq (w : XYZ) (q : Bool) (fl : Flags) :
    vecFlags w q fl = { fl with z := decide (w = ⟨0, 0, 0⟩), q := fl.q || q } := by
  obtain ⟨x, y, z⟩ := w
  simp [vecFlags, Bool.and_assoc, Bool.decide_and, BEq.beq]

/-- A vector result with its flags, lane by lane. -/
theorem putV_lanes (r : Regs) (d : BitVec 4) (n : Nat) (x y z : Int) :
    r.putV d (⟨satWord n x, satWord n y, satWord n z⟩, outside n x || outside n y || outside n z) =
      { (r.wv d ⟨satWord n x, satWord n y, satWord n z⟩) with
        fl := { r.fl with
          z := decide ((⟨satWord n x, satWord n y, satWord n z⟩ : XYZ) = ⟨0, 0, 0⟩)
          q := r.fl.q || (outside n x || outside n y || outside n z) } } := by
  rw [Regs.putV, vecFlags_eq]

/-- A function that saturates, applied per lane. -/
theorem lanes2_eq {f : Word → Word → Word × Bool} {n : Nat} {g : Word → Word → Int}
    (hf : ∀ x y, f x y = (satWord n (g x y), outside n (g x y))) (a b : XYZ) :
    lanes2 f a b = (⟨satWord n (g a.x b.x), satWord n (g a.y b.y), satWord n (g a.z b.z)⟩,
      outside n (g a.x b.x) || outside n (g a.y b.y) || outside n (g a.z b.z)) := by
  simp only [lanes2, hf]

/-! ## The ALU instructions -/

section
variable {c : CoreId} {v : Inv} {s s' : State}

/-- An ALU or VEC instruction with a defined encoding writes its registers, goes on and charges its cycles. -/
theorem plainInstr_goesOn {i : Instr} {ok : Bool} (h : Begins c i v s s') (hok : ok = true) (n : Nat) (f : Regs → Regs) :
    (.next (plainInstr c i ok n f s) : Out) = .next (goesOn c n s' (f (s'.regs c))) := by
  rw [hok, plainInstr_begins h]; rfl

end

/-- Settles O1: each by the flag function that its row names. -/
theorem aluResults : Obligations.AluResults := by
  unfold Obligations.AluResults
  intro c v s s' rd ra b
  refine ⟨fun h hok => ?_, fun h hok => ?_, fun h hok => ?_, fun h hok => ?_, fun h hok => ?_, fun h hok => ?_,
    fun h hok => ?_, fun h hok => ?_, fun h hok => ?_, fun h hok => ?_⟩
  · refine (plainInstr_goesOn h hok _ _).trans ?_
    rw [addFlags_eq]; rfl
  · refine (plainInstr_goesOn h hok _ _).trans ?_
    rw [subFlags_eq]; rfl
  · refine (plainInstr_goesOn h hok _ _).trans ?_
    rw [logicFlags_eq]; rfl
  · refine (plainInstr_goesOn h hok _ _).trans ?_
    rw [logicFlags_eq]; rfl
  · refine (plainInstr_goesOn h hok _ _).trans ?_
    rw [logicFlags_eq]; rfl
  · refine (plainInstr_goesOn h hok _ _).trans ?_
    rw [shlFlags_eq]; rfl
  · refine (plainInstr_goesOn h hok _ _).trans ?_
    rw [shrFlags_eq]; rfl
  · refine (plainInstr_goesOn h hok _ _).trans ?_
    rw [shaFlags_eq]; rfl
  · refine (plainInstr_goesOn h hok _ _).trans ?_
    rw [logicFlags_eq, BitVec.slt_eq_decide]; simp only [decide_eq_true_eq]; rfl
  · refine (plainInstr_goesOn h hok _ _).trans ?_
    rw [logicFlags_eq, BitVec.ult_eq_decide]; simp only [decide_eq_true_eq]; rfl

theorem mod_small {m : BitVec 8} {n : Nat} (h : m.toNat < n) : (m.toNat / n == 0) = true := by
  rw [Nat.div_eq_of_lt h]; rfl

/-- Settles O2: the products, the accumulator and the moves, each by its own equation. -/
theorem multiplyAndMove : Obligations.MultiplyAndMove := by
  unfold Obligations.MultiplyAndMove
  intro c v s s' f l
  refine ⟨fun h hm => ?_, fun h hm => ?_, fun h hm => ?_, fun h hm hd => ?_, fun h hm ha hb => ?_, fun h hz => ?_,
    fun h hz => ?_, fun h hz => ?_⟩
  · refine (plainInstr_goesOn h (by simp [hm]) _ _).trans ?_
    rw [mulFlags_eq]; rfl
  · refine (plainInstr_goesOn h (by simp [hm]) _ _).trans ?_
    rw [logicFlags_eq, Int.shiftRight_eq_div_pow]; rfl
  · refine (plainInstr_goesOn h (mod_small hm) _ _).trans ?_
    simp only [mulQ_eq, zn_eq]; rfl
  · refine (plainInstr_goesOn h (by simp [mod_small hm, hd, unusedZero]) _ _).trans ?_
    rw [macProd_eq, macStep_eq]; rfl
  · refine (plainInstr_goesOn h (by simp [mod_small hm, ha, hb, unusedZero]) _ _).trans ?_
    simp only [satAcc_eq, zn_eq]; rfl
  · refine (plainInstr_goesOn h (by simp [hz]) _ _).trans ?_
    rw [zext16_eq_append]
  · refine (plainInstr_goesOn h (by simp [hz]) _ _).trans ?_
    rw [halves_append]
  · exact plainInstr_goesOn h (by simp [hz]) _ _

theorem setLane_eq (o : XYZ) (x : Word) {k : Nat} (hk : k < 3) :
    o.setLane k x = ⟨if k = 0 then x else o.x, if k = 1 then x else o.y, if k = 2 then x else o.z⟩ := by
  have hcases : k = 0 ∨ k = 1 ∨ k = 2 := by omega
  rcases hcases with rfl | rfl | rfl <;> rfl

/-- Settles O3: lane by lane. -/
theorem vectorResults : Obligations.VectorResults := by
  unfold Obligations.VectorResults
  intro c v s s' f
  refine ⟨fun h hm hd ha hb => ?_, fun h hm hd ha hb => ?_, fun h hm hd ha hb => ?_, fun h hm ha hb => ?_,
    fun h hm hd ha hb => ?_, fun h hm hd hb => ?_, fun h hm ha hb => ?_⟩
  · refine (plainInstr_goesOn h (by simp [hm, hd, ha, hb]) _ _).trans ?_
    have hplus : f.mod.getLsbD 0 = false := by rw [hm]; rfl
    simp only [hplus, Bool.false_eq_true, if_false, lanes2_eq (fun x y => sat31_eq (x.toInt + y.toInt)), putV_lanes]
  · refine (plainInstr_goesOn h (by simp [hm, hd, ha, hb]) _ _).trans ?_
    simp only [lanes2_eq (fun x y => sat31_eq (x.toInt - y.toInt)), putV_lanes]
  · refine (plainInstr_goesOn h (by simp [mod_small hm, hd, ha, hb]) _ _).trans ?_
    simp only [lanes2_eq (mulQ_eq _), putV_lanes]; rfl
  · refine (plainInstr_goesOn h (by simp [hm, ha, hb]) _ _).trans ?_
    simp only [sat31_eq, roundShift_eq, zn_eq]; rfl
  · refine (plainInstr_goesOn h (by simp [hm, hd, ha, hb]) _ _).trans ?_
    simp only [cross, sat31_eq, roundShift_eq, putV_lanes]; rfl
  · refine (plainInstr_goesOn h (by simp [hm, hd, hb]) _ _).trans ?_
    rw [setLane_eq _ _ hm]
  · refine (plainInstr_goesOn h (by simp [hm, ha, hb]) _ _).trans ?_
    rw [logicFlags_eq]; rfl

/-! ## Branches -/

section
variable {c : CoreId} {v : Inv} {s s' : State}

theorem flowInstr_ok {i : Instr} {ok : Bool} (h : Begins c i v s s') (hok : ok = true)
    (k : Inv → Regs → State → State) : (.next (flowInstr c i ok k s) : Out) = .next (k v (s'.regs c) s') := by
  rw [hok, flowInstr_begins h]

theorem branchIf_eq (cond : Bool) (a : Word) :
    (.next (branchIf c v cond a s) : Out) =
      if cond then .next (jumpsTo c v a s (s.regs c)) else .next (goesOn c 1 s (s.regs c)) := by
  cases cond
  case false => rfl
  case true => simp only [branchIf, taken_jumps_same, if_true]

end

/-- Settles O8: taken branches jump and others go on. -/
theorem branchesGo : Obligations.BranchesGo := by
  unfold Obligations.BranchesGo
  intro c v s s' f g
  refine ⟨fun h ha => ?_, fun h => ?_, fun h => ?_, fun h ha => ?_, fun h ha => ?_, fun h hm hd hb => ?_, fun h hg => ?_⟩
  · refine (flowInstr_ok h (by simp [ha]) _).trans ?_
    rw [taken_jumps_same, branchTarget_eq]
  · refine (flowInstr_ok h rfl _).trans ?_
    rw [branchIf_eq, branchTarget_eq]; simp only [beq_iff_eq]
  · refine (flowInstr_ok h rfl _).trans ?_
    rw [branchIf_eq, branchTarget_eq]; simp only [bne_iff_ne, ite_not]
  · refine (flowInstr_ok h (by simp [ha]) _).trans ?_
    rw [branchIf_eq, branchTarget_eq]; simp only [beq_iff_eq]; rfl
  · refine (flowInstr_ok h (by simp [ha]) _).trans ?_
    rw [branchIf_eq, branchTarget_eq]; simp only [bne_iff_ne, ite_not]; rfl
  · refine (flowInstr_ok h (by simp [hm, hd, hb, unusedZero]) _).trans ?_
    rw [taken_jumps_same]
  · exact (flowInstr_ok h (by simp [hg, unusedZero]) _).trans (by rw [notTaken_goesOn])

end Sys2Proof.Machine
end

section
/-!
PROOFS. The MEM instructions (spec/02_instruction_reference.md section 2.5): an access of one word and of three, what a
load delivers region by region, what a store writes, and what is refused; then the words that no row reads.
-/
namespace Sys2Proof.Machine

/-! ## Addresses (Table 1.4) -/

@[simp] theorem accessWords_one (ea : Word) : accessWords ea 1 = [ea.toNat] := by
  simp [accessWords, List.range_succ, Nat.mod_eq_of_lt ea.isLt]

@[simp] theorem accessWords_three (ea : Word) :
    accessWords ea 3 = [ea.toNat, (ea + 4).toNat, (ea + 8).toNat] := by
  simp [accessWords, List.range_succ, Nat.mod_eq_of_lt ea.isLt]

theorem inSpan_iff {b n a : Nat} : inSpan b n a = true ↔ b ≤ a ∧ a < b + n := by simp [inSpan]

theorem not_inSpan {b n a : Nat} (h : ¬ (b ≤ a ∧ a < b + n)) : ¬ inSpan b n a = true := mt inSpan_iff.mp h

theorem regionOf_code {a : Nat} (hlo : 0x20000000 ≤ a) (hhi : a < 0x20080000) : regionOf a = .code := by
  have h1 : ¬ a < 0x10000 := by omega
  have h2 : ¬ inSpan flashBase flashSize a = true := not_inSpan (by unfold flashBase flashSize; omega)
  have h3 : inSpan codeBase codeSize a = true := inSpan_iff.mpr ⟨hlo, hhi⟩
  rw [regionOf, if_neg h1, if_neg h2, if_pos h3]

theorem regionOf_data {a : Nat} (hlo : 0x20100000 ≤ a) (hhi : a < 0x20200000) : regionOf a = .data := by
  have h1 : ¬ a < 0x10000 := by omega
  have h2 : ¬ inSpan flashBase flashSize a = true := not_inSpan (by unfold flashBase flashSize; omega)
  have h3 : ¬ inSpan codeBase codeSize a = true := not_inSpan (by unfold codeBase codeSize; omega)
  have h4 : inSpan dataBase dataSize a = true := inSpan_iff.mpr ⟨hlo, hhi⟩
  rw [regionOf, if_neg h1, if_neg h2, if_neg h3, if_pos h4]

theorem spanIn_iff {b n a k : Nat} : spanIn b n a k = true ↔ b ≤ a ∧ a + k ≤ b + n := by simp [spanIn]

/-- The words of a span that lies in one region do not wrap. -/
theorem accessWords_span {ea : Word} {b n : Nat} (h : spanIn b n ea.toNat 12 = true) (hb : b + n ≤ 2 ^ 32) :
    accessWords ea 3 = [ea.toNat, ea.toNat + 4, ea.toNat + 8] := by
  obtain ⟨_, hhi⟩ := spanIn_iff.mp h
  have h4 : (ea + 4).toNat = ea.toNat + 4 := by
    rw [BitVec.toNat_add]; exact Nat.mod_eq_of_lt (by change ea.toNat + 4 < _; omega)
  have h8 : (ea + 8).toNat = ea.toNat + 8 := by
    rw [BitVec.toNat_add]; exact Nat.mod_eq_of_lt (by change ea.toNat + 8 < _; omega)
  rw [accessWords_three, h4, h8]

/-! ## A load of one word -/

/-- How a load of one word that was read as `x` ends. -/
def loadsOne (c : CoreId) (v : Inv) (f : IForm) (s : State) (a : Nat) (x : RdRes) (n : Nat) : Out :=
  .next (retireUsing c v (sramBank a) s (if x.dbl then stEcc else stOk)
    (fun r => { (r.wr f.rd x.w) with fl := { r.fl with p := x.dbl } }) n x.s)

section
variable {c : CoreId} {v : Inv} {s s' : State} {f : IForm} {a : Nat}

/-- What a load of one word that passes orders 1 to 5 does. -/
theorem exec_ldw (h : Begins c (.ldw c f) v s s') (ha : (effAddr (s'.regs c) f).toNat = a) (hal : a % 4 = 0)
    (hload : loadable a = true) (hmay : loadMay s' v.tenant a = true)
    (hfail : ∀ g, loadFunc a = some g → s'.hasFailed g = false) (hwait : loadWaits a s' = none)
    (hread : ∀ p, loadReads a 1 = some p → flashServed p.1 p.2 s' = true) :
    exec (.ldw c f) s = loadsOne c v f s a (loadWord a s') (1 + loadExtra false a s') := by
  subst ha
  change execLdw c f s = _
  refine congrArg Host.Outcome.next ?_
  rw [loadInstr, specInstr_passes _ h rfl (by simp [hal, hload]) (by simp [hmay]) ?failed hwait ?reads]
  case failed =>
    dsimp only
    split
    next g hg => exact hfail g hg
    · rfl
  case reads =>
    dsimp only [readWaits]
    split
    next off n hp => rw [if_pos (hread _ hp)]
    · rfl
  simp only [accessWords_one, loadWords, List.flatMap_cons, List.flatMap_nil, List.append_nil, Bool.or_false, if_true]
  rfl

/-- A load of one word that waits to read flash. -/
theorem exec_ldw_waits (h : Begins c (.ldw c f) v s s') (ha : (effAddr (s'.regs c) f).toNat = a) (hal : a % 4 = 0)
    (hload : loadable a = true) (hmay : loadMay s' v.tenant a = true)
    (hfail : ∀ g, loadFunc a = some g → s'.hasFailed g = false) (hwait : loadWaits a s' = none) {off n : Nat}
    (hread : loadReads a 1 = some (off, n)) (hbusy : flashServed off n s' = false) :
    exec (.ldw c f) s = .next (stallRead c (.ldw c f) false off n s') := by
  subst ha
  change execLdw c f s = _
  refine congrArg Host.Outcome.next ?_
  refine specInstr_reads _ h rfl (by simp [hal, hload]) (by simp [hmay]) ?failed hwait off n ?reads
  case failed =>
    dsimp only
    split
    next g hg => exact hfail g hg
    · rfl
  case reads => simp [readWaits, hread, hbusy]

theorem loadFunc_none (hc : regionOf a ≠ .comb) (hf : regionOf a ≠ .flash) : loadFunc a = none := by
  unfold loadFunc
  split
  · contradiction
  · contradiction
  · rfl

/-- A load of one word from a region that needs no function and never waits. -/
theorem exec_ldw_direct (h : Begins c (.ldw c f) v s s') (ha : (effAddr (s'.regs c) f).toNat = a) (hal : a % 4 = 0)
    (hload : loadable a = true) (hmay : loadMay s' v.tenant a = true) (hc : regionOf a ≠ .comb) (hf : regionOf a ≠ .flash) :
    exec (.ldw c f) s = loadsOne c v f s a (loadWord a s') (1 + loadExtra false a s') := by
  refine exec_ldw h ha hal hload hmay (fun g hg => ?_) ?_ (fun p hp => ?_)
  · rw [loadFunc_none hc hf] at hg; cases hg
  · rw [loadWaits, loadFunc_none hc hf]; rfl
  · rw [loadReads, if_neg hf] at hp; cases hp

/-! ### Region by region -/

theorem exec_ldw_code (h : Begins c (.ldw c f) v s s') (ha : (effAddr (s'.regs c) f).toNat = a) (hal : a % 4 = 0)
    (hreg : regionOf a = .code) (hin : inCodeSram s' v.tenant a 4 = true) :
    exec (.ldw c f) s = loadsOne c v f s a (readSram a s') 1 := by
  rw [exec_ldw_direct h ha hal (by simp only [loadable, hreg]) (by simp only [loadMay, hreg, hin])
    (by rw [hreg]; decide) (by rw [hreg]; decide)]
  simp only [loadWord, loadExtra, hreg]

theorem exec_ldw_data (h : Begins c (.ldw c f) v s s') (ha : (effAddr (s'.regs c) f).toNat = a) (hal : a % 4 = 0)
    (hreg : regionOf a = .data) (hin : inData s' v.tenant a 4 = true) :
    exec (.ldw c f) s = loadsOne c v f s a (readSram a s') 1 := by
  rw [exec_ldw_direct h ha hal (by simp only [loadable, hreg]) (by simp only [loadMay, hreg, hin])
    (by rw [hreg]; decide) (by rw [hreg]; decide)]
  simp only [loadWord, loadExtra, hreg]

theorem loadable_of_code (h : regionOf a = .code) : loadable a = true := by simp only [loadable, h]

theorem loadable_of_data (h : regionOf a = .data) : loadable a = true := by simp only [loadable, h]

theorem loadMay_code {t : Tid} (h : regionOf a = .code) : loadMay s t a = inCodeSram s t a 4 := by simp only [loadMay, h]

theorem loadMay_data {t : Tid} (h : regionOf a = .data) : loadMay s t a = inData s t a 4 := by simp only [loadMay, h]

theorem loadable_window {w : Win} (hreg : regionOf a = .window) (hw : winAt a = some w) : loadable a = true := by
  unfold loadable
  rw [hreg, hw]
  rfl

theorem loadMay_window {w : Win} {t : Tid} (hreg : regionOf a = .window) (hw : winAt a = some w)
    (hmay : winMay s t w (a % 4096) = true) : loadMay s t a = true := by
  unfold loadMay
  rw [hreg, hw]
  exact hmay

theorem exec_ldw_window {w : Win} (h : Begins c (.ldw c f) v s s') (ha : (effAddr (s'.regs c) f).toNat = a)
    (hal : a % 4 = 0) (hreg : regionOf a = .window) (hw : winAt a = some w)
    (hmay : winMay s' v.tenant w (a % 4096) = true) :
    exec (.ldw c f) s = loadsOne c v f s a ⟨winWord s'.atStart w (a % 4096), false, s'⟩ 2 := by
  rw [exec_ldw_direct h ha hal (loadable_window hreg hw) (loadMay_window hreg hw hmay)
    (by rw [hreg]; decide) (by rw [hreg]; decide)]
  simp only [loadWord, loadExtra, hreg, hw, Bool.false_eq_true, if_false]

theorem loadWord_aon (hreg : regionOf a = .aonWin) :
    loadWord a s = ⟨aonWindow s.atStart (a - 0x50000000), false, s⟩ := by
  have hbase : a - aonBase = a - 0x50000000 := by rw [aonBase]
  simp only [loadWord, hreg, hbase]

theorem exec_ldw_aon (h : Begins c (.ldw c f) v s s') (ha : (effAddr (s'.regs c) f).toNat = a) (hal : a % 4 = 0)
    (hreg : regionOf a = .aonWin) :
    exec (.ldw c f) s = loadsOne c v f s a ⟨aonWindow s'.atStart (a - 0x50000000), false, s'⟩ 2 := by
  rw [exec_ldw_direct h ha hal (by simp only [loadable, hreg]) (by simp only [loadMay, hreg])
    (by rw [hreg]; decide) (by rw [hreg]; decide)]
  simp only [loadWord_aon hreg, loadExtra, hreg, Bool.false_eq_true, if_false]

/-- The cycles of a table by level, one more than the table of extra cycles. -/
theorem levelCycles (l : BitVec 2) (b0 b1 b2 b3 : Nat) :
    1 + [b0, b1, b2, b3].getD l.toNat 0 = [1 + b0, 1 + b1, 1 + b2, 1 + b3].getD l.toNat 1 := by
  have hlevels : ∀ l : BitVec 2, l = 0 ∨ l = 1 ∨ l = 2 ∨ l = 3 := by decide
  rcases hlevels l with rfl | rfl | rfl | rfl <;> rfl

theorem exec_ldw_flash (h : Begins c (.ldw c f) v s s') (ha : (effAddr (s'.regs c) f).toNat = a) (hal : a % 4 = 0)
    (hreg : regionOf a = .flash) (hx : inXip s' v.tenant a 4 = true) (hseal : sealedMay v.tenant (a - flashBase) = true)
    (hfail : s'.hasFailed .flash = false) (hwait : waitsFor .flash s' = none) :
    exec (.ldw c f) s =
      if flashServed (lineSpan (a - flashBase) 4).1 (lineSpan (a - flashBase) 4).2 s' then
        loadsOne c v f s a ⟨memWord s'.mem a, false, flashRead (a - flashBase) (fillClks s'.level.cur) s'⟩
          ([1, 4, 10, 20].getD s'.level.cur.toNat 1)
      else .next (stallRead c (.ldw c f) false (lineSpan (a - flashBase) 4).1 (lineSpan (a - flashBase) 4).2 s') := by
  have hread : loadReads a 1 = some (lineSpan (a - flashBase) 4) := by simp only [loadReads, hreg, if_true, Nat.mul_one]
  have hload : loadable a = true := by simp only [loadable, hreg]
  have hmay : loadMay s' v.tenant a = true := by simp only [loadMay, hreg, hx, hseal, Bool.and_self]
  have hfun : loadFunc a = some .flash := by simp only [loadFunc, hreg]
  have hfails : ∀ g, loadFunc a = some g → s'.hasFailed g = false := by rw [hfun]; rintro g ⟨⟩; exact hfail
  have hwaits : loadWaits a s' = none := by rw [loadWaits, hfun]; exact hwait
  split
  next hserved =>
    rw [exec_ldw h ha hal hload hmay hfails hwaits (by rw [hread]; rintro p ⟨⟩; exact hserved)]
    simp only [loadWord, loadExtra, hreg, Bool.false_eq_true, if_false, levelCycles]
  next hbusy => exact exec_ldw_waits h ha hal hload hmay hfails hwaits hread (by simpa using hbusy)

theorem exec_ldw_comb (h : Begins c (.ldw c f) v s s') (ha : (effAddr (s'.regs c) f).toNat = a) (hal : a % 4 = 0)
    (hreg : regionOf a = .comb) (hin : combMay s' v.tenant a = true) (hfail : s'.hasFailed .comb = false)
    (hwait : waitsFor .comb s' = none) (hecc : ∀ e ∈ s'.ecc, e.addr ≠ a) :
    exec (.ldw c f) s = loadsOne c v f s a
      ⟨memWord s'.mem a, false, { s'.combTaken with sleep := { s'.sleep with combUse := s'.time.phys } }⟩
      ([2, 2, 2, 3].getD s'.level.cur.toNat 1) := by
  have hfun : loadFunc a = some .comb := by simp only [loadFunc, hreg]
  have hnone : s'.ecc.find? (fun e => e.addr == a) = none := by
    rw [List.find?_eq_none]; exact fun e he => by simpa using hecc e he
  rw [exec_ldw h ha hal (by simp only [loadable, hreg]) (by simp only [loadMay, hreg, hin])
    (by rw [hfun]; rintro g ⟨⟩; exact hfail) (by rw [loadWaits, hfun]; exact hwait)
    (by rw [loadReads, hreg]; rintro p ⟨⟩)]
  simp only [loadWord, loadExtra, hreg, readComb, eccAt, State.combTaken, hnone, Bool.false_eq_true, if_false, levelCycles]

end

/-! ## A load of three words -/

/-- What a word that a load may read from SRAM gives when no error is marked there. -/
structure ReadsClean (s : State) (t : Tid) (a : Nat) : Prop where
  sram : regionOf a = .code ∨ regionOf a = .data
  may : loadMay s t a = true
  clean : eccSeen s a = none

section
variable {s : State} {t : Tid} {a : Nat}

theorem ReadsClean.loadable (h : ReadsClean s t a) : loadable a = true := by
  rcases h.sram with e | e <;> simp only [Machine.loadable, e]

theorem ReadsClean.loadWord (h : ReadsClean s t a) : loadWord a s = ⟨wordSeen s a, false, s⟩ := by
  rw [← readSram_clean h.clean]
  rcases h.sram with e | e <;> simp only [Machine.loadWord, e]

theorem ReadsClean.loadFunc (h : ReadsClean s t a) : loadFunc a = none := by
  rcases h.sram with e | e <;> simp only [Machine.loadFunc, e]

theorem ReadsClean.loadReads (h : ReadsClean s t a) (n : Nat) : loadReads a n = none := by
  rcases h.sram with e | e <;> exact if_neg (by rw [e]; decide)

theorem ReadsClean.loadExtra (h : ReadsClean s t a) (b : Bool) : loadExtra b a s = 0 := by
  rcases h.sram with e | e <;> simp only [Machine.loadExtra, e]

theorem spanIn_part {b n k d m : Nat} (h : spanIn b n a k = true) (hd : d + m ≤ k) : spanIn b n (a + d) m = true := by
  obtain ⟨hlo, hhi⟩ := spanIn_iff.mp h
  exact spanIn_iff.mpr ⟨by omega, by omega⟩

theorem inCodeSram_part {d : Nat} (h : inCodeSram s t a 12 = true) (hd : d + 4 ≤ 12) :
    inCodeSram s t (a + d) 4 = true := by
  unfold inCodeSram at h ⊢
  split
  next ht => rw [if_pos ht] at h; exact spanIn_part h hd
  next ht => rw [if_neg ht] at h; exact spanIn_part h hd

theorem inData_part {d : Nat} (h : inData s t a 12 = true) (hd : d + 4 ≤ 12) : inData s t (a + d) 4 = true := by
  unfold inData at h ⊢
  split
  next ht => rw [if_pos ht] at h; exact spanIn_part h hd
  next ht => rw [if_neg ht] at h; exact spanIn_part h hd

theorem readsClean_code {d : Nat} (hspan : spanIn 0x20000000 0x00080000 a 12 = true)
    (hin : inCodeSram s t a 12 = true) (hd : d + 4 ≤ 12) (hclean : eccSeen s (a + d) = none) :
    ReadsClean s t (a + d) := by
  obtain ⟨hlo, hhi⟩ := spanIn_iff.mp hspan
  have hreg : regionOf (a + d) = .code := regionOf_code (by omega) (by omega)
  exact ⟨.inl hreg, by simp only [loadMay, hreg, inCodeSram_part hin hd], hclean⟩

theorem readsClean_data {d : Nat} (hspan : spanIn 0x20100000 0x00100000 a 12 = true)
    (hin : inData s t a 12 = true) (hd : d + 4 ≤ 12) (hclean : eccSeen s (a + d) = none) :
    ReadsClean s t (a + d) := by
  obtain ⟨hlo, hhi⟩ := spanIn_iff.mp hspan
  have hreg : regionOf (a + d) = .data := regionOf_data (by omega) (by omega)
  exact ⟨.inr hreg, by simp only [loadMay, hreg, inData_part hin hd], hclean⟩

end

section
variable {c : CoreId} {v : Inv} {s s' : State} {f : IForm} {a : Nat}

/-- A load of three words that SRAM holds clean. -/
theorem exec_ldv_clean (h : Begins c (.ldv c f) v s s') (hd : isVec f.rd = true)
    (ha : accessWords (effAddr (s'.regs c) f) 3 = [a, a + 4, a + 8]) (hal : a % 4 = 0)
    (h0 : ReadsClean s' v.tenant a) (h4 : ReadsClean s' v.tenant (a + 4)) (h8 : ReadsClean s' v.tenant (a + 8)) :
    exec (.ldv c f) s = .next (retireUsing c v (sramBank a ++ sramBank (a + 4) ++ sramBank (a + 8)) s stOk
      (fun r => { (r.wv f.rd ⟨wordSeen s' a, wordSeen s' (a + 4), wordSeen s' (a + 8)⟩) with
        fl := { r.fl with p := false } }) 2 s') := by
  have hea : (effAddr (s'.regs c) f).toNat = a := by rw [accessWords_three] at ha; exact (List.cons.inj ha).1
  change execLdv c f s = _
  refine congrArg Host.Outcome.next ?_
  rw [loadInstr, specInstr_passes _ h hd ?o2 ?o3 ?failed ?waits ?reads]
  case o2 => simp only [ha, hea, hal, BEq.rfl, List.all_cons, List.all_nil, h0.loadable, h4.loadable, h8.loadable, Bool.and_self]
  case o3 => simp only [ha, List.all_cons, List.all_nil, h0.may, h4.may, h8.may, Bool.and_self]
  case failed => simp only [hea, h0.loadFunc]
  case waits => simp only [hea, loadWaits, h0.loadFunc, Option.bind_none]
  case reads => simp only [readWaits, hea, h0.loadReads]
  simp only [ha, hea, loadWords, h0.loadWord, h4.loadWord, h8.loadWord, h0.loadExtra, List.flatMap_cons, List.flatMap_nil,
    List.append_nil, Bool.or_self, if_true, List.append_assoc]
  rfl

theorem exec_ldv_sram (h : Begins c (.ldv c f) v s s') (hd : isVec f.rd = true)
    (ha : (effAddr (s'.regs c) f).toNat = a) (hal : a % 4 = 0) (hclean : CleanAt s' a 3)
    (hreg : (regionOf a = .code ∧ inCodeSram s' v.tenant a 12 = true) ∨ (regionOf a = .data ∧ inData s' v.tenant a 12 = true))
    (hspan : (spanIn 0x20000000 0x00080000 a 12 || spanIn 0x20100000 0x00100000 a 12) = true) :
    exec (.ldv c f) s = .next (retireUsing c v (sramBank a ++ sramBank (a + 4) ++ sramBank (a + 8)) s stOk
      (fun r => { (r.wv f.rd ⟨wordSeen s' a, wordSeen s' (a + 4), wordSeen s' (a + 8)⟩) with
        fl := { r.fl with p := false } }) 2 s') := by
  have hreads : ∀ d, d % 4 = 0 → d + 4 ≤ 12 → ReadsClean s' v.tenant (a + d) := fun d hd4 hd => by
    have hclean : eccSeen s' (a + d) = none := by
      have := hclean (d / 4) (by omega)
      rwa [show a + 4 * (d / 4) = a + d by omega] at this
    rcases Bool.or_eq_true_iff.mp hspan with hs | hs <;> rcases hreg with ⟨hr, hin⟩ | ⟨hr, hin⟩
    · exact readsClean_code hs hin hd hclean
    · obtain ⟨hlo, hhi⟩ := spanIn_iff.mp hs
      rw [regionOf_code hlo (by omega)] at hr; cases hr
    · obtain ⟨hlo, hhi⟩ := spanIn_iff.mp hs
      rw [regionOf_data hlo (by omega)] at hr; cases hr
    · exact readsClean_data hs hin hd hclean
  have hwords : accessWords (effAddr (s'.regs c) f) 3 = [a, a + 4, a + 8] := by
    rcases Bool.or_eq_true_iff.mp hspan with hs | hs <;> rw [← ha] at hs ⊢
    · exact accessWords_span hs (by decide)
    · exact accessWords_span hs (by decide)
  exact exec_ldv_clean h hd hwords hal (hreads 0 rfl (by decide)) (hreads 4 rfl (by decide)) (hreads 8 rfl (by decide))

end

/-- Settles O5: each region's load by its own lemma. -/
theorem loadsDeliver : Obligations.LoadsDeliver := by
  unfold Obligations.LoadsDeliver
  intro c v s s' f ea a t l line one three
  refine ⟨fun h hal hreg => ?_, fun h hal hreg hx hseal hfail hwait => ?_,
    fun h hal hreg hmay hfail hwait hecc => ?_, fun w h hal hreg hw hmay => ?_, fun h hal hreg => ?_,
    fun h hv hal hclean hreg hspan => ?_⟩
  · have hread : exec (.ldw c f) s = loadsOne c v f s a (readSram a s') 1 := by
      rcases hreg with ⟨hr, hin⟩ | ⟨hr, hin⟩
      · exact exec_ldw_code h rfl hal hr hin
      · exact exec_ldw_data h rfl hal hr hin
    rw [hread, readSram]
    cases eccSeen s' a with
    | none => rfl
    | some e => rfl
  · exact exec_ldw_flash (a := a) h rfl hal hreg hx hseal hfail hwait
  · exact exec_ldw_comb (a := a) h rfl hal hreg hmay hfail hwait hecc
  · exact exec_ldw_window (a := a) h rfl hal hreg hw hmay
  · have hdelivers := exec_ldw_aon (a := a) h rfl hal hreg
    generalize aonWindow s'.atStart (a - 0x50000000) = w at hdelivers ⊢
    exact hdelivers
  · exact exec_ldv_sram h hv rfl hal hclean hreg hspan

/-! ## What charged cycles leave of an invocation -/

/-- A part of an invocation that charging cycles leaves. -/
structure Lasting {α : Type} (g : Inv → α) : Prop where
  used : ∀ (i : Inv) (n : Nat), g { i with used := n } = g i
  quota : ∀ (i : Inv), g { i with quotaOut := true } = g i

section
variable {α : Type} {g : Inv → α}

theorem setCore_inv {s : State} {c : CoreId} {k : Core} (h : k.inv.map g = (s.core c).inv.map g) (d : CoreId) :
    ((s.setCore c k).core d).inv.map g = (s.core d).inv.map g := by
  by_cases hd : c = d
  · subst hd; rw [core_setCore_same]; exact h
  · rw [core_setCore_other _ _ hd]

theorem markQuota_inv (hg : Lasting g) (t : Tid) (k : Core) : (markQuota t k).inv.map g = k.inv.map g := by
  unfold markQuota
  split
  next i h => split <;> simp [h, hg.quota]
  next h => rfl

theorem chargeQuota_inv (hg : Lasting g) (t : Tid) (n : Nat) (s : State) (d : CoreId) :
    ((chargeQuota t n s).core d).inv.map g = (s.core d).inv.map g := by
  rw [← rollPeriod_core t s d]
  unfold chargeQuota
  dsimp only
  generalize rollPeriod t s = u
  split
  · rfl
  · split
    · simp [State.core, markQuota_inv hg]
    · rfl

theorem addCycles_inv (hg : Lasting g) (c : CoreId) (n : Nat) (s : State) (d : CoreId) :
    ((addCycles c n s).core d).inv.map g = (s.core d).inv.map g := by
  unfold addCycles
  split
  · rfl
  next i h => rw [chargeQuota_inv hg, setCore_inv (by simp [h, hg.used])]

theorem chargePart_inv (hg : Lasting g) (c : CoreId) (n : Nat) (s : State) (d : CoreId) :
    ((chargePart c n s).core d).inv.map g = (s.core d).inv.map g := by
  unfold chargePart
  dsimp only
  rw [addCycles_inv hg, setCore_inv (by rfl)]

/-- A fetch that answers a word leaves the core's invocation but for its cycles. -/
theorem fetch_ok_inv (hg : Lasting g) {c : CoreId} {i : Instr} {v : Inv} {s s' : State} (h : fetch c i v s = .ok s') :
    (s'.core c).inv.map g = (s.core c).inv.map g := by
  unfold fetch at h
  dsimp only at h
  repeat' split at h
  all_goals cases h
  · rfl
  · simp only [fetchWait, chargePart_inv hg]
    exact congrArg (Option.map g ·.inv) (readSram_core _ s c)
  · rfl
  · rw [chargePart_inv hg]
    exact congrArg (Option.map g ·.inv) (flashRead_core _ _ _ c)

end

/-- After its fetch an instruction of a host packet is still one, and another is not. -/
theorem Begins.fetched_bind {c : CoreId} {i : Instr} {v : Inv} {s s' : State} (h : Begins c i v s s') :
    ∃ v', (s'.core c).inv = some v' ∧ v'.bind = v.bind := by
  obtain ⟨hi, -, -, -, -, -, -, hf⟩ := h
  have hb := fetch_ok_inv (g := Inv.bind) ⟨fun _ _ => rfl, fun _ => rfl⟩ hf
  simpa [hi] using hb

/-! ## Stores -/

section
variable {c : CoreId} {v : Inv} {s s' : State} {f : IForm} {a n : Nat} {i : Instr} {src : Regs → Words}

/-- The state that a store finds once an attempt's end of this clock has acted (section 4.10). -/
def storeFinds (v : Inv) (s : State) : State := if v.bind = none then ownFirst attemptEnds s else s

/-- A store that passes its checks and does not touch the doorbell. -/
theorem storeInstr_stores (h : Begins c i v s s') (ha : (effAddr (s'.regs c) f).toNat = a) (hal : a % 4 = 0)
    (hreg : ∀ b ∈ accessWords (effAddr (s'.regs c) f) n, regionOf b = .data) (hin : inData s' v.tenant a (4 * n) = true)
    (hfree : v.bind = none → hostStoreBusy (storeFinds v s') = false) :
    (.next (storeInstr c i f n true src s) : Out) =
      .next (retireUsing c v ((accessWords (effAddr (s'.regs c) f) n).flatMap sramBank) s stOk id (if n = 3 then 2 else 1)
        (if (accessWords (effAddr (s'.regs c) f) n).contains 0x201FFFFC then
          ringDoorbell ((storeFinds v s').store a (bytesOfWords (src (s'.regs c))))
        else (storeFinds v s').store a (bytesOfWords (src (s'.regs c))))) := by
  subst ha
  obtain ⟨v', hinv, hbind⟩ := h.fetched_bind
  refine congrArg Host.Outcome.next ?_
  rw [storeInstr, specInstr_passes _ h rfl ?o2 hin rfl rfl rfl]
  case o2 =>
    simp only [hal, BEq.rfl, Bool.true_and, List.all_eq_true]
    exact fun b hb => by rw [hreg b hb]; rfl
  simp only [hinv, hbind]
  cases hb : v.bind with
  | none =>
    have hbusy := hfree hb
    simp only [storeFinds, hb, if_true] at hbusy
    simp only [storeFinds, hb, Option.isNone_none, if_true, hbusy, Bool.and_false, Bool.false_eq_true, if_false]
    rfl
  | some k =>
    simp only [storeFinds, hb, Option.isNone_some, Bool.false_eq_true, if_false, Bool.false_and, reduceCtorEq]
    rfl


/-- A store of a host packet while an attempt uses the packet buffer (R151). -/
theorem storeInstr_busy (h : Begins c i v s s') (ha : (effAddr (s'.regs c) f).toNat = a) (hal : a % 4 = 0)
    (hreg : ∀ b ∈ accessWords (effAddr (s'.regs c) f) n, regionOf b = .data) (hin : inData s' v.tenant a (4 * n) = true)
    (hhost : v.bind = none) (hbusy : hostStoreBusy (storeFinds v s') = true) :
    (.next (storeInstr c i f n true src s) : Out) =
      .next (retire c v.tenant stBusy id (if n = 3 then 2 else 1) (storeFinds v s')) := by
  subst ha
  obtain ⟨v', hinv, hbind⟩ := h.fetched_bind
  refine congrArg Host.Outcome.next ?_
  rw [storeInstr, specInstr_passes _ h rfl ?o2 hin rfl rfl rfl]
  case o2 =>
    simp only [hal, BEq.rfl, Bool.true_and, List.all_eq_true]
    exact fun b hb => by rw [hreg b hb]; rfl
  simp only [storeFinds, hhost, if_true] at hbusy
  simp only [hinv, hbind, hhost, storeFinds, Option.isNone_none, if_true, hbusy, Bool.and_self]
  exact retireUsing_nil ..

theorem memGet_store_other {s : State} {a b : Nat} {bs : List Byte} (h : b < a ∨ a + bs.length ≤ b) :
    memGet (s.store a bs).mem b = memGet s.mem b := by
  rw [store_mem]; exact memGet_memPuts_other _ _ _ _ h

theorem storeFinds_quiet (h : v.bind = none → Instr.loadCleanupEnd ∉ s.pending) : storeFinds v s = s := by
  unfold storeFinds
  split
  next hb =>
    refine ownFirst_quiet _ _ fun i hi => ?_
    unfold attemptEnds
    split
    · exact absurd hi (h hb)
    · rfl
  · rfl

/-- A status-writing instruction leaves a byte of memory that its body leaves. -/
theorem specInstr_memGet {sp : Spec} {b : Nat} (h : Begins c i v s s')
    (hb : memGet (sp.body c v.tenant (s'.regs c) s').s.mem b = memGet s'.mem b)
    (ha : ∀ w, ((sp.body c v.tenant (s'.regs c) s').after w).mem = w.mem) :
    memGet (specInstr c i sp s).mem b = memGet s'.mem b := by
  rw [specInstr, issue_begins h]
  dsimp only
  split
  · rw [fault_mem]
  split
  · rw [retire_mem]
  split
  · rw [retire_mem]
  split
  · rw [retire_mem]
  split
  · rw [stallOn_mem]
  split
  · rw [stallRead_mem]
  split
  · rw [ha, retire_mem]; exact hb
  · exact hb

/-- Whatever a store answers, the bytes outside its words are those that it found. -/
theorem storeInstr_leaves {o1 : Bool} {b : Nat} (h : Begins c i v s s') (ha : (effAddr (s'.regs c) f).toNat = a)
    (hlen : ∀ r, (bytesOfWords (src r)).length = 4 * n) (hquiet : v.bind = none → Instr.loadCleanupEnd ∉ s'.pending)
    (hout : ¬ (a ≤ b ∧ b < a + 4 * n)) : memGet (storeInstr c i f n o1 src s).mem b = memGet s'.mem b := by
  subst ha
  obtain ⟨v', hinv, hbind⟩ := h.fetched_bind
  have hfinds : (if v'.bind.isNone then ownFirst attemptEnds s' else s') = s' := by
    rw [hbind, ← storeFinds_quiet hquiet, storeFinds_quiet hquiet]
    cases hb : v.bind
    case none => simpa [storeFinds, hb] using storeFinds_quiet hquiet
    case some => rfl
  have hstore : memGet (s'.store (effAddr (s'.regs c) f).toNat (bytesOfWords (src (s'.regs c)))).mem b = memGet s'.mem b :=
    memGet_store_other (by rw [hlen]; omega)
  refine specInstr_memGet h ?_ ?_
  · simp only [hinv, hfinds]
    split
    · rfl
    · dsimp only [Ans.ok]
      split
      · rw [ringDoorbell_mem]; exact hstore
      · exact hstore
  · intro w
    simp only [hinv, hfinds]
    split <;> rfl

end

theorem flashRead_only (off fill : Nat) (s : State) :
    ∃ sl j, flashRead off fill s = { s with sleep := sl, journal := j } := by
  unfold flashRead flashTouch
  dsimp only
  repeat' split
  all_goals exact ⟨_, _, rfl⟩

theorem fetch_ok_only {c : CoreId} {i : Instr} {v : Inv} {s s' : State} (h : fetch c i v s = .ok s') :
    ∃ cs ts b n ic sl j, s' = { s with
      cores := cs, tenants := ts, bankUse := b, eccCnt := n, icache := ic, sleep := sl, journal := j } := by
  unfold fetch at h
  dsimp only at h
  repeat' split at h
  all_goals cases h
  · exact ⟨_, _, _, _, _, _, _, rfl⟩
  · obtain ⟨n, hn⟩ := readSram_only (s.regs c).pc.toNat s
    obtain ⟨cs, ts, b, hw⟩ := fetchWait_only c (readSram (s.regs c).pc.toNat s).s
    rw [hw, hn]; exact ⟨_, _, _, _, _, _, _, rfl⟩
  · exact ⟨_, _, _, _, _, _, _, rfl⟩
  · obtain ⟨sl, j, hr⟩ := flashRead_only ((s.regs c).pc.toNat - flashBase) (fillClks s.level.cur)
      (cacheTouch (s.regs c).pc.toNat s).2
    obtain ⟨cs, ts, hp⟩ := chargePart_only c (fillClks s.level.cur) (flashRead ((s.regs c).pc.toNat - flashBase)
      (fillClks s.level.cur) (cacheTouch (s.regs c).pc.toNat s).2)
    rw [hp, hr]; exact ⟨_, _, _, _, _, _, _, rfl⟩

theorem Begins.fetched_mem {c : CoreId} {i : Instr} {v : Inv} {s s' : State} (h : Begins c i v s s') :
    s'.mem = s.mem ∧ s'.pending = s.pending := by
  obtain ⟨-, -, -, -, -, -, -, hf⟩ := h
  obtain ⟨_, _, _, _, _, _, _, rfl⟩ := fetch_ok_only hf
  exact ⟨rfl, rfl⟩

section
variable {c : CoreId} {v : Inv} {s s' : State} {f : IForm} {a : Nat}

theorem bytesOfWords_one (w : Word) : bytesOfWords [w] = wordBytes w := List.append_nil _

theorem bytesOfWords_three (x y z : Word) : bytesOfWords [x, y, z] = wordBytes x ++ wordBytes y ++ wordBytes z := by
  simp [bytesOfWords]

theorem exec_stw (h : Begins c (.stw c f) v s s') (ha : (effAddr (s'.regs c) f).toNat = a) (hal : a % 4 = 0)
    (hreg : regionOf a = .data) (hin : inData s' v.tenant a 4 = true)
    (hfree : v.bind = none → hostStoreBusy (storeFinds v s') = false) :
    exec (.stw c f) s = .next (retireUsing c v (sramBank a) s stOk id 1
      (if a = 0x201FFFFC then ringDoorbell ((storeFinds v s').store a (wordBytes ((s'.regs c).rd f.rd)))
        else (storeFinds v s').store a (wordBytes ((s'.regs c).rd f.rd)))) := by
  refine (storeInstr_stores h ha hal (n := 1) (src := fun r => [r.rd f.rd]) ?_ hin hfree).trans ?_
  · rw [accessWords_one, ha]
    exact fun b hb => by rw [List.mem_singleton.mp hb, hreg]
  · simp only [accessWords_one, ha, bytesOfWords_one, List.flatMap_cons, List.flatMap_nil, List.append_nil,
      List.contains_cons, List.contains_nil, Bool.or_false, beq_iff_eq, eq_comm (a := 0x201FFFFC)]
    rfl

theorem exec_stv (h : Begins c (.stv c f) v s s') (hd : isVec f.rd = true) (ha : (effAddr (s'.regs c) f).toNat = a)
    (hal : a % 4 = 0) (hin : inData s' v.tenant a 12 = true) (hspan : spanIn 0x20100000 0x00100000 a 12 = true)
    (hfree : v.bind = none → hostStoreBusy (storeFinds v s') = false) (hbell : a ≠ 0x201FFFF4) :
    exec (.stv c f) s = .next (retireUsing c v (sramBank a ++ sramBank (a + 4) ++ sramBank (a + 8)) s stOk id 2
      ((storeFinds v s').store a (wordBytes ((s'.regs c).rv f.rd).x ++ wordBytes ((s'.regs c).rv f.rd).y ++
        wordBytes ((s'.regs c).rv f.rd).z))) := by
  obtain ⟨hlo, hhi⟩ := spanIn_iff.mp hspan
  have hwords : accessWords (effAddr (s'.regs c) f) 3 = [a, a + 4, a + 8] := by
    rw [← ha] at hspan ⊢; exact accessWords_span hspan (by decide)
  have hbells : ([a, a + 4, a + 8].contains 0x201FFFFC) = false := by
    rw [List.contains_eq_mem, decide_eq_false_iff_not]
    simp only [List.mem_cons, List.not_mem_nil, or_false]
    omega
  refine Eq.trans (congrArg (fun b => Host.Outcome.next (storeInstr c (.stv c f) f 3 b
    (fun r => [(r.rv f.rd).x, (r.rv f.rd).y, (r.rv f.rd).z]) s)) hd) ?_
  refine (storeInstr_stores h ha hal ?_ hin hfree).trans ?_
  · rw [hwords]
    intro b hb
    have hb : a ≤ b ∧ b ≤ a + 8 := by
      simp only [List.mem_cons, List.not_mem_nil, or_false] at hb; omega
    exact regionOf_data (by omega) (by omega)
  · simp only [hwords, hbells, bytesOfWords_three, List.flatMap_cons, List.flatMap_nil, List.append_nil, List.append_assoc]
    rfl

end

/-- Settles O6: what a store writes by `exec_stw` and `exec_stv`, what it leaves by `storeInstr_leaves`. -/
theorem storesWriteTheirBytes : Obligations.StoresWriteTheirBytes := by
  unfold Obligations.StoresWriteTheirBytes
  refine ⟨?_, ?_⟩
  · intro c v s s' f ea a t x w u free
    refine ⟨fun h hal hreg hin hfree hbell => ?_, fun h hd hal hin hspan hfree hbell => ?_,
      fun h ha hin hfree => ?_, fun h hal hreg hin hhost hbusy => ?_⟩
    · rw [exec_stw (a := a) h rfl hal hreg hin hfree, if_neg hbell]; rfl
    · exact exec_stv (a := a) h hd rfl hal hin hspan hfree hbell
    · have hal : a % 4 = 0 := by rw [ha]
      have hreg : regionOf a = .data := by rw [ha]; decide
      rw [exec_stw (a := a) h rfl hal hreg hin hfree, if_pos ha]; rfl
    · refine storeInstr_busy (n := 1) h rfl hal ?_ hin hhost hbusy
      rw [accessWords_one]
      exact fun b hb => by rw [List.mem_singleton.mp hb]; exact hreg
  · intro c v s s' t f b a quiet
    have hmem {i : Instr} (h : Begins c i v s s') (hq : quiet) : v.bind = none → Instr.loadCleanupEnd ∉ s'.pending := by
      rw [h.fetched_mem.2]; exact hq
    refine ⟨fun h hq hx hout => ?_, fun h hq hx hout => ?_⟩
    · cases hx
      exact (storeInstr_leaves h rfl (fun _ => rfl) (hmem h hq) hout).trans (by rw [h.fetched_mem.1])
    · cases hx
      exact (storeInstr_leaves h rfl (fun _ => rfl) (hmem h hq) hout).trans (by rw [h.fetched_mem.1])

/-! ## Refused accesses (R27, R69, R70) -/

section
variable {c : CoreId} {v : Inv} {s s' : State} {f : IForm} {i : Instr} {n : Nat}

theorem loadInstr_range {upd : Words → Regs → Regs} (h : Begins c i v s s')
    (hbad : ((effAddr (s'.regs c) f).toNat % 4 == 0 && (accessWords (effAddr (s'.regs c) f) n).all loadable) = false) :
    (.next (loadInstr c i f n true upd s) : Out) = .next (retire c v.tenant stRange id (if n = 3 then 2 else 1) s') :=
  congrArg Host.Outcome.next (specInstr_range _ h rfl hbad)

theorem loadInstr_cap {upd : Words → Regs → Regs} (h : Begins c i v s s')
    (hok : ((effAddr (s'.regs c) f).toNat % 4 == 0 && (accessWords (effAddr (s'.regs c) f) n).all loadable) = true)
    (hbad : (accessWords (effAddr (s'.regs c) f) n).all (loadMay s' v.tenant) = false) :
    (.next (loadInstr c i f n true upd s) : Out) = .next (retire c v.tenant stCap id (if n = 3 then 2 else 1) s') :=
  congrArg Host.Outcome.next (specInstr_cap _ h rfl hok hbad)

theorem storeInstr_range {src : Regs → Words} (h : Begins c i v s s')
    (hbad : ((effAddr (s'.regs c) f).toNat % 4 == 0 &&
      (accessWords (effAddr (s'.regs c) f) n).all (fun a => regionOf a == .data)) = false) :
    (.next (storeInstr c i f n true src s) : Out) = .next (retire c v.tenant stRange id (if n = 3 then 2 else 1) s') :=
  congrArg Host.Outcome.next (specInstr_range _ h rfl hbad)

theorem storeInstr_cap {src : Regs → Words} (h : Begins c i v s s')
    (hok : ((effAddr (s'.regs c) f).toNat % 4 == 0 &&
      (accessWords (effAddr (s'.regs c) f) n).all (fun a => regionOf a == .data)) = true)
    (hbad : inData s' v.tenant (effAddr (s'.regs c) f).toNat (4 * n) = false) :
    (.next (storeInstr c i f n true src s) : Out) = .next (retire c v.tenant stCap id (if n = 3 then 2 else 1) s') :=
  congrArg Host.Outcome.next (specInstr_cap _ h rfl hok hbad)

end

theorem not_loadable {a : Nat} (h : regionOf a = .rom ∨ regionOf a = .none ∨ (regionOf a = .window ∧ winAt a = none)) :
    loadable a = false := by
  rcases h with e | e | ⟨e, hw⟩
  · simp only [loadable, e]
  · simp only [loadable, e]
  · unfold loadable
    rw [e, hw]
    rfl

/-- A check of orders 2 that the first or a later word of an access fails. -/
theorem alignedAll_false {a : Nat} {l : List Nat} {p : Nat → Bool} (h : a % 4 ≠ 0 ∨ ∃ b ∈ l, p b = false) :
    (a % 4 == 0 && l.all p) = false := by
  rcases h with h | ⟨b, hb, hp⟩
  · rw [beq_eq_false_iff_ne.mpr h, Bool.false_and]
  · rw [List.all_eq_false.mpr ⟨b, hb, by rw [hp]; decide⟩, Bool.and_false]

section
variable {c : CoreId} {v : Inv} {s s' : State} {f : IForm} {a : Nat}

theorem exec_ldw_range (h : Begins c (.ldw c f) v s s') (ha : (effAddr (s'.regs c) f).toNat = a)
    (hbad : a % 4 ≠ 0 ∨ loadable a = false) : exec (.ldw c f) s = .next (retire c v.tenant stRange id 1 s') := by
  subst ha
  refine loadInstr_range (n := 1) h (alignedAll_false (hbad.imp_right fun hb => ⟨_, ?_, hb⟩))
  rw [accessWords_one]; exact List.mem_singleton_self _

theorem exec_ldw_cap (h : Begins c (.ldw c f) v s s') (ha : (effAddr (s'.regs c) f).toNat = a) (hal : a % 4 = 0)
    (hload : loadable a = true) (hbad : loadMay s' v.tenant a = false) :
    exec (.ldw c f) s = .next (retire c v.tenant stCap id 1 s') := by
  subst ha
  exact loadInstr_cap (n := 1) h (by simp [hal, hload]) (by simp [hbad])

theorem exec_stw_range (h : Begins c (.stw c f) v s s') (ha : (effAddr (s'.regs c) f).toNat = a)
    (hbad : a % 4 ≠ 0 ∨ regionOf a ≠ .data) : exec (.stw c f) s = .next (retire c v.tenant stRange id 1 s') := by
  subst ha
  refine storeInstr_range (n := 1) h (alignedAll_false (hbad.imp_right fun hb => ⟨_, ?_, beq_eq_false_iff_ne.mpr hb⟩))
  rw [accessWords_one]; exact List.mem_singleton_self _

theorem exec_stw_cap (h : Begins c (.stw c f) v s s') (ha : (effAddr (s'.regs c) f).toNat = a) (hal : a % 4 = 0)
    (hreg : regionOf a = .data) (hbad : inData s' v.tenant a 4 = false) :
    exec (.stw c f) s = .next (retire c v.tenant stCap id 1 s') := by
  subst ha
  exact storeInstr_cap (n := 1) h (by simp [hal, hreg]) hbad

theorem exec_ldv_range (h : Begins c (.ldv c f) v s s') (hd : isVec f.rd = true)
    (hbad : (effAddr (s'.regs c) f).toNat % 4 ≠ 0 ∨ ∃ b ∈ accessWords (effAddr (s'.regs c) f) 3, loadable b = false) :
    exec (.ldv c f) s = .next (retire c v.tenant stRange id 2 s') := by
  change execLdv c f s = _
  rw [execLdv, hd]
  exact loadInstr_range (n := 3) h (alignedAll_false hbad)

theorem exec_stv_range (h : Begins c (.stv c f) v s s') (hd : isVec f.rd = true)
    (hbad : (effAddr (s'.regs c) f).toNat % 4 ≠ 0 ∨
      ∃ b ∈ accessWords (effAddr (s'.regs c) f) 3, regionOf b ≠ .data) :
    exec (.stv c f) s = .next (retire c v.tenant stRange id 2 s') := by
  change execStv c f s = _
  rw [execStv, hd]
  exact storeInstr_range (n := 3) h
    (alignedAll_false (hbad.imp_right fun ⟨b, hb, hr⟩ => ⟨b, hb, beq_eq_false_iff_ne.mpr hr⟩))

theorem exec_stv_cap (h : Begins c (.stv c f) v s s') (hd : isVec f.rd = true)
    (ha : (effAddr (s'.regs c) f).toNat = a) (hal : a % 4 = 0) (hspan : spanIn 0x20100000 0x00100000 a 12 = true)
    (hbad : inData s' v.tenant a 12 = false) : exec (.stv c f) s = .next (retire c v.tenant stCap id 2 s') := by
  subst ha
  obtain ⟨hlo, hhi⟩ := spanIn_iff.mp hspan
  change execStv c f s = _
  rw [execStv, hd]
  refine storeInstr_cap (n := 3) h ?_ hbad
  rw [accessWords_span hspan (by decide), hal]
  simp only [List.all_cons, List.all_nil, regionOf_data hlo (by omega), regionOf_data (Nat.le_add_right_of_le hlo)
    (show (effAddr (s'.regs c) f).toNat + 4 < _ by omega), regionOf_data (Nat.le_add_right_of_le hlo)
    (show (effAddr (s'.regs c) f).toNat + 8 < _ by omega), BEq.rfl, Bool.and_self]

end

/-- An ALU, VEC or FLOW word whose encoding is undefined raises FLT_OPCODE. -/
theorem plainInstr_faults {c : CoreId} {v : Inv} {s s' : State} {i : Instr} {ok : Bool} (h : Begins c i v s s')
    (hok : ok = false) (n : Nat) (f : Regs → Regs) :
    (.next (plainInstr c i ok n f s) : Out) = .next (fault c fltOpcode (s'.regs c).pc s') := by
  rw [hok, plainInstr_undefined h]

theorem flowInstr_faults {c : CoreId} {v : Inv} {s s' : State} {i : Instr} {ok : Bool} (h : Begins c i v s s')
    (hok : ok = false) (k : Inv → Regs → State → State) :
    (.next (flowInstr c i ok k s) : Out) = .next (fault c fltOpcode (s'.regs c).pc s') := by
  rw [hok, flowInstr, issue_begins h]; rfl

/-- Settles O7: orders 2 and 3 by the access's own checks, the undefined words by `fault`. -/
theorem refusalsAndUndefinedWords : Obligations.RefusalsAndUndefinedWords := by
  unfold Obligations.RefusalsAndUndefinedWords
  refine ⟨?_, ?_⟩
  · intro c v s s' f ea a t refused reg
    have hwords : ∀ b, b = a ∨ b = (ea + 4).toNat ∨ b = (ea + 8).toNat → b ∈ accessWords (effAddr (s'.regs c) f) 3 := by
      rw [accessWords_three]
      rintro b (rfl | rfl | rfl)
      · exact List.mem_cons_self ..
      · exact List.mem_cons_of_mem _ (List.mem_cons_self ..)
      · exact List.mem_cons_of_mem _ (List.mem_cons_of_mem _ (List.mem_cons_self ..))
    refine ⟨fun h hbad => exec_ldw_range (a := a) h rfl (hbad.imp_right not_loadable),
      fun h hbad => exec_stw_range (a := a) h rfl hbad, fun h hal hbad => ?_,
      fun h hal hreg hbad => exec_stw_cap (a := a) h rfl hal hreg hbad,
      fun h hd hbad => exec_ldv_range h hd (hbad.imp_right fun hb => ?_),
      fun h hd hbad => exec_stv_range h hd (hbad.imp_right fun hb => ?_),
      fun h hd hal hspan hbad => exec_stv_cap (a := a) h hd rfl hal hspan hbad⟩
    · rcases hbad with ⟨hr, hin⟩ | ⟨hr, hin⟩
      · exact exec_ldw_cap (a := a) h rfl hal (loadable_of_code hr) ((loadMay_code hr).trans hin)
      · exact exec_ldw_cap (a := a) h rfl hal (loadable_of_data hr) ((loadMay_data hr).trans hin)
    · rcases hb with hr | hr | hr | hr
      · exact ⟨a, hwords _ (.inl rfl), not_loadable (.inl hr)⟩
      · exact ⟨a, hwords _ (.inl rfl), not_loadable (.inr (.inl hr))⟩
      · exact ⟨_, hwords _ (.inr (.inr rfl)), not_loadable (.inr (.inl hr))⟩
      · exact ⟨_, hwords _ (.inr (.inr rfl)), not_loadable (.inl hr)⟩
    · rcases hb with hr | hr | hr
      · exact ⟨a, hwords _ (.inl rfl), hr⟩
      · exact ⟨_, hwords _ (.inr (.inl rfl)), hr⟩
      · exact ⟨_, hwords _ (.inr (.inr rfl)), hr⟩
  · intro c v s s' w f g b flt
    exact ⟨fun h hw => exec_undefinedInstruction h hw, fun h hbad => plainInstr_faults h hbad _ _,
      fun h hbad => plainInstr_faults h hbad _ _, fun h hbad => plainInstr_faults h (beq_eq_false_iff_ne.mpr hbad) _ _,
      fun h hbad => plainInstr_faults h (by
        simp only [unusedZero, List.all_cons, beq_eq_false_iff_ne.mpr hbad, Bool.false_and, Bool.and_false]) _ _,
      fun h hbad => plainInstr_faults h (by simp [isVec, Nat.not_lt.mpr hbad]) _ _,
      fun h hbad => plainInstr_faults h (by simp [hbad]) _ _, fun h hbad => flowInstr_faults h (beq_eq_false_iff_ne.mpr hbad) _,
      fun h hbad => flowInstr_faults h (by rw [beq_eq_false_iff_ne.mpr hbad, Bool.false_and]) _⟩

end Sys2Proof.Machine
end

section
/-!
PROOFS. The block as a whole (spec/00_scope.md section 0.7, spec/01_programmers_model.md section 1.8): the state at reset,
one step, and the frame of the instructions that name no unit.
-/
namespace Sys2Proof.Machine

/-! ## The state at reset -/

theorem reset_core (c : CoreId) : State.reset.core c = Core.idle := vget_replicate ..
theorem reset_tenant (t : Tid) : State.reset.tenant t = Tenant.vacant := vget_replicate ..

/-- A field that every entry of a fresh array has. -/
theorem vget_replicate_field {α β : Type} {n : Nat} {x : α} {y : β} (g : α → β) (h : g x = y) (i : Fin n) :
    g (vget (Vector.replicate n x) i) = y := by rw [vget_replicate]; exact h

theorem reset_core_idle (c : CoreId) :
    (State.reset.core c).inv = none ∧ (∀ i, vget (State.reset.regs c).w i = 0) ∧ (State.reset.regs c).acc = 0 ∧
      (State.reset.regs c).stack = [] ∧ (State.reset.regs c).fl = Flags.zero := by
  rw [State.regs, reset_core]
  exact ⟨rfl, fun i => vget_replicate .., rfl, rfl, rfl⟩

theorem reset_tenant_vacant (t : Tid) :
    (State.reset.tenant t).state = .vacant ∧ (State.reset.tenant t).nfault = 0 ∧ (State.reset.tenant t).qused = 0 ∧
      ∀ i, vget (State.reset.tenant t).record i = 0 := by
  rw [reset_tenant]
  exact ⟨rfl, rfl, rfl, fun i => vget_replicate ..⟩

/-- Settles O57: each field of the reset state is read off, those of an array as its entries' common value. -/
theorem resetState : Obligations.ResetState := by
  unfold Obligations.ResetState
  exact ⟨rfl, rfl, rfl, rfl, rfl, rfl, rfl, rfl, rfl, rfl, rfl, rfl, rfl, rfl, rfl, rfl, rfl, rfl, rfl, rfl, rfl, rfl, rfl,
    rfl, vget_replicate true, reset_core_idle, vget_replicate none, vget_replicate none, reset_tenant_vacant,
    vget_replicate_field Timer.kind rfl, rfl, rfl, rfl, vget_replicate_field Sensor.st rfl, vget_replicate_field Aout.st rfl,
    vget_replicate_field Lane.st rfl, vget_replicate_field Recog.st rfl, vget_replicate_field Ring.st rfl,
    vget_replicate_field Queue.st rfl, vget_replicate_field Port.st rfl, vget_replicate_field Engine.st rfl,
    rfl, rfl, rfl, rfl, rfl, rfl, rfl, rfl, rfl⟩

end Sys2Proof.Machine
end

section
/-!
PROOFS. The frame of the instructions that name no unit (O60): the relation `PlainKeeps` between a state and the one that
such an instruction leaves, for each operation of the core and then for each instruction.
-/
namespace Sys2Proof.Machine

/-! ## Other cores -/

section
variable {α : Type} {g : Core → α} {c d : CoreId} {n : Nat} {s : State}

/-- Charging leaves of another core all but its invocation. -/
theorem chargePart_other (hg : ∀ k i, g { k with inv := i } = g k) (hd : d ≠ c) :
    g ((chargePart c n s).core d) = g (s.core d) := by
  have hmark (t : Tid) (k : Core) : g (markQuota t k) = g k := by
    unfold markQuota
    split
    · split
      · exact hg _ _
      · rfl
    · rfl
  have hquota (t : Tid) (u : State) : g ((chargeQuota t (n - (s.core c).paid) u).core d) = g (u.core d) := by
    rw [← rollPeriod_core t u d]
    unfold chargeQuota
    dsimp only
    generalize rollPeriod t u = w
    split
    · rfl
    · split
      · simp [State.core, hmark]
      · rfl
  unfold chargePart addCycles
  dsimp only
  split
  · rw [core_setCore_other _ _ (Ne.symm hd)]
  · rw [hquota, core_setCore_other _ _ (Ne.symm hd), core_setCore_other _ _ (Ne.symm hd)]

end

/-! ## The frame -/

/-- What an instruction of core `c` that names no unit leaves of a state. -/
structure PlainKeeps (c : CoreId) (s u : State) : Prop where
  others : ∀ d, d ≠ c → u.regs d = s.regs d ∧ (u.core d).stall = (s.core d).stall ∧ (u.core d).paused = (s.core d).paused
  rest : ∃ cs ts bs h b n ic p j fr, u = { s with
    cores := cs, tenants := ts, bindings := bs, host := h, bankUse := b, eccCnt := n, icache := ic, sleep := p, journal := j
    free := fr }
  journal : u.journal.sealed = s.journal.sealed ∧ u.journal.st = s.journal.st ∧ u.journal.gather = s.journal.gather
  sleep : u.sleep.holds = s.sleep.holds ∧ u.sleep.entry = s.sleep.entry ∧ u.sleep.armed = s.sleep.armed ∧
    u.sleep.wake = s.sleep.wake ∧ u.sleep.refuse = s.sleep.refuse

namespace PlainKeeps

variable {c : CoreId} {s t u : State}

theorem refl : PlainKeeps c s s :=
  ⟨fun _ _ => ⟨rfl, rfl, rfl⟩, ⟨_, _, _, _, _, _, _, _, _, _, rfl⟩, ⟨rfl, rfl, rfl⟩, ⟨rfl, rfl, rfl, rfl, rfl⟩⟩

theorem trans (h : PlainKeeps c s t) (h' : PlainKeeps c t u) : PlainKeeps c s u := by
  obtain ⟨ho, ⟨_, _, _, _, _, _, _, _, _, _, rfl⟩, hj, hp⟩ := h
  obtain ⟨ho', ⟨_, _, _, _, _, _, _, _, _, _, rfl⟩, hj', hp'⟩ := h'
  refine ⟨fun d hd => ?_, ⟨_, _, _, _, _, _, _, _, _, _, rfl⟩, ?_, ?_⟩
  · obtain ⟨hr, hst, hpa⟩ := ho d hd
    obtain ⟨hr', hst', hpa'⟩ := ho' d hd
    exact ⟨hr'.trans hr, hst'.trans hst, hpa'.trans hpa⟩
  · obtain ⟨h1, h2, h3⟩ := hj
    obtain ⟨h1', h2', h3'⟩ := hj'
    exact ⟨h1'.trans h1, h2'.trans h2, h3'.trans h3⟩
  · obtain ⟨h1, h2, h3, h4, h5⟩ := hp
    obtain ⟨h1', h2', h3', h4', h5'⟩ := hp'
    exact ⟨h1'.trans h1, h2'.trans h2, h3'.trans h3, h4'.trans h4, h5'.trans h5⟩

theorem setCore (k : Core) : PlainKeeps c s (s.setCore c k) := by
  refine ⟨fun d hd => ?_, ⟨_, _, _, _, _, _, _, _, _, _, rfl⟩, ⟨rfl, rfl, rfl⟩, ⟨rfl, rfl, rfl, rfl, rfl⟩⟩
  rw [State.regs, core_setCore_other _ _ (Ne.symm hd)]
  exact ⟨rfl, rfl, rfl⟩

theorem chargePart (n : Nat) : PlainKeeps c s (chargePart c n s) := by
  obtain ⟨cs, ts, h⟩ := chargePart_only c n s
  refine ⟨fun d hd => ⟨?_, ?_, ?_⟩, ⟨_, _, _, _, _, _, _, _, _, _, h⟩, by rw [h]; exact ⟨rfl, rfl, rfl⟩,
    by rw [h]; exact ⟨rfl, rfl, rfl, rfl, rfl⟩⟩
  · exact chargePart_other (g := Core.regs) (fun _ _ => rfl) hd
  · exact chargePart_other (g := Core.stall) (fun _ _ => rfl) hd
  · exact chargePart_other (g := Core.paused) (fun _ _ => rfl) hd

theorem charge (n : Nat) : PlainKeeps c s (charge c n s) := (chargePart n).trans (setCore _)

theorem fault (code : Nat) (a : Word) : PlainKeeps c s (fault c code a s) := by
  have ho := fun d (hd : d ≠ c) => fault_other (s := s) code a (Ne.symm hd)
  obtain ⟨cs, ts, bs, h, e⟩ := fault_only c code a s
  refine ⟨fun d hd => ?_, ⟨_, _, _, _, _, _, _, _, _, _, e⟩, by rw [e]; exact ⟨rfl, rfl, rfl⟩,
    by rw [e]; exact ⟨rfl, rfl, rfl, rfl, rfl⟩⟩
  rw [State.regs, ho d hd]
  exact ⟨rfl, rfl, rfl⟩

/-- A state whose cores are the same. -/
theorem of_cores {ts bs h b n ic p j fr} (hj : j.sealed = s.journal.sealed ∧ j.st = s.journal.st ∧ j.gather = s.journal.gather)
    (hp : p.holds = s.sleep.holds ∧ p.entry = s.sleep.entry ∧ p.armed = s.sleep.armed ∧ p.wake = s.sleep.wake ∧
      p.refuse = s.sleep.refuse) :
    PlainKeeps c s { s with
      tenants := ts, bindings := bs, host := h, bankUse := b, eccCnt := n, icache := ic, sleep := p, journal := j, free := fr } :=
  ⟨fun _ _ => ⟨rfl, rfl, rfl⟩, ⟨_, _, _, _, _, _, _, _, _, _, rfl⟩, hj, hp⟩

theorem modTenant (t : Tid) (f : Tenant → Tenant) : PlainKeeps c s (s.modTenant t f) :=
  of_cores ⟨rfl, rfl, rfl⟩ ⟨rfl, rfl, rfl, rfl, rfl⟩

theorem retire (t : Tid) (st : BitVec 8) (f : Regs → Regs) (n : Nat) : PlainKeeps c s (retire c t st f n s) := by
  have hcount : PlainKeeps c s (countRefusal t st s) := by
    unfold countRefusal
    split
    · exact modTenant _ _
    split
    · exact modTenant _ _
    · exact refl
  exact ((hcount.trans (setCore _)).trans (setCore _)).trans (charge _)

theorem readSram (a : Nat) : PlainKeeps c s (readSram a s).s := by
  obtain ⟨n, h⟩ := readSram_only a s
  rw [h]
  exact of_cores ⟨rfl, rfl, rfl⟩ ⟨rfl, rfl, rfl, rfl, rfl⟩

theorem flashRead (off fill : Nat) : PlainKeeps c s (flashRead off fill s) := by
  unfold Machine.flashRead flashTouch
  dsimp only
  repeat' split
  all_goals exact of_cores ⟨rfl, rfl, rfl⟩ ⟨rfl, rfl, rfl, rfl, rfl⟩

theorem fetchWait : PlainKeeps c s (fetchWait c s) :=
  (of_cores (b := s.bankUse ++ (fetchBanks c s).map (fun b => (c, b))) ⟨rfl, rfl, rfl⟩ ⟨rfl, rfl, rfl, rfl, rfl⟩).trans
    (chargePart _)

/-- An instruction that is no SENSE.SET waits for no sensor to warm up. -/
theorem stallOn {i : Instr} (hi : ∀ f w, warmSensor i f w = w) (b : Bool) (f : Func) : PlainKeeps c s (stallOn c i b f s) := by
  have hwake : PlainKeeps c s (wakeDomain f s) := by
    unfold wakeDomain
    dsimp only
    repeat' split
    all_goals exact of_cores ⟨rfl, rfl, rfl⟩ ⟨rfl, rfl, rfl, rfl, rfl⟩
  unfold Machine.stallOn
  dsimp only
  split
  · rw [hi]; exact hwake.trans (setCore _)
  · exact setCore _

theorem stallRead (i : Instr) (b : Bool) (off n : Nat) : PlainKeeps c s (stallRead c i b off n s) := setCore _

theorem boundary : PlainKeeps c s (boundary c s) := by
  unfold Machine.boundary
  split
  · exact refl
  split
  · exact setCore _
  split
  · exact fault _ _
  · exact refl

theorem goTo (v : Inv) (a : Word) : PlainKeeps c s (goTo c v a s) := by
  unfold Machine.goTo
  dsimp only
  split
  · exact setCore _
  split
  · exact (setCore _).trans (fault _ _)
  · exact setCore _

theorem taken (v : Inv) (a : Word) : PlainKeeps c s (taken c v a s) := (charge _).trans (goTo _ _)

theorem fetch_ok {i : Instr} {v : Inv} (h : fetch c i v s = .ok u) : PlainKeeps c s u := by
  unfold fetch at h
  dsimp only at h
  repeat' split at h
  all_goals cases h
  · exact refl
  · exact (readSram _).trans fetchWait
  · exact of_cores ⟨rfl, rfl, rfl⟩ ⟨rfl, rfl, rfl, rfl, rfl⟩
  · exact ((of_cores ⟨rfl, rfl, rfl⟩ ⟨rfl, rfl, rfl, rfl, rfl⟩ : PlainKeeps c s (cacheTouch _ s).2).trans
      (flashRead _ _)).trans (chargePart _)

theorem fetch_done {i : Instr} {v : Inv} (hi : ∀ f w, warmSensor i f w = w) (h : fetch c i v s = .done u) :
    PlainKeeps c s u := by
  unfold fetch at h
  dsimp only at h
  repeat' split at h
  all_goals cases h
  · exact fault _ _
  · exact (readSram _).trans (fault _ _)
  · exact fault _ _
  · exact stallOn hi _ _
  · exact stallRead _ _ _ _

theorem issue {i : Instr} {k : Inv → State → State} (hi : ∀ f w, warmSensor i f w = w)
    (hk : ∀ v w, PlainKeeps c w (k v w)) : PlainKeeps c s (issue c i s k) := by
  unfold Machine.issue
  split
  · exact refl
  split
  · exact refl
  split
  · exact hk _ _
  split
  · exact boundary
  split
  next w hw => exact fetch_done hi hw
  next w hw => exact (fetch_ok hw).trans (hk _ _)

theorem plainInstr {i : Instr} {ok : Bool} {n : Nat} {f : Regs → Regs} (hi : ∀ f w, warmSensor i f w = w) :
    PlainKeeps c s (plainInstr c i ok n f s) := by
  refine issue hi fun v w => ?_
  dsimp only
  split
  · exact (setCore _).trans (charge _)
  · exact fault _ _

theorem flowInstr {i : Instr} {ok : Bool} {k : Inv → Regs → State → State} (hi : ∀ f w, warmSensor i f w = w)
    (hk : ∀ v r w, PlainKeeps c w (k v r w)) : PlainKeeps c s (flowInstr c i ok k s) := by
  refine issue hi fun v w => ?_
  split
  · exact hk _ _ _
  · exact fault _ _

/-- An instruction that writes a status and changes only registers. -/
theorem specInstr {i : Instr} {sp : Spec} (hi : ∀ f w, warmSensor i f w = w)
    (hs : ∀ t r w, (sp.body c t r w).s = w ∧ ∀ x, (sp.body c t r w).after x = x) : PlainKeeps c s (specInstr c i sp s) := by
  refine issue hi fun v w => ?_
  obtain ⟨hbody, hafter⟩ := hs v.tenant (w.regs c) w
  dsimp only
  split
  · exact fault _ _
  split
  · exact retire _ _ _ _
  split
  · exact retire _ _ _ _
  split
  · exact retire _ _ _ _
  split
  · exact stallOn hi _ _
  split
  · exact stallRead _ _ _ _
  rw [hbody]
  split
  · rw [hafter]
    exact (of_cores ⟨rfl, rfl, rfl⟩ ⟨rfl, rfl, rfl, rfl, rfl⟩ : PlainKeeps c w (useBanks c _ w)).trans (retire _ _ _ _)
  · exact refl

theorem branchIf (v : Inv) (b : Bool) (a : Word) : PlainKeeps c s (branchIf c v b a s) := by
  cases b
  case true => exact taken v a
  case false => exact (setCore _).trans (charge _)

theorem callTo (v : Inv) (a : Word) : PlainKeeps c s (callTo c v a s) := by
  unfold Machine.callTo
  dsimp only
  split
  · exact fault _ _
  · exact (setCore _).trans (taken _ _)

theorem notTaken : PlainKeeps c s (notTaken c s) := (setCore _).trans (charge _)

end PlainKeeps

/-! ## Every instruction that names no unit -/

/-- The instructions of the ALU, VEC and FLOW, TIME, TIME.H, FLAGS and an undefined word keep the frame. -/
theorem exec_plainKeeps {c : CoreId} {f : AluForm} {g : RForm} {l : LForm} {b : BForm} {w : Word} {i : Instr} {s u : State}
    (hi : i ∈ [.add c f, .sub c f, .and c f, .or c f, .xor c f, .shl c f, .shr c f, .sha c f, .slt c f, .sltu c f, .mul c g,
      .mulh c g, .mulq c g, .macq c g, .sat c g, .movl c l, .movh c l, .movs c l, .vadd c g, .vsub c g, .vmul c g, .vdot c g,
      .vcross c g, .vnorm c g, .vins c g, .vext c g, .bra c b, .bz c b, .bnz c b, .call c b, .bzSt c b, .bnzSt c b,
      .braReg c g, .callReg c g, .ret c g, .nop c g, .time c g, .timeH c g, .flags c g, Instr.undefinedInstruction c w])
    (hx : exec i s = .next u) : PlainKeeps c s u := by
  simp only [List.mem_cons, List.not_mem_nil, or_false] at hi
  rcases hi with rfl | rfl | rfl | rfl | rfl | rfl | rfl | rfl | rfl | rfl | rfl | rfl | rfl | rfl | rfl | rfl | rfl | rfl |
    rfl | rfl | rfl | rfl | rfl | rfl | rfl | rfl | rfl | rfl | rfl | rfl | rfl | rfl | rfl | rfl | rfl | rfl | rfl | rfl |
    rfl | rfl
  all_goals cases hx
  -- ADD to VCROSS
  iterate 23 exact .plainInstr fun _ _ => rfl
  · exact (PlainKeeps.of_cores (fr := s.free + 3) ⟨rfl, rfl, rfl⟩ ⟨rfl, rfl, rfl, rfl, rfl⟩).trans (.plainInstr fun _ _ => rfl)
  iterate 2 exact .plainInstr fun _ _ => rfl
  · exact .flowInstr (fun _ _ => rfl) fun _ _ _ => .taken _ _
  iterate 2 exact .flowInstr (fun _ _ => rfl) fun _ _ _ => .branchIf _ _ _
  · exact .flowInstr (fun _ _ => rfl) fun _ _ _ => .callTo _ _
  iterate 2 exact .flowInstr (fun _ _ => rfl) fun _ _ _ => .branchIf _ _ _
  · exact .flowInstr (fun _ _ => rfl) fun _ _ _ => .taken _ _
  · exact .flowInstr (fun _ _ => rfl) fun _ _ _ => .callTo _ _
  · refine .flowInstr (fun _ _ => rfl) fun v r w => ?_
    split
    · exact .fault _ _
    · exact (PlainKeeps.setCore _).trans (.taken _ _)
  · exact .flowInstr (fun _ _ => rfl) fun _ _ _ => .notTaken
  iterate 3 exact .specInstr (fun _ _ => rfl) fun _ _ _ => ⟨rfl, fun _ => rfl⟩
  · split
    · exact .refl
    · exact .issue (fun _ _ => rfl) fun _ _ => .fault _ _

/-- Settles O60: what `PlainKeeps` says, field by field. -/
theorem plainFrame : Obligations.PlainFrame := by
  unfold Obligations.PlainFrame
  intro c f g l b w i s u hi hx
  obtain ⟨hothers, ⟨_, _, _, _, _, _, _, _, _, _, rfl⟩, hjournal, hsleep⟩ := exec_plainKeeps hi hx
  obtain ⟨hsealed, hst, hgather⟩ := hjournal
  exact ⟨hothers, rfl, rfl, rfl, rfl, rfl, rfl, rfl, rfl, rfl, rfl, rfl, rfl, rfl, rfl, rfl, rfl, rfl, rfl, rfl, rfl, rfl,
    rfl, hsealed, hst, hgather, hsleep⟩

end Sys2Proof.Machine
end

section
/-!
PROOFS. The facts that every status-writing instruction uses (fields, parameter blocks, its answer), then EVENT and TIME
(spec/02_instruction_reference.md sections 2.7 and 2.8).
-/
namespace Sys2Proof.Machine

/-! ## Fields -/

/-- A field of a word is the number of its bits. -/
theorem fieldOf_eq (w : Word) (hi lo : Nat) : fieldOf w hi lo = (w.extractLsb' lo (hi + 1 - lo)).toNat := by
  rw [fieldOf, BitVec.extractLsb'_toNat, Nat.shiftRight_eq_div_pow]

theorem ofNat_fieldOf (w : Word) (hi lo : Nat) :
    BitVec.ofNat (hi + 1 - lo) (fieldOf w hi lo) = w.extractLsb' lo (hi + 1 - lo) := by
  rw [fieldOf_eq, BitVec.ofNat_toNat, BitVec.setWidth_eq]

theorem ofNat_field0 (w : Word) (n : Nat) : BitVec.ofNat (n + 1) (fieldOf w n 0) = w.truncate (n + 1) := by
  apply BitVec.eq_of_toNat_eq
  simp [fieldOf]

theorem field0_mod (w : Word) (n : Nat) : fieldOf w n 0 = w.toNat % 2 ^ (n + 1) := by simp [fieldOf]

theorem zeroBits_high {w : Word} {n : Nat} (hn : n ≤ 31) : zeroBits w 31 n = decide (w.toNat < 2 ^ n) := by
  have hw : w.toNat < 2 ^ n * 2 ^ (32 - n) := by rw [← pow_add, show n + (32 - n) = 32 by omega]; exact w.isLt
  have hfield : fieldOf w 31 n = w.toNat / 2 ^ n := Nat.mod_eq_of_lt (Nat.div_lt_of_lt_mul hw)
  rw [zeroBits, hfield, Bool.eq_iff_iff, beq_iff_eq, decide_eq_true_iff, Nat.div_eq_zero_iff]
  have : 0 < 2 ^ n := by positivity
  omega

/-! ## Parameter blocks (R60, R61) -/

theorem wordAt_wordsAt (s : State) (a : Nat) {i n : Nat} (hi : i < n) :
    wordAt (wordsAt s a n) i = wordSeen s (a + 4 * i) := by
  simp [wordAt, wordsAt, List.getD_eq_getElem?_getD, hi]

theorem blockBanks_succ (a n : Nat) : blockBanks a (n + 1) = sramBank (a + 4 * n) := by
  rw [blockBanks, if_neg (Nat.succ_ne_zero n), Nat.add_sub_cancel]

theorem withBlock_clean {s : State} {a n : Nat} (h : CleanAt s a n) (k : Words → State → Ans) :
    withBlock a n s k = { k (wordsAt s a n) s with banks := blockBanks a n ++ (k (wordsAt s a n) s).banks } := by
  rw [withBlock, readBlock_clean n a h]; rfl

/-- A clean parameter block whose words the body answers with an `Ans` that touches no bank of its own. -/
theorem withBlock_answers {s : State} {a n : Nat} (h : CleanAt s a n) {k : Words → State → Ans} {x : Ans}
    (hk : k (wordsAt s a n) s = x) (hx : x.banks = []) : withBlock a n s k = { x with banks := blockBanks a n } := by
  rw [withBlock_clean h, hk, hx, List.append_nil]

/-! ## What an instruction answers (orders 6 to 9) -/

section
variable {c : CoreId} {i : Instr} {v : Inv} {s s' u : State} {sp : Spec}

/-- A status-writing instruction that passes orders 1 to 5 and whose body retires. -/
theorem specInstr_answers (h : Begins c i v s s') (h1 : sp.o1 = true) (h2 : sp.o2 v.tenant (s'.regs c) s' = true)
    (h3 : sp.o3 v.tenant (s'.regs c) s' = true) (h4 : sp.failed v.tenant (s'.regs c) s' = false)
    (h5 : sp.waits v.tenant (s'.regs c) s' = none) (h6 : readWaits sp v.tenant (s'.regs c) s' = none) {a : Ans}
    (ha : sp.body c v.tenant (s'.regs c) s' = a) (hr : a.retires = true) :
    (.next (specInstr c i sp s) : Out) =
      .next (a.after (retireUsing c v a.banks s a.st a.upd (sp.cyc s' + a.extra) a.s)) :=
  congrArg Host.Outcome.next (specInstr_retires h h1 h2 h3 h4 h5 h6 a ha hr)

/-- A status-writing instruction that answers with no access to SRAM and nothing after its retirement. -/
theorem specInstr_gives (h : Begins c i v s s') (h1 : sp.o1 = true) (h2 : sp.o2 v.tenant (s'.regs c) s' = true)
    (h3 : sp.o3 v.tenant (s'.regs c) s' = true) (h4 : sp.failed v.tenant (s'.regs c) s' = false)
    (h5 : sp.waits v.tenant (s'.regs c) s' = none) (h6 : readWaits sp v.tenant (s'.regs c) s' = none) {st : BitVec 8}
    {upd : Regs → Regs} {n : Nat}
    (ha : sp.body c v.tenant (s'.regs c) s' = { st := st, s := u, upd := upd, extra := n }) :
    (.next (specInstr c i sp s) : Out) = .next (retire c v.tenant st upd (sp.cyc s' + n) u) :=
  (specInstr_answers h h1 h2 h3 h4 h5 h6 ha rfl).trans (congrArg Host.Outcome.next (retireUsing_nil ..))

end

/-! ## EVENT (Table 2.8) -/

section
variable {c : CoreId} {v : Inv} {s s' : State} {f : RForm}

theorem unusedZero_one {x : BitVec 4} (h : x = 0) : unusedZero [x] = true := by rw [h]; rfl

theorem unusedZero_two {x y : BitVec 4} (h : x = 0) (h' : y = 0) : unusedZero [x, y] = true := by rw [h, h']; rfl

theorem bindDecide_ok {t : Tid} {b : BindBlock} {k : Nat} (hr : b.rangeOk = true) (hc : b.capOk s t = true)
    (hf : freeBinding s = some k) : bindDecide s t b = .ok k := by
  simp [bindDecide, hr, hc, hf]

theorem bindingAt_small {w : Word} (h : w.toNat < 256) : bindingAt s w = vgetD s.bindings w.toNat none := by
  rw [bindingAt, Nat.mod_eq_of_lt h]

theorem zeroBits_31_8 {w : Word} (h : w.toNat < 256) : zeroBits w 31 8 = true := by
  rw [zeroBits_high (by decide)]; exact decide_eq_true h

/-- The binding that BIND installs, field by field (R75). -/
theorem installBinding_eq (k : Nat) (b0 b1 b2 : Word) (s : State) :
    installBinding k ⟨b0, b1, b2⟩ s = { s with
      bindings := vsetD s.bindings k (some
        { src := b0.truncate 8, tenant := (⟨b0, b1, b2⟩ : BindBlock).tenant, prio := b0.extractLsb' 13 3
          coreSel := b0.extractLsb' 16 3, held := false, handler := b1, budget := b2.truncate 16, pend := [], frun := 0
          ovr := 0, serial := s.bindSerial })
      bindSerial := s.bindSerial + 1 } := by
  have hsrc : BitVec.ofNat 8 (fieldOf b0 7 0) = b0.truncate 8 := ofNat_field0 b0 7
  have hbudget : BitVec.ofNat 16 (fieldOf b2 15 0) = b2.truncate 16 := ofNat_field0 b2 15
  have hprio : BitVec.ofNat 3 (fieldOf b0 15 13) = b0.extractLsb' 13 3 := ofNat_fieldOf b0 15 13
  have hcore : BitVec.ofNat 3 (fieldOf b0 18 16) = b0.extractLsb' 16 3 := ofNat_fieldOf b0 18 16
  simp only [installBinding, BindBlock.src, BindBlock.budget, BindBlock.core, hsrc, hbudget, hprio, hcore]

/-- BIND of a clean block that passes its checks takes the lowest free binding. -/
theorem exec_bind {a k : Nat} (h : Begins c (.bind c f) v s s') (ha : ((s'.regs c).rd f.ra).toNat = a) (hm : f.mod = 0)
    (hb : f.rb = 0) (hok : blockOk v.tenant a 3 = true) (hmay : blockMay s' v.tenant a 3 = true) (hclean : CleanAt s' a 3)
    (hrange : (⟨wordSeen s' a, wordSeen s' (a + 4), wordSeen s' (a + 8)⟩ : BindBlock).rangeOk = true)
    (hcap : (⟨wordSeen s' a, wordSeen s' (a + 4), wordSeen s' (a + 8)⟩ : BindBlock).capOk s' v.tenant = true)
    (hfree : freeBinding s' = some k) :
    exec (.bind c f) s = .next (retireUsing c v (sramBank (a + 8)) s stOk (fun r => r.wr f.rd (toWord k)) (s'.base + 3)
      (installBinding k ⟨wordSeen s' a, wordSeen s' (a + 4), wordSeen s' (a + 8)⟩ s')) := by
  subst ha
  have ho2 : (f.mod == 0 && unusedZero [f.rb] && blockOk v.tenant ((s'.regs c).rd f.ra).toNat 3) = true := by
    rw [hm, unusedZero_one hb, hok]; rfl
  have hdecide := bindDecide_ok hrange hcap hfree
  have hbody := withBlock_answers hclean (k := fun ws s =>
      match bindDecide s v.tenant ⟨wordAt ws 0, wordAt ws 1, wordAt ws 2⟩ with
      | .error e => .status e s 3
      | .ok k => .val f.rd (toWord k) (installBinding k ⟨wordAt ws 0, wordAt ws 1, wordAt ws 2⟩ s) 3)
    (x := Ans.val f.rd (toWord k) (installBinding k
      ⟨wordSeen s' ((s'.regs c).rd f.ra).toNat, wordSeen s' (((s'.regs c).rd f.ra).toNat + 4),
        wordSeen s' (((s'.regs c).rd f.ra).toNat + 8)⟩ s') 3) ?_ rfl
  refine (specInstr_answers h rfl ho2 hmay rfl rfl rfl hbody rfl).trans ?_
  · rw [blockBanks_succ]; rfl
  · simp only [wordAt_wordsAt s' _ (show 0 < 3 by decide), wordAt_wordsAt s' _ (show 1 < 3 by decide),
      wordAt_wordsAt s' _ (show 2 < 3 by decide), Nat.mul_zero, Nat.add_zero, Nat.mul_one, Nat.reduceMul, hdecide]

theorem unbindField_ok (hm : f.mod = 0) (hd : f.rd = 0) (hb : f.rb = 0) {r : Regs} (ha : (r.rd f.ra).toNat < 256) :
    (f.mod == 0 && unusedZero [f.rd, f.rb] && zeroBits (r.rd f.ra) 31 8) = true := by
  rw [hm, unusedZero_two hd hb, zeroBits_31_8 ha]; rfl

theorem sourceField_ok (hm : f.mod = 0) {r : Regs} (ha : (r.rd f.ra).toNat < 256)
    (hsrc : srcDefined (r.rd f.ra).toNat = true) :
    (f.mod == 0 && zeroBits (r.rd f.ra) 31 8 && srcDefined (r.rd f.ra).toNat) = true := by
  rw [hm, zeroBits_31_8 ha, hsrc]; rfl

theorem exec_wait {k : Nat} (h : Begins c (.wait c f) v s s') (hm : f.mod = 0) (ha : ((s'.regs c).rd f.ra).toNat < 256)
    (hsrc : srcDefined ((s'.regs c).rd f.ra).toNat = true) (hmay : mayReceive s' v.tenant ((s'.regs c).rd f.ra).toNat = true)
    (hfree : freeCtx s' = some k) :
    exec (.wait c f) s = .next (saveCtx c k (.waiting (BitVec.ofNat 8 ((s'.regs c).rd f.ra).toNat)
      (if (s'.regs c).rd f.rb = 0 then none else some (s'.time.hive + ((s'.regs c).rd f.rb).toNat)) (regIx f.rd) false)
      (retire c v.tenant stOk id 4 s')) := by
  refine (specInstr_answers h rfl (sourceField_ok hm ha hsrc) hmay rfl rfl rfl (a := Ans.mk stOk s' id 0
    (saveCtx c k (.waiting (BitVec.ofNat 8 ((s'.regs c).rd f.ra).toNat)
      (if (s'.regs c).rd f.rb = 0 then none else some (s'.time.hive + ((s'.regs c).rd f.rb).toNat)) (regIx f.rd) false))
    true [])
    ?_ rfl).trans ?_
  · simp only [hfree]
  · simp only [retireUsing_nil]

end

/-- Settles O11: each instruction by what its body answers. -/
theorem eventInstructions : Obligations.EventInstructions := by
  unfold Obligations.EventInstructions
  intro c v s s' f k
  dsimp only
  refine ⟨fun h hm hb hok hmay hclean hrange hcap hfree => ?_, fun b h hm hd hb ha hbd ht => ?_,
    fun h hm hd hb ha hbd => ?_, fun h hm ha hsrc hmay hfree => ?_, fun h hm ha hsrc hmay hfree => ?_, fun h hf hfree => ?_,
    fun h hf hfree => ?_, fun h hm hd ha hsrc hmay => ?_, fun h hf => ?_⟩
  · rw [exec_bind h rfl hm hb hok hmay hclean hrange hcap hfree, installBinding_eq]; rfl
  · have hat : bindingAt s' ((s'.regs c).rd f.ra) = some b := (bindingAt_small ha).trans hbd
    refine (specInstr_gives h rfl (unbindField_ok hm hd hb ha) ?may rfl rfl rfl (u := { s' with
      bindings := vsetD s'.bindings (((s'.regs c).rd f.ra).toNat % 256) none }) (st := stOk) (upd := id) (n := 0) ?body).trans ?_
    case may => simp only [hat]; simpa using ht
    case body => simp only [hat]; rfl
    rw [Nat.mod_eq_of_lt ha]; rfl
  · have hat : bindingAt s' ((s'.regs c).rd f.ra) = none := (bindingAt_small ha).trans hbd
    refine (specInstr_gives h rfl (unbindField_ok hm hd hb ha) ?may rfl rfl rfl (u := s') (st := stState) (upd := id) (n := 0)
      ?body).trans rfl
    case may => simp only [hat]
    case body => simp only [hat]; rfl
  · exact exec_wait h hm ha hsrc hmay hfree
  · refine (specInstr_gives h rfl (sourceField_ok hm ha hsrc) hmay rfl rfl rfl (u := s') (st := stBusy) (upd := id) (n := 0)
      ?_).trans rfl
    simp only [hfree]; rfl
  · subst hf
    refine (specInstr_answers h rfl rfl rfl rfl rfl rfl (a := { st := stOk, s := s', after := saveCtx c k .ready }) ?_
      rfl).trans ?_
    · simp only [hfree]
    · simp only [retireUsing_nil]; rfl
  · subst hf
    refine (specInstr_gives h rfl rfl rfl rfl rfl rfl (u := s') (st := stBusy) (upd := id) (n := 0) ?_).trans rfl
    simp only [hfree]; rfl
  · have ho2 : (f.mod == 0 && unusedZero [f.rd] && zeroBits ((s'.regs c).rd f.ra) 31 8 &&
        srcDefined ((s'.regs c).rd f.ra).toNat) = true := by
      rw [hm, unusedZero_one hd, zeroBits_31_8 ha, hsrc]; rfl
    refine (specInstr_gives h rfl ho2 hmay rfl rfl rfl rfl).trans ?_
    rfl
  · subst hf
    refine (specInstr_answers h rfl rfl rfl rfl rfl rfl rfl rfl).trans ?_
    simp only [retireUsing_nil]; rfl

/-! ## TIME (Table 2.9) -/

theorem setTimer_withdrawCmp (n : Fin 8) (x : Timer) (s : State) :
    setTimer n x (withdrawCmp n s) = { withdrawCmp n s with timers := vset s.timers n x } := by
  have htimers : (withdrawCmp n s).timers = s.timers := (apply_ite State.timers _ _ _).trans (ite_self _)
  rw [setTimer, htimers]

/-- Settles O13: each instruction by what its body answers. -/
theorem timeInstructions : Obligations.TimeInstructions := by
  unfold Obligations.TimeInstructions
  intro c v s s' f
  dsimp only
  refine ⟨fun h hm ha hb => ?_, fun h hm ha hb => ?_, fun h hm hd hmay hwake => ?_, fun h hm hd hb hmay => ?_,
    fun h hm hd ha hb hmay => ?_⟩
  · have ho2 : (f.mod.toNat / 2 == 0 && unusedZero [f.ra, f.rb]) = true := by rw [hm, unusedZero_two ha hb]; rfl
    refine (specInstr_gives h rfl ho2 rfl rfl rfl rfl rfl).trans ?_
    rfl
  · have ho2 : (f.mod.toNat / 2 == 0 && unusedZero [f.ra, f.rb]) = true := by rw [hm, unusedZero_two ha hb]; rfl
    refine (specInstr_gives h rfl ho2 rfl rfl rfl rfl rfl).trans ?_
    rfl
  · have ho2 : (f.mod.toNat / 16 == 0 && unusedZero [f.rd]) = true := by rw [mod_small hm, unusedZero_one hd]; rfl
    have ho3 : (s'.may v.tenant (capTimer (timerOf f.mod).val) && (!wakeOf f.mod || decide (v.tenant = 0))) = true := by
      rw [show s'.may v.tenant (capTimer (timerOf f.mod).val) = true from hmay]
      cases hw : wakeOf f.mod
      case false => rfl
      case true => rw [decide_eq_true (hwake hw)]; rfl
    refine (specInstr_gives h rfl ho2 ho3 rfl rfl rfl rfl).trans ?_
    rw [armTimer, setTimer_withdrawCmp]; rfl
  · have ho2 : (f.mod.toNat / 8 == 0 && unusedZero [f.rd, f.rb]) = true := by rw [mod_small hm, unusedZero_two hd hb]; rfl
    split
    next hp =>
      refine (specInstr_gives h rfl ho2 hmay rfl rfl rfl (if_pos hp)).trans ?_
      rfl
    next hp =>
      refine (specInstr_gives h rfl ho2 hmay rfl rfl rfl (if_neg hp)).trans ?_
      rw [armTimer, setTimer_withdrawCmp]; rfl
  · refine (specInstr_gives h rfl (modField_ok hm hd ha hb) hmay rfl rfl rfl rfl).trans ?_
    rw [setTimer_withdrawCmp]; rfl

end Sys2Proof.Machine
end

section
/-!
PROOFS. The units that are addressed by a unit number: AOUT (spec/09_external_front_end.md section 9.6), RING and
RECOG (spec/11_recognizers_and_comb_buffer.md), QUEUE (spec/12_credit_queues.md).
-/
namespace Sys2Proof.Machine

/-! ## What the unit families share -/

theorem inStates_in {st : UState} {ok : List UState} {s : State} {a : Ans} (h : ok.contains st = true) :
    inStates st ok s a = a := if_pos h

theorem inStates_out {st : UState} {ok : List UState} {s : State} {a : Ans} (h : ok.contains st = false) :
    inStates st ok s a = .status stState s := if_neg (by rw [h]; exact Bool.false_ne_true)

theorem contains_one {st a : UState} (h : st = a) : [a].contains st = true := by simpa using h

theorem contains_one_not {st a : UState} (h : st ≠ a) : [a].contains st = false := by simpa using h

theorem contains_two {st a b : UState} (h : st = a ∨ st = b) : [a, b].contains st = true := by simpa using h

theorem contains_two_not {st a b : UState} (h : ¬ (st = a ∨ st = b)) : [a, b].contains st = false := by
  simpa [not_or] using h

/-- A unit that has not failed and is neither in RUN nor in HELD is in OFF or READY. -/
theorem atRest_of {st : UState} (hf : st ≠ .fault) (h : ¬ (st = .run ∨ st = .held)) : [UState.off, .ready].contains st = true := by
  revert hf h; cases st <;> simp

theorem notOff_of {st : UState} (hf : st ≠ .fault) (h : st ≠ .off) : [UState.ready, .run, .held].contains st = true := by
  revert hf h; cases st <;> simp

theorem atRest_not {st : UState} (h : st = .run ∨ st = .held) : [UState.off, .ready].contains st = false := by
  rcases h with rfl | rfl <;> rfl

/-- A clean parameter block whose words the body answers with a status and no access of its own. -/
theorem withBlock_gives {s u : State} {a n m : Nat} (h : CleanAt s a n) {k : Words → State → Ans} {st : BitVec 8}
    {upd : Regs → Regs} (hk : k (wordsAt s a n) s = { st := st, s := u, upd := upd, extra := m }) :
    withBlock a n s k = { st := st, s := u, upd := upd, extra := m, banks := blockBanks a n } :=
  withBlock_answers h hk rfl

theorem unusedZero_three {x y z : BitVec 4} (h : x = 0) (h' : y = 0) (h'' : z = 0) : unusedZero [x, y, z] = true := by
  rw [h, h', h'']; rfl

theorem unit_ok {n : Nat} {k : Fin n} {f : UForm} {unused : List (BitVec 4)} (hk : f.inst.toNat = k.val)
    (hun : unusedZero unused = true) : unitOk n f unused = true := by
  simp [unitOk, hk, hun]

theorem orBlock_ok {b p : Bool} (h : b = true → p = true) : (!b || p) = true := by
  cases b
  · rfl
  · exact h rfl

/-- A setting that fails its field check or overlaps another one is refused. -/
theorem refused_iff {fields overlap : Bool} : (!fields || overlap) = true ↔ ¬ (fields && !overlap) = true := by
  cases fields <;> cases overlap <;> simp

theorem no_block {p : Prop} (h : false = true) : p := absurd h Bool.false_ne_true

/-! ## AOUT -/

section
variable {c : CoreId} {i : Instr} {v : Inv} {s s' u : State} {f : UForm} {k : Fin 4}

/-- The channel of the instruction exists for the tenant and is up. -/
def AoutUp (s' : State) (t : Tid) (k : Fin 4) : Prop :=
  s'.may t (capAout k.val) = true ∧ s'.hasFailed .aout = false ∧ waitsFor .aout s' = none ∧ (s'.aout k).st ≠ .fault

/-- An instruction of a channel that is up: its body's answer retires it. -/
theorem aoutInstr_retires {unused : List (BitVec 4)} {blk : Bool} {body : Fin 4 → Tid → Regs → State → Ans}
    (hk : f.inst.toNat = k.val) (h : Begins c i v (ownFirst (aoutFirst k) (ownFirst watchFirst s)) s')
    (hup : AoutUp s' v.tenant k) (hun : unusedZero unused = true)
    (hok : blk = true → blockOk v.tenant ((s'.regs c).rd f.ra).toNat 2 = true)
    (hmay : blk = true → blockMay s' v.tenant ((s'.regs c).rd f.ra).toNat 2 = true) {st : BitVec 8} {upd : Regs → Regs}
    {n : Nat} {banks : List Nat}
    (ha : body k v.tenant (s'.regs c) s' = { st := st, s := u, upd := upd, extra := n, banks := banks }) :
    aoutInstr c i f unused blk body s = .next (retireUsing c v banks (ownFirst (aoutFirst k) (ownFirst watchFirst s)) st upd
      (s'.base + n) u) := by
  obtain ⟨hcap, hfail, hwait, hst⟩ := hup
  have hn : UForm.num 4 f = k := unitNum_eq hk
  unfold aoutInstr
  simp only [hn]
  refine specInstr_answers h rfl ?_ ?_ ?_ hwait rfl (a := { st := st, s := u, upd := upd, extra := n, banks := banks }) ha rfl
  · simp only [unit_ok hk hun, orBlock_ok hok, Bool.and_self]
  · simp only [hk, hcap, orBlock_ok hmay, Bool.and_self]
  · simpa [hfail] using hst

theorem aoutInstr_gives {unused : List (BitVec 4)} {body : Fin 4 → Tid → Regs → State → Ans} (hk : f.inst.toNat = k.val)
    (h : Begins c i v (ownFirst (aoutFirst k) (ownFirst watchFirst s)) s') (hup : AoutUp s' v.tenant k)
    (hun : unusedZero unused = true) {st : BitVec 8} {upd : Regs → Regs} {n : Nat}
    (ha : body k v.tenant (s'.regs c) s' = { st := st, s := u, upd := upd, extra := n }) :
    aoutInstr c i f unused false body s = .next (retire c v.tenant st upd (s'.base + n) u) :=
  (aoutInstr_retires hk h hup hun no_block no_block ha).trans (congrArg Host.Outcome.next (retireUsing_nil ..))

end

/-- The settings that AOUT.SET takes, said as Table 9.9 says them. -/
theorem aoutSet_refused {w0 w1 : Word} :
    (fieldOf w0 23 12 < fieldOf w0 11 0 ∨ zeroBits w0 31 29 = false ∨ zeroBits w1 31 9 = false) ↔
      ¬ (fieldOf w0 11 0 ≤ fieldOf w0 23 12 ∧ w0.toNat < 2 ^ 29 ∧ w1.toNat < 2 ^ 9) := by
  rw [zeroBits_high (by decide), zeroBits_high (by decide), decide_eq_false_iff_not, decide_eq_false_iff_not]
  omega

theorem bne_decide (m n : Nat) : (m != n) = decide (m ≠ n) := by rw [Bool.eq_iff_iff]; simp

theorem wordAt_first (s : State) (a n : Nat) : wordAt (wordsAt s a (n + 1)) 0 = wordSeen s a :=
  wordAt_wordsAt s a (Nat.succ_pos n)

theorem wordAt_second (s : State) (a n : Nat) : wordAt (wordsAt s a (n + 2)) 1 = wordSeen s (a + 4) :=
  wordAt_wordsAt s a (by omega)

/-- Settles O18: each instruction by what its body answers in each unit state. -/
theorem aoutInstructions : Obligations.AoutInstructions := by
  unfold Obligations.AoutInstructions
  intro c v s s' f k hk
  dsimp only
  refine ⟨fun h hup hd hb hok hmay hclean => ?set, fun h hup ⟨hd, ha, hb⟩ => ?start, fun h hup hd hb => ?write,
    fun h hup hd hb => ?diag, fun h hup ⟨hd, ha, hb⟩ => ?release, fun h hup ⟨hd, ha, hb⟩ => ?stop⟩
  case set =>
    change execAoutSet c f s = _
    split
    next hst =>
      exact (aoutInstr_retires hk h hup (unusedZero_two hd hb) (fun _ => hok) (fun _ => hmay)
        (inStates_out (atRest_not hst))).trans (congrArg Host.Outcome.next (retireUsing_nil ..))
    next hst =>
      have hrest := atRest_of hup.2.2.2 hst
      split
      next hset =>
        refine aoutInstr_retires hk h hup (unusedZero_two hd hb) (fun _ => hok) (fun _ => hmay)
          ((inStates_in hrest).trans (withBlock_gives hclean (if_neg ?_)))
        rw [wordAt_first, wordAt_second]
        exact fun hno => aoutSet_refused.mp hno hset
      next hset =>
        refine aoutInstr_retires hk h hup (unusedZero_two hd hb) (fun _ => hok) (fun _ => hmay)
          ((inStates_in hrest).trans (withBlock_gives hclean (if_pos ?_)))
        rw [wordAt_first, wordAt_second]
        exact aoutSet_refused.mpr hset
  case start =>
    change execAoutStart c f s = _
    split
    next hst => exact aoutInstr_gives hk h hup (unusedZero_three hd ha hb) (inStates_in (contains_one hst))
    next hst => exact aoutInstr_gives hk h hup (unusedZero_three hd ha hb) (inStates_out (contains_one_not hst))
  case write =>
    change execAoutWrite c f s = _
    split
    next hst => exact aoutInstr_gives hk h hup (unusedZero_two hd hb) (inStates_out (contains_one_not hst))
    next hst =>
      have hrun := contains_one (not_not.mp hst)
      split
      next hbig => exact aoutInstr_gives hk h hup (unusedZero_two hd hb) ((inStates_in hrun).trans (if_pos hbig))
      next hbig =>
        refine (aoutInstr_gives hk h hup (unusedZero_two hd hb) ((inStates_in hrun).trans (if_neg hbig))).trans ?_
        rw [bne_decide]; rfl
  case diag =>
    change execAoutDiag c f s = _
    split
    next hst => exact aoutInstr_gives hk h hup (unusedZero_two hd hb) (inStates_out (by rw [hst]; rfl))
    next hst => exact aoutInstr_gives hk h hup (unusedZero_two hd hb) (inStates_in (notOff_of hup.2.2.2 hst))
  case release =>
    change execAoutRelease c f s = _
    split
    next hst => exact aoutInstr_gives hk h hup (unusedZero_three hd ha hb) (inStates_in (contains_one hst))
    next hst => exact aoutInstr_gives hk h hup (unusedZero_three hd ha hb) (inStates_out (contains_one_not hst))
  case stop =>
    change execAoutStop c f s = _
    split
    next hst => exact aoutInstr_gives hk h hup (unusedZero_three hd ha hb) (inStates_in (contains_two hst))
    next hst => exact aoutInstr_gives hk h hup (unusedZero_three hd ha hb) (inStates_out (contains_two_not hst))

/-! ### AOUT's events -/

/-- A code written now takes its place behind those that have reached the stage, and is there two clocks later. -/
theorem atStage_reach (x : Aout) (clk : Nat) (n : BitVec 12) (outs : List (Nat × BitVec 12)) :
    ({ x with outs := reach clk n outs } : Aout).atStage clk = ({ x with outs := outs } : Aout).atStage clk ∧
      ({ x with outs := reach clk n outs } : Aout).atStage (clk + 2) = some n := by
  have hlater : (outs.filter (fun o => decide (clk < o.1))).find? (fun o => decide (o.1 ≤ clk)) = none := by
    rw [List.find?_eq_none]
    intro o ho
    have : clk < o.1 := by simpa using (List.mem_filter.mp ho).2
    simpa using this
  constructor
  · have hnow : ¬ (clk + 2 ≤ clk) := by omega
    simp only [Aout.atStage, reach, List.find?_cons, hnow, decide_false, List.find?_append, hlater, Option.none_or]
    cases hf : outs.find? (fun o => decide (o.1 ≤ clk)) with
    | none => rfl
    | some o => simp [List.find?_some hf]
  · simp [Aout.atStage, reach]

/-- Settles O19. -/
theorem aoutEvents : Obligations.AoutEvents := by
  unfold Obligations.AoutEvents
  intro s k mv
  dsimp only
  refine ⟨fun h => ?_, rfl, fun clk hlow => ?_, fun clk n => ?_⟩
  · exact congrArg Host.Outcome.next (unlessEarly_acts _ _ _ h)
  · rw [Aout.drive, hlow]
    cases (s.aout k).st <;> rfl
  · exact ⟨rfl, atStage_reach ..⟩

/-! ## RING -/

section
variable {c : CoreId} {i : Instr} {v : Inv} {s s' u : State} {f : UForm} {k : RingId}

/-- The ring exists for the tenant, and COMB and the ring are up. -/
def RingUp (s' : State) (t : Tid) (k : RingId) : Prop :=
  s'.may t (capRing k.val) = true ∧ s'.hasFailed .comb = false ∧ waitsFor .comb s' = none ∧ (s'.ring k).st ≠ .fault

/-- An access to COMB restarts the idle time of its domain. -/
def combTouched (s : State) : State := { s with sleep := { s.sleep with combUse := s.time.phys } }

/-- An instruction of a ring that is up: its body's answer, COMB touched, retires it. -/
theorem ringInstr_retires {unused : List (BitVec 4)} {blk : Bool} {body : RingId → Tid → Regs → State → Ans}
    (hk : f.inst.toNat = k.val) (h : Begins c i v (ownFirst recogFirst s) s') (hup : RingUp s' v.tenant k)
    (hun : unusedZero unused = true) (hok : blk = true → blockOk v.tenant ((s'.regs c).rd f.ra).toNat 5 = true)
    (hmay : blk = true → blockMay s' v.tenant ((s'.regs c).rd f.ra).toNat 5 = true) {st : BitVec 8} {upd : Regs → Regs}
    {n : Nat} {banks : List Nat}
    (ha : body k v.tenant (s'.regs c) (combTouched s') = { st := st, s := u, upd := upd, extra := n, banks := banks }) :
    ringInstr c i f unused blk body s = .next (retireUsing c v banks (ownFirst recogFirst s) st upd (s'.base + n) u) := by
  obtain ⟨hcap, hfail, hwait, hst⟩ := hup
  have hn : UForm.num 64 f = k := unitNum_eq hk
  unfold ringInstr
  simp only [hn]
  refine specInstr_answers h rfl ?_ ?_ ?_ hwait rfl (a := { st := st, s := u, upd := upd, extra := n, banks := banks }) ha rfl
  · simp only [unit_ok hk hun, orBlock_ok hok, Bool.and_self]
  · simp only [hk, hcap, orBlock_ok hmay, Bool.and_self]
  · simpa [hfail] using hst

theorem ringInstr_gives {unused : List (BitVec 4)} {body : RingId → Tid → Regs → State → Ans}
    (hk : f.inst.toNat = k.val) (h : Begins c i v (ownFirst recogFirst s) s') (hup : RingUp s' v.tenant k)
    (hun : unusedZero unused = true) {st : BitVec 8} {upd : Regs → Regs} {n : Nat}
    (ha : body k v.tenant (s'.regs c) (combTouched s') = { st := st, s := u, upd := upd, extra := n }) :
    ringInstr c i f unused false body s = .next (retire c v.tenant st upd (s'.base + n) u) :=
  (ringInstr_retires hk h hup hun no_block no_block ha).trans (congrArg Host.Outcome.next (retireUsing_nil ..))

end

/-- The end of a capture changes its ring's state alone, and no memory. -/
theorem ringDone_ring (n : RingId) (s : State) : ∃ st, (ringDone n s).ring n = { s.ring n with st := st } := by
  unfold ringDone
  dsimp only
  split
  · exact ⟨.held, ring_setRing_same ..⟩
  · exact ⟨(s.ring n).st, rfl⟩

theorem ringDone_keepsMem (n : RingId) (s : State) : (ringDone n s).mem = s.mem := by
  unfold ringDone
  dsimp only
  split <;> rfl

/-- The ring's trigger is recorded with its source and its stamp. -/
def Triggered (n : RingId) (src stamp : Nat) (s : State) : Prop :=
  (s.ring n).trigd = true ∧ (s.ring n).tsrc = BitVec.ofNat 4 src ∧ (s.ring n).tstamp = stamp

theorem ringDone_triggered {n : RingId} {src stamp : Nat} {s : State} (h : Triggered n src stamp s) :
    Triggered n src stamp (ringDone n (ringNotice n 3 stamp s)) := by
  obtain ⟨st, hst⟩ := ringDone_ring n (ringNotice n 3 stamp s)
  rw [Triggered, hst]
  exact h

theorem ringTrigger_again {n : RingId} {src stamp : Nat} {s : State} (hrun : (s.ring n).st = .run)
    (htrig : (s.ring n).trigd = true) :
    ringTrigger n src stamp s = s.setRing n { s.ring n with nxtrig := satInc (s.ring n).nxtrig } := by
  unfold ringTrigger
  dsimp only
  rw [if_neg (not_not.mpr hrun), if_pos htrig]

/-- The trigger of a capture that has none yet is recorded, whether or not a record to mark has been written. -/
theorem ringTrigger_fresh {n : RingId} {src stamp : Nat} {s : State} (hrun : (s.ring n).st = .run)
    (htrig : (s.ring n).trigd = false) : Triggered n src stamp (ringTrigger n src stamp s) := by
  unfold ringTrigger
  dsimp only
  rw [if_neg (not_not.mpr hrun), if_neg (by simp [htrig])]
  refine ringDone_triggered ?_
  split <;> simp [Triggered]

/-- With no record written, the trigger waits for the first and no memory changes. -/
theorem ringTrigger_empty {n : RingId} {src stamp : Nat} {s : State} (hrun : (s.ring n).st = .run)
    (htrig : (s.ring n).trigd = false) (hnone : (s.ring n).nwrit = 0) :
    ((ringTrigger n src stamp s).ring n).trigNext = true ∧ (ringTrigger n src stamp s).mem = s.mem := by
  have hfind : findTrigger s (s.ring n) stamp (min (s.ring n).nwrit (s.ring n).cap) 0 = none := by
    rw [hnone, Nat.zero_min]; rfl
  unfold ringTrigger
  dsimp only
  rw [if_neg (not_not.mpr hrun), if_neg (by simp [htrig]), hfind]
  constructor
  · obtain ⟨st, hst⟩ := ringDone_ring n (ringNotice n 3 stamp (s.setRing n { s.ring n with
      trigd := true, tstamp := stamp, tsrc := BitVec.ofNat 4 src, trigNext := true }))
    rw [hst]
    exact congrArg Ring.trigNext (ring_setRing_same ..)
  · rw [ringDone_keepsMem]; rfl

/-- Settles O23: each instruction by what its body answers in each unit state. -/
theorem ringInstructions : Obligations.RingInstructions := by
  unfold Obligations.RingInstructions
  intro c v s s' f k hk
  dsimp only
  refine ⟨fun h hup hd hb hok hmay hclean => ?set, fun h hup ⟨hd, ha, hb⟩ => ?arm, fun h hup ⟨hd, ha, hb⟩ => ?trig,
    fun h hup ⟨hd, ha, hb⟩ => ?disarm, fun h hup ⟨hd, ha, hb⟩ => ?free⟩
  case set =>
    change execRingSet c f s = _
    split
    next hst =>
      exact (ringInstr_retires hk h hup (unusedZero_two hd hb) (fun _ => hok) (fun _ => hmay)
        (inStates_out (atRest_not hst))).trans (congrArg Host.Outcome.next (retireUsing_nil ..))
    next hst =>
      have hrest := atRest_of hup.2.2.2 hst
      split
      next hset =>
        refine ringInstr_retires hk h hup (unusedZero_two hd hb) (fun _ => hok) (fun _ => hmay)
          ((inStates_in hrest).trans (withBlock_gives (s := combTouched s') hclean (if_neg ?_)))
        exact fun hno => refused_iff.mp hno hset
      next hset =>
        refine ringInstr_retires hk h hup (unusedZero_two hd hb) (fun _ => hok) (fun _ => hmay)
          ((inStates_in hrest).trans (withBlock_gives (s := combTouched s') hclean (if_pos ?_)))
        exact refused_iff.mpr hset
  case arm =>
    change execRingArm c f s = _
    split
    next hst => exact ringInstr_gives hk h hup (unusedZero_three hd ha hb) (inStates_in (contains_two hst))
    next hst => exact ringInstr_gives hk h hup (unusedZero_three hd ha hb) (inStates_out (contains_two_not hst))
  case trig =>
    refine ⟨fun hst => ?_, fun hst htrig => ?_, fun hst htrig => ⟨ringTrigger k 0 s'.time.hive (combTouched s'), ?_, ?_⟩⟩
    · change execRingTrig c f s = _
      exact ringInstr_gives hk h hup (unusedZero_three hd ha hb) (inStates_out (contains_one_not hst))
    · change execRingTrig c f s = _
      refine ringInstr_gives hk h hup (unusedZero_three hd ha hb) ((inStates_in (contains_one hst)).trans ?_)
      exact congrArg Ans.ok (ringTrigger_again hst htrig)
    · change execRingTrig c f s = _
      exact ringInstr_gives hk h hup (unusedZero_three hd ha hb) (inStates_in (contains_one hst))
    · obtain ⟨htrigd, hsrc, hstamp⟩ := ringTrigger_fresh (src := 0) (stamp := s'.time.hive) (s := combTouched s') hst htrig
      exact ⟨htrigd, hsrc, hstamp, fun hnone => ringTrigger_empty (s := combTouched s') hst htrig hnone⟩
  case disarm =>
    change execRingDisarm c f s = _
    split
    next hst => exact ringInstr_gives hk h hup (unusedZero_three hd ha hb) (inStates_in (contains_one hst))
    next hst => exact ringInstr_gives hk h hup (unusedZero_three hd ha hb) (inStates_out (contains_one_not hst))
  case free =>
    change execRingFree c f s = _
    split
    next hst => exact ringInstr_gives hk h hup (unusedZero_three hd ha hb) (inStates_in (contains_two hst))
    next hst => exact ringInstr_gives hk h hup (unusedZero_three hd ha hb) (inStates_out (contains_two_not hst))

/-! ## RECOG -/

section
variable {c : CoreId} {i : Instr} {v : Inv} {s s' u : State} {f : UForm} {k : RecogId}

/-- An instruction of a recognizer: its body's answer retires it. -/
theorem recogInstr_retires {unused : List (BitVec 4)} {blk : Bool} {body : RecogId → Tid → Regs → State → Ans}
    (hk : f.inst.toNat = k.val) (h : Begins c i v (ownFirst recogFirst s) s') (hcap : s'.may v.tenant (capRecog k.val) = true)
    (hwait : waitsFor .lanes s' = none) (hun : unusedZero unused = true)
    (hok : blk = true → blockOk v.tenant ((s'.regs c).rd f.ra).toNat 2 = true)
    (hmay : blk = true → blockMay s' v.tenant ((s'.regs c).rd f.ra).toNat 2 = true) {st : BitVec 8} {upd : Regs → Regs}
    {n : Nat} {banks : List Nat}
    (ha : body k v.tenant (s'.regs c) s' = { st := st, s := u, upd := upd, extra := n, banks := banks }) :
    recogInstr c i f unused blk body s = .next (retireUsing c v banks (ownFirst recogFirst s) st upd (s'.base + n) u) := by
  have hn : UForm.num 14 f = k := unitNum_eq hk
  unfold recogInstr
  simp only [hn]
  refine specInstr_answers h rfl ?_ ?_ rfl hwait rfl (a := { st := st, s := u, upd := upd, extra := n, banks := banks }) ha rfl
  · simp only [unit_ok hk hun, orBlock_ok hok, Bool.and_self]
  · simp only [hk, hcap, orBlock_ok hmay, Bool.and_self]

theorem recogInstr_gives {unused : List (BitVec 4)} {body : RecogId → Tid → Regs → State → Ans}
    (hk : f.inst.toNat = k.val) (h : Begins c i v (ownFirst recogFirst s) s') (hcap : s'.may v.tenant (capRecog k.val) = true)
    (hwait : waitsFor .lanes s' = none) (hun : unusedZero unused = true) {st : BitVec 8} {upd : Regs → Regs} {n : Nat}
    (ha : body k v.tenant (s'.regs c) s' = { st := st, s := u, upd := upd, extra := n }) :
    recogInstr c i f unused false body s = .next (retire c v.tenant st upd (s'.base + n) u) :=
  (recogInstr_retires hk h hcap hwait hun no_block no_block ha).trans (congrArg Host.Outcome.next (retireUsing_nil ..))

end

/-- The event that ends a condition writes its argument, its stamp and its count. -/
theorem recogEvent_end (r : RecogId) (arg stamp : Nat) (s : State) : (recogEvent r 2 arg stamp s).recog r =
    { s.recog r with lastArg := toWord (arg + put 2 28), lastT := stamp, nevt := satInc (s.recog r).nevt } :=
  recog_setRecog_same s r _

/-- A condition that ends is told with its end's argument; nothing else of the recognizer changes but what the event
writes. -/
theorem abortCond_recog (r : RecogId) (s : State) : ∃ d w t n,
    (abortCond r s).recog r = { s.recog r with det := d, lastArg := w, lastT := t, nevt := n } := by
  unfold abortCond
  dsimp only
  split
  · rw [recogEvent_end, recog_setRecog_same]
    exact ⟨_, _, _, _, rfl⟩
  · exact ⟨_, _, _, _, rfl⟩

/-- A recognizer leaves RUN or HELD with nothing received and nothing detected; its settings, its count and its cadence
history stay. -/
theorem recogLeave_recog (r : RecogId) (st : UState) (s : State) : ∃ w t n, (recogLeave r st s).recog r =
    { s.recog r with st := st, inq := [], det := Detect.zero, lastArg := w, lastT := t, nevt := n } := by
  obtain ⟨d, w, t, n, h⟩ := abortCond_recog r s
  refine ⟨w, t, n, ?_⟩
  simp only [recogLeave, zeroDetect, recog_setRecog_same, h]

/-- Settles O22: each instruction by what its body answers in each unit state. -/
theorem recogInstructions : Obligations.RecogInstructions := by
  unfold Obligations.RecogInstructions
  intro c v s s' f k hk
  dsimp only
  refine ⟨fun h ⟨hcap, hwait⟩ hd hb hok hmay hclean hlane => ?set, fun h ⟨hcap, hwait⟩ ⟨hd, ha, hb⟩ => ?arm, fun hst => ?held,
    fun h ⟨hcap, hwait⟩ ⟨hd, ha, hb⟩ => ?disarm, fun h ⟨hcap, hwait⟩ ⟨hd, ha, hb⟩ => ?clear⟩
  case set =>
    change execRecogSet c f s = _
    split
    next hst =>
      exact (recogInstr_retires hk h hcap hwait (unusedZero_two hd hb) (fun _ => hok) (fun _ => hmay)
        (inStates_out (contains_two_not (not_or.mpr hst)))).trans (congrArg Host.Outcome.next (retireUsing_nil ..))
    next hst =>
      have hrest := contains_two (not_not.mp (fun hno => hst (not_or.mp hno)))
      have hmayLane : ¬ ((decide (fieldOf (wordSeen s' ((s'.regs c).rd f.ra).toNat) 4 0 < 24) &&
          !s'.may v.tenant (capLane (fieldOf (wordSeen s' ((s'.regs c).rd f.ra).toNat) 4 0))) = true) := by
        simpa using hlane
      split
      next hfields =>
        split
        next hsrc =>
          refine recogInstr_retires hk h hcap hwait (unusedZero_two hd hb) (fun _ => hok) (fun _ => hmay)
            ((inStates_in hrest).trans (withBlock_gives hclean ?_))
          rw [wordAt_first, wordAt_second]
          dsimp only
          rw [if_neg hmayLane, hfields, hsrc]; rfl
        next i hsrc =>
          refine recogInstr_retires hk h hcap hwait (unusedZero_two hd hb) (fun _ => hok) (fun _ => hmay)
            ((inStates_in hrest).trans (withBlock_gives hclean ?_))
          rw [wordAt_first, wordAt_second]
          dsimp only
          rw [if_neg hmayLane, hfields, hsrc]; rfl
      next hfields =>
        refine recogInstr_retires hk h hcap hwait (unusedZero_two hd hb) (fun _ => hok) (fun _ => hmay)
          ((inStates_in hrest).trans (withBlock_gives hclean ?_))
        rw [wordAt_first, wordAt_second]
        dsimp only
        rw [if_neg hmayLane, Bool.eq_false_iff.mpr hfields]; rfl
  case arm =>
    change execRecogArm c f s = _
    split
    next hst =>
      split
      next hup =>
        refine recogInstr_gives hk h hcap hwait (unusedZero_three hd ha hb)
          ((inStates_in (contains_one hst)).trans (congrArg Ans.ok (if_pos (beq_iff_eq.mpr hup))))
      next hup =>
        refine recogInstr_gives hk h hcap hwait (unusedZero_three hd ha hb)
          ((inStates_in (contains_one hst)).trans (congrArg Ans.ok (if_neg (fun hno => hup (beq_iff_eq.mp hno)))))
    next hst => exact recogInstr_gives hk h hcap hwait (unusedZero_three hd ha hb) (inStates_out (contains_one_not hst))
  case held =>
    obtain ⟨w, t, n, h⟩ := recogLeave_recog k .held s'
    rw [doLater, if_pos hst, h]
  case disarm =>
    refine ⟨fun hst => ?_, fun hst => ?_⟩
    · change execRecogDisarm c f s = _
      exact recogInstr_gives hk h hcap hwait (unusedZero_three hd ha hb) (inStates_out (contains_two_not (not_or.mpr hst)))
    · obtain ⟨w, t, n, hleft⟩ := recogLeave_recog k .ready s'
      have hexec : execRecogDisarm c f s = _ :=
        recogInstr_gives hk h hcap hwait (unusedZero_three hd ha hb) (inStates_in (contains_two hst))
      refine ⟨_, hexec, ?_⟩
      dsimp only
      rw [recog_setRecog_same, hleft]
      exact ⟨rfl, rfl, rfl, rfl, rfl, rfl, fun hstep => if_pos hstep⟩
  case clear =>
    change execRecogClear c f s = _
    split
    next hst => exact recogInstr_gives hk h hcap hwait (unusedZero_three hd ha hb) (inStates_in (contains_one hst))
    next hst => exact recogInstr_gives hk h hcap hwait (unusedZero_three hd ha hb) (inStates_out (contains_one_not hst))

/-! ## QUEUE -/

section
variable {c : CoreId} {i : Instr} {v : Inv} {s s' u : State} {f : UForm} {k : QueueId}

/-- The parameter block of a queue instruction, where it has one, is aligned and in the tenant's windows. -/
def QueueBlock (s' : State) (t : Tid) (a : Nat) : Option Nat → Prop
  | some n => blockOk t a n = true ∧ blockMay s' t a n = true
  | none => True

/-- An instruction of a queue: its body's answer retires it. -/
theorem queueInstr_retires {unused : List (BitVec 4)} {blk : Option Nat} {body : QueueId → Tid → Regs → State → Ans}
    (hk : f.inst.toNat = k.val) (h : Begins c i v (ownFirst queueFirst s) s') (hcap : s'.may v.tenant (capQueue k.val) = true)
    (hwait : waitsFor .queues s' = none) (hun : unusedZero unused = true)
    (hblk : QueueBlock s' v.tenant ((s'.regs c).rd f.ra).toNat blk) {st : BitVec 8} {upd : Regs → Regs} {n : Nat}
    {banks : List Nat}
    (ha : body k v.tenant (s'.regs c) s' = { st := st, s := u, upd := upd, extra := n, banks := banks }) :
    queueInstr c i f unused blk body s = .next (retireUsing c v banks (ownFirst queueFirst s) st upd (s'.base + n) u) := by
  have hn : UForm.num 64 f = k := unitNum_eq hk
  unfold queueInstr
  simp only [hn]
  refine specInstr_answers h rfl ?_ ?_ rfl hwait rfl (a := { st := st, s := u, upd := upd, extra := n, banks := banks }) ha rfl
  · cases blk with
    | none => simp only [unit_ok hk hun, Bool.and_self]
    | some n => simp only [unit_ok hk hun, hblk.1, Bool.and_self]
  · cases blk with
    | none => simp only [hk, hcap, Bool.and_self]
    | some n => simp only [hk, hcap, hblk.2, Bool.and_self]

theorem queueInstr_gives {unused : List (BitVec 4)} {body : QueueId → Tid → Regs → State → Ans}
    (hk : f.inst.toNat = k.val) (h : Begins c i v (ownFirst queueFirst s) s') (hcap : s'.may v.tenant (capQueue k.val) = true)
    (hwait : waitsFor .queues s' = none) (hun : unusedZero unused = true) {st : BitVec 8} {upd : Regs → Regs} {n : Nat}
    (ha : body k v.tenant (s'.regs c) s' = { st := st, s := u, upd := upd, extra := n }) :
    queueInstr c i f unused none body s = .next (retire c v.tenant st upd (s'.base + n) u) :=
  (queueInstr_retires (blk := none) hk h hcap hwait hun trivial ha).trans (congrArg Host.Outcome.next (retireUsing_nil ..))

end

theorem satAdd_16 (b : BitVec 16) (n : Nat) : satAdd b n = BitVec.ofNat 16 (min 65535 (b.toNat + n)) := by
  unfold satAdd
  split
  next h => rw [Nat.min_eq_right (by omega)]
  next h => rw [Nat.min_eq_left (by omega)]; rfl

/-- Settles O25: each instruction by what its body answers in each unit state. -/
theorem queueControl : Obligations.QueueControl := by
  unfold Obligations.QueueControl
  intro c v s s' f k hk
  dsimp only
  refine ⟨fun h ⟨hcap, hwait⟩ hd hb hok hmay hclean => ?set, fun h ⟨hcap, hwait⟩ ⟨hd, ha, hb⟩ => ?en,
    fun h ⟨hcap, hwait⟩ ⟨hd, ha, hb⟩ => ?dis, fun h ⟨hcap, hwait⟩ ⟨hd, ha, hb⟩ => ?free,
    fun h ⟨hcap, hwait⟩ ⟨hd, ha, hb⟩ => ?flush⟩
  case set =>
    change execQset c f s = _
    have hblk : QueueBlock s' v.tenant ((s'.regs c).rd f.ra).toNat (some 2) := ⟨hok, hmay⟩
    split
    next hst =>
      exact (queueInstr_retires hk h hcap hwait (unusedZero_two hd hb) hblk
        (inStates_out (contains_one_not hst))).trans (congrArg Host.Outcome.next (retireUsing_nil ..))
    next hst =>
      have hoff := contains_one (not_not.mp hst)
      split
      next hunits =>
        refine queueInstr_retires hk h hcap hwait (unusedZero_two hd hb) hblk
          ((inStates_in hoff).trans (withBlock_gives hclean (if_pos ?_)))
        rw [wordAt_second, hunits]; rfl
      next hunits =>
        have hunits' : ¬ (!queueUnitsMay s' v.tenant (wordAt (wordsAt s' ((s'.regs c).rd f.ra).toNat 2) 1)) = true := by
          rw [wordAt_second]; simpa using hunits
        split
        next hset =>
          refine queueInstr_retires hk h hcap hwait (unusedZero_two hd hb) hblk
            ((inStates_in hoff).trans (withBlock_gives hclean ((if_neg hunits').trans (if_neg ?_))))
          rw [wordAt_first, wordAt_second]
          exact fun hno => refused_iff.mp hno hset
        next hset =>
          refine queueInstr_retires hk h hcap hwait (unusedZero_two hd hb) hblk
            ((inStates_in hoff).trans (withBlock_gives hclean ((if_neg hunits').trans (if_pos ?_))))
          rw [wordAt_first, wordAt_second]
          exact refused_iff.mpr hset
  case en =>
    change execQen c f s = _
    split
    next hst => exact queueInstr_gives hk h hcap hwait (unusedZero_three hd ha hb) (inStates_in (contains_one hst))
    next hst => exact queueInstr_gives hk h hcap hwait (unusedZero_three hd ha hb) (inStates_out (contains_one_not hst))
  case dis =>
    change execQdis c f s = _
    rw [← satAdd_16]
    split
    next hst => exact queueInstr_gives hk h hcap hwait (unusedZero_three hd ha hb) (inStates_in (contains_one hst))
    next hst => exact queueInstr_gives hk h hcap hwait (unusedZero_three hd ha hb) (inStates_out (contains_one_not hst))
  case free =>
    change execQfree c f s = _
    split
    next hst => exact queueInstr_gives hk h hcap hwait (unusedZero_three hd ha hb) (inStates_in (contains_one hst))
    next hst => exact queueInstr_gives hk h hcap hwait (unusedZero_three hd ha hb) (inStates_out (contains_one_not hst))
  case flush =>
    change execQflush c f s = _
    rw [← satAdd_16]
    split
    next hst => exact queueInstr_gives hk h hcap hwait (unusedZero_three hd ha hb) (inStates_in (contains_two hst))
    next hst => exact queueInstr_gives hk h hcap hwait (unusedZero_three hd ha hb) (inStates_out (contains_two_not hst))

/-! ### Words and credit -/

theorem zeroBits_31_4 {w : Word} : zeroBits w 31 4 = decide (w.toNat < 16) := zeroBits_high (by decide)

section
variable {c : CoreId} {v : Inv} {s s' : State} {f : UForm} {k : QueueId} {i : Instr}

/-- What QPUT and QPUT.T do with a word: a unit's queue refuses it, a credit pays for it (R342, R343). -/
theorem queueInstr_put {unused : List (BitVec 4)} {body : QueueId → Tid → Regs → State → Ans} (hk : f.inst.toNat = k.val)
    (h : Begins c i v (ownFirst queueFirst s) s') (hcap : s'.may v.tenant (capQueue k.val) = true)
    (hwait : waitsFor .queues s' = none) (hun : unusedZero unused = true) {w : Word} {tag : BitVec 4}
    (ha : body k v.tenant (s'.regs c) s' = inStates (s'.queue k).st [.run] s' (putWord k w tag s')) :
    queueInstr c i f unused none body s =
      if (s'.queue k).st ≠ .run then .next (retire c v.tenant 0x10 id s'.base s')
      else if (s'.queue k).prod ≠ 0 then .next (retire c v.tenant 0x16 id s'.base s')
      else if (s'.queue k).cred = 0 then .next (retire c v.tenant 0x12 id s'.base s')
      else .next (retire c v.tenant 0x00 id s'.base (s'.setQueue k { s'.queue k with
        fill := (s'.queue k).fill ++ [⟨w, tag, 0⟩], cred := (s'.queue k).cred - 1, nput := (s'.queue k).nput + 1 })) := by
  split
  next hst => exact queueInstr_gives (n := 0) hk h hcap hwait hun (ha.trans (inStates_out (contains_one_not hst)))
  next hst =>
    have hput := ha.trans (inStates_in (contains_one (not_not.mp hst)))
    unfold putWord at hput
    split
    next hprod => exact queueInstr_gives (n := 0) hk h hcap hwait hun (hput.trans (if_pos hprod))
    next hprod =>
      split
      next hcred => exact queueInstr_gives (n := 0) hk h hcap hwait hun (hput.trans ((if_neg hprod).trans (if_pos hcred)))
      next hcred => exact queueInstr_gives (n := 0) hk h hcap hwait hun (hput.trans ((if_neg hprod).trans (if_neg hcred)))

end

/-- Credit granted to a queue that had none is told in the next clock (R350). -/
theorem creditRaised_granted (k : QueueId) (n : Nat) (s : State) :
    let y : Queue := { s.queue k with cred := (s.queue k).cred + n }
    creditRaised k (s.queue k).cred (s.setQueue k y) =
      if (s.queue k).cred = 0 ∧ n ≠ 0 ∧ bitOf (s.queue k).set0 24 = true then
        (s.setQueue k y).eventOf (0x30 + k.val)
          (BitVec.ofNat 32 (y.cred % 2048 + y.room % 2048 * 2 ^ 11 + 2 * 2 ^ 28))
      else s.setQueue k y := by
  simp only [creditRaised, queueEvent, queue_setQueue_same]
  by_cases hcred : (s.queue k).cred = 0 <;> by_cases hn : n = 0 <;> simp [hcred, hn, toWord, put]

/-- Settles O26: each instruction by what its body answers in each unit state. -/
theorem queueData : Obligations.QueueData := by
  unfold Obligations.QueueData
  intro c v s s' f k hk
  dsimp only
  refine ⟨fun h ⟨hcap, hwait⟩ hd hb => ?put, fun h ⟨hcap, hwait⟩ hd htag => ?putT, fun h ⟨hcap, hwait⟩ hd htag => ?putBad,
    fun h ⟨hcap, hwait⟩ ha hb => ?get, fun h ⟨hcap, hwait⟩ hd hb => ?cred⟩
  case put =>
    change execQput c f s = _
    exact queueInstr_put hk h hcap hwait (unusedZero_two hd hb) rfl
  case putT =>
    change execQputT c f s = _
    refine queueInstr_put hk h hcap hwait (unusedZero_one hd) ?_
    rw [zeroBits_31_4, decide_eq_true htag, BitVec.ofNat_toNat]; rfl
  case putBad =>
    change execQputT c f s = _
    have hbad : ¬ zeroBits ((s'.regs c).rd f.rb) 31 4 = true := by rw [zeroBits_31_4]; simpa using htag
    split
    next hst =>
      refine queueInstr_gives (n := 0) hk h hcap hwait (unusedZero_one hd)
        ((inStates_in (contains_one hst)).trans (if_pos ?_))
      rw [Bool.eq_false_iff.mpr hbad]; rfl
    next hst =>
      exact queueInstr_gives (n := 0) hk h hcap hwait (unusedZero_one hd) (inStates_out (contains_one_not hst))
  case get =>
    change execQget c f s = _
    split
    next hst =>
      exact queueInstr_gives (n := 0) hk h hcap hwait (unusedZero_two ha hb) (inStates_out (contains_one_not hst))
    next hst =>
      have hrun := contains_one (not_not.mp hst)
      split
      next hcons =>
        exact queueInstr_gives (n := 0) hk h hcap hwait (unusedZero_two ha hb) ((inStates_in hrun).trans (if_pos hcons))
      next hcons =>
        split
        next hempty =>
          refine queueInstr_gives (n := 0) hk h hcap hwait (unusedZero_two ha hb)
            ((inStates_in hrun).trans ((if_neg hcons).trans ?_))
          rw [takeWord, hempty]; rfl
        next d rest hword =>
          refine (queueInstr_gives (n := 0) hk h hcap hwait (unusedZero_two ha hb)
            ((inStates_in hrun).trans ((if_neg hcons).trans ?_)))
          rw [takeWord, hword]
          simp only [decide_eq_true_eq]; rfl
  case cred =>
    change execQcred c f s = _
    split
    next hst =>
      exact queueInstr_gives (n := 0) hk h hcap hwait (unusedZero_two hd hb) (inStates_out (contains_one_not hst))
    next hst =>
      have hrun := contains_one (not_not.mp hst)
      split
      next hroom =>
        exact queueInstr_gives (n := 0) hk h hcap hwait (unusedZero_two hd hb) ((inStates_in hrun).trans (if_pos hroom))
      next hroom =>
        refine queueInstr_gives (n := 0) hk h hcap hwait (unusedZero_two hd hb)
          ((inStates_in hrun).trans ((if_neg hroom).trans (congrArg Ans.ok ?_)))
        exact creditRaised_granted k _ s'

end Sys2Proof.Machine
end

section
/-!
PROOFS. Lanes and calibration (spec/10_filter_lanes_and_calibration.md) and the sensors' instructions
(spec/08_inertial_sensing.md, spec/09_external_front_end.md).
-/
namespace Sys2Proof.Machine

/-- A clean parameter block whose words the body answers with accesses of its own. -/
theorem withBlock_retires {s u : State} {a n m : Nat} (h : CleanAt s a n) {k : Words → State → Ans} {st : BitVec 8}
    {upd : Regs → Regs} {banks : List Nat}
    (hk : k (wordsAt s a n) s = { st := st, s := u, upd := upd, extra := m, banks := banks }) :
    withBlock a n s k = { st := st, s := u, upd := upd, extra := m, banks := blockBanks a n ++ banks } := by
  rw [withBlock_clean h, hk]

theorem setSensor_setSensor (s : State) (k : SensorId) (x y : Sensor) : (s.setSensor k x).setSensor k y = s.setSensor k y := by
  simp [State.setSensor, vset]

/-- A tenant that holds two rights holds both. -/
theorem may_and {s : State} {t : Tid} {p q : Tenant → Bool} (hp : s.may t p = true) (hq : s.may t q = true) :
    s.may t (fun x => p x && q x) = true := by
  unfold State.may at *
  simp only [Bool.or_eq_true, Bool.and_eq_true] at *
  tauto

/-- A unit that is neither in OFF nor in FAULT is in READY, RUN or HELD. -/
theorem inUse_of {st : UState} (h : ¬ (st = .off ∨ st = .fault)) : [UState.ready, .run, .held].contains st = true := by
  revert h; cases st <;> simp

theorem inUse_not {st : UState} (h : st = .off ∨ st = .fault) : [UState.ready, .run, .held].contains st = false := by
  rcases h with rfl | rfl <;> rfl

/-! ## LANE -/

section
variable {c : CoreId} {i : Instr} {v : Inv} {s s' u : State} {f : UForm} {l : LaneId}

/-- The parameter block of a lane instruction, where it has one, is aligned and in the tenant's windows. -/
def LaneBlock (s' : State) (t : Tid) (a : Nat) : Option Nat → Prop
  | some n => blockOk t a n = true ∧ blockMay s' t a n = true
  | none => True

/-- An instruction of a lane: its body's answer retires it. -/
theorem laneInstr_retires {unused : List (BitVec 4)} {blk : LaneId → State → Option Nat}
    {body : LaneId → Tid → Regs → State → Ans} (hk : f.inst.toNat = l.val) (h : Begins c i v (ownFirst laneFirst s) s')
    (hcap : s'.may v.tenant (capLane l.val) = true) (hwait : waitsFor .lanes s' = none) (hun : unusedZero unused = true)
    (hblk : LaneBlock s' v.tenant ((s'.regs c).rd f.ra).toNat (blk l s')) {st : BitVec 8} {upd : Regs → Regs} {n : Nat}
    {banks : List Nat}
    (ha : body l v.tenant (s'.regs c) s' = { st := st, s := u, upd := upd, extra := n, banks := banks }) :
    laneInstr c i f unused blk body s = .next (retireUsing c v banks (ownFirst laneFirst s) st upd (s'.base + n) u) := by
  have hn : UForm.num 24 f = l := unitNum_eq hk
  unfold laneInstr
  simp only [hn]
  refine specInstr_answers h rfl ?_ ?_ rfl hwait rfl (a := { st := st, s := u, upd := upd, extra := n, banks := banks }) ha rfl
  · cases hb : blk l s' with
    | none => simp only [hb, unit_ok hk hun, Bool.and_self]
    | some n => rw [hb] at hblk; simp only [hb, unit_ok hk hun, hblk.1, Bool.and_self]
  · cases hb : blk l s' with
    | none => simp only [hb, hk, hcap, Bool.and_self]
    | some n => rw [hb] at hblk; simp only [hb, hk, hcap, hblk.2, Bool.and_self]

theorem laneInstr_gives {unused : List (BitVec 4)} {blk : LaneId → State → Option Nat}
    {body : LaneId → Tid → Regs → State → Ans} (hk : f.inst.toNat = l.val) (h : Begins c i v (ownFirst laneFirst s) s')
    (hcap : s'.may v.tenant (capLane l.val) = true) (hwait : waitsFor .lanes s' = none) (hun : unusedZero unused = true)
    (hblk : LaneBlock s' v.tenant ((s'.regs c).rd f.ra).toNat (blk l s')) {st : BitVec 8} {upd : Regs → Regs} {n : Nat}
    (ha : body l v.tenant (s'.regs c) s' = { st := st, s := u, upd := upd, extra := n }) :
    laneInstr c i f unused blk body s = .next (retire c v.tenant st upd (s'.base + n) u) :=
  (laneInstr_retires hk h hcap hwait hun hblk ha).trans (congrArg Host.Outcome.next (retireUsing_nil ..))

end

/-- A coefficient table that is empty, or clean in the tenant's windows, is read whole. -/
theorem readTable_clean {s : State} {t : Tid} {a n : Nat}
    (h : n = 0 ∨ (blockOk t a n = true ∧ blockMay s t a n = true ∧ CleanAt s a n)) :
    readTable t a n s = (.ok (wordsAt s a n), s) := by
  unfold readTable
  rcases h with rfl | ⟨hok, hmay, hclean⟩
  · rfl
  · split
    next hn => rw [hn]; rfl
    next => rw [hok, hmay, readBlock_clean n a hclean]; rfl

/-- A lane that starts takes the recorded table into its shadow and its stages from zero. -/
theorem startLane_clean {s : State} {l : LaneId} {t : Tid} {k : Lane → State → Ans}
    (h : (s.lane l).ctlen = 0 ∨ (blockOk t (s.lane l).ctab.toNat (s.lane l).ctlen = true ∧
      blockMay s t (s.lane l).ctab.toNat (s.lane l).ctlen = true ∧ CleanAt s (s.lane l).ctab.toNat (s.lane l).ctlen)) :
    startLane l t s k = { k { s.lane l with
        st := .run, shadow := wordsAt s (s.lane l).ctab.toNat (s.lane l).ctlen, nextShadow := none, shPoison := false, errs := []
        stages := (s.lane l).stages.map (fun st => { st.zero with clk := none, poison := false }) } s with
      banks := blockBanks (s.lane l).ctab.toNat (s.lane l).ctlen } := by
  rw [startLane, readTable_clean h]

/-- Settles O20: each instruction by what its body answers in each unit state. -/
theorem laneInstructions : Obligations.LaneInstructions := by
  unfold Obligations.LaneInstructions
  intro c v s s' f l hk
  dsimp only
  refine ⟨fun h ⟨hcap, hwait⟩ hd hb hok hmay hclean hst hsrc hfields htab href => ?build,
    fun h ⟨hcap, hwait⟩ hd hb hok hmay hst => ?buildNo, fun h ⟨hcap, hwait⟩ hd hb hok hmay hclean => ?load,
    fun h ⟨hcap, hwait⟩ ⟨hd, ha, hb⟩ htab => ?start, fun h ⟨hcap, hwait⟩ ⟨hd, ha, hb⟩ => ?suspend,
    fun h ⟨hcap, hwait⟩ ha hb htab => ?resume, fun h ⟨hcap, hwait⟩ ⟨hd, ha, hb⟩ => ?stop,
    fun h ⟨hcap, hwait⟩ ⟨hd, ha, hb⟩ => ?clear⟩
  case build =>
    have hblk : LaneBlock s' v.tenant ((s'.regs c).rd f.ra).toNat (some 11) := ⟨hok, hmay⟩
    have hexec : execLaneBuild c f s = _ := laneInstr_retires hk h hcap hwait (unusedZero_two hd hb) hblk
      ((inStates_in (contains_two hst)).trans (withBlock_retires hclean ((if_neg (by rw [hsrc]; exact Bool.false_ne_true)).trans
        ((if_neg (by rw [hfields]; exact Bool.false_ne_true)).trans (by rw [readTable_clean htab]; dsimp only; rw [href]; rfl)))))
    exact ⟨_, hexec, rfl, rfl, rfl, rfl, rfl, rfl, rfl, rfl⟩
  case buildNo =>
    have hblk : LaneBlock s' v.tenant ((s'.regs c).rd f.ra).toNat (some 11) := ⟨hok, hmay⟩
    change execLaneBuild c f s = _
    exact laneInstr_gives hk h hcap hwait (unusedZero_two hd hb) hblk (inStates_out (atRest_not hst))
  case load =>
    change execLaneLoad c f s = _
    have hblk : LaneBlock s' v.tenant ((s'.regs c).rd f.ra).toNat (some (s'.lane l).ctlen) := ⟨hok, hmay⟩
    split
    next hst => exact laneInstr_gives hk h hcap hwait (unusedZero_two hd hb) hblk (inStates_out (inUse_not hst))
    next hst =>
      split
      next hclips =>
        exact laneInstr_retires hk h hcap hwait (unusedZero_two hd hb) hblk ((inStates_in (inUse_of hst)).trans
          (withBlock_gives hclean (if_neg (by rw [hclips]; exact Bool.false_ne_true))))
      next hclips =>
        exact laneInstr_retires hk h hcap hwait (unusedZero_two hd hb) hblk ((inStates_in (inUse_of hst)).trans
          (withBlock_gives hclean (if_pos (by rw [Bool.eq_false_iff.mpr hclips]; rfl))))
  case start =>
    have hno : LaneBlock s' v.tenant ((s'.regs c).rd f.ra).toNat none := trivial
    change execLaneStart c f s = _
    split
    next hst =>
      exact laneInstr_retires hk h hcap hwait (unusedZero_three hd ha hb) hno
        ((inStates_in (contains_one hst)).trans (startLane_clean htab))
    next hst =>
      exact laneInstr_gives hk h hcap hwait (unusedZero_three hd ha hb) hno (inStates_out (contains_one_not hst))
  case suspend =>
    have hno : LaneBlock s' v.tenant ((s'.regs c).rd f.ra).toNat none := trivial
    change execLaneSuspend c f s = _
    split
    next hst =>
      exact laneInstr_gives hk h hcap hwait (unusedZero_three hd ha hb) hno (inStates_in (contains_one hst))
    next hst =>
      exact laneInstr_gives hk h hcap hwait (unusedZero_three hd ha hb) hno (inStates_out (contains_one_not hst))
  case resume =>
    have hno : LaneBlock s' v.tenant ((s'.regs c).rd f.ra).toNat none := trivial
    change execLaneResume c f s = _
    split
    next hst =>
      exact laneInstr_retires hk h hcap hwait (unusedZero_two ha hb) hno
        ((inStates_in (contains_one hst)).trans (startLane_clean htab))
    next hst =>
      exact laneInstr_gives hk h hcap hwait (unusedZero_two ha hb) hno (inStates_out (contains_one_not hst))
  case stop =>
    have hno : LaneBlock s' v.tenant ((s'.regs c).rd f.ra).toNat none := trivial
    change execLaneStop c f s = _
    split
    next hst =>
      exact laneInstr_gives hk h hcap hwait (unusedZero_three hd ha hb) hno (inStates_in (contains_two hst))
    next hst =>
      exact laneInstr_gives hk h hcap hwait (unusedZero_three hd ha hb) hno (inStates_out (contains_two_not hst))
  case clear =>
    have hno : LaneBlock s' v.tenant ((s'.regs c).rd f.ra).toNat none := trivial
    change execLaneClear c f s = _
    split
    next hst =>
      exact laneInstr_gives hk h hcap hwait (unusedZero_three hd ha hb) hno (inStates_in (contains_one hst))
    next hst =>
      exact laneInstr_gives hk h hcap hwait (unusedZero_three hd ha hb) hno (inStates_out (contains_one_not hst))

/-! ## Calibration (R301, R305, R309) -/

section
variable {c : CoreId} {i : Instr} {v : Inv} {s s' u : State} {f : UForm} {k : SensorId}

/-- An instruction of a sensor's calibration slots: its body's answer retires it. -/
theorem calInstr_retires {unused : List (BitVec 4)} {blk cal : Bool} {body : SensorId → Tid → Regs → State → Ans}
    (hk : f.inst.toNat = k.val) (h : Begins c i v (ownFirst laneFirst s) s') (hfail : s'.hasFailed (sensorFunc k) = false)
    (hst : (s'.sensor k).st ≠ .fault) (hwait : waitsFor .lanes s' = none)
    (hcap : s'.may v.tenant (fun x => capSens k.val x && (!cal || capCal x)) = true) (hun : unusedZero unused = true)
    (hok : blk = true → blockOk v.tenant ((s'.regs c).rd f.rb).toNat 22 = true)
    (hmay : blk = true → blockMay s' v.tenant ((s'.regs c).rd f.rb).toNat 22 = true) {st : BitVec 8} {upd : Regs → Regs}
    {n : Nat} {banks : List Nat}
    (ha : body k v.tenant (s'.regs c) s' = { st := st, s := u, upd := upd, extra := n, banks := banks }) :
    calInstr c i f unused blk cal body s = .next (retireUsing c v banks (ownFirst laneFirst s) st upd (s'.base + n) u) := by
  have hn : UForm.num 11 f = k := unitNum_eq hk
  unfold calInstr
  simp only [hn]
  refine specInstr_answers h rfl ?_ ?_ ?_ hwait rfl (a := { st := st, s := u, upd := upd, extra := n, banks := banks }) ha rfl
  · simp only [unit_ok hk hun, orBlock_ok hok, Bool.and_self]
  · simp only [hk, hcap, orBlock_ok hmay, Bool.and_self]
  · simpa [hfail] using hst

theorem calInstr_gives {unused : List (BitVec 4)} {blk cal : Bool} {body : SensorId → Tid → Regs → State → Ans}
    (hk : f.inst.toNat = k.val) (h : Begins c i v (ownFirst laneFirst s) s') (hfail : s'.hasFailed (sensorFunc k) = false)
    (hst : (s'.sensor k).st ≠ .fault) (hwait : waitsFor .lanes s' = none)
    (hcap : s'.may v.tenant (fun x => capSens k.val x && (!cal || capCal x)) = true) (hun : unusedZero unused = true)
    (hok : blk = true → blockOk v.tenant ((s'.regs c).rd f.rb).toNat 22 = true)
    (hmay : blk = true → blockMay s' v.tenant ((s'.regs c).rd f.rb).toNat 22 = true) {st : BitVec 8} {upd : Regs → Regs}
    {n : Nat} (ha : body k v.tenant (s'.regs c) s' = { st := st, s := u, upd := upd, extra := n }) :
    calInstr c i f unused blk cal body s = .next (retire c v.tenant st upd (s'.base + n) u) :=
  (calInstr_retires hk h hfail hst hwait hcap hun hok hmay ha).trans (congrArg Host.Outcome.next (retireUsing_nil ..))

end

/-- A slot number is a field of three bits. -/
theorem slotNumber_eq {w : Word} {k : BitVec 3} : BitVec.ofNat 3 w.toNat = k ↔ w.toNat % 8 = k.toNat := by
  rw [BitVec.toNat_eq, BitVec.toNat_ofNat]

theorem slotNumber_mod (w : Word) : BitVec.ofNat 3 (w.toNat % 8) = BitVec.ofNat 3 w.toNat := by
  apply BitVec.eq_of_toNat_eq; simp

section
variable {c : CoreId} {v : Inv} {s s' : State} {f : UForm} {l : LaneId}

/-- CALSWAP answers what the swap makes of the lane, in READY, RUN and HELD. -/
theorem exec_calswap (hk : f.inst.toNat = l.val) (h : Begins c (.calswap c f) v (ownFirst laneFirst s) s')
    (hwait : waitsFor .lanes s' = none) (hcap : s'.may v.tenant (capLane l.val) = true) (hcal : s'.may v.tenant capCal = true)
    (hb : f.rb = 0) {st : BitVec 8} {upd : Regs → Regs} {u : State}
    (ha : inStates (s'.lane l).st [.ready, .run, .held] s'
      (calSwap l (BitVec.ofNat 3 ((s'.regs c).rd f.ra).toNat) f.rd s') = { st := st, s := u, upd := upd }) :
    exec (.calswap c f) s = .next (retire c v.tenant st upd (s'.base + 0) u) := by
  have hn : UForm.num 24 f = l := unitNum_eq hk
  change execCalswap c f s = _
  unfold execCalswap
  simp only [hn]
  refine specInstr_gives (st := st) (upd := upd) (u := u) (n := 0) h rfl ?_ ?_ rfl hwait rfl ha
  · simp only [unit_ok hk (unusedZero_one hb)]
  · simp only [hk, may_and hcap hcal]

end

/-- Settles O21: each instruction by what its body answers, the swap by its cases. -/
theorem calibrationInstructions : Obligations.CalibrationInstructions := by
  unfold Obligations.CalibrationInstructions
  intro c v s s' f k l
  dsimp only
  refine ⟨fun h hk ⟨hfail, hst, hwait⟩ hcap hd hok hmay hclean => ?put,
    fun h hk ⟨hfail, hst, hwait⟩ hcap hcal hd hb => ?putP, fun h hk hwait hcap hcal hb hhas hslot hst => ?swap,
    fun hpend => ?epoch, fun h hk hwait hcap hcal hb hno => ?swapNo⟩
  case put =>
    change execCalput c f s = _
    have hmayCap : s'.may v.tenant (fun x => capSens k.val x && (!false || capCal x)) = true := by simpa using hcap
    split
    next hbusy =>
      exact calInstr_gives hk h hfail hst hwait hmayCap (unusedZero_one hd) (fun _ => hok) (fun _ => hmay) (if_pos hbusy)
    next hbusy =>
      split
      next hset =>
        exact calInstr_retires hk h hfail hst hwait hmayCap (unusedZero_one hd) (fun _ => hok) (fun _ => hmay)
          ((if_neg hbusy).trans (withBlock_gives hclean (if_pos hset)))
      next hset =>
        exact calInstr_retires hk h hfail hst hwait hmayCap (unusedZero_one hd) (fun _ => hok) (fun _ => hmay)
          ((if_neg hbusy).trans (withBlock_gives hclean (if_neg hset)))
  case putP =>
    change execCalputP c f s = _
    have hmayCap : s'.may v.tenant (fun x => capSens k.val x && (!true || capCal x)) = true := may_and hcap hcal
    split
    next hprop =>
      refine calInstr_gives hk h hfail hst hwait hmayCap (unusedZero_two hd hb) no_block no_block ?_
      simp only [hprop]; rfl
    next p hprop =>
      split
      next hbusy =>
        refine calInstr_gives hk h hfail hst hwait hmayCap (unusedZero_two hd hb) no_block no_block ?_
        simp only [hprop, hbusy]; rfl
      next hbusy =>
        refine calInstr_gives hk h hfail hst hwait hmayCap (unusedZero_two hd hb) no_block no_block ?_
        simp only [hprop, State.modSensor, writeSlot, sensor_setSensor_same, setSensor_setSensor]
        exact if_neg hbusy
  case swap =>
    have hcan : ¬ ((s'.lane l).hasCal = false ∨
        (slotOf s' (s'.lane l).src (BitVec.ofNat 3 ((s'.regs c).rd f.ra).toNat).toNat).isNone = true) := by
      rw [BitVec.toNat_ofNat, hhas]
      simpa using Option.isSome_iff_ne_none.mp hslot
    split
    next hoff => exact exec_calswap hk h hwait hcap hcal hb (inStates_out (inUse_not (.inl hoff)))
    next hoff =>
      have hin := inUse_of (not_or.mpr ⟨hoff, hst⟩)
      split
      next hsame =>
        exact exec_calswap hk h hwait hcap hcal hb ((inStates_in hin).trans ((if_neg hcan).trans
          (if_pos ⟨slotNumber_eq.mpr hsame.1, hsame.2⟩)))
      next hsame =>
        have hother : ¬ (BitVec.ofNat 3 ((s'.regs c).rd f.ra).toNat = (s'.lane l).slot ∧ (s'.lane l).pslot = none) :=
          fun hno => hsame ⟨slotNumber_eq.mp hno.1, hno.2⟩
        rw [slotNumber_mod]
        split
        next hrun =>
          exact exec_calswap hk h hwait hcap hcal hb ((inStates_in hin).trans ((if_neg hcan).trans
            ((if_neg hother).trans (if_pos hrun))))
        next hrun =>
          refine (exec_calswap hk h hwait hcap hcal hb ((inStates_in hin).trans ((if_neg hcan).trans
            ((if_neg hother).trans (if_neg hrun))))).trans ?_
          rw [BitVec.toNat_add]; rfl
  case epoch =>
    rw [swapEpoch, hpend, BitVec.toNat_add]; rfl
  case swapNo =>
    have hcannot : (s'.lane l).hasCal = false ∨
        (slotOf s' (s'.lane l).src (BitVec.ofNat 3 ((s'.regs c).rd f.ra).toNat).toNat).isNone = true := by
      rw [BitVec.toNat_ofNat]
      exact hno.imp id (fun hnone => by rw [show (2 : Nat) ^ 3 = 8 from rfl, hnone]; rfl)
    cases hin : [UState.ready, .run, .held].contains (s'.lane l).st with
    | true => exact exec_calswap hk h hwait hcap hcal hb ((inStates_in hin).trans (if_pos hcannot))
    | false => exact exec_calswap hk h hwait hcap hcal hb (inStates_out hin)

/-! ## SENSE and TONE -/

section
variable {c : CoreId} {i : Instr} {v : Inv} {s s' u : State} {f : UForm} {k : SensorId}

/-- The sensor exists for the tenant and is up. -/
def SenseUp (s' : State) (t : Tid) (k : SensorId) : Prop :=
  s'.may t (capSens k.val) = true ∧ s'.hasFailed (sensorFunc k) = false ∧ waitsFor (sensorFunc k) s' = none ∧
    (s'.sensor k).st ≠ .fault

/-- An instruction of a sensor that neither has failed nor must be waited for: its body's answer retires it. -/
theorem senseInstr_answers {unused : List (BitVec 4)} {lo : Nat} {blk off : Bool} {waits : SensorId → State → Option Func}
    {body : SensorId → Tid → Regs → State → Ans} (hk : f.inst.toNat = k.val) (h : Begins c i v (ownFirst (senseFirst k) s) s')
    (hcap : s'.may v.tenant (capSens k.val) = true) (hlo : lo ≤ k.val) (hun : unusedZero unused = true)
    (hok : blk = true → blockOk v.tenant ((s'.regs c).rd f.ra).toNat 2 = true)
    (hmay : blk = true → blockMay s' v.tenant ((s'.regs c).rd f.ra).toNat 2 = true)
    (hfail : (!off && (s'.hasFailed (sensorFunc k) || (s'.sensor k).st == .fault)) = false)
    (hwait : (if off && (s'.hasFailed (sensorFunc k) || (s'.sensor k).st == .fault) then none else waits k s') = none)
    {st : BitVec 8} {upd : Regs → Regs} {n : Nat} {banks : List Nat}
    (ha : body k v.tenant (s'.regs c) s' = { st := st, s := u, upd := upd, extra := n, banks := banks }) :
    senseInstr c i f unused lo blk off waits body s = .next (retireUsing c v banks (ownFirst (senseFirst k) s) st upd
      (s'.base + n) u) := by
  have hn : UForm.num 11 f = k := unitNum_eq hk
  unfold senseInstr
  simp only [hn]
  refine specInstr_answers h rfl ?_ ?_ hfail hwait rfl (a := { st := st, s := u, upd := upd, extra := n, banks := banks })
    ha rfl
  · simp only [unit_ok hk hun, hk, decide_eq_true hlo, orBlock_ok hok, Bool.and_self]
  · simp only [hk, hcap, orBlock_ok hmay, Bool.and_self]

/-- An instruction of a sensor that is up. -/
theorem senseInstr_retires {unused : List (BitVec 4)} {lo : Nat} {blk off : Bool} {waits : SensorId → State → Option Func}
    {body : SensorId → Tid → Regs → State → Ans} (hk : f.inst.toNat = k.val) (h : Begins c i v (ownFirst (senseFirst k) s) s')
    (hup : SenseUp s' v.tenant k) (hlo : lo ≤ k.val) (hun : unusedZero unused = true)
    (hok : blk = true → blockOk v.tenant ((s'.regs c).rd f.ra).toNat 2 = true)
    (hmay : blk = true → blockMay s' v.tenant ((s'.regs c).rd f.ra).toNat 2 = true) (hwait : waits k s' = none)
    {st : BitVec 8} {upd : Regs → Regs} {n : Nat} {banks : List Nat}
    (ha : body k v.tenant (s'.regs c) s' = { st := st, s := u, upd := upd, extra := n, banks := banks }) :
    senseInstr c i f unused lo blk off waits body s = .next (retireUsing c v banks (ownFirst (senseFirst k) s) st upd
      (s'.base + n) u) := by
  obtain ⟨hcap, hfail, -, hst⟩ := hup
  have hgood : (s'.hasFailed (sensorFunc k) || (s'.sensor k).st == .fault) = false := by simpa [hfail] using hst
  refine senseInstr_answers hk h hcap hlo hun hok hmay ?_ ?_ ha
  · rw [hgood, Bool.and_false]
  · rw [hgood, Bool.and_false]; exact hwait

theorem senseInstr_gives {unused : List (BitVec 4)} {lo : Nat} {off : Bool} {body : SensorId → Tid → Regs → State → Ans}
    (hk : f.inst.toNat = k.val) (h : Begins c i v (ownFirst (senseFirst k) s) s') (hup : SenseUp s' v.tenant k)
    (hlo : lo ≤ k.val) (hun : unusedZero unused = true) {st : BitVec 8} {upd : Regs → Regs} {n : Nat}
    (ha : body k v.tenant (s'.regs c) s' = { st := st, s := u, upd := upd, extra := n }) :
    senseInstr c i f unused lo false off senseWaits body s = .next (retire c v.tenant st upd (s'.base + n) u) :=
  (senseInstr_retires hk h hup hlo hun no_block no_block hup.2.2.1 ha).trans (congrArg Host.Outcome.next (retireUsing_nil ..))

/-- A sensor that is up and warm, or no longer in OFF, is not waited for by SENSE.SET. -/
theorem senseSetWaits_none (hwait : waitsFor (sensorFunc k) s' = none)
    (hwarm : inertial k = true → (s'.sensor k).st = .off → (s'.sensor k).warm = true ∧ (s'.sensor k).warmAt = none) :
    senseSetWaits k s' = none := by
  unfold senseSetWaits
  dsimp only
  rw [hwait]
  refine if_neg fun hno => ?_
  simp only [Bool.and_eq_true, beq_iff_eq] at hno
  obtain ⟨⟨hinertial, hoff⟩, hcold⟩ := hno
  obtain ⟨hw, hat⟩ := hwarm hinertial hoff
  simp [hw, hat] at hcold

end

/-- What a sensor tells its lanes changes no sensor. -/
theorem sensorNotice_sensors (kind : Nat) (k : SensorId) (s : State) : (sensorNotice kind k s).sensors = s.sensors := by
  have key : ∀ (l : List LaneId) (u : State),
      (forEach l (fun l s => s.eventOf l.val (noticeArg kind k (s.sensor k))) u).sensors = u.sensors := by
    intro l
    induction l with
    | nil => exact fun _ => rfl
    | cons a l ih => exact fun u => (ih _).trans rfl
  exact key _ s

theorem sensorNotice_sensor (kind : Nat) (k j : SensorId) (s : State) : (sensorNotice kind k s).sensor j = s.sensor j := by
  rw [State.sensor, sensorNotice_sensors]; rfl

/-- With no self-test running there is none to abort. -/
theorem abortTest'_none {k : SensorId} {s : State} (h : (s.sensor k).test = none) : abortTest' k s = s := by
  rw [abortTest', h]

theorem abortTest'_some {k : SensorId} {s : State} {e : Nat} (h : (s.sensor k).test = some e) :
    (abortTest' k s).sensor k = { s.sensor k with test := none, stabort := true, stdone := true, stpass := 0 } := by
  rw [abortTest', h]
  exact (sensorNotice_sensor ..).trans (sensor_setSensor_same ..)

theorem selfTestMs (k : SensorId) : (if k.val < 2 then 12 else if k = 2 then 40 else 20 : Nat) =
    if k.val < 2 then 12 else if k.val = 2 then 40 else 20 := by
  simp only [Fin.ext_iff]; rfl

/-- Settles O16: each instruction by what its body answers in each unit state. -/
theorem senseInstructions : Obligations.SenseInstructions := by
  unfold Obligations.SenseInstructions
  intro c v s s' f k hk
  dsimp only
  refine ⟨fun h hup hd hb hok hmay hclean hwarm => ?set, fun h hup ⟨hd, ha, hb⟩ => ?start,
    fun h hup ⟨hd, ha, hb⟩ htest => ?stop, fun h hup hd hb => ?hold, fun h hup ⟨hd, ha, hb⟩ htest => ?ret,
    fun e h hup ⟨hd, ha, hb⟩ htest hst => ?retTest, fun h hup ⟨hd, ha, hb⟩ => ?off,
    fun h hcap ⟨hd, ha, hb⟩ hst => ?offFault, fun h hup hd hb hlo => ?tone⟩
  case set =>
    change execSenseSet c f s = _
    have hwait := senseSetWaits_none hup.2.2.1 hwarm
    have hread := readBlock_clean 2 _ hclean
    split
    next hst =>
      exact (senseInstr_retires hk h hup (Nat.zero_le _) (unusedZero_two hd hb) (fun _ => hok) (fun _ => hmay) hwait
        (inStates_out (atRest_not hst))).trans (congrArg Host.Outcome.next (retireUsing_nil ..))
    next hst =>
      have hrest := atRest_of hup.2.2.2 hst
      by_cases hset : (if inertial k then inertialSetOk k (wordSeen s' ((s'.regs c).rd f.ra).toNat)
          (wordSeen s' (((s'.regs c).rd f.ra).toNat + 4)) else xfeSetOk (wordSeen s' ((s'.regs c).rd f.ra).toNat)
          (wordSeen s' (((s'.regs c).rd f.ra).toNat + 4))) = true
      · rw [if_pos hset]
        refine senseInstr_retires hk h hup (Nat.zero_le _) (unusedZero_two hd hb) (fun _ => hok) (fun _ => hmay) hwait
          ((inStates_in hrest).trans ?_)
        rw [hread]
        dsimp only
        rw [wordAt_first, wordAt_second, if_neg Bool.false_ne_true, hset]; rfl
      · rw [if_neg hset]
        refine senseInstr_retires hk h hup (Nat.zero_le _) (unusedZero_two hd hb) (fun _ => hok) (fun _ => hmay) hwait
          ((inStates_in hrest).trans ?_)
        rw [hread]
        dsimp only
        rw [wordAt_first, wordAt_second, if_neg Bool.false_ne_true, Bool.eq_false_iff.mpr hset]; rfl
  case start =>
    change execSenseStart c f s = _
    rw [two_mul, ← Nat.add_assoc]
    split
    next hst =>
      exact senseInstr_gives hk h hup (Nat.zero_le _) (unusedZero_three hd ha hb) (inStates_in (contains_one hst))
    next hst =>
      exact senseInstr_gives hk h hup (Nat.zero_le _) (unusedZero_three hd ha hb) (inStates_out (contains_one_not hst))
  case stop =>
    change execSenseStop c f s = _
    split
    next hst =>
      refine senseInstr_gives hk h hup (Nat.zero_le _) (unusedZero_three hd ha hb)
        ((inStates_in (contains_two hst)).trans ?_)
      rw [abortTest'_none htest]; rfl
    next hst =>
      exact senseInstr_gives hk h hup (Nat.zero_le _) (unusedZero_three hd ha hb) (inStates_out (contains_two_not hst))
  case hold =>
    change execSenseHold c f s = _
    split
    next hst =>
      have hin := contains_two hst
      split
      next hzero =>
        refine senseInstr_gives hk h hup (Nat.zero_le _) (unusedZero_two hd hb) ((inStates_in hin).trans ?_)
        rw [BitVec.eq_of_toNat_eq (y := 0#32) hzero]; rfl
      next hzero =>
        split
        next hone =>
          rw [← selfTestMs]
          refine senseInstr_gives hk h hup (Nat.zero_le _) (unusedZero_two hd hb) ((inStates_in hin).trans ?_)
          rw [BitVec.eq_of_toNat_eq (y := 1#32) hone]; rfl
        next hone =>
          refine senseInstr_gives hk h hup (Nat.zero_le _) (unusedZero_two hd hb)
            ((inStates_in hin).trans (if_pos ?_))
          rw [zeroBits_high (by decide), decide_eq_false (by omega)]; rfl
    next hst =>
      exact senseInstr_gives hk h hup (Nat.zero_le _) (unusedZero_two hd hb) (inStates_out (contains_two_not hst))
  case ret =>
    change execSenseReturn c f s = _
    split
    next hst =>
      refine senseInstr_gives hk h hup (Nat.zero_le _) (unusedZero_three hd ha hb)
        ((inStates_in (contains_one hst)).trans ?_)
      rw [abortTest'_none htest, State.modSensor, htest]; rfl
    next hst =>
      exact senseInstr_gives hk h hup (Nat.zero_le _) (unusedZero_three hd ha hb) (inStates_out (contains_one_not hst))
  case retTest =>
    have hexec : execSenseReturn c f s = _ :=
      senseInstr_gives hk h hup (Nat.zero_le _) (unusedZero_three hd ha hb) (inStates_in (contains_one hst))
    refine ⟨_, hexec, ?_⟩
    rw [htest, State.modSensor, sensor_setSensor_same, abortTest'_some htest]
    exact ⟨rfl, rfl, rfl, rfl, rfl, rfl⟩
  case off =>
    change execSenseOff c f s = _
    split
    next hst =>
      refine senseInstr_gives hk h hup (Nat.zero_le _) (unusedZero_three hd ha hb)
        ((inStates_in (contains_two (.inl hst))).trans ?_)
      rw [State.modSensor, hst]; rfl
    next hst =>
      exact senseInstr_gives hk h hup (Nat.zero_le _) (unusedZero_three hd ha hb)
        (inStates_out (contains_two_not (not_or.mpr ⟨hst, hup.2.2.2⟩)))
  case offFault =>
    change execSenseOff c f s = _
    have hfault : (s'.hasFailed (sensorFunc k) || (s'.sensor k).st == .fault) = true := by rw [hst, beq_self_eq_true, Bool.or_true]
    refine (senseInstr_answers (off := true) (waits := senseWaits) (n := 0) (banks := []) hk h hcap (Nat.zero_le _) (unusedZero_three hd ha hb) no_block no_block rfl
      (if_pos hfault) ((inStates_in (contains_two (.inr hst))).trans ?_)).trans
      (congrArg Host.Outcome.next (retireUsing_nil ..))
    rw [State.modSensor, if_pos hst, ← hst]; rfl
  case tone =>
    change execTone c f s = _
    split
    next hst => exact senseInstr_gives hk h hup hlo (unusedZero_two hd hb) (inStates_out (contains_one_not hst))
    next hst =>
      have hrun := contains_one (not_not.mp hst)
      split
      next hzero =>
        exact senseInstr_gives hk h hup hlo (unusedZero_two hd hb)
          ((inStates_in hrun).trans ((if_neg (by omega)).trans (if_pos hzero)))
      next hzero =>
        split
        next hsmall =>
          exact senseInstr_gives hk h hup hlo (unusedZero_two hd hb)
            ((inStates_in hrun).trans ((if_neg (by omega)).trans (if_neg hzero)))
        next hsmall =>
          exact senseInstr_gives hk h hup hlo (unusedZero_two hd hb) ((inStates_in hrun).trans (if_pos (by omega)))

end Sys2Proof.Machine
end

section
/-!
PROOFS. The PORT instructions (spec/13_serial_ports.md section 13.2) and the LINE instructions
(spec/14_line_engines.md sections 14.3 and 14.6).
-/
namespace Sys2Proof.Machine

/-! ## What a port's own operations leave of the port -/

theorem queueEvent_ports (q : QueueId) (kind lo hi : Nat) (s : State) : (queueEvent q kind lo hi s).ports = s.ports := by
  unfold queueEvent; split <;> rfl

theorem writeItem_ports (q : QueueId) (item : List QSlot) (s : State) : (writeItem q item s).ports = s.ports := by
  unfold writeItem
  dsimp only
  split
  · rfl
  · split
    · rfl
    · rw [queueEvent_ports]; rfl

theorem deliver_port (p r : PortId) (w : Word) (tag : BitVec 4) (s : State) : (deliver p w tag s).port r = s.port r := by
  unfold deliver
  split
  · exact congrArg (fun v => vget v r) (writeItem_ports ..)
  · rfl

/-- Words that go to RXQ leave the port's receive buffer, and nothing else of the port changes. -/
theorem masterFlush_port (p : PortId) (n : Nat) (s : State) :
    ∃ rx, (masterFlush p n s).port p = { s.port p with rxf := rx } := by
  induction n generalizing s with
  | zero => exact ⟨_, rfl⟩
  | succ n ih =>
    unfold masterFlush
    dsimp only
    split
    · exact ⟨_, rfl⟩
    next w tag rest hrx =>
      split
      · obtain ⟨rx, h⟩ := ih (deliver p w tag (s.modPort p (fun x => { x with rxf := rest })))
        refine ⟨rx, h.trans ?_⟩
        rw [deliver_port, State.modPort, port_setPort_same]
      · exact ⟨_, rfl⟩

/-- A port's event writes LASTARG. -/
theorem portEvent_port (p : PortId) (kind : Nat) (arg : Word) (s : State) :
    (portEvent p kind arg s).port p = { s.port p with lastarg := arg } := by
  unfold portEvent
  dsimp only
  split <;> exact port_setPort_same ..

@[simp] theorem pushNewest_nframe (fin : Bool) (m : MFrame) (x : Port) : (pushNewest fin m x).nframe = x.nframe := by
  unfold pushNewest
  split <;> rfl

/-- A master's frame that is abandoned leaves the port in no frame, and does not count it. -/
theorem abandonFrame_port {p : PortId} {s : State} {m : MFrame} (h : (s.port p).mframe = some m) :
    ((abandonFrame p s).2.port p).mframe = none ∧ ((abandonFrame p s).2.port p).inframe = false ∧
      ((abandonFrame p s).2.port p).nframe = (s.port p).nframe := by
  unfold abandonFrame
  dsimp only
  rw [h]
  dsimp only
  generalize hflush : masterFlush p _ _ = u
  obtain ⟨rx, hport⟩ : ∃ rx, u.port p = _ := hflush ▸ masterFlush_port p _ _
  rw [hport, port_setPort_same]
  refine ⟨rfl, rfl, ?_⟩
  change (if _ then _ else _ : Port).nframe = _
  split_ifs <;> simp

/-! ## PORT -/

section
variable {c : CoreId} {i : Instr} {v : Inv} {s s' u : State} {f : UForm} {k : PortId}

/-- The port exists for the tenant, and PORTS is up. -/
def PortUp (s' : State) (t : Tid) (k : PortId) : Prop :=
  s'.may t (capPort k.val) = true ∧ s'.hasFailed .ports = false ∧ waitsFor .ports s' = none

/-- The packet decoder or the hive owns the port. -/
def PortOwned (s' : State) (k : PortId) : Prop :=
  (k.val = 0 ∧ s'.boot.mode = false ∧ s'.boot.testEn = false) ∨ (s'.port k).hive = true

theorem portOwned_iff : (hostOwns s' k || (s'.port k).hive) = true ↔ PortOwned s' k := by
  simp only [hostOwns, PortOwned, Bool.or_eq_true, Bool.and_eq_true, beq_iff_eq, Bool.not_eq_true', Fin.ext_iff, and_assoc]
  rfl

/-- An instruction of a port that is up: its body's answer, or that the port is owned, retires it. -/
theorem portInstr_retires {blk : Bool} {body : PortId → Tid → Regs → State → Ans} (hk : f.inst.toNat = k.val)
    (h : Begins c i v (ownFirst (portFirst k) s) s') (hup : PortUp s' v.tenant k)
    (hun : unusedZero (if blk then [f.rd, f.rb] else [f.rd, f.ra, f.rb]) = true)
    (hok : blk = true → blockOk v.tenant ((s'.regs c).rd f.ra).toNat 4 = true)
    (hmay : blk = true → blockMay s' v.tenant ((s'.regs c).rd f.ra).toNat 4 = true) {st : BitVec 8} {upd : Regs → Regs}
    {n : Nat} {banks : List Nat}
    (ha : (if hostOwns s' k || (s'.port k).hive then .status stState s' else body k v.tenant (s'.regs c) s') =
      Ans.mk st u upd n id true banks) :
    portInstr c i f blk body s = .next (retireUsing c v banks (ownFirst (portFirst k) s) st upd (s'.base + n) u) := by
  obtain ⟨hcap, hfail, hwait⟩ := hup
  have hn : UForm.num 3 f = k := unitNum_eq hk
  unfold portInstr
  simp only [hn]
  refine specInstr_answers h rfl ?_ ?_ hfail hwait rfl (a := { st := st, s := u, upd := upd, extra := n, banks := banks })
    ha rfl
  · simp only [unit_ok hk hun, orBlock_ok hok, Bool.and_self]
  · simp only [hk, hcap, orBlock_ok hmay, Bool.and_self]

/-- The packet decoder or the hive owns the port: ST_STATE, whatever the instruction (R354). -/
theorem portInstr_owned {blk : Bool} {body : PortId → Tid → Regs → State → Ans} (hk : f.inst.toNat = k.val)
    (h : Begins c i v (ownFirst (portFirst k) s) s') (hup : PortUp s' v.tenant k)
    (hun : unusedZero (if blk then [f.rd, f.rb] else [f.rd, f.ra, f.rb]) = true)
    (hok : blk = true → blockOk v.tenant ((s'.regs c).rd f.ra).toNat 4 = true)
    (hmay : blk = true → blockMay s' v.tenant ((s'.regs c).rd f.ra).toNat 4 = true) (how : PortOwned s' k) :
    portInstr c i f blk body s = .next (retire c v.tenant 0x10 id (s'.base + 0) s') :=
  (portInstr_retires hk h hup hun hok hmay (if_pos (portOwned_iff.mpr how))).trans
    (congrArg Host.Outcome.next (retireUsing_nil ..))

theorem portInstr_gives {body : PortId → Tid → Regs → State → Ans} (hk : f.inst.toNat = k.val)
    (h : Begins c i v (ownFirst (portFirst k) s) s') (hup : PortUp s' v.tenant k) (hd : f.rd = 0) (ha : f.ra = 0)
    (hb : f.rb = 0) (how : ¬ PortOwned s' k) {st : BitVec 8} {upd : Regs → Regs} {n : Nat}
    (hbody : body k v.tenant (s'.regs c) s' = { st := st, s := u, upd := upd, extra := n }) :
    portInstr c i f false body s = .next (retire c v.tenant st upd (s'.base + n) u) :=
  (portInstr_retires (blk := false) hk h hup (unusedZero_three hd ha hb) no_block no_block
    ((if_neg (fun hno => how (portOwned_iff.mp hno))).trans hbody)).trans (congrArg Host.Outcome.next (retireUsing_nil ..))

/-- The queues that a port names are its own (R356). -/
theorem portQueuesOk_iff : portQueuesOk s k = true ↔
    ((s.port k).txen = true → (s.queue (s.port k).txq).st ≠ .off ∧ (s.queue (s.port k).txq).cons = 1 ∧
      (s.queue (s.port k).txq).cinst = k.val) ∧
    ((s.port k).rxen = true → (s.queue (s.port k).rxq).st ≠ .off ∧ (s.queue (s.port k).rxq).prod = 3 ∧
      (s.queue (s.port k).rxq).pinst = k.val) := by
  unfold portQueuesOk txOurs rxOurs
  cases htx : (s.port k).txen <;> cases hrx : (s.port k).rxen <;> simp [htx, hrx, and_assoc]

end

/-- Settles O38: each instruction by what its body answers in each unit state. -/
theorem portInstructions : Obligations.PortInstructions := by
  unfold Obligations.PortInstructions
  intro c v s s' f k hk
  dsimp only
  refine ⟨fun h hup hd hb hok hmay hclean => ⟨fun hno => ?setNo, fun how hst => ?set⟩,
    fun h hup ⟨hd, ha, hb⟩ => ⟨fun hno => ?startNo, fun how hst hq => ?start, fun how hst hq => ?startBad⟩,
    fun h hup ⟨hd, ha, hb⟩ => ⟨fun hno => ?stopNo, fun how hst hm hf => ?stop, fun g how hst hm hf => ?stopSlave,
      fun m how hst hm => ?stopMaster⟩,
    fun h hup ⟨hd, ha, hb⟩ => ?clr⟩
  case setNo =>
    change execPortSet c f s = _
    by_cases how : PortOwned s' k
    · exact portInstr_owned (blk := true) hk h hup (unusedZero_two hd hb) (fun _ => hok) (fun _ => hmay) how
    · have hst := hno.resolve_left how
      exact (portInstr_retires (blk := true) hk h hup (unusedZero_two hd hb) (fun _ => hok) (fun _ => hmay)
        ((if_neg (fun hno => how (portOwned_iff.mp hno))).trans (inStates_out (atRest_not hst)))).trans
        (congrArg Host.Outcome.next (retireUsing_nil ..))
  case set =>
    change execPortSet c f s = _
    have howned : ¬ (hostOwns s' k || (s'.port k).hive) = true := fun hno => how (portOwned_iff.mp hno)
    split
    next hset =>
      exact portInstr_retires (blk := true) hk h hup (unusedZero_two hd hb) (fun _ => hok) (fun _ => hmay)
        ((if_neg howned).trans ((inStates_in (contains_two hst)).trans
          (withBlock_gives hclean (if_neg (by rw [hset]; exact Bool.false_ne_true)))))
    next hset =>
      exact portInstr_retires (blk := true) hk h hup (unusedZero_two hd hb) (fun _ => hok) (fun _ => hmay)
        ((if_neg howned).trans ((inStates_in (contains_two hst)).trans
          (withBlock_gives hclean (if_pos (by rw [Bool.eq_false_iff.mpr hset]; rfl)))))
  case startNo =>
    change execPortStart c f s = _
    by_cases how : PortOwned s' k
    · exact portInstr_owned (blk := false) hk h hup (unusedZero_three hd ha hb) no_block no_block how
    · exact portInstr_gives hk h hup hd ha hb how (inStates_out (contains_one_not (hno.resolve_left how)))
  case start =>
    change execPortStart c f s = _
    exact portInstr_gives hk h hup hd ha hb how ((inStates_in (contains_one hst)).trans
      (if_neg (by rw [portQueuesOk_iff.mpr hq]; exact Bool.false_ne_true)))
  case startBad =>
    change execPortStart c f s = _
    exact portInstr_gives hk h hup hd ha hb how ((inStates_in (contains_one hst)).trans
      (if_pos (by rw [Bool.eq_false_iff.mpr (fun hno => hq (portQueuesOk_iff.mp hno))]; rfl)))
  case stopNo =>
    change execPortStop c f s = _
    by_cases how : PortOwned s' k
    · exact portInstr_owned (blk := false) hk h hup (unusedZero_three hd ha hb) no_block no_block how
    · exact portInstr_gives hk h hup hd ha hb how (inStates_out (contains_one_not (hno.resolve_left how)))
  case stop =>
    change execPortStop c f s = _
    refine portInstr_gives hk h hup hd ha hb how ((inStates_in (contains_one hst)).trans ?_)
    simp only [hm, hf]; rfl
  case stopSlave =>
    change execPortStop c f s = _
    refine portInstr_gives hk h hup hd ha hb how ((inStates_in (contains_one hst)).trans ?_)
    simp only [hm, hf]; rfl
  case stopMaster =>
    obtain ⟨hnone, hframe, hcount⟩ := abandonFrame_port hm
    have hexec : execPortStop c f s = _ := portInstr_gives (st := 0) (upd := id) (n := 0) hk h hup hd ha hb how
      ((inStates_in (contains_one hst)).trans (by simp only [hm]; rfl))
    refine ⟨_, hexec, ?_⟩
    split
    · rw [portEvent_port, portEvent_mem, State.modPort, port_setPort_same]
      exact ⟨rfl, hnone, congrArg (· + 1) hcount, hframe, abandonFrame_snd_mem k s'⟩
    · rw [State.modPort, port_setPort_same]
      exact ⟨rfl, hnone, congrArg (· + 1) hcount, hframe, abandonFrame_snd_mem k s'⟩
  case clr =>
    change execPortClr c f s = _
    split
    next hst => exact portInstr_gives hk h hup hd ha hb hst.1 (inStates_in (contains_one hst.2))
    next hst =>
      by_cases how : PortOwned s' k
      · exact portInstr_owned (blk := false) hk h hup (unusedZero_three hd ha hb) no_block no_block how
      · exact portInstr_gives hk h hup hd ha hb how
          (inStates_out (contains_one_not (fun hheld => hst ⟨how, hheld⟩)))

/-! ## LINE -/

section
variable {c : CoreId} {i : Instr} {v : Inv} {s s' u : State} {f : UForm} {e : EngineId}

/-- The engine exists for the tenant, and LINE is up. -/
def LineUp (s' : State) (t : Tid) (e : EngineId) : Prop :=
  s'.may t (capLine e.val) = true ∧ s'.hasFailed .line = false ∧ waitsFor .line s' = none

/-- An instruction of a line engine: its body's answer, after the engine's own action of the clock, retires it. -/
theorem lineInstr_retires {unused : List (BitVec 4)} {blk : Bool} {body : EngineId → Regs → State → Ans}
    (hk : f.inst.toNat = e.val) (h : Begins c i v s s') (hup : LineUp s' v.tenant e) (hun : unusedZero unused = true)
    (hok : blk = true → blockOk v.tenant ((s'.regs c).rd f.ra).toNat 20 = true)
    (hmay : blk = true → blockMay s' v.tenant ((s'.regs c).rd f.ra).toNat 20 = true) {st : BitVec 8} {upd : Regs → Regs}
    {n : Nat} {banks : List Nat}
    (ha : body e (s'.regs c) (engineFirst e s') = { st := st, s := u, upd := upd, extra := n, banks := banks }) :
    lineInstr c i f unused blk body s = .next (retireUsing c v banks s st upd (s'.base + n) u) := by
  obtain ⟨hcap, hfail, hwait⟩ := hup
  have hn : UForm.num 8 f = e := unitNum_eq hk
  unfold lineInstr
  simp only [hn]
  refine specInstr_answers h rfl ?_ ?_ hfail hwait rfl (a := { st := st, s := u, upd := upd, extra := n, banks := banks })
    ha rfl
  · simp only [unit_ok hk hun, orBlock_ok hok, Bool.and_self]
  · simp only [hk, hcap, orBlock_ok hmay, Bool.and_self]

theorem lineInstr_gives {unused : List (BitVec 4)} {body : EngineId → Regs → State → Ans}
    (hk : f.inst.toNat = e.val) (h : Begins c i v s s') (hup : LineUp s' v.tenant e) (hun : unusedZero unused = true)
    {st : BitVec 8} {upd : Regs → Regs} {n : Nat}
    (ha : body e (s'.regs c) (engineFirst e s') = { st := st, s := u, upd := upd, extra := n }) :
    lineInstr c i f unused false body s = .next (retire c v.tenant st upd (s'.base + n) u) :=
  (lineInstr_retires hk h hup hun no_block no_block ha).trans (congrArg Host.Outcome.next (retireUsing_nil ..))

end

/-- Settles O40: each instruction by what its body answers in each unit state. -/
theorem lineInstructions : Obligations.LineInstructions := by
  unfold Obligations.LineInstructions
  intro c v s s' f e hk
  dsimp only
  refine ⟨fun h hup hd hb hok hmay hclean => ?load, fun h hup ⟨hd, ha, hb⟩ => ⟨fun hst => ?startNo, fun hst => ?start⟩,
    fun h hup ⟨hd, ha, hb⟩ => ⟨fun hst => ?stopNo, fun hst => ?stop⟩, fun h hup hd hb => ?tx, fun h hup ha hb => ?rx⟩
  case load =>
    change execLineLoad c f s = _
    split
    next hst =>
      exact (lineInstr_retires hk h hup (unusedZero_two hd hb) (fun _ => hok) (fun _ => hmay)
        (inStates_out (contains_two_not (not_or.mpr hst)))).trans (congrArg Host.Outcome.next (retireUsing_nil ..))
    next hst =>
      have hrest := contains_two (not_not.mp (fun hno => hst (not_or.mp hno)))
      split
      next hload =>
        exact lineInstr_retires hk h hup (unusedZero_two hd hb) (fun _ => hok) (fun _ => hmay) ((inStates_in hrest).trans
          (withBlock_gives hclean (if_neg (by rw [hload]; exact Bool.false_ne_true))))
      next hload =>
        exact lineInstr_retires hk h hup (unusedZero_two hd hb) (fun _ => hok) (fun _ => hmay) ((inStates_in hrest).trans
          (withBlock_gives hclean (if_pos (by rw [Bool.eq_false_iff.mpr hload]; rfl))))
  case startNo =>
    change execLineStart c f s = _
    exact lineInstr_gives hk h hup (unusedZero_three hd ha hb) (inStates_out (contains_one_not hst))
  case start =>
    have hexec : execLineStart c f s = _ :=
      lineInstr_gives hk h hup (unusedZero_three hd ha hb) (inStates_in (contains_one hst))
    refine ⟨_, hexec, ?_⟩
    rw [State.modEngine, engine_setEngine_same]
    refine ⟨rfl, rfl, ?_, rfl, rfl, rfl, rfl, rfl, rfl, rfl, rfl, rfl, rfl, ?_, ?_, rfl, rfl, rfl⟩
    · simp [Engine.entry, Engine.w, fieldOf]
    · apply BitVec.eq_of_toNat_eq; simp [Engine.w, fieldOf]
    · apply BitVec.eq_of_toNat_eq; simp [Engine.w, fieldOf]
  case stopNo =>
    change execLineStop c f s = _
    exact lineInstr_gives hk h hup (unusedZero_three hd ha hb) (inStates_out (contains_one_not hst))
  case stop =>
    have hexec : execLineStop c f s = _ :=
      lineInstr_gives hk h hup (unusedZero_three hd ha hb) (inStates_in (contains_one hst))
    refine ⟨_, hexec, ?_⟩
    rw [State.modEngine, engine_setEngine_same]
    exact ⟨rfl, rfl, rfl, rfl, fun q => rfl⟩
  case tx =>
    change execLineTx c f s = _
    split
    next hst => exact lineInstr_gives hk h hup (unusedZero_two hd hb) (inStates_out (contains_one_not hst))
    next hst =>
      have hrun := contains_one (not_not.mp hst)
      split
      next hfull => exact lineInstr_gives hk h hup (unusedZero_two hd hb) ((inStates_in hrun).trans (if_pos hfull))
      next hfull => exact lineInstr_gives hk h hup (unusedZero_two hd hb) ((inStates_in hrun).trans (if_neg hfull))
  case rx =>
    change execLineRx c f s = _
    split
    next hst => exact lineInstr_gives (n := 0) hk h hup (unusedZero_two ha hb) (inStates_out (contains_one_not hst))
    next hst =>
      have hrun := contains_one (not_not.mp hst)
      split
      next hempty =>
        exact lineInstr_gives (n := 0) hk h hup (unusedZero_two ha hb)
          ((inStates_in hrun).trans (if_pos (by rw [hempty]; rfl)))
      next hfull =>
        exact lineInstr_gives (n := 0) hk h hup (unusedZero_two ha hb)
          ((inStates_in hrun).trans (if_neg (by simpa using hfull)))

end Sys2Proof.Machine
end

section
/-!
PROOFS. The instructions of a line engine (spec/14_line_engines.md sections 14.4 to 14.6).
-/
namespace Sys2Proof.Machine

/-! ## Bits -/

theorem natOfBits_lt (f : Nat → Bool) (n : Nat) : natOfBits f n < 2 ^ n := by
  induction n with
  | zero => exact Nat.one_pos
  | succ n ih =>
    have hbit : bit01 (f n) ≤ 1 := by cases f n <;> decide
    have := Nat.mul_le_mul_right (2 ^ n) hbit
    rw [natOfBits, put, pow_succ]
    omega

theorem natOfBits_testBit (f : Nat → Bool) (n i : Nat) : (natOfBits f n).testBit i = (decide (i < n) && f i) := by
  induction n with
  | zero => simp [natOfBits]
  | succ n ih =>
    rw [natOfBits, put, Nat.add_comm, Nat.mul_comm, Nat.testBit_two_pow_mul_add _ (natOfBits_lt f n), ih]
    split
    next h => simp [h, Nat.lt_succ_of_lt h]
    next h =>
      rcases Nat.lt_or_ge n i with hi | hi
      · obtain ⟨d, hd⟩ : ∃ d, i - n = d + 1 := ⟨i - n - 1, by omega⟩
        rw [hd, Nat.testBit_succ, show ¬ i < n + 1 by omega |> decide_eq_false]
        cases f n <;> simp [bit01]
      · obtain rfl : i = n := by omega
        cases f i <;> simp [bit01]

theorem pinsByte_bit (x : Engine) (f : Nat → Bool) {k : Nat} (hk : k < x.icnt) (h8 : k < 8) :
    (pinsByte x f).getLsbD k = f k := by
  rw [pinsByte, BitVec.getLsbD_ofNat, natOfBits_testBit]
  simp [hk, h8]

/-- A pin that is set changes no other pin of the eight. -/
theorem setPin_bit (b : Byte) (j : Nat) (v : Bool) {i : Nat} (hi : i < 8) :
    (setPin b j v).getLsbD i = if i = j then v else b.getLsbD i := by
  unfold setPin
  by_cases h : i = j
  · subst h
    cases v <;> simp [hi]
  · have hne : j ≠ i := fun e => h e.symm
    cases v <;> simp [h, hne, hi, BitVec.getLsbD_twoPow]

theorem togglePin_bit (t : Option Nat) (b : Byte) {i : Nat} (hi : i < 8) (h : t ≠ some i) :
    (togglePin t b).getLsbD i = b.getLsbD i := by
  cases t with
  | none => rfl
  | some k =>
    have : i ≠ k := fun e => h (congrArg some e.symm)
    simp [togglePin, BitVec.getLsbD_twoPow, hi, this]

/-- The bit that SHIN shifts in, at the end of SR that the direction names. -/
theorem shiftedIn (lsb b : Bool) : (if lsb then (if b then 1 else 0 : Word) <<< 31 else if b then 1 else 0) =
    if b then BitVec.twoPow 32 (if lsb then 31 else 0) else 0 := by
  cases lsb <;> cases b <;> decide

/-! ## An engine's instruction -/

section
variable {s : State} {e : EngineId}

theorem engineGoes_of (h : s.running = true ∧ (s.engine e).st = .run ∧ (s.engine e).at_ ≤ s.time.clk) :
    engineGoes s e = true := by
  obtain ⟨hrun, hst, hat⟩ := h
  simp [engineGoes, hrun, hst, hat]

theorem engineGoes_not (h : (s.engine e).st ≠ .run ∨ s.running = false) : engineGoes s e = false := by
  rcases h with h | h <;> simp [engineGoes, h]

/-- An engine that runs and waits for nothing executes the instruction at its PC. -/
theorem engineRun_goes {k : EOp → Engine → State → State}
    (h : s.running = true ∧ (s.engine e).st = .run ∧ (s.engine e).at_ ≤ s.time.clk) (hw : (s.engine e).wait = .none) :
    engineRun e k s = .next (k (s.engine e).op (s.engine e) s) := by
  rw [engineRun, if_pos ⟨engineGoes_of h, hw⟩]

theorem engineRun_idle {k : EOp → Engine → State → State} (h : (s.engine e).st ≠ .run ∨ s.running = false) :
    engineRun e k s = .next s := by
  rw [engineRun, engineGoes_not h, if_neg (by simp)]

theorem engineDo_engine (x : Engine) : (engineDo e x s).engine e = x.advance s.time.clk := engine_setEngine_same ..

/-- An engine's pin action that comes up after MARK is late and counts NLATE (R400). -/
def Engine.late (x : Engine) (hive : Nat) : Engine :=
  { x with nlate := if x.timed = true ∧ x.mark ≤ hive then satInc x.nlate else x.nlate }

/-- In untimed mode, or once MARK is reached, a pin action executes at once. -/
theorem pinComesUp_now {op : EOp} {lv : Byte} {x : Engine} (h : x.timed = false ∨ x.mark ≤ s.time.hive) :
    pinComesUp e op lv x s = engineDo e (pinAction lv (x.late s.time.hive) op) s := by
  unfold pinComesUp Engine.late
  cases ht : x.timed with
  | false => rw [if_pos rfl, if_neg (by simp)]
  | true =>
    have hmark : x.mark ≤ s.time.hive := h.resolve_left (by simp [ht])
    rw [if_neg (by simp), if_pos hmark, if_pos ⟨rfl, hmark⟩]

/-- An output action executes in the clock that ends at the edge that reaches MARK. -/
theorem pinComesUp_edge {op : EOp} {lv : Byte} {x : Engine} (ht : x.timed = true) (hh : s.time.hive < x.mark)
    (hn : x.mark ≤ s.hiveNext) (ho : op.input = false) : pinComesUp e op lv x s = engineDo e (pinAction lv x op) s := by
  rw [pinComesUp, if_neg (by simp [ht]), if_neg (by omega), if_pos ⟨hn, ho⟩]

/-- Any other action of timed mode waits. -/
theorem pinComesUp_waits {op : EOp} {lv : Byte} {x : Engine} (ht : x.timed = true) (hh : s.time.hive < x.mark)
    (hn : s.hiveNext < x.mark ∨ op.input = true) :
    pinComesUp e op lv x s = s.setEngine e { x with wait := .timed, at_ := s.time.clk + 1 } := by
  rw [pinComesUp, if_neg (by simp [ht]), if_neg (by omega), if_neg]
  rintro ⟨hle, ho⟩
  rcases hn with hn | hn
  · omega
  · simp [ho] at hn

/-- The engine has gone on to its next instruction, with its mark and its count of late actions. -/
def PinDone (x : Engine) (clk : Nat) (late : BitVec 16) (y : Engine) : Prop :=
  y.pc = x.pc + 1 ∧ y.wait = .none ∧ y.at_ = clk + 1 ∧ y.st = .run ∧ y.mark = x.mark ∧ y.nlate = late

/-- A pin action leaves the engine's mark, its state and its counts. -/
theorem pinAction_done {x : Engine} (lv : Byte) (op : EOp) (clk : Nat) (hst : x.st = .run) :
    PinDone x clk x.nlate ((pinAction lv x op).advance clk) := by
  cases op
  case shout j lsbf t => cases lsbf <;> exact ⟨rfl, rfl, rfl, hst, rfl, rfl⟩
  all_goals exact ⟨rfl, rfl, rfl, hst, rfl, rfl⟩

end

/-! ## The pin actions -/

section
variable {s : State} {e : EngineId} {lv : Byte}

/-- What a pin action that executes now makes of the engine: with `n`, its count of late actions. -/
theorem pinAction_now {x : Engine} (lv : Byte) (op : EOp) (s : State) (hst : x.st = .run) (hw : x.wait = .none) :
    PinDone x s.time.clk (if x.timed = true ∧ x.wait = .none ∧ x.mark ≤ s.time.hive then satInc x.nlate else x.nlate)
      ((pinAction lv (x.late s.time.hive) op).advance s.time.clk) := by
  have h := pinAction_done (x := x.late s.time.hive) lv op s.time.clk hst
  rw [hw]
  simp only [true_and]
  exact h

/-- The same for an action that is not late. -/
theorem pinAction_timely {x : Engine} (lv : Byte) (op : EOp) (s : State) (hst : x.st = .run)
    (h : ¬ (x.timed = true ∧ x.wait = .none ∧ x.mark ≤ s.time.hive)) :
    PinDone x s.time.clk (if x.timed = true ∧ x.wait = .none ∧ x.mark ≤ s.time.hive then satInc x.nlate else x.nlate)
      ((pinAction lv x op).advance s.time.clk) := by
  rw [if_neg h]
  exact pinAction_done lv op s.time.clk hst

theorem engineRun_op {k : EOp → Engine → State → State} {op : EOp}
    (h : s.running = true ∧ (s.engine e).st = .run ∧ (s.engine e).at_ ≤ s.time.clk) (hw : (s.engine e).wait = .none)
    (hop : (s.engine e).op = op) : engineRun e k s = .next (k op (s.engine e) s) := by
  rw [engineRun_goes h hw, hop]

/-- A waiting action's clock has come: an input action's second clock after the edge that reaches MARK, an output
action's clock that ends at that edge (R400). -/
def timedDue (x : Engine) (s : State) : Bool :=
  if x.op.input then (match x.hit with | some c => decide (c + 2 ≤ s.time.clk) | none => false)
  else decide (x.mark ≤ s.hiveNext)

theorem execLeTimedAction_eq : execLeTimedAction e lv s = .next (
    if engineGoes s e = true ∧ (s.engine e).wait = .timed ∧ timedDue (s.engine e) s = true then
      engineDo e (pinAction (inLevels s e lv) (s.engine e) (s.engine e).op)
        (if (s.engine e).op.input then noteSeen e (inLevels s e lv) s else s)
    else s) := rfl

theorem timedDue_output {x : Engine} (h : x.op.input = false) : timedDue x s = decide (x.mark ≤ s.hiveNext) := by
  rw [timedDue, h]; rfl

theorem timedDue_input {x : Engine} (h : x.op.input = true) :
    timedDue x s = match x.hit with | some c => decide (c + 2 ≤ s.time.clk) | none => false := by
  rw [timedDue, h]; rfl

theorem exec_leTimedAction_due (h : s.running = true ∧ (s.engine e).st = .run ∧ (s.engine e).at_ ≤ s.time.clk)
    (hw : (s.engine e).wait = .timed) (hdue : timedDue (s.engine e) s = true) :
    exec (.leTimedAction e lv) s = .next (engineDo e (pinAction (inLevels s e lv) (s.engine e) (s.engine e).op)
      (if (s.engine e).op.input then noteSeen e (inLevels s e lv) s else s)) := by
  change execLeTimedAction e lv s = _
  rw [execLeTimedAction_eq, if_pos ⟨engineGoes_of h, hw, hdue⟩]

theorem exec_leTimedAction_waits (hdue : timedDue (s.engine e) s = false) : exec (.leTimedAction e lv) s = .next s := by
  change execLeTimedAction e lv s = _
  rw [execLeTimedAction_eq, if_neg (by simp [hdue])]

end

/-- Settles O41: each action by what it makes of the engine's pins and shift register. -/
theorem enginePins : Obligations.EnginePins := by
  unfold Obligations.EnginePins
  intro s e lv
  dsimp only
  refine ⟨fun h hw hop => ?halt, fun j oe b h hw hnow hop => ?drive, fun b h hw hnow hop => ?driveAll,
    fun n h hw hnow hop => ?sample, fun j lsb tg h hw hnow hop htg => ?shout, fun j lsb tg h hw hnow hop => ?shin,
    fun j oe b h hw ht hnext hh hop => ?driveWaits, fun j oe b h hw hop => ⟨fun hlate => ?notYet, fun hdue => ?edge⟩,
    fun j oe b h hw ht hh hdue hop => ?driveEdge, fun n h hw ht hh hop => ?sampleWaits,
    fun n h hw hop => ⟨fun hhit => ?noHit, fun k hhit hlate => ?hitNotYet, fun k hhit hdue => ?hit⟩,
    fun k hk h8 => ?levels, fun hno => ?idle⟩
  case halt =>
    have hexec : execLeHalt e s = _ := engineRun_op h hw hop
    refine ⟨_, hexec, rfl, ?_, ?_⟩
    · exact congrArg Engine.st (engine_setEngine_same ..)
    · rw [show ∀ t : State, (engineEvent e 2 (s.engine e).pc.toNat 0 t).engine e = t.engine e from fun _ => rfl,
        engine_setEngine_same]
      dsimp only
      split
      · exact .inr rfl
      · exact .inl rfl
  case drive =>
    have hexec : execLeDrive e s = _ := engineRun_op h hw hop
    refine ⟨_, hexec, ?_⟩
    dsimp only
    rw [pinComesUp_now hnow, engineDo_engine]
    exact ⟨pinAction_now 0 _ s h.2.1 hw, fun i hi => setPin_bit _ _ _ hi, fun i hi => setPin_bit _ _ _ hi, rfl⟩
  case driveAll =>
    have hexec : execLeDriveAll e s = _ := engineRun_op h hw hop
    refine ⟨_, hexec, ?_⟩
    dsimp only
    rw [pinComesUp_now hnow, engineDo_engine]
    exact ⟨pinAction_now 0 _ s h.2.1 hw, rfl, BitVec.toNat_ofNat _ _⟩
  case sample =>
    have hexec : execLeSample e lv s = _ := engineRun_op h hw hop
    refine ⟨_, hexec, ?_⟩
    dsimp only
    rw [pinComesUp_now (s := noteSeen e (inLevels s e lv) s) hnow, engineDo_engine]
    exact ⟨pinAction_now _ _ s h.2.1 hw, rfl, rfl, rfl⟩
  case shout =>
    have hexec : execLeShout e s = _ := engineRun_op h hw hop
    refine ⟨_, hexec, ?_⟩
    dsimp only
    rw [pinComesUp_now hnow, engineDo_engine]
    refine ⟨pinAction_now 0 _ s h.2.1 hw, ?_⟩
    cases lsb
    all_goals
      refine ⟨fun hj => ?_, rfl, rfl, fun i hi hne => ?_⟩
      · exact (togglePin_bit _ _ hj htg).trans ((setPin_bit _ _ _ hj).trans (if_pos rfl))
      · cases tg with
        | none => exact (setPin_bit _ _ _ hi).trans (if_neg hne)
        | some k => exact (BitVec.getLsbD_xor ..).trans ((congrArg (Bool.xor · _) ((setPin_bit _ _ _ hi).trans
            (if_neg hne))).trans (BitVec.getLsbD_xor ..).symm)
  case shin =>
    have hexec : execLeShin e lv s = _ := engineRun_op h hw hop
    refine ⟨_, hexec, ?_⟩
    dsimp only
    rw [pinComesUp_now (s := noteSeen e (inLevels s e lv) s) hnow, engineDo_engine]
    refine ⟨pinAction_now _ _ s h.2.1 hw, ?_, rfl, rfl⟩
    cases lsb
    · exact congrArg ((s.engine e).sr <<< 1 ||| ·) (shiftedIn false _)
    · exact congrArg ((s.engine e).sr >>> 1 ||| ·) (shiftedIn true _)
  case driveWaits =>
    have hexec : execLeDrive e s = _ := engineRun_op h hw hop
    exact hexec.trans (congrArg Host.Outcome.next (pinComesUp_waits ht hh (.inl hnext)))
  case notYet =>
    apply exec_leTimedAction_waits
    rw [timedDue_output (by rw [hop]; rfl)]
    exact decide_eq_false (by omega)
  case edge =>
    have hdo := exec_leTimedAction_due (lv := lv) h hw ((timedDue_output (by rw [hop]; rfl)).trans (decide_eq_true hdue))
    refine ⟨_, hdo, ?_⟩
    rw [hop, engineDo_engine]
    exact ⟨pinAction_timely _ _ s h.2.1 (by simp [hw]), fun i hi => setPin_bit _ _ _ hi⟩
  case driveEdge =>
    have hexec : execLeDrive e s = _ := engineRun_op h hw hop
    refine ⟨_, hexec, ?_⟩
    dsimp only
    rw [pinComesUp_edge ht hh hdue rfl, engineDo_engine]
    exact ⟨pinAction_timely _ _ s h.2.1 (by omega), fun i hi => setPin_bit _ _ _ hi⟩
  case sampleWaits =>
    have hexec : execLeSample e lv s = _ := engineRun_op h hw hop
    refine ⟨_, hexec, ?_⟩
    dsimp only
    rw [pinComesUp_waits (s := noteSeen e (inLevels s e lv) s) ht hh (.inr rfl), engine_setEngine_same]; rfl
  case noHit =>
    apply exec_leTimedAction_waits
    rw [timedDue_input (by rw [hop]; rfl), hhit]
  case hitNotYet =>
    apply exec_leTimedAction_waits
    rw [timedDue_input (by rw [hop]; rfl), hhit]
    exact decide_eq_false (by omega)
  case hit =>
    have hnow : timedDue (s.engine e) s = true := by
      rw [timedDue_input (by rw [hop]; rfl), hhit]
      exact decide_eq_true hdue
    refine ⟨_, exec_leTimedAction_due (lv := lv) h hw hnow, ?_⟩
    rw [hop, engineDo_engine]
    exact ⟨pinAction_timely _ _ s h.2.1 (by simp [hw]), rfl, rfl⟩
  case levels =>
    have hbit := pinsByte_bit (s.engine e) (fun k => levelSeen s ((s.engine e).inBall k) (lv.getLsbD k)) hk h8
    refine ⟨fun b hb => hbit.trans ?_, fun hb hs => hbit.trans ?_⟩
    · rw [levelSeen, Engine.inBall, hb]; rfl
    · rw [levelSeen, Engine.inBall, hb, hs]; rfl
  case idle =>
    have hgo : exec (.leTimedAction e lv) s = .next s := by
      change execLeTimedAction e lv s = _
      rw [execLeTimedAction_eq, engineGoes_not hno, if_neg (by simp)]
    simp only [List.forall_mem_cons, List.not_mem_nil, false_implies, implies_true, and_true]
    have hidle (k : EOp → Engine → State → State) : engineRun e k s = .next s := engineRun_idle hno
    exact ⟨by change execLeHalt e s = _; exact hidle _, by change execLeDrive e s = _; exact hidle _,
      by change execLeDriveAll e s = _; exact hidle _, by change execLeSample e lv s = _; exact hidle _,
      by change execLeShout e s = _; exact hidle _, by change execLeShin e lv s = _; exact hidle _, hgo⟩

end Sys2Proof.Machine
end

section
/-!
PROOFS. TAKE, GIVE, COUNT, STAMP, BRANCH and AWAIT of a line engine (spec/14_line_engines.md sections 14.4 and 14.6).
-/
namespace Sys2Proof.Machine

/-- The engine may execute in this clock. -/
def EngineGoes (s : State) (e : EngineId) : Prop := s.running = true ∧ (s.engine e).st = .run ∧ (s.engine e).at_ ≤ s.time.clk

/-- The engine has gone on to its next instruction, in the next clock. -/
def WentOn (x : Engine) (clk : Nat) (y : Engine) : Prop := y.pc = x.pc + 1 ∧ y.wait = .none ∧ y.at_ = clk + 1 ∧ y.st = .run

/-- The command completes and leaves the engine at its next instruction, with a property of the engine. -/
def EngineDid (s : State) (e : EngineId) (i : Instr) (Q : Engine → Prop) : Prop :=
  ∃ u, exec i s = .next u ∧ WentOn (s.engine e) s.time.clk (u.engine e) ∧ Q (u.engine e)

theorem wentOn_advance {x y : Engine} {clk : Nat} (hpc : y.pc = x.pc) (hst : y.st = .run) : WentOn x clk (y.advance clk) :=
  ⟨congrArg (· + 1) hpc, rfl, rfl, hst⟩

section
variable {s : State} {e : EngineId}

/-! ## TAKE -/

@[simp] theorem engineEvent_engine (d : EngineId) (kind pc pin : Nat) : (engineEvent d kind pc pin s).engine e = s.engine e := rfl

theorem takeInto_frame (d hive : Nat) (w : Word) (x : Engine) : (takeInto d hive w x).pc = x.pc ∧
    (takeInto d hive w x).st = x.st ∧ (takeInto d hive w x).thFull = x.thFull ∧ (takeInto d hive w x).nstale = x.nstale := by
  unfold takeInto
  split <;> exact ⟨rfl, rfl, rfl, rfl⟩

theorem takeFull_engine (ev : Bool) (d : Nat) (x : Engine) : (takeFull e ev d x s).engine e =
    (takeInto d s.time.hive x.th { x with thFull := false }).advance s.time.clk := by
  unfold takeFull
  cases ev <;> exact engine_setEngine_same ..

theorem setStale_engine (pc : Nat) :
    (setStale e pc s).engine e = { s.engine e with stale := true, nstale := satInc (s.engine e).nstale } := by
  unfold setStale
  dsimp only
  split <;> exact engine_setEngine_same ..

/-- What a TAKE that executes makes of the engine's registers. -/
def Took (d hive : Nat) (x y : Engine) : Prop :=
  y.sr = (takeInto d hive x.th x).sr ∧ y.sc = (takeInto d hive x.th x).sc ∧ y.c0 = (takeInto d hive x.th x).c0 ∧
    y.c1 = (takeInto d hive x.th x).c1 ∧ y.mark = (takeInto d hive x.th x).mark

theorem took_takeInto (d hive clk : Nat) (x : Engine) :
    Took d hive x ((takeInto d hive x.th { x with thFull := false }).advance clk) := by
  unfold Took takeInto
  split <;> exact ⟨rfl, rfl, rfl, rfl, rfl⟩

/-- A TAKE executes with TH full, goes on with STALE when it may, and else waits (R402, R403). -/
theorem takeTo_cases {i : Instr} {d : Nat} {Q : Engine → Prop} (hi : exec i s = engineRun e (takeTo d e) s)
    (hQ : ∀ y, Took d s.time.hive (s.engine e) y → Q y) (ev n : Bool) (h : EngineGoes s e ∧ (s.engine e).wait = .none)
    (hop : (s.engine e).op = .take ev n d) :
    ((s.engine e).thFull = true → EngineDid s e i (fun y => y.thFull = false ∧ y.nstale = (s.engine e).nstale ∧ Q y)) ∧
    ((s.engine e).thFull = false → n = true → EngineDid s e i (fun y =>
      y.thFull = false ∧ y.stale = true ∧ y.nstale = satInc (s.engine e).nstale ∧ Q y)) ∧
    ((s.engine e).thFull = false → n = false → exec i s = .next (s.setEngine e { s.engine e with
      wait := .stall, nstall := satInc (s.engine e).nstall, at_ := s.time.clk + 1 })) := by
  obtain ⟨hgoes, hw⟩ := h
  have hexec : exec i s = .next (takeComesUp e ev n d (s.engine e) s) := by
    rw [hi, engineRun_op hgoes hw hop, takeTo, if_pos rfl]
  obtain ⟨hpc, hst, hth, hstale⟩ := takeInto_frame d s.time.hive (s.engine e).th { s.engine e with thFull := false }
  have hrun := hst.trans hgoes.2.1
  have htook := took_takeInto d s.time.hive s.time.clk (s.engine e)
  refine ⟨fun hfull => ⟨_, hexec, ?_⟩, fun hfull hn => ⟨_, hexec, ?_⟩, fun hfull hn => ?_⟩
  · rw [takeComesUp, if_pos hfull, takeFull_engine]
    exact ⟨wentOn_advance hpc hrun, hth, hstale, hQ _ htook⟩
  · rw [takeComesUp, if_neg (by simp [hfull]), if_pos hn, setStale_engine, takeFull_engine]
    exact ⟨wentOn_advance (y := { takeInto d s.time.hive (s.engine e).th { s.engine e with thFull := false } with
      stale := true, nstale := _ }) hpc hrun, hth, rfl, congrArg satInc hstale, hQ _ htook⟩
  · rw [hexec, takeComesUp, if_neg (by simp [hfull]), if_neg (by simp [hn])]

/-- MARK.ABS writes a 64-bit instant whose low word is TH's (R397). -/
theorem markAbs_spec (hive : Nat) (w : Word) : markAbs hive w % 2 ^ 32 = w.toNat ∧ markAbs hive w < 2 ^ 64 := by
  have hw := w.isLt
  have hd := (w - toWord hive).isLt
  have hdiff : (w - toWord hive).toNat = (2 ^ 32 - hive % 2 ^ 32 + w.toNat) % 2 ^ 32 := by
    rw [BitVec.toNat_sub, toWord, BitVec.toNat_ofNat]
  unfold markAbs wrap64
  refine ⟨?_, Nat.mod_lt _ (by positivity)⟩
  split <;> omega

/-! ## GIVE -/

theorem giveClear_frame (d : Nat) (x : Engine) : (giveClear d x).pc = x.pc ∧ (giveClear d x).st = x.st ∧
    (giveClear d x).gh = x.gh ∧ (giveClear d x).ghFull = x.ghFull ∧ (giveClear d x).nstale = x.nstale := by
  unfold giveClear
  split <;> exact ⟨rfl, rfl, rfl, rfl, rfl⟩

theorem giveEmpty_engine (ev : Bool) (d : Nat) (x : Engine) : (giveEmpty e ev d x s).engine e =
    (giveClear d { x with gh := giveWord d x, ghFull := true }).advance s.time.clk := by
  unfold giveEmpty
  cases ev <;> exact engine_setEngine_same ..

/-- A GIVE executes with GH empty, goes on with STALE when it may, and else waits (R402, R403). -/
theorem giveFrom_cases {i : Instr} {d : Nat} {g : Word} (hi : exec i s = engineRun e (giveFrom d e) s)
    (hg : giveWord d (s.engine e) = g) (ev n : Bool) (h : EngineGoes s e ∧ (s.engine e).wait = .none)
    (hop : (s.engine e).op = .give ev n d) :
    ((s.engine e).ghFull = false → EngineDid s e i (fun y => y.ghFull = true ∧ y.gh = g ∧ (d = 0 → y.sr = 0 ∧ y.sc = 0) ∧
      (d ≠ 0 → y.sr = (s.engine e).sr))) ∧
    ((s.engine e).ghFull = true → n = true → EngineDid s e i (fun y =>
      y.gh = (s.engine e).gh ∧ y.stale = true ∧ y.nstale = satInc (s.engine e).nstale)) ∧
    ((s.engine e).ghFull = true → n = false → exec i s = .next (s.setEngine e { s.engine e with
      wait := .stall, nstall := satInc (s.engine e).nstall, at_ := s.time.clk + 1 })) := by
  obtain ⟨hgoes, hw⟩ := h
  have hexec : exec i s = .next (giveComesUp e ev n d (s.engine e) s) := by
    rw [hi, engineRun_op hgoes hw hop, giveFrom, if_pos rfl]
  refine ⟨fun hfull => ⟨_, hexec, ?_⟩, fun hfull hn => ⟨_, hexec, ?_⟩, fun hfull hn => ?_⟩
  · obtain ⟨hpc, hst, hgh, hghFull, -⟩ := giveClear_frame d { s.engine e with gh := giveWord d (s.engine e), ghFull := true }
    rw [giveComesUp, if_pos (by simp [hfull]), giveEmpty_engine]
    refine ⟨wentOn_advance hpc (hst.trans hgoes.2.1), hghFull, hgh.trans hg, fun hd => ?_, fun hd => ?_⟩
    · rw [giveClear, if_pos hd]; exact ⟨rfl, rfl⟩
    · rw [giveClear, if_neg hd]; rfl
  · obtain ⟨hpc, hst, hgh, -, hstale⟩ := giveClear_frame d (s.engine e)
    rw [giveComesUp, if_neg (by simp [hfull]), if_pos hn, setStale_engine, engine_setEngine_same]
    exact ⟨wentOn_advance (y := { giveClear d (s.engine e) with stale := true, nstale := _ }) hpc (hst.trans hgoes.2.1), hgh,
      rfl, congrArg satInc hstale⟩
  · rw [hexec, giveComesUp, if_neg (by simp [hfull]), if_neg (by simp [hn])]

/-- A waiting TAKE or GIVE executes when its register is in the required state (R402). -/
theorem exec_leStallEnd (h : EngineGoes s e) (hw : (s.engine e).wait = .stall) : exec (.leStallEnd e) s = .next (
    match (s.engine e).op with
    | .take ev _ dst => if (s.engine e).thFull then takeFull e ev dst (s.engine e) s else s
    | .give ev _ src => if (s.engine e).ghFull then s else giveEmpty e ev src (s.engine e) s
    | _ => s) := by
  change execLeStallEnd e s = _
  exact congrArg Host.Outcome.next (if_pos ⟨engineGoes_of h, hw⟩)

/-! ## COUNT and STAMP -/

/-- A COUNT changes the counter that it names, as its operation says (R397). -/
theorem countBy_done {i : Instr} {d : Nat} {g : Nat → BitVec 16 → Nat} (hi : exec i s = engineRun e (countBy d e) s)
    (hg : ∀ imm c, (countOp d imm c).toNat = g imm c) (k : Bool) (imm : Nat)
    (h : EngineGoes s e ∧ (s.engine e).wait = .none) (hop : (s.engine e).op = .count k d imm) :
    EngineDid s e i (fun y =>
      (k = false → y.c0.toNat = g imm (s.engine e).c0 ∧ y.c1 = (s.engine e).c1) ∧
      (k = true → y.c1.toNat = g imm (s.engine e).c1 ∧ y.c0 = (s.engine e).c0)) := by
  obtain ⟨hgoes, hw⟩ := h
  refine ⟨_, by rw [hi, engineRun_op hgoes hw hop, countBy, if_pos rfl], ?_⟩
  rw [engineDo_engine]
  cases k
  · exact ⟨wentOn_advance rfl hgoes.2.1, fun _ => ⟨hg .., rfl⟩, fun hno => absurd hno Bool.false_ne_true⟩
  · exact ⟨wentOn_advance rfl hgoes.2.1, fun hno => absurd hno.symm Bool.false_ne_true, fun _ => ⟨hg .., rfl⟩⟩

theorem satInc_16 (c : BitVec 16) : (satInc c).toNat = min (c.toNat + 1) 65535 := by
  unfold satInc
  split
  next h => subst h; rfl
  next h =>
    have hne : c.toNat ≠ 65535 := fun e => h (BitVec.eq_of_toNat_eq e)
    have := c.isLt
    rw [BitVec.toNat_add, show (1 : BitVec 16).toNat = 1 from rfl]
    omega

theorem satAdd_16_toNat (c : BitVec 16) (n : Nat) : (satAdd c n).toNat = min (c.toNat + n) 65535 := by
  rw [satAdd_16, BitVec.toNat_ofNat]
  omega

theorem countDec_toNat (imm : Nat) (c : BitVec 16) : (countOp 2 imm c).toNat = c.toNat - 1 := by
  rw [countOp]
  split
  next h => subst h; rfl
  next h =>
    have hne : c.toNat ≠ 0 := fun e => h (BitVec.eq_of_toNat_eq e)
    have := c.isLt
    rw [BitVec.toNat_sub, show (1 : BitVec 16).toNat = 1 from rfl]
    omega

/-- A STAMP writes MARK (Table 14.4). -/
theorem stampBy_done {i : Instr} {d : Nat} {g : Nat → Nat} (hi : exec i s = engineRun e (stampBy d e) s)
    (hg : ∀ imm, stampMark d imm s.time.hive (s.engine e) = g imm) (imm : Nat)
    (h : EngineGoes s e ∧ (s.engine e).wait = .none) (hop : (s.engine e).op = .stamp d imm) :
    EngineDid s e i (fun y => y.mark = g imm ∧ y.sr = (s.engine e).sr) := by
  obtain ⟨hgoes, hw⟩ := h
  refine ⟨_, by rw [hi, engineRun_op hgoes hw hop, stampBy, if_pos rfl], ?_⟩
  rw [engineDo_engine]
  exact ⟨wentOn_advance rfl hgoes.2.1, hg imm, rfl⟩

/-! ## AWAIT -/

/-- The edge on its input pin that an AWAIT is for (Table 14.5). -/
def AwaitEdge (s : State) (e : EngineId) (pv lv : Byte) (n j : Nat) : Prop :=
  (n = 1 ∧ (inBefore s e pv).getLsbD j = false ∧ (inLevels s e lv).getLsbD j = true) ∨
    (n = 2 ∧ (inBefore s e pv).getLsbD j = true ∧ (inLevels s e lv).getLsbD j = false)

/-- The condition that an AWAIT is for, where it is no edge (Table 14.5). -/
def AwaitOther (s : State) (e : EngineId) (lv : Byte) (n j : Nat) : Prop :=
  (n = 0 ∧ (s.engine e).mark ≤ s.time.hive) ∨ (n = 3 ∧ (inLevels s e lv).getLsbD j = true) ∨
    (n = 4 ∧ (inLevels s e lv).getLsbD j = false) ∨ (n = 5 ∧ (s.engine e).thFull = true) ∨
    (n = 6 ∧ (s.engine e).ghFull = false)

theorem awaitHolds_iff (pv lv : Byte) (n j : Nat) {x : Engine} (hmark : x.mark = (s.engine e).mark)
    (hth : x.thFull = (s.engine e).thFull) (hgh : x.ghFull = (s.engine e).ghFull) (hn : n ≤ 6) :
    awaitHolds n j s.time.hive (inBefore s e pv) (inLevels s e lv) x = true ↔
      AwaitEdge s e pv lv n j ∨ AwaitOther s e lv n j := by
  unfold AwaitEdge AwaitOther
  obtain rfl | rfl | rfl | rfl | rfl | rfl | rfl : n = 0 ∨ n = 1 ∨ n = 2 ∨ n = 3 ∨ n = 4 ∨ n = 5 ∨ n = 6 := by omega
  all_goals simp [awaitHolds, hmark, hth, hgh]

/-- One clock of an AWAIT: it ends on its condition, an edge setting EDGT, or with T at MARK; else it waits on (R391,
R398). -/
theorem awaitPins_ends {i : Instr} {n j : Nat} {t : Bool} {pv lv : Byte} {x : Engine}
    (hexec : exec i s = .next (awaitPins e n j t pv lv x s)) (hst : x.st = .run) (hpc : x.pc = (s.engine e).pc)
    (hedgt : x.edgt = (s.engine e).edgt) (hmark : x.mark = (s.engine e).mark) (hth : x.thFull = (s.engine e).thFull)
    (hgh : x.ghFull = (s.engine e).ghFull) :
    (AwaitEdge s e pv lv n j → EngineDid s e i (fun y => y.edgt = (s.time.hive + 2 ^ 64 - 2 * s.inc) % 2 ^ 64)) ∧
    (AwaitOther s e lv n j → EngineDid s e i (fun y => y.edgt = (s.engine e).edgt)) ∧
    (n ≤ 6 → ¬ AwaitEdge s e pv lv n j → ¬ AwaitOther s e lv n j → t = true → (s.engine e).mark ≤ s.time.hive →
      EngineDid s e i (fun y => y.tmo = true ∧ y.edgt = (s.engine e).edgt)) ∧
    (n ≤ 6 → ¬ AwaitEdge s e pv lv n j → ¬ AwaitOther s e lv n j → (t = false ∨ s.time.hive < (s.engine e).mark) →
      ∃ u, exec i s = .next u ∧ (u.engine e).pc = (s.engine e).pc ∧ (u.engine e).wait = .await) := by
  have hw (w : State) (hw : w = s ∨ w = noteSeen e (inLevels s e lv) s) : w.time = s.time ∧ w.inc = s.inc := by
    rcases hw with rfl | rfl <;> exact ⟨rfl, rfl⟩
  rw [awaitPins] at hexec
  generalize hseen : (if 1 ≤ n ∧ n ≤ 4 then noteSeen e (inLevels s e lv) s else s) = w at hexec
  obtain ⟨htime, hinc⟩ := hw w (by rw [← hseen]; split <;> simp)
  rw [awaitClock, htime, hinc] at hexec
  refine ⟨fun hedge => ?_, fun hother => ?_, fun hn hedge hother ht hle => ?_, fun hn hedge hother hlate => ?_⟩
  · have hn : n = 1 ∨ n = 2 := hedge.imp And.left And.left
    rw [if_pos ((awaitHolds_iff pv lv n j hmark hth hgh (by omega)).mpr (.inl hedge)), if_pos hn] at hexec
    refine ⟨_, hexec, ?_⟩
    rw [engine_setEngine_same]
    exact ⟨wentOn_advance hpc hst, rfl⟩
  · have hn : n ≤ 6 ∧ ¬ (n = 1 ∨ n = 2) := by unfold AwaitOther at hother; omega
    rw [if_pos ((awaitHolds_iff pv lv n j hmark hth hgh hn.1).mpr (.inr hother)), if_neg hn.2] at hexec
    refine ⟨_, hexec, ?_⟩
    rw [engine_setEngine_same]
    exact ⟨wentOn_advance hpc hst, hedgt⟩
  · rw [if_neg (fun hno => ((awaitHolds_iff pv lv n j hmark hth hgh hn).mp hno).elim hedge hother),
      if_pos ⟨ht, hmark ▸ hle⟩] at hexec
    refine ⟨_, hexec, ?_⟩
    rw [engine_setEngine_same]
    exact ⟨wentOn_advance hpc hst, rfl, hedgt⟩
  · have hnot : ¬ (t = true ∧ x.mark ≤ s.time.hive) := by
      rw [hmark]
      rintro ⟨ht, hle⟩
      rcases hlate with hlate | hlate
      · exact Bool.false_ne_true (hlate ▸ ht)
      · omega
    rw [if_neg (fun hno => ((awaitHolds_iff pv lv n j hmark hth hgh hn).mp hno).elim hedge hother), if_neg hnot] at hexec
    refine ⟨_, hexec, ?_⟩
    rw [engine_setEngine_same]
    exact ⟨hpc, rfl⟩

/-! ## BRANCH -/

/-- A BRANCH's condition (Table 14.5). -/
theorem branchHolds_iff (lv : Byte) (n j : Nat) (x : Engine) (hn : n ≤ 9) : branchHolds n j lv x = true ↔
    (n = 0 ∨ (n = 1 ∧ x.c0 ≠ 0) ∨ (n = 2 ∧ x.c1 ≠ 0) ∨ (n = 3 ∧ lv.getLsbD j = true) ∨ (n = 4 ∧ lv.getLsbD j = false) ∨
      (n = 5 ∧ x.sc = 0) ∨ (n = 6 ∧ x.sc = 32) ∨ (n = 7 ∧ x.thFull = true) ∨ (n = 8 ∧ x.ghFull = false) ∨
      (n = 9 ∧ x.tmo = true)) := by
  obtain rfl | rfl | rfl | rfl | rfl | rfl | rfl | rfl | rfl | rfl :
      n = 0 ∨ n = 1 ∨ n = 2 ∨ n = 3 ∨ n = 4 ∨ n = 5 ∨ n = 6 ∨ n = 7 ∨ n = 8 ∨ n = 9 := by omega
  all_goals simp [branchHolds]

end

/-- Settles O42: TAKE, GIVE, COUNT, STAMP and AWAIT by the lemma of their group. -/
theorem engineMoves : Obligations.EngineMoves := by
  unfold Obligations.EngineMoves
  intro s e pv lv x h goes runs on did took gave counted stamped was pins ends
  refine ⟨?sr, ?c, ?add, ?abs, giveFrom_cases (s := s) (i := .leGiveSr e) rfl rfl, giveFrom_cases (s := s) (i := .leGiveC e) rfl rfl,
    giveFrom_cases (s := s) (i := .leGiveMarkLo e) rfl rfl, giveFrom_cases (s := s) (i := .leGiveMarkHi e) rfl rfl,
    fun ev n d hgo hw hop => ⟨fun hno => ?takeWaits, fun hfull => ?takeEnds⟩,
    fun ev n d hgo hw hop => ⟨fun hno => ?giveWaits, fun hempty => ?giveEnds⟩, ?load, ?inc, ?dec, ?cadd,
    stampBy_done (s := s) (i := .leStampNow e) rfl fun imm => rfl, stampBy_done (s := s) (i := .leStampEdge e) rfl fun imm => rfl,
    ?addi, ?addc1, stampBy_done (s := s) (i := .leStampAddsr e) rfl fun imm => rfl, ?addc0,
    fun n j t hrun hop => ?branch, fun n t j hrun hop => ?await, fun n t j hgo hw hop => ?awaitEnd⟩
  case sr =>
    exact takeTo_cases (s := s) (e := e) (i := .leTakeSr e) (d := 0) (Q := fun y => y.sr = x.th ∧ y.sc = 32) rfl
      fun y hy => ⟨hy.1, hy.2.1⟩
  case c =>
    refine takeTo_cases (s := s) (e := e) (i := .leTakeC e) (d := 1)
      (Q := fun y => y.c0.toNat = x.th.toNat % 65536 ∧ y.c1.toNat = x.th.toNat / 65536) rfl
      fun y ⟨_, _, hc0, hc1, _⟩ => ⟨?_, ?_⟩
    · rw [hc0]; exact BitVec.toNat_ofNat ..
    · rw [hc1]; refine (BitVec.toNat_ofNat ..).trans (Nat.mod_eq_of_lt ?_)
      have := x.th.isLt
      omega
  case add =>
    exact takeTo_cases (s := s) (e := e) (i := .leTakeMarkAdd e) (d := 2)
      (Q := fun y => y.mark = (x.mark + x.th.toNat) % 2 ^ 64) rfl fun y hy => hy.2.2.2.2
  case abs =>
    refine takeTo_cases (s := s) (e := e) (i := .leTakeMarkAbs e) (d := 3)
      (Q := fun y => y.mark % 2 ^ 32 = x.th.toNat ∧ y.mark < 2 ^ 64) rfl fun y hy => ?_
    rw [hy.2.2.2.2]
    exact markAbs_spec ..
  case load =>
    exact countBy_done (s := s) (e := e) (i := .leCountLoad e) (d := 0) (g := fun imm _ => imm % 2 ^ 16) rfl
      fun imm c => BitVec.toNat_ofNat ..
  case inc =>
    exact countBy_done (s := s) (e := e) (i := .leCountInc e) (d := 1) (g := fun _ c => min (c.toNat + 1) 65535) rfl
      fun imm c => satInc_16 c
  case dec =>
    exact countBy_done (s := s) (e := e) (i := .leCountDec e) (d := 2) (g := fun _ c => c.toNat - 1) rfl
      fun imm c => countDec_toNat imm c
  case cadd =>
    exact countBy_done (s := s) (e := e) (i := .leCountAdd e) (d := 3) (g := fun imm c => min (c.toNat + imm) 65535) rfl
      fun imm c => satAdd_16_toNat c imm
  case addi =>
    refine stampBy_done (s := s) (e := e) (i := .leStampAddi e) (d := 2) (g := fun imm => (x.mark + 24 * imm) % 2 ^ 64) rfl
      fun imm => ?_
    rw [Nat.mul_comm 24]; rfl
  case addc1 =>
    refine stampBy_done (s := s) (e := e) (i := .leStampAddc1 e) (d := 3)
      (g := fun imm => (x.mark + 192 * x.c1.toNat) % 2 ^ 64) rfl fun imm => ?_
    rw [Nat.mul_comm 192]; rfl
  case addc0 =>
    refine stampBy_done (s := s) (e := e) (i := .leStampAddc0 e) (d := 5)
      (g := fun imm => (x.mark + 24 * x.c0.toNat) % 2 ^ 64) rfl fun imm => ?_
    rw [Nat.mul_comm 24]; rfl
  case takeWaits =>
    rw [exec_leStallEnd hgo hw, hop]
    exact congrArg Host.Outcome.next (if_neg (fun hfull => Bool.false_ne_true (hno.symm.trans hfull)))
  case takeEnds =>
    have hexec := exec_leStallEnd hgo hw
    rw [hop] at hexec
    refine ⟨_, hexec, ?_⟩
    obtain ⟨hpc, hst, hth, -⟩ := takeInto_frame d s.time.hive x.th { x with thFull := false }
    dsimp only
    rw [if_pos hfull, takeFull_engine]
    refine ⟨wentOn_advance hpc (hst.trans hgo.2.1), hth, fun hd => ?_⟩
    subst hd; rfl
  case giveWaits =>
    rw [exec_leStallEnd hgo hw, hop]
    exact congrArg Host.Outcome.next (if_pos hno)
  case giveEnds =>
    have hexec := exec_leStallEnd hgo hw
    rw [hop] at hexec
    refine ⟨_, hexec, ?_⟩
    obtain ⟨hpc, hst, hgh, hghFull, -⟩ := giveClear_frame d { x with gh := giveWord d x, ghFull := true }
    dsimp only
    rw [if_neg (fun hfull => Bool.false_ne_true (hempty.symm.trans hfull)), giveEmpty_engine]
    refine ⟨wentOn_advance hpc (hst.trans hgo.2.1), hghFull, fun hd => hgh.trans ?_⟩
    subst hd; rfl
  case branch =>
    intro yes hn
    have hexec : execLeBranch e lv s = _ := engineRun_op hrun.1 hrun.2 hop
    refine ⟨_, hexec, ?_⟩
    dsimp only
    rw [engine_setEngine_same]
    have hiff := branchHolds_iff (inLevels s e lv) n j (s.engine e) hn
    exact ⟨rfl, fun hy => if_pos (hiff.mpr hy), fun hy => if_neg (fun hno => hy (hiff.mp hno)), rfl, rfl⟩
  case await =>
    have hexec : execLeAwait e pv lv s = _ := engineRun_op hrun.1 hrun.2 hop
    exact awaitPins_ends (s := s) (i := .leAwait e pv lv) hexec hrun.1.2.1 rfl rfl rfl rfl rfl
  case awaitEnd =>
    have hexec : execLeAwaitEnd e pv lv s = .next (awaitPins e n j t pv lv (s.engine e) s) := by
      refine (congrArg Host.Outcome.next (if_pos ⟨engineGoes_of hgo, hw⟩)).trans ?_
      rw [hop]
    exact awaitPins_ends (s := s) (i := .leAwaitEnd e pv lv) hexec hgo.2.1 rfl rfl rfl rfl rfl

end Sys2Proof.Machine
end

section
/-!
PROOFS. The journal's instructions (spec/16_journal_flash.md sections 16.2, 16.5, 16.6 and 16.9).
-/
namespace Sys2Proof.Machine

/-! ## What the journal instructions share -/

section
variable {c : CoreId} {i : Instr} {v : Inv} {s s' u : State}

/-- The journal and its flash are up; a scan does not stall an instruction (R155). -/
def JournalUp (s' : State) : Prop :=
  s'.hasFailed .journal = false ∧ s'.hasFailed .flash = false ∧ s'.journal.st ≠ .fault ∧
    (s'.journal.st = .held ∨ waitsFor .journal s' = none)

/-- An instruction of the journal that need not wait for a read of flash: its body's answer, the flash touched, retires
it. -/
theorem journalInstr_retires {o2 o3 : Tid → Regs → State → Bool} {reads : Regs → State → Option (Nat × Nat)}
    {body : Tid → Regs → State → Ans} (h : Begins c i v (ownFirst journalFirst s) s') (hup : JournalUp s')
    (h2 : o2 v.tenant (s'.regs c) s' = true) (h3 : o3 v.tenant (s'.regs c) s' = true)
    (hserved : reads (s'.regs c) s' = none ∨ s'.journal.op = none) {st : BitVec 8} {upd : Regs → Regs} {n : Nat}
    {banks : List Nat}
    (ha : body v.tenant (s'.regs c) (flashTouch s') = { st := st, s := u, upd := upd, extra := n, banks := banks }) :
    journalInstr c i o2 o3 reads body s = .next (retireUsing c v banks (ownFirst journalFirst s) st upd (s'.base + n) u) := by
  obtain ⟨hjf, hff, hst, hwait⟩ := hup
  unfold journalInstr
  refine specInstr_answers h rfl h2 h3 ?_ ?_ ?_ (a := { st := st, s := u, upd := upd, extra := n, banks := banks }) ha rfl
  · simp only [hjf, hff, Bool.or_false, Bool.false_or]
    exact beq_eq_false_iff_ne.mpr hst
  · dsimp only
    split
    · rfl
    next hh => exact hwait.resolve_left hh
  · rw [readWaits]
    dsimp only
    split
    next off n hr =>
      have hop : s'.journal.op = none := hserved.resolve_left (by rw [hr]; exact Option.some_ne_none _)
      rw [flashServed, hop]; rfl
    · rfl

theorem journalInstr_gives {o2 o3 : Tid → Regs → State → Bool} {reads : Regs → State → Option (Nat × Nat)}
    {body : Tid → Regs → State → Ans} (h : Begins c i v (ownFirst journalFirst s) s') (hup : JournalUp s')
    (h2 : o2 v.tenant (s'.regs c) s' = true) (h3 : o3 v.tenant (s'.regs c) s' = true)
    (hserved : reads (s'.regs c) s' = none ∨ s'.journal.op = none) {st : BitVec 8} {upd : Regs → Regs} {n : Nat}
    (ha : body v.tenant (s'.regs c) (flashTouch s') = { st := st, s := u, upd := upd, extra := n }) :
    journalInstr c i o2 o3 reads body s = .next (retire c v.tenant st upd (s'.base + n) u) :=
  (journalInstr_retires h hup h2 h3 hserved ha).trans (congrArg Host.Outcome.next (retireUsing_nil ..))

theorem journalUnit_ok {f : UForm} {unused : List (BitVec 4)} (hf : f.inst = 0) (hun : unusedZero unused = true) :
    unitOk 1 f unused = true := by
  rw [unitOk, hf, hun]; rfl

theorem journalStates_ready {b : Bool} {a : Ans} (h : s.journal.st = .ready) : journalStates b s a = a := by
  rw [journalStates, h]

theorem journalStates_off {b : Bool} {a : Ans} (h : s.journal.st = .off) : journalStates b s a = .status stState s := by
  rw [journalStates, h]

theorem journalStates_held {b : Bool} {a : Ans} (h : s.journal.st = .held) : journalStates b s a = .status stBusy s := by
  rw [journalStates, h]

theorem journalStates_busy {a : Ans} (h : s.journal.st = .run ∨ s.journal.st = .held) :
    journalStates false s a = .status stBusy s := by
  rcases h with h | h <;> rw [journalStates, h] <;> rfl

/-- JGET alone passes while an operation runs. -/
theorem journalStates_reads {a : Ans} (h : s.journal.st = .ready ∨ s.journal.st = .run) : journalStates true s a = a := by
  rcases h with h | h <;> rw [journalStates, h] <;> rfl

/-- A journal that has not failed and is neither in OFF nor busy is READY. -/
theorem journalReady_of (hup : JournalUp s) (hoff : s.journal.st ≠ .off)
    (hbusy : ¬ (s.journal.st = .run ∨ s.journal.st = .held)) : s.journal.st = .ready := by
  have hfault := hup.2.2.1
  revert hoff hbusy hfault
  cases s.journal.st <;> simp

end

/-! ## JPUT, JCOMMIT and JGET -/

/-- JPUT's record fits the gather buffer, the projection and the key limit (R463). -/
theorem gatherFits_iff {j : JournalSt} {key len : Nat} : gatherFits j key len = true ↔
    gatherBytes j.gather + recSize len ≤ 2048 ∧ j.live + gatherBytes j.gather + recSize len ≤ j.cap ∧ j.keys key ≤ 508 := by
  simp only [gatherFits, Bool.and_eq_true, decide_eq_true_eq, and_assoc]

/-- A place for a group of records changes neither the index, nor the gather buffer, nor any memory. -/
theorem placeGroup_frame {n : Nat} {s u : State} {p : Nat × Nat} {pre : List JStep} (h : placeGroup n s = some (p, pre, u)) :
    u.mem = s.mem ∧ u.journal.index = s.journal.index ∧ u.journal.gather = s.journal.gather := by
  unfold placeGroup at h
  dsimp only at h
  split at h
  · cases h; exact ⟨rfl, rfl, rfl⟩
  · split at h
    · cases h
    · cases h; exact ⟨rfl, rfl, rfl⟩

/-- A commit starts with the records of its tenant, and no record is visible yet (R465). -/
theorem startCommit_spec (t : Tid) (stop : Bool) (s : State) : (startCommit t stop s).journal.st = .run ∧
    (startCommit t stop s).mem = s.mem ∧ (startCommit t stop s).journal.index = s.journal.index ∧
    (startCommit t stop s).journal.gather = s.journal.gather ∧
    ∃ o, (startCommit t stop s).journal.op = some o ∧ o.kind = .commit stop ∧ o.ten = t ∧ o.susp = none := by
  unfold startCommit
  dsimp only
  split
  next p pre u hplace =>
    obtain ⟨hmem, hindex, hgather⟩ := placeGroup_frame hplace
    exact ⟨rfl, hmem, hindex, hgather, _, rfl, rfl, rfl, rfl⟩
  · exact ⟨rfl, rfl, rfl, rfl, _, rfl, rfl, rfl, rfl⟩

/-- A word's field of eleven bits above its low half, and its low half (R92). -/
theorem fieldOf_26_16 (w : Word) : fieldOf w 26 16 = w.toNat / 2 ^ 16 % 2 ^ 11 := rfl

theorem fieldOf_15_0 (w : Word) : fieldOf w 15 0 = w.toNat % 2 ^ 16 := field0_mod w 15

/-- The words of a JPUT's data. -/
def putWords (b : Word) : Nat := if fieldOf b 26 16 ≤ 1024 then (fieldOf b 26 16 + 3) / 4 else 0

section
variable {c : CoreId} {v : Inv} {s s' u : State} {f : UForm}

theorem noneOr_block {n : Nat} {p : Bool} (h : n = 0 ∨ p = true) : (n == 0 || p) = true := by
  rcases h with h | h <;> simp [h]

theorem exec_jput (hf : f.inst = 0) (h : Begins c (.jput c f) v (ownFirst journalFirst s) s') (hup : JournalUp s')
    (hd : f.rd = 0) (hcap : s'.may v.tenant (capJw (fieldOf ((s'.regs c).rd f.rb) 15 0)) = true)
    (hblk : putWords ((s'.regs c).rd f.rb) = 0 ∨
      blockOk v.tenant ((s'.regs c).rd f.ra).toNat (putWords ((s'.regs c).rd f.rb)) = true ∧
      blockMay s' v.tenant ((s'.regs c).rd f.ra).toNat (putWords ((s'.regs c).rd f.rb)) = true) {st : BitVec 8}
    {n : Nat} {banks : List Nat}
    (ha : journalStates false (flashTouch s') (if 1024 < fieldOf ((s'.regs c).rd f.rb) 26 16 then .status stRange (flashTouch s')
      else withBlock ((s'.regs c).rd f.ra).toNat (putWords ((s'.regs c).rd f.rb)) (flashTouch s') (fun ws s =>
        if fieldOf ((s'.regs c).rd f.rb) 15 0 = 0xFFFF ∨
            gatherFits s.journal (fieldOf ((s'.regs c).rd f.rb) 15 0) (fieldOf ((s'.regs c).rd f.rb) 26 16) = false then
          .status stRange s (putWords ((s'.regs c).rd f.rb))
        else .ok (s.modJ (fun j => { j with
          gather := j.gather ++ [⟨v.tenant, fieldOf ((s'.regs c).rd f.rb) 15 0,
            (bytesOfWords ws).take (fieldOf ((s'.regs c).rd f.rb) 26 16), false⟩] })) (putWords ((s'.regs c).rd f.rb)))) =
      { st := st, s := u, extra := n, banks := banks }) :
    exec (.jput c f) s = .next (retireUsing c v banks (ownFirst journalFirst s) st id (s'.base + n) u) := by
  change execJput c f s = _
  unfold execJput
  dsimp only
  refine journalInstr_retires h hup ?_ ?_ (.inl rfl) ha
  · exact Bool.and_eq_true_iff.mpr ⟨journalUnit_ok hf (unusedZero_one hd), noneOr_block (hblk.imp id And.left)⟩
  · exact Bool.and_eq_true_iff.mpr ⟨hcap, noneOr_block (hblk.imp id And.right)⟩

/-- What JGET answers, of the entry that its key names. -/
def getBody (d : BitVec 4) (b lim : Nat) (e : Option JEnt) (s : State) : Ans :=
  match e with
  | none => .val d 0xFFFFFFFF s
  | some e =>
    let o := s.journal.base * 4096 + e.off
    let lines := recLines o e.len * fillClks s.level.cur
    if lim < e.len then .status stRange s
    else
      let s := flashRead o (recLines o e.len * fillClks s.level.cur) s
      let raw := flashBytes s o (recSize e.len)
      if crc32c (raw.take (raw.length - 4)) ≠ wordOfBytes (raw.drop (raw.length - 4)) then
        .status stEcc (s.modJ (fun j => { j with ncrc := satInc j.ncrc })) lines
      else { Ans.val d (toWord e.len) (s.store b ((raw.drop 4).take e.len)) (lines + (e.len + 3) / 4) with
        banks := sramBank (b + 4 * ((e.len + 3) / 4 - 1)) }

/-- The entry of the index that JGET's key names. -/
def getEntry (j : JournalSt) (key : Nat) : Option JEnt := j.index.find? (fun e => e.key == key && e.len != 0)

theorem exec_jget (hf : f.inst = 0) (h : Begins c (.jget c f) v (ownFirst journalFirst s) s') (hup : JournalUp s')
    (hok : blockOk v.tenant ((s'.regs c).rd f.rb).toNat (max ((fieldOf ((s'.regs c).rd f.ra) 26 16 + 3) / 4) 1) = true)
    (hdata : fieldOf ((s'.regs c).rd f.ra) 26 16 = 0 ∨
      inData s' v.tenant ((s'.regs c).rd f.rb).toNat (4 * ((fieldOf ((s'.regs c).rd f.ra) 26 16 + 3) / 4)) = true)
    (hcap : s'.may v.tenant (capJw (fieldOf ((s'.regs c).rd f.ra) 15 0)) = true ∨
      s'.may v.tenant (capJr (fieldOf ((s'.regs c).rd f.ra) 15 0)) = true) (hop : s'.journal.op = none)
    {st : BitVec 8} {upd : Regs → Regs} {n : Nat} {banks : List Nat}
    (ha : journalStates true (flashTouch s') (getBody f.rd ((s'.regs c).rd f.rb).toNat (fieldOf ((s'.regs c).rd f.ra) 26 16)
      (getEntry s'.journal (fieldOf ((s'.regs c).rd f.ra) 15 0)) (flashTouch s')) =
      { st := st, s := u, upd := upd, extra := n, banks := banks }) :
    exec (.jget c f) s = .next (retireUsing c v banks (ownFirst journalFirst s) st upd (s'.base + n) u) := by
  change execJget c f s = _
  unfold execJget
  dsimp only
  refine journalInstr_retires h hup ?_ ?_ (.inr hop) ha
  · exact Bool.and_eq_true_iff.mpr ⟨journalUnit_ok hf rfl, hok⟩
  · refine Bool.and_eq_true_iff.mpr ⟨?_, noneOr_block hdata⟩
    simp only [State.may, Bool.or_eq_true] at hcap ⊢
    tauto

/-- With no operation in progress, a read of flash only touches it. -/
theorem flashRead_idle {off fill : Nat} (h : s.journal.op = none) : flashRead off fill s = flashTouch s := by
  unfold flashRead
  dsimp only
  rw [show (flashTouch s).journal.op = none from h]

/-- The bytes of an entry's record in the store, head and RCRC with them. -/
def recBytes (e : JEnt) (s : State) : List Byte := memGets s.mem (flashBase + (s.journal.base * 4096 + e.off)) (recSize e.len)

/-- The record's RCRC fits its bytes (R468). -/
def RecGood (e : JEnt) (s : State) : Prop :=
  crc32c ((recBytes e s).take (recSize e.len - 4)) = wordOfBytes ((recBytes e s).drop (recSize e.len - 4))

/-- A record whose RCRC fits: its data into the block. -/
theorem getBody_good {d : BitVec 4} {b lim : Nat} {e : JEnt} (hop : s.journal.op = none) (hlim : e.len ≤ lim)
    (hgood : RecGood e s) : getBody d b lim (some e) (flashTouch s) =
      { Ans.val d (toWord e.len) ((flashTouch s).store b (((recBytes e s).drop 4).take e.len))
          (recLines (s.journal.base * 4096 + e.off) e.len * fillClks s.level.cur + (e.len + 3) / 4) with
        banks := sramBank (b + 4 * ((e.len + 3) / 4 - 1)) } := by
  unfold getBody
  dsimp only
  rw [if_neg (Nat.not_lt.mpr hlim), flashRead_idle (s := flashTouch s) hop]
  refine if_neg (not_not.mpr ?_)
  rw [RecGood] at hgood
  change crc32c ((recBytes e s).take ((recBytes e s).length - 4)) = wordOfBytes ((recBytes e s).drop ((recBytes e s).length - 4))
  rwa [show (recBytes e s).length = recSize e.len from memGets_length ..]

/-- One whose RCRC does not: the block stays, and NCRC counts. -/
theorem getBody_bad {d : BitVec 4} {b lim : Nat} {e : JEnt} (hop : s.journal.op = none) (hlim : e.len ≤ lim)
    (hbad : ¬ RecGood e s) : getBody d b lim (some e) (flashTouch s) =
      .status stEcc ((flashTouch s).modJ (fun j => { j with ncrc := satInc j.ncrc }))
        (recLines (s.journal.base * 4096 + e.off) e.len * fillClks s.level.cur) := by
  unfold getBody
  dsimp only
  rw [if_neg (Nat.not_lt.mpr hlim), flashRead_idle (s := flashTouch s) hop]
  refine if_pos ?_
  rw [RecGood] at hbad
  change ¬ (crc32c ((recBytes e s).take ((recBytes e s).length - 4)) = wordOfBytes ((recBytes e s).drop ((recBytes e s).length - 4)))
  rwa [show (recBytes e s).length = recSize e.len from memGets_length ..]

end

/-- Settles O28: each instruction by what its body answers in each state of the journal. -/
theorem journalRecords : Obligations.JournalRecords := by
  unfold Obligations.JournalRecords
  intro c v s s' f hf
  dsimp only
  simp only [← fieldOf_26_16, ← fieldOf_15_0]
  refine ⟨fun h hup hd hcap hblk => ?put, fun h hup hd ha hb hcap => ⟨fun hst => ?commitOff, fun hst => ?commitBusy,
      fun hst hnone => ?commitNone, fun hst hsome => ?commit⟩, fun h hup hst => ?getOff, fun h hup hst => ?getHeld,
    fun h hup hst hnone => ?getNone, fun e h hup hst hfind => ⟨fun hlim => ?getLim, fun hlim hgood => ?get, fun hlim hbad => ?getBad⟩⟩
  case put =>
    have hblk' := hblk.imp id (fun hb => (⟨hb.1, hb.2.1⟩ : _ ∧ _))
    split
    next hst =>
      exact (exec_jput hf h hup hd hcap hblk' (journalStates_off (s := flashTouch s') hst)).trans
        (congrArg Host.Outcome.next (retireUsing_nil ..))
    next hoff =>
      split
      next hst =>
        exact (exec_jput hf h hup hd hcap hblk' (journalStates_busy (s := flashTouch s') hst)).trans
          (congrArg Host.Outcome.next (retireUsing_nil ..))
      next hbusy =>
        have hst : (flashTouch s').journal.st = .ready := journalReady_of hup hoff hbusy
        split
        next hlong =>
          exact (exec_jput hf h hup hd hcap hblk' ((journalStates_ready hst).trans (if_pos hlong))).trans
            (congrArg Host.Outcome.next (retireUsing_nil ..))
        next hlong =>
          have hclean : CleanAt (flashTouch s') ((s'.regs c).rd f.ra).toNat (putWords ((s'.regs c).rd f.rb)) := by
            rcases hblk with hzero | ⟨-, -, hclean⟩
            · intro i hi
              exact absurd hi (by rw [show putWords ((s'.regs c).rd f.rb) = 0 from hzero]; exact Nat.not_lt_zero i)
            · exact hclean
          split
          next hroom =>
            refine exec_jput hf h hup hd hcap hblk' ((journalStates_ready hst).trans ((if_neg hlong).trans (withBlock_gives hclean (if_neg ?_))))
            rintro (hkey | hfits)
            · exact hroom.1 hkey
            · exact Bool.false_ne_true (hfits.symm.trans (gatherFits_iff.mpr hroom.2))
          next hroom =>
            refine exec_jput hf h hup hd hcap hblk' ((journalStates_ready hst).trans ((if_neg hlong).trans (withBlock_gives hclean (if_pos ?_))))
            by_cases hkey : fieldOf ((s'.regs c).rd f.rb) 15 0 = 0xFFFF
            · exact .inl hkey
            · exact .inr (Bool.eq_false_iff.mpr fun hfits => hroom ⟨hkey, gatherFits_iff.mp hfits⟩)
  case commitOff =>
    change execJcommit c f s = _
    exact journalInstr_gives h hup (journalUnit_ok hf (unusedZero_three hd ha hb)) hcap (.inl rfl) (journalStates_off hst)
  case commitBusy =>
    change execJcommit c f s = _
    exact journalInstr_gives h hup (journalUnit_ok hf (unusedZero_three hd ha hb)) hcap (.inl rfl) (journalStates_busy hst)
  case commitNone =>
    change execJcommit c f s = _
    replace hst : (flashTouch s').journal.st = .ready := hst
    refine journalInstr_gives h hup (journalUnit_ok hf (unusedZero_three hd ha hb)) hcap (.inl rfl)
      ((journalStates_ready hst).trans (if_neg ?_))
    simpa [flashTouch] using hnone
  case commit =>
    replace hst : (flashTouch s').journal.st = .ready := hst
    have hany : ((flashTouch s').journal.gather.any (fun g => g.ten == v.tenant)) = true := by
      simpa [flashTouch] using hsome
    have hexec : execJcommit c f s = _ := journalInstr_gives h hup (journalUnit_ok hf (unusedZero_three hd ha hb)) hcap
      (.inl rfl) ((journalStates_ready hst).trans (if_pos hany))
    obtain ⟨hrun, hmem, hindex, hgather, hop⟩ := startCommit_spec v.tenant false ((flashTouch s').modJ (fun j => { j with
      gather := j.gather.map (fun g => if g.ten = v.tenant then { g with busy := true } else g) }))
    exact ⟨_, hexec, hrun, hmem, hindex, hgather, hop⟩
  case getOff =>
    obtain ⟨hup, hok, hdata, hcap, hop⟩ := hup
    exact (exec_jget hf h hup hok hdata hcap hop (journalStates_off (s := flashTouch s') hst)).trans
      (congrArg Host.Outcome.next (retireUsing_nil ..))
  case getHeld =>
    obtain ⟨hup, hok, hdata, hcap, hop⟩ := hup
    exact (exec_jget hf h hup hok hdata hcap hop (journalStates_held (s := flashTouch s') hst)).trans
      (congrArg Host.Outcome.next (retireUsing_nil ..))
  case getNone =>
    obtain ⟨hup, hok, hdata, hcap, hop⟩ := hup
    have hentry : getEntry s'.journal (fieldOf ((s'.regs c).rd f.ra) 15 0) = none := by
      rw [getEntry, List.find?_eq_none]
      intro e he
      have hne := hnone e he
      rw [Bool.and_eq_true, beq_iff_eq, bne_iff_ne]
      exact fun hk => hne.elim (fun hx => hx hk.1) hk.2
    refine (exec_jget (n := 0) hf h hup hok hdata hcap hop ((journalStates_reads (s := flashTouch s') hst).trans ?_)).trans
      (congrArg Host.Outcome.next (retireUsing_nil ..))
    rw [hentry]; rfl
  all_goals obtain ⟨hup, hok, hdata, hcap, hop⟩ := hup
  all_goals replace hfind : getEntry s'.journal (fieldOf ((s'.regs c).rd f.ra) 15 0) = some e := hfind
  case getLim =>
    refine (exec_jget hf h hup hok hdata hcap hop ((journalStates_reads (s := flashTouch s') hst).trans ?_)).trans
      (congrArg Host.Outcome.next (retireUsing_nil ..))
    rw [hfind]
    exact if_pos hlim
  case get =>
    have hexec : exec (.jget c f) s = _ := exec_jget hf h hup hok hdata hcap hop ((journalStates_reads (s := flashTouch s') hst).trans
      ((congrArg (getBody _ _ _ · _) hfind).trans (getBody_good hop hlim hgood)))
    exact ⟨_, _, hexec, rfl, rfl, rfl⟩
  case getBad =>
    have hexec : exec (.jget c f) s = _ := exec_jget (n := recLines (s'.journal.base * 4096 + e.off) e.len * fillClks s'.level.cur)
      hf h hup hok hdata hcap hop ((journalStates_reads (s := flashTouch s') hst).trans
      ((congrArg (getBody _ _ _ · _) hfind).trans (getBody_bad hop hlim hbad)))
    exact ⟨_, _, hexec, rfl, rfl, rfl⟩

/-! ## JPROG, JERASE and SEAL -/

theorem bytesOfWords_length (ws : Words) : (bytesOfWords ws).length = 4 * ws.length := by
  induction ws with
  | nil => rfl
  | cons w ws ih => rw [bytesOfWords, List.flatMap_cons, List.length_append, ← bytesOfWords, ih, List.length_cons]; exact Nat.add_comm ..

theorem pageRuns_nil (n off : Nat) : pageRuns n off [] = [] := by cases n <;> rfl

theorem pageRuns_cons {n off : Nat} {bs : List Byte} (h : bs ≠ []) : pageRuns (n + 1) off bs =
    .prog off (bs.take (256 - off % 256)) :: pageRuns n (off + (256 - off % 256)) (bs.drop (256 - off % 256)) := by
  cases bs with
  | nil => exact absurd rfl h
  | cons b bs => rfl

/-- A range of at most 256 bytes: one page, or two (R450). -/
theorem pageRuns_two {off : Nat} {bs : List Byte} (hpos : bs ≠ []) (hlen : bs.length ≤ 256) :
    pageRuns 2 off bs = if off % 256 + bs.length ≤ 256 then [.prog off bs]
      else [.prog off (bs.take (256 - off % 256)), .prog (off + (256 - off % 256)) (bs.drop (256 - off % 256))] := by
  rw [pageRuns_cons hpos]
  split
  next hone =>
    rw [List.take_of_length_le (by omega), List.drop_of_length_le (by omega), pageRuns_nil]
  next htwo =>
    have hmore : bs.drop (256 - off % 256) ≠ [] := by
      rw [ne_eq, List.drop_eq_nil_iff]; omega
    rw [pageRuns_cons hmore, show (off + (256 - off % 256)) % 256 = 0 by omega,
      List.take_of_length_le (i := 256 - 0) (by rw [List.length_drop]; omega),
      List.drop_of_length_le (i := 256 - 0) (by rw [List.length_drop]; omega), pageRuns_nil]

theorem meetsArea_iff {j : JournalSt} {o n : Nat} :
    meetsArea j o n = true ↔ j.nsec ≠ 0 ∧ o < (j.base + j.nsec + 2) * 4096 ∧ j.base * 4096 < o + n := by
  simp only [meetsArea, Bool.and_eq_true, bne_iff_ne, decide_eq_true_eq, and_assoc]

theorem meetsSector_not {o n k : Nat} (h : ¬ (o < (k + 1) * 4096 ∧ k * 4096 < o + n)) : meetsSector o n k = false := by
  rw [meetsSector, ← Bool.decide_and, decide_eq_false h]

/-- A host packet, or an instruction fetched from elsewhere, is not in the flash that it changes (R453). -/
theorem meetsSelf_not {c : CoreId} {i : Instr} {v : Inv} {s s' : State} {o n : Nat} (h : Begins c i v s s')
    (hout : v.bind = none ∨ (s'.regs c).pc.toNat < 0x08000000 ∨ 0x08800000 ≤ (s'.regs c).pc.toNat) :
    meetsSelf c o n (flashTouch s') = false := by
  obtain ⟨v', hinv, hbind⟩ := h.fetched_bind
  rw [meetsSelf, show (flashTouch s').core c = s'.core c from rfl, hinv]
  dsimp only
  rcases hout with hhost | hpc
  · rw [hbind, hhost]; rfl
  · have hregion : (regionOf ((flashTouch s').regs c).pc.toNat == .flash) = false := by
      rw [show (flashTouch s').regs c = s'.regs c from rfl, beq_eq_false_iff_ne]
      intro hflash
      unfold regionOf at hflash
      split at hflash
      · cases hflash
      · split at hflash
        next hin =>
          rw [inSpan, Bool.and_eq_true, decide_eq_true_eq, decide_eq_true_eq, flashBase, flashSize] at hin
          omega
        · (repeat' split at hflash) <;> cases hflash
    rw [hregion, Bool.and_false, Bool.false_and]

/-- A second block that is clean, whose words the body answers with no access of its own. -/
theorem withMore_gives {s u : State} {w a n m : Nat} (h : CleanAt s a n) {k : Words → State → Ans} {st : BitVec 8}
    {upd : Regs → Regs} (hk : k (wordsAt s a n) s = { st := st, s := u, upd := upd, extra := m }) :
    withMore w a n s k = { st := st, s := u, upd := upd, extra := m, banks := blockBanks a n } := by
  rw [withMore, readBlock_clean n a h]
  dsimp only
  rw [if_neg Bool.false_ne_true, hk, List.append_nil]

/-- The time that an erase of one sector may take (Table 16.6). -/
theorem maxTime_erase (a : Nat) : maxTime [.erase a] = 23040000 := by
  simp [maxTime, usTicks]

section
variable {c : CoreId} {v : Inv} {s s' u : State} {f : UForm}

/-- JPROG's fields fit (Table 16.5). -/
def ProgFields (t : Tid) (off src len : Nat) : Prop :=
  ¬ (off % 4 ≠ 0 ∨ len < 4 ∨ 256 < len ∨ len % 4 ≠ 0 ∨ blockOk t src (len / 4) = false ∨ flashSize < off + len)

/-- JPROG once its fields fit. -/
def progMore (c : CoreId) (t : Tid) (off src len : Nat) (s : State) : Ans :=
  withMore 3 src (len / 4) s (fun d s =>
    let w := 3 + len / 4
    if meetsArea s.journal off len then .status stRange s w
    else if meetsSector off len 1023 && !(off % 16 == 0 && len == 16 && blank s off 16) then .status stRange s w
    else if meetsSector off len 2047 && !(spanIn 0x7FFF00 0x90 off len && blank s off len) then .status stRange s w
    else if meetsSelf c off len s then .status stSelf s w
    else if meetsSector off len 2047 && s.journal.sealed then .status stSealed s w
    else startOp .prog t (pageRuns 2 off (bytesOfWords d)) w s)

/-- JPROG's answer by the words of its block. -/
def progBody (c : CoreId) (t : Tid) (off src len : Nat) (s : State) : Ans :=
  if off % 4 ≠ 0 ∨ len < 4 ∨ 256 < len ∨ len % 4 ≠ 0 ∨ blockOk t src (len / 4) = false ∨ flashSize < off + len then
    .status stRange s 3
  else progMore c t off src len s

theorem exec_jprog (hf : f.inst = 0) (hv : v.tenant = 0) (hd : f.rd = 0) (hb : f.rb = 0)
    (h : Begins c (.jprog c f) v (ownFirst journalFirst s) s') (hup : JournalUp s')
    (hblk : blockOk 0 ((s'.regs c).rd f.ra).toNat 3 = true) {st : BitVec 8} {n : Nat} {banks : List Nat}
    (ha : journalStates false (flashTouch s') (withBlock ((s'.regs c).rd f.ra).toNat 3 (flashTouch s') (fun ws s =>
      progBody c v.tenant (wordAt ws 0).toNat (wordAt ws 1).toNat (wordAt ws 2).toNat s)) =
      { st := st, s := u, extra := n, banks := banks }) :
    exec (.jprog c f) s = .next (retireUsing c v banks (ownFirst journalFirst s) st id (s'.base + n) u) := by
  change execJprog c f s = _
  unfold execJprog
  refine journalInstr_retires h hup ?_ (decide_eq_true hv) (.inl rfl) ha
  rw [hv, hblk, journalUnit_ok hf (unusedZero_two hd hb)]; rfl

/-- JPROG's words in READY. -/
theorem progBlock (hst : s'.journal.st = .ready) {t : Tid} {a : Nat} (hclean : CleanAt s' a 3) {st : BitVec 8} {n : Nat}
    {banks : List Nat}
    (ha : progBody c t (wordSeen s' a).toNat (wordSeen s' (a + 4)).toNat (wordSeen s' (a + 8)).toNat (flashTouch s') =
      { st := st, s := u, extra := n, banks := banks }) :
    journalStates false (flashTouch s') (withBlock a 3 (flashTouch s') (fun ws s =>
      progBody c t (wordAt ws 0).toNat (wordAt ws 1).toNat (wordAt ws 2).toNat s)) =
      { st := st, s := u, extra := n, banks := blockBanks a 3 ++ banks } := by
  refine (journalStates_ready (s := flashTouch s') hst).trans (withBlock_retires (s := flashTouch s') hclean ?_)
  rw [wordAt_wordsAt _ a (by decide : 0 < 3), wordAt_wordsAt _ a (by decide : 1 < 3), wordAt_wordsAt _ a (by decide : 2 < 3)]
  exact ha

theorem exec_jerase (hf : f.inst = 0) (hv : v.tenant = 0) (hd : f.rd = 0) (hb : f.rb = 0)
    (h : Begins c (.jerase c f) v (ownFirst journalFirst s) s') (hup : JournalUp s') {st : BitVec 8}
    (ha : journalStates false (flashTouch s')
        (if ((s'.regs c).rd f.ra).toNat % 4096 ≠ 0 ∨ flashSize ≤ ((s'.regs c).rd f.ra).toNat ∨
            meetsArea (flashTouch s').journal ((s'.regs c).rd f.ra).toNat 4096 = true ∨
            ((s'.regs c).rd f.ra).toNat / 4096 = 1023 ∨ ((s'.regs c).rd f.ra).toNat / 4096 = 2047 then
          .status stRange (flashTouch s')
         else if meetsSelf c ((s'.regs c).rd f.ra).toNat 4096 (flashTouch s') then .status stSelf (flashTouch s')
         else startOp .erase v.tenant [.erase ((s'.regs c).rd f.ra).toNat] 0 (flashTouch s')) = .status st u) :
    exec (.jerase c f) s = .next (retire c 0 st id (s'.base + 0) u) := by
  change execJerase c f s = _
  rw [← hv]
  exact journalInstr_gives h hup (journalUnit_ok hf (unusedZero_two hd hb)) (decide_eq_true hv) (.inl rfl) ha

/-! ### The seal -/

theorem sealBody_busy {wa : Word} (h : s.journal.st = .run ∨ s.journal.st = .held) : sealBody wa s = .status stBusy s := by
  rcases h with h | h <;> rw [sealBody, h]

/-- SEAL of a journal that is not busy (R476). -/
theorem sealBody_free {wa : Word} (h : ¬ (s.journal.st = .run ∨ s.journal.st = .held)) : sealBody wa s =
    if s.journal.sealed || s.journal.burn.isSome then .status stSealed s
    else if wa = 0x5EA1 then .ok (s.modJ (fun j => { j with arm := some s.time.hive }))
    else if wa = 0x1AE5 ∧ sealLive s = true then
      if blank s 0x7FFF00 0x80 then .status stRange s
      else .status stPending (s.modJ (fun j => { j with arm := none, burn := some s.time.phys }))
    else .status stState (s.modJ (fun j => { j with arm := none })) := by
  obtain ⟨hrun, hheld⟩ := not_or.mp h
  unfold sealBody
  split
  next hst => exact absurd hst hrun
  next hst => exact absurd hst hheld
  · rfl

/-- The arming step stands: it is at most 192,000,000 ticks old (R476). -/
theorem sealLive_iff : sealLive s = true ↔ ∃ m, s.journal.arm = some m ∧ s.time.hive - m ≤ 192000000 := by
  unfold sealLive
  cases s.journal.arm with
  | none => simp
  | some m => simp

theorem sealInstr_gives {i : Instr} (hf : f.inst = 0) (hv : v.tenant = 0) (hd : f.rd = 0) (hb : f.rb = 0)
    (h : Begins c i v (ownFirst journalFirst s) s') (hup : JournalUp s') {st : BitVec 8}
    (ha : sealBody ((s'.regs c).rd f.ra) (flashTouch s') = .status st u) :
    sealInstr c i f s = .next (retire c 0 st id (s'.base + 0) u) := by
  rw [← hv]
  exact journalInstr_gives h hup (journalUnit_ok hf (unusedZero_two hd hb)) (decide_eq_true hv) (.inl rfl) ha

theorem toNat_word_iff {w : Word} {n : Nat} (hn : n < 2 ^ 32) : w = BitVec.ofNat 32 n ↔ w.toNat = n := by
  rw [← BitVec.toNat_inj, BitVec.toNat_ofNat, Nat.mod_eq_of_lt hn]

/-- What SEAL answers, for either of its two steps (R476). -/
theorem sealInstr_spec {i : Instr} (hf : f.inst = 0) (hv : v.tenant = 0) (hd : f.rd = 0) (hb : f.rb = 0)
    (h : Begins c i v (ownFirst journalFirst s) s') (hup : JournalUp s') :
    (s'.journal.st = .run ∨ s'.journal.st = .held →
      sealInstr c i f s = .next (retire c 0 stBusy id (s'.base + 0) (flashTouch s'))) ∧
    (¬ (s'.journal.st = .run ∨ s'.journal.st = .held) → s'.journal.sealed = true ∨ s'.journal.burn ≠ none →
      sealInstr c i f s = .next (retire c 0 stSealed id (s'.base + 0) (flashTouch s'))) ∧
    (¬ (s'.journal.st = .run ∨ s'.journal.st = .held) → s'.journal.sealed = false → s'.journal.burn = none →
      (((s'.regs c).rd f.ra).toNat = 0x5EA1 → sealInstr c i f s = .next (retire c 0 stOk id (s'.base + 0)
        ((flashTouch s').modJ (fun j => { j with arm := some s'.time.hive })))) ∧
      (∀ m, ((s'.regs c).rd f.ra).toNat = 0x1AE5 → s'.journal.arm = some m → s'.time.hive - m ≤ 192000000 →
        sealInstr c i f s = if blank s' 0x7FFF00 0x80 then .next (retire c 0 stRange id (s'.base + 0) (flashTouch s'))
          else .next (retire c 0 stPending id (s'.base + 0)
            ((flashTouch s').modJ (fun j => { j with arm := none, burn := some s'.time.phys })))) ∧
      ((((s'.regs c).rd f.ra).toNat ≠ 0x5EA1 ∧ ((s'.regs c).rd f.ra).toNat ≠ 0x1AE5) ∨
        (((s'.regs c).rd f.ra).toNat = 0x1AE5 ∧ ∀ m, s'.journal.arm = some m → 192000000 < s'.time.hive - m) →
        sealInstr c i f s = .next (retire c 0 stState id (s'.base + 0)
          ((flashTouch s').modJ (fun j => { j with arm := none }))))) := by
  refine ⟨fun hst => sealInstr_gives hf hv hd hb h hup (sealBody_busy hst), fun hst hsealed => ?done, fun hst hsealed hburn =>
    ⟨fun hwa => ?arm, fun m hwa harm hage => ?burn, fun hwa => ?refuse⟩⟩
  case done =>
    refine sealInstr_gives hf hv hd hb h hup ((sealBody_free (s := flashTouch s') hst).trans (if_pos ?_))
    rw [Bool.or_eq_true, Option.isSome_iff_ne_none]
    exact hsealed
  all_goals
    have hopen : ¬ ((flashTouch s').journal.sealed || (flashTouch s').journal.burn.isSome) = true := by
      rw [show (flashTouch s').journal = s'.journal from rfl, hsealed, hburn]; exact Bool.false_ne_true
  case arm =>
    exact sealInstr_gives hf hv hd hb h hup ((sealBody_free (s := flashTouch s') hst).trans ((if_neg hopen).trans
      (if_pos ((toNat_word_iff (by decide)).mpr hwa))))
  case burn =>
    have hwa' := (toNat_word_iff (w := (s'.regs c).rd f.ra) (n := 0x1AE5) (by decide)).mpr hwa
    have hbody := (sealBody_free (s := flashTouch s') (wa := (s'.regs c).rd f.ra) hst).trans ((if_neg hopen).trans
      ((if_neg (by rw [hwa']; decide)).trans (if_pos ⟨hwa', sealLive_iff.mpr ⟨m, harm, hage⟩⟩)))
    split
    next hblank => exact sealInstr_gives hf hv hd hb h hup (hbody.trans (if_pos hblank))
    next hblank => exact sealInstr_gives hf hv hd hb h hup (hbody.trans (if_neg hblank))
  case refuse =>
    refine sealInstr_gives hf hv hd hb h hup ((sealBody_free (s := flashTouch s') hst).trans ((if_neg hopen).trans
      ((if_neg fun hw => ?_).trans (if_neg ?_))))
    · have hw' := (toNat_word_iff (n := 0x5EA1) (by decide)).mp hw
      omega
    · rintro ⟨hw, hlive⟩
      obtain ⟨m, harm, hage⟩ := sealLive_iff.mp hlive
      have hw' := (toNat_word_iff (n := 0x1AE5) (by decide)).mp hw
      rcases hwa with ⟨-, hne⟩ | ⟨-, hold⟩
      · exact hne hw'
      · exact absurd hage (Nat.not_le.mpr (hold m harm))

end

/-- Settles O29: each instruction by what its body answers, the two steps of SEAL by one lemma. -/
theorem flashInstructions : Obligations.FlashInstructions := by
  unfold Obligations.FlashInstructions
  intro c v s s' f hf hv hd hb
  dsimp only
  refine ⟨fun h hup hblk hclean => ⟨fun hst => ?progOff, fun hst => ?progBusy, fun hst hbad => ?progRange,
      fun hst hoff hmin hmax hmod hsrc hclean' hend hpc hcount hkey => ?prog⟩,
    fun h hup => ⟨fun hst => ?eraseOff, fun hst => ?eraseBusy, fun hst hbad => ?eraseRange, fun hst hgood hpc => ?erase⟩,
    fun h hup => sealInstr_spec (i := .sealArm c f) hf hv hd hb h hup, fun h hup => sealInstr_spec (i := .sealBurn c f) hf hv hd hb h hup⟩
  case progOff =>
    rw [← hv]
    exact (exec_jprog hf hv hd hb h hup hblk (journalStates_off (s := flashTouch s') hst)).trans
      (congrArg Host.Outcome.next (retireUsing_nil ..))
  case progBusy =>
    rw [← hv]
    exact (exec_jprog hf hv hd hb h hup hblk (journalStates_busy (s := flashTouch s') hst)).trans
      (congrArg Host.Outcome.next (retireUsing_nil ..))
  case progRange =>
    refine (exec_jprog hf hv hd hb h hup hblk (progBlock hst hclean (banks := []) (if_pos ?_))).trans
      (by rw [List.append_nil]; rfl)
    rw [hv]
    simp only [flashSize]
    tauto
  case prog =>
    have hfields : ProgFields v.tenant (wordSeen s' ((s'.regs c).rd f.ra).toNat).toNat
        (wordSeen s' (((s'.regs c).rd f.ra).toNat + 4)).toNat (wordSeen s' (((s'.regs c).rd f.ra).toNat + 8)).toNat := by
      rw [ProgFields, hv, hsrc]
      simp only [flashSize, Bool.true_eq_false, false_or]
      omega
    have hmeets := meetsSelf_not (o := (wordSeen s' ((s'.regs c).rd f.ra).toNat).toNat)
      (n := (wordSeen s' (((s'.regs c).rd f.ra).toNat + 8)).toNat) h hpc
    refine ⟨fun harea => ?area, fun harea => ?start⟩
    case area =>
      exact exec_jprog hf hv hd hb h hup hblk (progBlock hst hclean ((if_neg hfields).trans
        (withMore_gives (s := flashTouch s') hclean' (if_pos (meetsArea_iff.mpr harea)))))
    case start =>
      have hexec : exec (.jprog c f) s = _ := exec_jprog hf hv hd hb h hup hblk (progBlock hst hclean ((if_neg hfields).trans
        (withMore_gives (s := flashTouch s') hclean' ((if_neg fun hm => harea (meetsArea_iff.mp hm)).trans
          ((if_neg ?_).trans ((if_neg ?_).trans ((if_neg ?_).trans ((if_neg ?_).trans rfl))))))))
      · refine ⟨_, hexec, ⟨rfl, rfl, rfl, _, rfl, rfl, hv, rfl⟩, _, rfl, ?_⟩
        have hlen : (bytesOfWords (wordsAt s' (wordSeen s' (((s'.regs c).rd f.ra).toNat + 4)).toNat
            ((wordSeen s' (((s'.regs c).rd f.ra).toNat + 8)).toNat / 4))).length =
              (wordSeen s' (((s'.regs c).rd f.ra).toNat + 8)).toNat := by
          rw [bytesOfWords_length, wordsAt, List.length_map, List.length_range]; omega
        have htwo := pageRuns_two (off := (wordSeen s' ((s'.regs c).rd f.ra).toNat).toNat)
          (bs := bytesOfWords (wordsAt s' (wordSeen s' (((s'.regs c).rd f.ra).toNat + 4)).toNat
            ((wordSeen s' (((s'.regs c).rd f.ra).toNat + 8)).toNat / 4)))
          (List.ne_nil_of_length_pos (by omega)) (by omega)
        rw [hlen] at htwo
        exact htwo
      · rw [meetsSector_not hcount]; exact Bool.false_ne_true
      · rw [meetsSector_not (by omega)]; exact Bool.false_ne_true
      · rw [hmeets]; exact Bool.false_ne_true
      · rw [meetsSector_not (by omega)]; exact Bool.false_ne_true
  case eraseOff => exact exec_jerase hf hv hd hb h hup (journalStates_off (s := flashTouch s') hst)
  case eraseBusy => exact exec_jerase hf hv hd hb h hup (journalStates_busy (s := flashTouch s') hst)
  case eraseRange =>
    refine exec_jerase hf hv hd hb h hup ((journalStates_ready (s := flashTouch s') hst).trans (if_pos ?_))
    rw [meetsArea_iff]
    exact hbad
  case erase =>
    have hexec : exec (.jerase c f) s = _ := exec_jerase hf hv hd hb h hup ((journalStates_ready (s := flashTouch s') hst).trans
      ((if_neg ?_).trans ((if_neg ?_).trans rfl)))
    · refine ⟨_, hexec, ⟨rfl, rfl, rfl, _, rfl, rfl, hv, rfl⟩, _, rfl, rfl, ?_⟩
      exact congrArg (s'.time.phys + ·) (maxTime_erase _)
    · rw [meetsArea_iff]; exact hgood
    · rw [meetsSelf_not h hpc]; exact Bool.false_ne_true

end Sys2Proof.Machine
end

section
/-!
PROOFS. What the journal does by itself (spec/16_journal_flash.md sections 16.3 and 16.6 to 16.9).
-/
namespace Sys2Proof.Machine

/-! ## Events that no instruction has found done -/

/-- An event acts where no instruction of the clock has let it act before (R95). -/
theorem unlessEarlyIf_acts {p : Instr → Bool} {k : State → State} {s : State} {i : Instr} (hp : ∀ x, p x = true → x = i)
    (h : i ∉ s.early) : unlessEarlyIf p k s = k s := by
  rw [unlessEarlyIf, if_neg]
  intro hany
  obtain ⟨x, hx, hpx⟩ := List.any_eq_true.mp hany
  exact h (hp x hpx ▸ hx)

theorem unlessEarlyIf_nil {p : Instr → Bool} {k : State → State} {s : State} (h : s.early = []) :
    unlessEarlyIf p k s = k s := by
  rw [unlessEarlyIf, h]; rfl

/-! ## Steps of the flash array (R450, R455) -/

theorem applyStep_only (st : JStep) (s : State) : ∃ m ic, applyStep st s = { s with mem := m, icache := ic } := by
  cases st with
  | prog off bs => exact ⟨_, _, rfl⟩
  | erase off => exact ⟨_, _, rfl⟩

/-- Steps of the array change the array and drop lines of the cache. -/
theorem applySteps_only (l : List JStep) (s : State) : ∃ m ic, applySteps l s = { s with mem := m, icache := ic } := by
  induction l generalizing s with
  | nil => exact ⟨_, _, rfl⟩
  | cons st l ih =>
    obtain ⟨m, ic, h⟩ := applyStep_only st s
    obtain ⟨m', ic', h'⟩ := ih (applyStep st s)
    exact ⟨m', ic', h'.trans (by rw [h])⟩

theorem scrambleSteps_only (l : List JStep) (s : State) :
    ∃ m ic fr, scrambleSteps l s = { s with mem := m, icache := ic, free := fr } := by
  induction l generalizing s with
  | nil => exact ⟨_, _, _, rfl⟩
  | cons st l ih =>
    obtain ⟨m, ic, fr, h⟩ := ih (cacheInval (flashBase + st.span.1) st.span.2
      { s with mem := memPuts s.mem (flashBase + st.span.1) (freeBytes s.free st.span.2), free := s.free + st.span.2 })
    exact ⟨m, ic, fr, h⟩

/-- An address that no step's range covers. -/
def Outside (p : Nat) (l : List JStep) : Prop :=
  ∀ x ∈ l, ∀ m n, x.span = (m, n) → ¬ (0x08000000 + m ≤ p ∧ p < 0x08000000 + m + n)

theorem Outside.head {p : Nat} {st : JStep} {l : List JStep} (h : Outside p (st :: l)) :
    p < flashBase + st.span.1 ∨ flashBase + st.span.1 + st.span.2 ≤ p := by
  have hp := h st List.mem_cons_self st.span.1 st.span.2 rfl
  rw [flashBase]; omega

theorem Outside.tail {p : Nat} {st : JStep} {l : List JStep} (h : Outside p (st :: l)) : Outside p l :=
  fun x hx => h x (List.mem_cons_of_mem _ hx)

theorem andBytes_length {as bs : List Byte} (h : as.length = bs.length) : (andBytes as bs).length = bs.length := by
  induction bs generalizing as with
  | nil => cases as <;> rfl
  | cons b bs ih =>
    cases as with
    | nil => cases h
    | cons a as => rw [andBytes, List.length_cons, ih (Nat.succ.inj h), List.length_cons]

theorem freeBytes_length (k n : Nat) : (freeBytes k n).length = n := by
  induction n generalizing k with
  | zero => rfl
  | succ n ih => rw [freeBytes, List.length_cons, ih]

/-- The bytes that a program leaves: old and new, byte by byte (R450). -/
theorem andBytes_getElem (m : List Host.Cell) (bs : List Byte) (a i : Nat) :
    (andBytes (memGets m a bs.length) bs)[i]? = bs[i]?.map (memGet m (a + i) &&& ·) := by
  induction bs generalizing a i with
  | nil => simp [andBytes, memGets]
  | cons b bs ih =>
    cases i with
    | zero => rfl
    | succ i =>
      rw [List.length_cons, memGets, andBytes, List.getElem?_cons_succ, ih, List.getElem?_cons_succ,
        show a + 1 + i = a + (i + 1) by omega]

/-- Each byte of a program. -/
theorem memGet_program {m : List Host.Cell} {a i : Nat} {bs : List Byte} (hm : Memory.wf m = true) (hi : i < bs.length) :
    memGet (memPuts m a (andBytes (memGets m a bs.length) bs)) (a + i) = memGet m (a + i) &&& bs.getD i 0 := by
  have hlen : (andBytes (memGets m a bs.length) bs).length = bs.length := andBytes_length (memGets_length ..)
  rw [memGet_memPuts_in _ m a i hm (by rw [hlen]; exact hi)]
  have hget := andBytes_getElem m bs a i
  rw [List.getElem?_eq_getElem (by rw [hlen]; exact hi), List.getElem?_eq_getElem hi] at hget
  rw [Option.some.inj hget, List.getD_eq_getElem _ _ hi]

/-- Each byte of an erase (R450). -/
theorem memGet_erase {m : List Host.Cell} {a i n : Nat} (hm : Memory.wf m = true) (hi : i < n) :
    memGet (memPuts m a (List.replicate n 0xFF)) (a + i) = 0xFF := by
  rw [memGet_memPuts_in _ m a i hm (by rw [List.length_replicate]; exact hi), List.getElem_replicate]

theorem applyStep_prog_mem (off : Nat) (bs : List Byte) (s : State) : (applyStep (.prog off bs) s).mem =
    memPuts s.mem (flashBase + off) (andBytes (memGets s.mem (flashBase + off) bs.length) bs) := by
  simp only [applyStep, cacheInval_mem, flashBytes]

theorem applyStep_erase_mem (off : Nat) (s : State) : (applyStep (.erase off) s).mem =
    memPuts s.mem (flashBase + off) (List.replicate 4096 0xFF) := by
  simp only [applyStep, cacheInval_mem]

theorem applyStep_outside {p : Nat} {st : JStep} {s : State}
    (h : p < flashBase + st.span.1 ∨ flashBase + st.span.1 + st.span.2 ≤ p) :
    memGet (applyStep st s).mem p = memGet s.mem p := by
  cases st with
  | prog off bs =>
    rw [applyStep_prog_mem]
    refine memGet_memPuts_other _ _ _ _ ?_
    rw [andBytes_length (memGets_length ..)]
    exact h
  | erase off =>
    rw [applyStep_erase_mem]
    refine memGet_memPuts_other _ _ _ _ ?_
    rw [List.length_replicate]
    exact h

/-- Steps leave every byte that their ranges do not cover. -/
theorem applySteps_outside {p : Nat} {l : List JStep} {s : State} (h : Outside p l) :
    memGet (applySteps l s).mem p = memGet s.mem p := by
  induction l generalizing s with
  | nil => rfl
  | cons st l ih => exact (ih h.tail).trans (applyStep_outside h.head)

/-- Undefined content reaches no byte outside the ranges (R455). -/
theorem scrambleSteps_outside {p : Nat} {l : List JStep} {s : State} (h : Outside p l) :
    memGet (scrambleSteps l s).mem p = memGet s.mem p := by
  induction l generalizing s with
  | nil => rfl
  | cons st l ih =>
    refine (ih h.tail).trans (memGet_memPuts_other _ s.mem _ p ?_)
    rw [freeBytes_length]
    exact h.head

/-! ## How an operation ends -/

/-- With no orderly stop, an operation's end makes the journal READY. -/
theorem opEnded_plain {s : State} (h : s.therm.stop = none) :
    opEnded s = s.modJ (fun j => { j with st := .ready, op := none }) := by
  have hstop : ¬ inStopCommit (s.modJ (fun j => { j with st := .ready, op := none })) = true := by
    rw [inStopCommit, show (s.modJ (fun j => { j with st := .ready, op := none })).therm = s.therm from rfl, h]
    exact Bool.false_ne_true
  exact if_neg hstop

theorem journalArg_eq (k : Nat) (st : BitVec 8) (t : Tid) (n : Nat) :
    journalArg k st t n = BitVec.ofNat 32 (st.toNat + t.val * 256 + n % 256 * 2 ^ 16 + k * 2 ^ 28) := rfl

/-- A journal with an operation does no background step (R470). -/
theorem bgMay_op {s : State} {o : JOp} (h : s.journal.op = some o) : ¬ bgMay s = true := by
  simp [bgMay, h]

section
variable {s : State} {o : JOp}

/-- A JPROG or a JERASE whose time has not passed ends (R455). -/
theorem flashOpDone_ends (hop : s.journal.op = some o) (hrun : s.running = true) (hstop : s.therm.stop = none)
    (hsusp : o.suspended s.time.phys = false) (hk : o.kind.num ≠ 1) (htime : s.time.phys ≤ o.limit) :
    flashOpDone s = ((applySteps o.steps s).modJ (fun j => { j with st := .ready, op := none })).event 0xA8
      (journalArg o.kind.num stOk o.ten 0) s.time.hive := by
  obtain ⟨m, ic, honly⟩ := applySteps_only o.steps s
  rw [flashOpDone, hop]
  dsimp only
  rw [if_pos ⟨hrun, hsusp, hk, htime⟩, honly]
  exact opEnded_plain hstop

theorem flashOpDone_not (hop : s.journal.op = some o) (h : ¬ (o.suspended s.time.phys = false ∧ s.time.phys ≤ o.limit)) :
    flashOpDone s = s := by
  rw [flashOpDone, hop]
  exact if_neg fun ⟨_, hsusp, _, htime⟩ => h ⟨hsusp, htime⟩

/-- One whose time has passed is stopped (R455). -/
theorem flashOpTimeout_ends (hop : s.journal.op = some o) (hrun : s.running = true) (hstop : s.therm.stop = none)
    (hsusp : o.suspended s.time.phys = false) (hk : o.kind.num ≠ 1) (htime : o.limit < s.time.phys) :
    flashOpTimeout s = ((scrambleSteps o.steps s).modJ (fun j => { j with st := .ready, op := none })).event 0xA8
      (journalArg o.kind.num stTimeout o.ten 0) s.time.hive := by
  obtain ⟨m, ic, fr, honly⟩ := scrambleSteps_only o.steps s
  rw [flashOpTimeout, hop]
  dsimp only
  rw [if_pos ⟨hrun, hsusp, hk, htime⟩, honly]
  exact opEnded_plain hstop

/-- An operation has ended: 0xA8 is raised, the journal is free, and no byte outside the steps has changed. -/
def FlashTold (s : State) (o : JOp) (u : State) (k st : Nat) : Prop :=
  ∃ w : State, u = w.event 0xA8 (BitVec.ofNat 32 (st + o.ten.val * 256 + k * 2 ^ 28)) s.time.hive ∧
    w.journal = { s.journal with st := .ready, op := none } ∧ w.cores = s.cores ∧
    ∀ p, Outside p o.steps → memGet w.mem p = memGet s.mem p

theorem flashTold_of {w : State} {k : Nat} {st : BitVec 8} (hj : w.journal = s.journal) (hc : w.cores = s.cores)
    (hm : ∀ p, Outside p o.steps → memGet w.mem p = memGet s.mem p) :
    FlashTold s o ((w.modJ (fun j => { j with st := .ready, op := none })).event 0xA8 (journalArg k st o.ten 0) s.time.hive)
      k st.toNat := by
  refine ⟨_, congrArg (State.event _ 0xA8 · s.time.hive) ?_, congrArg (fun j => { j with st := .ready, op := none }) hj, hc, hm⟩
  rw [journalArg_eq, Nat.zero_mod, Nat.zero_mul, Nat.add_zero]

theorem flashTold_done {k : Nat} {st : BitVec 8} : FlashTold s o (((applySteps o.steps s).modJ (fun j =>
    { j with st := .ready, op := none })).event 0xA8 (journalArg k st o.ten 0) s.time.hive) k st.toNat := by
  obtain ⟨m, ic, honly⟩ := applySteps_only o.steps s
  exact flashTold_of (by rw [honly]) (by rw [honly]) fun p hp => applySteps_outside hp

theorem flashTold_stopped {k : Nat} {st : BitVec 8} : FlashTold s o (((scrambleSteps o.steps s).modJ (fun j =>
    { j with st := .ready, op := none })).event 0xA8 (journalArg k st o.ten 0) s.time.hive) k st.toNat := by
  obtain ⟨m, ic, fr, honly⟩ := scrambleSteps_only o.steps s
  exact flashTold_of (by rw [honly]) (by rw [honly]) fun p hp => scrambleSteps_outside hp

/-- A suspended operation goes on once its last fill is over, and its time grows (R456). -/
theorem exec_flashOpResume {x : Susp} (hop : s.journal.op = some o) (hrun : s.running = true) (hx : o.susp = some x) :
    exec .flashOpResume s = .next (if x.until_ ≤ s.time.phys then s.modJ (fun j => { j with
      op := some { o with susp := none, limit := o.limit + (s.time.phys - x.at_), resumed := s.time.phys } }) else s) := by
  change execFlashOpResume s = _
  rw [execFlashOpResume, hop]
  dsimp only
  rw [hx]
  simp only [hrun, true_and]

end

/-- Settles O30: the end and the timeout of the operation in progress, whose steps change their ranges alone. -/
theorem flashOperationEnds : Obligations.FlashOperationEnds := by
  unfold Obligations.FlashOperationEnds
  intro s o hwf hrun hop hstop hdone htimeout
  dsimp only
  have hexecDone : exec .flashOpDone s = .next (flashOpDone s) := by
    change execFlashOpDone s = _
    rw [execFlashOpDone, unlessEarlyIf_acts (i := .flashOpDone) (fun x hx => by split at hx; exacts [rfl, absurd hx Bool.false_ne_true]) hdone]
  have hexecOut : exec .flashOpTimeout s = .next (flashOpTimeout s) := by
    change execFlashOpTimeout s = _
    rw [execFlashOpTimeout, unlessEarlyIf_acts (i := .flashOpTimeout) (fun x hx => by split at hx; exacts [rfl, absurd hx Bool.false_ne_true]) htimeout]
  refine ⟨fun off bs hk hsusp hsteps htime => ?prog, fun off hk hsusp hsteps htime => ?erase, fun hk hsusp htime => ?timeout,
    fun x hx => ⟨fun hat => ?suspended, exec_flashOpResume hop hrun hx⟩, congrArg Host.Outcome.next (if_neg (bgMay_op hop)),
    congrArg Host.Outcome.next (if_neg fun h => bgMay_op hop h.1)⟩
  case prog =>
    refine ⟨_, hexecDone, ?_⟩
    rw [flashOpDone_ends hop hrun hstop hsusp (by rw [hk]; decide) htime, show o.kind.num = 2 by rw [hk]; rfl]
    refine ⟨flashTold_done (k := 2) (st := stOk), fun i hi => ?_⟩
    change memGet (applySteps o.steps s).mem _ = _
    rw [hsteps]
    change memGet (applyStep (.prog off bs) s).mem _ = _
    rw [applyStep_prog_mem]
    exact memGet_program hwf hi
  case erase =>
    refine ⟨_, hexecDone, ?_⟩
    rw [flashOpDone_ends hop hrun hstop hsusp (by rw [hk]; decide) htime, show o.kind.num = 3 by rw [hk]; rfl]
    refine ⟨flashTold_done (k := 3) (st := stOk), fun i hi => ?_⟩
    change memGet (applySteps o.steps s).mem _ = _
    rw [hsteps]
    change memGet (applyStep (.erase off) s).mem _ = _
    rw [applyStep_erase_mem]
    exact memGet_erase hwf hi
  case timeout =>
    refine ⟨hexecDone.trans (congrArg Host.Outcome.next (flashOpDone_not hop fun h => Nat.not_le.mpr htime h.2)), _, hexecOut, ?_⟩
    rw [flashOpTimeout_ends hop hrun hstop hsusp (by rcases hk with hk | hk <;> rw [hk] <;> decide) htime]
    have hnum : o.kind.num = if o.kind = .prog then 2 else 3 := by
      rcases hk with hk | hk <;> rw [hk] <;> rfl
    exact hnum ▸ flashTold_stopped (k := o.kind.num) (st := stTimeout)
  case suspended =>
    refine hexecDone.trans (congrArg Host.Outcome.next (flashOpDone_not hop fun h => ?_))
    have hsusp : o.suspended s.time.phys = true := by
      rw [JOp.suspended, hx]; exact decide_eq_true hat
    exact Bool.false_ne_true (h.1.symm.trans hsusp)

/-! ## Commits, collection and checkpoints -/

section
variable {s : State} {o : JOp}

theorem indexPut_mem (e : JEnt) (ix : List JEnt) : e ∈ indexPut e ix := by
  induction ix with
  | nil => exact List.mem_singleton.mpr rfl
  | cons x r ih =>
    rw [indexPut]
    split
    · exact List.mem_cons_of_mem _ ih
    · split <;> exact List.mem_cons_self

/-- An entry put into the index replaces none but that of its own key. -/
theorem indexPut_keeps (e : JEnt) {ix : List JEnt} {x : JEnt} (hx : x ∈ ix) : ∃ y ∈ indexPut e ix, y.key = x.key := by
  induction ix with
  | nil => cases hx
  | cons a r ih =>
    rw [indexPut]
    rcases List.mem_cons.mp hx with rfl | hr
    · split
      · exact ⟨x, List.mem_cons_self, rfl⟩
      · split
        next heq => exact ⟨e, List.mem_cons_self, heq.symm⟩
        · exact ⟨x, List.mem_cons_of_mem _ List.mem_cons_self, rfl⟩
    · split
      · obtain ⟨y, hy, hkey⟩ := ih hr
        exact ⟨y, List.mem_cons_of_mem _ hy, hkey⟩
      · split
        · exact ⟨x, List.mem_cons_of_mem _ hr, rfl⟩
        · exact ⟨x, List.mem_cons_of_mem _ (List.mem_cons_of_mem _ hr), rfl⟩

/-- Entries put into the index one by one: each key that was there or comes is there. -/
theorem indexPuts_key {k : Nat} (es : List JEnt) {ix : List JEnt} (h : (∃ e ∈ ix, e.key = k) ∨ ∃ e ∈ es, e.key = k) :
    ∃ e ∈ es.foldl (fun ix e => indexPut e ix) ix, e.key = k := by
  induction es generalizing ix with
  | nil => exact h.resolve_right fun ⟨_, he, _⟩ => nomatch he
  | cons e es ih =>
    refine ih ?_
    rcases h with ⟨x, hx, rfl⟩ | ⟨x, hx, rfl⟩
    · exact .inl (indexPut_keeps e hx)
    · rcases List.mem_cons.mp hx with rfl | hr
      · exact .inl ⟨x, indexPut_mem x ix, rfl⟩
      · exact .inr ⟨x, hr, rfl⟩

theorem groupEntries_key {off : Nat} {recs : List (Nat × Nat × List Byte)} {r : Nat × Nat × List Byte} (hr : r ∈ recs) :
    ∃ e ∈ groupEntries off recs, e.key = r.1 := by
  induction recs generalizing off with
  | nil => cases hr
  | cons x recs ih =>
    obtain ⟨k, t, d⟩ := x
    rcases List.mem_cons.mp hr with rfl | hr
    · exact ⟨_, List.mem_cons_self, rfl⟩
    · obtain ⟨e, he, hkey⟩ := ih hr
      exact ⟨e, List.mem_cons_of_mem _ he, hkey⟩

/-- A commit's records in the index once its mark ends (R466). -/
theorem groupVisible_key {j : JournalSt} {at_ : Nat × Nat} {g : GRec} (hg : g ∈ j.gather) (hbusy : g.busy = true) {j' : JournalSt} :
    ∃ e ∈ (groupVisible at_ (busyRecs j) j').index, e.key = g.key := by
  refine indexPuts_key _ (.inr (groupEntries_key (r := (g.key, g.ten.val, g.data)) ?_))
  exact List.mem_map.mpr ⟨g, List.mem_filter.mpr ⟨hg, hbusy⟩, rfl⟩

/-- The state in which a commit with a place ends, its event apart. -/
def commitEnded (o : JOp) (s : State) : State :=
  (((applySteps o.steps s).modJ (groupVisible o.at_ (busyRecs s.journal))).modJ (fun j => { j with
    gather := j.gather.filter (fun g => !g.busy)
    stopDone := j.stopDone || inStopCommit ((applySteps o.steps s).modJ (groupVisible o.at_ (busyRecs s.journal))) })).modJ
    (fun j => { j with st := .ready, op := none })

theorem commitEnded_journal : (commitEnded o s).journal = { groupVisible o.at_ (busyRecs s.journal) s.journal with
    gather := s.journal.gather.filter (fun g => !g.busy), stopDone := s.journal.stopDone || inStopCommit s
    st := .ready, op := none } := by
  obtain ⟨m, ic, honly⟩ := applySteps_only o.steps s
  rw [commitEnded, honly]; rfl

/-- A commit that has its place ends (R466). -/
theorem commitDone_ends (hop : s.journal.op = some o) (hrun : s.running = true) (hstop : s.therm.stop = none)
    (hk : o.kind = .commit false) (hsusp : o.suspended s.time.phys = false) (hsteps : o.steps ≠ []) :
    commitDone s = (commitEnded o s).eventNext 0xA8 (journalArg 1 stOk o.ten (busyRecs s.journal).length) := by
  obtain ⟨m, ic, honly⟩ := applySteps_only o.steps s
  have hmay : ¬ (s.running = false ∨ o.suspended s.time.phys = true) := by
    rw [hrun, hsusp]; decide
  have hplaced : ¬ o.steps.isEmpty = true := by rwa [List.isEmpty_iff]
  rw [commitDone, hop]
  dsimp only
  rw [hk]
  dsimp only
  rw [if_neg hmay, if_neg hplaced]
  dsimp only
  rw [commitEnded, honly]
  exact opEnded_plain (s := State.eventNext _ _ _) hstop

/-- With no operation, a commit's end finds nothing to do. -/
theorem commitDone_none (hop : s.journal.op = none) : commitDone s = s := by
  rw [commitDone, hop]

theorem flashOpDone_none (hop : s.journal.op = none) : flashOpDone s = s := by
  rw [flashOpDone, hop]

/-- The journal may do a background step. -/
theorem bgMay_of (hrun : s.running = true) (hstop : s.therm.stop = none) (hst : s.journal.st = .ready)
    (hop : s.journal.op = none) (hhold : s.journal.hold = false) : bgMay s = true := by
  simp [bgMay, hrun, hstop, hst, hop, hhold]

theorem sectorErased_mem (k : Nat) (s : State) : (sectorErased k s).mem =
    memPuts s.mem (flashBase + secOff s.journal k) (List.replicate 4096 0xFF) := by
  simp only [sectorErased, applyStep_erase_mem, State.setJ]

/-- A tail with no live record is erased (R469). -/
theorem exec_gcStep_erase (hmay : bgMay s = true) (hgc : s.journal.gc = true) {t0 t1 : Nat} {r : List Nat}
    (hsecs : s.journal.secs = t0 :: t1 :: r) (hdead : ∀ e ∈ s.journal.index, e.off / 4096 = t0 → e.len = 0) :
    exec .gcStep s = .next ((sectorErased t0 s).modJ (fun j => { j with gc := false })) := by
  have hlive : tailLive s.journal t0 = [] := by
    rw [tailLive, List.filter_eq_nil_iff]
    intro e he
    rw [Bool.and_eq_true, beq_iff_eq, bne_iff_ne]
    exact fun h => h.2 (hdead e he h.1)
  change execGcStep s = _
  rw [execGcStep, if_pos hmay, if_pos hgc, gcStep, hsecs]
  dsimp only
  rw [hlive]; rfl

theorem pageRuns_span {n off : Nat} {bs : List Byte} {x : JStep} (hx : x ∈ pageRuns n off bs) :
    off ≤ x.span.1 ∧ x.span.1 + x.span.2 ≤ off + bs.length := by
  induction n generalizing off bs with
  | zero => cases hx
  | succ n ih =>
    rcases eq_or_ne bs [] with rfl | hne
    · cases hx
    · rw [pageRuns_cons hne] at hx
      rcases List.mem_cons.mp hx with rfl | hr
      · refine ⟨Nat.le_refl _, Nat.add_le_add_left ?_ _⟩
        exact (List.length_take ..).trans_le (Nat.min_le_right ..)
      · obtain ⟨hlo, hhi⟩ := ih hr
        rw [List.length_drop] at hhi
        by_cases hlen : 256 - off % 256 ≤ bs.length
        · omega
        · rw [List.drop_of_length_le (by omega), pageRuns_nil] at hr; cases hr

theorem ckBytes_length (j : JournalSt) (q h : Nat) : (ckBytes j q h).length = 32 + 8 * j.index.length := by
  have hpairs : (j.index.flatMap (fun x => [toWord (x.key + put x.len 16 + put x.ten 27), toWord x.off])).length =
      2 * j.index.length := by
    induction j.index with
    | nil => rfl
    | cons x r ih => rw [List.flatMap_cons, List.length_append, ih, List.length_cons, List.length_cons]; simp; omega
  simp only [ckBytes, List.length_append, bytesOfWords_length, hpairs, wordBytes, List.length_cons, List.length_nil]
  omega

/-- The sector that the checkpoint goes to (R471). -/
def ckSector (s : State) : Nat := match s.journal.ckCur with | some 0 => 1 | _ => 0

theorem ckSector_spec (s : State) : ckSector s < 2 ∧ s.journal.ckCur ≠ some (ckSector s) := by
  unfold ckSector
  split
  next h => exact ⟨by decide, by rw [h]; decide⟩
  next h => exact ⟨by decide, h⟩

/-- The state once the checkpoint that was due has been written (R471). -/
def checkpointed (s : State) : State :=
  { ((applySteps (ckPlan s).2.2 s).modJ (fun j => { j with
      ckDue := false, sinceCk := 0, ckCur := some (ckSector s), ckSeq := (ckPlan s).2.1 })) with
    free := (applySteps (ckPlan s).2.2 s).free + 1 }

theorem checkpointed_mem (s : State) : (checkpointed s).mem = (applySteps (ckPlan s).2.2 s).mem := by
  simp only [checkpointed, modJ_mem]

theorem checkpointed_journal (s : State) : (checkpointed s).journal = { s.journal with
    ckDue := false, sinceCk := 0, ckCur := some (ckSector s), ckSeq := (ckPlan s).2.1 } := by
  obtain ⟨m, ic, honly⟩ := applySteps_only (ckPlan s).2.2 s
  rw [checkpointed, honly]; rfl

theorem exec_checkpointWrite (hmay : bgMay s = true) (hdue : s.journal.ckDue = true) : exec .checkpointWrite s =
    .next (checkpointed s) := by
  change execCheckpointWrite s = _
  rw [execCheckpointWrite, if_pos ⟨hmay, hdue⟩]; rfl

/-- A checkpoint stays within its sector (R471). -/
theorem ckPlan_outside (hlen : s.journal.index.length ≤ 508) {p : Nat}
    (hp : ¬ (0x08000000 + (s.journal.base + s.journal.nsec + ckSector s) * 4096 ≤ p ∧
      p < 0x08000000 + (s.journal.base + s.journal.nsec + ckSector s + 1) * 4096)) : Outside p (ckPlan s).2.2 := by
  intro x hx m n hspan
  have hrange : (s.journal.base + s.journal.nsec + ckSector s) * 4096 ≤ x.span.1 ∧
      x.span.1 + x.span.2 ≤ (s.journal.base + s.journal.nsec + ckSector s) * 4096 + 4096 := by
    rcases List.mem_cons.mp hx with rfl | hr
    · exact ⟨Nat.le_refl _, Nat.le_refl _⟩
    · obtain ⟨hlo, hhi⟩ := pageRuns_span hr
      rw [ckBytes_length] at hhi
      exact ⟨hlo, hhi.trans (Nat.add_le_add_left (by omega) _)⟩
  rw [hspan] at hrange
  dsimp only at hrange
  omega

end

/-! ## Scan and seal -/

section
variable {s : State}

/-- The state in which a scan ends (R474). -/
def scanEnded (s : State) : State :=
  { (s.modJ (fun j => { j with
      st := .ready, scan := none, index := applyGroups (groupsFrom s 0 none) []
      gseq := nextSeq (topSeq (groupsFrom s 0 none) none) s.free, nrepair := satAdd j.nrepair j.dirty.length, ckDue := true })) with
    free := s.free + 1
    boot := { s.boot with ready := s.boot.ready ||| BitVec.twoPow 32 (Func.idx .journal) } }

theorem scanEnd_ends {p : Nat} (hrun : s.running = true) (hst : s.journal.st = .held) (hscan : s.journal.scan = some p)
    (hok : s.hasFailed .journal = false) (hlo : p + scanTicks s.journal ≤ s.time.phys) (hhi : s.time.phys ≤ scanMax s p) :
    scanEnd s = (scanEnded s).event 0xA8 (journalArg 4 stOk 0 0) s.time.hive := by
  unfold scanEnd
  rw [hscan]
  dsimp only
  rw [if_pos ⟨hrun, hst, by rw [decide_eq_true hlo, decide_eq_true hhi]; rfl, hok⟩]; rfl

theorem scanEnd_not {p : Nat} (hscan : s.journal.scan = some p)
    (h : s.time.phys < p + scanTicks s.journal ∨ scanMax s p < s.time.phys) : scanEnd s = s := by
  unfold scanEnd
  rw [hscan]
  refine if_neg fun ⟨_, _, hin, _⟩ => ?_
  rw [Bool.and_eq_true, decide_eq_true_eq, decide_eq_true_eq] at hin
  omega

theorem scanEnded_ready : (scanEnded s).isReady .journal = true := by
  simp [State.isReady, scanEnded, bitOf, Func.idx]

theorem exec_scanStart (hrun : s.running = true) (hmode : s.boot.mode = true) (hl : s.loader = none) (hphase : s.boot.phase = .done)
    (hst : s.journal.st = .held) (hscan : s.journal.scan = none) (hstop : s.therm.stop = none) :
    exec .scanStart s = .next (s.modJ (fun j => { j with scan := some s.time.phys })) := by
  change execScanStart s = _
  rw [execScanStart, hl, hphase]
  dsimp only
  rw [if_pos ⟨hrun, hmode, rfl, hst, hscan, hstop⟩]

theorem sealBurnDone_eq {p : Nat} (hrun : s.running = true) (hburn : s.journal.burn = some p) : sealBurnDone s =
    if p + 384000 ≤ s.time.phys then
      (s.modJ (fun j => { j with burn := none, sealed := true })).event 0xA8 (journalArg 5 stOk 0 0) s.time.hive
    else s := by
  rw [sealBurnDone, hburn]
  simp only [hrun, true_and]
  rfl

theorem sealArmExpiry_eq {m : Nat} (hrun : s.running = true) (harm : s.journal.arm = some m) : sealArmExpiry s =
    if 192000000 < s.time.hive - m then s.modJ (fun j => { j with arm := none }) else s := by
  rw [sealArmExpiry, sealLive, harm]
  simp only [hrun, true_and, Option.isSome_some, decide_eq_false_iff_not, Nat.not_le]

end

/-- Settles O31: each event by what it does when it acts; the records of a commit through the index, a checkpoint by
the ranges of its steps. -/
theorem journalEvents : Obligations.JournalEvents := by
  unfold Obligations.JournalEvents
  intro s hwf hrun hstop hearly
  dsimp only
  have hcommit : exec .commitDone s = .next (commitDone s) := congrArg Host.Outcome.next (unlessEarlyIf_nil hearly)
  have hdone : exec .flashOpDone s = .next (flashOpDone s) := congrArg Host.Outcome.next (unlessEarlyIf_nil hearly)
  have hscanEnd : exec .scanEnd s = .next (scanEnd s) := congrArg Host.Outcome.next (unlessEarlyIf_nil hearly)
  have hburnDone : exec .sealBurnDone s = .next (sealBurnDone s) := congrArg Host.Outcome.next (unlessEarlyIf_nil hearly)
  have hexpiry : exec .sealArmExpiry s = .next (sealArmExpiry s) := congrArg Host.Outcome.next (unlessEarlyIf_nil hearly)
  refine ⟨fun o hop hk hsusp hsteps => ?commit, fun hop => ⟨?_, ?_, ?_⟩, fun t0 t1 r hquiet hgc hsecs hdead => ?gc,
    fun hquiet hdue => ?checkpoint, fun hquiet hdue => congrArg Host.Outcome.next (if_neg ?noCheckpoint),
    fun p hst hscan hok hlo hhi => ?scan, fun p hscan h => hscanEnd.trans (congrArg Host.Outcome.next (scanEnd_not hscan h)),
    fun hmode hl hphase hst hscan => exec_scanStart hrun hmode hl hphase hst hscan hstop,
    fun p hburn => hburnDone.trans (congrArg Host.Outcome.next (sealBurnDone_eq hrun hburn)),
    fun m harm => hexpiry.trans (congrArg Host.Outcome.next (sealArmExpiry_eq hrun harm))⟩
  case commit =>
    rw [hcommit, commitDone_ends hop hrun hstop hk hsusp hsteps]
    have hjournal := commitEnded_journal (s := s) (o := o)
    refine ⟨_, _, rfl, congrArg (State.eventNext _ 0xA8) ?_, ?_⟩
    · rw [journalArg_eq, busyRecs, List.length_map, show stOk.toNat = 0 from rfl, Nat.zero_add, Nat.one_mul]
    · rw [show ((commitEnded o s).eventNext 0xA8 (journalArg 1 stOk o.ten (busyRecs s.journal).length)).journal =
        (commitEnded o s).journal from rfl, hjournal]
      exact ⟨rfl, rfl, rfl, rfl, rfl, fun g hg hbusy => groupVisible_key hg hbusy⟩
  case refine_1 => rw [hcommit, commitDone_none hop]
  case refine_2 => rw [hdone, flashOpDone_none hop]
  case refine_3 =>
    change execFlashOpResume s = _
    rw [execFlashOpResume, hop]
  case gc =>
    obtain ⟨hst, hop, hhold⟩ := hquiet
    refine ⟨_, exec_gcStep_erase (bgMay_of hrun hstop hst hop hhold) hgc hsecs hdead, rfl, congrArg (List.filter _) hsecs, rfl,
      fun i hi => ?_, fun p hp => ?_⟩
    · rw [modJ_mem, sectorErased_mem]
      exact memGet_erase hwf hi
    · rw [modJ_mem, sectorErased_mem]
      refine memGet_memPuts_other _ _ _ _ ?_
      rw [List.length_replicate, secOff, flashBase]
      omega
  case checkpoint =>
    obtain ⟨hst, hop, hhold⟩ := hquiet
    obtain ⟨hlt, hcur⟩ := ckSector_spec s
    have hexec := exec_checkpointWrite (bgMay_of hrun hstop hst hop hhold) hdue
    refine ⟨checkpointed s, ckSector s, hexec, hlt, hcur, ?_⟩
    rw [checkpointed_journal, checkpointed_mem]
    exact ⟨rfl, rfl, rfl, rfl, fun hlen p hp => applySteps_outside (ckPlan_outside hlen hp)⟩
  case noCheckpoint =>
    rw [hdue]; exact fun h => Bool.false_ne_true h.2
  case scan =>
    rw [hscanEnd, scanEnd_ends hrun hst hscan hok hlo hhi]
    exact ⟨_, _, rfl, rfl, rfl, rfl, rfl, scanEnded_ready, rfl⟩

end Sys2Proof.Machine
end

section
/-!
PROOFS. The sensors' own events (spec/08_inertial_sensing.md section 8.3, spec/09_external_front_end.md section 9.4).
-/
namespace Sys2Proof.Machine

/-! ## Samples taken (R241) -/

section
variable {s : State} {i : SensorId}

/-- A lane's epoch is no sensor's. -/
theorem bumpLanes_sensor (i k : SensorId) (s : State) : (bumpLanes i s).sensor k = s.sensor k := by
  rw [bumpLanes, forEach]
  induction lanesFed s i generalizing s with
  | nil => rfl
  | cons l ls ih => exact (ih _).trans rfl

theorem sensor_modSensor (s : State) (i k : SensorId) (f : Sensor → Sensor) :
    (s.modSensor i f).sensor k = if i = k then f (s.sensor k) else s.sensor k := by
  rw [State.modSensor]
  split
  next h => subst h; rw [sensor_setSensor_same]
  next h => rw [sensor_setSensor_other _ _ h]

/-- The plausibility check changes a sensor's count and its mark alone (R258). -/
theorem plausCheck_sensor (k : SensorId) (s : State) :
    ∃ n b, (plausCheck s).sensor k = { s.sensor k with nplaus := n, plausBad := b } := by
  have hkeep : ∃ n b, s.sensor k = { s.sensor k with nplaus := n, plausBad := b } := ⟨_, _, rfl⟩
  have hmod (f : Sensor → Sensor) (u : State) (hu : u.sensors = s.sensors) (hf : ∀ x, ∃ n b, f x = { x with nplaus := n, plausBad := b }) :
      ∃ n b, ((u.modSensor 0 f).modSensor 1 f).sensor k = { s.sensor k with nplaus := n, plausBad := b } := by
    rw [sensor_modSensor, sensor_modSensor, show u.sensor k = s.sensor k by rw [State.sensor, hu]; rfl]
    split
    · split
      · obtain ⟨n, b, h⟩ := hf (s.sensor k)
        obtain ⟨n', b', h'⟩ := hf (f (s.sensor k))
        exact ⟨n', b', h'.trans (by rw [h])⟩
      · exact hf _
    · split
      · exact hf _
      · exact hkeep
  unfold plausCheck
  dsimp only
  split
  · split
    · split
      · split
        · exact hmod _ { s with plausRun := s.plausRun + 1 } rfl fun x => ⟨_, _, rfl⟩
        · exact hkeep
      · exact hmod _ { s with plausRun := 0 } rfl fun x => ⟨_, _, rfl⟩
    · exact hkeep
  · exact hkeep

/-- The sample that an instant gives. -/
def sampleOf (i : SensorId) (k : Nat) (r : RawTriple) (s : State) : Sample :=
  let x := s.sensor i
  let stamp := k * periodOf i x
  let p := sampleAt i k stamp r s
  { p.1 with
    settle := decide (0 < x.settle) || decide (stamp < (if x.dcFirst then stamp + msTicks 100 else x.dcUntil)), step := x.stepNext
    epochInc := x.holdInc || (p.2.isSome && x.retInc) }

/-- An instant's sample waits at the end of the sensor's list (R241). -/
theorem takeSample_sensor (i : SensorId) (k : Nat) (r : RawTriple) (s : State) :
    ((takeSample i k r s).sensor i).next = some (k + 1) ∧ ((takeSample i k r s).sensor i).stepNext = false ∧
      ((takeSample i k r s).sensor i).pend = (s.sensor i).pend ++ [sampleOf i k r s] := by
  have hstay (x : Sensor) (b b' : Bool) :
      let u := s.setSensor i x
      let u := if b then bumpLanes i u else u
      let u := if b' then plausCheck u else u
      (u.sensor i).next = x.next ∧ (u.sensor i).stepNext = x.stepNext ∧ (u.sensor i).pend = x.pend := by
    have hbump : ((if b then bumpLanes i (s.setSensor i x) else s.setSensor i x).sensor i) = x := by
      cases b
      · exact sensor_setSensor_same ..
      · exact (bumpLanes_sensor ..).trans (sensor_setSensor_same ..)
    dsimp only
    cases b'
    · simp only [Bool.false_eq_true, if_false, hbump, and_self]
    · obtain ⟨n, p, h⟩ := plausCheck_sensor i (if b then bumpLanes i (s.setSensor i x) else s.setSensor i x)
      simp only [if_true, h, hbump, and_self]
  exact hstay _ _ _

theorem sampleAt_instant (i : SensorId) (k stamp : Nat) (r : RawTriple) (s : State) :
    (sampleAt i k stamp r s).1.ix = k ∧ (sampleAt i k stamp r s).1.stamp = stamp := by
  unfold sampleAt
  dsimp only
  split
  · split <;> exact ⟨rfl, rfl⟩
  · split <;> exact ⟨rfl, rfl⟩

/-- A sensor in RUN gives its own codes (R241). -/
theorem sampleAt_own {k stamp : Nat} {r : RawTriple} (hst : (s.sensor i).st = .run) (hrec : (s.sensor i).recover = 0)
    (hi : inertial i = true) : (sampleAt i k stamp r s).1.cov = false ∧ (sampleAt i k stamp r s).1.empty = false ∧
      (sampleAt i k stamp r s).1.v = (codesOf i r).1 := by
  have hown : ownAt (s.sensor i) stamp = true := by
    rw [ownAt, hst, hrec]; rfl
  rw [sampleAt, if_pos hown, if_pos hi]
  exact ⟨rfl, rfl, rfl⟩

/-- A sensor in FAULT that none covers gives an EMPTY sample (R251). -/
theorem sampleAt_fault {k stamp : Nat} {r : RawTriple} (hst : (s.sensor i).st = .fault) (hcov : (s.sensor i).cover = false) :
    (sampleAt i k stamp r s).1.empty = true ∧ (sampleAt i k stamp r s).1.v = V3.zero := by
  have hown : ¬ ownAt (s.sensor i) stamp = true := by
    rw [ownAt, hst]; exact Bool.false_ne_true
  have hnot : ¬ covers s i stamp = true := by
    rw [covers, hcov]; simp
  rw [sampleAt, if_neg hown, if_neg hnot]
  exact ⟨rfl, rfl⟩

theorem conversion_due {w : RawTriple} {n : Nat} (hrun : s.running = true) (hn : (s.sensor i).next = some n)
    (hdue : n * periodOf i (s.sensor i) ≤ s.time.hive) : conversion i w s = takeSample i n w s := by
  rw [conversion, hn]
  exact if_pos ⟨hrun, hdue⟩

theorem conversion_not {w : RawTriple} (h : (s.sensor i).next = none ∨ s.running = false) : conversion i w s = s := by
  unfold conversion
  split
  · rfl
  next hn =>
    have hrun : s.running = false := h.resolve_left (by rw [hn]; exact Option.some_ne_none _)
    exact if_neg (by rw [hrun]; exact fun hd => Bool.false_ne_true hd.1)

/-! ## Delivery and self-test -/

/-- A sensor's oldest sample reaches its window; no lane follows (R242). -/
theorem delivery_alone {q : Sample} {rest : List Sample} (hrun : s.running = true) (hpend : (s.sensor i).pend = q :: rest)
    (hfed : lanesFed s i = []) : delivery i s = s.setSensor i { s.sensor i with
        pend := rest, last := sampleWords i q, nsamp := (s.sensor i).nsamp + 1
        ncov := if (if inertial i then q.cov else q.sat) then satInc (s.sensor i).ncov else (s.sensor i).ncov
        nempty := if q.empty then satInc (s.sensor i).nempty else (s.sensor i).nempty } := by
  rw [delivery, hpend]
  dsimp only
  rw [if_neg (by rw [hrun]; decide), show lanesFed (State.setSensor s i _) i = [] from hfed]
  rfl

/-- A self-test that passed on every axis. -/
theorem selfTest_good (a b d : Bool) : ((bit01 a + 2 * bit01 b + 4 * bit01 d == 7) = (a && b && d)) := by
  cases a <;> cases b <;> cases d <;> rfl

theorem passBits (a b d : Nat) : a + put b 1 + put d 2 = a + 2 * b + 4 * d := by
  simp only [put]; omega

theorem bit01_good (b : Bool) : (bit01 b == 1) = b := by cases b <;> rfl

end

section
variable {s : State} {i : SensorId}

/-- A self-test has ended (R253, R257). -/
theorem selfTestEnd_due {w : RawTriple} {n : Nat} (hrun : s.running = true) (htest : (s.sensor i).test = some n)
    (hdue : n ≤ s.time.hive) (hfed : lanesFed s i = []) : selfTestEnd i w s =
      let good := if inertial i then deltaOk i w.x && deltaOk i w.y && deltaOk i w.z
        else decide (w.x.natAbs ≤ 200) && decide (w.y.natAbs ≤ 200)
      let pass := if inertial i then bit01 (deltaOk i w.x) + 2 * bit01 (deltaOk i w.y) + 4 * bit01 (deltaOk i w.z)
        else bit01 good
      s.setSensor i { s.sensor i with
        test := none, stpass := BitVec.ofNat 3 pass, stdone := true, stcount := satInc (s.sensor i).stcount
        dx := BitVec.ofInt 16 w.x, dy := BitVec.ofInt 16 w.y
        dz := if inertial i then BitVec.ofInt 16 w.z else (s.sensor i).dz, st := if good then (s.sensor i).st else .fault } := by
  have hmay : ¬ (s.running = false ∨ s.time.hive < n) := by
    rw [hrun, not_or]
    exact ⟨by decide, Nat.not_lt.mpr hdue⟩
  have hquiet (x : Sensor) : sensorNotice 1 i (s.setSensor i x) = s.setSensor i x := by
    rw [sensorNotice, show lanesFed (s.setSensor i x) i = [] from hfed]; rfl
  rw [selfTestEnd, htest]
  dsimp only
  rw [if_neg hmay, hquiet]
  by_cases hi : inertial i = true
  · simp only [if_pos hi, selfTest_good, passBits]
  · simp only [if_neg hi, bit01_good]

end

/-! ## Impedance checks (R268 to R273) -/

section
variable {s : State} {ch : Fin 8} {m : ToneMeas} {n : Nat}

theorem toneStart_due (hrun : s.running = true) (hst : (s.sensor (extOf ch)).st = .run) (hper : (s.sensor (extOf ch)).tone.tper ≠ 0)
    (hmeas : (s.sensor (extOf ch)).tone.meas = none)
    (hdue : (s.sensor (extOf ch)).tone.notBefore ≤
      s.time.hive / tonePeriod (s.sensor (extOf ch)).tone.tper * tonePeriod (s.sensor (extOf ch)).tone.tper) :
    toneStart ch s = s.setSensor (extOf ch) { s.sensor (extOf ch) with tone := { (s.sensor (extOf ch)).tone with
      meas := some (s.time.hive / tonePeriod (s.sensor (extOf ch)).tone.tper * tonePeriod (s.sensor (extOf ch)).tone.tper)
      measSat := false
      notBefore := s.time.hive / tonePeriod (s.sensor (extOf ch)).tone.tper * tonePeriod (s.sensor (extOf ch)).tone.tper + 1 } } :=
  if_pos ⟨hrun, hst, hper, hmeas, hdue⟩

theorem toneStart_not (hst : (s.sensor (extOf ch)).st ≠ .run) : toneStart ch s = s := if_neg fun h => hst h.2.1

theorem toneResult_due (hrun : s.running = true) (hmeas : (s.sensor (extOf ch)).tone.meas = some n)
    (hdue : n + 6291456 + 192 ≤ s.time.hive) : toneResult ch m s =
      if (s.sensor (extOf ch)).tone.measSat then invalidResult ch n s else validResult ch n m s := by
  rw [toneResult, hmeas]
  dsimp only
  rw [if_neg]
  rintro (h | h)
  · rw [hrun] at h; exact Bool.false_ne_true h.symm
  · exact Nat.not_le.mpr h hdue

/-- A valid result in voltage mode: its measurement in the channel's record, and OPEN tested (R271, R272). -/
theorem validResult_voltage (hv : (s.sensor (extOf ch)).voltage = true) :
    ((validResult ch n m s).sensor (extOf ch)).tone = { (s.sensor (extOf ch)).tone with
      meas := none, measSat := false, mtime := n, ncheck := satInc (s.sensor (extOf ch)).tone.ncheck
      cmeas := BitVec.ofNat 24 (min m.c 10000)
      fOpen := flagTest (decide ((s.sensor (extOf ch)).nom < min m.c 10000)) 1 2 (s.sensor (extOf ch)).tone.fOpen } := by
  have hforce (b : Bool) (u : State) (k : SensorId) : (if b then watchForce ch.val u else u).sensor k = u.sensor k := by
    cases b <;> rfl
  unfold validResult
  dsimp only
  simp only [flagTests, hv, if_true]
  refine (congrArg Sensor.tone (hforce _ _ _)).trans ?_
  rw [sensor_setSensor_same]

end

/-- Settles O17: each event by what it does when it is due, and the waiting sample by the sensor that takes it. -/
theorem sensorEvents : Obligations.SensorEvents := by
  unfold Obligations.SensorEvents
  intro s k w ch m
  dsimp only
  have hconv (h : Instr.conversion k w ∉ s.early) : exec (.conversion k w) s = .next (conversion k w s) :=
    congrArg Host.Outcome.next (unlessEarly_acts _ _ _ h)
  have hstart (h : Instr.toneMeasStart ch ∉ s.early) : exec (.toneMeasStart ch) s = .next (toneStart ch s) :=
    congrArg Host.Outcome.next (unlessEarly_acts _ _ _ h)
  have hresult (h : Instr.toneResult ch m ∉ s.early) : exec (.toneResult ch m) s = .next (toneResult ch m s) :=
    congrArg Host.Outcome.next (unlessEarly_acts _ _ _ h)
  refine ⟨fun n he hrun hn hdue => ?conversion, fun he h => (hconv he).trans (congrArg Host.Outcome.next (conversion_not h)),
    fun he => congrArg Host.Outcome.next (unlessEarly_acted _ _ _ he), fun q rest he hrun hpend hfed => ?delivery,
    fun n he hrun htest hdue hfed => ?selfTest,
    fun he hrun hst hper hmeas hdue => (hstart he).trans (congrArg Host.Outcome.next (toneStart_due hrun hst hper hmeas hdue)),
    fun he hst => (hstart he).trans (congrArg Host.Outcome.next (toneStart_not hst)),
    fun n he hrun hmeas hdue hsat => ?invalid, fun n he hrun hmeas hdue hsat hv => ?valid⟩
  case conversion =>
    rw [hconv he, conversion_due hrun hn hdue]
    obtain ⟨hnext, hstep, hpend⟩ := takeSample_sensor k n w s
    obtain ⟨hix, hstamp⟩ := sampleAt_instant k n (n * periodOf k (s.sensor k)) w s
    exact ⟨_, sampleOf k n w s, rfl, hnext, hpend, hstamp, hix, rfl, hstep, fun hst hrec hi => sampleAt_own hst hrec hi,
      fun hst hcov => sampleAt_fault hst hcov⟩
  case delivery =>
    exact congrArg Host.Outcome.next ((unlessEarly_acts _ _ _ he).trans (delivery_alone hrun hpend hfed))
  case selfTest =>
    exact congrArg Host.Outcome.next ((unlessEarly_acts _ _ _ he).trans (selfTestEnd_due hrun htest hdue hfed))
  case invalid =>
    rw [hresult he, toneResult_due hrun hmeas hdue, if_pos hsat, invalidResult, State.modSensor]
    have harg (a b : Nat) : toWord (a + put b 4 + put 1 9) = BitVec.ofNat 32 (a + 16 * b + 512) := by
      rw [toWord, put, put, show a + b * 2 ^ 4 + 1 * 2 ^ 9 = a + 16 * b + 512 by omega]
    rw [harg]
    rfl
  case valid =>
    rw [hresult he, toneResult_due hrun hmeas hdue, if_neg (by rw [hsat]; exact Bool.false_ne_true)]
    refine ⟨_, rfl, ?_⟩
    rw [validResult_voltage hv]
    exact ⟨rfl, rfl, rfl, rfl, rfl⟩

end Sys2Proof.Machine
end

section
/-!
PROOFS. Lane records, decisions, ring writes and the scrubber (spec/10_filter_lanes_and_calibration.md section 10.1,
spec/11_recognizers_and_comb_buffer.md sections 11.3, 11.5 and 11.7).
-/
namespace Sys2Proof.Machine

/-! ## Loops that leave a part of the state -/

/-- A loop each step of which keeps a property keeps it. -/
theorem forEach_keeps {α : Type} {P : State → Prop} {f : α → State → State} (h : ∀ a u, P u → P (f a u)) (l : List α)
    {s : State} (hs : P s) : P (forEach l f s) := by
  rw [forEach]
  induction l generalizing s with
  | nil => exact hs
  | cons a l ih => exact ih (h a s hs)

/-- A loop each step of which leaves a part of the state leaves it. -/
theorem forEach_field {α β : Type} {g : State → β} {f : α → State → State} (h : ∀ a u, g (f a u) = g u) (l : List α)
    (s : State) : g (forEach l f s) = g s :=
  forEach_keeps (P := fun u => g u = g s) (fun a u hu => (h a u).trans hu) l rfl

/-! ## Lane records (R288, R290) -/

section
variable {s : State}

theorem queueEvent_lanes (q : QueueId) (kind lo hi : Nat) (s : State) : (queueEvent q kind lo hi s).lanes = s.lanes := by
  unfold queueEvent; split <;> rfl

theorem writeItem_lanes (q : QueueId) (item : List QSlot) (s : State) : (writeItem q item s).lanes = s.lanes := by
  unfold writeItem
  dsimp only
  split
  · rfl
  · split
    · rfl
    · rw [queueEvent_lanes]; rfl

theorem ringOffer_lanes (l : LaneId) (ws : Words) (n : RingId) (s : State) : (ringOffer l ws n s).lanes = s.lanes := by
  unfold ringOffer
  dsimp only
  split
  · split <;> rfl
  · rfl

/-- What a lane has put out. -/
def laneOut (x : Lane) : Word × Words × BitVec 16 := (x.nout, x.last, x.ngap)

theorem meetErrs_out (x : Lane) : laneOut (meetErrs x) = laneOut x := by
  have hfold (es : List (Option Nat × Bool)) (y : Lane) (f : Lane → Option Nat × Bool → Lane)
      (hf : ∀ z e, laneOut (f z e) = laneOut z) : laneOut (es.foldl f y) = laneOut y := by
    induction es generalizing y with
    | nil => rfl
    | cons e es ih => exact (ih (f y e)).trans (hf y e)
  refine hfold _ _ _ fun z e => ?_
  split
  · rfl
  · split <;> rfl

/-- The lane as its input's stages meet it: the next shadow copied, a discontinuity noted, the errors met (R294, R313). -/
def inputStart (x : Lane) (u : LaneIn) : Lane :=
  let x := match x.nextShadow with
    | some t => x.copyShadow t
    | none => x
  let disc := x.resumed || (match x.prev with | some p => u.ix != p + x.upCr | none => false)
  let x := { x with resumed := false, prev := some u.ix }
  meetErrs (if disc then { x with stages := x.stages.map Stage.zero, gap := true } else x)

theorem inputStart_out (x : Lane) (u : LaneIn) : laneOut (inputStart x u) = laneOut x := by
  unfold inputStart
  dsimp only
  rw [meetErrs_out, apply_ite laneOut]
  refine (ite_self (c := _ = true) (laneOut (match x.nextShadow with | some t => x.copyShadow t | none => x))).trans ?_
  cases x.nextShadow <;> rfl

/-- What the stages make of an input (R294, R295, R311, R312). -/
def inputRest (l : LaneId) (clk : Nat) (cal : CalFn) (x : Lane) (u : LaneIn) : Lane × Option (V3 × V3) :=
  let n := reached u.ix x.stages
  let late := overrun clk (x.stages.take n)
  let x := { x with stages := noteClk clk n x.stages, novr := if late then satInc x.novr else x.novr }
  let flags := u.flags ||| flagIf late fEmpty
  if flags / fEmpty % 2 = 1 then
    let x := { x with stages := x.stages.map Stage.zero, win := x.win ||| flags }
    if (u.ix + 1) % max 1 x.cr = 0 then (emitRecord l x u V3.zero true (flagIf (x.shPoison || x.stages.any (·.poison)) fPoison), none) else (x, none)
  else
    let o := runChain x.triad x.shadow u.ix cal u.v x.stages
    let x := { x with
      stages := o.stages, win := x.win ||| flags ||| o.flags
      tsub := if o.cal.isSome then o.flags / fTsub % 2 == 1 else x.tsub }
    match o.y with
    | none => (x, o.cal)
    | some y =>
      (emitRecord l x u y false (flagIf o.settling fSettling ||| flagIf (o.poison || x.shPoison) fPoison), o.cal)

theorem takeInput_eq (l : LaneId) (clk : Nat) (cal : CalFn) (x : Lane) (u : LaneIn) :
    takeInput l clk cal x u = inputRest l clk cal (inputStart x u) u := rfl

theorem inputRest_out (l : LaneId) (clk : Nat) (cal : CalFn) (x : Lane) (u : LaneIn) :
    laneOut (inputRest l clk cal x u).1 = laneOut x := by
  unfold inputRest
  dsimp only
  by_cases hempty : (u.flags ||| flagIf (overrun clk (x.stages.take (reached u.ix x.stages))) fEmpty) / fEmpty % 2 = 1
  · rw [if_pos hempty]
    split <;> rfl
  · rw [if_neg hempty]
    split <;> rfl

/-- An input taken puts nothing out yet. -/
theorem takeInput_out (l : LaneId) (clk : Nat) (cal : CalFn) (x : Lane) (u : LaneIn) :
    laneOut (takeInput l clk cal x u).1 = laneOut x :=
  (congrArg (fun p => laneOut p.1) (takeInput_eq l clk cal x u)).trans ((inputRest_out ..).trans (inputStart_out x u))

/-- A proposal counts a rejection in its own lane alone. -/
theorem offerProposal_lane (i : SensorId) (l : LaneId) (stamp : Nat) (e : BitVec 8) (sl : BitVec 3) (p : Option Words)
    (s : State) (k : LaneId) : ∃ n, (offerProposal i l stamp e sl p s).lane k = { s.lane k with nrej := n } := by
  unfold offerProposal
  dsimp only
  split
  · by_cases hk : l = k
    · subst hk; exact ⟨_, lane_setLane_same ..⟩
    · exact ⟨_, lane_setLane_other _ _ hk⟩
  · exact ⟨_, rfl⟩

theorem endRun_lane (i : SensorId) (l k : LaneId) (s : State) : ∃ n, (endRun i l s).lane k = { s.lane k with nrej := n } := by
  unfold endRun
  dsimp only
  split
  · exact ⟨_, rfl⟩
  · split
    · exact ⟨_, rfl⟩
    · split
      · exact ⟨_, rfl⟩
      · exact offerProposal_lane ..

/-- A lane as another state has it, but for its count of rejections. -/
def LaneKept (k : LaneId) (s u : State) : Prop := ∃ n, u.lane k = { s.lane k with nrej := n }

theorem LaneKept.refl (k : LaneId) (s : State) : LaneKept k s s := ⟨_, rfl⟩

theorem LaneKept.endRun {k : LaneId} {s u : State} (h : LaneKept k s u) (i : SensorId) (l : LaneId) :
    LaneKept k s (endRun i l u) := by
  obtain ⟨n, hn⟩ := h
  obtain ⟨m, hm⟩ := endRun_lane i l k u
  exact ⟨m, hm.trans (by rw [hn])⟩

theorem LaneKept.modSensor {k : LaneId} {s u : State} (h : LaneKept k s u) (i : SensorId) (f : Sensor → Sensor) :
    LaneKept k s (u.modSensor i f) := h

theorem LaneKept.ite {c : Prop} [Decidable c] {k : LaneId} {s u v : State} (hu : LaneKept k s u) (hv : LaneKept k s v) :
    LaneKept k s (if c then u else v) := by
  split
  · exact hu
  · exact hv

theorem runInput_lane (i : SensorId) (l k : LaneId) (stamp : Nat) (e : BitVec 8) (sl : BitVec 3) (fl : Nat)
    (cal : Option (V3 × V3)) (s : State) : LaneKept k s (runInput i l stamp e sl fl cal s) := by
  have hfirst (b : Bool) : LaneKept k s (match (s.sensor i).run with
      | some run => if b = false ∨ run.epoch ≠ e then endRun i l s else s
      | none => s) := by
    split
    · exact .ite ((LaneKept.refl k s).endRun i l) (.refl k s)
    · exact .refl k s
  unfold runInput
  dsimp only
  refine .ite (.ite (.endRun (.modSensor ?_ _ _) i l) (.modSensor ?_ _ _)) ?_ <;> exact hfirst _

/-- An input changes no other lane but for its count of rejections. -/
theorem laneTake_other {l k : LaneId} (hk : l ≠ k) (u : LaneIn) (s : State) :
    ∃ n, (laneTake l u s).lane k = { s.lane k with nrej := n } := by
  unfold laneTake
  dsimp only
  split
  · exact ⟨_, rfl⟩
  · split
    · obtain ⟨n, hn⟩ := runInput_lane (finOf 11 (takeInput l s.time.clk (laneCal s (s.lane l) u.slot) (s.lane l) u).1.src) l k
        u.stamp u.epoch u.slot (u.flags ||| flagIf ((takeInput l s.time.clk (laneCal s (s.lane l) u.slot) (s.lane l) u).1.novr !=
          (s.lane l).novr) fEmpty) (takeInput l s.time.clk (laneCal s (s.lane l) u.slot) (s.lane l) u).2
        (s.setLane l (takeInput l s.time.clk (laneCal s (s.lane l) u.slot) (s.lane l) u).1)
      exact ⟨n, hn.trans (by rw [lane_setLane_other _ _ hk])⟩
    · exact ⟨_, lane_setLane_other _ _ hk⟩

/-- An input puts nothing out in its own lane either. -/
theorem laneTake_out (l : LaneId) (u : LaneIn) (s : State) : laneOut ((laneTake l u s).lane l) = laneOut (s.lane l) := by
  have htaken : laneOut ((s.setLane l (takeInput l s.time.clk (laneCal s (s.lane l) u.slot) (s.lane l) u).1).lane l) =
      laneOut (s.lane l) := by
    rw [lane_setLane_same, takeInput_out]
  unfold laneTake
  dsimp only
  split
  · rfl
  · split
    · obtain ⟨n, hn⟩ := runInput_lane (finOf 11 (takeInput l s.time.clk (laneCal s (s.lane l) u.slot) (s.lane l) u).1.src) l l
        u.stamp u.epoch u.slot (u.flags ||| flagIf ((takeInput l s.time.clk (laneCal s (s.lane l) u.slot) (s.lane l) u).1.novr !=
          (s.lane l).novr) fEmpty) (takeInput l s.time.clk (laneCal s (s.lane l) u.slot) (s.lane l) u).2
        (s.setLane l (takeInput l s.time.clk (laneCal s (s.lane l) u.slot) (s.lane l) u).1)
      exact (congrArg laneOut hn).trans htaken
    · exact htaken

/-- A record that reaches another lane leaves this one but for its count of rejections. -/
theorem laneFromLane_other {m l k : LaneId} (hk : l ≠ k) (r : LaneRec) (s : State) :
    ∃ n, (laneFromLane m r l s).lane k = { s.lane k with nrej := n } := by
  unfold laneFromLane
  dsimp only
  split
  · obtain ⟨n, hn⟩ := laneTake_other hk ⟨r.ix, r.stamp, r.v, r.flags &&& fWindow, r.epoch, r.slot⟩
      (s.setLane l { s.lane l with epoch := r.epoch, slot := r.slot })
    exact ⟨n, hn.trans (by rw [lane_setLane_other _ _ hk])⟩
  · exact ⟨_, rfl⟩

theorem laneFromLane_out (m : LaneId) (r : LaneRec) (l k : LaneId) (s : State) :
    laneOut ((laneFromLane m r l s).lane k) = laneOut (s.lane k) := by
  by_cases hk : l = k
  · subst hk
    unfold laneFromLane
    dsimp only
    split
    · exact (laneTake_out ..).trans (by rw [lane_setLane_same]; rfl)
    · rfl
  · obtain ⟨n, hn⟩ := laneFromLane_other (m := m) hk r s
    rw [hn]; rfl

/-- The records that go from one lane to the others leave a lane that does not take them. -/
theorem laneFromLane_waiting {m k : LaneId} {src : Nat} {q : List LaneRec} (hsrc : src ≠ 32 + m.val) (r : LaneRec) (l : LaneId)
    (u : State) (hu : (u.lane k).src = src ∧ (u.lane k).outq = q) :
    ((laneFromLane m r l u).lane k).src = src ∧ ((laneFromLane m r l u).lane k).outq = q := by
  by_cases hk : l = k
  · subst hk
    have hnot : laneFromLane m r l u = u := if_neg fun h => hsrc (hu.1.symm.trans h.2)
    rw [hnot]
    exact hu
  · obtain ⟨n, hn⟩ := laneFromLane_other (m := m) hk r u
    rw [hn]
    exact hu

/-- The consumers of a lane's record other than lanes: its event, recognizers, rings and queues (R288). -/
def recordOffered (l : LaneId) (evt : Bool) (r : LaneRec) (s : State) : State :=
  let s := if evt then s.event l.val (laneArg r) r.stamp else s
  let s := forEach (allIx 14) (fun k s =>
    let y := s.recog k
    if y.st = .run ∧ y.srcLane = l.val then s.setRecog k { y with inq := y.inq ++ [r] } else s) s
  let s := forEach (allIx 64) (ringOffer l r.words) s
  forEach (allIx 64) (fun q s =>
    if (s.queue q).prod = 1 ∧ (s.queue q).pinst = l.val then writeItem q (recordItem r.words) s else s) s

theorem recordOffered_lanes (l : LaneId) (evt : Bool) (r : LaneRec) (s : State) : (recordOffered l evt r s).lanes = s.lanes := by
  unfold recordOffered
  dsimp only
  rw [forEach_field (g := State.lanes) (fun q u => by split; exacts [writeItem_lanes .., rfl]),
    forEach_field (g := State.lanes) (fun n u => ringOffer_lanes l r.words n u),
    forEach_field (g := State.lanes) (fun k u => by split <;> rfl)]
  cases evt <;> rfl

/-- A lane once its oldest record has gone (R288). -/
def recordGone (x : Lane) (r : LaneRec) (rest : List LaneRec) : Lane :=
  { x with
    outq := rest, last := (r.words ++ [0, 0]).take 7, nout := x.nout + 1
    ngap := if r.flags / fGap % 2 = 1 then satInc x.ngap else x.ngap }

theorem laneRecord_due {l : LaneId} {r : LaneRec} {rest : List LaneRec} (hrun : s.running = true)
    (hq : (s.lane l).outq = r :: rest) : laneRecord l s = forEach (allIx 24) (laneFromLane l r)
      (recordOffered l (s.lane l).evt r (s.setLane l (recordGone (s.lane l) r rest))) := by
  rw [laneRecord, hq]
  dsimp only
  rw [if_neg (by rw [hrun]; decide)]
  rfl

theorem laneRecord_not {l : LaneId} (h : (s.lane l).outq = [] ∨ s.running = false) : laneRecord l s = s := by
  unfold laneRecord
  dsimp only
  split
  · rfl
  next hq => exact if_pos (h.resolve_left (by rw [hq]; exact List.cons_ne_nil _ _))

/-- A lane's oldest record reaches its window (R288, R290). -/
theorem laneRecord_lane {l : LaneId} {r : LaneRec} {rest : List LaneRec} (hrun : s.running = true)
    (hq : (s.lane l).outq = r :: rest) : laneOut ((laneRecord l s).lane l) = laneOut (recordGone (s.lane l) r rest) ∧
      ((s.lane l).src ≠ 32 + l.val → ((laneRecord l s).lane l).outq = rest) := by
  have hgone : (recordOffered l (s.lane l).evt r (s.setLane l (recordGone (s.lane l) r rest))).lane l =
      recordGone (s.lane l) r rest := by
    rw [State.lane, recordOffered_lanes]
    exact lane_setLane_same ..
  rw [laneRecord_due hrun hq]
  refine ⟨?_, fun hsrc => ?_⟩
  · exact (forEach_field (g := fun u => laneOut (u.lane l)) (fun k u => laneFromLane_out ..) _ _).trans (congrArg laneOut hgone)
  · exact (forEach_keeps (P := fun u => (u.lane l).src = (s.lane l).src ∧ (u.lane l).outq = rest)
      (fun k u hu => laneFromLane_waiting hsrc r k u hu) _ (by rw [hgone]; exact ⟨rfl, rfl⟩)).2

end

/-! ## Decisions (R319) -/

section
variable {s : State} {k : RecogId}

theorem headOf_congr {s u : State} (h : u.lanes = s.lanes) (n l : Nat) : headOf u n l = headOf s n l := by
  induction n generalizing l with
  | zero => rfl
  | succ n ih => rw [headOf, headOf, h]; simp only [ih]

theorem ringDone_recogs (n : RingId) (s : State) : (ringDone n s).recogs = s.recogs := by
  unfold ringDone
  dsimp only
  split <;> rfl

/-- A trigger of a ring leaves every recognizer. -/
theorem ringTrigger_recogs (n : RingId) (src stamp : Nat) (s : State) : (ringTrigger n src stamp s).recogs = s.recogs := by
  have hors (l : List Nat) (x : Ring) (f : Nat → Nat) (b : Word) (u : State) :
      (l.foldl (fun s k => orWord7 x (f k) b s) u).recogs = u.recogs := by
    induction l generalizing u with
    | nil => rfl
    | cons a l ih => exact ih _
  unfold ringTrigger
  dsimp only
  split
  · rfl
  · split
    · rfl
    · rw [ringDone_recogs]
      split
      · rfl
      · exact hors _ _ _ _ _

/-- The recognizer after an event: its argument, its stamp and its count (R319). -/
theorem recogEvent_told (r : RecogId) (kind arg stamp : Nat) (s : State) :
    ((recogEvent r kind arg stamp s).recog r).lastT = stamp ∧
      ((recogEvent r kind arg stamp s).recog r).lastArg = BitVec.ofNat 32 (arg + kind * 2 ^ 28) ∧
      ((recogEvent r kind arg stamp s).recog r).nevt = satInc (s.recog r).nevt ∧
      ((recogEvent r kind arg stamp s).recog r).inq = (s.recog r).inq := by
  have hset (x : Recog) (w : Word) (b : Prop) [Decidable b] (f : RingId → State → State) (hf : ∀ n u, (f n u).recogs = u.recogs) :
      (if b then forEach (allIx 64) f ((s.setRecog r x).event (0x20 + r.val) w stamp)
        else (s.setRecog r x).event (0x20 + r.val) w stamp).recog r = x := by
    split
    · rw [State.recog, forEach_field (g := State.recogs) hf]
      exact recog_setRecog_same ..
    · exact recog_setRecog_same ..
  have hrings (n : RingId) (u : State) : (if (u.ring n).mask / 2 ^ r.val % 2 = 1 then ringTrigger n (r.val + 1) stamp u else u).recogs =
      u.recogs := by
    split
    · exact ringTrigger_recogs ..
    · rfl
  unfold recogEvent
  dsimp only
  rw [hset _ _ _ _ hrings]
  exact ⟨rfl, rfl, rfl, rfl⟩

/-- A detector zeroed (R319). -/
theorem zeroDetect_recog (r : RecogId) (s : State) : ∃ w t n, (zeroDetect r s).recog r =
    { s.recog r with det := Detect.zero, lastArg := w, lastT := t, nevt := n } := by
  obtain ⟨d, w, t, n, h⟩ := abortCond_recog r s
  refine ⟨w, t, n, ?_⟩
  rw [zeroDetect]
  dsimp only
  rw [recog_setRecog_same, h]

/-- A recognizer's oldest record, its sensor behind it as it names it (R316, R319). -/
theorem recogDecide_due {r : LaneRec} {rest : List LaneRec} {i : SensorId} (hrun : s.running = true)
    (hst : (s.recog k).st = .run) (hq : (s.recog k).inq = r :: rest) (hsensor : sensorBehind s (s.recog k).srcLane = some i)
    (hi : i.val = (s.recog k).sensor) : recogDecide k s =
      if !evaluable r.flags then
        (zeroDetect k (s.setRecog k { s.recog k with inq := rest })).setRecog k
          { (zeroDetect k (s.setRecog k { s.recog k with inq := rest })).recog k with
            nreset := satInc ((zeroDetect k (s.setRecog k { s.recog k with inq := rest })).recog k).nreset }
      else
        match (evaluate (rkind k.val) (unitScale i (s.sensor i)) { s.recog k with inq := rest } r).2 with
        | some (kind, arg) => recogEvent k kind arg r.stamp ((s.setRecog k { s.recog k with inq := rest }).setRecog k
            (evaluate (rkind k.val) (unitScale i (s.sensor i)) { s.recog k with inq := rest } r).1)
        | none => (s.setRecog k { s.recog k with inq := rest }).setRecog k
            (evaluate (rkind k.val) (unitScale i (s.sensor i)) { s.recog k with inq := rest } r).1 := by
  have hbehind (x : Recog) (hx : x.srcLane = (s.recog k).srcLane) : sensorBehind (s.setRecog k x) x.srcLane = some i :=
    (headOf_congr (s := s) rfl 24 _).trans ((congrArg (headOf s 24) hx).trans hsensor)
  have hgo : ¬ (s.running = false ∨ (s.recog k).st ≠ .run) := by
    rw [hrun, hst]; decide
  rw [recogDecide, hq]
  dsimp only
  rw [if_neg hgo, hbehind]
  · dsimp only
    rw [if_neg (not_not.mpr hi)]
    rfl
  · rfl

theorem setRecog_setRecog (s : State) (k : RecogId) (x y : Recog) : (s.setRecog k x).setRecog k y = s.setRecog k y := by
  simp [State.setRecog, vset]

theorem evaluable_iff {flags : Nat} : evaluable flags = true ↔ flags &&& 83 = 0 := beq_iff_eq

theorem stepCandidate_inq (x : Recog) (t : Nat) : (stepCandidate x t).1.inq = x.inq := by
  unfold stepCandidate
  dsimp only
  (repeat' split) <;> rfl

theorem decideStep_inq (x : Recog) (u t : Nat) (v : V3) : (decideStep x u t v).1.inq = x.inq := by
  have hcand (y : Recog) (t : Nat) (hy : y.inq = x.inq) : (stepCandidate y t).1.inq = x.inq := (stepCandidate_inq y t).trans hy
  unfold decideStep
  dsimp only
  split
  · split
    · split <;> exact hcand _ _ rfl
    · split <;> rfl
  · split <;> rfl

/-- An evaluation takes no record of its own accord. -/
theorem evaluate_inq (kd : RKind) (u : Nat) (x : Recog) (r : LaneRec) : (evaluate kd u x r).1.inq = x.inq := by
  cases kd with
  | step => exact decideStep_inq _ _ _ _
  | tap | fall | still | impact => rfl

end

/-! ## Ring writes (R323, R330) -/

section
variable {s : State}

theorem wordOfBytes_wordBytes (w : Word) : wordOfBytes (wordBytes w) = w := by
  have hlt := w.isLt
  simp only [wordOfBytes, wordBytes, leNat, toWord, BitVec.toNat_ofNat]
  refine BitVec.eq_of_toNat_eq ?_
  rw [BitVec.toNat_ofNat]
  omega

theorem memPuts_append (m : List Host.Cell) (a : Nat) (xs ys : List Byte) :
    memPuts m a (xs ++ ys) = memPuts (memPuts m a xs) (a + xs.length) ys := by
  induction xs generalizing m a with
  | nil => rfl
  | cons x xs ih => rw [List.cons_append, memPuts, memPuts, ih, List.length_cons, show a + 1 + xs.length = a + (xs.length + 1) by omega]

/-- Words written are the words read back. -/
theorem memWord_memPuts {m : List Host.Cell} (hm : Memory.wf m = true) (a : Nat) (ws : Words) {i : Nat} (hi : i < ws.length) :
    memWord (memPuts m a (bytesOfWords ws)) (a + 4 * i) = wordAt ws i := by
  induction ws generalizing m a i with
  | nil => cases hi
  | cons w ws ih =>
    have hsplit : memPuts m a (bytesOfWords (w :: ws)) = memPuts (memPuts m a (wordBytes w)) (a + 4) (bytesOfWords ws) := by
      rw [bytesOfWords, List.flatMap_cons, memPuts_append]; rfl
    rw [hsplit]
    cases i with
    | zero =>
      rw [memWord, memGets_congr (m' := memPuts m a (wordBytes w)) (a + 4 * 0) 4
        (fun b hlo hhi => memGet_memPuts_other _ _ _ _ (.inl (by omega)))]
      exact (congrArg wordOfBytes (memGets_memPuts (wordBytes w) m a hm)).trans (wordOfBytes_wordBytes w)
    | succ i =>
      rw [show a + 4 * (i + 1) = a + 4 + 4 * i by omega, ih (wf_memPuts _ _ _ hm) _ (Nat.lt_of_succ_lt_succ hi)]
      rfl

theorem ringDone_comb (n : RingId) (s : State) : (ringDone n s).comb = s.comb := by
  unfold ringDone
  dsimp only
  split <;> rfl

/-- The eight words of a ring's entry. -/
def entryWords (x : Ring) (ws : Words) : Words := (List.range 7).map (wordAt ws) ++
  [toWord ((x.nwrit + 1) % 2 ^ 24 + put (bit01 x.trigNext) 24 + put (bit01 (x.trigd && !x.trigNext)) 25 + put (bit01 x.lostNext) 26 +
    put x.armn.toNat 27)]

theorem entryWords_word (x : Ring) (ws : Words) {i : Nat} (hi : i < 7) : wordAt (entryWords x ws) i = wordAt ws i := by
  rw [wordAt, entryWords, List.getD_append _ _ _ _ (by rw [List.length_map, List.length_range]; exact hi),
    List.getD_eq_getElem _ _ (by rw [List.length_map, List.length_range]; exact hi), List.getElem_map, List.getElem_range]

theorem entryWords_length (x : Ring) (ws : Words) : (entryWords x ws).length = 8 := by
  rw [entryWords, List.length_append, List.length_map, List.length_range]; rfl

/-- A ring once an entry has been written. -/
def entryRing (x : Ring) : Ring :=
  { x with
    wptr := (x.wptr + 1) % max 1 x.cap, nwrit := x.nwrit + 1, lostNext := false, trigNext := false
    trigix := if x.trigNext then x.wptr else x.trigix
    pregot := if x.trigNext then min x.pre (x.nwrit + 1) else x.pregot
    postgot := if x.trigd && !x.trigNext then x.postgot + 1 else x.postgot }

theorem writeEntry_eq (n : RingId) (ws : Words) (s : State) : writeEntry n ws s =
    ringDone n ((s.putBytes ((s.ring n).entry (s.ring n).wptr) (bytesOfWords (entryWords (s.ring n) ws))).setRing n
      (entryRing (s.ring n))) := rfl

/-- What an entry changes of its ring, and where it stands. -/
theorem writeEntry_spec (n : RingId) (ws : Words) (s : State) :
    ((writeEntry n ws s).ring n).nwrit = (s.ring n).nwrit + 1 ∧
      ((writeEntry n ws s).ring n).wptr = ((s.ring n).wptr + 1) % max 1 (s.ring n).cap ∧
      (writeEntry n ws s).comb = s.comb ∧
      (writeEntry n ws s).mem = memPuts s.mem ((s.ring n).entry (s.ring n).wptr) (bytesOfWords (entryWords (s.ring n) ws)) := by
  obtain ⟨st, hst⟩ := ringDone_ring n
    ((s.putBytes ((s.ring n).entry (s.ring n).wptr) (bytesOfWords (entryWords (s.ring n) ws))).setRing n (entryRing (s.ring n)))
  rw [ring_setRing_same] at hst
  rw [writeEntry_eq, hst, ringDone_comb, ringDone_keepsMem, setRing_mem, putBytes_mem, setRing_comb, putBytes_comb]
  exact ⟨rfl, rfl, rfl, rfl⟩

theorem combFree_iff : s.combFree = true ↔ s.comb.busyClk ≠ some s.time.clk := bne_iff_ne

theorem ringWrite_due {n : RingId} {m : BitVec 5} {ws : Words} {rest : List (RingId × BitVec 5 × Words)} (hrun : s.running = true)
    (hfree : s.comb.busyClk ≠ some s.time.clk) (hq : s.comb.wq = (n, m, ws) :: rest) : ringWrite s =
      if (s.ring n).st = .run ∧ (s.ring n).armn = m then
        writeEntry n ws { s with comb := { s.comb with wq := rest, busyClk := some s.time.clk } }
      else { s with comb := { s.comb with wq := rest, busyClk := some s.time.clk } } := by
  rw [ringWrite, hq]
  dsimp only
  rw [if_pos ⟨hrun, combFree_iff.mpr hfree⟩]
  rfl

theorem ringWrite_not (h : s.comb.wq = [] ∨ s.comb.busyClk = some s.time.clk) : ringWrite s = s := by
  unfold ringWrite
  split
  · rfl
  next hq =>
    refine if_neg fun hgo => combFree_iff.mp hgo.2 (h.resolve_left ?_)
    rw [hq]; exact List.cons_ne_nil _ _

end

/-! ## The scrubber (R334) -/

section
variable {s : State}

/-- A line of COMB has been scrubbed. -/
def scrubbed (s : State) : CombSt :=
  { s.comb with lastScrub := s.time.phys, busyClk := some s.time.clk, scrubix := (s.comb.scrubix + 1) % 131072 }

theorem exec_scrubLine (hrun : s.running = true) (hfree : s.comb.busyClk ≠ some s.time.clk) (hready : s.isReady .comb = true)
    (hup : s.domUp .comb = true) (hdue : s.comb.lastScrub + 3072 ≤ s.time.phys)
    (hnone : ((s.ecc.filter (fun e => inSpan (combBase + 32 * s.comb.scrubix) 32 e.addr)).filter (fun e => e.dbl)) = []) :
    exec .scrubLine s = .next
      (if (s.ecc.filter (fun e => inSpan (combBase + 32 * s.comb.scrubix) 32 e.addr)).isEmpty then { s with comb := scrubbed s }
        else { s with
          comb := { scrubbed s with nscrub := satInc s.comb.nscrub }
          ecc := s.ecc.filter (fun e => !inSpan (combBase + 32 * s.comb.scrubix) 32 e.addr) }) := by
  change execScrubLine s = _
  rw [execScrubLine, if_pos ⟨hrun, hready, hup, combFree_iff.mpr hfree, hdue⟩]
  dsimp only
  rw [hnone]
  rfl

end

/-- Settles O24: each event by what it does when it is due. -/
theorem streamEvents : Obligations.StreamEvents := by
  unfold Obligations.StreamEvents
  intro s l k b
  dsimp only
  have hrecord (h : Instr.laneRecord l ∉ s.early) : exec (.laneRecord l) s = .next (laneRecord l s) :=
    congrArg Host.Outcome.next (unlessEarly_acts _ _ _ h)
  have hdecide (h : Instr.recogDecide k ∉ s.early) : exec (.recogDecide k) s = .next (recogDecide k s) :=
    congrArg Host.Outcome.next (unlessEarly_acts _ _ _ h)
  have hwrite (h : Instr.ringWrite ∉ s.early) : exec .ringWrite s = .next (ringWrite s) :=
    congrArg Host.Outcome.next (unlessEarly_acts _ _ _ h)
  refine ⟨fun r rest he hrun hq => ?record, fun he h => (hrecord he).trans (congrArg Host.Outcome.next (laneRecord_not h)),
    fun r rest i he hrun hst hq hsensor hi => ⟨fun hbad => ?reset, fun hgood => ?evaluated⟩,
    fun hrun => congrArg Host.Outcome.next (if_pos hrun), fun n m ws rest he hrun hfree hwf hq => ?ring,
    fun he h => (hwrite he).trans (congrArg Host.Outcome.next (ringWrite_not h)),
    fun hrun hfree hready hup hdue => ⟨fun hclean => ?scrubClean, fun hsome hsingle => ?scrubSingle⟩⟩
  case record =>
    obtain ⟨hout, hwait⟩ := laneRecord_lane hrun hq
    simp only [laneOut, recordGone, Prod.mk.injEq] at hout
    obtain ⟨hn, hlast, hgap⟩ := hout
    exact ⟨_, hrecord he, hn, hlast, hwait, hgap⟩
  case reset =>
    have heval : (!evaluable r.flags) = true := by
      rw [Bool.not_eq_true', ← Bool.not_eq_true, evaluable_iff]; exact hbad
    obtain ⟨w, t, n, hzero⟩ := zeroDetect_recog k (s.setRecog k { s.recog k with inq := rest })
    rw [recog_setRecog_same] at hzero
    refine ⟨_, (hdecide he).trans (congrArg Host.Outcome.next ((recogDecide_due hrun hst hq hsensor hi).trans (if_pos heval))), ?_⟩
    rw [recog_setRecog_same, hzero]
    exact ⟨rfl, rfl, rfl⟩
  case evaluated =>
    have heval : ¬ (!evaluable r.flags) = true := by
      rw [evaluable_iff.mpr hgood]; exact Bool.false_ne_true
    have hinq := evaluate_inq (rkind k.val) (unitScale i (s.sensor i)) { s.recog k with inq := rest } r
    have hdec := (recogDecide_due hrun hst hq hsensor hi).trans (if_neg heval)
    rw [setRecog_setRecog] at hdec
    refine ⟨_, (hdecide he).trans (congrArg Host.Outcome.next hdec), ?_⟩
    split
    next kind arg hz =>
      obtain ⟨ht, harg, hn, hq'⟩ := recogEvent_told k kind arg r.stamp (s.setRecog k
        (evaluate (rkind k.val) (unitScale i (s.sensor i)) { s.recog k with inq := rest } r).1)
      rw [recog_setRecog_same] at hn hq'
      refine ⟨hq'.trans hinq, fun hnone => ?_, fun kind' arg' hsome => ?_⟩
      · rw [hz] at hnone; cases hnone
      · rw [hz] at hsome; cases hsome
        exact ⟨ht, harg, hn⟩
    next hz =>
      rw [recog_setRecog_same]
      refine ⟨hinq, fun _ => rfl, fun kind' arg' hsome => ?_⟩
      rw [hz] at hsome; cases hsome
  case ring =>
    have hdue := (hwrite he).trans (congrArg Host.Outcome.next (ringWrite_due hrun hfree hq))
    split at hdue
    next hgo =>
      obtain ⟨hn, hp, hcomb, hmem⟩ := writeEntry_spec n ws { s with comb := { s.comb with wq := rest, busyClk := some s.time.clk } }
      refine ⟨_, hdue, congrArg CombSt.wq hcomb, fun _ _ => ⟨hn, hp, fun i hi => ?_, fun p hp => ?_⟩, fun hnot => absurd hgo hnot⟩
      · rw [hmem]
        exact (memWord_memPuts hwf _ _ (by rw [entryWords_length]; omega)).trans (entryWords_word _ _ hi)
      · rw [hmem]
        refine memGet_memPuts_other _ _ _ _ ?_
        rw [bytesOfWords_length, entryWords_length]
        change p < (s.ring n).entry (s.ring n).wptr ∨ (s.ring n).entry (s.ring n).wptr + 4 * 8 ≤ p
        omega
    next hgo => exact ⟨_, hdue, rfl, fun hst hm => absurd ⟨hst, hm⟩ hgo, fun _ => rfl⟩
  case scrubClean =>
    have hempty : s.ecc.filter (fun e => inSpan (combBase + 32 * s.comb.scrubix) 32 e.addr) = [] := by
      rw [List.filter_eq_nil_iff]
      intro e he hin
      rw [inSpan_iff] at hin
      exact hclean e he hin
    rw [exec_scrubLine hrun hfree hready hup hdue (by rw [hempty]; rfl), hempty]
    rfl
  case scrubSingle =>
    have hnone : (s.ecc.filter (fun e => inSpan (combBase + 32 * s.comb.scrubix) 32 e.addr)).filter (fun e => e.dbl) = [] := by
      rw [List.filter_eq_nil_iff]
      intro e he
      obtain ⟨he, hin⟩ := List.mem_filter.mp he
      rw [inSpan_iff] at hin
      rw [hsingle e he hin.1 hin.2]
      exact Bool.false_ne_true
    have hsomething : ¬ (s.ecc.filter (fun e => inSpan (combBase + 32 * s.comb.scrubix) 32 e.addr)).isEmpty = true := by
      rw [List.isEmpty_iff, List.filter_eq_nil_iff]
      obtain ⟨e, he, hin⟩ := hsome
      exact fun hall => hall e he (inSpan_iff.mpr hin)
    rw [exec_scrubLine hrun hfree hready hup hdue hnone, if_neg hsomething]
    rfl

end Sys2Proof.Machine
end

section
/-!
PROOFS. GRANT, SPOOL and REVOKE (spec/03_tenants_and_spools.md section 3.6).
-/
namespace Sys2Proof.Machine

theorem tenantMod_of {m : BitVec 8} (h : 0 < m.toNat ∧ m.toNat < 32) : tenantMod m = true := by
  obtain ⟨hpos, hlt⟩ := h
  rw [tenantMod, Bool.and_eq_true, decide_eq_true_eq, bne_iff_ne]
  exact ⟨hlt, fun hm => by rw [hm] at hpos; exact absurd hpos (by decide)⟩

/-! ## SPOOL (R115 to R117) -/

section
variable {s : State}

/-- An image without a double-bit error is read whole. -/
theorem readImage_clean (n : Nat) (a : Nat) (h : CleanAt s a n) : readImage a n s = (wordsAt s a n, false, n, s) := by
  induction n generalizing a with
  | zero => rfl
  | succ n ih =>
    have h0 : eccSeen s a = none := h 0 (Nat.succ_pos n)
    have hrest : CleanAt s (a + 4) n := fun i hi => by
      rw [show a + 4 + 4 * i = a + 4 * (i + 1) by omega]
      exact h (i + 1) (Nat.succ_lt_succ hi)
    have hwords : wordsAt s a (n + 1) = wordSeen s a :: wordsAt s (a + 4) n := by
      simp only [wordsAt, List.range_succ_eq_map, List.map_cons, List.map_map, Nat.mul_zero, Nat.add_zero, List.cons.injEq, true_and]
      refine List.map_congr_left fun i _ => ?_
      rw [Function.comp_apply, Nat.succ_eq_add_one, show a + 4 * (i + 1) = a + 4 + 4 * i by omega]
    rw [readImage, readSram_clean h0]
    dsimp only
    rw [ih (a + 4) hrest, hwords, if_neg Bool.false_ne_true]

/-- SPOOL's answer for a GRANTED tenant while no loader is at work (Table 3.6). -/
def spoolBody (d : BitVec 4) (t : Tid) (a k : Nat) (s : State) : Ans :=
  let cost (n : Nat) := n * k + 64
  let (hw, bad, n, s) := readImage a 16 s
  if bad then .status stEcc s (cost n)
  else
    let h := parseHeader hw
    if !(h.formOk && !h.owner && !h.fmode) then .status stRange s (cost 16)
    else
      let (tb, bad, n, s) := readImage (a + 64) h.tableWords s
      if bad then .status stEcc s (cost (16 + n))
      else
        let k := cost (16 + h.tableWords)
        let sects := parseSects h.nsect tb
        if !(layoutOk h sects && h.total % 4 == 0) then .status stRange s k
        else if !(sects.all (sectInWindow s t)) then .status stQuota s k
        else if !tenantKeyOk s t h.pubkey then .status stSig s k
        else
          let l := mkLoader s (.tenant t) a h tb (codeWinOf ((s.tenant t).word 11))
          let s := s.modTenant t (fun x => { x with state := .loading, loadclk := toWord l.clocks })
          .val d (toWord l.clocks) { s with loader := some l } k stPending

/-- An image that passes every check. -/
structure ImageGood (t : Tid) (a : Nat) (s : State) : Prop where
  head : CleanAt s a 16
  table : CleanAt s (a + 64) (parseHeader (wordsAt s a 16)).tableWords
  form : (parseHeader (wordsAt s a 16)).formOk = true
  owner : (parseHeader (wordsAt s a 16)).owner = false
  fmode : (parseHeader (wordsAt s a 16)).fmode = false
  layout : layoutOk (parseHeader (wordsAt s a 16)) (parseSects (parseHeader (wordsAt s a 16)).nsect
    (wordsAt s (a + 64) (parseHeader (wordsAt s a 16)).tableWords)) = true
  total : (parseHeader (wordsAt s a 16)).total % 4 = 0
  sects : ∀ x ∈ parseSects (parseHeader (wordsAt s a 16)).nsect
    (wordsAt s (a + 64) (parseHeader (wordsAt s a 16)).tableWords), sectInWindow s t x = true
  key : tenantKeyOk s t (parseHeader (wordsAt s a 16)).pubkey = true

/-- The loader that an image starts. -/
def imageLoader (t : Tid) (a : Nat) (s : State) : Loader :=
  mkLoader s (.tenant t) a (parseHeader (wordsAt s a 16)) (wordsAt s (a + 64) (parseHeader (wordsAt s a 16)).tableWords)
    (codeWinOf ((s.tenant t).word 11))

theorem spoolBody_good {d : BitVec 4} {t : Tid} {a k : Nat} (h : ImageGood t a s) : spoolBody d t a k s =
    .val d (toWord (imageLoader t a s).clocks)
      { s.modTenant t (fun x => { x with state := .loading, loadclk := toWord (imageLoader t a s).clocks }) with
        loader := some (imageLoader t a s) }
      ((16 + (parseHeader (wordsAt s a 16)).tableWords) * k + 64) stPending := by
  obtain ⟨hhead, htable, hform, howner, hfmode, hlayout, htotal, hsects, hkey⟩ := h
  rw [spoolBody, readImage_clean 16 a hhead]
  dsimp only
  rw [if_neg Bool.false_ne_true, if_neg (by rw [hform, howner, hfmode]; exact Bool.false_ne_true),
    readImage_clean _ _ htable]
  dsimp only
  rw [if_neg Bool.false_ne_true, if_neg (by rw [hlayout, htotal]; exact Bool.false_ne_true),
    if_neg (by rw [List.all_eq_true.mpr hsects]; exact Bool.false_ne_true), if_neg (by rw [hkey]; exact Bool.false_ne_true)]
  rfl

end

/-! ## REVOKE (R124 to R127) -/

section
variable {t : Tid} {st : TState} {ld : Option Loader} {s : State}

/-- The rights of a tenant are withdrawn: no vote, no binding, and its record gone in the clock after; its state and the
loader stand. -/
def Withdrawn (t : Tid) (st : TState) (ld : Option Loader) (u : State) : Prop :=
  (u.tenant t).vote = false ∧ (u.tenant t).state = st ∧ Later.withdrawn t ∈ u.later ∧ u.loader = ld ∧
    ∀ b x, vget u.bindings b = some x → x.tenant ≠ t

theorem Withdrawn.of_fields {s u : State} (h : Withdrawn t st ld s) (ht : u.tenants = s.tenants) (hl : u.later = s.later)
    (hld : u.loader = s.loader) (hb : u.bindings = s.bindings) : Withdrawn t st ld u := by
  unfold Withdrawn State.tenant at *
  rw [ht, hl, hld, hb]
  exact h

theorem modTenant_other {P : Tenant → Prop} {f : Tenant → Tenant} {u : State} (hf : ∀ x, P x → P (f x)) (j : Tid)
    (h : P (u.tenant t)) : P ((u.modTenant j f).tenant t) := by
  rw [State.modTenant]
  by_cases hj : j = t
  · subst hj; rw [tenant_setTenant_same]; exact hf _ h
  · rw [tenant_setTenant_other _ _ hj]; exact h

theorem Withdrawn.recordFault {u : State} (h : Withdrawn t st ld u) (i : Inv) (code : Nat) (a : Word) :
    Withdrawn t st ld (recordFault i code a u) := by
  obtain ⟨hvote, hst, hlater, hld, hbind⟩ := h
  refine ⟨?_, ?_, hlater, hld, hbind⟩
  · unfold Machine.recordFault
    refine modTenant_other (P := fun x => x.vote = false) ?_ _ hvote
    exact fun _ hx => hx
  · unfold Machine.recordFault
    refine modTenant_other (P := fun x => x.state = st) ?_ _ hst
    exact fun _ hx => hx

theorem bindFault_tenant (b : Binding) : (bindFault b).tenant = b.tenant := by
  unfold bindFault; split <;> rfl

theorem Withdrawn.modBinding {u : State} (h : Withdrawn t st ld u) (i : Inv) {f : Binding → Binding}
    (hf : ∀ b, (f b).tenant = b.tenant) : Withdrawn t st ld (modBinding i f u) := by
  obtain ⟨hvote, hst, hlater, hld, hbind⟩ := h
  unfold Machine.modBinding
  split
  · exact ⟨hvote, hst, hlater, hld, hbind⟩
  next k _ =>
    split
    · exact ⟨hvote, hst, hlater, hld, hbind⟩
    next b hb =>
      split
      · refine ⟨hvote, hst, hlater, hld, fun d x hx => ?_⟩
        by_cases hd : k = d
        · subst hd
          rw [vget_vset_same] at hx
          rw [← Option.some.inj hx, hf]
          exact hbind k b hb
        · rw [vget_vset_other _ _ _ _ hd] at hx
          exact hbind d x hx
      · exact ⟨hvote, hst, hlater, hld, hbind⟩

theorem Withdrawn.fault {u : State} (h : Withdrawn t st ld u) (c : CoreId) (code : Nat) (a : Word) :
    Withdrawn t st ld (fault c code a u) := by
  cases hv : (u.core c).inv with
  | none => rw [fault_idle code a hv]; exact h
  | some v =>
    obtain ⟨ho, he⟩ := fault_running code a hv
    rw [he]
    exact ((h.recordFault v code a).modBinding v bindFault_tenant).of_fields rfl rfl rfl rfl

theorem Withdrawn.revokeCore {u : State} (h : Withdrawn t st ld u) (c : CoreId) : Withdrawn t st ld (revokeCore t u c) := by
  unfold Machine.revokeCore
  split
  · split
    · split
      · exact h.fault ..
      · exact h.of_fields rfl rfl rfl rfl
    · exact h
  · exact h

theorem Withdrawn.revokeSaved {u : State} (h : Withdrawn t st ld u) (k : Nat) : Withdrawn t st ld (revokeSaved t u k) := by
  unfold Machine.revokeSaved
  split
  · split
    · exact (h.recordFault ..).of_fields rfl rfl rfl rfl
    · exact h
  · exact h

theorem withdrawCmp_only (n : Fin 8) (u : State) : ∃ sl, withdrawCmp n u = { u with sleep := sl } := by
  unfold withdrawCmp
  (repeat' split) <;> exact ⟨_, rfl⟩

theorem Withdrawn.withdrawCmp {u : State} (h : Withdrawn t st ld u) (n : Fin 8) : Withdrawn t st ld (withdrawCmp n u) := by
  obtain ⟨sl, hsl⟩ := withdrawCmp_only n u
  rw [hsl]
  exact h.of_fields rfl rfl rfl rfl

/-- A step of a fold that keeps a property. -/
theorem foldl_keeps {α : Type} {P : State → Prop} {f : State → α → State} (h : ∀ a u, P u → P (f u a)) (l : List α)
    {s : State} (hs : P s) : P (l.foldl f s) := forEach_keeps (f := fun a u => f u a) h l hs

/-- What each core has of a tenant's invocation once the core's turn has come: nothing, or one that is marked. -/
def CoreRevoked (t : Tid) (d : CoreId) (u : State) : Prop := ∀ w, (u.core d).inv = some w → w.tenant = t → w.revoked = true

theorem revokeCore_same (c : CoreId) (u : State) : CoreRevoked t c (revokeCore t u c) := by
  intro w hw hwt
  unfold revokeCore at hw
  split at hw
  next v hv =>
    split at hw
    · split at hw
      · rw [fault_frees _ _ hv] at hw; cases hw
      · rw [core_setCore_same] at hw
        rw [← Option.some.inj hw]
    next hne =>
      rw [hv] at hw
      exact absurd (Option.some.inj hw ▸ hwt) hne
  next hv => rw [hv] at hw; cases hw

theorem revokeCore_other {c d : CoreId} (h : c ≠ d) (u : State) : (revokeCore t u c).core d = u.core d := by
  unfold revokeCore
  split
  · split
    · split
      · exact fault_other _ _ h
      · exact core_setCore_other _ _ h
    · rfl
  · rfl

theorem revokeCores (l : List CoreId) (d : CoreId) (u : State) (h : d ∈ l ∨ CoreRevoked t d u) :
    CoreRevoked t d (l.foldl (revokeCore t) u) := by
  induction l generalizing u with
  | nil => exact h.resolve_left (List.not_mem_nil)
  | cons c l ih =>
    refine ih _ ?_
    by_cases hc : c = d
    · subst hc; exact .inr (revokeCore_same c u)
    · rcases h with hmem | hrev
      · exact .inl ((List.mem_cons.mp hmem).resolve_left (Ne.symm hc))
      · right
        rw [CoreRevoked, revokeCore_other hc]
        exact hrev

/-- No saved invocation of a tenant lies in an entry of the context store. -/
def SlotClear (t : Tid) (j : Nat) (u : State) : Prop := ∀ x, vgetD u.ctx j none = some x → x.inv.tenant ≠ t

theorem vgetD_val {α : Type} {n : Nat} (v : Vector α n) (i : Fin n) (d : α) : vgetD v i.val d = vget v i := by
  simp [vgetD, vget]

theorem vgetD_vsetD {α : Type} {n : Nat} (v : Vector α n) (i j : Nat) (x d : α) :
    vgetD (vsetD v i x) j d = if i = j ∧ i < n then x else vgetD v j d := by
  unfold vgetD vsetD
  by_cases hi : i < n
  · rw [dif_pos hi]
    by_cases hij : i = j
    · subst hij; simp [hi]
    · simp [hij, List.getElem?_set_ne hij]
  · rw [dif_neg hi, if_neg (fun h => hi h.2)]

theorem revokeSaved_same (j : Nat) (hj : j < 16) (u : State) : SlotClear t j (revokeSaved t u j) := by
  intro x hx
  unfold revokeSaved at hx
  split at hx
  next sv hsv =>
    split at hx
    · rw [vgetD_vsetD, if_pos ⟨rfl, hj⟩] at hx; cases hx
    next hne =>
      rw [hsv] at hx
      rw [← Option.some.inj hx]; exact hne
  next hsv => rw [hsv] at hx; cases hx

theorem revokeSaved_other {i j : Nat} (h : i ≠ j) (u : State) : vgetD (revokeSaved t u i).ctx j none = vgetD u.ctx j none := by
  unfold revokeSaved
  split
  · split
    · exact (vgetD_vsetD ..).trans (if_neg fun hij => h hij.1)
    · rfl
  · rfl

theorem revokeSaveds (l : List Nat) (hl : ∀ i ∈ l, i < 16) (j : Nat) (u : State) (h : j ∈ l ∨ SlotClear t j u) :
    SlotClear t j (l.foldl (revokeSaved t) u) := by
  induction l generalizing u with
  | nil => exact h.resolve_left (List.not_mem_nil)
  | cons i l ih =>
    refine ih (fun k hk => hl k (List.mem_cons_of_mem _ hk)) _ ?_
    by_cases hi : i = j
    · subst hi; exact .inr (revokeSaved_same i (hl i List.mem_cons_self) u)
    · rcases h with hmem | hclear
      · exact .inl ((List.mem_cons.mp hmem).resolve_left (Ne.symm hi))
      · right
        rw [SlotClear, revokeSaved_other hi]
        exact hclear

theorem revokeSaved_cores (u : State) (k : Nat) : (revokeSaved t u k).cores = u.cores := by
  unfold revokeSaved
  split
  · split <;> rfl
  · rfl

theorem withdrawCmp_cores (n : Fin 8) (u : State) : (withdrawCmp n u).cores = u.cores ∧ (withdrawCmp n u).ctx = u.ctx := by
  obtain ⟨sl, hsl⟩ := withdrawCmp_only n u
  rw [hsl]
  exact ⟨rfl, rfl⟩

/-- The state once each core and each entry of the context store has had its turn. -/
def revokedAll (t : Tid) (s : State) : State :=
  let s := { s.modTenant t (fun x => { x with vote := false }) with later := s.later ++ [Later.withdrawn t] }
  let s := { s with bindings := vmap (revokeBinding t) s.bindings }
  let s := ([0, 1, 2, 3, 4] : List CoreId).foldl (revokeCore t) s
  (List.range 16).foldl (revokeSaved t) s

theorem withdraw_eq (t : Tid) (s : State) : withdraw t s =
    dropGather t { forEach ((allIx 8).filter (fun n => decide ((vget (revokedAll t s).timers n).owner = t))) withdrawCmp (revokedAll t s) with
      timers := vmap (revokeTimer t)
        (forEach ((allIx 8).filter (fun n => decide ((vget (revokedAll t s).timers n).owner = t))) withdrawCmp (revokedAll t s)).timers } := rfl

theorem revokedAll_withdrawn (t : Tid) (s : State) : Withdrawn t (s.tenant t).state s.loader (revokedAll t s) := by
  refine foldl_keeps (P := Withdrawn t (s.tenant t).state s.loader) (fun k u h => h.revokeSaved k) _
    (foldl_keeps (P := Withdrawn t (s.tenant t).state s.loader) (fun c u h => h.revokeCore c) _ ?_)
  refine ⟨?_, ?_, List.mem_append_right _ (List.mem_singleton.mpr rfl), rfl, fun b x hx => ?_⟩
  · change ((s.setTenant t { s.tenant t with vote := false }).tenant t).vote = false
    rw [tenant_setTenant_same]
  · change ((s.setTenant t { s.tenant t with vote := false }).tenant t).state = _
    rw [tenant_setTenant_same]
  · replace hx : revokeBinding t (vget s.bindings b) = some x := (vget_vmap ..).symm.trans hx
    unfold revokeBinding at hx
    split at hx
    · split at hx
      · cases hx
      next hne => rw [← Option.some.inj hx]; exact hne
    · cases hx

theorem revokedAll_slot (t : Tid) (s : State) (j : Fin 16) : SlotClear t j.val (revokedAll t s) := by
  unfold revokedAll
  exact revokeSaveds (List.range 16) (fun i hi => List.mem_range.mp hi) j.val _ (.inl (List.mem_range.mpr j.isLt))

theorem revokedAll_core (t : Tid) (s : State) (d : CoreId) : CoreRevoked t d (revokedAll t s) := by
  have hmem : d ∈ ([0, 1, 2, 3, 4] : List CoreId) := by revert d; decide
  unfold revokedAll
  refine foldl_keeps (P := CoreRevoked t d) (fun k u hu => ?_) (List.range 16) (revokeCores [0, 1, 2, 3, 4] d _ (.inl hmem))
  rw [CoreRevoked, State.core, revokeSaved_cores]
  exact hu

/-- REVOKE withdraws the tenant's rights (R124). -/
theorem withdraw_spec (t : Tid) (s : State) : Withdrawn t (s.tenant t).state s.loader (withdraw t s) ∧
    (∀ j, (vget (withdraw t s).timers j).kind ≠ .off → (vget (withdraw t s).timers j).owner ≠ t) ∧
    (∀ j x, vget (withdraw t s).ctx j = some x → x.inv.tenant ≠ t) ∧ ∀ d, CoreRevoked t d (withdraw t s) := by
  rw [withdraw_eq]
  generalize hcmps : (allIx 8).filter (fun n => decide ((vget (revokedAll t s).timers n).owner = t)) = ns
  have hcores : (forEach ns withdrawCmp (revokedAll t s)).cores = (revokedAll t s).cores :=
    forEach_field (g := State.cores) (fun n u => (withdrawCmp_cores n u).1) ns _
  have hctx : (forEach ns withdrawCmp (revokedAll t s)).ctx = (revokedAll t s).ctx :=
    forEach_field (g := State.ctx) (fun n u => (withdrawCmp_cores n u).2) ns _
  have hall := forEach_keeps (P := Withdrawn t (s.tenant t).state s.loader) (fun n u h => h.withdrawCmp n) ns
    (revokedAll_withdrawn t s)
  refine ⟨hall.of_fields rfl rfl rfl rfl, fun j hkind => ?_, fun j x hx => ?_, fun d w hw => ?_⟩
  · rw [show (dropGather t _).timers = vmap (revokeTimer t) (forEach ns withdrawCmp (revokedAll t s)).timers from rfl, vget_vmap] at hkind ⊢
    unfold revokeTimer at hkind ⊢
    split at hkind
    · exact absurd rfl hkind
    next hnot => rw [if_neg hnot]; exact fun ho => hnot ⟨ho, hkind⟩
  · have hclear := revokedAll_slot t s j
    replace hx : vget (forEach ns withdrawCmp (revokedAll t s)).ctx j = some x := hx
    rw [hctx, ← vgetD_val _ j none] at hx
    exact hclear x hx
  · have hrev := revokedAll_core t s d
    replace hw : ((forEach ns withdrawCmp (revokedAll t s)).core d).inv = some w := hw
    rw [State.core, hcores] at hw
    exact hrev w hw

end

/-! ## The three instructions -/

section
variable {c : CoreId} {v : Inv} {s s' u : State} {f : RForm}

theorem exec_grant (h : Begins c (.grant c f) v s s') (hmod : tenantMod f.mod = true) (hd : f.rd = 0) (hb : f.rb = 0)
    (hv : v.tenant = 0) (hok : blockOk 0 ((s'.regs c).rd f.ra).toNat 24 = true) {st : BitVec 8} {n : Nat} {banks : List Nat}
    {w : State}
    (ha : (if (s'.tenant (tenantOf f.mod)).state = .loading ∨ (s'.tenant (tenantOf f.mod)).state = .active then
        Ans.status stState s'
      else withBlock ((s'.regs c).rd f.ra).toNat 24 s' (fun ws s =>
        if recordOk s (tenantOf f.mod).val ws then
          let x := s.tenant (tenantOf f.mod)
          let x := { x with state := .granted, record := wordsVec 24 ws, qused := 0, qout := false }
          let s := { s with later := s.later.filter (· != Later.withdrawn (tenantOf f.mod)) }
          .ok (s.setTenant (tenantOf f.mod) { x with qperiod := s.time.hive / x.period }) 24
        else .status stRange s 24)) = { st := st, s := w, extra := n, banks := banks }) :
    exec (.grant c f) s = .next (retireUsing c v banks s st id (s'.base + n) w) := by
  change execGrant c f s = _
  unfold execGrant
  refine specInstr_answers h rfl ?_ (decide_eq_true hv) rfl rfl rfl (a := { st := st, s := w, extra := n, banks := banks }) ha rfl
  dsimp only
  rw [hmod, unusedZero_two hd hb, hv, hok]; rfl

/-- A SPOOL whose image passes Table 3.6 starts the loader. -/
theorem exec_spool (h : Begins c (.spool c f) v s s') (hmod : tenantMod f.mod = true) (hb : f.rb = 0) (hv : v.tenant = 0)
    (himage : imagePlaced s' ((s'.regs c).rd f.ra).toNat = true)
    (hflash : inSpan flashBase flashSize ((s'.regs c).rd f.ra).toNat = true → s'.hasFailed .flash = false ∧ waitsFor .flash s' = none)
    {st : BitVec 8} {upd : Regs → Regs} {n : Nat} {w : State}
    (hgranted : (s'.tenant (tenantOf f.mod)).state = .granted) (hload : s'.loader = none)
    (ha : spoolBody f.rd (tenantOf f.mod) ((s'.regs c).rd f.ra).toNat (imageWordCost s' ((s'.regs c).rd f.ra).toNat)
      (if inSpan flashBase flashSize ((s'.regs c).rd f.ra).toNat then flashTouch s' else s') =
        { st := st, s := w, upd := upd, extra := n }) :
    exec (.spool c f) s = .next (retire c 0 st upd (s'.base + n) w) := by
  have hgo : ¬ ((s'.tenant (tenantOf f.mod)).state ≠ .granted ∨ s'.loader.isSome = true) := by
    rw [hgranted, hload]; decide
  change execSpool c f s = _
  rw [← hv]
  unfold execSpool
  refine specInstr_gives h rfl ?_ (decide_eq_true hv) ?_ ?_ rfl ((if_neg hgo).trans ha)
  · dsimp only
    rw [hmod, unusedZero_one hb, himage]; rfl
  · dsimp only
    rw [Bool.and_eq_false_iff]
    by_cases hfl : inSpan flashBase flashSize ((s'.regs c).rd f.ra).toNat = true
    · exact .inr (hflash hfl).1
    · exact .inl (Bool.eq_false_iff.mpr hfl)
  · dsimp only
    split
    next hfl => exact (hflash hfl).2
    · rfl

/-- REVOKE's answer by the state of the tenant. -/
def revokeBody (t : Tid) (s : State) : Ans :=
  match (s.tenant t).state with
  | .vacant => .status stState s
  | .loading =>
    let s := withdraw t s
    match s.loader with
    | some l => (match l.phase with
      | .loading => .ok { s with loader := some { l with revoked := true } }
      | .cleanup _ => .ok { s with loader := some { l with revoked := true, result := stCap } })
    | none => .ok (s.modTenant t (fun x => { x with state := .vacant }))
  | _ => .ok ((withdraw t s).modTenant t (fun x => { x with state := .vacant }))

theorem execRevoke_eq (c : CoreId) (f : RForm) (s : State) : execRevoke c f s = .next (specInstr c (.revoke c f)
    { o2 := fun _ _ _ => tenantMod f.mod && unusedZero [f.rd, f.ra, f.rb]
      o3 := fun t _ _ => t = 0
      body := fun _ _ _ s => revokeBody (tenantOf f.mod) s } s) := by
  unfold execRevoke revokeBody
  generalize withdraw = w
  rfl

theorem revokeBody_vacant {t : Tid} (h : (s.tenant t).state = .vacant) : revokeBody t s = .status stState s := by
  unfold revokeBody
  rw [h]

theorem revokeBody_idle {t : Tid} (h : (s.tenant t).state = .granted ∨ (s.tenant t).state = .active) :
    revokeBody t s = .ok ((withdraw t s).modTenant t (fun x => { x with state := .vacant })) := by
  unfold revokeBody
  generalize withdraw t s = w
  rcases h with h | h <;> rw [h]

theorem revokeBody_loading {t : Tid} {l : Loader} {e : Nat} (h : (s.tenant t).state = .loading)
    (hl : (withdraw t s).loader = some l) (hphase : l.phase = .loading ∨ l.phase = .cleanup e) :
    revokeBody t s = .ok { withdraw t s with
      loader := some (if l.phase = .loading then { l with revoked := true } else { l with revoked := true, result := 0x11 }) } := by
  unfold revokeBody
  generalize withdraw t s = w at hl ⊢
  rw [h]
  dsimp only
  rw [hl]
  dsimp only
  rcases hphase with hphase | hphase <;> rw [hphase] <;> rfl

theorem exec_revoke (h : Begins c (.revoke c f) v s s') (hmod : tenantMod f.mod = true) (hd : f.rd = 0) (hra : f.ra = 0)
    (hb : f.rb = 0) (hv : v.tenant = 0) {st : BitVec 8} {w : State}
    (ha : revokeBody (tenantOf f.mod) s' = .status st w) :
    exec (.revoke c f) s = .next (retire c 0 st id s'.base w) := by
  change execRevoke c f s = _
  rw [← hv, execRevoke_eq]
  refine specInstr_gives (n := 0) (st := st) (u := w) (upd := id) h rfl ?_ (decide_eq_true hv) rfl rfl rfl ?_
  rotate_left
  · exact ha
  dsimp only
  rw [hmod, unusedZero_three hd hra hb]; rfl

/-- A tenant's record is gone once the withdrawal has taken effect (R125). -/
theorem doLater_withdrawn (w : State) (t : Tid) (i : Nat) : ((doLater w (.withdrawn t)).tenant t).word i = 0 := by
  have hrec : ((doLater w (.withdrawn t)).tenant t).record = Vector.replicate 24 0 :=
    congrArg Tenant.record (tenant_setTenant_same w t { w.tenant t with record := Vector.replicate 24 0 })
  rw [Tenant.word, hrec, vgetD, Vector.toList_replicate, List.getD_eq_getElem?_getD, List.getElem?_replicate]
  split <;> rfl

end

/-- Settles O15: GRANT and SPOOL by their blocks, REVOKE by what the withdrawal leaves. -/
theorem tenantInstructions : Obligations.TenantInstructions := by
  unfold Obligations.TenantInstructions
  intro c v s s' f
  dsimp only
  refine ⟨fun h hnamed hd hb hv hok hmay hclean hst => ?grant,
    fun h hnamed hb hv himage hflash hgranted hload hhead htable hform howner hfmode hlayout htotal hsects hkey => ?spool,
    fun h hnamed hd ha hb hv hst => ?vacant, fun h hnamed hd ha hb hv hst => ?revoke,
    fun l e h hnamed hd ha hb hv hst hl hphase => ?loading⟩
  case grant =>
    have hrest : ¬ ((s'.tenant (tenantOf f.mod)).state = .loading ∨ (s'.tenant (tenantOf f.mod)).state = .active) := by
      rcases hst with hst | hst <;> rw [show (s'.tenant (tenantOf f.mod)).state = _ from hst] <;> decide
    rw [show sramBank (((s'.regs c).rd f.ra).toNat + 92) = blockBanks ((s'.regs c).rd f.ra).toNat 24 from (blockBanks_succ _ 23).symm]
    split
    next hrec =>
      exact exec_grant h (tenantMod_of hnamed) hd hb hv hok ((if_neg hrest).trans (withBlock_gives hclean (if_pos hrec)))
    next hrec =>
      exact exec_grant h (tenantMod_of hnamed) hd hb hv hok ((if_neg hrest).trans (withBlock_gives hclean (if_neg hrec)))
  case spool =>
    have hgood (u : State) (hu : u = s' ∨ u = flashTouch s') : ImageGood (tenantOf f.mod) ((s'.regs c).rd f.ra).toNat u := by
      rcases hu with rfl | rfl <;> exact ⟨hhead, htable, hform, howner, hfmode, hlayout, htotal, hsects, hkey⟩
    by_cases hfl : inSpan 0x08000000 0x00800000 ((s'.regs c).rd f.ra).toNat = true
    · have hspool := exec_spool h (tenantMod_of hnamed) hb hv himage hflash hgranted hload
        ((congrArg (spoolBody f.rd _ _ _) (if_pos hfl)).trans (spoolBody_good (hgood _ (.inr rfl))))
      rw [if_pos hfl]
      exact hspool
    · have hspool := exec_spool h (tenantMod_of hnamed) hb hv himage hflash hgranted hload
        ((congrArg (spoolBody f.rd _ _ _) (if_neg hfl)).trans (spoolBody_good (hgood _ (.inl rfl))))
      rw [if_neg hfl]
      exact hspool
  case vacant =>
    exact exec_revoke h (tenantMod_of hnamed) hd ha hb hv (revokeBody_vacant (t := tenantOf f.mod) hst)
  case revoke =>
    obtain ⟨⟨hvote, -, hlater, -, hbind⟩, htimers, hctx, hcores⟩ := withdraw_spec (tenantOf f.mod) s'
    have hbody := revokeBody_idle (t := tenantOf f.mod) hst
    have hexec := exec_revoke h (tenantMod_of hnamed) hd ha hb hv hbody
    generalize withdraw (tenantOf f.mod) s' = w at hexec hvote hlater hbind htimers hctx hcores
    refine ⟨_, hexec, ?_, ?_, hlater, fun w i => doLater_withdrawn w _ i, hbind,
      htimers, hctx, hcores⟩
    · exact congrArg Tenant.state (tenant_setTenant_same ..)
    · exact (congrArg Tenant.vote (tenant_setTenant_same ..)).trans hvote
  case loading =>
    obtain ⟨⟨-, hst', hlater, hld, -⟩, -⟩ := withdraw_spec (tenantOf f.mod) s'
    replace hst : (s'.tenant (tenantOf f.mod)).state = .loading := hst
    have hloader : (withdraw (tenantOf f.mod) s').loader = some l := hld.trans hl
    have hbody := revokeBody_loading hst hloader hphase
    have hexec := exec_revoke h (tenantMod_of hnamed) hd ha hb hv hbody
    generalize withdraw (tenantOf f.mod) s' = w at hexec hst' hlater
    exact ⟨_, hexec, hst'.trans hst, hlater, rfl⟩

end Sys2Proof.Machine
end

section
/-!
PROOFS. The loader's outcomes (spec/03_tenants_and_spools.md section 3.7, spec/04_startup_and_flight_modes.md section 4.5).
-/
namespace Sys2Proof.Machine

/-! ## What the loader's work touches -/

theorem writeSections_only (old n off : Nat) (l : List Section) (s : State) :
    ∃ m e, writeSections old n off l s = { s with mem := m, ecc := e } := by
  induction l generalizing off s with
  | nil => exact ⟨_, _, rfl⟩
  | cons x r ih =>
    have hput (b : Prop) [Decidable b] (a : Nat) (bs : List Byte) :
        ∃ m e, (if b then s.putBytes a bs else s) = { s with mem := m, ecc := e } := by
      split <;> exact ⟨_, _, rfl⟩
    rw [writeSections]
    split
    · obtain ⟨m, e, h⟩ := hput (min x.len (old + 64 - off) < min x.len (n + 64 - off)) (x.dest + min x.len (old + 64 - off))
        ((x.data.drop (min x.len (old + 64 - off))).take (min x.len (n + 64 - off) - min x.len (old + 64 - off)))
      dsimp only
      rw [h]
      obtain ⟨m', e', h'⟩ := ih (off + x.len) { s with mem := m, ecc := e }
      exact ⟨m', e', h'⟩
    · exact ih off s

theorem zeroPart_only (b0 b1 : Nat) (l : List (Nat × Nat)) (s : State) :
    ∃ m e, zeroPart b0 b1 l s = { s with mem := m, ecc := e } := by
  induction l generalizing b0 b1 s with
  | nil => exact ⟨_, _, rfl⟩
  | cons x r ih =>
    obtain ⟨a, n⟩ := x
    have hput (b : Prop) [Decidable b] (a n : Nat) : ∃ m e, (if b then s.zeroSpan a n else s) = { s with mem := m, ecc := e } := by
      split <;> exact ⟨_, _, rfl⟩
    obtain ⟨m, e, h⟩ := hput (min n b0 < min n b1) (a + min n b0) (min n b1 - min n b0)
    obtain ⟨m', e', h'⟩ := ih (b0 - n) (b1 - n) (if min n b0 < min n b1 then s.zeroSpan (a + min n b0) (min n b1 - min n b0) else s)
    exact ⟨m', e', h'.trans (by rw [h])⟩

theorem passReads_only (l : Loader) (k n : Nat) (s : State) : ∃ c, (passReads l k n s).2 = { s with eccCnt := c } := by
  induction n generalizing k s with
  | zero => exact ⟨_, rfl⟩
  | succ n ih =>
    obtain ⟨c, hc⟩ := readSram_only (l.image + 64 + k) s
    rw [passReads]
    split
    · dsimp only
      split
      · exact ⟨c, hc⟩
      · obtain ⟨c', hc'⟩ := ih (k + 1) (readSram (l.image + 64 + k) s).s
        exact ⟨c', hc'.trans (by rw [hc])⟩
    · exact ih (k + 1) s

theorem loaderWrites_only (l : Loader) (n : Nat) (s : State) : ∃ m e, loaderWrites l n s = { s with mem := m, ecc := e } := by
  obtain ⟨m, e, h⟩ := zeroPart_only (l.zeroed l.copied) (l.zeroed n) l.zeros s
  obtain ⟨m', e', h'⟩ := writeSections_only l.copied n l.body l.sections { s with mem := m, ecc := e }
  rw [loaderWrites, h]
  exact ⟨m', e', h'⟩

/-- The loader's own work in a pass: memory, marks and their counts, and how far it has come (R115, R118). -/
theorem loaderAdvance_loading {s : State} {l : Loader} (hl : s.loader = some l) (hphase : l.phase = .loading) :
    ∃ m e n k b, loaderAdvance s =
      { s with mem := m, ecc := e, eccCnt := n, loader := some { l with copied := k, eccBad := b } } := by
  have hread (b : Bool) (k n : Nat) : ∃ c, (if b then (l.eccBad, s) else passReads l k n s).2 = { s with eccCnt := c } := by
    cases b
    · exact passReads_only ..
    · exact ⟨_, rfl⟩
  have hstay : ∃ m e n k b, s = { s with mem := m, ecc := e, eccCnt := n, loader := some { l with copied := k, eccBad := b } } :=
    ⟨s.mem, s.ecc, s.eccCnt, l.copied, l.eccBad, by rw [← hl]⟩
  unfold loaderAdvance
  rw [hl]
  dsimp only
  split
  · split
    · obtain ⟨c, hc⟩ := hread l.eccBad.isSome l.copied (l.passed s.time.clk - l.copied)
      rw [hc]
      obtain ⟨m, e, h⟩ := loaderWrites_only l _ _
      exact ⟨m, e, c, _, _, h⟩
    · exact hstay
  next hclean => rw [hphase] at hclean; cases hclean

/-- The loader's own work in a clean-up (R118, R127). -/
theorem loaderAdvance_cleanup {s : State} {l : Loader} {e : Nat} (hl : s.loader = some l) (hphase : l.phase = .cleanup e) :
    loaderAdvance s = if l.wiped < l.wipedBy e s.time.clk then
      zeroPart l.wiped (l.wipedBy e s.time.clk) l.wipe { s with loader := some { l with wiped := l.wipedBy e s.time.clk } }
      else s := by
  rw [loaderAdvance, hl]
  dsimp only
  rw [hphase]

/-! ## What a clean-up has zeroed -/

theorem unlisted_sram {a : Nat} (h : 0x20000000 ≤ a) : unlisted a = 0 := by
  rw [unlisted, if_neg]
  rw [inSpan_iff, flashBase, flashSize]
  omega

/-- Zero stays zero under more zeros. -/
theorem zeroSpan_zero {s : State} {a n p : Nat} (hp : 0x20000000 ≤ p) (h : memGet s.mem p = 0 ∨ inSpan a n p = true) :
    memGet (s.zeroSpan a n).mem p = 0 := by
  rw [zeroSpan_mem, memZero]
  by_cases hin : inSpan a n p = true
  · rw [memGet_memForget_in _ hin, unlisted_sram hp]
  · rw [memGet_memForget_out _ (Bool.eq_false_iff.mpr hin)]
    exact h.resolve_right hin

theorem zeroPart_zero {s : State} {p : Nat} (hp : 0x20000000 ≤ p) (b0 b1 : Nat) (l : List (Nat × Nat)) (h : memGet s.mem p = 0) :
    memGet (zeroPart b0 b1 l s).mem p = 0 := by
  induction l generalizing b0 b1 s with
  | nil => exact h
  | cons x r ih =>
    obtain ⟨a, n⟩ := x
    rw [zeroPart]
    refine ih _ _ ?_
    split
    · exact zeroSpan_zero hp (.inl h)
    · exact h

theorem spanBytes_cons (a n : Nat) (l : List (Nat × Nat)) : spanBytes ((a, n) :: l) = n + spanBytes l := by
  have hfrom (k : Nat) (l : List (Nat × Nat)) : l.foldl (fun n x => n + x.2) k = k + spanBytes l := by
    induction l generalizing k with
    | nil => rfl
    | cons x l ih => rw [spanBytes, List.foldl_cons, List.foldl_cons, ih, ih]; omega
  rw [spanBytes, List.foldl_cons, hfrom]; omega

/-- A whole list of spans zeroed: its first span is zero. -/
theorem zeroPart_first {s : State} {a n p : Nat} {l : List (Nat × Nat)} (hp : 0x20000000 ≤ p) (hin : a ≤ p ∧ p < a + n) :
    memGet (zeroPart 0 (spanBytes ((a, n) :: l)) ((a, n) :: l) s).mem p = 0 := by
  rw [zeroPart, spanBytes_cons]
  refine zeroPart_zero hp _ _ _ ?_
  rw [if_pos (by omega)]
  refine zeroSpan_zero hp (.inr (inSpan_iff.mpr ?_))
  omega

/-! ## What a load comes to -/

section
variable {s : State} {l : Loader} {t : Tid}

theorem loadOutcome_good {m : Loader} {w : State} (hecc : m.eccBad = none) (hsig : edVerify m.pubkey (spoolDigest m) m.sig = true) :
    loadOutcome m t w = installAll t m.binds w := by
  rw [loadOutcome, hecc, spoolSigned, hsig]; rfl

theorem loadOutcome_unsigned {m : Loader} {w : State} (hecc : m.eccBad = none)
    (hsig : edVerify m.pubkey (spoolDigest m) m.sig = false) : loadOutcome m t w = .error stSig := by
  rw [loadOutcome, hecc, spoolSigned, hsig]; rfl

theorem exec_spoolLoadDone (hl : s.loader = some l) (htarget : l.target = .tenant t) (hphase : l.phase = .loading)
    (hdue : s.running = true ∧ l.revoked = false ∧ l.startClk + l.clocks ≤ s.time.clk) {r : State}
    (hgood : loadOutcome ((loaderAdvance s).loader.getD l) t (loaderAdvance s) = .ok r) :
    exec .spoolLoadDone s = .next { (r.modTenant t (fun x => { x with
      state := .active, loadst := stOk, version := l.version })) with loader := none } := by
  change execSpoolLoadDone s = _
  rw [execSpoolLoadDone, hl]
  dsimp only
  rw [htarget, hphase]
  dsimp only
  rw [if_pos hdue, hgood]

theorem exec_spoolLoadDone_not (hl : s.loader = some l) (hdue : ¬ l.startClk + l.clocks ≤ s.time.clk) :
    exec .spoolLoadDone s = .next s := by
  change execSpoolLoadDone s = _
  rw [execSpoolLoadDone, hl]
  dsimp only
  split
  · rw [if_neg fun h => hdue h.2.2]
  · rfl

theorem exec_ownerLoadDone (hl : s.loader = some l) (htarget : l.target = .owner) (hphase : l.phase = .loading)
    (hdue : s.running = true ∧ l.startClk + l.clocks ≤ s.time.clk + 1) {r : State}
    (hgood : loadOutcome ((loaderAdvance s).loader.getD l) 0 (loaderAdvance s) = .ok r) :
    exec .ownerLoadDone s = .next (startOwner l r) := by
  change execOwnerLoadDone s = _
  rw [execOwnerLoadDone, hl]
  dsimp only
  rw [htarget, hphase]
  dsimp only
  rw [if_pos hdue, hgood]

theorem exec_ownerLoadDone_not (hl : s.loader = some l) (hdue : ¬ l.startClk + l.clocks ≤ s.time.clk + 1) :
    exec .ownerLoadDone s = .next s := by
  change execOwnerLoadDone s = _
  rw [execOwnerLoadDone, hl]
  dsimp only
  split
  · rw [if_neg fun h => hdue h.2]
  · rfl

/-- The owner has started: 0xB8 comes in the next clock. -/
theorem startOwner_spec (l : Loader) (r : State) : (startOwner l r).later.getLast? = some (.event 0xB8 0x80000001) ∧
    (startOwner l r).boot.phase = .done ∧ (startOwner l r).boot.bootst = 0x00 ∧ (startOwner l r).loader = none ∧
    ((startOwner l r).tenant 0).state = .active :=
  ⟨List.getLast?_concat, rfl, rfl, rfl, congrArg Tenant.state (tenant_setTenant_same ..)⟩

/-- A load that its signature fails. -/
theorem exec_spoolLoadFail {m : Loader} (hl : s.loader = some l) (hphase : l.phase = .loading) (hm : (loaderAdvance s).loader.getD l = m)
    (htarget : l.target = .tenant t) (htarget' : m.target = .tenant t) {e : BitVec 8} (hbad : loadOutcome m t (loaderAdvance s) = .error e) :
    exec .spoolLoadFail s = .next (if (loaderAdvance s).running = true ∧ m.revoked = false ∧ failClk m e ≤ (loaderAdvance s).time.clk then
      startCleanup e m (loaderAdvance s) else loaderAdvance s) := by
  change execSpoolLoadFail s = _
  rw [execSpoolLoadFail, hl]
  dsimp only
  rw [hphase]
  dsimp only
  rw [hm, htarget]
  dsimp only
  rw [hbad]
  dsimp only
  rw [htarget']

theorem exec_loadCleanupEnd (hearly : s.early = []) : exec .loadCleanupEnd s = .next (match s.loader with
    | some l =>
      match l.phase with
      | .cleanup e =>
        if s.running = true ∧ e ≤ s.time.clk then
          let s := { (loaderAdvance s) with loader := none }
          match l.target with
          | .tenant t =>
            s.modTenant t (fun x => { x with
              loadst := l.result
              sigfail := if l.result = stSig then satInc x.sigfail else x.sigfail
              state := if l.revoked then .vacant else .granted })
          | .owner =>
            { s with boot := { s.boot with
              bootst := l.result, phase := if s.boot.mode then .next else .waiting } }
        else s
      | .loading => s
    | none => s) := by
  change execLoadCleanupEnd s = _
  rw [execLoadCleanupEnd, unlessEarly_acts _ _ _ (by rw [hearly]; exact List.not_mem_nil)] <;> rfl

theorem loaderAdvance_tenants (s : State) : (loaderAdvance s).tenants = s.tenants := by
  cases hl : s.loader with
  | none => rw [loaderAdvance, hl]
  | some l =>
    cases hp : l.phase with
    | loading =>
      obtain ⟨m, e, n, k, b, h⟩ := loaderAdvance_loading hl hp
      rw [h]
    | cleanup e =>
      rw [loaderAdvance_cleanup hl hp]
      split
      · obtain ⟨m, e, h⟩ := zeroPart_only l.wiped (l.wipedBy e s.time.clk) l.wipe _
        rw [h]
      · rfl

end

/-- Settles O50: each outcome by the loader's advance and what the load comes to. -/
theorem loaderEvents : Obligations.LoaderEvents := by
  unfold Obligations.LoaderEvents
  intro s l t hrun hl
  dsimp only
  refine ⟨fun r htarget hphase hrev hdue hgood hr => ?done, fun _ hdue => exec_spoolLoadDone_not hl (Nat.not_le.mpr hdue),
    fun _ hdue => exec_ownerLoadDone_not hl (Nat.not_le.mpr hdue), fun r htarget hphase hdue hgood hr => ?owner,
    fun htarget hphase hrev hecc hsig => ⟨fun hdue => ?fail, fun hdue => ?notYet⟩, fun hphase hrev => ?stopped,
    fun e hearly htarget hphase hdue hlo hhi => ?cleaned, fun e hearly hphase hdue => ?cleaning, fun hearly hphase => ?loading⟩
  case done =>
    obtain ⟨hecc, hsig⟩ := hgood
    refine ⟨_, exec_spoolLoadDone hl htarget hphase ⟨hrun, hrev, hdue⟩ ((loadOutcome_good hecc hsig).trans hr), ?_⟩
    have htenant := tenant_setTenant_same r t { r.tenant t with state := .active, loadst := stOk, version := l.version }
    exact ⟨congrArg Tenant.state htenant, congrArg Tenant.loadst htenant, congrArg Tenant.version htenant, rfl, rfl, rfl⟩
  case owner =>
    obtain ⟨hecc, hsig⟩ := hgood
    exact ⟨_, exec_ownerLoadDone hl htarget hphase ⟨hrun, hdue⟩ ((loadOutcome_good hecc hsig).trans hr), startOwner_spec l r⟩
  case fail =>
    obtain ⟨m, e, n, k, b, hadv⟩ := loaderAdvance_loading hl hphase
    have hm : (loaderAdvance s).loader.getD l = { l with copied := k, eccBad := b } := by rw [hadv]; rfl
    rw [hm] at hecc hsig ⊢
    refine ⟨_, _, (exec_spoolLoadFail hl hphase hm htarget htarget (loadOutcome_unsigned hecc hsig)).trans
      (congrArg Host.Outcome.next (if_pos ?_)), rfl, ?_, rfl, rfl, ?_⟩
    · rw [hadv]; exact ⟨hrun, hrev, hdue⟩
    · rw [hadv]
    · rw [hadv]; rfl
  case notYet =>
    obtain ⟨m, e, n, k, b, hadv⟩ := loaderAdvance_loading hl hphase
    have hm : (loaderAdvance s).loader.getD l = { l with copied := k, eccBad := b } := by rw [hadv]; rfl
    rw [hm] at hecc hsig
    refine (exec_spoolLoadFail hl hphase hm htarget htarget (loadOutcome_unsigned hecc hsig)).trans
      (congrArg Host.Outcome.next (if_neg ?_))
    rw [hadv]
    exact fun h => Nat.not_le.mpr hdue h.2.2
  case stopped =>
    obtain ⟨m, e, n, k, b, hadv⟩ := loaderAdvance_loading hl hphase
    have hclock : loaderClock s = startCleanup stCap { l with copied := k, eccBad := b } (loaderAdvance s) := by
      rw [loaderClock, hadv]
      exact if_pos ⟨hphase, hrev⟩
    rw [hclock, show (loaderAdvance s).loader.getD l = { l with copied := k, eccBad := b } by rw [hadv]; rfl]
    refine ⟨_, rfl, ?_, rfl, hrev⟩
    rw [hadv]
  case cleaned =>
    have hexec := exec_loadCleanupEnd hearly
    rw [hl] at hexec
    dsimp only at hexec
    rw [hphase] at hexec
    dsimp only at hexec
    rw [if_pos ⟨hrun, hdue⟩, htarget] at hexec
    refine ⟨_, hexec, rfl, ?_, ?_, fun hres => ?_, fun hwiped a hlo' hhi' => ?_⟩
    · exact congrArg Tenant.state (tenant_setTenant_same ..)
    · exact congrArg Tenant.loadst (tenant_setTenant_same ..)
    · refine (congrArg Tenant.sigfail (tenant_setTenant_same ..)).trans ((if_pos hres).trans ?_)
      rw [State.tenant, loaderAdvance_tenants]; rfl
    · have hby : l.wipedBy e s.time.clk = spanBytes l.wipe := if_pos hdue
      have hpos : l.wiped < l.wipedBy e s.time.clk := by
        rw [hwiped, hby, show l.wipe = (l.win.1, l.win.2) :: dataWritten l from rfl, spanBytes_cons]; omega
      change memGet (loaderAdvance s).mem a = 0
      rw [loaderAdvance_cleanup hl hphase, if_pos hpos, hwiped, hby, Loader.wipe]
      exact zeroPart_first (by omega) ⟨hlo', hhi'⟩
  case cleaning =>
    rw [exec_loadCleanupEnd hearly, hl]
    dsimp only
    rw [hphase]
    dsimp only
    rw [if_neg fun h => Nat.not_le.mpr hdue h.2]
  case loading =>
    rw [exec_loadCleanupEnd hearly, hl]
    dsimp only
    rw [hphase]

end Sys2Proof.Machine
end

section
/-!
PROOFS. Stalls and idle domains (spec/01_programmers_model.md section 1.7, spec/06_sleep_and_wake.md section 6.3).
-/
namespace Sys2Proof.Machine

/-! ## What a retirement leaves of a core's stall -/

theorem markQuota_stall (t : Tid) (k : Core) : (markQuota t k).stall = k.stall := by
  unfold markQuota
  split
  · split <;> rfl
  · rfl

theorem chargeQuota_stall (t : Tid) (n : Nat) (s : State) (d : CoreId) :
    ((chargeQuota t n s).core d).stall = (s.core d).stall := by
  rw [← rollPeriod_core t s d]
  unfold chargeQuota
  dsimp only
  generalize rollPeriod t s = w
  split
  · rfl
  · split
    · simp [State.core, markQuota_stall]
    · rfl

theorem setCore_stall {s : State} {c : CoreId} {x : Core} (hx : x.stall = (s.core c).stall) (d : CoreId) :
    ((s.setCore c x).core d).stall = (s.core d).stall := by
  by_cases hd : c = d
  · subst hd; rw [core_setCore_same, hx]
  · rw [core_setCore_other _ _ hd]

theorem charge_stall (c : CoreId) (n : Nat) (s : State) (d : CoreId) : ((charge c n s).core d).stall = (s.core d).stall := by
  have hadd (n : Nat) (u : State) : ((addCycles c n u).core d).stall = (u.core d).stall := by
    unfold addCycles
    split
    · rfl
    · refine (chargeQuota_stall ..).trans (setCore_stall ?_ d)
      rfl
  unfold charge chargePart
  dsimp only
  refine (setCore_stall ?_ d).trans ((hadd ..).trans (setCore_stall ?_ d)) <;> rfl

/-- A retirement leaves every core's stall. -/
theorem retire_stall (c : CoreId) (t : Tid) (st : BitVec 8) (u : Regs → Regs) (n : Nat) (s : State) (d : CoreId) :
    ((retire c t st u n s).core d).stall = (s.core d).stall := by
  obtain ⟨ts, h⟩ := countRefusal_only t st s
  unfold retire
  dsimp only
  rw [charge_stall, h]
  refine (setCore_stall ?_ d).trans (setCore_stall ?_ d) <;> rfl

/-! ## The end of a stall -/

section
variable {s : State} {c : CoreId} {st : Stall}

/-- The wake-up of a domain whose time has come is over. -/
def wakeOver (d : Fin 12) (s : State) : State :=
  match vget s.sleep.upAt d with
  | some t => if t ≤ s.time.phys then { s with sleep := { s.sleep with upAt := vset s.sleep.upAt d none } } else s
  | none => s

theorem wakeOver_only (d : Fin 12) (s : State) : ∃ sl, wakeOver d s = { s with sleep := sl } := by
  unfold wakeOver
  split
  · split <;> exact ⟨_, rfl⟩
  · exact ⟨_, rfl⟩

/-- A SENSE.SET that stalls waits for its sensor's start-up too. -/
def sensorOver (i : Instr) (s : State) : State :=
  match i with
  | .senseSet _ u =>
    if h : u.inst.toNat < 3 then
      let k : SensorId := ⟨u.inst.toNat, by omega⟩
      let x := s.sensor k
      match x.warmAt with
      | some t => if t ≤ s.time.phys then s.setSensor k { x with warmAt := none } else s
      | none => s
    else s
  | _ => s

theorem settleWake_eq (st : Stall) (s : State) :
    settleWake st s = sensorOver st.instr (wakeOver (Domain.idx (funcDomain st.fn)) s) := rfl

theorem sensorOver_only (i : Instr) (s : State) : ∃ sn, sensorOver i s = { s with sensors := sn } := by
  unfold sensorOver
  split
  · split
    · dsimp only
      split
      · split <;> exact ⟨_, rfl⟩
      · exact ⟨_, rfl⟩
    · exact ⟨_, rfl⟩
  · exact ⟨_, rfl⟩

theorem settleWake_only (st : Stall) (s : State) : ∃ sl sn, settleWake st s = { s with sleep := sl, sensors := sn } := by
  obtain ⟨sl, h⟩ := wakeOver_only (Domain.idx (funcDomain st.fn)) s
  obtain ⟨sn, h'⟩ := sensorOver_only st.instr { s with sleep := sl }
  rw [settleWake_eq, h]
  exact ⟨sl, sn, h'⟩

theorem exec_stallEnd (hrun : s.running = true) (hstall : (s.core c).stall = some st) (hpaused : (s.core c).paused = false) :
    exec (.stallEnd c) s = .next (if stallOver st (settleWake st s) then
      resumeStall c st (longStall (settleWake st s) c) else s) := by
  have hgo : ¬ (s.running = false ∨ (s.core c).paused = true) := by
    rw [hrun, hpaused]; decide
  change execStallEnd c s = _
  rw [execStallEnd, hstall]
  dsimp only
  rw [if_neg hgo]

/-- A stall whose condition has not come goes on. -/
theorem exec_stallEnd_waits (hrun : s.running = true) (hstall : (s.core c).stall = some st) (hpaused : (s.core c).paused = false)
    (h : stallOver st (settleWake st s) = false) : exec (.stallEnd c) s = .next s := by
  rw [exec_stallEnd hrun hstall hpaused, h]; rfl

/-- A stall whose time has not passed goes on, and one that has no time. -/
theorem exec_stallTimeout_waits (hstall : (s.core c).stall = some st) (h : ∀ t, stallLimit st s = some t → s.time.phys ≤ t) :
    exec (.stallTimeout c) s = .next s := by
  change execStallTimeout c s = _
  rw [execStallTimeout, hstall]
  dsimp only
  split
  next t ht => rw [if_neg fun hgo => Nat.not_lt.mpr (h t ht) hgo.2.2.2]
  · rfl

/-- A stall counted as long is not counted again (R48). -/
theorem longStall_counted (hstall : (s.core c).stall = some st) (hlong : st.long = true) : longStall s c = s := by
  unfold longStall
  rw [hstall]
  split
  next x i hx _ =>
    cases hx
    exact if_neg fun h => Bool.false_ne_true (h.2.1.symm.trans hlong)
  · rfl

/-- The core that stalls keeps all but the mark of its stall. -/
theorem longStall_core (s : State) (c : CoreId) : ∃ x, (longStall s c).core c = { s.core c with stall := x } := by
  unfold longStall
  split
  · split
    · exact ⟨_, core_setCore_same ..⟩
    · exact ⟨_, rfl⟩
  · exact ⟨_, rfl⟩

end

/-! ## AOUT_START whose unit fails while it stalls -/

/-- AOUT has failed, on the same cores at the same time. -/
def AoutDown (s u : State) : Prop := u.cores = s.cores ∧ u.boot = s.boot ∧ u.time = s.time ∧ ∀ k, (u.aout k).st = .fault


/-- The events that an instruction lets act first keep what each of them keeps. -/
theorem ownFirst_invariant {P : State → Prop} {mine : Instr → Option (State → State)} {s : State}
    (h : ∀ i f u, mine i = some f → P u → P (f u)) (hearly : ∀ u e, P u → P { u with early := e }) (hs : P s) :
    P (ownFirst mine s) := by
  have hfold (l : List Instr) (p : State × List Instr) (hp : P p.1) :
      P (l.foldl (fun (p : State × List Instr) i =>
        if p.2.contains i then (p.1, p.2.erase i)
        else match mine i with
          | some f => (let t := f p.1; { t with early := t.early ++ [i] }, p.2)
          | none => p) p).1 := by
    induction l generalizing p with
    | nil => exact hp
    | cons i l ih =>
      refine ih _ ?_
      dsimp only
      split
      · exact hp
      · split
        next f hf => exact hearly _ _ (h i f p.1 hf hp)
        · exact hp
  exact hfold s.pending (s, s.early) hs

/-- A timeout forces no output of a unit in FAULT. -/
theorem AoutDown.aoutTimeout {s u : State} (h : AoutDown s u) (a : Fin 4) : AoutDown s (aoutTimeout a u) := by
  rw [Machine.aoutTimeout, if_neg fun hgo => by rw [h.2.2.2 a] at hgo; exact absurd hgo.2.1 (by decide)]
  exact h

theorem AoutDown.watchForce {s u : State} (h : AoutDown s u) (ch : Nat) : AoutDown s (watchForce ch u) := by
  obtain ⟨hcores, hboot, htime, hdown⟩ := h
  refine ⟨hcores, hboot, htime, fun k => ?_⟩
  have hx : (vget u.aouts k).st = .fault := hdown k
  rw [State.aout, Machine.watchForce]
  dsimp only
  rw [vget_vmap, if_neg fun hgo => by rw [hx] at hgo; exact absurd hgo.1 (by decide)]
  exact hx

theorem AoutDown.of_fields {s u w : State} (h : AoutDown s u) (hc : w.cores = u.cores) (hb : w.boot = u.boot) (ht : w.time = u.time)
    (ha : w.aouts = u.aouts) : AoutDown s w := by
  obtain ⟨hcores, hboot, htime, hdown⟩ := h
  refine ⟨hc.trans hcores, hb.trans hboot, ht.trans htime, fun k => ?_⟩
  rw [State.aout, ha]
  exact hdown k

/-- An estimate that a valid result gives touches lanes and sensors alone. -/
theorem toneEstimate_only (i : SensorId) (stamp gain : Nat) (u : State) :
    ∃ ln sn la, toneEstimate i stamp gain u = { u with lanes := ln, sensors := sn, later := la } := by
  unfold toneEstimate
  split
  · exact ⟨_, _, _, rfl⟩
  · split
    · exact ⟨_, _, _, rfl⟩
    · unfold offerProposal
      dsimp only
      split <;> exact ⟨_, _, _, rfl⟩

theorem AoutDown.toneResult {s u : State} (h : AoutDown s u) (ch : Fin 8) (m : ToneMeas) : AoutDown s (toneResult ch m u) := by
  have hset (x : Sensor) : AoutDown s (u.setSensor (extOf ch) x) := h.of_fields rfl rfl rfl rfl
  have hforce (b : Bool) (w : State) (hw : AoutDown s w) : AoutDown s (if b then Machine.watchForce ch.val w else w) := by
    cases b
    · exact hw
    · exact hw.watchForce ch.val
  have hest (b : Bool) (i : SensorId) (n g : Nat) (w : State) (hw : AoutDown s w) : AoutDown s (if b then w else toneEstimate i n g w) := by
    cases b
    · obtain ⟨ln, sn, la, he⟩ := toneEstimate_only i n g w
      simp only [Bool.false_eq_true, if_false, he]
      exact hw.of_fields rfl rfl rfl rfl
    · exact hw
  have hvalid (n : Nat) : AoutDown s (validResult ch n m u) := by
    unfold validResult
    exact hest _ _ _ _ _ ((hforce _ _ (hset _)).of_fields rfl rfl rfl rfl)
  unfold Machine.toneResult
  dsimp only
  split
  · exact h
  · split
    · exact h
    · split
      · exact h.of_fields rfl rfl rfl rfl
      · exact hvalid _

theorem AoutDown.ownFirsts {s u : State} (h : AoutDown s u) (a : Fin 4) :
    AoutDown s (ownFirst (aoutFirst a) (ownFirst watchFirst u)) := by
  have hwatch : AoutDown s (ownFirst watchFirst u) := by
    refine ownFirst_invariant (fun i f w hf hw => ?_) (fun w e hw => hw.of_fields rfl rfl rfl rfl) h
    unfold watchFirst at hf
    split at hf
    · cases hf; exact hw.toneResult _ _
    · cases hf
  refine ownFirst_invariant (fun i f w hf hw => ?_) (fun w e hw => hw.of_fields rfl rfl rfl rfl) hwatch
  unfold aoutFirst at hf
  split at hf
  · split at hf
    · cases hf; exact hw.aoutTimeout _
    · cases hf
  · cases hf

/-- An instruction that resumes goes on without its orders 1 to 3. -/
theorem issue_resumes {c : CoreId} {i : Instr} {v : Inv} {u : State} {k : Inv → State → State} (hinv : (u.core c).inv = some v)
    (hrun : u.running = true) (hpaused : (u.core c).paused = false) (hstall : (u.core c).stall = none)
    (hgo : (u.core c).goAt ≤ u.time.clk) (hres : (u.core c).resuming = true) : issue c i u k = k v u := by
  have hgo' : ¬ (u.running = false ∨ (u.core c).paused = true ∨ (u.core c).stall.isSome = true ∨ u.time.clk < (u.core c).goAt) := by
    rw [hrun, hpaused, hstall]
    simp only [Bool.true_eq_false, Bool.false_eq_true, Option.isSome_none, false_or]
    exact Nat.not_lt.mpr hgo
  unfold issue
  rw [hinv]
  dsimp only
  rw [if_neg hgo', if_pos hres]

theorem specInstr_resumesFailed {c : CoreId} {i : Instr} {v : Inv} {u : State} {sp : Spec} (hinv : (u.core c).inv = some v)
    (hrun : u.running = true) (hpaused : (u.core c).paused = false) (hstall : (u.core c).stall = none)
    (hgo : (u.core c).goAt ≤ u.time.clk) (hres : (u.core c).resuming = true)
    (hfailed : sp.failed v.tenant (u.regs c) u = true) :
    specInstr c i sp u = retire c v.tenant stNotReady id (sp.cyc u) u := by
  rw [specInstr, issue_resumes hinv hrun hpaused hstall hgo hres]
  dsimp only
  rw [hres, if_neg (by exact Bool.false_ne_true), if_neg (by exact Bool.false_ne_true), if_neg (by exact Bool.false_ne_true),
    if_pos hfailed]

section
variable {s : State} {c : CoreId} {st : Stall} {f : UForm} {v : Inv}

/-- The state in which AOUT.START goes on after its unit has failed. -/
def aoutFailing (c : CoreId) (s : State) : State :=
  let u := failFunction .aout (longStall s c)
  u.setCore c { u.core c with stall := none, resuming := true }

/-- AOUT has failed (R49): its outputs are in FAULT, and the core goes on as it stood. -/
theorem aoutFailing_spec (s : State) (c : CoreId) : AoutDown (aoutFailing c s) (aoutFailing c s) ∧
    (aoutFailing c s).hasFailed .aout = true ∧ (aoutFailing c s).time = s.time ∧
    (aoutFailing c s).core c = { s.core c with stall := none, resuming := true } := by
  obtain ⟨cs, ts, honly⟩ := longStall_only s c
  obtain ⟨x, hcore⟩ := longStall_core s c
  refine ⟨⟨rfl, rfl, rfl, fun k => ?_⟩, ?_, ?_, ?_⟩
  · change (vget (vmap (fun a : Aout => { a with st := .fault }) (longStall s c).aouts) k).st = .fault
    rw [vget_vmap]
  · change bitOf ((longStall s c).boot.fail ||| BitVec.twoPow 32 (Func.idx .aout)) (Func.idx .aout) = true
    simp [bitOf, Func.idx]
  · change (longStall s c).time = s.time
    rw [honly]
  · refine (core_setCore_same ..).trans ?_
    change ({ (longStall s c).core c with stall := none, resuming := true } : Core) = _
    rw [hcore]

/-- AOUT.START whose unit failed while it stalled retires with ST_NOTREADY (R49). -/
theorem exec_stallTimeout_aout (hrun : s.running = true) (hstall : (s.core c).stall = some st) (hpaused : (s.core c).paused = false)
    (hc : c ≠ 0) (hinv : (s.core c).inv = some v) (hinstr : st.instr = .aoutStart c f) (hwhy : st.why = .start)
    (hfetch : st.fetch = false) (hfn : st.fn = .aout) (hgo : (s.core c).goAt ≤ s.time.clk)
    (hlate : s.boot.relPhys + maxTicks .aout < s.time.phys) : ∃ w n, AoutDown (aoutFailing c s) w ∧
      exec (.stallTimeout c) s = .next (retire c v.tenant stNotReady id n w) := by
  obtain ⟨hdown, hfail, htime, hcore⟩ := aoutFailing_spec s c
  have hw := hdown.ownFirsts (UForm.num 4 f)
  generalize hwdef : ownFirst (aoutFirst (UForm.num 4 f)) (ownFirst watchFirst (aoutFailing c s)) = w at hw
  obtain ⟨hcores, hboot, htime', hfault⟩ := hw
  have hcore' : w.core c = { s.core c with stall := none, resuming := true } := by
    rw [State.core, hcores]; exact hcore
  have hlimit : stallLimit st s = some (s.boot.relPhys + maxTicks .aout) := by
    rw [stallLimit, hwhy, hfn]
  have hresume : resumeStall c st (failFunction .aout (longStall s c)) =
      specInstr c (.aoutStart c f)
        { o2 := fun t r _ => unitOk 4 f [f.rd, f.ra, f.rb] && (!false || blockOk t (r.rd f.ra).toNat 2)
          o3 := fun t r s => s.may t (capAout f.inst.toNat) && (!false || blockMay s t (r.rd f.ra).toNat 2)
          failed := fun _ _ s => s.hasFailed .aout || (s.aout (UForm.num 4 f)).st == .fault
          waits := fun _ _ s => waitsFor .aout s
          body := fun _ t r s => (fun a _ _ s => inStates (s.aout a).st [.ready] s (.ok (s.setAout a { s.aout a with
            st := .run, outs := [], since := s.time.hive, cause := 0 }))) (UForm.num 4 f) t r s } w := by
    rw [resumeStall, hinstr, hfetch, if_neg fun h => hc h.1, ← hwdef]
    rfl
  refine ⟨w, w.base, ⟨hcores, hboot, htime', hfault⟩, ?_⟩
  change execStallTimeout c s = _
  rw [execStallTimeout, hstall]
  dsimp only
  rw [hlimit]
  dsimp only
  rw [hfn, if_pos ⟨hrun, hpaused, rfl, hlate⟩, hresume]
  refine congrArg Host.Outcome.next (specInstr_resumesFailed (v := v) ?_ ?_ ?_ ?_ ?_ ?_ ?_)
  · rw [hcore']; exact hinv
  · rw [State.running, htime', htime]; exact hrun
  · rw [hcore']; exact hpaused
  · rw [hcore']
  · rw [hcore', htime', htime]; exact hgo
  · rw [hcore']
  · dsimp only
    rw [State.hasFailed, hboot]
    exact Bool.or_eq_true_iff.mpr (.inl hfail)

end

/-! ## Idle domains (R191, R192) -/

section
variable {s : State} {d : Domain}

theorem exec_domainIdleOff (hrun : s.running = true) (hon : s.domOn d = true) (htouch : domTouched d s = false)
    (hidle : idleDue d s = true) : exec (.domainIdleOff d) s = .next (((if d = .sense then coolSensors s else s).setDom d false).setSleep
      (fun p => { p with upAt := vset p.upAt (Domain.idx d) none })) := by
  change execDomainIdleOff d s = _
  rw [execDomainIdleOff, if_pos ⟨hrun, hon, htouch, hidle⟩]

theorem exec_domainIdleOff_not (h : s.domOn d = false ∨ idleDue d s = false) : exec (.domainIdleOff d) s = .next s := by
  change execDomainIdleOff d s = _
  rw [execDomainIdleOff, if_neg]
  rintro ⟨-, hon, -, hidle⟩
  rcases h with h | h
  · exact Bool.false_ne_true (h.symm.trans hon)
  · exact Bool.false_ne_true (h.symm.trans hidle)

theorem domainIdx_inj {d e : Domain} (h : (Domain.idx d).val = (Domain.idx e).val) : d = e := by
  revert h; cases d <;> cases e <;> decide

/-- A domain switched off is the only one. -/
theorem domOn_setDom_off (s : State) (d e : Domain) :
    (s.setDom d false).domOn e = (s.domOn e && decide (e ≠ d)) := by
  have hlt : (Domain.idx e).val < 12 := (Domain.idx e).isLt
  have hlt' : (Domain.idx d).val < 12 := (Domain.idx d).isLt
  have hne : decide ((Domain.idx d).val = (Domain.idx e).val) = decide (e = d) :=
    decide_eq_decide.mpr ⟨fun h => (domainIdx_inj h).symm, fun h => by rw [h]⟩
  simp only [State.domOn, State.setDom, Bool.false_eq_true, if_false, BitVec.getLsbD_and, BitVec.getLsbD_not, BitVec.getLsbD_twoPow,
    hlt, hlt', decide_true, Bool.true_and, hne, decide_not]

theorem coolSensors_sensor (s : State) {k : SensorId} (hk : k.val < 3) :
    ((coolSensors s).sensor k).warm = false ∧ ((coolSensors s).sensor k).warmAt = none := by
  unfold coolSensors forEach
  simp only [List.foldl_cons, List.foldl_nil, sensor_modSensor]
  have hcases : k = 0 ∨ k = 1 ∨ k = 2 := by
    rcases k with ⟨n, hn⟩
    have hn3 : n = 0 ∨ n = 1 ∨ n = 2 := by dsimp only at hk; omega
    rcases hn3 with rfl | rfl | rfl
    · exact .inl rfl
    · exact .inr (.inl rfl)
    · exact .inr (.inr rfl)
  rcases hcases with rfl | rfl | rfl <;> exact ⟨rfl, rfl⟩

end

/-- Settles O47: a stall by its condition, its timeout by the failed unit that the instruction then meets, a domain by
its idle time. -/
theorem stallEvents : Obligations.StallEvents := by
  unfold Obligations.StallEvents
  intro s c st d hrun
  dsimp only
  refine ⟨fun f u hheld hc hinstr hwhy hfetch hfn hlong hready hup hexec => ?resumes,
    fun hheld hwhy hready hfail => ?start, fun t hheld hwhy htime hfail => ?wake, fun a n hheld hwhy hserved => ?flash,
    fun hheld hwhy hleaving => ?leaving, fun t hheld hwhy htime => ?wakeLimit, fun hheld hwhy => ?noLimit, fun hnone => ?none,
    fun f v hheld hc hinv hinstr hwhy hfetch hfn hready hgo => ⟨fun htime => ?aoutWaits, fun htime => ?aout⟩,
    fun hd hon htouch hidle => ?idle, fun hon htouch hidle => ?sense, fun h => exec_domainIdleOff_not h,
    fun h => exec_domainIdleOff_not (.inr (by rcases h with rfl | rfl | rfl | rfl <;> rfl))⟩
  case resumes =>
    have hsettle : settleWake st s = s := by
      rw [settleWake_eq, hinstr, hfn]
      change wakeOver (Domain.idx .core) s = s
      rw [wakeOver, hup]
    have hover : stallOver st s = true := by
      rw [stallOver, hwhy, hfn]
      exact Bool.or_eq_true_iff.mpr (.inr hready)
    rw [exec_stallEnd hrun hheld.1 hheld.2, hsettle, if_pos hover, longStall_counted hheld.1 hlong, resumeStall, hinstr, hfetch,
      if_neg fun h => hc h.1]
    have hnext : coreNext (.qen c f) (s.setCore c { s.core c with stall := none, resuming := true }) = u := by
      have hcore : coreExec (.qen c f) (s.setCore c { s.core c with stall := none, resuming := true }) = .next u := hexec
      rw [coreNext, hcore]
    exact congrArg Host.Outcome.next hnext
  case start =>
    obtain ⟨sl, sn, hsettle⟩ := settleWake_only st s
    refine exec_stallEnd_waits hrun hheld.1 hheld.2 ?_
    rw [hsettle, stallOver, hwhy]
    exact Bool.or_eq_false_iff.mpr ⟨hfail, hready⟩
  case wake =>
    obtain ⟨sl, sn, hsettle⟩ := settleWake_only st s
    refine exec_stallEnd_waits hrun hheld.1 hheld.2 ?_
    rw [hsettle, stallOver, hwhy]
    exact Bool.or_eq_false_iff.mpr ⟨hfail, decide_eq_false (Nat.not_le.mpr htime)⟩
  case flash =>
    refine exec_stallEnd_waits hrun hheld.1 hheld.2 ?_
    rw [stallOver, hwhy]
    exact hserved
  case leaving =>
    obtain ⟨sl, sn, hsettle⟩ := settleWake_only st s
    refine exec_stallEnd_waits hrun hheld.1 hheld.2 ?_
    rw [hsettle, stallOver, hwhy]
    exact Option.isNone_eq_false_iff.mpr (Option.isSome_iff_ne_none.mpr hleaving)
  case wakeLimit =>
    refine exec_stallTimeout_waits hheld.1 fun m hm => ?_
    rw [stallLimit, hwhy] at hm
    rw [← Option.some.inj hm]
    exact htime
  case noLimit =>
    refine exec_stallTimeout_waits hheld.1 fun m hm => ?_
    rcases hwhy with ⟨a, n, hwhy⟩ | hwhy <;> rw [stallLimit, hwhy] at hm <;> cases hm
  case none =>
    constructor
    · change execStallEnd c s = _
      rw [execStallEnd, hnone]
    · change execStallTimeout c s = _
      rw [execStallTimeout, hnone]
  case aoutWaits =>
    refine exec_stallTimeout_waits hheld.1 fun m hm => ?_
    rw [stallLimit, hwhy, hfn] at hm
    rw [← Option.some.inj hm]
    exact htime
  case aout =>
    obtain ⟨w, n, ⟨hcores, hboot, -, hfault⟩, hexec⟩ := exec_stallTimeout_aout hrun hheld.1 hheld.2 hc hinv hinstr hwhy hfetch hfn hgo htime
    obtain ⟨-, hfail, -, hcore⟩ := aoutFailing_spec s c
    obtain ⟨cs, ts, honly⟩ := retire_only c v.tenant stNotReady id n w
    have hcore' : w.core c = { s.core c with stall := none, resuming := true } := by
      rw [State.core, hcores]; exact hcore
    have hregs : w.regs c = s.regs c := by rw [State.regs, hcore']; rfl
    refine ⟨_, hexec, ?_, ?_, ?_, ?_, ?_, ?_⟩
    · rw [retire_stall, hcore']
    · rw [retire_regs]; rfl
    · rw [retire_regs, hregs]
    · rw [retire_regs, hregs]; rfl
    · rw [honly]
      change bitOf w.boot.fail (Func.idx .aout) = true
      rw [hboot]
      exact hfail
    · rw [honly]; exact hfault
  case idle =>
    refine ⟨_, exec_domainIdleOff hrun hon htouch hidle, ?_⟩
    rw [if_neg hd]
    refine ⟨?_, vget_vset_same .., fun e he => ?_, rfl, rfl⟩
    · refine (domOn_setDom_off s d d).trans ?_
      rw [decide_eq_false (not_not.mpr rfl), Bool.and_false]
    · refine (domOn_setDom_off s d e).trans ?_
      rw [decide_eq_true he, Bool.and_true]
  case sense =>
    refine ⟨_, exec_domainIdleOff hrun hon htouch hidle, ?_⟩
    rw [if_pos rfl]
    refine ⟨?_, fun k hk => coolSensors_sensor s hk⟩
    refine (domOn_setDom_off (coolSensors s) .sense .sense).trans ?_
    rw [decide_eq_false (not_not.mpr rfl), Bool.and_false]

end Sys2Proof.Machine
end

section
/-!
PROOFS. Resets (spec/04_startup_and_flight_modes.md section 4.1).
-/
namespace Sys2Proof.Machine

theorem memGet_free {m : List Host.Cell} {k n a : Nat} (hm : Memory.wf m = true) (hn : 0 < n) :
    memGet (memPuts m a (freeBytes k n)) a = Config.freeByte k := by
  obtain ⟨n, rfl⟩ := Nat.exists_eq_succ_of_ne_zero hn.ne'
  exact memGet_memPuts_in (Config.freeByte k :: freeBytes (k + 1) n) m a 0 hm (by simp)

theorem scrambleSteps_erase_mem (off : Nat) (s : State) :
    (scrambleSteps [.erase off] s).mem = memPuts s.mem (flashBase + off) (freeBytes s.free 4096) := by
  simp only [scrambleSteps, List.foldl_cons, List.foldl_nil, JStep.span, cacheInval_mem]

/-- A background erase that a reset cuts leaves a byte of its sector erased or undefined. -/
theorem cutPart_erase_byte {s : State} {off : Nat} (hm : Memory.wf s.mem = true) :
    memGet (cutPart [.erase off] s).mem (flashBase + off) = 0xFF ∨
      memGet (cutPart [.erase off] s).mem (flashBase + off) = Config.freeByte (s.free + 1) := by
  rw [cutPart, cutSteps]
  split
  · right
    rw [scrambleSteps_erase_mem]
    exact memGet_free hm (by decide)
  · left
    rw [cutSteps, applyStep_erase_mem]
    exact memGet_erase (i := 0) hm (by decide)

theorem cutSteps_only (l : List JStep) (k : Nat) (s : State) :
    ∃ m ic fr, cutSteps l k s = { s with mem := m, icache := ic, free := fr } := by
  induction l generalizing k s with
  | nil => exact ⟨_, _, _, rfl⟩
  | cons st l ih =>
    cases st with
    | prog off bs =>
      rw [cutSteps]
      split
      · obtain ⟨m, ic, h⟩ := applyStep_only (.prog off bs) s
        obtain ⟨m', ic', fr', h'⟩ := ih (k - bs.length) (applyStep (.prog off bs) s)
        exact ⟨m', ic', fr', h'.trans (by rw [h])⟩
      · obtain ⟨m, ic, h⟩ := applyStep_only (.prog off (bs.take k)) s
        exact ⟨_, ic, _, by rw [h]⟩
    | erase off =>
      rw [cutSteps]
      split
      · exact scrambleSteps_only _ _
      · obtain ⟨m, ic, h⟩ := applyStep_only (.erase off) s
        obtain ⟨m', ic', fr', h'⟩ := ih (k - 1) (applyStep (.erase off) s)
        exact ⟨m', ic', fr', h'.trans (by rw [h])⟩

/-- What a cut leaves of background steps changes the array, the cache and the count of free values alone. -/
theorem cutPart_only (l : List JStep) (s : State) : ∃ m ic fr, cutPart l s = { s with mem := m, icache := ic, free := fr } :=
  cutSteps_only ..

/-- With no operation and no burn, a cut is of background steps alone. -/
theorem cutFlash_background {s : State} (hop : s.journal.op = none) (hburn : s.journal.burn = none) :
    cutFlash s = cutPart (bgSteps s) s := by
  obtain ⟨m, ic, fr, h⟩ := cutPart_only (bgSteps s) s
  unfold cutFlash
  rw [hop]
  dsimp only
  rw [h]
  dsimp only
  rw [hburn]

theorem cutPart_erase_free (off : Nat) (s : State) :
    (cutPart [.erase off] s).free = s.free + 1 ∨ (cutPart [.erase off] s).free = s.free + 4097 := by
  rw [cutPart, cutSteps]
  split
  · exact Or.inr rfl
  · exact Or.inl rfl

/-- Some byte is neither that of an erased sector nor one of two others. -/
theorem exists_oddByte (x y : Byte) : ∃ v : Byte, v ≠ 0xFF ∧ v ≠ x ∧ v ≠ y := by
  by_contra h
  push Not at h
  have h0 := h 0 (by decide)
  have h1 := h 1 (by decide)
  have h2 := h 2 (by decide)
  bv_omega

/-- A journal that is READY while the background erases a dirty sector, with neither an operation nor a burn. -/
def erasingJournal : JournalSt := { JournalSt.reset with st := .ready, base := 256, nsec := 4, secs := [1], dirty := [0] }

/-- A device in tethered flight with such a journal and one byte still in the sector. -/
def erasingState (v : Byte) : State :=
  { State.reset with
    time := { TimeSt.reset with mode := .running }, journal := erasingJournal, mem := [(0x08100000, v)] }

theorem erasingState_wf {v : Byte} (hv : v ≠ 0xFF) : Memory.wf (erasingState v).mem = true := by
  have hlisted : (v != unlisted 0x08100000) = true := bne_iff_ne.mpr hv
  simp [erasingState, Memory.wf, rising, hlisted]

theorem bgSteps_erasing {s : State} (h : s.journal = erasingJournal) : bgSteps s = [.erase 0x100000] := by
  rw [bgSteps, h]
  rfl

/-- A cut of that device is one of the erase. -/
theorem cutFlash_erasing {s : State} (h : s.journal = erasingJournal) : cutFlash s = cutPart [.erase 0x100000] s := by
  rw [cutFlash_background (by rw [h]; rfl) (by rw [h]; rfl), bgSteps_erasing h]

/-- A byte that is neither erased nor the next free value does not stay when a reset or sleep takes over the die. -/
theorem keepFlash_erasing {s : State} {v : Byte} (hj : s.journal = erasingJournal) (hm : Memory.wf s.mem = true)
    (hv : v ≠ 0xFF) (hfree : v ≠ Config.freeByte (s.free + 1)) (new : State) :
    memGet (keepFlash s new).mem 0x08100000 ≠ v := by
  have hmem : (keepFlash s new).mem =
      (cutPart [.erase 0x100000] s).mem.filter (fun x => inSpan flashBase flashSize x.1) :=
    congrArg (·.mem.filter (fun x => inSpan flashBase flashSize x.1)) (cutFlash_erasing hj)
  rw [hmem, memGet, cellAt_filter_out (fun _ => rfl)]
  rcases cutPart_erase_byte (s := s) (off := 0x100000) hm with h | h
  · exact fun e => hv (e.symm.trans h)
  · exact fun e => hfree (e.symm.trans h)

/-- Refutes O48: with no operation and no burn, a reset still cuts a background erase of the journal, so the flash die
does not keep every byte. In `erasingState` a dirty sector is being erased when PGOOD goes low for 200 ns. -/
theorem not_resetEvents : ¬ Obligations.ResetEvents := by
  unfold Obligations.ResetEvents
  intro h
  obtain ⟨v, hv, hfree, -⟩ := exists_oddByte (Config.freeByte 1) 0
  obtain ⟨-, -, -, hlow, -⟩ := h (erasingState v) 200 false false
  obtain ⟨u, hu, ⟨-, -, -, -, -, -, -, -, -, -, -, hmem⟩, -⟩ := hlow ⟨rfl, rfl⟩ (fun hm => nomatch hm) (by decide)
  cases hu
  exact keepFlash_erasing (s := erasingState v) rfl (erasingState_wf hv) hv hfree
    { State.reset with boot := { BootSt.reset with cause := 0 } } ((congrArg (memGet · 0x08100000) hmem).trans rfl)

end Sys2Proof.Machine
end

section
/-!
PROOFS. Functions, the doorbell and boot attempts (spec/04_startup_and_flight_modes.md sections 4.3, 4.6 and 4.7).
-/
namespace Sys2Proof.Machine

/-! ## READY and FAIL -/

theorem funcIdx_inj {f g : Func} (h : Func.idx f = Func.idx g) : f = g := by
  revert h; cases f <;> cases g <;> decide

theorem funcIdx_lt (f : Func) : Func.idx f < 32 := by cases f <;> decide

theorem bitOf_or_twoPow (w : Word) (f g : Func) :
    bitOf (w ||| BitVec.twoPow 32 (Func.idx f)) (Func.idx g) = (bitOf w (Func.idx g) || decide (g = f)) := by
  have hbit : decide (Func.idx f = Func.idx g) = decide (g = f) :=
    decide_eq_decide.mpr ⟨fun h => (funcIdx_inj h).symm, fun h => by rw [h]⟩
  rw [bitOf, bitOf, BitVec.getLsbD_or, BitVec.getLsbD_twoPow, hbit, decide_eq_true (funcIdx_lt f), Bool.true_and]

theorem setReady_isReady (f g : Func) (s : State) : (setReady f s).isReady g = (s.isReady g || decide (g = f)) :=
  bitOf_or_twoPow ..

section
variable {s : State} {f : Func}

theorem mayBecomeReady_of (hrun : s.running = true) (hready : s.isReady f = false) (hfail : s.hasFailed f = false)
    (htime : s.time.phys ≤ s.boot.relPhys + usTicks (2 * readyUs f - 150)) : mayBecomeReady f s = true := by
  rw [mayBecomeReady, hrun, hready, hfail, maxTicks, decide_eq_true htime]
  rfl

theorem mayBecomeReady_not (h : s.isReady f = true ∨ s.hasFailed f = true ∨
    s.boot.relPhys + usTicks (2 * readyUs f - 150) < s.time.phys) : mayBecomeReady f s = false := by
  rw [mayBecomeReady, maxTicks]
  rcases h with h | h | h
  · rw [h, Bool.not_true, Bool.and_false]; rfl
  · rw [h, Bool.not_true, Bool.and_false]; rfl
  · rw [decide_eq_false (by omega), Bool.and_false]

theorem not_awaited (i : SensorId) (h : ∀ c, (s.core c).stall = none) : awaited i s = false := by
  rw [awaited, List.any_eq_false]
  intro k hk
  obtain ⟨n, hn, rfl⟩ := List.getElem_of_mem hk
  have hstall : (s.cores.toList[n]).stall = none := h ⟨n, by simpa using hn⟩
  rw [hstall]
  exact Bool.false_ne_true

/-- A function that can fail sets its FAIL bit; its units' FAULT leaves start-up as it is. -/
theorem unitsFault_boot (f : Func) (s : State) : (unitsFault f s).boot = s.boot := by
  cases f
  case xfe => exact forEach_field (g := State.boot) (f := faultSensor) (fun _ _ => rfl) _ s
  all_goals rfl

theorem unitsFault_time (f : Func) (s : State) : (unitsFault f s).time = s.time := by
  cases f
  case xfe => exact forEach_field (g := State.time) (f := faultSensor) (fun _ _ => rfl) _ s
  all_goals rfl

theorem failFunction_eq (h : canFail f = true) : failFunction f s =
    unitsFault f { s with boot := { s.boot with fail := s.boot.fail ||| BitVec.twoPow 32 (Func.idx f) } } := if_pos h

theorem failFunction_boot (h : canFail f = true) :
    (failFunction f s).boot = { s.boot with fail := s.boot.fail ||| BitVec.twoPow 32 (Func.idx f) } := by
  rw [failFunction_eq h, unitsFault_boot]

theorem failFunction_fails (h : canFail f = true) : (failFunction f s).hasFailed f = true := by
  rw [State.hasFailed, failFunction_boot h, bitOf_or_twoPow, decide_eq_true (rfl : f = f), Bool.or_true]

theorem failFunction_isReady (h : canFail f = true) (g : Func) : (failFunction f s).isReady g = s.isReady g := by
  rw [State.isReady, failFunction_boot h]; rfl

theorem failFunction_time (h : canFail f = true) : (failFunction f s).time = s.time := by
  rw [failFunction_eq h, unitsFault_time]

theorem canFail_iff : canFail f = true ↔ 5 ≤ Func.idx f ∧ Func.idx f ≤ 13 := by
  rw [canFail, Bool.and_eq_true, decide_eq_true_iff, decide_eq_true_iff]

theorem exec_functionReady (h : mayBecomeReady f s = true)
    (hf : f ∉ [Func.keeper, .journal, .thermal, .accA, .accB, .gyro, .aout]) :
    exec (.functionReady f) s = .next (setReady f s) := by
  cases f
  case keeper | journal | thermal | accA | accB | gyro | aout => exact absurd (by decide) hf
  all_goals exact congrArg Host.Outcome.next (if_pos h)

theorem exec_functionReady_not (h : mayBecomeReady f s = false) : exec (.functionReady f) s = .next s :=
  congrArg Host.Outcome.next (if_neg (by rw [h]; exact Bool.false_ne_true))

theorem exec_functionFail (hrun : s.running = true) (hready : s.isReady f = false) (hfail : s.hasFailed f = false)
    (hf : canFail f = true) : exec (.functionFail f) s =
      .next (if f = .flash ∧ freeBooting (failFunction f s) = true then bootDormant stNotReady (failFunction f s)
        else failFunction f s) := by
  change execFunctionFail f s = _
  rw [execFunctionFail, if_pos ⟨hrun, hready, hfail, hf⟩]

theorem freeBooting_failFunction (h : canFail f = true) : freeBooting (failFunction f s) = freeBooting s := by
  rw [freeBooting, failFunction_boot h]; rfl

theorem bootDormant_mode (st : BitVec 8) (s : State) : (bootDormant st s).time.mode = .dormant := rfl

theorem bootDormant_mask (st : BitVec 8) (s : State) : (bootDormant st s).sleep.armed.mask = 0x28 := rfl

theorem bootDormant_hasFailed (st : BitVec 8) (s : State) (g : Func) :
    (bootDormant st s).hasFailed g = s.hasFailed g := rfl

theorem exec_functionReady_keeper (h : mayBecomeReady .keeper s = true) (htest : s.boot.testEn = false) :
    ∃ u, exec (.functionReady .keeper) s = .next u ∧ u.boot.ready = s.boot.ready ||| BitVec.twoPow 32 (Func.idx .keeper) ∧
      u.therm.wakeOut = true ∧ u.boot.keeperClk = s.time.clk ∧
      u.boot.phase = if s.boot.cause = 3 then .thermal else if s.boot.mode then .fixed (s.time.clk + 4096)
        else match s.boot.bell with | some c => .armed c | none => .waiting := by
  refine ⟨_, congrArg Host.Outcome.next (if_pos h), ?_⟩
  by_cases hcause : s.boot.cause = 3
  · rw [if_pos (show _ from ⟨hcause, htest⟩), if_pos hcause]
    exact ⟨rfl, rfl, rfl, rfl⟩
  · rw [if_neg (fun hc => hcause hc.1), if_neg hcause]
    refine ⟨rfl, rfl, rfl, ?_⟩
    change (if s.boot.testEn = true then _ else _) = _
    rw [htest]
    rfl

/-! ## Attempts -/

theorem exec_bootAttempt_fixed {e : Nat} (hrun : s.running = true) (hstop : s.therm.stop = none)
    (hphase : s.boot.phase = .fixed e) (htime : e ≤ s.time.clk) (hdec : s.boot.jdecided = true)
    (hflash : s.hasFailed .flash = true) : exec .bootAttempt s = .next (bootDormant stNotReady s) := by
  change execBootAttempt s = _
  rw [execBootAttempt, if_neg (by rw [hrun, hstop]; decide), hphase]
  dsimp only
  rw [if_pos ⟨htime, hdec⟩, if_pos hflash]

theorem exec_bootAttempt_armed {e : Nat} (hrun : s.running = true) (hstop : s.therm.stop = none)
    (hphase : s.boot.phase = .armed e) : exec .bootAttempt s = .next (if e ≤ s.time.clk then tryHost s else s) := by
  change execBootAttempt s = _
  rw [execBootAttempt, if_neg (by rw [hrun, hstop]; decide), hphase]

theorem eccSeen_clean (hecc : s.ecc = []) (hunseen : s.unseen = ⟨[], []⟩) (a : Nat) : eccSeen s a = none := by
  rw [eccSeen, hunseen]
  change eccAt s a = none
  rw [eccAt, hecc]
  rfl

theorem countReads_clean (hecc : s.ecc = []) (hunseen : s.unseen = ⟨[], []⟩) (l : List Nat) : countReads s l = s := by
  induction l with
  | nil => rfl
  | cons a l ih => rw [countReads, readSram_clean (eccSeen_clean hecc hunseen a), ih]

theorem wordSeen_clean (hunseen : s.unseen = ⟨[], []⟩) (a : Nat) : wordSeen s a = memWord s.mem a := by
  rw [wordSeen, hunseen]

theorem rawWord_clean (hecc : s.ecc = []) (hunseen : s.unseen = ⟨[], []⟩) (a : Nat) : rawWord s a = memWord s.mem a := by
  rw [rawWord, readSram_clean (eccSeen_clean hecc hunseen a), wordSeen_clean hunseen, ite_self]

theorem headerAt_total (s : State) (a : Nat) : (headerAt s a).total = (rawWord s (a + 8)).toNat := rfl

theorem memWord_memZero {m : List Host.Cell} {a n b : Nat} (h : b + 4 ≤ a ∨ a + n ≤ b) :
    memWord (memZero m a n) b = memWord m b := by
  refine congrArg wordOfBytes (memGets_congr _ _ fun p hp hp' => memGet_memForget_out m ?_)
  rw [← Bool.not_eq_true, inSpan_iff]
  omega

/-- A tethered attempt whose doorbell does not name the image's length ends with ST_RANGE. -/
theorem tryHost_noImage (hecc : s.ecc = []) (hunseen : s.unseen = ⟨[], []⟩)
    (hbell : (memWord s.mem 0x201FFFFC).toNat ≠ (headerAt s 0x20100000).total) :
    ∃ u : State, u.boot = s.boot ∧ u.loader = s.loader ∧
      tryHost s = { beginAttempt 3 u with boot := { (beginAttempt 3 u).boot with bootst := stRange, phase := .waiting } } := by
  refine ⟨s.zeroSpan 0x201FFFE0 28, rfl, rfl, ?_⟩
  have htotal : (headerAt (beginAttempt 3 (s.zeroSpan 0x201FFFE0 28)) dataBase).total = (headerAt s 0x20100000).total := by
    rw [headerAt_total, headerAt_total, rawWord_clean hecc hunseen,
      rawWord_clean (s := beginAttempt 3 (s.zeroSpan 0x201FFFE0 28)) (by exact congrArg (List.filter _) hecc) hunseen]
    exact congrArg BitVec.toNat (memWord_memZero (by decide))
  unfold tryHost
  dsimp only
  rw [countReads_clean hecc hunseen, wordSeen_clean hunseen, if_pos (htotal ▸ hbell)]

/-! ## The doorbell -/

theorem exec_doorbellStore (w : Word) (hrun : s.running = true) (hports : s.isReady .ports = true)
    (hmode : s.boot.mode = false) (h : s.boot.phase = .waiting ∨ (s.boot.phase = .thermal ∧ s.boot.bell = none)) :
    exec (.doorbellStore w) s = .next (ringDoorbell (s.store 0x201FFFFC (wordBytes w))) :=
  congrArg Host.Outcome.next (if_pos ⟨hrun, hports, hmode, h⟩)

theorem exec_doorbellStore_not (w : Word) (h : (s.boot.phase ≠ .waiting ∧ s.boot.phase ≠ .thermal) ∨
    s.isReady .ports = false ∨ s.boot.mode = true) : exec (.doorbellStore w) s = .next s := by
  refine congrArg Host.Outcome.next (if_neg ?_)
  rintro ⟨-, hports, hmode, hphase⟩
  rcases h with ⟨hw, ht⟩ | h | h
  · exact hphase.elim hw fun hp => ht hp.1
  · exact Bool.false_ne_true (h.symm.trans hports)
  · exact Bool.false_ne_true (hmode.symm.trans h)

theorem ringDoorbell_waiting {u : State} (h : u.boot.phase = .waiting) :
    ringDoorbell u = { u with boot := { u.boot with phase := .armed (u.time.clk + 64) } } := by
  rw [ringDoorbell, h]

theorem ringDoorbell_thermal {u : State} (h : u.boot.phase = .thermal) (hmode : u.boot.mode = false) :
    ringDoorbell u = { u with boot := { u.boot with bell := some (u.time.clk + 64) } } := by
  rw [ringDoorbell, h]
  dsimp only
  rw [if_neg (by rw [hmode]; exact Bool.false_ne_true)]

/-! ## Single functions -/

theorem exec_functionReady_aout (h : mayBecomeReady .aout s = true) : exec (.functionReady .aout) s =
    .next (if s.vaout < 2700 then failFunction .aout s else setReady .aout s) :=
  congrArg Host.Outcome.next (if_pos h)

theorem exec_functionReady_gyro (h : mayBecomeReady .gyro s = true) :
    exec (.functionReady .gyro) s = .next (sensorReady .gyro 2 s) := congrArg Host.Outcome.next (if_pos h)

theorem sensorReady_isReady (f g : Func) (i : SensorId) (s : State) :
    (sensorReady f i s).isReady g = (s.isReady g || decide (g = f)) := setReady_isReady ..

theorem exec_functionReady_thermal (h : mayBecomeReady .thermal s = true) : exec (.functionReady .thermal) s =
    .next { setReady .thermal s with therm := { s.therm with lastIx := s.time.hive / 192000, roundClk := none } } :=
  congrArg Host.Outcome.next (if_pos h)

/-- With no descriptor the journal is ready at once, with nothing to keep. -/
theorem exec_functionReady_journal (h : mayBecomeReady .journal s = true) (htest : s.boot.testEn = false)
    (hdec : s.boot.jdecided = false) (hnone : findDescriptor s = none) : exec (.functionReady .journal) s =
      .next (setReady .journal { s with boot := { s.boot with jmode := 0, jdecided := true } }) := by
  have hdecide : journalDecide s = ({ s with boot := { s.boot with jmode := 0 } }, true) := by
    rw [journalDecide, decideJournal, hnone]
  refine congrArg Host.Outcome.next ((if_pos h).trans ((if_neg (by rw [htest]; exact Bool.false_ne_true)).trans
    ((if_neg (by rw [hdec]; exact Bool.false_ne_true)).trans ?_)))
  rw [hdecide]
  rfl

end

/-- Settles O49: by the function that becomes ready or fails, by the phase in which the doorbell is rung, and by the
phase in which an attempt starts. -/
theorem startUpEvents : Obligations.StartUpEvents := by
  unfold Obligations.StartUpEvents
  intro s f w hrun
  dsimp only
  have hmay (hopen : s.isReady f = false ∧ s.hasFailed f = false ∧
      s.time.phys ≤ s.boot.relPhys + usTicks (2 * readyUs f - 150)) : mayBecomeReady f s = true :=
    mayBecomeReady_of hrun hopen.1 hopen.2.1 hopen.2.2
  refine ⟨fun hf hopen => exec_functionReady (hmay hopen) hf, ?keeper, ?thermal, ?aout, ?gyro, ?journal,
    fun h => exec_functionReady_not (mayBecomeReady_not h), ?fail, ?cannot, ?flash, ?bell,
    exec_doorbellStore_not w, ?armed, ?early, ?fixed⟩
  case keeper =>
    rintro rfl hopen htest
    obtain ⟨u, hu, hready, hwake, hclk, hphase⟩ := exec_functionReady_keeper (hmay hopen) htest
    refine ⟨u, hu, fun g => ?_, hwake, hclk, hphase⟩
    rw [State.isReady, hready]
    exact bitOf_or_twoPow ..
  case thermal =>
    rintro rfl hopen
    exact ⟨_, exec_functionReady_thermal (hmay hopen), fun g => setReady_isReady _ g s, rfl⟩
  case aout =>
    rintro rfl hopen
    have hexec := exec_functionReady_aout (hmay hopen)
    refine ⟨fun hv => ?_, fun hv => ?_⟩
    · rw [hexec, if_neg (by omega)]; rfl
    · rw [if_pos hv] at hexec
      refine ⟨_, hexec, failFunction_fails rfl, ?_, fun k => ?_⟩
      · rw [failFunction_isReady rfl, hopen.1]
      · rw [failFunction_eq rfl]
        exact congrArg Aout.st (vget_vmap _ s.aouts k)
  case gyro =>
    rintro rfl hopen hstall
    have hsame : (sensorReady .gyro 2 s).sensor 2 = { s.sensor 2 with warm := awaited 2 s, warmAt := none } :=
      vget_vset_same ..
    refine ⟨_, exec_functionReady_gyro (hmay hopen), fun g => sensorReady_isReady _ g _ s, ?_, ?_, ?_⟩ <;> rw [hsame]
    exact not_awaited 2 hstall
  case journal =>
    rintro rfl hopen htest hdec hnone
    exact ⟨_, exec_functionReady_journal (hmay hopen) htest hdec hnone, fun g => setReady_isReady _ g _, rfl, rfl, rfl⟩
  case fail =>
    intro hready hfail hlo hhi hne
    have hcan : canFail f = true := canFail_iff.mpr ⟨hlo, hhi⟩
    have hexec := exec_functionFail hrun hready hfail hcan
    rw [if_neg (fun h => hne h.1)] at hexec
    refine ⟨_, hexec, failFunction_fails hcan, ?_, failFunction_mem f s, ?_, ?_, ?_, ?_⟩
    · rw [failFunction_isReady hcan, hready]
    · rintro rfl k
      exact congrArg Ring.st (vget_vmap _ s.rings k)
    · rintro rfl
      have hsame : (failFunction .gyro s).sensor 2 = { s.sensor 2 with
          st := .fault, next := none, test := none, covering := false, tone := abandonTone (s.sensor 2).tone } :=
        vget_vset_same ..
      rw [hsame]
      exact ⟨rfl, rfl⟩
    · rintro rfl; rfl
    · rintro rfl; rfl
  case cannot =>
    intro h
    refine congrArg Host.Outcome.next (if_neg ?_)
    rintro ⟨-, -, -, hcan⟩
    rw [canFail_iff] at hcan
    omega
  case flash =>
    rintro rfl hready hfail
    have hcan : canFail .flash = true := rfl
    have hexec := exec_functionFail hrun hready hfail hcan
    rw [freeBooting_failFunction hcan] at hexec
    cases hfree : freeBooting s with
    | true =>
      rw [if_pos ⟨rfl, hfree⟩] at hexec
      refine ⟨_, hexec, ?_, fun e _ _ _ => ⟨rfl, bootDormant_mode .., bootDormant_mask ..⟩, fun h => absurd hfree ?_⟩
      · rw [bootDormant_hasFailed, failFunction_fails hcan]
      · rw [freeBooting]
        rcases h with h | h <;> simp [h]
    | false =>
      rw [if_neg (by rw [hfree]; exact fun h => Bool.false_ne_true h.2)] at hexec
      refine ⟨_, hexec, failFunction_fails hcan, fun e hm ht hp => absurd hfree ?_, fun _ => ⟨?_, ?_⟩⟩
      · rw [freeBooting, hm, ht, hp]; exact Bool.noConfusion
      · rw [failFunction_time hcan]
        exact eq_of_beq hrun
      · rw [failFunction_boot hcan]
  case bell =>
    intro hports hmode
    refine ⟨fun hp => ?_, fun hp hbell => ?_⟩
    · have hexec := exec_doorbellStore w hrun hports hmode (Or.inl hp)
      rw [ringDoorbell_waiting (by exact hp)] at hexec
      exact ⟨_, hexec, rfl, rfl⟩
    · have hexec := exec_doorbellStore w hrun hports hmode (Or.inr ⟨hp, hbell⟩)
      rw [ringDoorbell_thermal (by exact hp) (by exact hmode)] at hexec
      exact ⟨_, hexec, hp, rfl, rfl⟩
  case armed =>
    intro e hphase hstop htime hecc hunseen hbell
    obtain ⟨v, hboot, hloader, htry⟩ := tryHost_noImage hecc hunseen hbell
    have hexec := exec_bootAttempt_armed hrun hstop hphase
    rw [if_pos htime, htry] at hexec
    refine ⟨_, hexec, rfl, rfl, ?_, rfl, hloader⟩
    exact congrArg (satInc ·.attempts) hboot
  case early =>
    intro e hphase htime
    cases hstop : s.therm.stop with
    | none => rw [exec_bootAttempt_armed hrun hstop hphase, if_neg (by omega)]
    | some _ => exact congrArg Host.Outcome.next (if_pos (Or.inr (by rw [hstop]; rfl)))
  case fixed =>
    intro e hphase hstop htime hdec hflash
    exact ⟨_, exec_bootAttempt_fixed hrun hstop hphase htime hdec hflash, rfl, bootDormant_mode .., bootDormant_mask ..⟩

end Sys2Proof.Machine
end

section
/-!
PROOFS. The TAP and the bank supplies (spec/17_electrical_characteristics.md section 17.3, spec/18_balls_and_package.md
section 18.7).
-/
namespace Sys2Proof.Machine

section
variable {s : State}

theorem tapLive_iff : tapLive s = true ↔ s.running = true ∧ 1140 ≤ s.vioH ∧ s.vioH ≤ 1980 := by
  rw [tapLive, Bool.and_eq_true, vioHOn_iff]

theorem tapLive_not (h : s.running = false ∨ ¬(1140 ≤ s.vioH ∧ s.vioH ≤ 1980)) : tapLive s = false := by
  rw [← Bool.not_eq_true, tapLive_iff]
  rintro ⟨hrun, hon⟩
  exact h.elim (fun h => Bool.false_ne_true (h.symm.trans hrun)) fun h => h hon

theorem tapLoad_live (i : TapInstr) (keep : Bool) (h : tapLive s = true) : tapLoad i keep s =
    { s with tap := { s.tap with
        ir := i, tdo := [true, false, false, false]
        pulls := if keep then scanBalls.map (fun b => (ballDrive s b).2.2) else s.tap.pulls } } := if_pos h

theorem tapLoad_dead (i : TapInstr) (keep : Bool) (h : tapLive s = false) : tapLoad i keep s = s :=
  if_neg (by rw [h]; exact Bool.false_ne_true)

/-! ## Balls under the TAP -/

theorem keptPull_map {t : TapSt} {b : Ball} {f : Ball → Nat} (ht : t.pulls = scanBalls.map f) (hb : b ∈ scanBalls) :
    keptPull t b = f b := by
  have hfind (l : List Ball) (hl : b ∈ l) : (l.zip (l.map f)).find? (fun x => x.1 == b) = some (b, f b) := by
    induction l with
    | nil => cases hl
    | cons c l ih =>
      rw [List.map_cons, List.zip_cons_cons, List.find?_cons]
      by_cases hc : c = b
      · subst hc; rw [beq_self_eq_true]
      · rw [beq_false_of_ne hc]
        exact ih ((List.mem_cons.mp hl).resolve_left fun h => hc h.symm)
  rw [keptPull, ht, hfind _ hb]

theorem ballDrive_unpowered {b : Ball} (h : b.powered s = false) : ballDrive s b = (false, false, 0) := if_pos h

theorem ballDrive_noSupply {b : Ball} (h : s.vaon < 600) : (ballDrive s b).2.1 = false := by
  unfold ballDrive
  dsimp only
  split
  · rfl
  · rfl

theorem ballDrive_lowSupply {b : Ball} (hp : b.powered s = true) (h : s.vaon < 600) :
    ballDrive s b = (false, false, (heldDrive s b).2.2) :=
  (if_neg (by rw [hp]; exact Bool.noConfusion)).trans (if_pos h)

theorem ballDrive_highz {b : Ball} (hp : b.powered s = true) (hv : 600 ≤ s.vaon) (hout : b.hasOut = true)
    (hir : s.tap.ir = .highz) : ballDrive s b = ((heldDrive s b).1, false, keptPull s.tap b) := by
  unfold ballDrive
  dsimp only
  rw [if_neg (by rw [hp]; exact Bool.noConfusion), if_neg (by omega), if_neg (by rw [hout]; exact Bool.noConfusion), hir]

theorem ballDrive_extest {b : Ball} {k : Nat} (hp : b.powered s = true) (hv : 600 ≤ s.vaon) (hout : b.hasOut = true)
    (hir : s.tap.ir = .extest) (hb : b ≠ .thermN) (hk : firstCell b = some k) :
    ballDrive s b = (s.tap.cells.getD (k + bit01 b.hasIn) false, s.tap.cells.getD (k + bit01 b.hasIn + 1) false,
      keptPull s.tap b) := by
  unfold ballDrive outCells
  dsimp only
  rw [if_neg (by rw [hp]; exact Bool.noConfusion), if_neg (by omega), if_neg (by rw [hout]; exact Bool.noConfusion), hir, hk]
  dsimp only
  rw [if_neg hb]

/-! ## Data scans -/

theorem captureCells_length (levels : List Bool) (l : List Ball) (k i : Nat) :
    (captureCells s levels k i l).length = (l.map Ball.cells).sum := by
  induction l generalizing k i with
  | nil => rfl
  | cons b l ih =>
    rw [captureCells, List.length_append, ih, List.map_cons, List.sum_cons, Ball.cells]
    congr 1
    cases b.hasIn <;> cases b.hasOut <;> rfl

theorem captureCells_all (levels : List Bool) : (captureCells s levels 0 0 scanBalls).length = 259 := by
  rw [captureCells_length]; decide

/-- The fifth cell is the input of SRQ_ACK, the first ball that has one. -/
theorem captureCells_srqAck {levels : List Bool} (hon : vioHOn s = true) :
    (captureCells s levels 0 0 scanBalls)[4]? = some (levels.getD 0 false) := by
  have hack : Ball.powered s .srqAck = true := hon
  change some (if Ball.powered s .srqAck then _ else _) = _
  rw [hack]
  rfl

theorem shiftThrough_full {reg bits : List Bool} (h : reg.length = bits.length) : shiftThrough reg bits = (bits, reg) := by
  rw [shiftThrough, ← h, List.drop_left, List.take_left]

/-! ## A ball's drive while an instruction of the TAP is in force -/

/-- The state in which the TAP has taken an instruction that keeps the pulls of every ball. -/
def tapKept (i : TapInstr) (s : State) : State :=
  { s with tap := { s.tap with
      ir := i, tdo := [true, false, false, false], pulls := scanBalls.map (fun b => (ballDrive s b).2.2) } }

theorem tapKept_highz_enable {b : Ball} (hout : b.hasOut = true) : (ballDrive (tapKept .highz s) b).2.1 = false := by
  cases hp : b.powered s with
  | false => rw [ballDrive_unpowered (by exact hp)]
  | true =>
    by_cases hv : s.vaon < 600
    · exact ballDrive_noSupply hv
    · rw [ballDrive_highz (s := tapKept .highz s) hp (Nat.not_lt.mp hv) hout rfl]

theorem tapKept_pull {i : TapInstr} {b : Ball} (hb : b ∈ scanBalls) :
    keptPull (tapKept i s).tap b = (ballDrive s b).2.2 := keptPull_map (f := fun b => (ballDrive s b).2.2) rfl hb

theorem tapKept_highz_pull {b : Ball} (hout : b.hasOut = true) (hp : b.powered s = true) (hb : b ∈ scanBalls) :
    (ballDrive (tapKept .highz s) b).2.2 = (ballDrive s b).2.2 := by
  by_cases hv : s.vaon < 600
  · rw [ballDrive_lowSupply (s := tapKept .highz s) hp hv, ballDrive_lowSupply hp hv]
    rfl
  · rw [ballDrive_highz (s := tapKept .highz s) hp (Nat.not_lt.mp hv) hout rfl]
    exact tapKept_pull hb

/-! ## VIO_H -/

theorem exec_vioH_on {mv : Nat} (h : 1140 ≤ mv ∧ mv ≤ 1980) :
    exec (.ioBankSupplyChange 0 mv) s = .next { s with vioH := mv } := by
  have hon : vioHOn { s with vioH := mv } = true := (vioHOn_iff _).mpr h
  change execIoBankSupplyChange 0 mv s = _
  rw [execIoBankSupplyChange, if_neg (by decide)]
  dsimp only
  rw [if_neg (by rw [hon]; exact fun h => Bool.noConfusion h.1), if_pos hon]

theorem exec_vioH_off {mv : Nat} (h : mv < 1140 ∨ 1980 < mv) : exec (.ioBankSupplyChange 0 mv) s =
    if vioHFree s then .next { s with vioH := mv, tap := { s.tap with ir := .idcode, tdo := [] } }
    else .fault .undefinedSupply := by
  have hoff : vioHOn { s with vioH := mv } = false := by
    rw [← Bool.not_eq_true, vioHOn_iff]
    dsimp only
    omega
  change execIoBankSupplyChange 0 mv s = _
  rw [execIoBankSupplyChange, if_neg (by decide)]
  dsimp only
  rw [hoff]
  cases vioHFree s <;> rfl

end

/-- Settles O55: by the instruction of the TAP that is in force, and by whether VIO_H may leave its range. -/
theorem padsAndTap : Obligations.PadsAndTap := by
  unfold Obligations.PadsAndTap
  intro s d mv b
  dsimp only
  refine ⟨rfl, ?load, ?dead, fun hout => ⟨tapKept_highz_enable hout, fun hp hb => tapKept_highz_pull hout hp hb⟩,
    ballDrive_noSupply, ?extest, ?idcode, ?one, ?boundary, rfl, fun hlo hhi => exec_vioH_on ⟨hlo, hhi⟩, ?lost⟩
  case load =>
    intro hlive
    have hl : tapLive s = true := tapLive_iff.mpr hlive
    have hload (i : TapInstr) (keep : Bool) := congrArg (Host.Outcome.next (φ := Fault) (ρ := Refusal)) (tapLoad_live i keep hl)
    refine ⟨hload .extest true, hload .clamp true, hload .highz true, hload .sample false, hload .idcode false,
      hload .bypass false, fun ht => ?_, fun ht => if_pos ⟨hl, ht⟩⟩
    exact (if_neg (by rw [ht]; exact fun h => Bool.noConfusion h.2)).trans (hload .priv false)
  case dead =>
    intro hdead
    have hl : tapLive s = false := tapLive_not hdead
    have hload (i : TapInstr) (keep : Bool) := congrArg (Host.Outcome.next (φ := Fault) (ρ := Refusal)) (tapLoad_dead i keep hl)
    refine ⟨hload .extest true, hload .clamp true, hload .highz true, hload .sample false, hload .idcode false,
      hload .bypass false, ?_, congrArg Host.Outcome.next (if_pos hl)⟩
    exact (if_neg (by rw [hl]; exact fun h => Bool.noConfusion h.1)).trans (hload .priv false)
  case extest =>
    intro k hout hb hp hv hk hmem
    refine (ballDrive_extest (s := tapKept .extest s) (by exact hp) hv hout rfl hb hk).trans ?_
    rw [tapKept_pull hmem]
    cases b.hasIn <;> rfl
  case idcode =>
    intro hlive hir
    change execDrScan d s = _
    rw [execDrScan, if_neg (by rw [tapLive_iff.mpr hlive]; exact Bool.noConfusion)]
    dsimp only
    rw [hir]
    rfl
  case one =>
    intro hlive hir
    change execDrScan d s = _
    rw [execDrScan, if_neg (by rw [tapLive_iff.mpr hlive]; exact Bool.noConfusion)]
    dsimp only
    rcases hir with hir | hir | hir | hir <;> rw [hir] <;> rfl
  case boundary =>
    intro hlive hir hlen
    have hreg := captureCells_all (s := s) d.levels
    have hshift := shiftThrough_full (hreg.trans hlen.symm)
    have hexec : exec (.drScan d) s = .next { s with
        tap := { s.tap with cells := d.bits, tdo := captureCells s d.levels 0 0 scanBalls }
        free := s.free + 3 * scanBalls.length } := by
      change execDrScan d s = _
      rw [execDrScan, if_neg (by rw [tapLive_iff.mpr hlive]; exact Bool.noConfusion)]
      dsimp only
      rw [hshift]
      rcases hir with hir | hir <;> rw [hir]
    refine ⟨_, hexec, rfl, hreg, rfl, rfl, rfl, fun v hv => ?_⟩
    have hfirst : d.levels.getD 0 false = v := by
      rw [List.getD_eq_getElem?_getD, ← List.head?_eq_getElem?, hv]
      rfl
    change (captureCells s d.levels 0 0 scanBalls).getD 4 true = v
    rw [List.getD_eq_getElem?_getD, captureCells_srqAck ((vioHOn_iff _).mpr hlive.2), hfirst]
    rfl
  case lost =>
    intro h
    refine ⟨fun hmode => ?_, fun hmode => ?_⟩
    · have hfree : vioHFree s = true := by
        rcases hmode with hm | hm | ⟨hm | hm, hfix⟩ <;> rw [vioHFree, hm] <;> exact hfix
      rw [exec_vioH_off h, if_pos hfree]
    · have hfree : vioHFree s = false := by
        rcases hmode with hm | hm | ⟨hm, hfix⟩ <;> rw [vioHFree, hm] <;> exact hfix
      rw [exec_vioH_off h, if_neg (by rw [hfree]; exact Bool.false_ne_true)]

end Sys2Proof.Machine
end

section
/-!
PROOFS. One step (spec/00_scope.md section 0.7): the command at the front, or one clock.
-/
namespace Sys2Proof.Machine

theorem foldl_field {α β : Type} {g : State → β} {f : State → α → State} (h : ∀ u a, g (f u a) = g u) (l : List α)
    (s : State) : g (l.foldl f s) = g s := by
  induction l generalizing s with
  | nil => rfl
  | cons a l ih => exact (ih (f s a)).trans (h s a)

/-! ## What the end of a clock leaves -/

/-- Time and the level stand, and no step of hive time is put in the next clock. -/
structure ClockEnds (s u : State) : Prop where
  time : u.time = s.time
  cur : u.level.cur = s.level.cur
  later : ∀ th, Later.sample th ∈ u.later → Later.sample th ∈ s.later

namespace ClockEnds

theorem of_eq {s u : State} (ht : u.time = s.time) (hc : u.level = s.level) (hl : u.later = s.later) : ClockEnds s u :=
  ⟨ht, by rw [hc], fun _ h => hl ▸ h⟩

theorem refl (s : State) : ClockEnds s s := of_eq rfl rfl rfl

theorem trans {s u v : State} (h : ClockEnds s u) (h' : ClockEnds u v) : ClockEnds s v :=
  ⟨h'.time.trans h.time, h'.cur.trans h.cur, fun th hv => h.later th (h'.later th hv)⟩

theorem after {s u v : State} (h : ClockEnds u v) (ht : u.time = s.time) (hc : u.level = s.level)
    (hl : u.later = s.later) : ClockEnds s v := (of_eq ht hc hl).trans h

theorem eventOf (s : State) (src : Nat) (arg : Word) : ClockEnds s (s.eventOf src arg) := by
  refine ⟨rfl, rfl, fun th h => ?_⟩
  have hmem : Later.sample th ∈ s.later ++ [Later.eventOf src arg s.time.hive] := h
  simpa using hmem

theorem forEach {α : Type} {f : α → State → State} (h : ∀ a u, ClockEnds u (f a u)) (l : List α) (s : State) :
    ClockEnds s (Machine.forEach l f s) :=
  forEach_keeps (P := ClockEnds s) (fun a u hu => hu.trans (h a u)) l (refl s)

theorem foldl {α : Type} {f : State → α → State} (h : ∀ u a, ClockEnds u (f u a)) (l : List α) (s : State) :
    ClockEnds s (l.foldl f s) := by
  induction l generalizing s with
  | nil => exact refl s
  | cons a l ih => exact (h s a).trans (ih (f s a))

end ClockEnds

theorem queueEvent_ends (q : QueueId) (kind lo hi : Nat) (s : State) : ClockEnds s (queueEvent q kind lo hi s) := by
  unfold queueEvent
  split
  · exact .eventOf ..
  · exact .refl s

theorem creditRaised_ends (q : QueueId) (old : Nat) (s : State) : ClockEnds s (creditRaised q old s) := by
  unfold creditRaised
  dsimp only
  split
  · exact queueEvent_ends ..
  · exact .refl s

theorem queueSwap_ends (q : QueueId) (s : State) : ClockEnds s (queueSwap q s) := by
  unfold queueSwap
  dsimp only
  split
  · refine .trans ?_ (creditRaised_ends ..)
    exact (queueEvent_ends ..).after rfl rfl rfl
  · exact .refl s

theorem startBackoff_ends (s : State) : ClockEnds s (startBackoff s) := by
  unfold startBackoff
  split
  · split <;> exact .of_eq rfl rfl rfl
  · exact .refl s

theorem settleLeave_ends (s : State) : ClockEnds s (settleLeave s) := by
  unfold settleLeave
  dsimp only
  split
  · split <;> exact .of_eq rfl rfl rfl
  · exact .refl s

theorem endMsg_ends (n : Nat) (st : BitVec 8) (reason : Nat) (s : State) : ClockEnds s (endMsg n st reason s) := by
  unfold endMsg
  split
  · exact .refl s
  · exact (ClockEnds.eventOf ..).after rfl rfl rfl

theorem frameDone_ends (b : Bool) (f : TxFor) (s : State) : ClockEnds s (frameDone b f s) := by
  unfold frameDone
  split
  · split
    · exact .refl s
    · split
      · split
        · exact endMsg_ends ..
        · exact .of_eq rfl rfl rfl
      · split
        · exact .refl s
        · exact endMsg_ends ..
  · exact settleLeave_ends s
  · exact .refl s

theorem airEnd_ends (s : State) : ClockEnds s (airEnd s) := by
  unfold airEnd
  split
  · split
    · exact (frameDone_ends ..).after rfl rfl rfl
    · exact .refl s
  · exact .refl s

theorem radioClock_ends (s : State) : ClockEnds s (radioClock s) := by
  unfold radioClock
  split
  · exact ((airEnd_ends s).trans (settleLeave_ends _)).trans (startBackoff_ends _)
  · exact .refl s

theorem suspendClock_ends (s : State) : ClockEnds s (suspendClock s) := by
  unfold suspendClock suspendOp
  split
  · exact .refl s
  · split
    · split
      · exact .refl s
      · split
        · exact .refl s
        · exact .of_eq rfl rfl rfl
    · exact .refl s

theorem addCycles_ends (c : CoreId) (n : Nat) (s : State) : ClockEnds s (addCycles c n s) := by
  unfold addCycles
  split
  · exact .refl s
  · next i _ =>
    obtain ⟨cs, ts, h⟩ := chargeQuota_only i.tenant n (s.setCore c { s.core c with inv := some { i with used := i.used + n } })
    rw [h]
    exact .of_eq rfl rfl rfl

theorem clockCore_ends (s : State) (c : CoreId) : ClockEnds s (clockCore s c) := by
  unfold clockCore
  dsimp only
  split
  · exact .refl s
  · split
    · exact .refl s
    · split
      · split
        · exact addCycles_ends ..
        · exact .refl s
      · split
        · obtain ⟨cs, ts, bs, h, hb⟩ := boundary_only c s
          rw [hb]
          exact .of_eq rfl rfl rfl
        · exact (addCycles_ends ..).after rfl rfl rfl

theorem clockCores_ends (s : State) : ClockEnds s (clockCores s) := by
  unfold clockCores
  exact .foldl clockCore_ends _ s

theorem expireTimer_ends (s : State) (n : Fin 8) : ClockEnds s (expireTimer s n) := by
  unfold expireTimer
  dsimp only
  split
  · exact .refl s
  · obtain ⟨sl, h⟩ := withdrawCmp_only n s
    rw [h]
    exact .of_eq rfl rfl rfl

theorem endEvents_ends (s : State) : ClockEnds s (endEvents s) := by
  have htimers := ClockEnds.foldl expireTimer_ends [0, 1, 2, 3, 4, 5, 6, 7] s
  unfold endEvents
  dsimp only
  generalize ([0, 1, 2, 3, 4, 5, 6, 7] : List (Fin 8)).foldl expireTimer s = w at htimers ⊢
  have hoffers := ClockEnds.foldl (f := offerRaised) (fun u r => .of_eq rfl rfl rfl) w.raised w
  exact (htimers.trans hoffers).trans (.of_eq rfl rfl rfl)

theorem noteBalls_ends (s : State) : ClockEnds s (noteBalls s) := .of_eq rfl rfl rfl

theorem wokeOver_ends (s : State) : ClockEnds s (wokeOver s) := .of_eq rfl rfl rfl

theorem endClock_ends (s : State) : ClockEnds s (endClock s) := by
  have hswaps : ClockEnds s (queueSwaps s) := .forEach queueSwap_ends _ s
  have hsuspend := (hswaps.trans (radioClock_ends _)).trans (suspendClock_ends _)
  have hend := (((hsuspend.trans (noteBalls_ends _)).trans (wokeOver_ends _)).trans (clockCores_ends _)).trans
    (endEvents_ends _)
  unfold endClock
  generalize endEvents _ = w at hend ⊢
  exact hend.trans (.of_eq rfl rfl rfl)

/-! ## What the start of a clock leaves of time -/

theorem queueEvent_time (q : QueueId) (kind lo hi : Nat) (s : State) : (queueEvent q kind lo hi s).time = s.time :=
  (queueEvent_ends ..).time

theorem writeItem_time (q : QueueId) (l : List QSlot) (s : State) : (writeItem q l s).time = s.time := by
  unfold writeItem
  dsimp only
  split
  · rfl
  · split
    · rfl
    · exact queueEvent_time ..

theorem deliver_time (p : PortId) (w : Word) (tag : BitVec 4) (s : State) : (deliver p w tag s).time = s.time := by
  unfold deliver
  split
  · exact writeItem_time ..
  · rfl

theorem takeTx_time (p : PortId) (s : State) : (takeTx p s).2.time = s.time := by
  have hword : (takeWord (s.port p).txq s).2.time = s.time := by
    unfold takeWord
    dsimp only
    split <;> rfl
  unfold takeTx
  split
  · rfl
  · split <;> next h => rw [h] at hword; exact hword

theorem beginWord_time (p : PortId) (m : MFrame) (s : State) : (beginWord p m s).time = s.time := by
  have htake := takeTx_time p s
  unfold beginWord
  dsimp only
  split
  · split <;> next h => rw [h] at htake; exact htake
  · rfl

theorem nextStage_time (p : PortId) (m : MFrame) (s : State) : (nextStage p m s).time = s.time := by
  unfold nextStage
  dsimp only
  split
  · rfl
  · split
    · rfl
    · split
      · exact beginWord_time ..
      · rfl

theorem frameClock_time (p : PortId) (s : State) : (frameClock p s).time = s.time := by
  unfold frameClock
  dsimp only
  split
  · rfl
  · split
    · rfl
    · split
      · rfl
      · split
        · rfl
        · split
          · exact nextStage_time ..
          · rfl
          · exact nextStage_time ..

theorem masterFlush_time (p : PortId) (n : Nat) (s : State) : (masterFlush p n s).time = s.time := by
  induction n generalizing s with
  | zero => rfl
  | succ n ih =>
    unfold masterFlush
    dsimp only
    split
    · rfl
    · split
      · exact (ih _).trans (deliver_time ..)
      · rfl

theorem masterClock_time (p : PortId) (s : State) : (masterClock p s).time = s.time := by
  unfold masterClock
  split
  · rfl
  · exact (masterFlush_time ..).trans (frameClock_time ..)

theorem rxClock_time (p : PortId) (s : State) : (rxClock p s).time = s.time := by
  unfold rxClock
  dsimp only
  split
  · rfl
  · split
    · rfl
    · split
      · rfl
      · exact deliver_time ..

theorem txClock_time (p : PortId) (s : State) : (txClock p s).time = s.time := by
  have htake := takeTx_time p s
  unfold txClock
  split
  · rfl
  · split
    · rfl
    · split
      · split <;> next h => rw [h] at htake; exact htake
      · rfl

theorem stageClock_time (p : PortId) (s : State) : (stageClock p s).time = s.time := by
  have htake := takeTx_time p s
  unfold stageClock
  dsimp only
  split
  · rfl
  · split
    · rfl
    · split
      · split <;> next h => rw [h] at htake; exact htake
      · rfl

theorem portClock_time (p : PortId) (s : State) : (portClock p s).time = s.time :=
  (stageClock_time ..).trans ((rxClock_time ..).trans ((txClock_time ..).trans (masterClock_time ..)))

theorem dropSent_time (s : State) : (dropSent s).time = s.time := by
  unfold dropSent
  split
  · rfl
  · split
    · split <;> rfl
    · rfl

theorem noteRound_time (s : State) : (noteRound s).time = s.time := by
  unfold noteRound
  dsimp only
  split <;> rfl

theorem noteCompares_time (s : State) : (noteCompares s).time = s.time := by
  unfold noteCompares
  split
  · rfl
  · split
    · split <;> rfl
    · rfl

theorem hostEnd_time (s : State) : (hostEnd s).time = s.time := by
  unfold hostEnd
  split <;> rfl

theorem undoEntry_time (e : Entry) (s : State) : (undoEntry e s).time = s.time := by
  have hback : (if 3 ≤ e.ep then resumeBackground (s.setSleep (fun p => { p with discard := false })) else s).time = s.time := by
    split <;> rfl
  unfold undoEntry
  dsimp only
  generalize (if 3 ≤ e.ep then _ else s) = w at hback ⊢
  split
  · exact (hostEnd_time _).trans ((retire_time ..).trans hback)
  · exact (retire_time ..).trans hback

theorem entryClock_time (s : State) : (entryClock s).time = s.time := by
  unfold entryClock
  dsimp only
  split
  · rfl
  · split
    · split <;> rfl
    · split
      · rfl
      · split
        · refine (undoEntry_time ..).trans ?_
          split <;> rfl
        · split <;> rfl

theorem loaderAdvance_time (s : State) : (loaderAdvance s).time = s.time := by
  cases hl : s.loader with
  | none => rw [loaderAdvance, hl]
  | some l =>
    cases hp : l.phase with
    | loading =>
      obtain ⟨m, e, n, k, b, h⟩ := loaderAdvance_loading hl hp
      rw [h]
    | cleanup e =>
      rw [loaderAdvance_cleanup hl hp]
      split
      · obtain ⟨m, e, h⟩ := zeroPart_only l.wiped (l.wipedBy e s.time.clk) l.wipe
          { s with loader := some { l with wiped := l.wipedBy e s.time.clk } }
        rw [h]
      · rfl

theorem loaderClock_time (s : State) : (loaderClock s).time = s.time := by
  rw [← loaderAdvance_time s]
  unfold loaderClock
  dsimp only
  split
  · split <;> rfl
  · rfl

theorem lineClock_time (s : State) : (lineClock s).time = s.time := by
  unfold lineClock
  refine (forEach_field (g := State.time) (fun e u => ?_) _ _).trans
    ((forEach_field (g := State.time) (fun e u => ?_) _ _).trans rfl)
  · unfold noteHit
    dsimp only
    split <;> rfl
  · unfold settleLoser
    dsimp only
    split <;> rfl

theorem abortCond_time (r : RecogId) (s : State) : (abortCond r s).time = s.time := by
  unfold abortCond recogEvent
  dsimp only
  split <;> rfl

theorem recogLeave_time (r : RecogId) (st : UState) (s : State) : (recogLeave r st s).time = s.time := abortCond_time r s

theorem recogsRun_time (l : LaneId) (s : State) : (recogsRun l s).time = s.time := by
  refine forEach_field (g := State.time) (fun r u => ?_) _ s
  split <;> rfl

theorem recogsHold_time (l : LaneId) (s : State) : (recogsHold l s).time = s.time := by
  refine forEach_field (g := State.time) (fun r u => ?_) _ s
  split
  · exact recogLeave_time ..
  · rfl

theorem startChange_time (n : BitVec 2) (b : Bool) (s : State) : (startChange n b s).time = s.time := by
  unfold startChange
  dsimp only
  split <;> rfl

theorem forceL1_time (s : State) : (forceL1 s).time = s.time := by
  unfold forceL1
  split
  · rfl
  · split
    · exact startChange_time ..
    · rfl

/-- Of what a rule put in a clock, a step of hive time alone changes time. -/
theorem doLater_time {x : Later} (h : ∀ th, x ≠ .sample th) (s : State) : (doLater s x).time = s.time := by
  cases x with
  | event | eventOf | bias | assist | withdrawn | holdrel => rfl
  | force => exact forceL1_time s
  | laneRun l run =>
    unfold doLater
    cases run
    · exact recogsHold_time ..
    · exact recogsRun_time ..
  | sample th => exact absurd rfl (h th)
  | recogHeld r =>
    unfold doLater
    dsimp only
    split
    · exact recogLeave_time ..
    · rfl

/-- The parts of time that a step of hive time leaves: the clock count, the state of the device and the instant. -/
def clockOf (t : TimeSt) : Nat × PMode × Nat := (t.clk, t.mode, t.phys)

theorem stepHive_clock (n : Nat) (s : State) : clockOf (stepHive n s).time = clockOf s.time := by
  unfold stepHive
  split
  · rfl
  · dsimp only
    rw [noteRound_time]
    rfl

theorem doLater_clock (s : State) (x : Later) : clockOf (doLater s x).time = clockOf s.time := by
  by_cases h : ∃ th, x = .sample th
  · obtain ⟨th, rfl⟩ := h
    unfold doLater firstSample
    dsimp only
    split
    · rfl
    · exact stepHive_clock ..
  · rw [doLater_time (fun th hx => h ⟨th, hx⟩)]

theorem startOfClock_clock (s : State) : clockOf (startOfClock s).time = clockOf s.time :=
  (foldl_field (g := fun u => clockOf u.time) doLater_clock s.later _).trans rfl

theorem startOfClock_time {s : State} (h : ∀ th, Later.sample th ∉ s.later) : (startOfClock s).time = s.time := by
  have hall (l : List Later) (hl : ∀ th, Later.sample th ∉ l) (u : State) : (l.foldl doLater u).time = u.time := by
    induction l generalizing u with
    | nil => rfl
    | cons x l ih =>
      rw [List.foldl_cons, ih (fun th hx => hl th (List.mem_cons_of_mem _ hx)),
        doLater_time (fun th hx => hl th (hx ▸ List.mem_cons_self))]
  exact (hall s.later h _).trans rfl

theorem noteEdge_time (s : State) : (noteEdge s).time = s.time := rfl

theorem noteUse_time (s : State) : (noteUse s).time = s.time := rfl

theorem noteShown_time (s : State) : (noteShown s).time = s.time := rfl

theorem startClock_time (s : State) : (startClock s).time = (startOfClock s).time := by
  rw [startClock, noteEdge_time, lineClock_time, loaderClock_time, noteRound_time, noteUse_time, entryClock_time,
    noteCompares_time]

/-- The rest of a clock leaves time as its start does. -/
theorem tick_running {s : State} (h : s.time.mode = .running) : (tick s).time =
    (startOfClock { endClock s with time := countClock (endClock s).inc (endClock s).time }).time := by
  unfold tick
  rw [h]
  dsimp only
  rw [noteShown_time, dropSent_time, longStalls_time, portClock_time, portClock_time, portClock_time, startClock_time]

theorem ClockEnds.inc {s u : State} (h : ClockEnds s u) : u.inc = levelInc s.level.cur := by
  rw [State.inc, h.cur]

theorem countClock_clock (n : Nat) (t : TimeSt) : clockOf (countClock n t) = (t.clk + 1, t.mode, t.phys + n) := rfl

theorem countClock_hive {n : Nat} {t : TimeSt} (hrate : t.trimRate = 0) (hacc : t.trimAcc < 2 ^ 24) :
    (countClock n t).hive = (t.hive + n) % 2 ^ 64 := by
  have hdue : (decide (2 ^ 24 ≤ t.trimAcc + n * t.trimRate.toNat) && decide (2048 ≤ t.sinceTrim + n)) = false := by
    have hzero : t.trimRate.toNat = 0 := by rw [hrate]; rfl
    rw [hzero, Nat.mul_zero, Nat.add_zero, decide_eq_false (Nat.not_le.mpr hacc), Bool.false_and]
  unfold countClock
  dsimp only
  rw [hdue]
  rfl

theorem step_empty {s : State} (h : s.pending = []) : step s = .next (tick s) := by
  rw [step, h]

theorem tick_stopped {s : State} (hrun : s.time.mode ≠ .running) (hoff : s.time.mode ≠ .off) :
    tick s = dropSent (endWindow { s with time := { s.time with phys := (s.time.phys / 6 + 1) * 6 } }) := by
  unfold tick
  split
  · next h => exact absurd h hrun
  · next h => exact absurd h hoff
  · rfl

theorem endWindow_time (s : State) : (endWindow s).time = s.time := by
  unfold endWindow
  split <;> rfl

theorem endWindow_mem' (s : State) : (endWindow s).mem = s.mem := by
  unfold endWindow
  split <;> rfl

theorem endWindow_awake {s : State} (h : s.time.mode ≠ .hibernate) : endWindow s = s := if_neg fun hc => h hc.1

theorem dropSent_none {s : State} (h : s.level.srl = []) : dropSent s = s := by
  rw [dropSent, h]

/-- Settles O56: a clock's end leaves time, the count goes on by one clock, and of the rest only a first sample of the
hive steps hive time. -/
theorem stepTakesFront : Obligations.StepTakesFront := by
  unfold Obligations.StepTakesFront
  refine ⟨fun i s => rfl, fun s hempty => ⟨fun hmode => ?_, fun hmode => ?_, fun hrun hoff => ?_⟩⟩
  · have hend := endClock_ends s
    have hclock : clockOf (tick s).time = (s.time.clk + 1, s.time.mode, s.time.phys + levelInc s.level.cur) := by
      rw [tick_running hmode, startOfClock_clock, countClock_clock, hend.time, hend.inc]
    obtain ⟨hclk, hmode', hphys⟩ := And.imp_right Prod.mk.inj (Prod.mk.inj hclock)
    refine ⟨tick s, step_empty hempty, hclk, hmode'.trans hmode, hphys, fun hlater hrate hacc => ?_⟩
    rw [tick_running hmode]
    generalize endClock s = w at hend ⊢
    rw [startOfClock_time (by exact fun th h => hlater th (hend.later th h)), hend.time, hend.inc]
    exact countClock_hive hrate hacc
  · rw [step_empty hempty, tick, hmode]
  · refine ⟨(step_empty hempty).trans (congrArg Host.Outcome.next (tick_stopped hrun hoff)),
      (dropSent_time _).trans (endWindow_time _), (dropSent_mem _).trans (endWindow_mem' _), fun hhib hsrl => ?_⟩
    rw [endWindow_awake (by exact hhib), dropSent_none (by exact hsrl)]

end Sys2Proof.Machine
end

section
/-!
PROOFS. The supply link and level changes (spec/05_clock_time_and_levels.md sections 5.3 to 5.6).
-/
namespace Sys2Proof.Machine

section
variable {s : State} {f : SrlFrame} {r : List SrlFrame} {ch : LevelChange} {st : Nat}

/-! ## Frames (Table 5.7) -/

theorem frameWord_nibbles (f : SrlFrame) (q : BitVec 4) :
    (frameWord f q).toNat / 16 ^ 5 % 16 = 0xB ∧
    (frameWord f q).toNat / 16 ^ 4 % 16 = (if isOff f.why then 4 else 0) + f.lvl.toNat ∧
    (frameWord f q).toNat / 16 ^ 3 % 16 = f.vcode.toNat / 16 ∧
    (frameWord f q).toNat / 16 ^ 2 % 16 = f.vcode.toNat % 16 ∧
    (frameWord f q).toNat / 16 ^ 1 % 16 = q.toNat ∧
    (frameWord f q).toNat / 16 ^ 0 % 16 =
      0xB ^^^ ((if isOff f.why then 4 else 0) + f.lvl.toNat) ^^^ (f.vcode.toNat / 16) ^^^ (f.vcode.toNat % 16) ^^^ q.toNat := by
  have hl := f.lvl.isLt
  have hv := f.vcode.isLt
  have hq := q.isLt
  have hoff : (if isOff f.why then 4 else 0) + f.lvl.toNat < 2 ^ 4 := by split <;> omega
  have hchk : 0xB ^^^ ((if isOff f.why then 4 else 0) + f.lvl.toNat) ^^^ (f.vcode.toNat / 16) ^^^ (f.vcode.toNat % 16) ^^^
      q.toNat < 2 ^ 4 := by
    refine Nat.xor_lt_two_pow (Nat.xor_lt_two_pow (Nat.xor_lt_two_pow (Nat.xor_lt_two_pow (by decide) hoff) ?_) ?_) hq <;> omega
  unfold frameWord
  dsimp only
  generalize (if isOff f.why then 4 else 0) + f.lvl.toNat = n3 at hoff hchk ⊢
  generalize 0xB ^^^ n3 ^^^ (f.vcode.toNat / 16) ^^^ (f.vcode.toNat % 16) ^^^ q.toNat = n at hchk ⊢
  rw [BitVec.toNat_ofNat]
  refine ⟨?_, ?_, ?_, ?_, ?_, ?_⟩ <;> omega

theorem exec_srlFrameStart (hcrystal : s.time.mode = .running ∨ s.time.mode = .releasing ∨ s.time.mode = .postStop)
    (hsrl : s.level.srl = f :: r) (hstarted : f.started = none) (hwait : f.why ≠ .sleepOff ∨ s.level.change = none)
    (hdecided : f.decided < s.time.phys) (hphys : s.time.phys % 192 = 0) : exec .srlFrameStart s =
      .next { s with level := { s.level with
        seq := s.level.seq + 1
        srl := { f with started := some s.time.phys, word := frameWord f (s.level.seq + 1) } :: r } } := by
  have hon : crystalOn s = true := by rcases hcrystal with h | h | h <;> rw [crystalOn, h] <;> rfl
  have hgo : (f.why == .sleepOff && s.level.change.isSome) = false := by
    rcases hwait with h | h
    · rw [beq_false_of_ne h, Bool.false_and]
    · rw [h, Option.isSome_none, Bool.and_false]
  change execSrlFrameStart s = _
  rw [execSrlFrameStart, hsrl]
  dsimp only
  rw [if_pos ⟨hon, hgo, hstarted, hdecided, hphys⟩]

theorem exec_srlFrameStart_waits (hsrl : s.level.srl = f :: r)
    (h : (f.why = .sleepOff ∧ s.level.change ≠ none) ∨ s.time.phys % 192 ≠ 0) : exec .srlFrameStart s = .next s := by
  change execSrlFrameStart s = _
  rw [execSrlFrameStart, hsrl]
  dsimp only
  rw [if_neg]
  rintro ⟨-, hwait, -, -, hphys⟩
  rcases h with ⟨hwhy, hch⟩ | h
  · rw [hwhy, Option.isSome_iff_ne_none.mpr hch] at hwait
    exact Bool.noConfusion hwait
  · exact h hphys

theorem alone_iff : f.why.alone = false ↔ f.why ≠ .stopOff ∧ f.why ≠ .ended := by
  cases f.why <;> decide

/-! ## Acknowledgements and timeouts -/

theorem exec_srqAck (hearly : s.early = []) (hsrl : s.level.srl = f :: r) (hstarted : f.started = some st)
    (halone : f.why.alone = false) (hlo : st + 4992 ≤ s.time.phys) (hhi : s.time.phys ≤ st + 81408) :
    exec .srqAck s = .next (ackFrame f s) := by
  change execSrqAck s = _
  rw [execSrqAck, unlessEarly_acts _ _ _ (by rw [hearly]; exact List.not_mem_nil), srqAck, hsrl]
  dsimp only
  rw [hstarted]
  exact congrArg Host.Outcome.next (if_pos ⟨halone, hlo, hhi⟩)

theorem exec_srqAck_not (hearly : s.early = []) (hsrl : s.level.srl = f :: r) (hstarted : f.started = some st)
    (h : s.time.phys < st + 4992 ∨ st + 81408 < s.time.phys) : exec .srqAck s = .next s := by
  change execSrqAck s = _
  rw [execSrqAck, unlessEarly_acts _ _ _ (by rw [hearly]; exact List.not_mem_nil), srqAck, hsrl]
  dsimp only
  rw [hstarted]
  refine congrArg Host.Outcome.next (if_neg ?_)
  rintro ⟨-, hlo, hhi⟩
  simp only [usTicks] at hlo hhi
  omega

/-- A frame is awaited no longer, and its timeout is counted. -/
def timedOut (s : State) : State :=
  { popFrame s with level := { (popFrame s).level with ntimeout := satInc s.level.ntimeout } }

theorem exec_srlTimeout_change (hsrl : s.level.srl = f :: r) (hstarted : f.started = some st)
    (hlate : st + 81408 ≤ s.time.phys) (hwhy : f.why = .change ∨ f.why = .restore) (hch : s.level.change = some ch) :
    exec .srlTimeout s = .next (changeTimeout ch (timedOut s)) := by
  have hhead {h : SrlFor → Bool} (hh : h .change = false ∧ h .restore = false) : h f.why = false :=
    hwhy.elim (fun e => e ▸ hh.1) fun e => e ▸ hh.2
  have hch' : (popFrame s).level.change = some ch := hch
  change execSrlTimeout s = _
  rw [execSrlTimeout, hsrl]
  dsimp only
  rw [hstarted]
  dsimp only
  rw [if_pos (show _ from ⟨hhead ⟨rfl, rfl⟩, hlate⟩)]
  rcases hwhy with hwhy | hwhy <;> rw [hwhy] <;> dsimp only <;> rw [hch'] <;> rfl

theorem exec_srlTimeout_wake (hsrl : s.level.srl = f :: r) (hstarted : f.started = some st)
    (hlate : st + 81408 ≤ s.time.phys) (hwhy : f.why = .wake) :
    exec .srlTimeout s = .next ((timedOut s).pushFrame { f with decided := s.time.phys, started := none }) := by
  change execSrlTimeout s = _
  rw [execSrlTimeout, hsrl]
  dsimp only
  rw [hstarted]
  dsimp only
  rw [if_pos (show _ from ⟨by rw [hwhy]; rfl, hlate⟩), hwhy]
  rfl

theorem exec_srlTimeout_early (hsrl : s.level.srl = f :: r) (hstarted : f.started = some st)
    (hearly : s.time.phys < st + 81408) : exec .srlTimeout s = .next s := by
  change execSrlTimeout s = _
  rw [execSrlTimeout, hsrl]
  dsimp only
  rw [hstarted]
  refine congrArg Host.Outcome.next (if_neg ?_)
  rintro ⟨-, h⟩
  simp only [usTicks] at h
  omega

/-! ## The end of a change -/

theorem levelArg_eq (t w : BitVec 2) (b : Bool) (c : BitVec 8) : levelArg t w b c =
    BitVec.ofNat 32 (t.toNat + w.toNat * 4 + (if b then 16 else 0) + c.toNat * 256) := by
  cases b <;> rfl

theorem endChange_ok (h : s.level.forceNext = false) : endChange ch stOk s = { s with
    level := { s.level with tgt := s.level.cur, change := none, nchange := satInc s.level.nchange }
    later := s.later ++ [.event 0xB8 (levelArg s.level.cur ch.was ch.forced stOk)] } := by
  have hagain : (s.level.forceNext || (ch.forced && stOk == stTimeout)) = false := by
    rw [h, Bool.false_or]
    exact Bool.and_false _
  unfold endChange
  dsimp only
  rw [hagain]
  rfl

theorem recostLoader_only (s : State) : ∃ l, recostLoader s = { s with loader := l } := by
  unfold recostLoader
  split <;> exact ⟨_, rfl⟩

/-- A switch of the clock sets the level; the loader's lines and long stalls are counted anew. -/
theorem switchClock_only (n : BitVec 2) (s : State) : ∃ cs ts l, switchClock n s = { s with
    cores := cs, tenants := ts, loader := l
    level := { s.level with cur := n, pll := if n = 0 then none else s.level.pll } } := by
  obtain ⟨cs, ts, h⟩ := longStalls_only { s with level := { s.level with cur := n, pll := if n = 0 then none else s.level.pll } }
  obtain ⟨l, h'⟩ := recostLoader_only (longStalls { s with level := { s.level with
    cur := n, pll := if n = 0 then none else s.level.pll } })
  exact ⟨cs, ts, l, h'.trans (by rw [h])⟩

theorem commonEdge_of (h : s.time.phys % 24 = 0) : s.commonEdge = true := by rw [State.commonEdge, h]; rfl

theorem exec_clockSwitch (hearly : s.early = []) : exec .clockSwitch s = .next (clockSwitch s) := by
  change execClockSwitch s = _
  rw [execClockSwitch, unlessEarly_acts _ _ _ (by rw [hearly]; exact List.not_mem_nil)]

theorem pllLocked_of (h : ∃ p, s.level.pll = some p ∧ p ≤ s.time.phys) : s.pllLocked = true := by
  obtain ⟨p, hp, hle⟩ := h
  rw [State.pllLocked, hp]
  exact decide_eq_true hle

theorem clockSwitch_up {e : Nat} (hch : s.level.change = some ch) (hrun : s.running = true) (hedge : s.time.phys % 24 = 0)
    (hphase : ch.phase = .biasUp e ∧ e ≤ s.time.phys ∨ ch.phase = .fixedSwitch ∧ ch.start < s.time.phys)
    (hlocked : s.pllLocked = true) : clockSwitch s = endChange ch stOk (switchClock ch.tgt s) := by
  rw [clockSwitch, hch]
  dsimp only
  rw [if_neg (by rw [hrun, commonEdge_of hedge]; decide)]
  rcases hphase with ⟨hp, hle⟩ | ⟨hp, hlt⟩
  · rw [hp]; exact if_pos ⟨hle, hlocked⟩
  · rw [hp]; exact if_pos ⟨hlt, Or.inr hlocked⟩

theorem clockSwitch_not (h : s.level.change = none ∨ s.time.phys % 24 ≠ 0) : clockSwitch s = s := by
  rw [clockSwitch]
  rcases h with h | h
  · rw [h]
  · have hedge : s.commonEdge = false := beq_false_of_ne h
    split
    · rfl
    · exact if_pos (Or.inr hedge)

/-! ## The phase counter in Hibernate -/

/-- Hive time at a wrap of the phase counter. -/
def hiveAdvanced (s : State) : State :=
  { s with time := { s.time with
      hive := (s.time.hive + (s.time.phys - s.time.hiveAt)) % 2 ^ 64, hiveAt := s.time.phys } }

theorem exec_aonAdvance (hmode : (s.time.mode = .hibernate ∧ wakeDue s = false) ∨
      (s.time.mode = .releasing ∧ s.boot.htv = true ∧ s.boot.cause = 2))
    (hphase : (s.time.phys - s.time.phase0) / 6 % 1024 = 0) (hnew : s.time.hiveAt < s.time.phys) :
    exec .aonAdvance s = .next
      (match s.sleep.armed.cmps.find? (fun p => decide (p.2 ≤ (hiveAdvanced s).time.hive)) with
        | some p => latchWake 9 p.1 (hiveAdvanced s)
        | none => hiveAdvanced s) := by
  have hgo : (s.time.mode == .hibernate && !wakeDue s) = true ∨
      (s.time.mode == .releasing && s.boot.htv && s.boot.cause == 2) = true := by
    rcases hmode with ⟨hm, hw⟩ | ⟨hm, hh, hc⟩
    · left; rw [hm, hw]; rfl
    · right; rw [hm, hh, hc]; rfl
  refine congrArg Host.Outcome.next ((if_pos ⟨hgo, hphase, hnew⟩).trans ?_)
  rfl

theorem exec_aonAdvance_not (h : s.time.mode ≠ .hibernate ∨ wakeDue s = true)
    (h' : s.time.mode ≠ .releasing ∨ s.boot.htv = false ∨ s.boot.cause ≠ 2) : exec .aonAdvance s = .next s := by
  have hasleep : (s.time.mode == .hibernate && !wakeDue s) = false := by
    rcases h with h | h
    · rw [beq_false_of_ne h, Bool.false_and]
    · rw [h, Bool.not_true, Bool.and_false]
  have hwaking : (s.time.mode == .releasing && s.boot.htv && s.boot.cause == 2) = false := by
    rcases h' with h' | h' | h'
    · rw [beq_false_of_ne h', Bool.false_and, Bool.false_and]
    · rw [h', Bool.and_false, Bool.false_and]
    · rw [beq_false_of_ne h', Bool.and_false]
  refine congrArg Host.Outcome.next (if_neg ?_)
  rw [hasleep, hwaking]
  rintro ⟨hgo, -⟩
  exact hgo.elim Bool.false_ne_true Bool.false_ne_true

/-- A compare that a wrap reaches in Hibernate latches its flag. -/
theorem latchWake_hibernate {n : Nat} (hmode : s.time.mode = .hibernate) (hmask : s.sleep.armed.mask.getLsbD 9 = true)
    (hflags : s.sleep.armed.flags = []) : latchWake 9 n s = { s with sleep := { s.sleep with armed := { s.sleep.armed with
      flags := [⟨9, n, s.time.phys, s.time.clk + 2⟩] } } } := by
  have hdetect : detecting s = true := by
    rw [detecting, hmode]
    simp
  have hidle : ¬(detecting s = false ∨ s.sleep.armed.armed 9 = false ∨
      (s.sleep.armed.flags.any (fun w => w.code == 9)) = true) := by
    rw [hdetect, ArmedSet.armed, hmask, hflags]
    decide
  unfold latchWake
  rw [if_neg hidle]
  dsimp only
  rw [if_neg (by exact fun h => nomatch hmode.symm.trans h)]
  unfold State.setSleep
  dsimp only
  rw [hflags]
  rfl

end

/-- Settles O51: by the purpose of the frame in front, and by the phase of the change in progress. -/
theorem clockAndLink : Obligations.ClockAndLink := by
  unfold Obligations.ClockAndLink
  intro s f r ch st hearly
  dsimp only
  refine ⟨?start, fun hsrl hwhy hch => exec_srlFrameStart_waits hsrl (Or.inl ⟨hwhy, hch⟩), ?noStart, ?sent, ?up,
    fun l => ⟨rfl, rfl, fun h => if_neg h⟩, ?down, ?wake, fun hsrl hst h => exec_srqAck_not hearly hsrl hst h, ?late,
    ?lateWake, fun hsrl hst h => exec_srlTimeout_early hsrl hst h, ?switchUp, ?switchDown, ?noSwitch, ?aon,
    exec_aonAdvance_not, by decide, by decide, by decide, by decide⟩
  case start =>
    intro hcrystal hsrl hstarted hwait hdecided hphys
    obtain ⟨h5, h4, h3, h2, h1, h0⟩ := frameWord_nibbles f (s.level.seq + 1)
    refine ⟨_, exec_srlFrameStart hcrystal hsrl hstarted hwait hdecided hphys, rfl, rfl, h5, ?_, ?_, h1, ?_⟩
    · refine h4.trans ?_
      rw [Nat.add_comm, isOff]
      congr 1
      simp only [Bool.or_eq_true, beq_iff_eq]
    · rw [h3, h2]
      omega
    · rw [h0, h1, h2, h3, h4, h5]
      simp only [Nat.xor_comm, Nat.xor_left_comm, Nat.xor_assoc]
  case noStart =>
    intro h
    cases hsrl : s.level.srl with
    | nil =>
      change execSrlFrameStart s = _
      rw [execSrlFrameStart, hsrl]
    | cons g q => exact exec_srlFrameStart_waits hsrl (Or.inr (h.resolve_left (by rw [hsrl]; exact List.cons_ne_nil _ _)))
  case sent =>
    intro hsrl hst hwhy
    have halone : f.why.alone = true := by
      rw [← Bool.not_eq_false, alone_iff]
      exact hwhy
    rw [dropSent, hsrl]
    dsimp only
    rw [hst]
    dsimp only
    by_cases hle : st + 4704 ≤ s.time.phys
    · rw [if_pos ⟨halone, hle⟩, if_pos hle, popFrame, hsrl, List.tail_cons]
    · rw [if_neg (fun h => hle h.2), if_neg hle]
  case up =>
    rintro ⟨hsrl, hst, hlo, hhi⟩ hwhy hch hup hfixed
    rw [exec_srqAck hearly hsrl hst (by rw [hwhy]; rfl) hlo hhi]
    have hch' : (popFrame s).level.change = some ch := hch
    unfold ackFrame
    dsimp only
    rw [hwhy]
    dsimp only
    rw [hch']
    dsimp only
    rw [changeAck, if_pos hup]
    unfold biasNext popFrame
    dsimp only
    rw [hfixed, hsrl]
    rfl
  case down =>
    rintro ⟨hsrl, hst, hlo, hhi⟩ hwhy hch hdown hforce
    rw [exec_srqAck hearly hsrl hst (by rw [hwhy]; rfl) hlo hhi]
    have hch' : (popFrame s).level.change = some ch := hch
    unfold ackFrame
    dsimp only
    rw [hwhy]
    dsimp only
    rw [hch']
    dsimp only
    rw [changeAck, if_neg (by omega), endChange_ok (by exact hforce), levelArg_eq]
    unfold popFrame
    rw [hsrl]
    rfl
  case wake =>
    rintro ⟨hsrl, hst, hlo, hhi⟩ hwhy
    rw [exec_srqAck hearly hsrl hst (by rw [hwhy]; rfl) hlo hhi]
    unfold ackFrame
    dsimp only
    rw [hwhy]
    unfold popFrame
    rw [hsrl]
    rfl
  case late =>
    rintro ⟨hsrl, hst, hlate⟩ hwhy hch
    have htail : s.level.srl.tail = r := by rw [hsrl]; rfl
    have hexec := exec_srlTimeout_change hsrl hst hlate hwhy hch
    refine ⟨setFrame .restore ch.was s.time.phys, hexec.trans ?_, rfl, rfl, rfl, rfl, rfl, ?_⟩
    · unfold timedOut changeTimeout State.pushFrame popFrame
      dsimp only
      rw [htail]
    · rintro h rfl hh hwhy'
      rw [insertFrame, if_pos ⟨hh, by rw [hwhy']; exact Nat.lt_succ_self 1⟩]
  case lateWake =>
    rintro ⟨hsrl, hst, hlate⟩ hwhy
    have htail : s.level.srl.tail = r := by rw [hsrl]; rfl
    refine (exec_srlTimeout_wake hsrl hst hlate hwhy).trans ?_
    unfold timedOut State.pushFrame popFrame
    dsimp only
    rw [htail]
  case switchUp =>
    rintro e ⟨hch, hrun, hedge⟩ hphase hlocked hforce
    obtain ⟨cs, ts, l, hsw⟩ := switchClock_only ch.tgt s
    have hup := clockSwitch_up hch hrun hedge hphase (pllLocked_of hlocked)
    rw [hsw, endChange_ok (by exact hforce), levelArg_eq] at hup
    exact ⟨_, (exec_clockSwitch hearly).trans (congrArg Host.Outcome.next hup), rfl, rfl, rfl, rfl, rfl, rfl, rfl⟩
  case switchDown =>
    rintro ⟨hch, hrun, hedge⟩ hphase hstart hfixed
    obtain ⟨cs, ts, l, hsw⟩ := switchClock_only ch.tgt s
    have hdown : clockSwitch s = (fun u : State => ({ u with level := { u.level with change := some { ch with phase := .frame } } } : State).pushFrame
        (setFrame .change ch.tgt (rampEnd { u with level := { u.level with change := some { ch with phase := .frame } } })))
        (biasNext ch.tgt (switchClock ch.tgt s)) := by
      rw [clockSwitch, hch]
      dsimp only
      rw [if_neg (by rw [hrun, commonEdge_of hedge]; decide), hphase]
      exact if_pos hstart
    rw [hsw, biasNext, if_neg (by rw [hfixed]; exact Bool.false_ne_true)] at hdown
    exact ⟨_, _, (exec_clockSwitch hearly).trans (congrArg Host.Outcome.next hdown), rfl, fun h => if_pos h, rfl, rfl, rfl,
      rfl, rfl, rfl, rfl⟩
  case noSwitch =>
    intro h
    rw [exec_clockSwitch hearly, clockSwitch_not h]
  case aon =>
    intro hmode hphase hnew
    have hexec := exec_aonAdvance hmode hphase hnew
    refine ⟨fun hcmps => ?_, fun n c hhib hcmps hc hmask hflags => ?_⟩
    · rw [List.find?_eq_none.mpr (fun p hp => by
        rw [decide_eq_true_iff]
        exact Nat.not_le.mpr (hcmps p hp))] at hexec
      exact hexec
    · rw [hcmps, List.find?_cons, decide_eq_true (by exact hc)] at hexec
      dsimp only at hexec
      rw [latchWake_hibernate (s := hiveAdvanced s) hhib hmask hflags] at hexec
      exact hexec

end Sys2Proof.Machine
end

section
/-!
PROOFS. Sleep entry and the thermal cut, which take the flash die over from a background erase
(spec/06_sleep_and_wake.md section 6.5, spec/07_heat.md section 7.3, spec/16_journal_flash.md section 16.9).
-/
namespace Sys2Proof.Machine

/-- The device of `erasingState` at the end of the last step of a sleep entry. -/
def enteringState (v : Byte) : State :=
  { erasingState v with sleep := { SleepSt.reset with entry := some ⟨true, 0, 0, 5, 0, 0, 0, false, 0, none⟩ } }

/-- Refutes O53: the last step of an entry takes the flash die over as a reset does, so a background erase that is cut
there changes bytes, with neither an operation nor a burn. In `enteringState` a dirty sector is being erased. -/
theorem not_wakeAndEntry : ¬ Obligations.WakeAndEntry := by
  unfold Obligations.WakeAndEntry
  intro h
  obtain ⟨v, hv, hfree, -⟩ := exists_oddByte (Config.freeByte 1) 0
  obtain ⟨-, -, -, -, -, -, -, -, -, -, -, -, -, hlast, -⟩ :=
    h (enteringState v) ⟨true, 0, 0, 5, 0, 0, 0, false, 0, none⟩ ⟨0, 0, 0, 0⟩ []
  obtain ⟨u, hu, -, -, -, -, -, -, -, -, -, -, -, hmem⟩ := hlast ⟨rfl, rfl⟩ ⟨rfl, rfl, rfl⟩ rfl rfl
  cases hu
  exact keepFlash_erasing (s := enteringState v) rfl (erasingState_wf hv) hv hfree
    { State.reset with
      time := (enteringState v).time, boot := (enteringState v).boot, level := (enteringState v).level
      sleep := (enteringState v).sleep
      therm := { ThermSt.reset with
        record := (enteringState v).therm.record, thermLow := (enteringState v).therm.thermLow, wakeOut := false } }
    ((congrArg (memGet · 0x08100000) hmem).trans rfl)

/-- The cut takes the flash die over after it has latched the pads. -/
theorem cutDomains_mem' (s : State) (new : State) : (cutDomains s).mem = (keepFlash (latchPads s).2 new).mem := by
  unfold cutDomains
  dsimp only
  split <;> rfl

/-- The device of `erasingState` once the cut has stopped what runs in flash: the sector is still dirty. -/
theorem cutPart_erasing {s : State} (hj : s.journal = erasingJournal) (hm : Memory.wf s.mem = true) :
    (cutPart [.erase 0x100000] s).journal = erasingJournal ∧ Memory.wf (cutPart [.erase 0x100000] s).mem = true := by
  refine ⟨?_, cutPart_wf _ _ hm⟩
  obtain ⟨m, ic, fr, h⟩ := cutPart_only [.erase 0x100000] s
  rw [h]
  exact hj

/-- A byte that is neither erased nor one of two free values does not stay through the cut. -/
theorem cutDomains_erasing {s : State} {v : Byte} (hj : s.journal = erasingJournal) (hm : Memory.wf s.mem = true)
    (hv : v ≠ 0xFF) (h1 : v ≠ Config.freeByte (s.free + 34)) (h2 : v ≠ Config.freeByte (s.free + 4130)) :
    memGet (cutDomains (stopAbandon s)).mem 0x08100000 ≠ v := by
  obtain ⟨hj', hm'⟩ := cutPart_erasing hj hm
  have hfree := cutPart_erase_free 0x100000 s
  rw [cutDomains_mem' _ State.reset, stopAbandon, cutFlash_erasing hj]
  generalize cutPart [.erase 0x100000] s = w at hj' hm' hfree ⊢
  refine keepFlash_erasing (s := (latchPads w).2) hj' hm' hv ?_ State.reset
  change v ≠ Config.freeByte (w.free + 32 + 1)
  rcases hfree with h | h <;> rw [h]
  · exact h1
  · exact h2

/-- Refutes O54: the thermal cut takes the flash die over too, so a background erase that it cuts changes bytes, with
neither an operation nor a burn. In `erasingState` a dirty sector is being erased when DTS1 reads 125 degrees. -/
theorem not_thermalUnit : ¬ Obligations.ThermalUnit := by
  unfold Obligations.ThermalUnit
  intro h
  obtain ⟨v, hv, h1, h2⟩ := exists_oddByte (Config.freeByte 34) (Config.freeByte 4130)
  obtain ⟨-, -, -, hcut, -⟩ := h (erasingState v) ⟨0, 0, 0, 0, 0, 0, 2000, 0, 0⟩ ⟨1, 0, false⟩ rfl
  obtain ⟨u, hu, -, -, -, -, -, -, -, -, hmem, -⟩ :=
    hcut ⟨rfl, rfl⟩ (fun hm => nomatch hm) (fun hm => nomatch hm) (Or.inl (by decide))
  have hexec : ∃ t : ThermSt, exec (.thermalCut ⟨0, 0, 0, 0, 0, 0, 2000, 0, 0⟩) (erasingState v) =
      .next (cutDomains (stopAbandon { erasingState v with therm := t })) :=
    ⟨_, congrArg Host.Outcome.next (if_neg (by
      rintro (hm | hm | ⟨hm, -⟩)
      · exact nomatch hm
      · exact nomatch hm
      · exact absurd hm (by decide)))⟩
  obtain ⟨t, hexec⟩ := hexec
  cases hexec.symm.trans hu
  exact cutDomains_erasing (s := { erasingState v with therm := t }) rfl (erasingState_wf hv) hv h1 h2
    ((congrArg (memGet · 0x08100000) hmem).trans rfl)

end Sys2Proof.Machine
end

section
/-!
PROOFS. The hive's instructions (spec/15_hive_fabric.md sections 15.3 and 15.7).
-/
namespace Sys2Proof.Machine

/-! ## Frames on the tether -/

/-- What queueing frames on the tether may change: the tether's peers, the frame counter, the sequence number and the
events of the next clock. -/
def TetherQueued (s u : State) : Prop :=
  ∃ lt fc sq ps, u = { s with later := lt, hive := { s.hive with fc := fc, seq := sq, peers := ps } }

theorem TetherQueued.refl (s : State) : TetherQueued s s := ⟨s.later, s.hive.fc, s.hive.seq, s.hive.peers, rfl⟩

theorem TetherQueued.trans {s u w : State} (h : TetherQueued s u) (h' : TetherQueued u w) : TetherQueued s w := by
  obtain ⟨lt, fc, sq, ps, rfl⟩ := h
  obtain ⟨lt', fc', sq', ps', rfl⟩ := h'
  exact ⟨lt', fc', sq', ps', rfl⟩

theorem takeFc_queued (s : State) : TetherQueued s (takeFc s).2 := by
  unfold takeFc
  dsimp only
  split
  · exact .refl s
  · dsimp only
    split <;> exact ⟨_, _, _, _, rfl⟩

theorem makeFrame_queued (f : HFrame) (dst : Nat) (ack : Bool) (seq : Byte) (s : State) :
    TetherQueued s (makeFrame f dst ack seq s).2 := by
  have hfc := takeFc_queued s
  unfold makeFrame
  dsimp only
  split
  · exact .refl s
  · split
    · exact .refl s
    · split <;> next h => rw [h] at hfc; exact hfc

theorem enqueueTether_queued {pos : Nat} {f : HFrame} {dst : Nat} {for_ : TxFor} (h : ∀ id, for_ ≠ .msg id) (s : State) :
    TetherQueued s (enqueueTether pos f dst for_ s) := by
  have hseq : TetherQueued s (s.modHive (fun h => { h with seq := h.seq + 1 })) := ⟨_, _, _, _, rfl⟩
  have hframe := hseq.trans (makeFrame_queued f dst false s.hive.seq _)
  unfold enqueueTether
  dsimp only
  split
  · next hm =>
    rw [hm] at hframe
    split
    · next id => exact absurd rfl (h id)
    · exact hframe
  · next hm =>
    rw [hm] at hframe
    exact hframe.trans ⟨_, _, _, _, rfl⟩

theorem enqueueTethers_queued {f : HFrame} {dst : Nat} {for_ : TxFor} (h : ∀ id, for_ ≠ .msg id) (l : List Peer) (s : State) :
    TetherQueued s (forEach l (fun p s => enqueueTether p.pos f dst for_ s) s) :=
  forEach_keeps (P := TetherQueued s) (fun _ u hu => hu.trans (enqueueTether_queued h u)) l (.refl s)

/-! ## The instructions' form -/

section
variable {c : CoreId} {i : Instr} {v : Inv} {s s' u : State} {f : UForm}

theorem unitOk_two {unused : List (BitVec 4)} (h : f.inst = 0 ∨ f.inst = 1) (hun : unusedZero unused = true) :
    unitOk 2 f unused = true := by
  rcases h with h | h <;> rw [unitOk, h, hun] <;> rfl

/-- An instruction of a hive that is up: its body's answer retires it. -/
theorem hiveInstr_retires {unused : List (BitVec 4)} {ok may : Tid → Regs → State → Bool} {waits : State → Option Func}
    {body : Tid → Regs → State → Ans} (h : Begins c i v (ownFirst hiveFirst s) s')
    (hup : s'.hasFailed .radio = false ∧ s'.hive.st ≠ .fault) (hunit : unitOk 2 f unused = true)
    (hok : ok v.tenant (s'.regs c) s' = true) (hmay : may v.tenant (s'.regs c) s' = true) (hwait : waits s' = none)
    {st : BitVec 8} {upd : Regs → Regs} {n : Nat} {banks : List Nat}
    (ha : body v.tenant (s'.regs c) s' = { st := st, s := u, upd := upd, extra := n, banks := banks }) :
    hiveInstr c i f unused ok may waits body s =
      .next (retireUsing c v banks (ownFirst hiveFirst s) st upd (s'.base + n) u) := by
  have hfail : (s'.hasFailed .radio || s'.hive.st == .fault) = false := by rw [hup.1, beq_false_of_ne hup.2]; rfl
  refine specInstr_answers h rfl ?_ hmay hfail hwait rfl (a := { st := st, s := u, upd := upd, extra := n, banks := banks }) ha rfl
  dsimp only
  rw [hunit, hok]
  rfl

theorem hiveInstr_gives {unused : List (BitVec 4)} {ok may : Tid → Regs → State → Bool} {waits : State → Option Func}
    {body : Tid → Regs → State → Ans} (h : Begins c i v (ownFirst hiveFirst s) s')
    (hup : s'.hasFailed .radio = false ∧ s'.hive.st ≠ .fault) (hunit : unitOk 2 f unused = true)
    (hok : ok v.tenant (s'.regs c) s' = true) (hmay : may v.tenant (s'.regs c) s' = true) (hwait : waits s' = none)
    {st : BitVec 8} {upd : Regs → Regs} {n : Nat}
    (ha : body v.tenant (s'.regs c) s' = { st := st, s := u, upd := upd, extra := n }) :
    hiveInstr c i f unused ok may waits body s = .next (retire c v.tenant st upd (s'.base + n) u) :=
  (hiveInstr_retires h hup hunit hok hmay hwait ha).trans (congrArg Host.Outcome.next (retireUsing_nil ..))

/-! ## FJOIN -/

/-- The block of FJOIN asks for the radio alone. -/
def RadioOnly (ws : Words) : Prop :=
  joinOk ws = true ∧ (wordAt ws 0).getLsbD 24 = false ∧ (wordAt ws 0).toNat / 2 ^ 22 % 4 = 0

theorem RadioOnly.teth {ws : Words} (h : RadioOnly ws) : fieldOf (wordAt ws 0) 23 22 = 0 := h.2.2

theorem RadioOnly.radio {ws : Words} (h : RadioOnly ws) : bitOf (wordAt ws 0) 21 = true := by
  have hok := h.1
  by_contra hradio
  simp [joinOk, hradio, h.teth] at hok

/-- Joining by the radio alone: a fresh hive in READY, with a CALL to send (R411, R413). -/
theorem joinHive_radio {ws : Words} (h : RadioOnly ws) (t : Tid) (s : State) : ∃ u e, joinHive t ws s = u ∧
    u.hive.st = .ready ∧ u.hive.join = ws ∧ u.hive.owner = t ∧ u.hive.addr = 0 ∧
    u.hive.claimAt = s.time.hive + 19200000 ∧ u.hive.fc = (wordAt ws 3).toNat ∧ u.hive.nbrs = [] ∧ u.hive.freq = ⟨0, 1⟩ ∧
    u.hive.txq = [e] ∧ e.f.typ = 3 ∧ e.f.hleft = 0 ∧ e.f.src = .own ∧ u.mem = s.mem := by
  have hradio := h.radio
  have hteth := h.teth
  unfold joinHive
  simp only [State.modHive, HiveSt.teth, HiveSt.w, hteth, if_true, if_neg (show ¬(0 = 1) by decide),
    if_neg (show ¬(0 = 2) by decide), floodOwn, protoFrame, floodSend, noteKey, enqueueRadio, HiveSt.radio, hradio]
  exact ⟨_, _, rfl, rfl, rfl, rfl, rfl, rfl, rfl, rfl, rfl, rfl, rfl, rfl, rfl, rfl⟩

/-- FJOIN by the radio alone, with its answer (R411). -/
theorem fjoin_gives {banks : List Nat} {st : BitVec 8} {n : Nat} (hinst : f.inst = 0) (hd : f.rd = 0) (hb : f.rb = 0)
    (h : Begins c (.fjoin c f) v (ownFirst hiveFirst s) s') (hup : s'.hasFailed .radio = false ∧ s'.hive.st ≠ .fault)
    (hcap : s'.may v.tenant capFabric = true) (hok : blockOk v.tenant ((s'.regs c).rd f.ra).toNat 4 = true)
    (hmay : blockMay s' v.tenant ((s'.regs c).rd f.ra).toNat 4 = true) (hwait : waitsFor .radio s' = none)
    (hleave : s'.hive.leaving = none)
    (ha : inStates s'.hive.st [.off] s' (withBlock ((s'.regs c).rd f.ra).toNat 4 s' (fun ws s =>
      if joinOk ws = false ∨ (bitOf (wordAt ws 0) 24 = true ∧ keyEmpty s = true) ∨
          (fieldOf (wordAt ws 0) 23 22 ≠ 0 ∧ tetherReady s (fieldOf (wordAt ws 0) 23 22) = false) then .status stRange s 4
      else { st := stPending, s := joinHive v.tenant ws s, extra := 4 })) =
        { st := st, s := u, extra := n, banks := banks }) :
    exec (.fjoin c f) s = .next (retireUsing c v banks (ownFirst hiveFirst s) st id (s'.base + n) u) := by
  refine hiveInstr_retires h hup (unitOk_two (Or.inl hinst) (unusedZero_two hd hb)) ?_ ?_ ?_ ha
  · rw [hinst, hok]; rfl
  · rw [hcap, hmay]; rfl
  · rw [hwait, hleave]; rfl

end

/-! ## FLEAVE -/

theorem endMsg_msgs (id : Nat) (st : BitVec 8) (reason : Nat) (s : State) :
    (endMsg id st reason s).hive.msgs = s.hive.msgs.filter (fun x => x.id != id) := by
  unfold endMsg
  split
  · next hnone =>
    exact (List.filter_eq_self.mpr fun x hx =>
      bne_iff_ne.mpr fun hid => List.find?_eq_none.mp hnone x hx (beq_iff_eq.mpr hid)).symm
  · rfl

/-- When every message ends, none is left. -/
theorem leaveMsgs_msgs (s : State) : (leaveMsgs s).hive.msgs = [] := by
  have hall (l : List Nat) (u : State) : (forEach l (fun id s => endMsg id stLink rLeft s) u).hive.msgs =
      u.hive.msgs.filter (fun x => !l.contains x.id) := by
    induction l generalizing u with
    | nil => exact (List.filter_eq_self.mpr fun _ _ => rfl).symm
    | cons id l ih =>
      refine (ih (endMsg id stLink rLeft u)).trans ?_
      rw [endMsg_msgs, List.filter_filter]
      refine List.filter_congr fun x _ => ?_
      rw [List.contains_cons, Bool.not_or, Bool.and_comm]
      rfl
  refine (hall (s.hive.msgs.map (·.id)) s).trans (List.filter_eq_nil_iff.mpr fun m hm => ?_)
  simpa using ⟨m, hm, rfl⟩

/-- The parts of the hive that FLEAVE clears. -/
def hiveRights (h : HiveSt) := (h.st, h.addr, h.msgs, h.fmap, h.routes, h.leases)

theorem TetherQueued.rights {s u : State} (h : TetherQueued s u) : hiveRights u.hive = hiveRights s.hive := by
  obtain ⟨lt, fc, sq, ps, rfl⟩ := h
  rfl

theorem settleLeave_rights (s : State) : hiveRights (settleLeave s).hive = hiveRights s.hive := by
  unfold settleLeave
  dsimp only
  split
  · split <;> rfl
  · rfl

/-- FLEAVE leaves nothing of the messages, the leases, the routes and the mappings (R412). -/
theorem leaveHive_rights (s : State) : hiveRights (leaveHive s).hive =
    (.off, 0, [], [], Vector.replicate 128 Route.none, Vector.replicate 126 none) := by
  have hmsgs := leaveMsgs_msgs s
  unfold leaveHive
  dsimp only
  rw [settleLeave_rights]
  generalize leaveMsgs s = w at hmsgs ⊢
  split
  · exact congrArg (fun m => (UState.off, 0, m, _, _, _)) hmsgs
  · refine (enqueueTethers_queued (for_ := .leave) (fun _ h => nomatch h) _ _).rights.trans ?_
    split <;> exact congrArg (fun m => (UState.off, 0, m, _, _, _)) hmsgs

/-! ## FRECV -/

theorem bitOf_eq (w : Word) (i : Nat) : bitOf w i = decide (w.toNat / 2 ^ i % 2 = 1) :=
  Nat.testBit_eq_decide_div_mod_eq

section
variable {c : CoreId} {v : Inv} {s s' u : State} {f : UForm}

/-- What FRECV answers of a hive in RUN or HELD (R427). -/
def frecvBody (t : Tid) (r : Regs) (f : UForm) (s : State) : Ans :=
  let port := BitVec.ofNat 8 (r.rd f.ra).toNat
  let b := r.rd f.rb
  let q : QueueId := finOf 64 (fieldOf b 5 0)
  let others (m : FMap) : Bool := m.port != port
  if t ≠ 0 ∧ s.hive.fmap.any (fun m => m.port == port && m.owner != t) = true then .status stState s
  else if !zeroBits b 31 7 then .status stRange s
  else if bitOf b 6 then
    (if fieldOf b 5 0 ≠ 0 then .status stRange s
     else .ok (s.modHive (fun h => { h with fmap := h.fmap.filter others })))
  else if (s.queue q).prod ≠ 2 then .status stRange s
  else .ok (s.modHive (fun h => { h with fmap := h.fmap.filter others ++ [⟨port, q, t⟩] }))

theorem frecv_gives {st : BitVec 8} (h : Begins c (.frecv c f) v (ownFirst hiveFirst s) s')
    (hup : s'.hasFailed .radio = false ∧ s'.hive.st ≠ .fault) (hinst : f.inst = 0) (hd : f.rd = 0)
    (hwait : waitsFor .radio s' = none) (hport : s'.may v.tenant (capFp (((s'.regs c).rd f.ra).toNat % 256)) = true)
    (hq : ((s'.regs c).rd f.rb).toNat / 64 % 2 = 1 ∨
      s'.may v.tenant (capQueue (((s'.regs c).rd f.rb).toNat % 64)) = true)
    (ha : inStates s'.hive.st [.run, .held] s' (frecvBody v.tenant (s'.regs c) f s') = { st := st, s := u }) :
    exec (.frecv c f) s = .next (retire c v.tenant st id (s'.base + 0) u) := by
  refine hiveInstr_gives h hup (unitOk_two (Or.inl hinst) (unusedZero_one hd)) (by rw [hinst]; rfl) ?_ hwait ha
  rw [field0_mod, field0_mod, bitOf_eq]
  rw [show s'.may v.tenant (capFp (((s'.regs c).rd f.ra).toNat % 2 ^ (7 + 1))) = true from hport, Bool.true_and, Bool.or_eq_true,
    decide_eq_true_iff]
  exact hq

/-- The tenant may map the port: no other tenant has (R427). -/
def MayMap (t : Tid) (port : BitVec 8) (s : State) : Prop := t = 0 ∨ ∀ m ∈ s.hive.fmap, m.port = port → m.owner = t

theorem mayMap_iff {t : Tid} {port : BitVec 8} : MayMap t port s ↔
    ¬(t ≠ 0 ∧ s.hive.fmap.any (fun m => m.port == port && m.owner != t) = true) := by
  simp only [MayMap, List.any_eq_true, Bool.and_eq_true, beq_iff_eq, bne_iff_ne, not_and, not_exists, not_not, ← or_iff_not_imp_left]

theorem frecvBody_taken {t : Tid} {r : Regs} (h : ¬ MayMap t (BitVec.ofNat 8 (r.rd f.ra).toNat) s) :
    frecvBody t r f s = { st := 0x10, s := s } := if_pos (not_not.mp (mt mayMap_iff.mpr h))

theorem frecvBody_mine {t : Tid} {r : Regs} (h : MayMap t (BitVec.ofNat 8 (r.rd f.ra).toNat) s)
    (hw : (r.rd f.rb).toNat < 128) : frecvBody t r f s =
      if bitOf (r.rd f.rb) 6 then
        (if fieldOf (r.rd f.rb) 5 0 ≠ 0 then .status stRange s
         else .ok (s.modHive (fun h => { h with
          fmap := h.fmap.filter (fun m => m.port != BitVec.ofNat 8 (r.rd f.ra).toNat) })))
      else if (s.queue (finOf 64 (fieldOf (r.rd f.rb) 5 0))).prod ≠ 2 then .status stRange s
      else .ok (s.modHive (fun h => { h with
        fmap := h.fmap.filter (fun m => m.port != BitVec.ofNat 8 (r.rd f.ra).toNat) ++
          [⟨BitVec.ofNat 8 (r.rd f.ra).toNat, finOf 64 (fieldOf (r.rd f.rb) 5 0), t⟩] })) := by
  have hzero : (!zeroBits (r.rd f.rb) 31 7) = false := by
    rw [zeroBits_high (by decide), decide_eq_true (by exact hw)]
    rfl
  unfold frecvBody
  dsimp only
  rw [if_neg (mayMap_iff.mp h), hzero, if_neg Bool.false_ne_true]

theorem frecvBody_high {t : Tid} {r : Regs} (h : MayMap t (BitVec.ofNat 8 (r.rd f.ra).toNat) s)
    (hw : 128 ≤ (r.rd f.rb).toNat) : frecvBody t r f s = { st := 0x16, s := s } := by
  have hzero : (!zeroBits (r.rd f.rb) 31 7) = true := by
    rw [zeroBits_high (by decide), decide_eq_false (by exact Nat.not_lt.mpr hw)]
    rfl
  unfold frecvBody
  dsimp only
  rw [if_neg (mayMap_iff.mp h), if_pos hzero]
  rfl

/-! ## FROUTE -/

/-- The entry that a route block writes (Table 15.8). -/
def routeEntry (w : Word) : Route :=
  if w.getLsbD 12 then ⟨w.truncate 7, w.getLsbD 7, w.extractLsb' 8 3, w.getLsbD 11, true⟩ else Route.none

/-- A route block is within its fields. -/
def RouteGood (w : Word) : Prop :=
  w.toNat < 2 ^ 13 ∧ (w.getLsbD 12 = true → w.toNat % 128 ≠ 0 ∧ w.toNat % 128 ≠ 127 ∧
    1 ≤ w.toNat / 256 % 8 ∧ w.toNat / 256 % 8 ≤ 4)

theorem routeBlockOk_iff {w : Word} : routeBlockOk w = true ↔ RouteGood w := by
  rw [routeBlockOk, zeroBits_high (by decide), field0_mod, fieldOf, Bool.and_eq_true, decide_eq_true_iff, Bool.or_eq_true,
    Bool.not_eq_true', RouteGood, bitOf]
  cases w.getLsbD 12 <;> simp [and_assoc]

/-- The hive after a good FROUTE (R421). -/
def routeWritten (f : UForm) (d : Nat) (w : Word) (s : State) : State :=
  let u := s.modHive (fun h => { h with
    routes := vsetD h.routes d (routeEntry w), cands := handCands d (routeEntry w) s.time.hive h.cands
    advNew := h.advNew || vgetD h.routes d Route.none != routeEntry w })
  if f.inst = 1 then invalLines d u else u

theorem routeEntry_eq (w : Word) : (if bitOf w 12 then
    (⟨BitVec.ofNat 7 (fieldOf w 6 0), bitOf w 7, BitVec.ofNat 3 (fieldOf w 10 8), bitOf w 11, true⟩ : Route)
    else Route.none) = routeEntry w := by
  rw [ofNat_field0 w 6, ofNat_fieldOf w 10 8]
  rfl

theorem froute_retires {i : Instr} (hi : exec i s = frouteInstr c i f s) (h : Begins c i v (ownFirst hiveFirst s) s')
    (hup : s'.hasFailed .radio = false ∧ s'.hive.st ≠ .fault) (hv : v.tenant = 0) (hinst : f.inst = 0 ∨ f.inst = 1)
    (hd : f.rd = 0) (hready : s'.isReady .radio = true) (hok : blockOk 0 ((s'.regs c).rd f.rb).toNat 1 = true)
    (hclean : CleanAt s' ((s'.regs c).rd f.rb).toNat 1) : exec i s =
      let d := ((s'.regs c).rd f.ra).toNat % 128
      let w := wordSeen s' ((s'.regs c).rd f.rb).toNat
      if d = 0 ∨ d = 127 ∨ routeBlockOk w = false then
        .next (retireUsing c v (blockBanks ((s'.regs c).rd f.rb).toNat 1) (ownFirst hiveFirst s) 0x16 id (s'.base + 1) s')
      else .next (retireUsing c v (blockBanks ((s'.regs c).rd f.rb).toNat 1) (ownFirst hiveFirst s) 0x00 id (s'.base + 1)
        (routeWritten f d w s')) := by
  have hwait : radioWait s' = none := if_pos hready
  have hgives {st : BitVec 8} {u : State} (hbody : (if fieldOf ((s'.regs c).rd f.ra) 6 0 = 0 ∨
      fieldOf ((s'.regs c).rd f.ra) 6 0 = 0x7F ∨ routeBlockOk (wordAt (wordsAt s' ((s'.regs c).rd f.rb).toNat 1) 0) = false then
        Ans.status stRange s' 1
      else .ok (routeWritten f (fieldOf ((s'.regs c).rd f.ra) 6 0) (wordAt (wordsAt s' ((s'.regs c).rd f.rb).toNat 1) 0) s') 1) =
        { st := st, s := u, extra := 1 }) : exec i s =
      .next (retireUsing c v (blockBanks ((s'.regs c).rd f.rb).toNat 1) (ownFirst hiveFirst s) st id (s'.base + 1) u) := by
    rw [hi]
    refine hiveInstr_retires h hup (unitOk_two hinst (unusedZero_one hd)) (by rw [hv]; exact hok) (decide_eq_true hv) hwait
      (withBlock_gives hclean ?_)
    dsimp only
    rw [← hbody]
    simp only [routeEntry_eq]
    rfl
  rw [field0_mod, wordAt_first] at hgives
  dsimp only
  split
  · next hbad => exact hgives (if_pos hbad)
  · next hgood => exact hgives (if_neg hgood)

theorem routeWritten_cache (hf : f.inst = 1) {d : Nat} (hd : d ≠ 0x7F) (w : Word) (k : Fin 32) :
    vget (routeWritten f d w s).hive.cache k = { vget s.hive.cache k with
      valid := (vget s.hive.cache k).valid && decide ((vget s.hive.cache k).dest.toNat ≠ d) } := by
  unfold routeWritten
  dsimp only
  rw [if_pos hf]
  refine (vget_vmap ..).trans ?_
  change (if d = 0x7F ∨ (vget s.hive.cache k).dest.toNat = d then _ else _) = _
  by_cases h : (vget s.hive.cache k).dest.toNat = d
  · rw [if_pos (Or.inr h), decide_eq_false (not_not.mpr h), Bool.and_false]
    rfl
  · rw [if_neg (not_or.mpr ⟨hd, h⟩), decide_eq_true h, Bool.and_true]
    rfl

theorem routeWritten_routes (d e : Nat) (w : Word) : vgetD (routeWritten f d w s).hive.routes e Route.none =
    if d = e ∧ d < 128 then routeEntry w else vgetD s.hive.routes e Route.none := by
  rw [← vgetD_vsetD]
  unfold routeWritten
  dsimp only
  split <;> rfl

theorem routeWritten_mem (d : Nat) (w : Word) : (routeWritten f d w s).mem = s.mem := by
  unfold routeWritten
  dsimp only
  split <;> rfl

theorem routeWritten_keepsCache (hf : f.inst ≠ 1) (d : Nat) (w : Word) :
    (routeWritten f d w s).hive.cache = s.hive.cache := by
  unfold routeWritten
  dsimp only
  rw [if_neg hf]
  rfl

/-- FROUTE, with and without INVAL (R421). -/
theorem froute_spec {i : Instr} {inval : Bool} (hi : exec i s = frouteInstr c i f s) (hf : f.inst = if inval then 1 else 0)
    (h : Begins c i v (ownFirst hiveFirst s) s') (hup : s'.hasFailed .radio = false ∧ s'.hive.st ≠ .fault)
    (hv : v.tenant = 0) (hd : f.rd = 0) (hready : s'.isReady .radio = true)
    (hok : blockOk 0 ((s'.regs c).rd f.rb).toNat 1 = true) (hclean : CleanAt s' ((s'.regs c).rd f.rb).toNat 1) :
    let d := ((s'.regs c).rd f.ra).toNat % 128
    let b := ((s'.regs c).rd f.rb).toNat
    let w := wordSeen s' b
    let use (st : BitVec 8) (u : State) : Host.Outcome State Fault Refusal :=
      .next (retireUsing c v (blockBanks b 1) (ownFirst hiveFirst s) st id (s'.base + 1) u)
    (d = 0 ∨ d = 127 ∨ ¬ RouteGood w → exec i s = use 0x16 s') ∧
    (d ≠ 0 → d ≠ 127 → RouteGood w → ∃ u, exec i s = use 0x00 u ∧
      vgetD u.hive.routes d Route.none = routeEntry w ∧
      (∀ e, e ≠ d → vgetD u.hive.routes e Route.none = vgetD s'.hive.routes e Route.none) ∧
      (inval = false → u.hive.cache = s'.hive.cache) ∧
      (inval = true → ∀ k, vget u.hive.cache k = { vget s'.hive.cache k with
        valid := (vget s'.hive.cache k).valid && decide ((vget s'.hive.cache k).dest.toNat ≠ d) }) ∧ u.mem = s'.mem) := by
  have hexec := froute_retires hi h hup hv (by rw [hf]; cases inval <;> simp) hd hready hok hclean
  dsimp only at hexec ⊢
  refine ⟨fun hbad => hexec.trans (if_pos ?_), fun h0 h127 hgood =>
    ⟨_, hexec.trans (if_neg ?_), ?_, fun e he => ?_, fun hi => ?_, fun hi k => ?_, routeWritten_mem _ _⟩⟩
  · rw [← Bool.not_eq_true, routeBlockOk_iff]
    exact hbad
  · rw [← Bool.not_eq_true, routeBlockOk_iff]
    exact fun hbad => hbad.elim h0 fun hbad => hbad.elim h127 fun hbad => hbad hgood
  · rw [routeWritten_routes, if_pos ⟨rfl, Nat.mod_lt _ (by decide)⟩]
  · rw [routeWritten_routes, if_neg fun h => he h.1.symm]
  · exact routeWritten_keepsCache (by rw [hf, hi]; decide) _ _
  · exact routeWritten_cache (by rw [hf, hi]; rfl) h127 _ k

end

/-- Settles O32: by the instruction, by the hive's state, and by the block that the instruction names. -/
theorem hiveInstructions : Obligations.HiveInstructions := by
  unfold Obligations.HiveInstructions
  intro c v s s' f
  dsimp only
  refine ⟨?join, ?leave, ?recv, fun hf h hup hv hd hready hok hclean => froute_spec (inval := false) rfl hf h hup hv hd hready hok hclean,
    fun hf h hup hv hd hready hok hclean => froute_spec (inval := true) rfl hf h hup hv hd hready hok hclean⟩
  case join =>
    intro h hup hinst hd hb hcap hok hmay hclean hwait hleave
    have hgives {banks : List Nat} {st : BitVec 8} {u : State} {n : Nat} :=
      fjoin_gives (banks := banks) (st := st) (u := u) (n := n) hinst hd hb h hup hcap hok hmay hwait hleave
    refine ⟨fun hst => ?_, fun hst hbad => ?_, fun hst hgood hkey hteth => ?_⟩
    · exact (hgives (inStates_out (contains_one_not hst))).trans (congrArg Host.Outcome.next (retireUsing_nil ..))
    · exact hgives ((inStates_in (contains_one hst)).trans (withBlock_gives hclean (if_pos (Or.inl hbad))))
    · have hradio : RadioOnly _ := ⟨hgood, hkey, hteth⟩
      obtain ⟨u, e, hu, hst', hjoin, howner, haddr, hclaim, hfc, hnbrs, hfreq, htxq, htyp, hhl, hsrc, hmem⟩ :=
        joinHive_radio hradio v.tenant s'
      refine ⟨u, hgives ((inStates_in (contains_one hst)).trans (withBlock_gives hclean ((if_neg ?_).trans ?_))), hst',
        hjoin, howner, haddr, hclaim, hfc, hnbrs, hfreq, ⟨e, htxq, htyp, hhl, hsrc⟩, hmem⟩
      · rw [hradio.teth, hgood, bitOf, hkey]
        simp
      · rw [hu]
        rfl
  case leave =>
    intro h hup hinst hd ha hb hcap hready
    have hgives {st : BitVec 8} {u : State} (hbody : inStates s'.hive.st [.ready, .run, .held] s' (.ok (leaveHive s')) =
        { st := st, s := u }) : exec (.fleave c f) s = .next (retire c v.tenant st id (s'.base + 0) u) :=
      hiveInstr_gives h hup (unitOk_two (Or.inl hinst) (unusedZero_three hd ha hb)) (by rw [hinst]; rfl) hcap
        (if_pos hready) hbody
    refine ⟨fun hst => hgives (inStates_out (by rw [hst]; rfl)), fun hst => ?_⟩
    have hrights := leaveHive_rights s'
    simp only [hiveRights, Prod.mk.injEq] at hrights
    obtain ⟨hst', haddr, hmsgs, hfmap, hroutes, hleases⟩ := hrights
    refine ⟨_, hgives (inStates_in (inUse_of (not_or.mpr ⟨hst, hup.2⟩))), hst', haddr, hmsgs, hfmap, fun e => ?_, fun k => ?_⟩
    · rw [hroutes, vgetD, Vector.toList_replicate, List.getD_eq_getElem?_getD, List.getElem?_replicate]
      split <;> rfl
    · rw [hleases, vget]
      simp
  case recv =>
    intro h hup hinst hd hwait hport hq
    have hgives {st : BitVec 8} {u : State} := frecv_gives (st := st) (u := u) h hup hinst hd hwait hport hq
    refine ⟨fun hst => hgives (inStates_out (contains_two_not ?_)), fun hst => ?_⟩
    · rcases hst with hst | hst <;> rw [hst] <;> decide
    · have hin {a : Ans} : inStates s'.hive.st [.run, .held] s' a = a := inStates_in (contains_two hst)
      refine ⟨fun hno => hgives (hin.trans (frecvBody_taken hno)), fun hmine hb => ?_, fun hmine hb => ?_,
        fun hmine hb => hgives (hin.trans (frecvBody_high hmine hb))⟩
      · refine hgives (hin.trans ((frecvBody_mine hmine (by omega)).trans ((if_pos ?_).trans (if_neg ?_))))
        · rw [bitOf_eq, hb]; rfl
        · rw [field0_mod, hb]; decide
      · have hbit : bitOf ((s'.regs c).rd f.rb) 6 = false := by
          rw [bitOf_eq, Nat.div_eq_of_lt (by exact hb)]; rfl
        have hq' : (finOf 64 (fieldOf ((s'.regs c).rd f.rb) 5 0) : QueueId) =
            ⟨((s'.regs c).rd f.rb).toNat % 64, Nat.mod_lt _ (by decide)⟩ :=
          Fin.ext (by rw [field0_mod]; exact Nat.mod_mod _ _)
        have hbody := frecvBody_mine hmine (f := f) (Nat.lt_trans hb (by decide))
        rw [hbit, if_neg Bool.false_ne_true, hq'] at hbody
        split
        · next hprod => exact hgives (hin.trans (hbody.trans (if_neg (not_not.mpr hprod))))
        · next hprod => exact hgives (hin.trans (hbody.trans (if_pos hprod)))

end Sys2Proof.Machine
end

section
/-!
PROOFS. FSEND and waggle bursts (spec/15_hive_fabric.md section 15.7).
-/
namespace Sys2Proof.Machine

section
variable {c : CoreId} {i : Instr} {v : Inv} {s s' u : State} {f : UForm}

/-! ## The body of FSEND -/

theorem sportMay_of {t : Tid} {a : Nat}
    (h : s.may t (capFp ((wordAt (wordsAt s a 4) 0).toNat / 256 % 256)) = true) : sportMay s t a = true := by
  rw [wordAt_first] at h
  rw [sportMay, fieldOf]
  exact Bool.or_eq_true_iff.mpr (Or.inr h)

theorem fsend_gives {st : BitVec 8} {n : Nat} {banks : List Nat} (hi : i = .fsend c f ∨ i = .waggleBurst c f)
    (hinst : f.inst = 0) (hd : f.rd = 0) (hb : f.rb = 0) (h : Begins c i v (ownFirst hiveFirst s) s')
    (hup : s'.hasFailed .radio = false ∧ s'.hive.st ≠ .fault) (hwait : waitsFor .radio s' = none)
    (hcap : s'.may v.tenant capFabric = true) (hok : blockOk v.tenant ((s'.regs c).rd f.ra).toNat 4 = true)
    (hmay : blockMay s' v.tenant ((s'.regs c).rd f.ra).toNat 4 = true)
    (hport : s'.may v.tenant (capFp ((wordAt (wordsAt s' ((s'.regs c).rd f.ra).toNat 4) 0).toNat / 256 % 256)) = true)
    (ha : inStates s'.hive.st [.run] s' (withBlock ((s'.regs c).rd f.ra).toNat 4 s' (sendBody v.tenant)) =
      { st := st, s := u, extra := n, banks := banks }) :
    exec i s = .next (retireUsing c v banks (ownFirst hiveFirst s) st id (s'.base + n) u) := by
  have hexec : exec i s = fsendInstr c i f s := by rcases hi with rfl | rfl <;> rfl
  rw [hexec]
  refine hiveInstr_retires h hup (unitOk_two (Or.inl hinst) (unusedZero_two hd hb)) ?_ ?_ hwait ha
  · rw [hinst, hok]; rfl
  · rw [hcap, hmay, sportMay_of hport]; rfl

variable {t : Tid} {ws : Words}

theorem sendBody_bad (h : descOk s.hive ws = false) : sendBody t ws s = { st := 0x16, s := s, extra := 4 } := by
  unfold sendBody
  dsimp only
  rw [h]
  rfl

theorem sendBody_wag (h : descOk s.hive ws = true) (hw : (wordAt ws 0).toNat / 2 ^ 28 % 2 = 1) :
    sendBody t ws s = sendMessage t ws [] s := by
  unfold sendBody
  dsimp only
  rw [h, bitOf_eq, decide_eq_true hw]
  rfl

theorem sendBody_data (h : descOk s.hive ws = true) (hw : (wordAt ws 0).toNat / 2 ^ 28 % 2 = 0)
    (hok : blockOk t (wordAt ws 1).toNat ((wordAt ws 2).toNat % 32) = true)
    (hmay : blockMay s t (wordAt ws 1).toNat ((wordAt ws 2).toNat % 32) = true)
    (hclean : CleanAt s (wordAt ws 1).toNat ((wordAt ws 2).toNat % 32)) : sendBody t ws s =
      { sendMessage t ws (wordsAt s (wordAt ws 1).toNat ((wordAt ws 2).toNat % 32)) s with
        banks := blockBanks (wordAt ws 1).toNat ((wordAt ws 2).toNat % 32) } := by
  have hwag : bitOf (wordAt ws 0) 28 = false := by rw [bitOf_eq, decide_eq_false (by omega)]
  have hlen : fieldOf (wordAt ws 2) 4 0 = (wordAt ws 2).toNat % 32 := field0_mod ..
  unfold sendBody
  dsimp only
  rw [h, hwag, hlen, hok, hmay, readBlock_clean _ _ hclean]
  rfl

theorem length_wordsAt (s : State) (a n : Nat) : (wordsAt s a n).length = n := by simp [wordsAt]

/-! ## What becomes of a message -/

/-- The message that a descriptor puts in the buffer. -/
def msgOf (t : Tid) (ws : Words) (left : Nat) (wag : Option (Nat × Nat)) (h : HiveSt) : HMsg :=
  ⟨h.nextMsg, fieldOf (wordAt ws 0) 6 0, bitOf (wordAt ws 0) 7, BitVec.ofNat 16 (wordAt ws 3).toNat, t, left, none, wag⟩

/-- The buffer with the message in it. -/
def buffered (t : Tid) (ws : Words) (left : Nat) (wag : Option (Nat × Nat)) (s : State) : State :=
  s.modHive (fun h => { h with nextMsg := h.nextMsg + 1, msgs := h.msgs ++ [msgOf t ws left wag h] })

theorem newMsg_eq (left : Nat) (wag : Option (Nat × Nat)) (s : State) :
    newMsg t ws left wag s = (s.hive.nextMsg, buffered t ws left wag s) := rfl

/-- A message that goes nowhere leaves LINKWHY alone (R424). -/
def refused (why : BitVec 4) (s : State) : State := { s with hive := { s.hive with linkwhy := why } }

theorem sendMessage_routed {data : Words} (hw : (wordAt ws 0).toNat / 2 ^ 28 % 2 = 0) (hd : (wordAt ws 0).toNat % 128 ≠ 127) :
    sendMessage t ws data s = match peekRoute s ((wordAt ws 0).toNat % 128) with
      | none => { st := 0x1A, s := refused 1 s, extra := 4 + data.length }
      | some (next, tl, k) =>
        if s.hive.linkUp next tl = false then { st := 0x1A, s := refused 2 s, extra := 4 + data.length }
        else if 32 ≤ s.hive.msgs.length then
          linkRefused (BitVec.ofNat 4 (Config.freeWord s.free).toNat) (4 + data.length) s.nextFree
        else if fcGone s.hive.sec s then linkRefused 7 (4 + data.length) s
        else
          let u := commitRoute ((wordAt ws 0).toNat % 128) next tl k s
          { st := 0x01, s := sendVia (dataFrame ws data (buffered t ws 1 none u)) next tl (.msg u.hive.nextMsg)
              (buffered t ws 1 none u), extra := 4 + data.length } := by
  have hwag : bitOf (wordAt ws 0) 28 = false := by rw [bitOf_eq, decide_eq_false (by omega)]
  have hdest : fieldOf (wordAt ws 0) 6 0 = (wordAt ws 0).toNat % 128 := field0_mod ..
  unfold sendMessage
  dsimp only
  rw [hwag, if_neg Bool.false_ne_true, hdest, if_neg hd]
  cases peekRoute s ((wordAt ws 0).toNat % 128) with
  | none => rfl
  | some p =>
    dsimp only
    simp only [decide_eq_true_eq]
    rfl

/-- A message whose link is up, with room and a frame counter left. -/
theorem sendMessage_sends {data : Words} {next : Nat} {tl : Bool} {k : Option Nat}
    (hw : (wordAt ws 0).toNat / 2 ^ 28 % 2 = 0) (hd : (wordAt ws 0).toNat % 128 ≠ 127)
    (hroute : peekRoute s ((wordAt ws 0).toNat % 128) = some (next, tl, k)) (hup : s.hive.linkUp next tl = true)
    (hroom : s.hive.msgs.length < 32) (hfc : s.hive.sec = false ∨ s.hive.fc < 2 ^ 32) :
    let u := buffered t ws 1 none (commitRoute ((wordAt ws 0).toNat % 128) next tl k s)
    sendMessage t ws data s = { st := 0x01, s := sendVia (dataFrame ws data u) next tl (.msg s.hive.nextMsg) u
                                extra := 4 + data.length } := by
  have hgone : fcGone s.hive.sec s = false := by
    rw [fcGone]
    rcases hfc with h | h
    · rw [h, Bool.false_and]
    · rw [decide_eq_false (Nat.not_le.mpr h), Bool.and_false]
  refine (sendMessage_routed hw hd).trans ?_
  rw [hroute]
  dsimp only
  rw [hup, hgone, if_neg (Nat.not_le.mpr hroom)]
  rfl

/-! ## Frames of a message -/

/-- With the frame counter not exhausted a frame is made. -/
theorem makeFrame_made {fr : HFrame} {dst : Nat} {ack : Bool} {seq : Byte} (hsrc : fr.src = .short)
    (hfc : s.hive.sec = false ∨ s.hive.fc < 2 ^ 32) : ∃ psdu, (makeFrame fr dst ack seq s).1 = some psdu := by
  unfold makeFrame
  dsimp only
  rw [hsrc]
  dsimp only
  rcases hfc with h | h
  · rw [HiveSt.level, h]
    exact ⟨_, rfl⟩
  · split
    · exact ⟨_, rfl⟩
    · have htake : (takeFc s).1 = some s.hive.fc := by
        unfold takeFc
        dsimp only
        rw [if_neg (Nat.not_le.mpr h)]
      split
      · next heq => rw [heq] at htake; cases htake
      · exact ⟨_, rfl⟩

theorem enqueueTether_made {pos : Nat} {fr : HFrame} {dst : Nat} {for_ : TxFor} (hsrc : fr.src = .short)
    (hfc : s.hive.sec = false ∨ s.hive.fc < 2 ^ 32) : TetherQueued s (enqueueTether pos fr dst for_ s) := by
  have hseq : TetherQueued s (s.modHive (fun h => { h with seq := h.seq + 1 })) := ⟨_, _, _, _, rfl⟩
  have hframe := hseq.trans (makeFrame_queued fr dst false s.hive.seq _)
  obtain ⟨psdu, hmade⟩ := makeFrame_made (s := s.modHive (fun h => { h with seq := h.seq + 1 })) (dst := dst) (ack := false)
    (seq := s.hive.seq) hsrc hfc
  unfold enqueueTether
  dsimp only
  split
  · next hm => rw [hm] at hmade; cases hmade
  · next hm =>
    rw [hm] at hframe
    exact hframe.trans ⟨_, _, _, _, rfl⟩

/-! ## Broadcasts and bursts -/

theorem forEach_none {α : Type} (g : α → State → State) {l : List α} (h : l = []) (s : State) : forEach l g s = s := by
  rw [h]; rfl

/-- A broadcast with no tether neighbour up goes out on the radio once. -/
theorem sendMessage_broadcast {data : Words} (hw : (wordAt ws 0).toNat / 2 ^ 28 % 2 = 0)
    (hd : (wordAt ws 0).toNat % 128 = 127) (hradio : s.hive.radio = true) (hdown : ∀ q ∈ s.hive.peers, q.up = false)
    (hroom : s.hive.msgs.length < 32) (hfc : s.hive.sec = false ∨ s.hive.fc < 2 ^ 32) :
    let w := buffered t ws 1 none s
    let fr := dataFrame ws data w
    let u := enqueueRadio fr 0x7F false (.msg s.hive.nextMsg)
      (noteKey (keyOf fr (fr.src != .short) (uidOf w) w.time.hive) w)
    sendMessage t ws data s = { st := 0x01, s := u, extra := 4 + data.length } := by
  have hwag : bitOf (wordAt ws 0) 28 = false := by rw [bitOf_eq, decide_eq_false (by omega)]
  have hdest : fieldOf (wordAt ws 0) 6 0 = 127 := (field0_mod ..).trans hd
  have hgone : fcGone s.hive.sec s = false := by
    rw [fcGone]
    rcases hfc with h | h
    · rw [h, Bool.false_and]
    · rw [decide_eq_false (Nat.not_le.mpr h), Bool.and_false]
  have hnone : s.hive.peers.filter (·.up) = [] :=
    List.filter_eq_nil_iff.mpr fun q hq => by rw [hdown q hq]; exact Bool.false_ne_true
  have hradio' : (buffered t ws 1 none s).hive.radio = true := hradio
  dsimp only
  unfold sendMessage
  dsimp only
  rw [hwag, if_neg Bool.false_ne_true, hdest, if_pos rfl, decide_eq_false (Nat.not_le.mpr hroom), if_neg Bool.false_ne_true,
    hgone, if_neg Bool.false_ne_true, hnone, hradio, newMsg_eq]
  dsimp only
  rw [if_neg (by decide)]
  unfold floodSend
  dsimp only
  rw [if_pos (by exact hradio'), forEach_none _ (by exact hnone)]
  rfl

/-- The burst that a WAG message starts. -/
theorem sendMessage_wag {data : Words} (hw : (wordAt ws 0).toNat / 2 ^ 28 % 2 = 1) (hroom : s.hive.msgs.length < 32)
    (hfc : s.hive.fc < 2 ^ 32) (hburst : s.hive.burst = none) (hnone : ∀ m ∈ s.hive.msgs, m.wag = none) :
    ∃ u b, sendMessage t ws data s = { st := 0x01, s := u, extra := 4 + data.length } ∧ u.mem = s.mem ∧
      u.hive.burst = some b ∧ b.wch = (wordAt ws 2).toNat / 256 % 256 ∧
      b.left = 4 * ((wordAt ws 2).toNat / 2 ^ 16 % 256) ∧ b.next = s.time.phys := by
  have hwag : bitOf (wordAt ws 0) 28 = true := by rw [bitOf_eq, decide_eq_true hw]
  have hgone : fcGone (!keyEmpty s) s = false := by
    rw [fcGone, decide_eq_false (Nat.not_le.mpr hfc), Bool.and_false]
  have hfind (m : HMsg) (hm : m.wag.isSome = true) : (s.hive.msgs ++ [m]).find? (fun m => m.wag.isSome) = some m := by
    rw [List.find?_append, List.find?_eq_none.mpr (fun x hx => by rw [hnone x hx]; exact Bool.false_ne_true)]
    simp [hm]
  have hstart (n : Nat × Nat) : startBurst (buffered t ws 0 (some n) s) =
      (buffered t ws 0 (some n) s).modHive (fun h => { h with
        burst := some ⟨s.hive.nextMsg, n.1, n.2, s.time.phys⟩ }) := by
    have hfree : (buffered t ws 0 (some n) s).hive.burst = none := hburst
    have hmsg : (buffered t ws 0 (some n) s).hive.msgs.find? (fun m => m.wag.isSome) = some (msgOf t ws 0 (some n) s.hive) :=
      hfind _ rfl
    rw [startBurst, hfree, hmsg]
    rfl
  unfold sendMessage
  dsimp only
  rw [hwag, if_pos rfl, decide_eq_false (Nat.not_le.mpr hroom), if_neg Bool.false_ne_true, hgone,
    if_neg Bool.false_ne_true, newMsg_eq, hstart]
  exact ⟨_, _, rfl, rfl, rfl, rfl, rfl, rfl⟩

end

/-- Settles O33: by the hive's state, by the descriptor, and by the link of its route. -/
theorem hiveMessages : Obligations.HiveMessages := by
  unfold Obligations.HiveMessages
  intro c v s s' f i hi hinst hd hb h
  dsimp only
  intro hradioUp hfault hwait hcap hok hmay hclean hport
  generalize ha : ((s'.regs c).rd f.ra).toNat = a at hok hmay hclean hport ⊢
  have hgives {st : BitVec 8} {u : State} {n : Nat} {banks : List Nat}
      (hbody : inStates s'.hive.st [.run] s' (withBlock a 4 s' (sendBody v.tenant)) =
        { st := st, s := u, extra := n, banks := banks }) :
      exec i s = .next (retireUsing c v banks (ownFirst hiveFirst s) st id (s'.base + n) u) := by
    subst ha
    exact fsend_gives hi hinst hd hb h ⟨hradioUp, hfault⟩ hwait hcap hok hmay hport hbody
  clear hok hmay hport
  generalize hws : wordsAt s' a 4 = ws at *
  have hblock {st : BitVec 8} {u : State} {n : Nat} (hst : s'.hive.st = .run)
      (hbody : sendBody v.tenant ws s' = { st := st, s := u, extra := n }) :
      exec i s = .next (retireUsing c v (blockBanks a 4) (ownFirst hiveFirst s) st id (s'.base + n) u) :=
    hgives ((inStates_in (contains_one hst)).trans (withBlock_gives hclean (by rw [hws]; exact hbody)))
  have hdata {st : BitVec 8} {u : State} (hst : s'.hive.st = .run) (hdesc : descOk s'.hive ws = true)
      (hw : (wordAt ws 0).toNat / 2 ^ 28 % 2 = 0)
      (hok : blockOk v.tenant (wordAt ws 1).toNat ((wordAt ws 2).toNat % 32) = true)
      (hmay : blockMay s' v.tenant (wordAt ws 1).toNat ((wordAt ws 2).toNat % 32) = true)
      (hc : CleanAt s' (wordAt ws 1).toNat ((wordAt ws 2).toNat % 32))
      (hsend : sendMessage v.tenant ws (wordsAt s' (wordAt ws 1).toNat ((wordAt ws 2).toNat % 32)) s' =
        { st := st, s := u
          extra := 4 + (wordsAt s' (wordAt ws 1).toNat ((wordAt ws 2).toNat % 32)).length }) :
      exec i s = .next (retireUsing c v (blockBanks a 4 ++ blockBanks (wordAt ws 1).toNat ((wordAt ws 2).toNat % 32))
        (ownFirst hiveFirst s) st id (s'.base + (4 + (wordAt ws 2).toNat % 32)) u) := by
    rw [length_wordsAt] at hsend
    refine hgives ((inStates_in (contains_one hst)).trans (withBlock_retires hclean ?_))
    rw [hws, sendBody_data hdesc hw hok hmay hc, hsend]
  refine ⟨fun hst => ?notRun, fun hst hbad => hblock hst (sendBody_bad hbad), ?unicast, ?others, ?wag⟩
  case notRun =>
    exact (hgives (inStates_out (contains_one_not hst))).trans (congrArg Host.Outcome.next (retireUsing_nil ..))
  case unicast =>
    intro hst hdesc hw hok hmay hc hdest
    refine ⟨fun hroute => hdata hst hdesc hw hok hmay hc ?_, fun next tl k hroute hdown => hdata hst hdesc hw hok hmay hc ?_,
      fun next k hroute hup hroom hfc => ?_⟩
    · rw [sendMessage_routed hw hdest, hroute]
      rfl
    · rw [sendMessage_routed hw hdest, hroute]
      exact if_pos hdown
    · refine ⟨_, hdata hst hdesc hw hok hmay hc (sendMessage_sends hw hdest hroute hup hroom hfc), rfl, _, rfl,
        field0_mod (wordAt ws 0) 6, bitOf_eq .., BitVec.toNat_ofNat .., rfl, _, rfl, rfl, rfl, rfl, rfl, rfl,
        field0_mod (wordAt ws 0) 6, ?_, rfl⟩
      exact if_neg (by rw [field0_mod]; exact hdest)
  case others =>
    intro hst hdesc hw hok hmay hc hroom hfc
    refine ⟨fun next k q hdest hroute hpeer hqup => ?_, fun hdest hradio hdown => ?_⟩
    · have hup : s'.hive.linkUp next true = true := by
        rw [HiveSt.linkUp, if_pos rfl, hpeer]
        exact hqup
      have hsend := hdata hst hdesc hw hok hmay hc (sendMessage_sends hw hdest hroute hup hroom hfc)
      generalize hu : buffered v.tenant ws 1 none (commitRoute ((wordAt ws 0).toNat % 128) next true k s') = w at hsend
      have hwpeer : w.hive.peerAt next = some q := by rw [← hu]; exact hpeer
      have hwfc : w.hive.sec = false ∨ w.hive.fc < 2 ^ 32 := by rw [← hu]; exact hfc
      rw [sendVia, if_pos rfl, hwpeer] at hsend
      dsimp only at hsend
      obtain ⟨lt, fc, sq, ps, hq⟩ := enqueueTether_made (pos := q.pos) (dst := next) (for_ := .msg s'.hive.nextMsg)
        (fr := dataFrame ws (wordsAt s' (wordAt ws 1).toNat ((wordAt ws 2).toNat % 32)) w) rfl hwfc
      rw [hq, ← hu] at hsend
      exact ⟨_, msgOf v.tenant ws 1 none s'.hive, hsend, rfl, rfl, field0_mod (wordAt ws 0) 6, rfl⟩
    · refine ⟨_, msgOf v.tenant ws 1 none s'.hive, _,
        hdata hst hdesc hw hok hmay hc (sendMessage_broadcast hw hdest hradio hdown hroom hfc), rfl, rfl, rfl, rfl, rfl, ?_⟩
      exact if_pos (by rw [field0_mod]; exact hdest)
  case wag =>
    intro hst hdesc hw hroom hfc hburst hnone
    obtain ⟨u, b, hsend, hmem, hb', hwch, hleft, hnext⟩ :=
      sendMessage_wag (t := v.tenant) (data := []) hw hroom hfc hburst hnone
    exact ⟨u, hblock hst ((sendBody_wag hdesc hw).trans hsend), hmem, b, hb', hwch, hleft, hnext⟩

end Sys2Proof.Machine
end

section
/-!
PROOFS. What a free core takes next (spec/01_programmers_model.md section 1.6, R39 to R42) and the request of a host
packet on the keeper (spec/13_serial_ports.md section 13.6, R372 to R374).
-/
namespace Sys2Proof.Machine

/-! ## The candidate that goes first -/

/-- No candidate goes before another by its priority and event time. -/
def Cand.noLater (a b : Cand) : Prop := b.prio ≤ a.prio ∧ (a.prio = b.prio → a.time ≤ b.time)

theorem Cand.noLater_refl (a : Cand) : a.noLater a := ⟨Nat.le_refl _, fun _ => Nat.le_refl _⟩

theorem Cand.noLater_trans {a b d : Cand} (h : a.noLater b) (h' : b.noLater d) : a.noLater d := by
  unfold Cand.noLater at *
  omega

theorem Cand.noLater_of_before {a b : Cand} (h : a.before b = true) : a.noLater b := by
  unfold Cand.before at h
  unfold Cand.noLater
  split at h
  · have := of_decide_eq_true h; omega
  · split at h
    · have := of_decide_eq_true h; omega
    · omega

theorem Cand.noLater_of_not_before {a b : Cand} (h : a.before b = false) : b.noLater a := by
  unfold Cand.before at h
  unfold Cand.noLater
  split at h
  · have := of_decide_eq_false h; omega
  · split at h
    · have := of_decide_eq_false h; omega
    · omega

theorem bestCand_none {l : List (Option Cand)} (h : bestCand l = none) (a : Cand) : some a ∉ l := by
  induction l with
  | nil => exact List.not_mem_nil
  | cons x r ih =>
    cases x with
    | none => simpa using ih h
    | some x =>
      rw [bestCand] at h
      split at h
      · cases h
      · split at h <;> cases h

/-- The first candidate is one of the list, and none of the list goes before it. -/
theorem bestCand_some {l : List (Option Cand)} {d : Cand} (h : bestCand l = some d) :
    some d ∈ l ∧ ∀ a, some a ∈ l → d.noLater a := by
  induction l generalizing d with
  | nil => cases h
  | cons x r ih =>
    cases x with
    | none =>
      obtain ⟨hd, hall⟩ := ih h
      exact ⟨List.mem_cons_of_mem _ hd, fun a ha => hall a (by simpa using ha)⟩
    | some x =>
      rw [bestCand] at h
      split at h
      case h_1 hr =>
        cases h
        refine ⟨List.mem_cons_self, fun a ha => ?_⟩
        rcases List.mem_cons.mp ha with e | ha
        · cases e; exact d.noLater_refl
        · exact absurd ha (bestCand_none hr a)
      case h_2 b hr =>
        obtain ⟨hb, hall⟩ := ih hr
        split at h
        case isTrue hbefore =>
          cases h
          refine ⟨List.mem_cons_of_mem _ hb, fun a ha => ?_⟩
          rcases List.mem_cons.mp ha with e | ha
          · cases e; exact Cand.noLater_of_before hbefore
          · exact hall a ha
        case isFalse hbefore =>
          cases h
          have hfirst := Cand.noLater_of_not_before (Bool.eq_false_iff.mpr hbefore)
          refine ⟨List.mem_cons_self, fun a ha => ?_⟩
          rcases List.mem_cons.mp ha with e | ha
          · cases e; exact d.noLater_refl
          · exact Cand.noLater_trans hfirst (hall a ha)

theorem bestCand_isSome {l : List (Option Cand)} {a : Cand} (h : some a ∈ l) : ∃ d, bestCand l = some d := by
  cases hb : bestCand l with
  | none => exact absurd h (bestCand_none hb a)
  | some d => exact ⟨d, rfl⟩

theorem mem_mapIdxFrom {α β : Type} {f : Nat → α → β} {l : List α} {i : Nat} {x : β} :
    x ∈ mapIdxFrom f i l ↔ ∃ k a, l[k]? = some a ∧ f (i + k) a = x := by
  induction l generalizing i with
  | nil => simp [mapIdxFrom]
  | cons y r ih =>
    rw [mapIdxFrom, List.mem_cons, ih]
    constructor
    · rintro (rfl | ⟨k, a, hk, hf⟩)
      · exact ⟨0, y, rfl, rfl⟩
      · exact ⟨k + 1, a, by simpa using hk, by rwa [Nat.add_assoc, Nat.add_comm 1] at hf⟩
    · rintro ⟨k, a, hk, hf⟩
      cases k with
      | zero =>
        cases hk
        exact Or.inl hf.symm
      | succ k => exact Or.inr ⟨k, a, by simpa using hk, by rwa [Nat.add_assoc, Nat.add_comm 1]⟩

theorem getElem?_toList_iff {α : Type} {n : Nat} {v : Vector α n} {k : Nat} {a : α} :
    v.toList[k]? = some a ↔ ∃ h : k < n, vget v ⟨k, h⟩ = a := by
  simp only [List.getElem?_eq_some_iff, Vector.length_toList]
  rfl

variable {s : State} {c : CoreId} {d : Cand}

theorem selectFor_pending {k : Fin 256} {b : Binding} {e : Ev} {rest : List Ev} (hk : vget s.bindings k = some b)
    (he : b.pend = e :: rest) (hc : coreMay c b.coreSel = true) (hq : (s.tenant b.tenant).qout = false) :
    ∃ d, selectFor s c = some d ∧ d.noLater ⟨b.prio.toNat, e.time, true, k, 0, k⟩ := by
  have hmem : some (⟨b.prio.toNat, e.time, true, k, 0, k⟩ : Cand) ∈
      mapIdxFrom (savedCand s c) 0 s.ctx.toList ++ mapIdxFrom (pendCand s c) 0 s.bindings.toList := by
    refine List.mem_append_right _ (mem_mapIdxFrom.mpr ⟨k.val, some b, getElem?_toList_iff.mpr ⟨k.isLt, hk⟩, ?_⟩)
    rw [Nat.zero_add, pendCand, he]
    exact if_pos ⟨hc, hq⟩
  obtain ⟨d, hd⟩ := bestCand_isSome hmem
  exact ⟨d, hd, (bestCand_some hd).2 _ hmem⟩

/-- What is selected is a pending event of a binding or a saved invocation. -/
theorem selectFor_cases (h : selectFor s c = some d) :
    (∃ (k : Fin 16) (sv : Saved), vget s.ctx k = some sv ∧ d.ix = k.val ∧ d.pendingEv = false ∧
      d.prio = sv.inv.prio.toNat ∧ d.time = sv.inv.evTime) ∨
    (∃ (k : Fin 256) (b : Binding) (e : Ev) (rest : List Ev), vget s.bindings k = some b ∧ b.pend = e :: rest ∧
      d.ix = k.val ∧ d.pendingEv = true ∧ d.prio = b.prio.toNat ∧ d.time = e.time) := by
  rcases List.mem_append.mp (bestCand_some h).1 with hm | hm <;> obtain ⟨k, x, hx, hf⟩ := mem_mapIdxFrom.mp hm <;>
    obtain ⟨hk, hv⟩ := getElem?_toList_iff.mp hx <;> rw [Nat.zero_add] at hf
  · left
    cases x with
    | none => cases hf
    | some sv =>
      rw [savedCand] at hf
      split at hf
      · cases hf
        exact ⟨⟨k, hk⟩, sv, hv, rfl, rfl, rfl, rfl⟩
      · cases hf
  · right
    cases x with
    | none => cases hf
    | some b =>
      rw [pendCand] at hf
      split at hf
      next e rest he =>
        split at hf
        · cases hf
          exact ⟨⟨k, hk⟩, b, e, rest, hv, he, rfl, rfl, rfl, rfl⟩
        · cases hf
      next => cases hf

/-! ## What dispatch starts -/

/-- A core that dispatch may use: ready, free, and held by neither sleep entry nor the orderly stop. -/
def FreeCore (s : State) (c : CoreId) : Prop :=
  s.running = true ∧ s.isReady (coreFunc c) = true ∧ (s.core c).inv = none ∧ (s.core c).paused = false ∧
    s.therm.stop = none ∧ s.sleep.entry = none

theorem canDispatch_of (h : FreeCore s c) : canDispatch s c = true := by
  obtain ⟨hrun, hready, hinv, hpaused, hstop, hentry⟩ := h
  simp [canDispatch, hrun, hready, hinv, hpaused, hstop, hentry]

theorem exec_dispatch (h : FreeCore s c) (hno : s.host.req = none ∨ c ≠ 0) :
    exec (.dispatch c) s = .next (dispatchHandler c s) := by
  change execDispatch c s = _
  refine congrArg Host.Outcome.next ((if_pos (canDispatch_of h)).trans ?_)
  split
  next q hq =>
    rcases hno with hno | hno
    · rw [hno] at hq; cases hq
    · exact if_neg hno
  next => rfl

theorem dispatchHandler_pending {k : Nat} (h : selectFor s c = some d) (hp : d.pendingEv = true) (hk : d.ix = k) :
    dispatchHandler c s = startBinding c k s := by
  rw [dispatchHandler, h, ← hk]; exact if_pos hp

theorem dispatchHandler_saved {k : Nat} (h : selectFor s c = some d) (hp : d.pendingEv = false) (hk : d.ix = k) :
    dispatchHandler c s = resumeSaved c k s := by
  rw [dispatchHandler, h, ← hk]; exact if_neg (by rw [hp]; exact Bool.false_ne_true)

/-- The core after a new invocation has begun on it (R40). -/
def startedCore (c : CoreId) (k : Fin 256) (b : Binding) (e : Ev) (s : State) : Core :=
  { s.core c with
    regs := startRegs c b e
    inv := some ⟨b.tenant, some (finOf 256 k), b.serial, b.prio, b.coreSel, b.budget, 0, e.time, false, false, false⟩
    stall := none, resuming := false, paid := 0, goAt := startClk c e.clk s }

theorem startBinding_eq {k : Fin 256} {b : Binding} {e : Ev} {rest : List Ev} (hk : vget s.bindings k = some b)
    (he : b.pend = e :: rest) :
    startBinding c k s =
      ({ s with bindings := vset s.bindings k (some { b with pend := rest }) } : State).setCore c (startedCore c k b e s) := by
  have hset : vsetD s.bindings k.val (some { b with pend := rest }) = vset s.bindings k (some { b with pend := rest }) := by
    rw [vsetD, dif_pos k.isLt]; rfl
  simp only [startBinding, vgetD_val, hk, he, hset]
  rfl

/-- The core after a saved invocation has been resumed on it (R42). -/
def resumedCore (c : CoreId) (sv : Saved) (s : State) : Core :=
  { s.core c with
    regs := { sv.regs with fl := { sv.regs.fl with core := BitVec.ofNat 3 c.val } }
    inv := some sv.inv, stall := none, resuming := false, paid := 0, goAt := startClk c sv.since s }

theorem resumeSaved_eq {k : Fin 16} {sv : Saved} (hk : vget s.ctx k = some sv) :
    resumeSaved c k s = ({ s with ctx := vset s.ctx k none } : State).setCore c (resumedCore c sv s) := by
  have hset : vsetD s.ctx k.val none = vset s.ctx k none := by
    rw [vsetD, dif_pos k.isLt]; rfl
  simp only [resumeSaved, vgetD_val, hk, hset]
  rfl

theorem coreMay_iff {sel : BitVec 3} : coreMay c sel = true ↔
    (sel = 0 ∧ c ≠ 0 ∨ sel = 5 ∧ c = 0 ∨ (sel ≠ 0 ∧ sel ≠ 5 ∧ sel.toNat = c.val)) := by
  revert c sel
  decide

theorem dispatch_first {k : Fin 256} {b : Binding} {e : Ev} {rest : List Ev} (hfree : FreeCore s c)
    (hno : s.host.req = none ∨ c ≠ 0) (hk : vget s.bindings k = some b) (he : b.pend = e :: rest)
    (hc : coreMay c b.coreSel = true) (hq : (s.tenant b.tenant).qout = false) :
    ∃ u v, exec (.dispatch c) s = .next u ∧ (u.core c).inv = some v ∧ b.prio.toNat ≤ v.prio.toNat ∧
      (v.prio = b.prio → v.evTime ≤ e.time) ∧ (∀ d, d ≠ c → u.core d = s.core d) ∧ u.mem = s.mem := by
  obtain ⟨d, hd, hprio, htime⟩ := selectFor_pending hk he hc hq
  rw [exec_dispatch hfree hno]
  rcases selectFor_cases hd with ⟨j, sv, hj, hix, hp, hdp, hdt⟩ | ⟨j, b', e', rest', hj, he', hix, hp, hdp, hdt⟩
  · rw [dispatchHandler_saved hd hp hix, resumeSaved_eq hj]
    rw [hdp] at hprio htime
    rw [hdt] at htime
    exact ⟨_, sv.inv, rfl, by rw [core_setCore_same]; rfl, hprio, fun h => htime (congrArg BitVec.toNat h),
      fun x hx => core_setCore_other _ _ hx.symm, rfl⟩
  · rw [dispatchHandler_pending hd hp hix, startBinding_eq hj he']
    rw [hdp] at hprio htime
    rw [hdt] at htime
    exact ⟨_, _, rfl, by rw [core_setCore_same]; rfl, hprio, fun h => htime (congrArg BitVec.toNat h),
      fun x hx => core_setCore_other _ _ hx.symm, rfl⟩

/-- The registers that a new invocation finds (R40). -/
theorem startRegs_words (b : Binding) (e : Ev) :
    vget (startRegs c b e).w 0 = BitVec.ofNat 32 (b.src.toNat + (if e.raised then 256 else 0)) ∧
    vget (startRegs c b e).w 1 = e.arg ∧ vget (startRegs c b e).w 2 = BitVec.ofNat 32 e.time ∧
    vget (startRegs c b e).w 3 = BitVec.ofNat 32 (e.time / 2 ^ 32) ∧
    (∀ i : Fin 16, 4 ≤ i.val → vget (startRegs c b e).w i = 0) := by
  refine ⟨?_, rfl, rfl, rfl, fun i hi => ?_⟩
  · cases hr : e.raised <;> simp only [startRegs, hr] <;> rfl
  · have hne (j : Nat) (hj : j < 4) : j ≠ i.val := by omega
    have hzero : vget (Vector.replicate 16 (0 : Word)) i = 0 := Vector.getElem_replicate ..
    refine Eq.trans ?_ hzero
    simp only [vget, startRegs, Regs.zero]
    rw [Vector.getElem_set_ne _ _ (hne 3 (by decide)), Vector.getElem_set_ne _ _ (hne 2 (by decide)),
      Vector.getElem_set_ne _ _ (hne 1 (by decide)), Vector.getElem_set_ne _ _ (hne 0 (by decide))]

/-! ## The request of a host packet -/

/-- The reply to an EXECUTE request is in place: its first word, the bits of the status byte, and the keeper free. -/
def Answered (tag : BitVec 5) (n : Nat) (u : State) : Prop :=
  u.host.reply.head? = some (BitVec.ofNat 32 (n + (tag.toNat * 2 ^ 16 + 0x30 * 2 ^ 24))) ∧
    u.host.rdy = true ∧ u.host.busy = false ∧ u.host.alert = true ∧ (u.core 0).inv = none

section
variable {q : HostReq} {u : State}

theorem hostEnd_answered {n : Nat} (hq : u.host.running = some q) (hop : q.opc = 0x30)
    (hn : (if q.fcode = 0 then (u.regs 0).fl.stat.toNat else 0) + put (q.fcode % 16) 8 = n) :
    Answered q.tag n (hostEnd u) ∧ (hostEnd u).host.running = none := by
  have hreply : (replyWords q (u.regs 0) u).head? =
      some (BitVec.ofNat 32 (n + (q.tag.toNat * 2 ^ 16 + 0x30 * 2 ^ 24))) := by
    rw [← hn, ← Nat.add_assoc]
    simp only [replyWords, hop, List.head?_cons]
    rfl
  have hend : ∃ ho, hostEnd u = endInv 0 { u with host := ho } ∧ ho.reply = replyWords q (u.regs 0) u ∧
      ho.rdy = true ∧ ho.busy = false ∧ ho.alert = true ∧ ho.running = none := by
    rw [hostEnd, hq]
    exact ⟨_, rfl, rfl, rfl, rfl, rfl, rfl⟩
  obtain ⟨ho, he, hr, hrdy, hbusy, halert, hnone⟩ := hend
  rw [he]
  exact ⟨⟨(congrArg List.head? hr).trans hreply, hrdy, hbusy, halert, by rw [endInv_core]⟩, hnone⟩

/-- A request whose one instruction ends it: what the end of that instruction answers. -/
theorem hostRun_ends {n : Nat} (hq : s.host.running = some q) (hheld : hostHeld s = false) (hop : q.opc = 0x30)
    (h : Answered q.tag n (hostAfter (hostIssue q s)) ∧ (hostAfter (hostIssue q s)).host.running = none) :
    Answered q.tag n (hostRun 256 s) := by
  have hswap : hostSwap q (hostIssue q s) = hostIssue q s := if_neg (by rw [hop]; decide)
  have hrun : hostRun 256 s = hostAfter (hostIssue q s) := by
    rw [hostRun, hq]
    dsimp only
    rw [hheld, if_neg Bool.false_ne_true, hswap, hostRun, h.2]
  rw [hrun]
  exact h.1

/-- An instruction that faults ends its request with the fault's code. -/
theorem hostAfter_fault {code : Nat} (hq : u.host.running = some { q with fcode := code }) (hop : q.opc = 0x30)
    (hinv : (u.core 0).inv = none) (hcode : code ≠ 0) :
    Answered q.tag (put (code % 16) 8) (hostAfter u) ∧ (hostAfter u).host.running = none := by
  have hafter : hostAfter u = hostEnd u := by
    rw [hostAfter, hq]
    exact if_pos (by rw [hinv]; rfl)
  rw [hafter]
  exact hostEnd_answered (q := { q with fcode := code }) hq hop (by rw [if_neg hcode, Nat.zero_add])

/-- An EXECUTE request whose instruction retires ends with its status. -/
theorem hostAfter_retired (hq : u.host.running = some q) (hop : q.opc = 0x30) (hleft : q.left = 1) (hf : q.fcode = 0)
    (hinv : (u.core 0).inv ≠ none) (hheld : hostHeld u = false) :
    Answered q.tag (u.regs 0).fl.stat.toNat (hostAfter u) ∧ (hostAfter u).host.running = none := by
  have hnote : hostNote q u = { q with left := 0 } := by
    have hkind : ¬((q.opc = 0x40 ∨ q.opc = 0x50) ∧ ((u.regs 0).fl.stat = stOk ∨ (u.regs 0).fl.stat = stEcc)) := by
      rw [hop]; exact fun h => by rcases h.1 with h | h <;> exact absurd h (by decide)
    refine (if_neg hkind).trans ?_
    rw [hleft, Nat.sub_self, ite_self]
  have hafter : hostAfter u = hostEnd { u with host := { u.host with running := some { q with left := 0 } } } := by
    rw [hostAfter, hq]
    dsimp only
    rw [if_neg (by simpa using hinv), hheld, if_neg Bool.false_ne_true, hnote]
    exact if_pos rfl
  rw [hafter]
  refine hostEnd_answered (q := { q with left := 0 }) rfl hop ?_
  rw [if_pos hf, hf]
  exact Nat.add_zero _

variable {w : Word}

/-- The state in which the request's instruction begins (R372). -/
theorem startHost_running : (startHost q s).host.running = some { q with before := vget (hostRegs q).w q.rd } := rfl

theorem startHost_core : (startHost q s).core 0 =
    { s.core 0 with
      regs := hostRegs q, inv := some (hostInv s), stall := none, resuming := false, paid := 0, goAt := s.time.clk } :=
  core_setCore_same ..

theorem startHost_inv : ((startHost q s).core 0).inv = some (hostInv s) := by rw [startHost_core]

theorem startHost_free (h : FreeCore s 0) : hostHeld (startHost q s) = false := by
  obtain ⟨-, -, -, hpaused, -, -⟩ := h
  rw [hostHeld, startHost_core]
  exact hpaused

theorem exec_dispatch_host (hfree : FreeCore s 0) (hq : s.host.req = some q) :
    exec (.dispatch 0) s = .next (hostRun 256 (startHost q s)) := by
  change execDispatch 0 s = _
  refine congrArg Host.Outcome.next ((if_pos (canDispatch_of hfree)).trans ?_)
  rw [hq]
  exact if_pos rfl

theorem charge_inv_isSome {n : Nat} (d : CoreId) :
    ((charge c n s).core d).inv.isSome = (s.core d).inv.isSome := by
  have hpart := chargePart_inv (g := fun _ => ()) ⟨fun _ _ => rfl, fun _ => rfl⟩ c n s d
  have hset := setCore_inv (g := fun _ => ()) (s := chargePart c n s) (c := c)
    (k := { (chargePart c n s).core c with
      paid := 0, wokeEnd := true, paused := ((chargePart c n s).core c).paused || pausing (chargePart c n s) }) rfl d
  have := congrArg Option.isSome (hset.trans hpart)
  rwa [Option.isSome_map, Option.isSome_map] at this

theorem chargeQuota_paused (t : Tid) (n : Nat) (u : State) (d : CoreId) :
    ((chargeQuota t n u).core d).paused = (u.core d).paused := by
  have hmark (k : Core) : (markQuota t k).paused = k.paused := by
    unfold markQuota
    split
    · split <;> rfl
    · rfl
  rw [← rollPeriod_core t u d]
  unfold chargeQuota
  dsimp only
  generalize rollPeriod t u = w
  split
  · rfl
  · split
    · simp [State.core, hmark]
    · rfl

theorem setCore_paused {x : Core} (hx : x.paused = (s.core c).paused) (d : CoreId) :
    ((s.setCore c x).core d).paused = (s.core d).paused := by
  by_cases hd : c = d
  · subst hd; rw [core_setCore_same, hx]
  · rw [core_setCore_other _ _ hd]

theorem chargePart_paused (c : CoreId) (n : Nat) (s : State) (d : CoreId) :
    ((chargePart c n s).core d).paused = (s.core d).paused := by
  unfold chargePart addCycles
  dsimp only
  split
  · refine setCore_paused ?_ d; rfl
  · refine (chargeQuota_paused ..).trans ((setCore_paused ?_ d).trans (setCore_paused ?_ d)) <;> rfl

/-- With no sleep entry in progress an instruction's end does not hold the keeper. -/
theorem charge_held (n : Nat) (h : s.sleep.entry = none) : hostHeld (charge 0 n s) = hostHeld s := by
  have hpause : ((charge 0 n s).core 0).paused = (s.core 0).paused := by
    obtain ⟨cs, ts, e⟩ := chargePart_only 0 n s
    have hnone : pausing (chargePart 0 n s) = false := by rw [e, pausing, h]
    unfold charge
    dsimp only
    rw [core_setCore_same, hnone]
    exact (Bool.or_false _).trans (chargePart_paused ..)
  rw [hostHeld, hostHeld, charge_stall, hpause]

theorem retire_inv_isSome (t : Tid) (st : BitVec 8) (f : Regs → Regs) (n : Nat) (d : CoreId) :
    ((retire c t st f n s).core d).inv.isSome = (s.core d).inv.isSome := by
  obtain ⟨ts, h⟩ := countRefusal_only t st s
  have hset {w : State} {k : Core} (hk : k.inv = (w.core c).inv) :
      ((w.setCore c k).core d).inv.isSome = (w.core d).inv.isSome := by
    by_cases hd : c = d
    · subst hd; rw [core_setCore_same, hk]
    · rw [core_setCore_other _ _ hd]
  unfold retire
  dsimp only
  rw [charge_inv_isSome, h]
  refine (hset ?_).trans (hset ?_) <;> rfl

theorem retire_held (t : Tid) (st : BitVec 8) (f : Regs → Regs) (n : Nat) (h : s.sleep.entry = none) :
    hostHeld (retire 0 t st f n s) = hostHeld s := by
  obtain ⟨ts, hcount⟩ := countRefusal_only t st s
  have hset {w : State} {k : Core} (hs : k.stall = (w.core 0).stall) (hp : k.paused = (w.core 0).paused) :
      hostHeld (w.setCore 0 k) = hostHeld w := by
    rw [hostHeld, hostHeld, core_setCore_same, hs, hp]
  unfold retire
  dsimp only
  rw [hcount]
  refine (charge_held n ?_).trans ((hset ?_ ?_).trans (hset ?_ ?_))
  · exact h
  all_goals rfl

/-- A retired instruction of a request ends it with its status. -/
theorem retired_answered {t : Tid} {st : BitVec 8} {n : Nat} (hq : u.host.running = some q) (hop : q.opc = 0x30)
    (hleft : q.left = 1) (hf : q.fcode = 0) (hinv : (u.core 0).inv.isSome = true) (hheld : hostHeld u = false)
    (hentry : u.sleep.entry = none) :
    Answered q.tag st.toNat (hostAfter (retire 0 t st id n u)) ∧
      (hostAfter (retire 0 t st id n u)).host.running = none := by
  have hstat : ((retire 0 t st id n u).regs 0).fl.stat = st := by rw [retire_regs]; rfl
  obtain ⟨cs, ts, hrest⟩ := retire_only 0 t st id n u
  have h := hostAfter_retired (u := retire 0 t st id n u) (by rw [hrest]; exact hq) hop hleft hf
    (by rw [← Option.isSome_iff_ne_none, retire_inv_isSome]; exact hinv)
    (by rw [retire_held _ _ _ _ hentry]; exact hheld)
  rwa [hstat] at h

theorem hostInstrOf_execute (hop : q.opc = 0x30) : hostInstrOf q = decodeCore 0 (wordAt q.words 0) := if_pos hop

/-- A request of one instruction (R373). -/
structure OneExecute (q : HostReq) : Prop where
  opc : q.opc = 0x30
  left : q.left = 1
  fcode : q.fcode = 0

theorem encDefined_of_decode {i : Instr} (h : decodeCore 0 w = some i) : encDefined i = true := by
  rw [decodeCore, Option.filter_eq_some_iff] at h
  exact h.2

/-! What one instruction of an EXECUTE request does. -/

theorem hostIssue_undefined (hone : OneExecute q) (hd : decodeCore 0 (wordAt q.words 0) = none) :
    hostIssue q u = fault 0 fltOpcode (u.regs 0).pc u := by
  rw [hostIssue, hostInstrOf_execute hone.opc, hd]

theorem hostIssue_defined {i : Instr} (hone : OneExecute q) (hd : decodeCore 0 (wordAt q.words 0) = some i) :
    hostIssue q u = if ownerRuns u = false ∧ isMem i = false then retire 0 0 stState id u.base u
      else if isFlow i then retire 0 0 stRange id u.base u else coreNext i u := by
  rw [hostIssue, hostInstrOf_execute hone.opc, hd]

theorem ownerRuns_iff : ownerRuns u = true ↔ u.boot.phase = .done := beq_iff_eq

theorem startHost_begins (hfree : FreeCore s 0) (i : Instr) :
    Begins 0 i (hostInv s) (startHost q s) (startHost q s) := by
  obtain ⟨hrun, -, -, hpaused, -, -⟩ := hfree
  refine ⟨startHost_inv, hrun, ?_, ?_, ?_, ?_, Or.inr ⟨rfl, rfl⟩, if_pos rfl⟩
  · rw [startHost_core]; exact hpaused
  · rw [startHost_core]
  · rw [startHost_core]; exact Nat.le_refl _
  · rw [startHost_core]

/-- A request is answered as the end of its one instruction answers it. -/
theorem hostRun_start {n : Nat} (hfree : FreeCore s 0) (hone : OneExecute q)
    (h : ∀ q', OneExecute q' → q'.words = q.words → (startHost q s).host.running = some q' →
      Answered q'.tag n (hostAfter (hostIssue q' (startHost q s))) ∧
        (hostAfter (hostIssue q' (startHost q s))).host.running = none) :
    Answered q.tag n (hostRun 256 (startHost q s)) :=
  hostRun_ends (q := { q with before := vget (hostRegs q).w q.rd }) startHost_running (startHost_free hfree) hone.opc
    (h _ ⟨hone.opc, hone.left, hone.fcode⟩ rfl startHost_running)

/-- An undefined word of a request raises FLT_OPCODE (R56). -/
theorem hostRun_undefined (hfree : FreeCore s 0) (hone : OneExecute q)
    (hd : decodeCore 0 (wordAt q.words 0) = none) : Answered q.tag 256 (hostRun 256 (startHost q s)) := by
  refine hostRun_start hfree hone fun q' hone' hw hrun => ?_
  rw [hostIssue_undefined hone' (by rw [hw]; exact hd)]
  refine hostAfter_fault (code := 1) ?_ hone'.opc (fault_frees _ _ startHost_inv) Nat.one_ne_zero
  rw [fault, startHost_inv]
  change Option.map (fun x : HostReq => { x with fcode := fltOpcode }) (startHost q s).host.running = _
  rw [hrun]
  rfl

/-- An instruction of a request that is refused before its order 2. -/
theorem hostRun_refused {st : BitVec 8} {i : Instr} (hfree : FreeCore s 0) (hone : OneExecute q)
    (hd : decodeCore 0 (wordAt q.words 0) = some i)
    (h : ∀ u : State, u.boot = s.boot →
      (if ownerRuns u = false ∧ isMem i = false then retire 0 0 stState id u.base u
        else if isFlow i then retire 0 0 stRange id u.base u else coreNext i u) = retire 0 0 st id u.base u) :
    Answered q.tag st.toNat (hostRun 256 (startHost q s)) := by
  have hentry : s.sleep.entry = none := hfree.2.2.2.2.2
  refine hostRun_start hfree hone fun q' hone' hw hrun => ?_
  rw [hostIssue_defined hone' (by rw [hw]; exact hd), h (startHost q s) rfl]
  exact retired_answered hrun hone'.opc hone'.left hone'.fcode (by rw [startHost_inv]; rfl) (startHost_free hfree) hentry

/-- MOVL of a request writes its register and ends with ST_OK. -/
theorem hostRun_movl {f : LForm} (hfree : FreeCore s 0) (hone : OneExecute q)
    (hd : decodeCore 0 (wordAt q.words 0) = some (.movl 0 f)) (hphase : s.boot.phase = .done) :
    Answered q.tag 0 (hostRun 256 (startHost q s)) := by
  have hentry : s.sleep.entry = none := hfree.2.2.2.2.2
  have howner : ¬(ownerRuns (startHost q s) = false ∧ isMem (.movl 0 f) = false) := fun h =>
    Bool.false_ne_true (h.1.symm.trans (ownerRuns_iff.mpr hphase))
  have hzero : (f.zero == 0) = true := encDefined_of_decode hd
  refine hostRun_start hfree hone fun q' hone' hw hrun => ?_
  rw [hostIssue_defined hone' (by rw [hw]; exact hd), if_neg howner]
  change Answered _ _ (hostAfter (plainInstr 0 (.movl 0 f) (f.zero == 0) 1 (fun r => r.wr f.rd (f.imm16.zeroExtend 32))
    (startHost q s))) ∧ (hostAfter (plainInstr 0 (.movl 0 f) (f.zero == 0) 1
      (fun r => r.wr f.rd (f.imm16.zeroExtend 32)) (startHost q s))).host.running = none
  rw [hzero, plainInstr_begins (startHost_begins hfree (.movl 0 f))]
  generalize hw : State.setRegs (startHost q s) 0 _ = w
  have hcore : (w.core 0).inv = some (hostInv s) ∧ hostHeld w = false ∧ (w.regs 0).fl.stat = 0 := by
    have hheld := startHost_free (q := q) hfree
    rw [hostHeld] at hheld
    rw [← hw, hostHeld, regs_setRegs_same]
    simp only [State.setRegs, core_setCore_same]
    refine ⟨startHost_inv, hheld, ?_⟩
    rw [State.regs, startHost_core]
    rfl
  obtain ⟨hinv, hheld, hstat⟩ := hcore
  have hsleep : w.sleep.entry = none := by rw [← hw]; exact hentry
  have hrunning : w.host.running = some q' := by rw [← hw]; exact hrun
  have hregs : ((charge 0 1 w).regs 0).fl.stat.toNat = 0 := by rw [charge_regs, hstat]; rfl
  rw [← hregs]
  refine hostAfter_retired ?_ hone'.opc hone'.left hone'.fcode ?_ ?_
  · obtain ⟨cs, ts, e⟩ := charge_only 0 1 w
    rw [e]; exact hrunning
  · rw [← Option.isSome_iff_ne_none, charge_inv_isSome, hinv]; rfl
  · rw [charge_held 1 hsleep]; exact hheld

end

/-- Settles O45: the candidate that goes first bounds priority and event time, what it starts is written out, and a
request of one instruction is answered as that instruction ends. -/
theorem dispatching : Obligations.Dispatching := by
  unfold Obligations.Dispatching
  intro s c
  dsimp only
  refine ⟨fun k b e rest hfree hno hk he hc hq => dispatch_first hfree hno hk he (coreMay_iff.mpr hc) hq,
    fun k d b e rest hfree hno hd hp hix hk he => ?_, fun k d sv hfree hno hd hp hix hk => ?_, fun h => ?_,
    fun q hc hfree hstall hreq hop hleft hf htag => ?_⟩
  · rw [exec_dispatch hfree hno, dispatchHandler_pending hd hp hix, startBinding_eq hk he]
    refine ⟨_, rfl, vget_vset_same .., ?_⟩
    obtain ⟨h0, h1, h2, h3, h4⟩ := startRegs_words (c := c) b e
    simp only [State.regs, core_setCore_same]
    exact ⟨rfl, h0, h1, h2, h3, h4, rfl, rfl, _, rfl, rfl, rfl, rfl, rfl, rfl⟩
  · rw [exec_dispatch hfree hno, dispatchHandler_saved hd hp hix, resumeSaved_eq hk]
    refine ⟨_, rfl, vget_vset_same .., ?_⟩
    simp only [State.regs, core_setCore_same]
    exact ⟨rfl, rfl, rfl, rfl, rfl, rfl, rfl, rfl⟩
  · change execDispatch c s = _
    refine congrArg Host.Outcome.next (if_neg ?_)
    rcases h with h | h
    · cases hi : (s.core c).inv with
      | none => exact absurd hi h
      | some v => simp [canDispatch, hi]
    · simp [canDispatch, h]
  · subst hc
    have hone : OneExecute q := ⟨hop, hleft, hf⟩
    rw [exec_dispatch_host hfree hreq]
    refine ⟨fun hd => ⟨_, rfl, hostRun_undefined hfree hone hd⟩, fun f hd hphase => ?_, fun f hd hphase => ?_,
      fun f hd hphase => ⟨_, rfl, hostRun_movl hfree hone hd hphase⟩⟩
    · refine ⟨_, rfl, hostRun_refused (st := stState) hfree hone hd fun u hu => if_pos ⟨?_, rfl⟩⟩
      exact Bool.eq_false_iff.mpr fun h => hphase (by rw [← hu]; exact ownerRuns_iff.mp h)
    · refine ⟨_, rfl, hostRun_refused (st := stRange) hfree hone hd fun u hu => (if_neg ?_).trans (if_pos rfl)⟩
      exact fun h => Bool.false_ne_true (h.1.symm.trans (ownerRuns_iff.mpr (by rw [hu]; exact hphase)))

end Sys2Proof.Machine
end

section
/-!
PROOFS. Host frames in tethered flight (spec/13_serial_ports.md section 13.6, R150, R370 to R376).
-/
namespace Sys2Proof.Machine

section
variable {s : State} {q : HostReq}

/-- What the command phase of a host frame leaves, its status byte sent (R370). -/
def Polled (s u : State) : Prop :=
  u.host.out.take 2 = [frameStatus s, 0] ∧ u.host.status = none ∧
    u.host.alert = (s.host.alert && s.host.status.isSome) ∧ (u.port 0).nframe = (s.port 0).nframe + 1 ∧
    (u.port 0).inframe = false

/-- A request that comes while one is pending (R371). -/
def RequestDiscarded (s u : State) : Prop :=
  Polled s u ∧ u.host.disc = true ∧ u.host.err = (s.host.err && !(frameStatus s).getLsbD 3) ∧
    (u.port 0).ndisc = satInc (s.port 0).ndisc ∧ u.host.req = s.host.req ∧ u.host.busy = s.host.busy

/-- A malformed request (R371). -/
def RequestRejected (s u : State) : Prop :=
  Polled s u ∧ u.host.err = true ∧ u.host.disc = (s.host.disc && !(frameStatus s).getLsbD 2) ∧
    (u.port 0).nerr = satInc (s.port 0).nerr ∧ u.host.req = s.host.req ∧ u.host.busy = false

/-- A request that waits for the keeper (R372). -/
def RequestAccepted (s u : State) (q : HostReq) : Prop :=
  Polled s u ∧ u.host.busy = true ∧ u.host.rdy = false ∧ u.host.disc = (s.host.disc && !(frameStatus s).getLsbD 2) ∧
    u.host.err = (s.host.err && !(frameStatus s).getLsbD 3) ∧ (u.port 0).nreq = (s.port 0).nreq + 1 ∧
    u.host.req = some q

/-- The host and the port 0 after the command phase of a frame. -/
def commandHost (s : State) : HostSt :=
  { s.host with
    disc := s.host.disc && !(frameStatus s).getLsbD 2, err := s.host.err && !(frameStatus s).getLsbD 3
    urun := s.host.urun && !(frameStatus s).getLsbD 5
    alert := s.host.alert && s.host.status.isSome, status := none, out := [frameStatus s, 0], lanes := 0 }

def commandPort (s : State) : Port := { s.port 0 with inframe := false, nframe := (s.port 0).nframe + 1 }

theorem hostCommand_port : (hostCommand s).port 0 = commandPort s := vget_vset_same ..

theorem modPort_port (u : State) (f : Port → Port) : (u.modPort 0 f).port 0 = f (u.port 0) := vget_vset_same ..

/-- The marks of the command phase stay as long as only counters of the port follow. -/
theorem polled_of {u : State} (hout : u.host.out.take 2 = [frameStatus s, 0]) (hstatus : u.host.status = none)
    (halert : u.host.alert = (s.host.alert && s.host.status.isSome))
    (hport : (u.port 0).nframe = (commandPort s).nframe ∧ (u.port 0).inframe = (commandPort s).inframe) : Polled s u :=
  ⟨hout, hstatus, halert, hport⟩

theorem hostCommand_polled : Polled s (hostCommand s) :=
  polled_of rfl rfl rfl ⟨congrArg Port.nframe hostCommand_port, congrArg Port.inframe hostCommand_port⟩

theorem counted_port (f : Port → Port) : ((hostCommand s).modPort 0 f).port 0 = f (commandPort s) := by
  rw [modPort_port, hostCommand_port]

theorem hostRequest_pending (ok : Bool) (h : s.host.busy = true ∨ s.therm.stop ≠ none) :
    RequestDiscarded s (hostRequest ok q (hostCommand s)) := by
  have hdisc : hostRequest ok q (hostCommand s) = hostDiscard (hostCommand s) :=
    if_pos (h.imp id Option.isSome_iff_ne_none.mpr)
  have hport := counted_port (s := s) fun x => { x with ndisc := satInc x.ndisc }
  rw [hdisc]
  exact ⟨polled_of rfl rfl rfl ⟨(congrArg Port.nframe hport :), (congrArg Port.inframe hport :)⟩,
    rfl, rfl, congrArg Port.ndisc hport, rfl, rfl⟩

theorem hostRequest_free (ok : Bool) (hbusy : s.host.busy = false) (hstop : s.therm.stop = none) :
    hostRequest ok q (hostCommand s) = if !ok then hostReject (hostCommand s) else
      { (hostCommand s).modPort 0 (fun x => { x with nreq := x.nreq + 1 }) with
        host := { commandHost s with busy := true, rdy := false, reply := [], req := some q } } := by
  refine if_neg fun h => ?_
  rcases h with h | h
  · exact Bool.false_ne_true (hbusy.symm.trans h)
  · exact absurd (show s.therm.stop.isSome = true from h) (by rw [hstop]; exact Bool.false_ne_true)

theorem hostRequest_malformed (hbusy : s.host.busy = false) (hstop : s.therm.stop = none) :
    RequestRejected s (hostRequest false q (hostCommand s)) := by
  have hport := counted_port (s := s) fun x => { x with nerr := satInc x.nerr }
  rw [hostRequest_free false hbusy hstop]
  exact ⟨polled_of rfl rfl rfl ⟨(congrArg Port.nframe hport :), (congrArg Port.inframe hport :)⟩,
    rfl, rfl, congrArg Port.nerr hport, rfl, hbusy⟩

theorem hostRequest_accepted (hbusy : s.host.busy = false) (hstop : s.therm.stop = none) :
    RequestAccepted s (hostRequest true q (hostCommand s)) q := by
  have hport := counted_port (s := s) fun x => { x with nreq := x.nreq + 1 }
  rw [hostRequest_free true hbusy hstop]
  exact ⟨polled_of rfl rfl rfl ⟨(congrArg Port.nframe hport :), (congrArg Port.inframe hport :)⟩,
    rfl, rfl, rfl, rfl, congrArg Port.nreq hport, rfl⟩

theorem hostOwns_tethered (hmode : s.boot.mode = false) (htest : s.boot.testEn = false) : hostOwns s 0 = true := by
  simp [hostOwns, hmode, htest]

variable (hmode : s.boot.mode = false) (htest : s.boot.testEn = false)
include hmode htest

/-- A frame that the packet decoder serves. -/
theorem hostFrame_served (k : State → State) (h : s.running = true ∧ s.isReady .ports = true) :
    hostFrame k s = k (hostCommand s) :=
  if_pos (by rw [hostServes, hostOwns_tethered hmode htest, h.1, h.2]; rfl)

/-- A frame before PORTS is ready (R376). -/
theorem hostFrame_early (k : State → State) (h : ¬(s.running = true ∧ s.isReady .ports = true)) (hon : s.time.mode ≠ .off) :
    hostFrame k s = { s with host := { s.host with disc := true } } := by
  have hserves : ¬hostServes s = true := by
    rw [hostServes, hostOwns_tethered hmode htest, Bool.true_and, Bool.and_eq_true]; exact h
  exact (if_neg hserves).trans (if_pos ⟨hostOwns_tethered hmode htest, hon⟩)

/-- A request at its select release, in a frame that the decoder serves (R371, R372). -/
theorem request_served {i : Instr} {ok : Bool} {P : Prop} (hexec : exec i s = .next (hostFrame (hostRequest ok q) s))
    (hok : ok = true ↔ P) (h : s.running = true ∧ s.isReady .ports = true) :
    ∃ u, exec i s = .next u ∧ (s.host.busy = true ∨ s.therm.stop ≠ none → RequestDiscarded s u) ∧
      (s.host.busy = false → s.therm.stop = none → (P → RequestAccepted s u q) ∧ (¬ P → RequestRejected s u)) := by
  rw [hexec, hostFrame_served hmode htest _ h]
  refine ⟨_, rfl, hostRequest_pending ok, fun hbusy hstop => ⟨fun hp => ?_, fun hp => ?_⟩⟩
  · rw [hok.mpr hp]; exact hostRequest_accepted hbusy hstop
  · rw [Bool.eq_false_iff.mpr fun e => hp (hok.mp e)]; exact hostRequest_malformed hbusy hstop

/-- A request of an obligation's form: the packet's tag and words, and the instructions it runs. -/
theorem request_of {i : Instr} {ok : Bool} {P : Prop} {o : BitVec 8} {n m : Nat} {p : HostPkt}
    (hexec : exec i s = .next (hostFrame (hostRequest ok (hostReqOf o n p)) s)) (hok : ok = true ↔ P) (hn : P → n = m)
    (h : s.running = true ∧ s.isReady .ports = true) :
    ∃ u, exec i s = .next u ∧ (s.host.busy = true ∨ s.therm.stop ≠ none → RequestDiscarded s u) ∧
      (s.host.busy = false → s.therm.stop = none →
        (P → Polled s u ∧ u.host.busy = true ∧ u.host.rdy = false ∧
          u.host.disc = (s.host.disc && !(frameStatus s).getLsbD 2) ∧
          u.host.err = (s.host.err && !(frameStatus s).getLsbD 3) ∧ (u.port 0).nreq = (s.port 0).nreq + 1 ∧
          ∃ q, u.host.req = some q ∧ q.opc = o ∧ q.tag = p.tag.extractLsb' 3 5 ∧ q.words = p.words ∧ q.left = m) ∧
        (¬ P → RequestRejected s u)) := by
  obtain ⟨u, hu, hdisc, hfree⟩ := request_served hmode htest hexec hok h
  refine ⟨u, hu, hdisc, fun hbusy hstop => ⟨fun hp => ?_, (hfree hbusy hstop).2⟩⟩
  obtain ⟨hpolled, hb, hrdy, hd, he, hnreq, hreq⟩ := (hfree hbusy hstop).1 hp
  exact ⟨hpolled, hb, hrdy, hd, he, hnreq, _, hreq, rfl, rfl, rfl, hn hp⟩

end

/-! ## The length checks (Table 13.5) -/

variable {w : Word}

theorem zeroBits_15_6 : zeroBits w 15 6 = true ↔ w.toNat / 2 ^ 6 % 2 ^ 10 = 0 := beq_iff_eq

theorem execute_ok {p : HostPkt} :
    (p.extra == 0 && decide (1 ≤ p.words.length) && decide (p.words.length ≤ 16)) = true ↔
      (p.extra = 0 ∧ 1 ≤ p.words.length ∧ p.words.length ≤ 16) := by
  simp only [Bool.and_eq_true, beq_iff_eq, decide_eq_true_eq, and_assoc]

theorem readQueue_ok {p : HostPkt} :
    (p.extra == 0 && p.words.length == 1 && zeroBits w 15 6 && zeroBits w 31 25 && decide (1 ≤ fieldOf w 24 16) &&
      decide (fieldOf w 24 16 ≤ 256)) = true ↔
      (p.extra = 0 ∧ p.words.length = 1 ∧ w.toNat / 2 ^ 6 % 2 ^ 10 = 0 ∧ w.toNat < 2 ^ 25 ∧ 1 ≤ w.toNat / 2 ^ 16 ∧
        w.toNat / 2 ^ 16 ≤ 256) := by
  have hcount (h : w.toNat < 2 ^ 25) : fieldOf w 24 16 = w.toNat / 2 ^ 16 :=
    Nat.mod_eq_of_lt (Nat.div_lt_of_lt_mul h)
  simp only [Bool.and_eq_true, beq_iff_eq, decide_eq_true_eq, and_assoc, zeroBits_15_6,
    zeroBits_high (show 25 ≤ 31 by decide)]
  refine and_congr_right fun _ => and_congr_right fun _ => and_congr_right fun _ => and_congr_right fun h => ?_
  rw [hcount h]

theorem grantCredit_ok {p : HostPkt} :
    (p.extra == 0 && p.words.length == 1 && zeroBits w 15 6 && zeroBits w 31 27) = true ↔
      (p.extra = 0 ∧ p.words.length = 1 ∧ w.toNat / 2 ^ 6 % 2 ^ 10 = 0 ∧ w.toNat < 2 ^ 27) := by
  simp only [Bool.and_eq_true, beq_iff_eq, decide_eq_true_eq, and_assoc, zeroBits_15_6,
    zeroBits_high (show 27 ≤ 31 by decide)]

theorem readWindow_ok {p : HostPkt} :
    (p.extra == 0 && p.words.length == 2 && decide (1 ≤ w.toNat) && decide (w.toNat ≤ 256)) = true ↔
      (p.extra = 0 ∧ p.words.length = 2 ∧ 1 ≤ w.toNat ∧ w.toNat ≤ 256) := by
  simp only [Bool.and_eq_true, beq_iff_eq, decide_eq_true_eq, and_assoc]

/-- Settles O39: a frame served sends its status byte first, and its request is then discarded, rejected or accepted. -/
theorem hostFrames : Obligations.HostFrames := by
  unfold Obligations.HostFrames
  intro s p opc whole hmode htest
  dsimp only
  refine ⟨fun h hpoll => ?_, fun hwhole h0 h60 h => ?_, request_of hmode htest rfl execute_ok fun _ => rfl,
    request_of hmode htest rfl readQueue_ok fun _ => rfl, request_of hmode htest rfl grantCredit_ok fun _ => rfl,
    request_of hmode htest rfl readWindow_ok fun _ => rfl, fun h => ?_, fun h => ?_, fun h hon i hi => ?_⟩
  · have hexec : exec (.hostStatus opc whole) s = .next (hostCommand s) := by
      change Host.Outcome.next (hostFrame _ s) = _
      rw [hostFrame_served hmode htest _ h]
      exact congrArg Host.Outcome.next (if_pos hpoll)
    exact ⟨_, hexec, hostCommand_polled, rfl, rfl, rfl, rfl, rfl, rfl⟩
  · have hexec : exec (.hostStatus opc whole) s =
        .next (hostRequest false (hostReqOf opc 0 ⟨0, [], 0⟩) (hostCommand s)) := by
      change Host.Outcome.next (hostFrame _ s) = _
      rw [hostFrame_served hmode htest _ h]
      refine congrArg Host.Outcome.next ((if_neg fun e => ?_).trans (if_neg h60))
      rcases e with e | e
      · exact Bool.false_ne_true (e.symm.trans hwhole)
      · exact h0 e
    exact ⟨_, hexec, hostRequest_pending false, hostRequest_malformed⟩
  · have hexec : exec (.hostReadReply p) s =
        .next (sendReply ((32 * p.words.length + p.extra) / 8) (p.tag.extractLsb' 0 3) (hostCommand s)) :=
      congrArg Host.Outcome.next (hostFrame_served hmode htest _ h)
    exact ⟨_, hexec, polled_of rfl rfl rfl
      ⟨(congrArg Port.nframe hostCommand_port :), (congrArg Port.inframe hostCommand_port :)⟩, rfl, rfl, rfl, rfl, rfl⟩
  · have hexec : exec (.hostStatus 0x60 true) s = .next (sendReply 0 0 (hostCommand s)) :=
      congrArg Host.Outcome.next (hostFrame_served hmode htest _ h)
    exact ⟨_, hexec, polled_of rfl rfl rfl
      ⟨(congrArg Port.nframe hostCommand_port :), (congrArg Port.inframe hostCommand_port :)⟩, rfl, rfl, rfl, rfl⟩
  · have hframe (k : State → State) := hostFrame_early hmode htest k h hon
    simp only [List.mem_cons, List.not_mem_nil, or_false] at hi
    rcases hi with rfl | rfl | rfl | rfl | rfl | rfl <;> exact congrArg Host.Outcome.next (hframe _)

end Sys2Proof.Machine
end

section
/-!
PROOFS. Frames of a master in RAW mode and of a RAW slave (spec/13_serial_ports.md sections 13.4, 13.5 and 13.8).
-/
namespace Sys2Proof.Machine

section
variable {s u : State} {p : PortId}

/-! ## Who owns a port -/

theorem hostOwns_iff : hostOwns s p = true ↔ (p.val = 0 ∧ s.boot.mode = false ∧ s.boot.testEn = false) := by
  simp only [hostOwns, Bool.and_eq_true, beq_iff_eq, Bool.not_eq_true', and_assoc, Fin.ext_iff]
  rfl

theorem hostOwns_free (h : ¬(p.val = 0 ∧ s.boot.mode = false ∧ s.boot.testEn = false)) : hostOwns s p = false :=
  Bool.eq_false_iff.mpr fun e => h (hostOwns_iff.mp e)

theorem rawMaster_iff : rawMaster s p = true ↔
    (s.running = true ∧ ¬(p.val = 0 ∧ s.boot.mode = false ∧ s.boot.testEn = false) ∧ (s.port p).st = .run ∧
      (s.port p).slave = false ∧ (s.port p).mode = 0) := by
  simp only [rawMaster, Bool.and_eq_true, beq_iff_eq, Bool.not_eq_true', and_assoc, ← hostOwns_iff, Bool.not_eq_true]

theorem rawSlave_iff : rawSlave s p = true ↔
    (s.running = true ∧ ¬(p.val = 0 ∧ s.boot.mode = false ∧ s.boot.testEn = false) ∧ (s.port p).st = .run ∧
      (s.port p).slave = true ∧ (s.port p).mode = 0) := by
  simp only [rawSlave, Bool.and_eq_true, beq_iff_eq, Bool.not_eq_true', and_assoc, ← hostOwns_iff, Bool.not_eq_true]

/-! ## The word at the head of TXQ -/

/-- A port that drains the queue its settings name. -/
structure Drains (s : State) (p : PortId) : Prop where
  txen : (s.port p).txen = true
  st : (s.queue (s.port p).txq).st = .run
  cons : (s.queue (s.port p).txq).cons = 1
  cinst : (s.queue (s.port p).txq).cinst = p.val

theorem drains_iff : Drains s p ↔ (txOurs s p = true ∧ (s.queue (s.port p).txq).st = .run) := by
  unfold txOurs
  simp only [Bool.and_eq_true, beq_iff_eq, bne_iff_ne, and_assoc]
  constructor
  · rintro ⟨htxen, hst, hcons, hcinst⟩
    exact ⟨htxen, by rw [hst]; exact UState.noConfusion, hcons, hcinst, hst⟩
  · rintro ⟨htxen, -, hcons, hcinst, hst⟩
    exact ⟨htxen, hst, hcons, hcinst⟩

theorem nextTx_drains (h : Drains s p) : nextTx s p = (s.queue (s.port p).txq).drain.head? := if_pos (drains_iff.mp h)

theorem nextTx_none (h : ¬ Drains s p ∨ (s.queue (s.port p).txq).drain = []) : nextTx s p = none := by
  by_cases hd : Drains s p
  · rw [nextTx_drains hd, h.resolve_left (fun e => e hd)]; rfl
  · exact if_neg fun e => hd (drains_iff.mpr e)

theorem nextTx_isSome (h : (nextTx s p).isSome = true) : Drains s p := by
  by_contra hd
  rw [nextTx_none (Or.inl hd)] at h
  exact Bool.false_ne_true h

/-- A queue after its oldest word has been taken (R349). -/
def takenQueue (q : Queue) (d : QSlot) (r : List QSlot) : Queue :=
  { q with
    drain := r, ltag := d.tag, nget := q.nget + 1
    ncorr := if d.err = 1 then satInc q.ncorr else q.ncorr
    npois := if 2 ≤ d.err then satInc q.npois else q.npois }

/-- The state after a port has taken the word at the head of its queue. -/
def takenTx (p : PortId) (d : QSlot) (r : List QSlot) (s : State) : State :=
  s.setQueue (s.port p).txq (takenQueue (s.queue (s.port p).txq) d r)

variable {d : QSlot} {r : List QSlot}

theorem takenTx_port (i : PortId) : (takenTx p d r s).port i = s.port i := rfl

theorem takenTx_queue : (takenTx p d r s).queue (s.port p).txq = takenQueue (s.queue (s.port p).txq) d r :=
  queue_setQueue_same ..

theorem takenTx_drains (h : Drains s p) : Drains (takenTx p d r s) p := by
  obtain ⟨htxen, hst, hcons, hcinst⟩ := h
  refine ⟨htxen, ?_, ?_, ?_⟩ <;> rw [takenTx_port, takenTx_queue]
  exacts [hst, hcons, hcinst]

theorem takeTx_drains (h : Drains s p) (hq : (s.queue (s.port p).txq).drain = d :: r) :
    takeTx p s = (some (d, decide (2 ≤ d.err)), takenTx p d r s) := by
  have hsome : (nextTx s p).isNone = false := by rw [nextTx_drains h, hq]; rfl
  have hword : takeWord (s.port p).txq s = (some d, takenTx p d r s) := by
    rw [takeWord, hq]; rfl
  rw [takeTx, hsome, if_neg Bool.false_ne_true, hword]

/-! ## Frames of a master -/

theorem headOk_iff : headOk p d = true ↔
    (d.tag.getLsbD 1 = true ∧ d.w.toNat / 2 ^ 16 % 2 ^ 13 ≤ 4096 ∧ (p.val = 1 ∨ d.w.toNat < 2 ^ 30)) := by
  simp only [headOk, Bool.and_eq_true, Bool.or_eq_true, beq_iff_eq, decide_eq_true_eq, and_assoc,
    zeroBits_high (show 30 ≤ 31 by decide), Fin.ext_iff]
  rfl

theorem selectOf_eq (w : Word) : fieldOf w 31 30 = w.toNat / 2 ^ 30 :=
  Nat.mod_eq_of_lt (Nat.div_lt_of_lt_mul w.isLt)

theorem skipHeads_none (n : Nat) (h : nextTx s p = none) : skipHeads n p s = s := by
  cases n with
  | zero => rfl
  | succ n => rw [skipHeads, h]

theorem skipHeads_head (n : Nat) (h : nextTx s p = some d) (hok : headOk p d = true) : skipHeads n p s = s := by
  cases n with
  | zero => rfl
  | succ n => rw [skipHeads, h]; exact if_pos hok

theorem frameStart_none (rx : Words) (h : nextTx s p = none) : frameStart p rx s = s := by
  unfold frameStart
  dsimp only
  split
  · rfl
  · split
    · rw [skipHeads_none _ h, startHead, h]
    · exact if_pos (Or.inl (by rw [h]; rfl))

theorem frameStart_blocked (rx : Words) (h : rawMaster s p = false ∨ (s.port p).mframe.isSome = true) :
    frameStart p rx s = s := if_pos h

/-- A master that may start a frame. -/
structure Sends (s : State) (p : PortId) : Prop where
  master : rawMaster s p = true
  idle : (s.port p).mframe = none
  drains : Drains s p

theorem Sends.unblocked (h : Sends s p) : ¬(rawMaster s p = false ∨ (s.port p).mframe.isSome = true) := by
  rw [h.master, h.idle]
  exact fun e => e.elim Bool.noConfusion Bool.noConfusion

theorem frameStart_word (rx : Words) (h : Sends s p) (hf : (s.port p).headFrm = false) :
    frameStart p rx s = startWord p rx s :=
  (if_neg h.unblocked).trans (if_neg (by rw [hf]; exact Bool.false_ne_true))

theorem frameStart_head (rx : Words) (h : Sends s p) (hf : (s.port p).headFrm = true)
    (hq : (s.queue (s.port p).txq).drain = d :: r) (hok : headOk p d = true) :
    frameStart p rx s = startHead p rx s := by
  refine (if_neg h.unblocked).trans ((if_pos hf).trans ?_)
  rw [skipHeads_head _ (by rw [nextTx_drains h.drains, hq]; rfl) hok]

/-- The stages of a frame that last (R363). -/
def lasting (l : List (FStage × Nat)) : List (FStage × Nat) := l.filter (fun y => y.2 != 0)

/-- A frame that has asserted its select: what the port is and how the frame goes on. -/
structure Leads (p : PortId) (m : MFrame) (phases : List (FStage × Nat)) (bad : Nat) (s u : State) (f : MFrame) :
    Prop where
  port : u.port p = { s.port p with
    inframe := true, held := none, sent := [], npois := satAdd (s.port p).npois bad, mframe := some f }
  queues : u.queues = s.queues
  stage : f.stage = .lead
  left : f.left = 2
  rest : f.rest = lasting phases
  kept : f.words = m.words ∧ f.send = m.send ∧ f.line = m.line ∧ f.cs = m.cs ∧ f.cmd = m.cmd ∧ f.addr = m.addr

section
variable {m f : MFrame} {phases : List (FStage × Nat)} {bad : Nat} (h : Leads p m phases bad s u f)
include h

theorem Leads.frame : (u.port p).mframe = some f := congrArg Port.mframe h.port

theorem Leads.inframe : (u.port p).inframe = true := congrArg Port.inframe h.port

theorem Leads.npois : (u.port p).npois = satAdd (s.port p).npois bad := congrArg Port.npois h.port

end

theorem beginFrame_leads {m : MFrame} {phases : List (FStage × Nat)} {bad : Nat} (hheld : (s.port p).held = none) :
    ∃ f, Leads p m phases bad s (beginFrame p m phases bad s) f := by
  have hrest : ((if (s.port p).held.isSome then [] else [(FStage.lead, 2)]) ++ phases.filter (fun q => q.2 != 0)) =
      (.lead, 2) :: lasting phases := by rw [hheld]; rfl
  unfold beginFrame nextStage
  dsimp only
  rw [hrest, port_setPort_same]
  dsimp only
  exact ⟨_, port_setPort_same .., rfl, rfl, rfl, rfl,
    rfl, rfl, rfl, rfl, rfl, rfl⟩

/-- A master whose select may assert (R363). -/
structure Rested (s : State) (p : PortId) : Prop where
  held : (s.port p).held = none
  freeAt : (s.port p).freeAt ≤ s.time.phys

theorem startWord_leads (rx : Words) (h : Drains s p) (hq : (s.queue (s.port p).txq).drain ≠ []) (hr : Rested s p) :
    ∃ f, Leads p { MFrame.idle with words := 1, send := true, recv := (s.port p).rxen && (s.port p).dl == 0, line := rx }
      [(.dummy, 2 * (s.port p).dc)] 0 s (startWord p rx s) f := by
  have hsome : (nextTx s p).isNone = false := by
    rw [nextTx_drains h]
    cases hd : (s.queue (s.port p).txq).drain with
    | nil => exact absurd hd hq
    | cons d r => rfl
  have hgo : ¬((nextTx s p).isNone = true ∨ ((s.port p).held = none ∧ s.time.phys < (s.port p).freeAt)) := by
    rw [hsome]
    have := hr.freeAt
    rintro (e | ⟨-, e⟩)
    · exact Bool.false_ne_true e
    · omega
  unfold startWord
  dsimp only
  rw [if_neg hgo]
  exact beginFrame_leads hr.held

/-- The phases of a HEAD-framed frame before its data. -/
def headPhases (x : Port) : List (FStage × Nat) :=
  [(.cmd, 2 * phasePeriods x.cw x.cl x.cd), (.addr, 2 * phasePeriods x.aw x.al x.ad), (.dummy, 2 * x.dc)]

/-- What a HEAD word asks of its frame (Table 13.7). -/
structure Asked (x : Port) (d : QSlot) (m : MFrame) : Prop where
  words : m.words = (d.w.toNat / 2 ^ 16 % 2 ^ 13 + 3) / 4
  send : m.send = !d.w.getLsbD 29
  cs : m.cs = d.w.toNat / 2 ^ 30
  cmd : m.cmd.toNat = d.w.toNat % 2 ^ x.cw % 2 ^ 16

/-- The word that an address was taken from, and the poison that it counts. -/
def addressWord : Option (QSlot × Bool) → Word
  | some (w, _) => w.w
  | none => 0

def addressPoison : Option (QSlot × Bool) → Nat
  | some (_, b) => bit01 b
  | none => 0

/-- A HEAD-framed frame: its HEAD word is taken, then its address word when AW is nonzero. -/
theorem startHead_leads {a : Option (QSlot × Bool)} (rx : Words) (h : Drains s p)
    (hq : (s.queue (s.port p).txq).drain = d :: r)
    (hwords : ¬((s.port p).aw ≠ 0 ∧ (s.queue (s.port p).txq).drain.length < 2)) (hr : Rested s p)
    (ha : (if (s.port p).aw ≠ 0 then takeTx p (takenTx p d r s) else (none, takenTx p d r s)) = (a, u))
    (hu : u.port p = s.port p) :
    ∃ m f, Asked (s.port p) d m ∧ m.addr = toWord ((addressWord a).toNat % 2 ^ (s.port p).aw) ∧
      Leads p m (headPhases (s.port p)) (bit01 (decide (2 ≤ d.err)) + addressPoison a) u (startHead p rx s) f := by
  have hn : nextTx s p = some d := by rw [nextTx_drains h, hq]; rfl
  obtain ⟨hheld, hfree⟩ := hr
  have hsame : ¬((s.port p).held.isSome = true ∧ (s.port p).held ≠ some (fieldOf d.w 31 30)) := by
    rw [hheld]; exact fun e => Bool.false_ne_true e.1
  have hgo : ¬((s.port p).held = none ∧ s.time.phys < (s.port p).freeAt) := fun e => by omega
  have hhead : ∃ m, Asked (s.port p) d m ∧ m.addr = toWord ((addressWord a).toNat % 2 ^ (s.port p).aw) ∧
      startHead p rx s =
        beginFrame p m (headPhases (s.port p)) (bit01 (decide (2 ≤ d.err)) + addressPoison a) u := by
    unfold startHead
    rw [hn]
    dsimp only
    rw [if_neg hwords, if_neg hsame, if_neg hgo, takeTx_drains h hq]
    dsimp only
    rw [ha]
    cases a <;> exact ⟨_, ⟨rfl, rfl, selectOf_eq _, BitVec.toNat_ofNat ..⟩, rfl, rfl⟩
  obtain ⟨m, hm, haddr, hstart⟩ := hhead
  obtain ⟨f, hf⟩ := beginFrame_leads (s := u) (p := p) (m := m) (phases := headPhases (s.port p))
    (bad := bit01 (decide (2 ≤ d.err)) + addressPoison a) (by rw [hu]; exact hheld)
  exact ⟨m, f, hm, haddr, hstart ▸ hf⟩

/-- A select that CONT holds and that the next frame does not want is released first (R363). -/
theorem startHead_releases {k : Nat} (rx : Words) (h : Drains s p) (hq : (s.queue (s.port p).txq).drain = d :: r)
    (haw : (s.port p).aw = 0) (hheld : (s.port p).held = some k) (hk : k ≠ d.w.toNat / 2 ^ 30) :
    startHead p rx s = s.setPort p { s.port p with
      held := none, inframe := false, freeAt := s.time.phys + 2 * (s.port p).div s.level.cur * s.inc } := by
  have hn : nextTx s p = some d := by rw [nextTx_drains h, hq]; rfl
  have hother : (s.port p).held.isSome = true ∧ (s.port p).held ≠ some (fieldOf d.w 31 30) := by
    rw [hheld, selectOf_eq]
    exact ⟨rfl, fun e => hk (Option.some.inj e)⟩
  unfold startHead
  rw [hn]
  exact (if_neg fun e => e.1 haw).trans (if_pos hother)

theorem startHead_waits (rx : Words) (h : Drains s p) (hq : (s.queue (s.port p).txq).drain = [d])
    (haw : (s.port p).aw ≠ 0) : startHead p rx s = s := by
  have hn : nextTx s p = some d := by rw [nextTx_drains h, hq]; rfl
  unfold startHead
  rw [hn]
  exact if_pos ⟨haw, by rw [hq]; exact Nat.one_lt_two⟩

/-- A word that may start no frame is discarded and counted, and with no other the port stays idle (R361). -/
theorem frameStart_skips (rx : Words) (h : Sends s p) (hf : (s.port p).headFrm = true)
    (hq : (s.queue (s.port p).txq).drain = [d]) (hbad : headOk p d = false) :
    ((frameStart p rx s).port p).mframe = none ∧ ((frameStart p rx s).port p).nskip = satInc (s.port p).nskip ∧
      ((frameStart p rx s).queue (s.port p).txq).drain = [] := by
  have hn : nextTx s p = some d := by rw [nextTx_drains h.drains, hq]; rfl
  let u := (takenTx p d [] s).modPort p (fun x => { x with nskip := satInc x.nskip })
  have hport : u.port p = { s.port p with nskip := satInc (s.port p).nskip } := port_setPort_same ..
  have hskip : skipHeads 1 p s = u := by
    rw [skipHeads, hn]
    refine (if_neg (by rw [hbad]; exact Bool.false_ne_true)).trans ?_
    rw [takeTx_drains h.drains hq, skipHeads]
  have hqueue : (u.queue (s.port p).txq).drain = [] := congrArg Queue.drain takenTx_queue
  have hnone : nextTx u p = none := nextTx_none (Or.inr (by rw [hport]; exact hqueue))
  have hstart : frameStart p rx s = u := by
    refine (if_neg h.unblocked).trans ((if_pos hf).trans ?_)
    rw [hq, List.length_singleton, hskip, startHead, hnone]
  rw [hstart, hport]
  exact ⟨h.idle, rfl, hqueue⟩

/-! ## The rest of a master's frame -/

theorem beginWord_receives {m : MFrame} (hsend : m.send = false) :
    ∃ m', ((beginWord p m s).port p).mframe = some m' ∧ m'.stage = .word ∧ m'.words = m.words - 1 ∧
      (beginWord p m s).queues = s.queues := by
  unfold beginWord
  dsimp only
  have hfalse : ¬({ enterStage s (s.port p) .word (2 * phasePeriods (8 * m.nextBytes) (s.port p).dl (s.port p).dd) m with
      words := m.words - 1 } : MFrame).send = true := by
    change ¬m.send = true
    rw [hsend]; exact Bool.false_ne_true
  rw [if_neg hfalse]
  exact ⟨_, congrArg Port.mframe (port_setPort_same ..), rfl, rfl, rfl⟩

theorem beginWord_sends {m : MFrame} (h : Drains s p) (hq : (s.queue (s.port p).txq).drain = d :: r)
    (hsend : m.send = true) :
    ∃ m', ((beginWord p m s).port p).mframe = some m' ∧ m'.stage = .word ∧ m'.words = m.words - 1 ∧
      m'.cur = d.w ∧ ((beginWord p m s).queue (s.port p).txq).drain = r ∧
      ((beginWord p m s).port p).sent =
        (s.port p).sent ++ (wordBytes d.w).take (if m.words = 1 then m.lastBytes else 4) := by
  unfold beginWord
  dsimp only
  have htrue : ({ enterStage s (s.port p) .word (2 * phasePeriods (8 * m.nextBytes) (s.port p).dl (s.port p).dd) m with
      words := m.words - 1 } : MFrame).send = true := hsend
  rw [if_pos htrue, takeTx_drains h hq]
  dsimp only
  refine ⟨_, congrArg Port.mframe (port_setPort_same ..), rfl, rfl, rfl, congrArg Queue.drain takenTx_queue, ?_⟩
  exact congrArg Port.sent (port_setPort_same ..)

theorem frameResume_goes {m : MFrame} (hmaster : rawMaster s p = true) (hm : (s.port p).mframe = some m)
    (hstage : m.stage = .paused) :
    frameResume p s = if wordReady s p m = true then beginWord p m s else s := by
  unfold frameResume
  rw [hm]
  dsimp only
  by_cases hready : wordReady s p m = true
  · rw [if_pos ⟨hmaster, hstage, hready⟩, if_pos hready]
  · rw [if_neg fun e => hready e.2.2, if_neg hready]

/-- A paused frame that may go on has its word in TXQ, when it sends. -/
theorem wordReady_drains {m : MFrame} (h : wordReady s p m = true) (hsend : m.send = true) :
    Drains s p ∧ (s.queue (s.port p).txq).drain ≠ [] := by
  have hsome : (nextTx s p).isSome = true := by
    rw [wordReady, Bool.and_eq_true, hsend] at h
    exact h.1
  refine ⟨nextTx_isSome hsome, fun e => ?_⟩
  rw [nextTx_none (Or.inr e)] at hsome
  exact Bool.false_ne_true hsome

/-- The event of a master's frame end. -/
theorem frameArg_eq (pois : Bool) :
    portArg 1 stOk 0 false pois false 0 = BitVec.ofNat 32 (2 ^ 28 + bit01 pois * 2 ^ 14) := by
  cases pois <;> decide

/-- A port's event leaves the queues, and joins the events of the next clock when EVM enables it. -/
theorem portEvent_rest (kind : Nat) (arg : Word) :
    (portEvent p kind arg s).queues = s.queues ∧
      (portEvent p kind arg s).later = if ((s.port p).w 0).getLsbD (21 + kind) then
        s.later ++ [.eventOf (0x78 + p.val) arg s.time.hive] else s.later := by
  have hbit : bitOf (((s.modPort p (fun x => { x with lastarg := arg })).port p).w 0) (21 + kind) =
      ((s.port p).w 0).getLsbD (21 + kind) := by
    rw [State.modPort, port_setPort_same]; rfl
  unfold portEvent
  dsimp only
  rw [hbit]
  split <;> exact ⟨rfl, rfl⟩

theorem frameEnd_done {m : MFrame} (hmaster : rawMaster s p = true) (hm : (s.port p).mframe = some m)
    (hdone : m.stage = .done) :
    frameEnd p s = portEvent p 1 (BitVec.ofNat 32 (2 ^ 28 + bit01 m.pois * 2 ^ 14)) (s.setPort p { s.port p with
      mframe := none, nframe := (s.port p).nframe + 1, inframe := m.cont
      held := if m.cont then some m.cs else none
      freeAt := if m.cont then (s.port p).freeAt else twoPeriods s (s.port p) }) := by
  unfold frameEnd
  dsimp only
  rw [hm]
  dsimp only
  rw [if_pos ⟨hmaster, hdone⟩, frameArg_eq]

/-! ## Frames of a RAW slave -/

/-- What sending bytes leaves of a slave's frame and port. -/
structure Sent (n : Nat) (f f' : SFrame) (x x' : Port) : Prop where
  got : f'.got = f.got
  last : f'.last = f.last
  rxf : x'.rxf = x.rxf
  norun : x'.norun = x.norun
  orun : x'.orun = x.orun
  urun : x.urun = true → x'.urun = true
  nframe : x'.nframe = x.nframe
  sent : x'.sent.length = x.sent.length + n

theorem Sent.trans {n k : Nat} {f g g' : SFrame} {x y z : Port} (h : Sent n f g x y) (h' : Sent k g g' y z) :
    Sent (n + k) f g' x z :=
  ⟨h'.got.trans h.got, h'.last.trans h.last, h'.rxf.trans h.rxf, h'.norun.trans h.norun, h'.orun.trans h.orun,
    fun e => h'.urun (h.urun e), h'.nframe.trans h.nframe, by rw [h'.sent, h.sent, Nat.add_assoc]⟩

theorem slaveSend_sent (n k : Nat) (f : SFrame) (x : Port) :
    Sent n f (slaveSend n k f x).1 x (slaveSend n k f x).2 := by
  induction n generalizing k f x with
  | zero => exact ⟨rfl, rfl, rfl, rfl, rfl, id, rfl, rfl⟩
  | succ n ih =>
    have hbyte {g : SFrame} {y : Port} (h : Sent 1 f g x y) :
        Sent (n + 1) f (slaveSend n (k + 1) g y).1 x (slaveSend n (k + 1) g y).2 := by
      rw [Nat.add_comm]
      exact h.trans (ih ..)
    rw [slaveSend]
    split
    · exact hbyte ⟨rfl, rfl, rfl, rfl, rfl, id, rfl, List.length_append⟩
    · split
      · exact hbyte ⟨rfl, rfl, rfl, rfl, rfl, id, rfl, List.length_append⟩
      · exact hbyte ⟨rfl, rfl, rfl, rfl, rfl, fun _ => rfl, rfl, List.length_append⟩
    · exact hbyte ⟨rfl, rfl, rfl, rfl, rfl, fun _ => rfl, rfl, List.length_append⟩

/-- A whole word of the transmit FIFO goes out byte by byte (R367). -/
theorem slaveSend_word {k : Nat} {f : SFrame} {x : Port} {d : Word} {bad : Bool} {rest : List (Word × Bool)}
    (he : 0 < f.early) (hb : x.txb = []) (hf : x.txf = (d, bad) :: rest) :
    (slaveSend 4 k f x).2.sent = x.sent ++ wordBytes d ∧ (slaveSend 4 k f x).2.txf = rest := by
  have hfirst : slaveSend 4 k f x = slaveSend 3 (k + 1) { f with pois := f.pois || bad, early := f.early - 1 }
      { x with
        txf := rest, txb := (wordBytes d).tail, sent := x.sent ++ (wordBytes d).take 1
        npois := if bad then satInc x.npois else x.npois } := by
    rw [slaveSend, hb, hf]
    exact if_pos (Or.inl he)
  rw [hfirst]
  refine ⟨?_, rfl⟩
  simp only [slaveSend, wordBytes, List.tail_cons, List.take_succ_cons, List.take_zero, List.append_assoc]
  rfl

/-- With nothing to send a slave sends 0xFF and sets URUN (R366). -/
theorem slaveSend_idle {k : Nat} {f : SFrame} {x : Port} (hb : x.txb = []) (hf : x.txf = []) :
    (slaveSend 4 k f x).2.sent = x.sent ++ [0xFF, 0xFF, 0xFF, 0xFF] ∧ (slaveSend 4 k f x).2.urun = true := by
  simp [slaveSend, hb, hf]

theorem pushHeld_cases (f : SFrame) (x : Port) :
    (f.last = none → pushHeld f x = x) ∧
    (∀ b, f.last = some b → pushHeld f x = pushRx b (if f.got = 1 then 1 else 0) x) := by
  refine ⟨fun h => by rw [pushHeld, h], fun b h => ?_⟩
  have htag : rxTag (f.got == 1) false false false = if f.got = 1 then 1 else 0 := by
    by_cases hg : f.got = 1
    · rw [hg]; rfl
    · rw [if_neg hg, beq_eq_false_iff_ne.mpr hg]; rfl
  rw [pushHeld, h, ← htag]

theorem pushLast_some {f : SFrame} {x : Port} {b : Word} (h : f.last = some b) :
    pushLast f x = pushRx b (if f.got = 1 then 9 else 8) x := by
  have htag : rxTag (f.got == 1) false false true = if f.got = 1 then 9 else 8 := by
    by_cases hg : f.got = 1
    · rw [hg]; rfl
    · rw [if_neg hg, beq_eq_false_iff_ne.mpr hg]; rfl
  rw [pushLast, h, ← htag]

theorem partTag_eq (g : Nat) : rxTag (g == 0) true false true = if g = 0 then 11 else 10 := by
  by_cases hg : g = 0
  · rw [hg]; rfl
  · rw [if_neg hg, beq_eq_false_iff_ne.mpr hg]; rfl

theorem pushRx_room {w : Word} {tag : BitVec 4} {x : Port} (h : x.rxf.length < 16) :
    pushRx w tag x = { x with rxf := x.rxf ++ [(w, tag)] } := if_pos h

theorem pushRx_full {w : Word} {tag : BitVec 4} {x : Port} (h : 16 ≤ x.rxf.length) :
    pushRx w tag x = { x with norun := satInc x.norun, orun := true } := if_neg (Nat.not_lt.mpr h)

/-- A received word enters its FIFO or is counted; what the port sends stays. -/
theorem pushRx_keeps (w : Word) (tag : BitVec 4) (x : Port) :
    (pushRx w tag x).sent = x.sent ∧ (pushRx w tag x).txf = x.txf ∧ (pushRx w tag x).urun = x.urun ∧
      (pushRx w tag x).nframe = x.nframe := by
  unfold pushRx
  split <;> exact ⟨rfl, rfl, rfl, rfl⟩

theorem pushHeld_keeps (f : SFrame) (x : Port) :
    (pushHeld f x).sent = x.sent ∧ (pushHeld f x).txf = x.txf ∧ (pushHeld f x).urun = x.urun ∧
      (pushHeld f x).nframe = x.nframe := by
  unfold pushHeld
  split
  · exact pushRx_keeps ..
  · exact ⟨rfl, rfl, rfl, rfl⟩

theorem pushLast_nframe (f : SFrame) (x : Port) : (pushLast f x).nframe = x.nframe := by
  unfold pushLast
  split
  · exact (pushRx_keeps ..).2.2.2
  · rfl

/-- The port of a slave as a word ends, its status byte's sticky bits cleared (R367). -/
def wordPort (f : SFrame) (x : Port) : Port := if f.got = 0 then clearSticky x else x

theorem wordPort_keeps (f : SFrame) (x : Port) : (wordPort f x).rxf = x.rxf ∧ (wordPort f x).norun = x.norun ∧
    (wordPort f x).sent = x.sent ∧ (wordPort f x).txb = x.txb ∧ (wordPort f x).txf = x.txf := by
  unfold wordPort
  split <;> exact ⟨rfl, rfl, rfl, rfl, rfl⟩

/-- The bytes of a slave's word, sent. -/
def wordSent (s : State) (f : SFrame) (x : Port) : SFrame × Port :=
  slaveSend (if f.got = 0 then 3 else 4) s.free f (wordPort f x)

theorem slaveWord_port {f : SFrame} (w : Word) (hslave : rawSlave s p = true) (hf : (s.port p).sframe = some f) :
    (slaveWord p w s).port p = { pushHeld (wordSent s f (s.port p)).1 (wordSent s f (s.port p)).2 with
      sframe := some { (wordSent s f (s.port p)).1 with
        got := (wordSent s f (s.port p)).1.got + 1, last := some w
        early := (wordSent s f (s.port p)).2.txf.length } } := by
  unfold slaveWord
  dsimp only
  rw [hf]
  dsimp only
  rw [if_pos hslave]
  exact port_setPort_same ..

/-- A slave's word: what was held back goes on, the word is held back, and its bytes have been sent. -/
theorem slaveWord_does {f : SFrame} (w : Word) (hslave : rawSlave s p = true) (hf : (s.port p).sframe = some f) :
    ∃ f', ((slaveWord p w s).port p).sframe = some f' ∧ f'.got = f.got + 1 ∧ f'.last = some w ∧
      (f.last = none → ((slaveWord p w s).port p).rxf = (s.port p).rxf) ∧
      ((slaveWord p w s).port p).sent.length = (s.port p).sent.length + (if f.got = 0 then 3 else 4) ∧
      (∀ d bad rest, f.got ≠ 0 → 0 < f.early → (s.port p).txb = [] → (s.port p).txf = (d, bad) :: rest →
        ((slaveWord p w s).port p).sent = (s.port p).sent ++ wordBytes d ∧ ((slaveWord p w s).port p).txf = rest) ∧
      (f.got ≠ 0 → (s.port p).txb = [] → (s.port p).txf = [] →
        ((slaveWord p w s).port p).sent = (s.port p).sent ++ [0xFF, 0xFF, 0xFF, 0xFF] ∧
          ((slaveWord p w s).port p).urun = true) ∧
      (∀ b, f.last = some b → (s.port p).rxf.length < 16 →
        ((slaveWord p w s).port p).rxf = (s.port p).rxf ++ [(b, if f.got = 1 then 1 else 0)] ∧
          ((slaveWord p w s).port p).norun = (s.port p).norun) ∧
      (∀ b, f.last = some b → 16 ≤ (s.port p).rxf.length →
        ((slaveWord p w s).port p).rxf = (s.port p).rxf ∧
          ((slaveWord p w s).port p).norun = satInc (s.port p).norun ∧ ((slaveWord p w s).port p).orun = true) := by
  rw [slaveWord_port w hslave hf]
  have hsends := slaveSend_sent (if f.got = 0 then 3 else 4) s.free f (wordPort f (s.port p))
  change Sent _ f (wordSent s f (s.port p)).1 (wordPort f (s.port p)) (wordSent s f (s.port p)).2 at hsends
  obtain ⟨hrxf, hnorun, hsent, htxb, htxf⟩ := wordPort_keeps f (s.port p)
  have hfour (hg : f.got ≠ 0) : wordSent s f (s.port p) = slaveSend 4 s.free f (wordPort f (s.port p)) := by
    rw [wordSent, if_neg hg]
  generalize hr : wordSent s f (s.port p) = r at hsends hfour ⊢
  obtain ⟨f', y⟩ := r
  obtain ⟨hgot, hlast, hrxf', hnorun', -, -, -, hlen⟩ := hsends
  obtain ⟨hnone, hsome⟩ := pushHeld_cases f' y
  obtain ⟨hksent, hktxf, hkurun, -⟩ := pushHeld_keeps f' y
  rw [hlast] at hnone hsome
  rw [hgot] at hsome
  refine ⟨_, rfl, congrArg (· + 1) hgot, rfl, fun h => ?_, ?_, fun d bad rest hg he hb hd => ?_,
    fun hg hb hd => ?_, fun b hb hroom => ?_, fun b hb hroom => ?_⟩
  · dsimp only
    rw [hnone h, hrxf', hrxf]
  · dsimp only
    rw [hksent, hlen, hsent]
  · dsimp only
    rw [hksent, hktxf]
    have hword := slaveSend_word (k := s.free) (x := wordPort f (s.port p)) he (by rw [htxb]; exact hb)
      (by rw [htxf]; exact hd)
    rw [← hfour hg, hsent] at hword
    exact hword
  · dsimp only
    rw [hksent, hkurun]
    have hidle := slaveSend_idle (k := s.free) (f := f) (x := wordPort f (s.port p)) (by rw [htxb]; exact hb)
      (by rw [htxf]; exact hd)
    rw [← hfour hg, hsent] at hidle
    exact hidle
  · dsimp only
    rw [hsome b hb, pushRx_room (by rw [hrxf', hrxf]; exact hroom)]
    exact ⟨by rw [hrxf', hrxf], by rw [hnorun', hnorun]⟩
  · dsimp only
    rw [hsome b hb, pushRx_full (by rw [hrxf', hrxf]; exact hroom)]
    exact ⟨by rw [hrxf', hrxf], by rw [hnorun', hnorun], rfl⟩

/-- The port of a slave as its frame ends after `n` bits of a word. -/
def releasePort (f : SFrame) (n : Nat) (x : Port) : Port := if f.got = 0 ∧ 8 ≤ n then clearSticky x else x

theorem releasePort_rxf (f : SFrame) (n : Nat) (x : Port) :
    (releasePort f n x).rxf = x.rxf ∧ (releasePort f n x).nframe = x.nframe := by
  unfold releasePort
  split <;> exact ⟨rfl, rfl⟩

def releaseSent (s : State) (f : SFrame) (n : Nat) (x : Port) : SFrame × Port :=
  slaveSend (if f.got = 0 then (n + 7) / 8 - 1 else (n + 7) / 8) (s.free + 1) f (releasePort f n x)

/-- What a slave's frame end leaves in the receive FIFO: its last word, or a PART word after the word held back. -/
def releaseRx (f : SFrame) (n : Nat) (w : Word) (x : Port) : Port :=
  if n = 0 then pushLast f x
  else pushRx (toWord (w.toNat % 2 ^ n)) (rxTag (f.got == 0) true false true) (pushHeld f x)

theorem releaseRx_nframe (f : SFrame) (n : Nat) (w : Word) (x : Port) : (releaseRx f n w x).nframe = x.nframe := by
  unfold releaseRx
  split
  · exact pushLast_nframe f x
  · exact (pushRx_keeps ..).2.2.2.trans (pushHeld_keeps f x).2.2.2

theorem selectRelease_port {f : SFrame} (bits : Nat) (w : Word) (hslave : rawSlave s p = true)
    (hf : (s.port p).sframe = some f) :
    ∃ (y : Port) (la : Word), (selectRelease p bits w s).port p = { y with lastarg := la } ∧ y.sframe = none ∧ y.inframe = false ∧
      (let r := releaseSent s f (bits % 32) (s.port p)
       y.nframe = (releaseRx r.1 (bits % 32) w r.2).nframe + 1 ∧ y.rxf = (releaseRx r.1 (bits % 32) w r.2).rxf) := by
  have hshape : ∃ (y : Port) (arg : Word) (k : Nat),
      selectRelease p bits w s = portEvent p 1 arg { s.setPort p y with free := k } ∧ y.sframe = none ∧
        y.inframe = false ∧ (let r := releaseSent s f (bits % 32) (s.port p)
          y.nframe = (releaseRx r.1 (bits % 32) w r.2).nframe + 1 ∧
            y.rxf = (releaseRx r.1 (bits % 32) w r.2).rxf) := by
    unfold selectRelease
    dsimp only
    rw [hf]
    dsimp only
    rw [if_pos hslave]
    exact ⟨_, _, _, rfl, rfl, rfl, rfl, rfl⟩
  obtain ⟨y, arg, k, hshape, hrest⟩ := hshape
  refine ⟨y, arg, ?_, hrest⟩
  have hport : ({ s.setPort p y with free := k } : State).port p = y := port_setPort_same s p y
  rw [hshape, portEvent_port, hport]

theorem selectRelease_does {f : SFrame} (bits : Nat) (w : Word) (hslave : rawSlave s p = true)
    (hf : (s.port p).sframe = some f) :
    ((selectRelease p bits w s).port p).sframe = none ∧ ((selectRelease p bits w s).port p).inframe = false ∧
      ((selectRelease p bits w s).port p).nframe = (s.port p).nframe + 1 ∧
      (∀ b, f.last = some b → bits % 32 = 0 → (s.port p).rxf.length < 16 →
        ((selectRelease p bits w s).port p).rxf = (s.port p).rxf ++ [(b, if f.got = 1 then 9 else 8)]) ∧
      (f.last = none → bits % 32 = 0 → ((selectRelease p bits w s).port p).rxf = (s.port p).rxf) ∧
      (f.last = none → bits % 32 ≠ 0 → (s.port p).rxf.length < 16 →
        ((selectRelease p bits w s).port p).rxf =
          (s.port p).rxf ++ [(BitVec.ofNat 32 (w.toNat % 2 ^ (bits % 32)), if f.got = 0 then 11 else 10)]) := by
  obtain ⟨y, la, hport, hsframe, hinframe, hnframe, hrxf⟩ := selectRelease_port bits w hslave hf
  have hsends := slaveSend_sent (if f.got = 0 then (bits % 32 + 7) / 8 - 1 else (bits % 32 + 7) / 8) (s.free + 1) f
    (releasePort f (bits % 32) (s.port p))
  change Sent _ f (releaseSent s f (bits % 32) (s.port p)).1 _ (releaseSent s f (bits % 32) (s.port p)).2 at hsends
  obtain ⟨hkrxf, hknframe⟩ := releasePort_rxf f (bits % 32) (s.port p)
  generalize releaseSent s f (bits % 32) (s.port p) = r at hsends hnframe hrxf
  obtain ⟨f', z⟩ := r
  obtain ⟨hgot, hlast, hzrxf, -, -, -, hznframe, -⟩ := hsends
  rw [hport]
  dsimp only at hnframe hrxf ⊢
  refine ⟨hsframe, hinframe, ?_, fun b hb h0 hroom => ?_, fun hb h0 => ?_, fun hb h0 hroom => ?_⟩
  · rw [hnframe, releaseRx_nframe, hznframe, hknframe]
  · rw [hrxf, releaseRx, if_pos h0, pushLast_some (hlast.trans hb), pushRx_room (by rw [hzrxf, hkrxf]; exact hroom),
      hgot, hzrxf, hkrxf]
  · rw [hrxf, releaseRx, if_pos h0, pushLast, hlast.trans hb, hzrxf, hkrxf]
  · rw [hrxf, releaseRx, if_neg h0, (pushHeld_cases f' z).1 (hlast.trans hb),
      pushRx_room (by rw [hzrxf, hkrxf]; exact hroom), partTag_eq, hgot, hzrxf, hkrxf]

/-! ## Multi-master detection -/

theorem abandonFrame_leaves (s : State) (p : PortId) :
    ((abandonFrame p s).2.port p).mframe = none ∧ ((abandonFrame p s).2.port p).inframe = false ∧
      ((abandonFrame p s).2.port p).nmmf = (s.port p).nmmf := by
  have hpush (fin : Bool) (m : MFrame) (x : Port) : (pushNewest fin m x).nmmf = x.nmmf := by
    unfold pushNewest
    split <;> rfl
  unfold abandonFrame
  dsimp only
  split
  · dsimp only
    rw [port_setPort_same]
    exact ⟨rfl, rfl, rfl⟩
  next m hm =>
    dsimp only
    generalize hflush : masterFlush p _ _ = u
    obtain ⟨rx, hport⟩ : ∃ rx, u.port p = _ := hflush ▸ masterFlush_port p _ _
    rw [hport, port_setPort_same]
    refine ⟨rfl, rfl, ?_⟩
    change (if _ then _ else _ : Port).nmmf = _
    split_ifs <;> simp [hpush]

theorem mmfDetect_holds
    (h : s.running = true ∧ hostOwns s p = false ∧ (s.port p).st = .run ∧ (s.port p).slave = false ∧
      (s.port p).mmd = true ∧ ((s.port p).inframe = false ∨ p = 1)) :
    ((mmfDetect p s).port p).st = .held ∧ ((mmfDetect p s).port p).mmf = true ∧
      ((mmfDetect p s).port p).nmmf = satInc (s.port p).nmmf ∧ ((mmfDetect p s).port p).mframe = none ∧
      ((mmfDetect p s).port p).inframe = false := by
  obtain ⟨hframe, hin, hcount⟩ := abandonFrame_leaves s p
  unfold mmfDetect
  dsimp only
  rw [if_pos h, portEvent_port, State.modPort, port_setPort_same]
  exact ⟨rfl, rfl, congrArg satInc hcount, hframe, hin⟩

theorem selectAssert_slave (hslave : rawSlave s p = true) (hin : (s.port p).inframe = false) :
    selectAssert p s = s.setPort p { s.port p with
      inframe := true, sframe := some ⟨0, none, false, (s.port p).txf.length⟩
      sent := [slaveStatus s (s.port p)] } := by
  have hfree : hostOwns s p = false := hostOwns_free (rawSlave_iff.mp hslave).2.1
  unfold selectAssert
  rw [hfree]
  exact (if_neg Bool.false_ne_true).trans (if_pos ⟨hslave, hin⟩)

end

/-- Settles O43: each frame event by its own equation, once no instruction has found it done already. -/
theorem portFrames : Obligations.PortFrames := by
  unfold Obligations.PortFrames
  intro s p rx w bits hearly
  dsimp only
  have hacts (i : Instr) (k : State → State) : Host.Outcome.next (unlessEarly i k s) = (.next (k s) : Out) :=
    congrArg Host.Outcome.next (unlessEarly_acts i k s (by rw [hearly]; exact List.not_mem_nil))
  have hstart : exec (.masterFrameStart p rx) s = .next (frameStart p rx s) := hacts ..
  have hresume : exec (.masterResume p) s = .next (frameResume p s) := hacts ..
  have hend : exec (.masterFrameEnd p) s = .next (frameEnd p s) := hacts ..
  have hassert : exec (.slaveSelectAssert p) s = .next (selectAssert p s) := hacts ..
  have hword : exec (.slaveWord p w) s = .next (slaveWord p w s) := hacts ..
  have hrelease : exec (.slaveSelectRelease p bits w) s = .next (selectRelease p bits w s) := hacts ..
  have hmmf : exec (.mmfDetect p) s = .next (mmfDetect p s) := hacts ..
  have hno : (¬((s.running = true ∧ ¬(p.val = 0 ∧ s.boot.mode = false ∧ s.boot.testEn = false) ∧
      (s.port p).st = .run ∧ (s.port p).slave = false ∧ (s.port p).mode = 0) ∧ (s.port p).mframe = none ∧
      (s.port p).txen = true ∧ (s.queue (s.port p).txq).st = .run ∧ (s.queue (s.port p).txq).cons = 1 ∧
      (s.queue (s.port p).txq).cinst = p.val) ∨ (s.queue (s.port p).txq).drain = []) → frameStart p rx s = s := by
    intro h
    by_cases hb : rawMaster s p = false ∨ (s.port p).mframe.isSome = true
    · exact frameStart_blocked rx hb
    · refine frameStart_none rx (nextTx_none (h.imp_left fun hs ⟨htxen, hst, hcons, hcinst⟩ => hs ?_))
      rw [not_or, Bool.not_eq_false, Bool.not_eq_true, Option.isSome_eq_false_iff, Option.isNone_iff_eq_none] at hb
      exact ⟨rawMaster_iff.mp hb.1, hb.2, htxen, hst, hcons, hcinst⟩
  rw [hstart, hresume, hend, hassert, hword, hrelease, hmmf]
  refine ⟨?_, ?_, ?_, ?_, ?_, ?_, fun h => congrArg Host.Outcome.next (hno h), ?_, ?_, ?_, ?_, ?_, ?_, ?_, ?_, ?_⟩
  · rintro d rest ⟨hm, hidle, htxen, hst, hcons, hcinst⟩ hf hq ⟨hheld, hfree⟩
    have hs : Sends s p := ⟨rawMaster_iff.mpr hm, hidle, htxen, hst, hcons, hcinst⟩
    rw [frameStart_word rx hs hf]
    obtain ⟨f, hl⟩ := startWord_leads rx hs.drains (by rw [hq]; exact List.cons_ne_nil d rest) ⟨hheld, hfree⟩
    obtain ⟨hwords, hsend, hline, -⟩ := hl.kept
    exact ⟨_, f, rfl, hl.frame, hl.inframe, hl.stage, hl.left, hl.rest, hwords, hsend, hline, hl.queues⟩
  · rintro d rest ⟨hm, hidle, htxen, hst, hcons, hcinst⟩ hf hq hmay haw ⟨hheld, hfree⟩
    have hs : Sends s p := ⟨rawMaster_iff.mpr hm, hidle, htxen, hst, hcons, hcinst⟩
    rw [frameStart_head rx hs hf hq (headOk_iff.mpr hmay)]
    obtain ⟨m, f, ha, haddr, hl⟩ := startHead_leads (a := none) (u := takenTx p d rest s) rx hs.drains hq
      (fun e => e.1 haw) ⟨hheld, hfree⟩ (if_neg fun e => e haw) rfl
    obtain ⟨hwords, hsend, hline, hcs, hcmd, -⟩ := hl.kept
    have hqueue : (startHead p rx s).queue (s.port p).txq = takenQueue (s.queue (s.port p).txq) d rest :=
      (congrArg (fun v => vget v (s.port p).txq) hl.queues).trans takenTx_queue
    have hbad : bit01 (decide (2 ≤ d.err)) + addressPoison none = if 2 ≤ d.err then 1 else 0 := by
      by_cases hd : 2 ≤ d.err
      · rw [if_pos hd, decide_eq_true hd]; rfl
      · rw [if_neg hd, decide_eq_false hd]; rfl
    refine ⟨_, f, rfl, hl.frame, hl.inframe, ⟨hl.stage, hl.left, hwords.trans ha.words, hsend.trans ha.send,
      hcs.trans ha.cs, ?_, hl.rest⟩, ?_, ?_, ?_⟩
    · rw [hcmd]; exact ha.cmd
    · rw [hqueue]; rfl
    · rw [hqueue]; rfl
    · rw [hl.npois, hbad]; rfl
  · rintro d a rest ⟨hm, hidle, htxen, hst, hcons, hcinst⟩ hf hq hmay haw ⟨hheld, hfree⟩
    have hs : Sends s p := ⟨rawMaster_iff.mpr hm, hidle, htxen, hst, hcons, hcinst⟩
    rw [frameStart_head rx hs hf hq (headOk_iff.mpr hmay)]
    have hsecond := takeTx_drains (d := a) (r := rest) (takenTx_drains (d := d) (r := a :: rest) hs.drains)
      (congrArg Queue.drain takenTx_queue)
    obtain ⟨m, f, ha, haddr, hl⟩ := startHead_leads rx hs.drains hq
      (by rw [hq]; exact fun e => absurd e.2 (by simp)) ⟨hheld, hfree⟩ ((if_pos haw).trans hsecond) rfl
    obtain ⟨hwords, hsend, hline, hcs, hcmd, hfaddr⟩ := hl.kept
    have hqueue : (startHead p rx s).queue (s.port p).txq =
        takenQueue (takenQueue (s.queue (s.port p).txq) d (a :: rest)) a rest := by
      refine (congrArg (fun v => vget v (s.port p).txq) hl.queues).trans ((takenTx_queue (p := p)).trans ?_)
      rw [takenTx_port, takenTx_queue]
    have hbad : bit01 (decide (2 ≤ d.err)) + addressPoison (some (a, decide (2 ≤ a.err))) =
        (if 2 ≤ d.err then 1 else 0) + (if 2 ≤ a.err then 1 else 0) := by
      have hbit (k : Nat) : bit01 (decide (2 ≤ k)) = if 2 ≤ k then 1 else 0 := by
        by_cases hd : 2 ≤ k
        · rw [if_pos hd, decide_eq_true hd]; rfl
        · rw [if_neg hd, decide_eq_false hd]; rfl
      rw [← hbit, ← hbit]; rfl
    refine ⟨_, f, rfl, hl.frame, ⟨hl.stage, hl.left, hwords.trans ha.words, hsend.trans ha.send,
      hcs.trans ha.cs, ?_, hl.rest⟩, ?_, ?_, ?_, ?_⟩
    · rw [hcmd]; exact ha.cmd
    · rw [hfaddr, haddr, BitVec.toNat_ofNat]
      exact Nat.mod_eq_of_lt (lt_of_le_of_lt (Nat.mod_le ..) a.w.isLt)
    · rw [hqueue]; rfl
    · rw [hqueue]
      change (s.queue (s.port p).txq).nget + 1 + 1 = _
      rw [BitVec.add_assoc]; rfl
    · rw [hl.npois, hbad]; rfl
  · rintro d ⟨hm, hidle, htxen, hst, hcons, hcinst⟩ hf hq hmay haw
    have hs : Sends s p := ⟨rawMaster_iff.mpr hm, hidle, htxen, hst, hcons, hcinst⟩
    rw [frameStart_head rx hs hf hq (headOk_iff.mpr hmay), startHead_waits rx hs.drains hq haw]
  · rintro d k ⟨hm, hidle, htxen, hst, hcons, hcinst⟩ hf hq hmay haw hheld hk
    have hs : Sends s p := ⟨rawMaster_iff.mpr hm, hidle, htxen, hst, hcons, hcinst⟩
    rw [frameStart_head rx hs hf hq (headOk_iff.mpr hmay), startHead_releases rx hs.drains hq haw hheld hk]
  · rintro d ⟨hm, hidle, htxen, hst, hcons, hcinst⟩ hf hq hmay
    have hs : Sends s p := ⟨rawMaster_iff.mpr hm, hidle, htxen, hst, hcons, hcinst⟩
    exact ⟨_, rfl, frameStart_skips rx hs hf hq (Bool.eq_false_iff.mpr fun e => hmay (headOk_iff.mp e))⟩
  · intro m hm hmf hstage
    have hgo := frameResume_goes (rawMaster_iff.mpr hm) hmf hstage
    refine ⟨fun hready => ?_, fun hready => ?_⟩
    · rw [hgo, if_neg (by rw [hready]; exact Bool.false_ne_true)]
    · rw [hgo, if_pos hready]
      cases hsend : m.send with
      | false =>
        obtain ⟨m', hmf', hst', hwords, hq⟩ := beginWord_receives (s := s) (p := p) hsend
        exact ⟨_, m', rfl, hmf', hst', hwords, fun e => absurd e Bool.false_ne_true, fun _ => hq⟩
      | true =>
        obtain ⟨hd, hne⟩ := wordReady_drains hready hsend
        obtain ⟨d, r, hq⟩ := List.exists_cons_of_ne_nil hne
        obtain ⟨m', hmf', hst', hwords, hcur, hdrain, hsent⟩ := beginWord_sends hd hq hsend
        refine ⟨_, m', rfl, hmf', hst', hwords, fun _ d' r' hq' => ?_, fun e => absurd e.symm Bool.false_ne_true⟩
        cases hq.symm.trans hq'
        exact ⟨hcur, hdrain, hsent⟩
  · intro m hm hmf
    refine ⟨fun hstage => ?_, fun hstage => ?_⟩
    · refine congrArg Host.Outcome.next ?_
      unfold frameEnd
      dsimp only
      rw [hmf]
      exact if_neg fun e => hstage e.2
    · rw [frameEnd_done (rawMaster_iff.mpr hm) hmf hstage]
      refine ⟨_, rfl, ?_⟩
      obtain ⟨hqueues, hlater⟩ := portEvent_rest (p := p) (s := s.setPort p { s.port p with
        mframe := none, nframe := (s.port p).nframe + 1, inframe := m.cont
        held := if m.cont then some m.cs else none
        freeAt := if m.cont then (s.port p).freeAt else twoPeriods s (s.port p) }) 1
        (BitVec.ofNat 32 (2 ^ 28 + bit01 m.pois * 2 ^ 14))
      rw [portEvent_port, hlater, hqueues, port_setPort_same]
      exact ⟨rfl, rfl, rfl, rfl, fun hc => if_neg (by rw [hc]; exact Bool.false_ne_true), ⟨rfl, rfl⟩, rfl⟩
  · intro hslave hin
    exact congrArg Host.Outcome.next (selectAssert_slave (rawSlave_iff.mpr hslave) hin)
  · intro hown hrun hready
    have hp : hostOwns s p = true := hostOwns_iff.mpr (not_not.mp hown)
    have hboth : (s.isReady .ports && s.running) = true := by rw [hready, hrun]; rfl
    refine ⟨_, congrArg Host.Outcome.next ((if_pos hp).trans (if_pos hboth)), rfl, rfl, ?_, rfl⟩
    exact congrArg Port.inframe (port_setPort_same ..)
  · intro hown hready hon
    have hp : hostOwns s p = true := hostOwns_iff.mpr (not_not.mp hown)
    have hnot : ¬(s.isReady .ports && s.running) = true := by rw [hready]; exact Bool.false_ne_true
    exact congrArg Host.Outcome.next
      ((if_pos hp).trans ((if_neg hnot).trans (if_pos (bne_iff_ne.mpr hon))))
  · intro f hslave hf
    obtain ⟨f', h⟩ := slaveWord_does w (rawSlave_iff.mpr hslave) hf
    exact ⟨_, f', rfl, h⟩
  · intro f hslave hf
    exact ⟨_, rfl, selectRelease_does bits w (rawSlave_iff.mpr hslave) hf⟩
  · intro hrun hfree hst hslave hmmd hin
    exact ⟨_, rfl, mmfDetect_holds ⟨hrun, hostOwns_free hfree, hst, hslave, hmmd, hin.imp_right Fin.ext⟩⟩
  · intro h
    refine congrArg Host.Outcome.next (if_neg ?_)
    rintro ⟨-, -, hst, hslave, hmmd, -⟩
    rcases h with h | h | h
    · exact Bool.false_ne_true (h.symm.trans hmmd)
    · exact Bool.false_ne_true (hslave.symm.trans h)
    · exact h hst

end Sys2Proof.Machine
end

section
/-!
PROOFS. Daisy and tether chains (spec/13_serial_ports.md section 13.7, spec/15_hive_fabric.md section 15.10).
-/
namespace Sys2Proof.Machine

section
variable {s u : State} {p : PortId}

/-! ## The words of a chain that reach RXQ -/

theorem deliverAll_port (l : List (Word × BitVec 4)) (s : State) (r : PortId) : (deliverAll p l s).port r = s.port r := by
  induction l generalizing s with
  | nil => rfl
  | cons a l ih => exact (ih _).trans (deliver_port ..)

/-- A port that fills its RXQ, with credit for a number of words. -/
structure Fills (s : State) (p : PortId) (n : Nat) : Prop where
  rxen : (s.port p).rxen = true
  st : (s.queue (s.port p).rxq).st = .run
  prod : (s.queue (s.port p).rxq).prod = 3
  pinst : (s.queue (s.port p).rxq).pinst = p.val
  cred : n ≤ (s.queue (s.port p).rxq).cred

variable {n : Nat}

theorem Fills.ours (h : Fills s p n) : rxOurs s p = true := by
  obtain ⟨hrxen, hst, hprod, hpinst, -⟩ := h
  simp only [rxOurs, hrxen, hst, hprod, hpinst]
  exact beq_self_eq_true p.val

theorem fills_iff : Fills s p n ↔ ((s.port p).rxen = true ∧ rxOurs s p = true ∧ (s.queue (s.port p).rxq).st = .run ∧
    n ≤ (s.queue (s.port p).rxq).cred) := by
  refine ⟨fun h => ⟨h.rxen, h.ours, h.st, h.cred⟩, fun ⟨hrxen, hours, hst, hcred⟩ => ?_⟩
  simp only [rxOurs, Bool.and_eq_true, beq_iff_eq, and_assoc] at hours
  obtain ⟨-, -, hprod, hpinst⟩ := hours
  exact ⟨hrxen, hst, hprod, hpinst, hcred⟩

theorem fills_of (h : (s.port p).rxen = true ∧ (s.queue (s.port p).rxq).st = .run ∧ (s.queue (s.port p).rxq).prod = 3 ∧
    (s.queue (s.port p).rxq).pinst = p.val ∧ n ≤ (s.queue (s.port p).rxq).cred) : Fills s p n := by
  obtain ⟨hrxen, hst, hprod, hpinst, hcred⟩ := h
  exact ⟨hrxen, hst, hprod, hpinst, hcred⟩

/-- One word of an item reaches RXQ. -/
theorem deliver_fills (h : Fills s p (n + 1)) (w : Word) (tag : BitVec 4) :
    Fills (deliver p w tag s) p n ∧
      ((deliver p w tag s).queue (s.port p).rxq).fill = (s.queue (s.port p).rxq).fill ++ [⟨w, tag, 0⟩] := by
  have hcred := h.cred
  have hwrite : deliver p w tag s = s.setQueue (s.port p).rxq { s.queue (s.port p).rxq with
      fill := (s.queue (s.port p).rxq).fill ++ [⟨w, tag, 0⟩], cred := (s.queue (s.port p).rxq).cred - 1
      nput := (s.queue (s.port p).rxq).nput + toWord 1 } := by
    refine (if_pos h.ours).trans ?_
    unfold writeItem
    dsimp only
    rw [if_neg (fun e => e h.st)]
    exact if_pos (le_trans (Nat.le_add_left ..) hcred)
  rw [hwrite]
  refine ⟨⟨h.rxen, ?_, ?_, ?_, ?_⟩, congrArg Queue.fill (queue_setQueue_same ..)⟩
  · exact (congrArg Queue.st (queue_setQueue_same ..)).trans h.st
  · exact (congrArg Queue.prod (queue_setQueue_same ..)).trans h.prod
  · exact (congrArg Queue.pinst (queue_setQueue_same ..)).trans h.pinst
  · refine le_of_le_of_eq (Nat.le_sub_of_add_le hcred) (Eq.symm ?_)
    exact congrArg Queue.cred (queue_setQueue_same ..)

theorem deliverAll_fill (l : List (Word × BitVec 4)) (h : Fills s p l.length) :
    ((deliverAll p l s).queue (s.port p).rxq).fill.map (·.w) =
      (s.queue (s.port p).rxq).fill.map (·.w) ++ l.map Prod.fst := by
  induction l generalizing s with
  | nil => exact (List.append_nil _).symm
  | cons a l ih =>
    obtain ⟨hfills, hfill⟩ := deliver_fills h a.1 a.2
    have hrest := ih hfills
    rw [deliver_port, hfill] at hrest
    refine hrest.trans ?_
    simp

theorem mapIdxFrom_fst {α β : Type} (f : Nat → α → β) (l : List α) (i : Nat) :
    (mapIdxFrom (fun i w => (w, f i w)) i l).map Prod.fst = l := by
  induction l generalizing i with
  | nil => rfl
  | cons a l ih => exact congrArg (a :: ·) (ih (i + 1))

theorem padWords_whole {ws : Words} (h : ws.length = n) : padWords n ws = ws := by
  rw [padWords, List.take_append_of_le_length (Nat.le_of_eq h.symm), ← h, List.take_length]

theorem length_mapIdxFrom {α β : Type} (f : Nat → α → β) (l : List α) (i : Nat) : (mapIdxFrom f i l).length = l.length := by
  induction l generalizing i with
  | nil => rfl
  | cons a l ih => exact congrArg (· + 1) (ih (i + 1))

/-! ## Members -/

theorem markerOf_eq (pois short : Bool) (pos : Nat) : markerOf pois short pos =
    BitVec.ofNat 16 (0x5A00 + (if pois then 128 else 0) + (if short then 64 else 0) + pos % 64) := by
  have : pos % 64 + put (bit01 short) 6 + put (bit01 pois) 7 + 0x5A00 =
      0x5A00 + (if pois then 128 else 0) + (if short then 64 else 0) + pos % 64 := by
    cases pois <;> cases short <;> simp only [put, bit01] <;> simp <;> omega
  rw [markerOf, this]

theorem markerFor_iff {mk : BitVec 16} {pos : Nat} :
    markerFor mk pos = true ↔ (mk.toNat / 256 = 0x5A ∧ mk.toNat % 64 = pos) := by
  rw [markerFor, Bool.and_eq_true, beq_iff_eq, beq_iff_eq]

theorem isMember_of (hrun : s.running = true) (hst : (s.port p).st = .run) (hslave : (s.port p).slave = true)
    (hmode : (s.port p).mode ≠ 0) : isMember s p = true := by
  simp [isMember, hrun, hst, hslave, hmode]

theorem hivePort_daisy {x : Port} (h : x.mode = 1) : hivePort x = false := by rw [hivePort, h]; rfl

theorem hivePort_tether {x : Port} (h : x.mode = 2) (hh : x.hive = true) : hivePort x = true := by
  rw [hivePort, h, hh]; rfl

theorem memberCapture_daisy (h : isMember s p = true) (hin : (s.port p).inframe = false) (hmode : (s.port p).mode = 1) :
    memberCapture p s = (s.setPort p (captureStage (s.port p) (2 + bit01 (Config.freeBool s.free)) s.time.clk
      s.time.hive)).nextFree := by
  unfold memberCapture
  dsimp only
  rw [h, hin, hivePort_daisy hmode]
  rfl

theorem memberCapture_tether (h : isMember s p = true) (hin : (s.port p).inframe = false)
    (hhive : hivePort (s.port p) = true) : memberCapture p s = captureTether p s := by
  unfold memberCapture
  dsimp only
  rw [h, hin, hhive]
  rfl

theorem captureTether_times {y : Peer} (hpeers : s.hive.peers = [y]) (hpos : y.pos = 0) :
    ((captureTether p s).port p).inframe = true ∧ ((captureTether p s).port p).capt = s.time.hive ∧
      (captureTether p s).hive.captNow = some s.time.hive ∧ (captureTether p s).hive.captPrev = s.hive.captNow := by
  have hfind : s.hive.peers.find? (fun q => q.pos == 0) = some y := by
    rw [hpeers]
    exact List.find?_cons_of_pos (by rw [hpos]; rfl)
  unfold captureTether
  dsimp only
  rw [hfind]
  dsimp only
  refine ⟨?_, ?_, rfl, rfl⟩
  · exact congrArg Port.inframe (port_setPort_same ..)
  · exact congrArg Port.capt (port_setPort_same ..)

/-- A latch with its bits valid: no break, long enough, with the marker of the position (R379). -/
def latchGood (x : Port) (bits : Nat) (g : Seg) : Bool :=
  !allOnes x.segw g && decide (segBits x.segw ≤ bits) && markerFor g.marker x.pos

/-- The port after a latch. -/
def latchedPort (x : Port) (bits : Nat) (g : Seg) : Port :=
  { captureSent x with
    inframe := false, nframe := x.nframe + 1
    sent := (bytesOfWords x.reg ++ (leBytes 2 (x.marks.headD 0).toNat).reverse).take (bits / 8)
    reg := padWords x.segw g.words, marks := [g.marker]
    lbu := if allOnes x.segw g then true else if latchGood x bits g then false else x.lbu
    nbreak := if allOnes x.segw g then satInc x.nbreak else x.nbreak
    nmark := if !allOnes x.segw g && !latchGood x bits g then satInc x.nmark else x.nmark }

/-- What a latch's event says (R385). -/
def latchArg (x : Port) (bits : Nat) (g : Seg) : Word :=
  portArg 2 (if allOnes x.segw g then stChain else if latchGood x bits g then stOk else stRange) 0 false
    ((x.marks.headD 0).getLsbD 7) false x.pos

/-- The words of a latch's segment, delivered when the segment is the member's own. -/
def latchDelivered (p : PortId) (bits : Nat) (g : Seg) (s : State) : State :=
  if latchGood (s.port p) bits g = true ∧ (s.port p).mode = 1 then
    deliverAll p (segmentItem (s.port p).segw g.words) (s.setPort p (latchedPort (s.port p) bits g))
  else s.setPort p (latchedPort (s.port p) bits g)

theorem memberLatch_bits {bits : Nat} {g : Seg} (h : isMember s p = true) (hin : (s.port p).inframe = true)
    (hbits : bits ≠ 0) :
    memberLatch p bits g s =
      if hivePort (s.port p) then latchTether (latchGood (s.port p) bits g) g
        (sentSegment (portEvent p 2 (latchArg (s.port p) bits g) (latchDelivered p bits g s)))
      else portEvent p 2 (latchArg (s.port p) bits g) (latchDelivered p bits g s) := by
  have hacts : ¬(isMember s p = false ∨ (s.port p).inframe = false) := by
    rw [h, hin]; exact fun e => e.elim Bool.noConfusion Bool.noConfusion
  exact (if_neg hacts).trans (if_neg hbits)

theorem latchDelivered_port (bits : Nat) (g : Seg) (s : State) :
    (latchDelivered p bits g s).port p = latchedPort (s.port p) bits g := by
  unfold latchDelivered
  split
  · rw [deliverAll_port, port_setPort_same]
  · rw [port_setPort_same]

variable {bits : Nat} {g : Seg}

/-- A DAISY member's latch is its segment's delivery and its event. -/
theorem memberLatch_daisy (h : isMember s p = true) (hin : (s.port p).inframe = true) (hmode : (s.port p).mode = 1)
    (hbits : bits ≠ 0) :
    memberLatch p bits g s = portEvent p 2 (latchArg (s.port p) bits g) (latchDelivered p bits g s) := by
  rw [memberLatch_bits h hin hbits, hivePort_daisy hmode]
  exact if_neg Bool.false_ne_true

theorem latchGood_iff (hones : allOnes (s.port p).segw g = false) : latchGood (s.port p) bits g = true ↔
    ((s.port p).segw * 32 + 16 ≤ bits ∧ g.marker.toNat / 256 = 0x5A ∧ g.marker.toNat % 64 = (s.port p).pos) := by
  rw [latchGood, hones, Bool.and_eq_true, markerFor_iff, Bool.not_false, Bool.true_and, decide_eq_true_iff]
  rfl

/-- A segment of the member's own is delivered word by word (R379). -/
theorem latchDelivered_fill (hgood : latchGood (s.port p) bits g = true) (hmode : (s.port p).mode = 1)
    (hf : Fills s p (s.port p).segw) (hlen : g.words.length = (s.port p).segw) :
    ((latchDelivered p bits g s).queue (s.port p).rxq).fill.map (·.w) =
      (s.queue (s.port p).rxq).fill.map (·.w) ++ g.words := by
  let z := s.setPort p (latchedPort (s.port p) bits g)
  have hz : z.port p = latchedPort (s.port p) bits g := port_setPort_same ..
  have hitem : (segmentItem (s.port p).segw g.words).map Prod.fst = g.words := by
    rw [segmentItem, padWords_whole hlen]; exact mapIdxFrom_fst ..
  have hsize : (segmentItem (s.port p).segw g.words).length = (s.port p).segw := by
    rw [segmentItem, padWords_whole hlen, length_mapIdxFrom, hlen]
  have hzf : Fills z p (segmentItem (s.port p).segw g.words).length := by
    obtain ⟨hrxen, hst, hprod, hpinst, hcred⟩ := hf
    rw [hsize]
    refine ⟨?_, ?_, ?_, ?_, ?_⟩ <;> rw [hz]
    exacts [hrxen, hst, hprod, hpinst, hcred]
  have hfill := deliverAll_fill _ hzf
  rw [hitem, hz] at hfill
  refine Eq.trans ?_ hfill
  rw [latchDelivered, if_pos ⟨hgood, hmode⟩]
  rfl

theorem latchDelivered_queues (hgood : latchGood (s.port p) bits g = false) :
    (latchDelivered p bits g s).queues = s.queues := by
  rw [latchDelivered, if_neg fun e => Bool.false_ne_true (hgood.symm.trans e.1)]
  rfl

theorem portEvent_queue (kind : Nat) (arg : Word) (q : QueueId) (s : State) :
    (portEvent p kind arg s).queue q = s.queue q := congrArg (fun v => vget v q) (portEvent_rest kind arg).1

/-- With no peer a tether's latch only notes its time. -/
theorem latchTether_alone (ok : Bool) (hpeers : s.hive.peers = []) :
    (latchTether ok g s).hive.latchAt = s.time.phys ∧ (latchTether ok g s).queues = s.queues ∧
      (latchTether ok g s).ports = s.ports := by
  have htimed (r : SegRead) (w : State) (hw : w.hive.peers = []) :
      (timeSample r w).hive.latchAt = w.hive.latchAt ∧ (timeSample r w).hive.peers = [] ∧
        (timeSample r w).queues = w.queues ∧ (timeSample r w).ports = w.ports := by
    unfold timeSample
    split
    · exact ⟨rfl, hw, rfl, rfl⟩
    · exact ⟨rfl, hw, rfl, rfl⟩
  have hsweep (r : SegRead) (rxt : Nat) (w : State) (hw : w.hive.peers = []) :
      (peerSweep 0 rxt r w).hive.latchAt = w.hive.latchAt ∧ (peerSweep 0 rxt r w).queues = w.queues ∧
        (peerSweep 0 rxt r w).ports = w.ports := by
    have hconfirm : confirmSegment 0 r w = w := by
      unfold confirmSegment; rw [hw]; rfl
    have hcount (ok : Bool) : countSweep 0 ok w = w := by
      unfold countSweep; rw [hw]; rfl
    rw [peerSweep, hconfirm, hcount]
    unfold takeSegment
    dsimp only
    rw [show (w.modHive (modPeer 0 fun q => { q with lost := !r.valid, rxOn := q.rxOn && r.valid })).hive.peers = [] by
      simp [State.modHive, modPeer, hw]]
    exact ⟨rfl, rfl, rfl⟩
  unfold latchTether
  dsimp only
  generalize (if ok then _ else _ : SegRead) = r
  obtain ⟨hat, hnone, hq, hp⟩ := htimed r (s.modHive (fun h => { h with latchAt := s.time.phys })) hpeers
  obtain ⟨hat', hq', hp'⟩ := hsweep r (((s.modHive (fun h => { h with latchAt := s.time.phys })).hive.captNow).getD 0) _ hnone
  exact ⟨hat'.trans hat, hq'.trans hq, hp'.trans hp⟩

/-! ## Sweeps -/

theorem isSweeper_of (hrun : s.running = true) (hst : (s.port p).st = .run) (hslave : (s.port p).slave = false)
    (hmode : (s.port p).mode ≠ 0) : isSweeper s p = true := by
  simp [isSweeper, hrun, hst, hslave, hmode]

theorem sweepStart_daisy (hmode : (s.port p).mode = 1) (hrun : isSweeper s p = true)
    (hin : (s.port p).inframe = false) (hfree : (s.port p).freeAt ≤ s.time.phys)
    (hn : (s.port p).pos * (s.port p).segw ≤ (s.port p).stage.length)
    (hcred : (s.port p).rxen = false ∨ Fills s p ((s.port p).pos * (s.port p).segw)) :
    sweepStart p s = beginSweep p (((s.port p).stage.take ((s.port p).pos * (s.port p).segw)).map (·.1))
      (((s.port p).stage.take ((s.port p).pos * (s.port p).segw)).countP (·.2.1))
      (s.setPort p { s.port p with
        stage := (s.port p).stage.drop ((s.port p).pos * (s.port p).segw), capt := s.time.hive }) := by
  have hgo : ¬(isSweeper s p = false ∨ (s.port p).inframe = true ∨ s.time.phys < (s.port p).freeAt) := by
    rw [hrun, hin]
    rintro (e | e | e)
    · exact Bool.false_ne_true e.symm
    · exact Bool.false_ne_true e
    · omega
  have hready := hcred.imp_right fun h => (fills_iff.mp h).2
  unfold sweepStart
  dsimp only
  rw [if_neg hgo, hivePort_daisy hmode]
  exact (if_neg Bool.false_ne_true).trans (if_pos ⟨hmode, hn, hready⟩)

/-- A sweep's words or its credit are not there: it does not start (R380). -/
theorem sweepStart_waits (hmode : (s.port p).mode = 1)
    (h : (s.port p).stage.length < (s.port p).pos * (s.port p).segw ∨
      ((s.port p).rxen = true ∧ ¬ Fills s p ((s.port p).pos * (s.port p).segw))) : sweepStart p s = s := by
  unfold sweepStart
  dsimp only
  split
  · rfl
  · rw [hivePort_daisy hmode]
    refine (if_neg Bool.false_ne_true).trans (if_neg ?_)
    rintro ⟨-, hn, hready⟩
    rcases h with h | ⟨hrxen, hnot⟩
    · omega
    · rcases hready with hoff | ⟨hours, hst, hcred⟩
      · exact Bool.false_ne_true (hoff.symm.trans hrxen)
      · exact hnot (fills_iff.mpr ⟨hrxen, hours, hst, hcred⟩)

/-- SEL's assertion at the start of a sweep. -/
theorem beginSweep_leads {ws : Words} {bad : Nat} (hheld : (s.port p).held = none) (hpos : 0 < (s.port p).pos) :
    ∃ f, (beginSweep p ws bad s).port p = { s.port p with
        reg := padWords ((s.port p).pos * (s.port p).segw) ws
        marks := (List.range (s.port p).pos).map (fun k => markerOf false false (k + 1))
        inframe := true, held := none, sent := [], npois := satAdd (s.port p).npois bad, mframe := some f } ∧
      f.stage = .lead ∧ f.rest = [(.shift, 2 * ((s.port p).pos * ((s.port p).segw * 32 + 16)))] := by
  let y : Port := { s.port p with
    reg := padWords ((s.port p).pos * (s.port p).segw) ws
    marks := (List.range (s.port p).pos).map (fun k => markerOf false false (k + 1)) }
  let z := s.setPort p y
  have hz : z.port p = y := port_setPort_same ..
  obtain ⟨f, hl⟩ := beginFrame_leads (s := z) (p := p) (m := MFrame.idle) (bad := bad)
    (phases := [(.shift, 2 * ((z.port p).pos * segBits (z.port p).segw))]) (by rw [hz]; exact hheld)
  have hbegin : beginSweep p ws bad s =
      beginFrame p MFrame.idle [(.shift, 2 * ((z.port p).pos * segBits (z.port p).segw))] bad z := rfl
  have hport := hl.port
  have hrest := hl.rest
  rw [← hbegin, hz] at hport
  rw [hz] at hrest
  have hlong : ((2 * (y.pos * segBits y.segw) : Nat) != 0) = true := by
    rw [bne_iff_ne]
    exact Nat.mul_ne_zero two_ne_zero (Nat.mul_ne_zero (Nat.pos_iff_ne_zero.mp hpos) (Nat.succ_ne_zero _))
  refine ⟨f, hport, hl.stage, hrest.trans ?_⟩
  exact List.filter_cons_of_pos (p := fun y : FStage × Nat => y.2 != 0) hlong

theorem beginSweep_inframe (ws : Words) (bad : Nat) : ((beginSweep p ws bad s).port p).inframe = true := by
  unfold beginSweep beginFrame nextStage
  dsimp only
  split
  · rw [port_setPort_same, port_setPort_same]
  · rw [if_pos (show MFrame.idle.words = 0 from rfl), port_setPort_same, port_setPort_same]

theorem beginSweep_hive (ws : Words) (bad : Nat) : (beginSweep p ws bad s).hive = s.hive := by
  unfold beginSweep beginFrame nextStage
  dsimp only
  split
  · rfl
  · rw [if_pos (show MFrame.idle.words = 0 from rfl)]; rfl

theorem noteSent_sel (q : Peer) (w : State) :
    (noteSent q w).hive.selNow = w.hive.selNow ∧ (noteSent q w).hive.selPrev = w.hive.selPrev := by
  unfold noteSent
  split
  · split
    · unfold markSent
      split <;> exact ⟨rfl, rfl⟩
    · exact ⟨rfl, rfl⟩
  · exact ⟨rfl, rfl⟩

theorem sweepStart_tether (hrun : isSweeper s p = true) (hin : (s.port p).inframe = false)
    (hfree : (s.port p).freeAt ≤ s.time.phys) (hhive : hivePort (s.port p) = true) (hdue : sweepDue s = true) :
    sweepStart p s = startTetherSweep p s := by
  have hgo : ¬(isSweeper s p = false ∨ (s.port p).inframe = true ∨ s.time.phys < (s.port p).freeAt) := by
    rw [hrun, hin]
    rintro (e | e | e)
    · exact Bool.false_ne_true e.symm
    · exact Bool.false_ne_true e
    · omega
  unfold sweepStart
  dsimp only
  rw [if_neg hgo, if_pos hhive, if_pos hdue]

theorem startTetherSweep_sel : ((startTetherSweep p s).port p).inframe = true ∧
    (startTetherSweep p s).hive.selNow = some s.time.hive ∧ (startTetherSweep p s).hive.selPrev = s.hive.selNow := by
  unfold startTetherSweep
  dsimp only
  rw [beginSweep_hive]
  refine ⟨beginSweep_inframe .., ?_⟩
  exact forEach_keeps (P := fun w : State => w.hive.selNow = some s.time.hive ∧ w.hive.selPrev = s.hive.selNow)
    (fun q w hw => by rw [(noteSent_sel q w).1, (noteSent_sel q w).2]; exact hw) _ ⟨rfl, rfl⟩

/-- The port and its event when a DAISY sweep's last half-period is over. -/
def sweepEnded (p : PortId) (segs : List Seg) (s : State) : State :=
  deliverAll p (sweepWords (s.port p).pos (s.port p).segw (byPosition (s.port p).pos segs)) (s.setPort p { s.port p with
    mframe := none, inframe := false, nframe := (s.port p).nframe + 1, freeAt := twoPeriods s (s.port p) })

def sweepArg (x : Port) (segs : List Seg) (pois : Bool) : Word :=
  let brk := highestGap (byPosition x.pos segs)
  portArg 3 (if brk = 0 then stOk else stChain) 0 false pois (brk != 0) brk

theorem sweepEnd_daisy {m : MFrame} {segs : List Seg} (hrun : isSweeper s p = true) (hm : (s.port p).mframe = some m)
    (hdone : m.stage = .done) (hmode : (s.port p).mode = 1) :
    sweepEnd p segs s = portEvent p 3 (sweepArg (s.port p) segs m.pois) (sweepEnded p segs s) := by
  have hgo : ¬(isSweeper s p = false ∨ m.stage ≠ .done) := by
    rw [hrun, hdone]
    exact fun e => e.elim Bool.noConfusion fun e => e rfl
  unfold sweepEnd
  dsimp only
  rw [hm]
  dsimp only
  rw [if_neg hgo, if_pos hmode, hivePort_daisy hmode]
  exact if_neg Bool.false_ne_true

theorem sweepEnded_port (segs : List Seg) : (sweepEnded p segs s).port p = { s.port p with
    mframe := none, inframe := false, nframe := (s.port p).nframe + 1, freeAt := twoPeriods s (s.port p) } := by
  rw [sweepEnded, deliverAll_port, port_setPort_same]

/-- With no segment received, the highest missing position is the last (R381). -/
theorem highestGap_none (n : Nat) : highestGap (byPosition n []) = n := by
  have hlist : byPosition n [] = mapIdxFrom (fun k o => (k, o)) 1 (List.replicate n none) := by
    rw [byPosition]
    simp
  have hfold (i k : Nat) (h : k + 1 ≤ i) :
      (mapIdxFrom (fun k o => (k, o)) i (List.replicate n (none : Option Seg))).foldl
        (fun m (x : Nat × Option Seg) => if (match x.2 with | some g => markerFor g.marker x.1 | none => false) then m else max m x.1)
        k = if n = 0 then k else i + n - 1 := by
    induction n generalizing i k with
    | zero => rfl
    | succ n ih =>
      rw [List.replicate_succ, mapIdxFrom, List.foldl_cons]
      have hmax : max k i = i := max_eq_right (by omega)
      simp only [Bool.false_eq_true, if_false, hmax]
      rw [ih (by rw [byPosition]; simp) (i + 1) i (Nat.le_refl _)]
      rw [if_neg (Nat.succ_ne_zero n)]
      by_cases hn : n = 0
      · rw [if_pos hn, hn]; rfl
      · rw [if_neg hn, Nat.add_right_comm, Nat.add_assoc]
  rw [hlist]
  refine (hfold 1 0 (Nat.le_refl _)).trans ?_
  split_ifs <;> omega

/-- The event of a sweep with a gap. -/
theorem sweepArg_gap {brk : Nat} (hpos : 0 < brk) (hlt : brk < 64) (pois : Bool) :
    (portArg 3 stChain 0 false pois (brk != 0) brk).toNat / 2 ^ 28 = 3 ∧
      (portArg 3 stChain 0 false pois (brk != 0) brk).toNat % 256 = 0x1B := by
  have hne : (brk != 0) = true := bne_iff_ne.mpr (Nat.pos_iff_ne_zero.mp hpos)
  have hst : stChain.toNat = 0x1B := rfl
  rw [portArg, hne, BitVec.toNat_ofNat, hst]
  cases pois <;> simp only [put, bit01, if_true, Bool.false_eq_true, if_false] <;> omega

theorem sweepArg_whole (pois : Bool) : (portArg 3 stOk 0 false pois false 0).toNat % 256 = 0 := by
  cases pois <;> decide

/-- A sweep of one member whose marker is right has no gap, and its words are the member's. -/
theorem byPosition_one : byPosition 1 [g] = [(1, some g)] := rfl

theorem highestGap_one (h : markerFor g.marker 1 = true) : highestGap [(1, some g)] = 0 := by
  simp [highestGap, h]

theorem sweepWords_one {w : Nat} (h : markerFor g.marker 1 = true) (hlen : g.words.length = w) :
    (sweepWords 1 w [(1, some g)]).map Prod.fst = g.words ∧ (sweepWords 1 w [(1, some g)]).length = w := by
  have hwords : sweepWords 1 w [(1, some g)] =
      mapIdxFrom (fun i x => (x, rxTag (i == 0) false false (i + 1 == w))) 0 g.words := by
    simp [sweepWords, h, padWords_whole hlen]
  rw [hwords]
  exact ⟨mapIdxFrom_fst .., (length_mapIdxFrom ..).trans hlen⟩

/-! ## Tether syncs -/

theorem applySample_valid {th : Frac} {tk : Nat} (h : s.time.valid = true) :
    (applySample th tk s).hive.lastSample = some s.time.hive ∧ (applySample th tk s).hive.syncIx = s.hive.syncIx ∧
      (applySample th tk s).hive.tsum = s.hive.tsum ∧ (applySample th tk s).hive.tcount = s.hive.tcount := by
  unfold applySample
  dsimp only
  rw [if_neg (show ¬(s.modHive _).time.valid = false from fun e => Bool.false_ne_true (e.symm.trans h))]
  exact ⟨rfl, rfl, rfl, rfl⟩

theorem applySample_first {th : Frac} {tk : Nat} (h : s.time.valid = false) :
    ∃ x ho, applySample th tk s = { s with hive := { s.hive with theta := ho }, later := s.later ++ [.sample x] } :=
  ⟨_, _, if_pos h⟩

theorem tetherSyncSample_does {a d : Nat} (hp : parentOf s = some (a, true, d)) (hrun : s.running = true)
    (hon : s.hive.on = true) (hteth : s.hive.teth = 2) (hix : s.hive.syncIx ≠ sreqInstants s) :
    tetherSyncSample s = (let w := s.modHive (fun h => { h with syncIx := sreqInstants s, tsum := 0, tcount := 0 })
      if s.hive.tcount = 0 then w else applySample (mkFrac s.hive.tsum (2 * s.hive.tcount)) s.hive.ts w) := by
  unfold tetherSyncSample
  rw [hp]
  exact if_pos ⟨hrun, hon, hteth, hix⟩

end

/-- Settles O44: each chain event by its own equation, once no instruction has found it done already. -/
theorem chainEvents : Obligations.ChainEvents := by
  unfold Obligations.ChainEvents
  intro s p bits g segs hearly
  dsimp only
  have hacts (i : Instr) (k : State → State) : Host.Outcome.next (unlessEarly i k s) = (.next (k s) : Out) :=
    congrArg Host.Outcome.next (unlessEarly_acts i k s (by rw [hearly]; exact List.not_mem_nil))
  have hcapture : exec (.memberCapture p) s = .next (memberCapture p s) := hacts ..
  have hlatch : exec (.memberLatch p bits g) s = .next (memberLatch p bits g s) := hacts ..
  have hstart : exec (.sweepStart p) s = .next (sweepStart p s) := hacts ..
  have hend : exec (.sweepEnd p segs) s = .next (sweepEnd p segs s) := hacts ..
  rw [hcapture, hlatch, hstart, hend]
  refine ⟨?_, ?_, ?_, ?_, ?_, ?_, ?_, ?_, ?_, ?_, ?_, ?_, ?_, ?_, ?_, ?_⟩
  · rintro ⟨⟨hrun, hst⟩, hmode⟩ hslave hin
    have hm := isMember_of hrun hst hslave (by rw [hmode]; exact Nat.one_ne_zero)
    rw [memberCapture_daisy hm hin hmode]
    refine ⟨_, rfl, ?_⟩
    rw [show ∀ w : State, w.nextFree.port p = w.port p from fun _ => rfl, port_setPort_same]
    refine ⟨rfl, rfl, rfl, rfl, rfl, ?_, rfl⟩
    rw [captureStage, markerOf_eq]
    simp only [decide_eq_true_eq]
  · rintro y ⟨⟨hrun, hst⟩, hmode, hhive⟩ hslave hin hpeers hpos
    have hm := isMember_of hrun hst hslave (by rw [hmode]; exact two_ne_zero)
    rw [memberCapture_tether hm hin (hivePort_tether hmode hhive)]
    exact ⟨_, rfl, captureTether_times hpeers hpos⟩
  · rintro - - - hin
    exact congrArg Host.Outcome.next (if_pos (Or.inr hin))
  · rintro ⟨⟨hrun, hst⟩, hmode⟩ hslave hin hbits
    have hm := isMember_of hrun hst hslave (by rw [hmode]; exact Nat.one_ne_zero)
    have hacts : ¬(isMember s p = false ∨ (s.port p).inframe = false) := by
      rw [hm, hin]; exact fun e => e.elim Bool.noConfusion Bool.noConfusion
    refine congrArg Host.Outcome.next ((if_neg hacts).trans ((if_pos hbits).trans ?_))
    rw [hivePort_daisy hmode]
    exact if_neg Bool.false_ne_true
  · rintro ⟨⟨hrun, hst⟩, hmode⟩ hslave hin hbits
    have hm := isMember_of hrun hst hslave (by rw [hmode]; exact Nat.one_ne_zero)
    rw [memberLatch_daisy hm hin hmode hbits]
    refine ⟨_, rfl, ?_⟩
    rw [portEvent_port, latchDelivered_port, (portEvent_rest ..).1]
    refine ⟨rfl, rfl, rfl, rfl, fun hones => ⟨?_, ?_, latchDelivered_queues ?_⟩, fun hones hlong hmine => ?_,
      fun hones hbad => ?_⟩
    · exact if_pos hones
    · exact if_pos hones
    · rw [latchGood, hones]; rfl
    · have hgood := (latchGood_iff hones).mpr ⟨hlong, hmine⟩
      refine ⟨?_, ?_, fun hcred hlen => ?_⟩
      · exact (if_neg (by rw [hones]; exact Bool.false_ne_true)).trans (if_pos hgood)
      · exact if_neg (by rw [hgood, Bool.not_true, Bool.and_false]; exact Bool.false_ne_true)
      · rw [portEvent_queue]
        exact latchDelivered_fill hgood hmode (fills_of hcred) hlen
    · have hgood : latchGood (s.port p) bits g = false := Bool.eq_false_iff.mpr fun e => by
        obtain ⟨hlong, hmine⟩ := (latchGood_iff hones).mp e
        rcases hbad with h | h
        · omega
        · exact h hmine
      exact ⟨if_pos (by rw [hgood, hones]; rfl), latchDelivered_queues hgood⟩
  · rintro ⟨⟨hrun, hst⟩, hmode, hhive⟩ hslave hin hbits hpeers
    have hm := isMember_of hrun hst hslave (by rw [hmode]; exact two_ne_zero)
    have hdelivered : latchDelivered p bits g s = s.setPort p (latchedPort (s.port p) bits g) :=
      if_neg fun e => absurd (hmode.symm.trans e.2) (by decide)
    rw [memberLatch_bits hm hin hbits, if_pos (hivePort_tether hmode hhive), hdelivered]
    let w := portEvent p 2 (latchArg (s.port p) bits g) (s.setPort p (latchedPort (s.port p) bits g))
    have hw : w.hive = s.hive ∧ w.time = s.time ∧ w.queues = s.queues := by
      unfold w portEvent
      dsimp only
      split <;> exact ⟨rfl, rfl, rfl⟩
    obtain ⟨hwhive, hwtime, hwq⟩ := hw
    have hsent : sentSegment w = w := by
      unfold sentSegment
      rw [hwhive, hpeers]
      rfl
    obtain ⟨hat, hq, hports⟩ := latchTether_alone (s := w) (g := g) (latchGood (s.port p) bits g)
      (by rw [hwhive]; exact hpeers)
    refine ⟨_, rfl, ?_⟩
    change ((latchTether _ g (sentSegment w)).port p).inframe = false ∧
      (latchTether _ g (sentSegment w)).hive.latchAt = _ ∧ (latchTether _ g (sentSegment w)).queues = _
    rw [hsent]
    refine ⟨?_, by rw [hat, hwtime], by rw [hq, hwq]⟩
    have hport : w.port p = { latchedPort (s.port p) bits g with lastarg := latchArg (s.port p) bits g } := by
      rw [portEvent_port, port_setPort_same]
    rw [State.port, hports]
    exact congrArg Port.inframe hport
  · rintro ⟨⟨hrun, hst⟩, hmode⟩ hslave hin hheld hfree hpos hn hcred
    have hsweep := isSweeper_of hrun hst hslave (by rw [hmode]; exact Nat.one_ne_zero)
    rw [sweepStart_daisy hmode hsweep hin hfree hn (hcred.imp_right fills_of)]
    generalize hz : s.setPort p _ = z
    have hzp : z.port p = { s.port p with
        stage := (s.port p).stage.drop ((s.port p).pos * (s.port p).segw), capt := s.time.hive } := by
      rw [← hz, port_setPort_same]
    obtain ⟨f, hport, hstage, hrest⟩ := beginSweep_leads (s := z) (p := p)
      (ws := ((s.port p).stage.take ((s.port p).pos * (s.port p).segw)).map (·.1))
      (bad := ((s.port p).stage.take ((s.port p).pos * (s.port p).segw)).countP (·.2.1))
      (by rw [hzp]; exact hheld) (by rw [hzp]; exact hpos)
    rw [hzp] at hport hrest
    refine ⟨_, f, rfl, ?_⟩
    rw [hport]
    refine ⟨rfl, rfl, rfl, padWords_whole ?_, ?_, rfl, hstage, hrest⟩
    · rw [List.length_map, List.length_take, Nat.min_eq_left hn]; rfl
    · refine List.map_congr_left fun k _ => ?_
      rw [markerOf_eq]
      rfl
  · rintro ⟨-, hmode⟩ - hwait
    exact congrArg Host.Outcome.next (sweepStart_waits hmode (hwait.imp_right fun h =>
      ⟨h.1, fun e => h.2 ⟨e.rxen, e.st, e.prod, e.pinst, e.cred⟩⟩))
  · rintro ⟨⟨hrun, hst⟩, hmode, hhive⟩ hslave hin hfree hdue
    have hsweep := isSweeper_of hrun hst hslave (by rw [hmode]; exact two_ne_zero)
    rw [sweepStart_tether hsweep hin hfree (hivePort_tether hmode hhive) hdue]
    exact ⟨_, rfl, startTetherSweep_sel⟩
  · rintro m ⟨⟨hrun, hst⟩, hmode⟩ hslave hm hdone
    have hsweep := isSweeper_of hrun hst hslave (by rw [hmode]; exact Nat.one_ne_zero)
    rw [sweepEnd_daisy hsweep hm hdone hmode]
    refine ⟨_, rfl, ?_⟩
    rw [portEvent_port, sweepEnded_port, portEvent_queue]
    refine ⟨rfl, rfl, rfl, fun hnone hpos hlt => ?_, fun hone hpos hmine => ?_⟩
    · dsimp only
      rw [sweepArg, hnone, highestGap_none, if_neg (Nat.pos_iff_ne_zero.mp hpos)]
      exact sweepArg_gap hpos hlt _
    · have hmark : markerFor g.marker 1 = true := markerFor_iff.mpr (by rw [← hpos]; exact hmine)
      refine ⟨?_, fun hcred hlen => ?_⟩
      · dsimp only
        rw [sweepArg, hone, hpos, byPosition_one, highestGap_one hmark]
        exact sweepArg_whole _
      · obtain ⟨hwords, hsize⟩ := sweepWords_one hmark hlen
        have hzf (y : Port) (hy : y.set = (s.port p).set) :
            Fills (s.setPort p y) p (sweepWords 1 (s.port p).segw [(1, some g)]).length := by
          obtain ⟨hrxen, hst, hprod, hpinst, hle⟩ := hcred
          have hrxq : y.rxq = (s.port p).rxq := by simp only [Port.rxq, Port.w, hy]
          have hen : y.rxen = (s.port p).rxen := by simp only [Port.rxen, Port.w, hy]
          rw [hsize]
          refine ⟨?_, ?_, ?_, ?_, ?_⟩ <;> rw [port_setPort_same]
          · rw [hen]; exact hrxen
          all_goals rw [hrxq]
          exacts [hst, hprod, hpinst, hle]
        rw [sweepEnded, hone, hpos, byPosition_one]
        generalize hy : ({ s.port p with
          mframe := none, inframe := false, nframe := (s.port p).nframe + 1
          freeAt := twoPeriods s (s.port p) } : Port) = y
        have hset : y.set = (s.port p).set := by rw [← hy]
        have hrxq : y.rxq = (s.port p).rxq := by simp only [Port.rxq, Port.w, hset]
        have hfill := deliverAll_fill _ (hzf y hset)
        rw [hwords, port_setPort_same, hrxq] at hfill
        exact hfill
  · intro hm
    refine congrArg Host.Outcome.next ?_
    unfold sweepEnd
    dsimp only
    rw [hm]
  · intro m hm hstage
    refine congrArg Host.Outcome.next ?_
    unfold sweepEnd
    dsimp only
    rw [hm]
    exact if_pos (Or.inr hstage)
  · rintro hp2 ⟨⟨hrun, hst⟩, hmode, hhive⟩ hslave hlate hpeers
    obtain rfl : p = 2 := Fin.ext hp2
    have hon : tetherOn s = true := by rw [tetherOn, hrun, hhive, hst]; rfl
    refine congrArg Host.Outcome.next ((if_pos ⟨rfl, hon, hslave, hlate⟩).trans ?_)
    unfold countSweep
    rw [show (s.modHive (fun h => { h with latchAt := s.time.phys })).hive.peers = [] from hpeers]
    rfl
  · intro h
    refine congrArg Host.Outcome.next (if_neg ?_)
    rintro ⟨hp2, -, -, hlate⟩
    rcases h with h | h
    · exact h (by rw [hp2]; rfl)
    · omega
  · intro a d m hp hrun hon hteth hnow hix hne
    have hm : sreqInstants s = m := by
      rw [hix]; exact if_neg (Nat.not_lt.mpr hnow)
    change ∃ u, Host.Outcome.next (tetherSyncSample s) = .next u ∧ _
    rw [tetherSyncSample_does hp hrun hon hteth (by rw [hm]; exact hne), hm]
    dsimp only
    by_cases ht : s.hive.tcount = 0
    · rw [if_pos ht]
      exact ⟨_, rfl, rfl, rfl, rfl, fun _ => rfl, fun h => absurd ht h, fun h => absurd ht h⟩
    · rw [if_neg ht]
      cases hv : s.time.valid with
      | false =>
        obtain ⟨x, ho, he⟩ := applySample_first (th := mkFrac s.hive.tsum (2 * s.hive.tcount)) (tk := s.hive.ts)
          (s := s.modHive (fun h => { h with syncIx := m, tsum := 0, tcount := 0 })) hv
        rw [he]
        exact ⟨_, rfl, rfl, rfl, rfl, fun h => absurd h ht, fun _ _ => ⟨rfl, _, rfl⟩,
          fun _ h => absurd h Bool.false_ne_true⟩
      | true =>
        obtain ⟨hlast, hsync, hsum, hcount⟩ := applySample_valid (th := mkFrac s.hive.tsum (2 * s.hive.tcount))
          (tk := s.hive.ts) (s := s.modHive (fun h => { h with syncIx := m, tsum := 0, tcount := 0 })) hv
        exact ⟨_, rfl, hsync, hsum, hcount, fun h => absurd h ht, fun _ h => absurd h.symm Bool.false_ne_true,
          fun _ _ => hlast⟩
  · intro hp
    change Host.Outcome.next (tetherSyncSample s) = _
    refine congrArg Host.Outcome.next ?_
    unfold tetherSyncSample
    rw [hp]

end Sys2Proof.Machine
end

section
/-!
PROOFS. Frames and messages on the radio (spec/15_hive_fabric.md sections 15.5 and 15.7, R425).
-/
namespace Sys2Proof.Machine

/-- An E2E message that has been sent once and waits for its report. -/
def sentMsg : HMsg := ⟨0, 1, true, 0, 0, 1, some 0, none⟩

/-- Its frame, sent again, with more tries than RETRY allows. -/
def triedEntry : TxEnt := ⟨⟨0, 0, 1, true, 3, 0, 0, 0, 0, [], .short⟩, 1, true, 0, 8, 0, 0, none, .msg 0⟩

/-- A running device whose wait for the acknowledgement of that frame is over. -/
def exhaustedState : State :=
  { State.reset with
    time := { TimeSt.reset with mode := .running }
    hive := { HiveSt.reset with msgs := [sentMsg], await := some (triedEntry, 0) } }

/-- A retry run that is exhausted leaves the buffer of an E2E message that was sent before (R425). -/
theorem macAckTimeout_keepsSent : (macAckTimeout exhaustedState).hive.msgs = [sentMsg] := by
  decide +kernel

/-- Refutes O36: an E2E message that has been sent once does not end when a later run of its frame exhausts RETRY; it
ends with its report or after 1 s (R425). In `exhaustedState` such a message stays in the buffer. -/
theorem not_messageEvents : ¬ Obligations.MessageEvents := by
  unfold Obligations.MessageEvents
  intro h
  obtain ⟨-, -, -, -, -, -, hwait, -⟩ :=
    h exhaustedState default ⟨triedEntry.f, false, 0, none, 0, false, false, 0, false⟩ triedEntry [] 0 0 rfl
  obtain ⟨-, hfail⟩ := hwait 0 rfl rfl (Nat.zero_le _)
  obtain ⟨u, hu, -, hends⟩ := hfail (by decide +kernel)
  cases hu
  obtain ⟨w, -, hgone⟩ := hends sentMsg rfl rfl
  refine hgone sentMsg ?_ rfl
  rw [show unlessEarly .macAckTimeout macAckTimeout exhaustedState = macAckTimeout exhaustedState from rfl,
    macAckTimeout_keepsSent]
  exact List.mem_singleton_self _

end Sys2Proof.Machine
end

section
/-!
PROOFS. Route advertisements, candidates and the cache (spec/15_hive_fabric.md section 15.6), and what frames heard and
frames queued have in common.
-/
namespace Sys2Proof.Machine

/-! ## Frames that join the queues -/

/-- What queueing frames may change: they join the radio's queue, and the tether's peers, the counters, the duplicate
cache and the events of the next clock move. -/
def Joined (es : List TxEnt) (s u : State) : Prop :=
  ∃ lt fc sq ms ps dk, u = { s with later := lt, hive := { s.hive with
    fc := fc, seq := sq, mseq := ms, peers := ps, dups := dk, txq := s.hive.txq ++ es } }

section
variable {s u w : State} {es es' : List TxEnt}

theorem Joined.refl (s : State) : Joined [] s s :=
  ⟨s.later, s.hive.fc, s.hive.seq, s.hive.mseq, s.hive.peers, s.hive.dups, by rw [List.append_nil]⟩

theorem Joined.trans (h : Joined es s u) (h' : Joined es' u w) : Joined (es ++ es') s w := by
  obtain ⟨lt, fc, sq, ms, ps, dk, rfl⟩ := h
  obtain ⟨lt', fc', sq', ms', ps', dk', rfl⟩ := h'
  exact ⟨lt', fc', sq', ms', ps', dk', by rw [← List.append_assoc]⟩

theorem TetherQueued.joined (h : TetherQueued s u) : Joined [] s u := by
  obtain ⟨lt, fc, sq, ps, rfl⟩ := h
  exact ⟨lt, fc, sq, s.hive.mseq, ps, s.hive.dups, by rw [List.append_nil]⟩

theorem enqueueRadio_joined (f : HFrame) (dst : Nat) (ack : Bool) (for_ : TxFor) (s : State) :
    Joined [⟨f, dst, ack, s.hive.seq, 0, 0, s.hive.minbe, none, for_⟩] s (enqueueRadio f dst ack for_ s) :=
  ⟨_, _, _, _, _, _, rfl⟩

theorem protoFrame_joined (typ fdest hleft : Nat) (src : MacSrc) (body : List Byte) (s : State) :
    Joined [] s (protoFrame typ fdest hleft src body s).2 :=
  ⟨s.later, s.hive.fc, s.hive.seq, _, s.hive.peers, s.hive.dups, by rw [List.append_nil]; rfl⟩

theorem noteKey_joined (k : DupKey) (s : State) : Joined [] s (noteKey k s) :=
  ⟨s.later, s.hive.fc, s.hive.seq, s.hive.mseq, s.hive.peers, _, by rw [List.append_nil]; rfl⟩

/-- What a run of steps queues, when each step queues one frame of its own kind. -/
theorem Joined.forEach {α : Type} {f : α → State → State} {Q : α → TxEnt → Prop}
    (h : ∀ a u, ∃ es, Joined es u (f a u) ∧ ∃ e ∈ es, Q a e) (l : List α) (s : State) :
    ∃ es, Joined es s (forEach l f s) ∧ ∀ a ∈ l, ∃ e ∈ es, Q a e := by
  induction l generalizing s with
  | nil => exact ⟨[], .refl s, fun a ha => absurd ha List.not_mem_nil⟩
  | cons a l ih =>
    obtain ⟨es, hes, e, he, hq⟩ := h a s
    obtain ⟨es', hes', hall⟩ := ih (f a s)
    refine ⟨es ++ es', hes.trans hes', fun b hb => ?_⟩
    rcases List.mem_cons.mp hb with rfl | hb
    · exact ⟨e, List.mem_append_left _ he, hq⟩
    · obtain ⟨e', he', hq'⟩ := hall b hb
      exact ⟨e', List.mem_append_right _ he', hq'⟩

theorem Joined.forEach_some {α : Type} {f : α → State → State} (h : ∀ a u, ∃ es, Joined es u (f a u)) (l : List α)
    (s : State) : ∃ es, Joined es s (Machine.forEach l f s) :=
  forEach_keeps (P := fun u => ∃ es, Joined es s u)
    (fun a u ⟨_, hu⟩ => by obtain ⟨es', h'⟩ := h a u; exact ⟨_, hu.trans h'⟩) l ⟨[], .refl s⟩

theorem sendVia_radio (f : HFrame) (next : Nat) (for_ : TxFor) (s : State) :
    Joined [⟨f, next, true, s.hive.seq, 0, 0, s.hive.minbe, none, for_⟩] s (sendVia f next false for_ s) :=
  enqueueRadio_joined ..

theorem sendVia_tether {for_ : TxFor} (h : ∀ id, for_ ≠ .msg id) (f : HFrame) (next : Nat) (s : State) :
    Joined [] s (sendVia f next true for_ s) := by
  unfold sendVia
  rw [if_pos rfl]
  split
  · exact (enqueueTether_queued h s).joined
  · exact .refl s

theorem runsOf_ne_nil {α : Type} {l : List α} (h : l.isEmpty = false) (k n : Nat) : runsOf k (n + 1) l ≠ [] := by
  rw [runsOf, h]
  exact fun e => List.cons_ne_nil _ _ e

/-- An advertisement to a neighbour is at least one frame (R420). -/
theorem advertise_radio (a : Nat) (s : State) : ∃ es, Joined es s (advertise a false s) ∧
    ∃ e ∈ es, e.f.typ = 7 ∧ e.dst = a ∧ e.ack = true ∧ e.f.hleft = 0 := by
  unfold advertise
  dsimp only
  generalize hruns : (if (advPairs s.hive a false).isEmpty then _ else _ : List (List (List Byte))) = runs
  have hne : runs ≠ [] := by
    rw [← hruns]
    cases hp : (advPairs s.hive a false).isEmpty with
    | true => exact fun e => List.cons_ne_nil _ _ e
    | false => exact runsOf_ne_nil hp 46 3
  obtain ⟨l, r, rfl⟩ := List.exists_cons_of_ne_nil hne
  obtain ⟨es, hes, hall⟩ := Joined.forEach
    (Q := fun _ e => e.f.typ = 7 ∧ e.dst = a ∧ e.ack = true ∧ e.f.hleft = 0)
    (f := fun (l : List (List Byte)) s =>
      sendVia (protoFrame 7 a 0 .short l.flatten s).1 a false .proto (protoFrame 7 a 0 .short l.flatten s).2)
    (fun l u => ⟨_, (protoFrame_joined 7 a 0 .short l.flatten u).trans (sendVia_radio ..), _, List.mem_singleton_self _,
      rfl, rfl, rfl, rfl⟩) (l :: r) s
  exact ⟨es, hes, hall l List.mem_cons_self⟩

theorem advertise_tether (a : Nat) (s : State) : ∃ es, Joined es s (advertise a true s) :=
  Joined.forEach_some (fun l u => ⟨_, (protoFrame_joined 7 a 0 .short l.flatten u).trans
    (sendVia_tether (fun _ => TxFor.noConfusion) ..)⟩) _ s

/-! ## Frames that are heard -/

/-- What accepting a frame of the radio may change (R428, R444). -/
theorem acceptPkt_only (lqi rssi : Byte) (rxt : Nat) (p : RxPkt) (s : State) :
    ∃ le a n b o, acceptPkt ⟨true, 0, lqi, rssi, rxt⟩ p s = { s with hive := { s.hive with
        nrx := satInc s.hive.nrx, leases := le, air := a, ntx := n, busyTo := b, busyFor := o } } ∧
      (le = s.hive.leases ∨ ∃ v, p.sec = true ∧
        le = vmap (Option.map (fun l => if l.uid = v then { l with fc := some p.fc } else l)) s.hive.leases) := by
  unfold acceptPkt
  dsimp only
  generalize hu : s.modHive _ = u
  have hcounted : ∃ le, (le = s.hive.leases ∨ ∃ v, p.sec = true ∧
      le = vmap (Option.map (fun l => if l.uid = v then { l with fc := some p.fc } else l)) s.hive.leases) ∧
      u = { s with hive := { s.hive with nrx := satInc s.hive.nrx, leases := le } } := by
    have hradio : ¬(true = false ∧ p.ext = false ∧ p.f.htaken ≤ 1) := fun e => Bool.noConfusion e.1
    rw [← hu, State.modHive]
    dsimp only
    rw [if_neg hradio]
    cases p.uid with
    | none => exact ⟨s.hive.leases, Or.inl rfl, rfl⟩
    | some v =>
      cases hsec : p.sec with
      | false => exact ⟨s.hive.leases, Or.inl rfl, rfl⟩
      | true => exact ⟨_, Or.inr ⟨v, rfl, rfl⟩, rfl⟩
  obtain ⟨le, hle, rfl⟩ := hcounted
  split
  · exact ⟨le, _, _, _, _, rfl, hle⟩
  · exact ⟨le, s.hive.air, s.hive.ntx, s.hive.busyTo, s.hive.busyFor, rfl, hle⟩

section
variable {fr : RxFrame} {p : RxPkt} {typ : Nat}

theorem radioRx_frame (hr : received fr s = true) (hc : classify s fr.psdu = .frame p) (ht : p.f.typ = typ) :
    radioRx typ fr s = onFrame ⟨true, 0, fr.lqi, fr.rssi, s.time.hive - fr.ago⟩ p s := by
  rw [radioRx, if_pos hr, hearFrame, hc]
  exact if_pos (beq_iff_eq.mpr ht)

theorem radioRx_counted (hr : received fr s = true) :
    (classify s fr.psdu = .mic → radioRx typ fr s = s.modHive (fun h => { h with nmic := satInc h.nmic })) ∧
    (classify s fr.psdu = .replay → radioRx typ fr s = s.modHive (fun h => { h with nreplay := satInc h.nreplay })) ∧
    (classify s fr.psdu = .foreign ∨ classify s fr.psdu = .ignore → radioRx typ fr s = s) := by
  have h : radioRx typ fr s =
      hearFrame ⟨true, 0, fr.lqi, fr.rssi, s.time.hive - fr.ago⟩ (· == typ) fr.psdu s := if_pos hr
  rw [h]
  refine ⟨fun hc => ?_, fun hc => ?_, fun hc => ?_⟩
  · rw [hearFrame, hc]
  · rw [hearFrame, hc]
  · rcases hc with hc | hc <;> rw [hearFrame, hc]

end

/-! ## Candidates and entries -/

variable {h : HiveSt}

theorem reselect_only (h : HiveSt) (d : Nat) : ∃ r n, reselect h d = { h with routes := r, advNew := n } ∧
    ∀ j, j ≠ d → vgetD r j Route.none = vgetD h.routes j Route.none := by
  unfold reselect
  dsimp only
  split
  · exact ⟨h.routes, h.advNew, rfl, fun _ _ => rfl⟩
  · refine ⟨_, _, rfl, fun j hj => ?_⟩
    rw [vgetD_vsetD, if_neg fun e => hj e.1.symm]

theorem reselects_only (l : List Nat) (h : HiveSt) : ∃ r n, l.foldl reselect h = { h with routes := r, advNew := n } ∧
    ∀ j, j ∉ l → vgetD r j Route.none = vgetD h.routes j Route.none := by
  induction l generalizing h with
  | nil => exact ⟨h.routes, h.advNew, rfl, fun _ _ => rfl⟩
  | cons d l ih =>
    obtain ⟨r, n, he, hr⟩ := reselect_only h d
    obtain ⟨r', n', he', hr'⟩ := ih (reselect h d)
    rw [he] at he' hr'
    refine ⟨r', n', ?_, fun j hj => ?_⟩
    · rw [List.foldl_cons, he]; exact he'
    · rw [hr' j fun e => hj (List.mem_cons_of_mem _ e), hr j fun e => hj (e ▸ List.mem_cons_self)]

theorem dropCands_only (bad : RouteCand → Bool) (h : HiveSt) : ∃ r n,
    dropCands bad h = { h with cands := h.cands.filter (fun c => !bad c), routes := r, advNew := n } ∧
      ∀ j, (∀ c, bad c = true → c.dest ≠ j) → vgetD r j Route.none = vgetD h.routes j Route.none := by
  obtain ⟨r, n, he, hr⟩ := reselects_only ((h.cands.filter bad).map (·.dest))
    { h with cands := h.cands.filter (fun c => !bad c) }
  refine ⟨r, n, he, fun j hj => hr j fun hmem => ?_⟩
  obtain ⟨c, hc, rfl⟩ := List.mem_map.mp hmem
  exact hj c (List.mem_filter.mp hc).2 rfl

theorem putCand_only (c : RouteCand) (h : HiveSt) : ∃ r n, putCand c h = { h with
    cands := c :: h.cands.filter (fun x => !(x.dest == c.dest && x.next == c.next && x.tlink == c.tlink))
    routes := r, advNew := n } := by
  obtain ⟨r, n, he, -⟩ := reselect_only { h with
    cands := c :: h.cands.filter (fun x => !(x.dest == c.dest && x.next == c.next && x.tlink == c.tlink)) } c.dest
  exact ⟨r, n, he⟩

theorem mem_putCand {c x : RouteCand} : x ∈ (putCand c h).cands ↔
    x = c ∨ (x ∈ h.cands ∧ ¬(x.dest = c.dest ∧ x.next = c.next ∧ x.tlink = c.tlink)) := by
  obtain ⟨r, n, he⟩ := putCand_only c h
  rw [he]
  simp only [List.mem_cons, List.mem_filter, Bool.not_eq_true', ← Bool.not_eq_true, Bool.and_eq_true, beq_iff_eq,
    and_assoc]

/-- What one entry of an advertisement does: its destination becomes a candidate through the sender. -/
def hearEntry (src now : Nat) (tl : Bool) (h : HiveSt) (e : Nat × Nat) : HiveSt :=
  if e.1 = 0 ∨ e.1 = 0x7F ∨ e.1 = h.addr ∨ e.1 = src ∨ 4 < e.2 + 1 then h else putCand ⟨e.1, src, tl, e.2 + 1, now⟩ h

/-- What hearing entries may change. -/
def CandsHeard (h g : HiveSt) : Prop := ∃ cs r n, g = { h with cands := cs, routes := r, advNew := n }

theorem putCand_heard (c : RouteCand) (h : HiveSt) : CandsHeard h (putCand c h) := by
  obtain ⟨r, n, he⟩ := putCand_only c h
  exact ⟨_, r, n, he⟩

variable {src now : Nat} {tl : Bool} {l : List (Nat × Nat)}

theorem hearEntry_addr (e : Nat × Nat) : (hearEntry src now tl h e).addr = h.addr := by
  unfold hearEntry
  split
  · rfl
  · obtain ⟨_, _, _, he⟩ := putCand_heard ⟨e.1, src, tl, e.2 + 1, now⟩ h
    rw [he]

/-- The candidates that are confirmed now through the sender. -/
def Confirmed (src now : Nat) (tl : Bool) (h : HiveSt) (d : Nat) : Prop :=
  ∃ x ∈ h.cands, x.dest = d ∧ x.next = src ∧ x.tlink = tl ∧ x.seen = now

theorem putCand_confirmed {d n : Nat} : Confirmed src now tl (putCand ⟨d, src, tl, n, now⟩ h) d :=
  ⟨_, mem_putCand.mpr (Or.inl rfl), rfl, rfl, rfl, rfl⟩

theorem hearEntry_confirmed {d : Nat} (e : Nat × Nat) (hc : Confirmed src now tl h d) :
    Confirmed src now tl (hearEntry src now tl h e) d := by
  unfold hearEntry
  split
  · exact hc
  · by_cases hd : d = e.1
    · subst hd; exact putCand_confirmed
    · obtain ⟨x, hx, hdest, hrest⟩ := hc
      exact ⟨x, mem_putCand.mpr (Or.inr ⟨hx, fun h => hd (hdest.symm.trans h.1)⟩), hdest, hrest⟩

theorem hearEntries_confirmed {d : Nat} (hc : Confirmed src now tl h d) :
    Confirmed src now tl (l.foldl (hearEntry src now tl) h) d := by
  induction l generalizing h with
  | nil => exact hc
  | cons e l ih => exact ih (hearEntry_confirmed e hc)

theorem hearEntries_confirm {e : Nat × Nat} (he : e ∈ l) (h0 : e.1 ≠ 0) (h127 : e.1 ≠ 127) (ha : e.1 ≠ h.addr)
    (hs : e.1 ≠ src) (hn : e.2 ≤ 3) : Confirmed src now tl (l.foldl (hearEntry src now tl) h) e.1 := by
  induction l generalizing h with
  | nil => exact absurd he List.not_mem_nil
  | cons x l ih =>
    rcases List.mem_cons.mp he with rfl | he
    · have hput : hearEntry src now tl h e = putCand ⟨e.1, src, tl, e.2 + 1, now⟩ h :=
        if_neg fun hbad => by
          rcases hbad with h | h | h | h | h
          exacts [h0 h, h127 h, ha h, hs h, absurd h (by omega)]
      rw [List.foldl_cons, hput]
      exact hearEntries_confirmed putCand_confirmed
    · exact ih he (by rw [hearEntry_addr]; exact ha)

/-- A candidate for the sender itself is kept: no entry is taken for it. -/
theorem hearEntries_keeps {x : RouteCand} (hx : x ∈ h.cands) (hd : x.dest = src) :
    x ∈ (l.foldl (hearEntry src now tl) h).cands := by
  induction l generalizing h with
  | nil => exact hx
  | cons e l ih =>
    refine ih ?_
    unfold hearEntry
    split
    · exact hx
    next hgood =>
      refine mem_putCand.mpr (Or.inr ⟨hx, fun hsame => hgood ?_⟩)
      exact Or.inr (Or.inr (Or.inr (Or.inl (hsame.1.symm.trans hd))))

/-- Every candidate was there before or comes from an entry. -/
theorem hearEntries_mem {x : RouteCand} (hx : x ∈ (l.foldl (hearEntry src now tl) h).cands) :
    x ∈ h.cands ∨ (x.next = src ∧ x.hops ≤ 4 ∧ x.dest ≠ h.addr) := by
  induction l generalizing h with
  | nil => exact Or.inl hx
  | cons e l ih =>
    rcases ih hx with hx | ⟨hnext, hhops, hdest⟩
    · unfold hearEntry at hx
      split at hx
      · exact Or.inl hx
      next hgood =>
        rcases mem_putCand.mp hx with rfl | ⟨hx, -⟩
        · simp only [not_or, Nat.not_lt] at hgood
          obtain ⟨-, -, ha, -, hn⟩ := hgood
          exact Or.inr ⟨rfl, hn, ha⟩
        · exact Or.inl hx
    · rw [hearEntry_addr] at hdest
      exact Or.inr ⟨hnext, hhops, hdest⟩

/-! ## The events -/

theorem routeadvSend_sends (h : s.running = true ∧ s.hive.st = .run ∧
    (s.hive.advNew = true ∨ s.hive.advAt + 1920000000 ≤ s.time.hive)) :
    ∃ es, Joined es { s with hive := { s.hive with advNew := false, advAt := s.time.hive } } (routeadvSend s) ∧
      ∀ n ∈ s.hive.nbrs, ∃ e ∈ es, e.f.typ = 7 ∧ e.dst = n.addr ∧ e.ack = true ∧ e.f.hleft = 0 := by
  obtain ⟨es, hes, hall⟩ := Joined.forEach (Q := fun a e => e.f.typ = 7 ∧ e.dst = a ∧ e.ack = true ∧ e.f.hleft = 0)
    (f := fun a s => advertise a false s) advertise_radio (s.hive.nbrs.map (·.addr))
    { s with hive := { s.hive with advNew := false, advAt := s.time.hive } }
  obtain ⟨es', hes'⟩ := Joined.forEach_some (f := fun a s => advertise a true s) advertise_tether
    ((s.hive.peers.filter (fun p => p.up && p.addr != 0)).map (·.addr)) (Machine.forEach (s.hive.nbrs.map (·.addr))
      (fun a s => advertise a false s) { s with hive := { s.hive with advNew := false, advAt := s.time.hive } })
  have hsend : routeadvSend s = Machine.forEach ((s.hive.peers.filter (fun p => p.up && p.addr != 0)).map (·.addr))
      (fun a s => advertise a true s) (Machine.forEach (s.hive.nbrs.map (·.addr)) (fun a s => advertise a false s)
        { s with hive := { s.hive with advNew := false, advAt := s.time.hive } }) := if_pos h
  refine ⟨es ++ es', hsend ▸ hes.trans hes', fun n hn => ?_⟩
  obtain ⟨e, he, hq⟩ := hall n.addr (List.mem_map_of_mem hn)
  exact ⟨e, List.mem_append_left _ he, hq⟩

theorem onFrame_routeadv {x : RxCtx} {p : RxPkt} (h : p.f.typ = 7) :
    onFrame x p s = onRouteadv x p (acceptPkt x p s) := by
  unfold onFrame
  simp only [h]

/-- An advertisement of a neighbour that is up (R420). -/
theorem onRouteadv_radio {x : RxCtx} {p : RxPkt} (hx : x.radio = true) (hext : p.ext = false)
    (hup : s.hive.nbrUp p.src = true) :
    onRouteadv x p s = s.modHive (fun h => (advEntries p.f.body).foldl (hearEntry p.src s.time.hive false)
      (putCand ⟨p.src, p.src, false, 1, s.time.hive⟩ h)) := by
  have hgo : ¬(p.ext = true ∨ s.hive.linkUp p.src (!x.radio) = false) := by
    rw [hext, hx]
    rintro (e | e)
    · exact Bool.false_ne_true e
    · exact Bool.false_ne_true (e.symm.trans hup)
  have htl : (!x.radio) = false := by rw [hx]; rfl
  refine (if_neg hgo).trans ?_
  rw [htl]
  rfl

end

/-- Settles O35: each event of the routes by its own equation. -/
theorem routeEvents : Obligations.RouteEvents := by
  unfold Obligations.RouteEvents
  intro s fr p a k hearly
  dsimp only
  have hacts (i : Instr) (f : State → State) : Host.Outcome.next (unlessEarly i f s) = (.next (f s) : Out) :=
    congrArg Host.Outcome.next (unlessEarly_acts i f s (by rw [hearly]; exact List.not_mem_nil))
  have hsend : exec .routeadvSend s = .next (routeadvSend s) := hacts ..
  have hadv : exec (.routeadvRx fr) s = .next (radioRx 7 fr s) := hacts ..
  have hexpiry : exec (.routeExpiry a) s = .next (routeExpiry a s) := hacts ..
  have hline : exec (.cacheLineExpiry k) s = .next (cacheLineExpiry k s) := hacts ..
  rw [hsend, hadv, hexpiry, hline]
  refine ⟨fun hrun hst hdue => ?_, fun hnew hlate => ?_, fun hr hc ht hext hup => ?_, fun hrun hold => ?_, fun hnone => ?_,
    rfl, fun hr hc => ?_, fun hr i hi => ?_⟩
  · obtain ⟨es, ⟨lt, fc, sq, ms, ps, dk, hes⟩, hall⟩ := routeadvSend_sends ⟨hrun, hst, hdue⟩
    rw [hes]
    refine ⟨_, rfl, rfl, rfl, rfl, fun n hn => ?_⟩
    obtain ⟨e, he, hq⟩ := hall n hn
    exact ⟨e, List.mem_append_right _ he, hq⟩
  · refine congrArg Host.Outcome.next (if_neg ?_)
    rintro ⟨-, -, h | h⟩
    · exact Bool.false_ne_true (hnew.symm.trans h)
    · omega
  · rw [radioRx_frame hr hc ht]
    rw [onFrame_routeadv ht]
    obtain ⟨le, air, n, b, o, hacc, -⟩ := acceptPkt_only fr.lqi fr.rssi (s.time.hive - fr.ago) p s
    generalize acceptPkt ⟨true, 0, fr.lqi, fr.rssi, s.time.hive - fr.ago⟩ p s = w at hacc ⊢
    have htime : w.time = s.time := by rw [hacc]
    have hcands : w.hive.cands = s.hive.cands := by rw [hacc]
    have haddr : w.hive.addr = s.hive.addr := by rw [hacc]
    have hwup : w.hive.nbrUp p.src = true := by rw [hacc]; exact hup
    have hput : (putCand ⟨p.src, p.src, false, 1, w.time.hive⟩ w.hive).addr = s.hive.addr := by
      obtain ⟨_, _, _, he⟩ := putCand_heard ⟨p.src, p.src, false, 1, w.time.hive⟩ w.hive
      rw [he]; exact haddr
    rw [onRouteadv_radio rfl hext hwup, ← htime]
    refine ⟨_, rfl, ?_, fun e he h0 h127 ha hs hn => ?_, fun x hx => ?_⟩
    · exact ⟨_, hearEntries_keeps (mem_putCand.mpr (Or.inl rfl)) rfl, rfl, rfl, rfl, rfl, rfl⟩
    · exact hearEntries_confirm he h0 h127 (by rw [hput]; exact ha) hs hn
    · rcases hearEntries_mem hx with hx | ⟨hnext, hhops, hdest⟩
      · rcases mem_putCand.mp hx with rfl | ⟨hx, -⟩
        · exact Or.inr (Or.inr rfl)
        · exact Or.inl (hcands ▸ hx)
      · rw [hput] at hdest
        exact Or.inr (Or.inl ⟨hnext, hhops, hdest⟩)
  · obtain ⟨x, hx, hxold⟩ := hold
    have hgo : s.running = true ∧
        s.hive.cands.any (fun c => c.dest == a.val && decide (c.seen + 6720000000 ≤ s.time.hive)) = true :=
      ⟨hrun, List.any_eq_true.mpr ⟨x, hx, hxold⟩⟩
    obtain ⟨r, n, hdrop, hroutes⟩ := dropCands_only
      (fun c => c.dest == a.val && decide (c.seen + 6720000000 ≤ s.time.hive)) s.hive
    have hexp : routeExpiry a s = s.modHive (dropCands
      (fun c => c.dest == a.val && decide (c.seen + 6720000000 ≤ s.time.hive))) := if_pos hgo
    rw [hexp, State.modHive, hdrop]
    refine ⟨_, rfl, rfl, fun d hd => hroutes d fun c hc e => hd ?_⟩
    rw [← e]
    exact beq_iff_eq.mp (Bool.and_eq_true_iff.mp hc).1
  · refine congrArg Host.Outcome.next (if_neg fun h => ?_)
    obtain ⟨x, hx, hxold⟩ := List.any_eq_true.mp h.2
    exact Bool.false_ne_true ((hnone x hx).symm.trans hxold)
  · change Host.Outcome.next (foreignFrameRx fr s) = _
    rw [foreignFrameRx, if_pos hr, hc]
    rfl
  · simp only [List.mem_cons, List.not_mem_nil, or_false] at hi
    have hrx (typ : Nat) (j : Instr) (hj : exec j s = .next (unlessEarly j (radioRx typ fr) s)) :
        exec j s = .next (radioRx typ fr s) := hj.trans (hacts ..)
    have hcounted (typ : Nat) (j : Instr) (hj : exec j s = .next (unlessEarly j (radioRx typ fr) s)) :
        (classify s fr.psdu = .mic →
          exec j s = .next { s with hive := { s.hive with nmic := satInc s.hive.nmic } }) ∧
        (classify s fr.psdu = .replay →
          exec j s = .next { s with hive := { s.hive with nreplay := satInc s.hive.nreplay } }) ∧
        (classify s fr.psdu = .foreign ∨ classify s fr.psdu = .ignore → exec j s = .next s) := by
      obtain ⟨hmic, hreplay, hother⟩ := radioRx_counted (typ := typ) hr
      rw [hrx typ j hj]
      exact ⟨fun hc => congrArg Host.Outcome.next (hmic hc), fun hc => congrArg Host.Outcome.next (hreplay hc),
        fun hc => congrArg Host.Outcome.next (hother hc)⟩
    rcases hi with rfl | rfl | rfl | rfl | rfl | rfl | rfl | rfl | rfl | rfl | rfl
    exacts [hcounted 0 _ rfl, hcounted 1 _ rfl, hcounted 2 _ rfl, hcounted 3 _ rfl, hcounted 4 _ rfl, hcounted 5 _ rfl,
      hcounted 6 _ rfl, hcounted 7 _ rfl, hcounted 8 _ rfl, hcounted 9 _ rfl, hcounted 10 _ rfl]

end Sys2Proof.Machine
end

section
/-!
PROOFS. Time synchronisation over the radio (spec/15_hive_fabric.md section 15.8, R432 to R434).
-/
namespace Sys2Proof.Machine

section
variable {s : State} {x : RxCtx} {p : RxPkt}

/-! ## A frame that awaits its acknowledgement -/

theorem stamped_kind (f : HFrame) (s : State) : (stamped f s).typ = f.typ ∧ (stamped f s).src = f.src := by
  unfold stamped
  split
  · exact ⟨rfl, rfl⟩
  · split <;> exact ⟨rfl, rfl⟩

/-- The exchange that an SREQ opens: t1, and whether the frame in reception spoils it. -/
def openedExch (s : State) : Exchange := ⟨sfdEnd s, match s.hive.exch with | some x => x.spoiled | none => false⟩

/-- A synchronisation frame goes on air and awaits its acknowledgement. -/
theorem transmit_awaits {lead : Nat} {e : TxEnt} (hsrc : e.f.src = .short) (hfc : s.hive.fc < 2 ^ 32)
    (hack : e.ack = true) (hfor : ∀ id, e.for_ ≠ .msg id) :
    ∃ n lt fc sq ps air nt b o, transmit lead e s = { s with later := lt, hive := { s.hive with
      fc := fc, seq := sq, peers := ps, air := air, ntx := nt, busyTo := b, busyFor := o
      exch := if e.f.typ = 8 then some (openedExch s) else s.hive.exch, await := some (e, n) } } := by
  obtain ⟨htyp, hs⟩ := stamped_kind e.f s
  obtain ⟨psdu, hmade⟩ := makeFrame_made (s := s) (fr := stamped e.f s) (dst := e.dst) (ack := e.ack) (seq := e.seq)
    (hs.trans hsrc) (Or.inr hfc)
  obtain ⟨lt, fc, sq, ps, hframe⟩ := makeFrame_queued (stamped e.f s) e.dst e.ack e.seq s
  have hmark (w : State) : markSent e.for_ w = w := by
    unfold markSent
    split
    next id hid => exact absurd hid (hfor id)
    next => rfl
  unfold transmit
  dsimp only
  split
  next hm => rw [hm] at hmade; cases hmade
  next ps' w hm =>
    rw [hm] at hframe
    dsimp only at hframe
    rw [hmark, htyp, hframe, if_pos hack]
    by_cases h8 : e.f.typ = 8
    · rw [if_pos h8, if_pos h8]
      exact ⟨_, _, _, _, _, _, _, _, _, rfl⟩
    · rw [if_neg h8, if_neg h8]
      exact ⟨_, _, _, _, _, _, _, _, _, rfl⟩

/-! ## Requests and answers -/

theorem channelClear_iff {h : HiveSt} {dbm : Int} : channelClear h dbm = true ↔ dbm ≤ -100 + (h.ccathr : Int) :=
  decide_eq_true_iff

/-- The request of a child as it is queued (R432). -/
def sreqEntry (a : Nat) (s : State) : TxEnt :=
  ⟨(protoFrame 8 a 0 .short (List.replicate 8 0) s).1, a, true,
    (protoFrame 8 a 0 .short (List.replicate 8 0) s).2.hive.seq, 0, 0, 0, none, .sreq⟩

/-- The state in which it goes on air. -/
def sreqSent (a : Nat) (s : State) : State :=
  let w := (protoFrame 8 a 0 .short (List.replicate 8 0) s).2
  w.modHive (fun h => { h with sreq := none, exch := none, seq := w.hive.seq + 1 })

/-- What a request that is due does: it goes on air, or waits 1 ms (R432). -/
def sreqTry (dbm : Int) (a k : Nat) (w : State) : State :=
  if channelClear w.hive dbm = true ∧ radioFree w = true then transmit 0 (sreqEntry a w) (sreqSent a w)
  else w.modHive (fun h => { h with sreq := if k < 3 then some (k + 1, w.time.phys + usTicks 1000) else none })

theorem sreqTry_sent {dbm : Int} {a k : Nat} (hclear : dbm ≤ -100 + (s.hive.ccathr : Int)) (hfree : radioFree s = true)
    (hfc : s.hive.fc < 2 ^ 32) : ∃ e n, (sreqTry dbm a k s).hive.sreq = none ∧
      (sreqTry dbm a k s).hive.await = some (e, n) ∧ e.f.typ = 8 ∧ e.dst = a ∧ e.for_ = .sreq ∧
      (sreqTry dbm a k s).hive.exch = some ⟨(s.time.hive + 30720) % 2 ^ 64, false⟩ := by
  have htry : sreqTry dbm a k s = transmit 0 (sreqEntry a s) (sreqSent a s) :=
    if_pos ⟨channelClear_iff.mpr hclear, hfree⟩
  obtain ⟨n, lt, fc, sq, ps, air, nt, b, o, hsent⟩ := transmit_awaits (lead := 0) (e := sreqEntry a s) (s := sreqSent a s)
    rfl hfc rfl (fun id hid => by cases (show TxFor.sreq = .msg id from hid))
  rw [htry, hsent]
  exact ⟨sreqEntry a s, n, rfl, rfl, rfl, rfl, rfl,
    if_pos (c := (sreqEntry a s).f.typ = 8) (e := (sreqSent a s).hive.exch) rfl⟩

theorem sreqTry_moved {dbm : Int} {a k : Nat} (hbusy : ¬dbm ≤ -100 + (s.hive.ccathr : Int)) :
    (sreqTry dbm a k s).hive.sreq = if k < 3 then some (k + 1, s.time.phys + 192000) else none := by
  have htry : sreqTry dbm a k s =
      s.modHive (fun h => { h with sreq := if k < 3 then some (k + 1, s.time.phys + usTicks 1000) else none }) :=
    if_neg fun h => hbusy (channelClear_iff.mp h.1)
  rw [htry]
  rfl

theorem noteInstants_keeps (n : Nat) (s : State) :
    (s.modHive (fun h => { h with syncIx := n })).time = s.time ∧
      (s.modHive (fun h => { h with syncIx := n })).hive.ccathr = s.hive.ccathr ∧
      (s.modHive (fun h => { h with syncIx := n })).hive.fc = s.hive.fc ∧
      radioFree (s.modHive (fun h => { h with syncIx := n })) = radioFree s := ⟨rfl, rfl, rfl, rfl⟩

theorem syncSreq_due {dbm : Int} {a hops k t : Nat} (hparent : parentOf s = some (a, false, hops))
    (hgo : s.running = true ∧ s.hive.st = .run ∧ s.hive.radio = true) (hsreq : s.hive.sreq = some (k, t))
    (ht : t ≤ s.time.phys) :
    syncSreq dbm s = sreqTry dbm a k (s.modHive (fun h => { h with syncIx := sreqInstants s })) := by
  obtain ⟨hrun, hst, hradio⟩ := hgo
  have hnot : ¬(s.running = false ∨ s.hive.st ≠ .run ∨ s.hive.radio = false) := by
    rw [hrun, hst, hradio]
    rintro (e | e | e)
    exacts [Bool.noConfusion e, e rfl, Bool.noConfusion e]
  unfold syncSreq
  rw [hparent]
  dsimp only
  rw [hsreq]
  dsimp only
  rw [if_pos ht]
  dsimp only
  rw [if_neg hnot]
  unfold sreqTry sreqEntry sreqSent
  generalize s.modHive _ = w
  rfl

theorem onFrame_sreq (h : p.f.typ = 8) : onFrame x p s = onSreq x p (acceptPkt x p s) := by
  unfold onFrame
  simp only [h]

theorem onFrame_sresp (h : p.f.typ = 9) : onFrame x p s = onSresp x p (acceptPkt x p s) := by
  unfold onFrame
  simp only [h]

theorem onSreq_queues (hst : s.hive.st = .run) (hext : p.ext = false) (hx : x.radio = true)
    (hlen : 8 ≤ p.f.body.length) : onSreq x p s = s.modHive (fun h => { h with
      sresp := h.sresp ++ [⟨p.src, leNat (p.f.body.take 8), x.rxt, x.rxt + 384000, 0⟩] }) := by
  refine if_neg ?_
  rw [hst, hext, hx]
  rintro (e | e | e | e)
  exacts [e rfl, Bool.noConfusion e, Bool.noConfusion e, Nat.not_lt.mpr hlen e]

/-- The answer of a parent as it is queued (R432). -/
def srespEntry (r : SrespDue) (s : State) : TxEnt :=
  ⟨(protoFrame 9 r.child 0 .short (leBytes 8 r.t1 ++ leBytes 8 r.t2 ++ List.replicate 8 0) s).1, r.child, true,
    (protoFrame 9 r.child 0 .short (leBytes 8 r.t1 ++ leBytes 8 r.t2 ++ List.replicate 8 0) s).2.hive.seq, 0, 0, 0,
    none, .proto⟩

/-- The state in which it goes on air. -/
def srespSent (r : SrespDue) (s : State) : State :=
  let w := (protoFrame 9 r.child 0 .short (leBytes 8 r.t1 ++ leBytes 8 r.t2 ++ List.replicate 8 0) s).2
  w.modHive (fun h => { h with seq := w.hive.seq + 1 })

theorem srespSend_due {dbm : Int} {r : SrespDue} (hgo : s.running = true ∧ s.hive.st = .run)
    (hr : s.hive.sresp.find? (fun r => decide (r.due ≤ s.time.hive)) = some r) :
    srespSend dbm s = (let w := s.modHive (fun h => { h with sresp := h.sresp.erase r })
      if channelClear w.hive dbm = true ∧ radioFree w = true then transmit 0 (srespEntry r w) (srespSent r w)
      else if r.tries < 3 then
        w.modHive (fun h => { h with sresp := h.sresp ++ [{ r with due := r.due + 192000, tries := r.tries + 1 }] })
      else w) := by
  obtain ⟨hrun, hst⟩ := hgo
  have hnot : ¬(s.running = false ∨ s.hive.st ≠ .run) := by
    rw [hrun, hst]
    exact fun e => e.elim Bool.noConfusion fun e => e rfl
  unfold srespSend
  rw [hr]
  exact if_neg hnot

/-! ## The answer at the child (R433, R434) -/

/-- θ of half ticks, rounded to the nearest tick, ties up (log entry 37). -/
theorem roundFrac_half (n : Int) : roundFrac (mkFrac n 2) = (n + 1) / 2 := by
  have hgcd : Nat.gcd n.natAbs 2 = 1 ∨ Nat.gcd n.natAbs 2 = 2 :=
    (Nat.dvd_prime Nat.prime_two).mp (Nat.gcd_dvd_right _ _)
  rcases hgcd with h | h
  · have hfrac : mkFrac n 2 = ⟨n, 2⟩ := by
      unfold mkFrac
      rw [h]
      simp
    rw [hfrac]
    change (2 * n + ((2 : Nat) : Int)) / (2 * ((2 : Nat) : Int)) = (n + 1) / 2
    omega
  · have heven : (2 : Int) ∣ n := by
      have hdvd := Nat.gcd_dvd_left n.natAbs 2
      rw [h] at hdvd
      exact Int.natCast_dvd.mpr hdvd
    have hfrac : mkFrac n 2 = ⟨n / 2, 1⟩ := by
      unfold mkFrac
      rw [h]
      simp
    rw [hfrac]
    change (2 * (n / 2) + ((1 : Nat) : Int)) / (2 * ((1 : Nat) : Int)) = (n + 1) / 2
    omega

/-- The answer that a child accepts, for its exchange `e` (R433). -/
structure Answers (x : RxCtx) (p : RxPkt) (e : Exchange) : Prop where
  radio : x.radio = true
  ext : p.ext = false
  length : 24 ≤ p.f.body.length
  t1 : leNat (p.f.body.take 8) = e.t1

/-- Twice θ and twice the path delay of an exchange. -/
def twiceTheta (x : RxCtx) (p : RxPkt) (e : Exchange) : Int :=
  ((leNat ((p.f.body.drop 8).take 8) : Int) - e.t1) - (x.rxt - leNat ((p.f.body.drop 16).take 8))

def twiceDelay (x : RxCtx) (p : RxPkt) (e : Exchange) : Int :=
  ((x.rxt : Int) - e.t1) - (leNat ((p.f.body.drop 16).take 8) - leNat ((p.f.body.drop 8).take 8))

theorem onSresp_answers {e : Exchange} {hops : Nat} (he : s.hive.exch = some e)
    (hparent : parentOf s = some (p.src, false, hops)) (h : Answers x p e) :
    onSresp x p s = (let w := s.modHive (fun h => { h with exch := none })
      if twiceDelay x p e < 0 ∨ 1920 < twiceDelay x p e ∨ e.spoiled = true then
        w.modHive (fun h => { h with nsyncbad := satInc h.nsyncbad })
      else applySample (mkFrac (twiceTheta x p e) 2) (sampleGap w) w) := by
  obtain ⟨hx, hext, hlen, ht1⟩ := h
  have hnot : ¬(p.ext = true ∨ x.radio = false ∨ p.src ≠ p.src ∨ p.f.body.length < 24 ∨
      leNat (p.f.body.take 8) ≠ e.t1) := by
    rw [hext, hx]
    rintro (h | h | h | h | h)
    exacts [Bool.noConfusion h, Bool.noConfusion h, h rfl, Nat.not_lt.mpr hlen h, h ht1]
  unfold onSresp
  rw [he, hparent]
  dsimp only
  rw [if_neg hnot, ht1]
  rfl

theorem twiceDelay_good {e : Exchange} (hlow : 0 ≤ twiceDelay x p e) (hhigh : twiceDelay x p e ≤ 1920)
    (hclean : e.spoiled = false) : ¬(twiceDelay x p e < 0 ∨ 1920 < twiceDelay x p e ∨ e.spoiled = true) := by
  rintro (h | h | h)
  · exact Int.not_lt.mpr hlow h
  · exact Int.not_lt.mpr hhigh h
  · exact Bool.false_ne_true (hclean.symm.trans h)

/-- The clock after the first valid sample (R434). -/
theorem firstSample_steps (th : Int) (h : s.time.valid = false) : (firstSample th s).time.valid = true ∧
    (firstSample th s).time.hive = ((s.time.hive : Int) + th).toNat % 2 ^ 64 := by
  have hround (w : State) : (noteRound w).time = w.time := by
    unfold noteRound
    dsimp only
    split <;> rfl
  have hnot : ¬s.time.valid = true := by rw [h]; exact Bool.false_ne_true
  have hstep : (stepHive (moveBy th s.time.hive) s).time =
      { s.time with hive := wrap64 (moveBy th s.time.hive), valid := true, steps := satInc s.time.steps } := by
    unfold stepHive
    rw [if_neg hnot]
    exact hround _
  have htime : (firstSample th s).time = (stepHive (moveBy th s.time.hive) s).time := by
    unfold firstSample
    rw [if_neg hnot]
    rfl
  rw [htime, hstep]
  exact ⟨rfl, rfl⟩

/-- θ of a sample that steers the trim. -/
theorem applySample_theta {th : Frac} {tk : Nat} (h : s.time.valid = true) :
    (applySample th tk s).hive.theta = wordOfInt (roundFrac th) ∧ (applySample th tk s).hive.exch = s.hive.exch ∧
      (applySample th tk s).time.hive = s.time.hive := by
  unfold applySample
  dsimp only
  rw [if_neg (show ¬(s.modHive _).time.valid = false from fun e => Bool.false_ne_true (e.symm.trans h))]
  exact ⟨rfl, rfl, rfl⟩

/-- The first sample is left to the next clock. -/
theorem applySample_waits {th : Frac} {tk : Nat} (h : s.time.valid = false) :
    applySample th tk s = { s.modHive (fun h => { h with theta := wordOfInt (roundFrac th) }) with
      later := s.later ++ [.sample (roundFrac th)] } := if_pos h

end

/-- Settles O37: an SREQ and its answer go on air when due and the channel is clear; the child halves its two differences
and leaves the first sample to the next clock. -/
theorem syncEvents : Obligations.SyncEvents := by
  unfold Obligations.SyncEvents
  intro s fr p a x dbm hearly
  dsimp only
  have hacts (i : Instr) (f : State → State) : Host.Outcome.next (unlessEarly i f s) = (.next (f s) : Out) :=
    congrArg Host.Outcome.next (unlessEarly_acts i f s (by rw [hearly]; exact List.not_mem_nil))
  have hsreq : exec (.syncSreq dbm) s = .next (syncSreq dbm s) := hacts ..
  have hasked : exec (.sreqRx fr) s = .next (radioRx 8 fr s) := hacts ..
  have hanswer : exec (.srespSend dbm) s = .next (srespSend dbm s) := hacts ..
  have hheard : exec (.srespRx fr) s = .next (radioRx 9 fr s) := hacts ..
  rw [hsreq, hasked, hanswer, hheard]
  refine ⟨fun k t hdue hk ht => ?_, fun hnone => ?_, fun ⟨hr, hc, ht⟩ hst hext hlen => ?_, fun r hrun hst hr => ?_,
    fun e ⟨hr, hc, ht⟩ he hparent hsec hext hlen ht1 => ?_, fun th hvalid => firstSample_steps th hvalid⟩
  · obtain ⟨hparent, hrun, hst, hradio⟩ := hdue
    rw [syncSreq_due hparent ⟨hrun, hst, hradio⟩ hk ht]
    obtain ⟨htime, hcca, hfc', hfree'⟩ := noteInstants_keeps (sreqInstants s) s
    rw [← hcca, ← hfc', ← hfree', ← htime]
    refine ⟨fun hclear hfree hfc => ?_, fun hbusy => ⟨_, rfl, sreqTry_moved hbusy⟩⟩
    obtain ⟨e, n, hsreq, hsent⟩ := sreqTry_sent (a := a) (k := k) hclear hfree hfc
    exact ⟨_, e, n, rfl, hsreq, hsent⟩
  · unfold syncSreq
    rw [hnone]
  · rw [radioRx_frame hr hc ht, onFrame_sreq ht]
    obtain ⟨le, air, n, b, o, hacc, -⟩ := acceptPkt_only fr.lqi fr.rssi (s.time.hive - fr.ago) p s
    generalize acceptPkt ⟨true, 0, fr.lqi, fr.rssi, s.time.hive - fr.ago⟩ p s = w at hacc ⊢
    have hwst : w.hive.st = .run := by rw [hacc]; exact hst
    have hsresp : w.hive.sresp = s.hive.sresp := by rw [hacc]
    rw [onSreq_queues hwst hext rfl hlen, State.modHive, hsresp]
  · rw [srespSend_due ⟨hrun, hst⟩ hr]
    dsimp only
    constructor
    · intro hclear hfree hfc
      rw [if_pos ⟨channelClear_iff.mpr hclear, hfree⟩]
      generalize hw : s.modHive _ = w
      have herase : (srespSent r w).hive.sresp = s.hive.sresp.erase r := by rw [← hw]; rfl
      have hfc' : (srespSent r w).hive.fc < 2 ^ 32 := by
        have : (srespSent r w).hive.fc = s.hive.fc := by rw [← hw]; rfl
        rwa [this]
      obtain ⟨n, lt, fc, sq, ps, air, nt, b, o, hsent⟩ := transmit_awaits (lead := 0) (e := srespEntry r w)
        (s := srespSent r w) rfl hfc' rfl (fun id hid => by cases (show TxFor.proto = .msg id from hid))
      rw [hsent]
      exact ⟨_, srespEntry r w, n, rfl, herase, rfl, rfl, rfl, rfl⟩
    · intro hbusy
      rw [if_neg fun h => hbusy (channelClear_iff.mp h.1)]
      split_ifs <;> rfl
  · rw [radioRx_frame hr hc ht, onFrame_sresp ht]
    obtain ⟨le, air, n, b, o, hacc, hle⟩ := acceptPkt_only fr.lqi fr.rssi (s.time.hive - fr.ago) p s
    have hleases : le = s.hive.leases := by
      rcases hle with hle | ⟨_, hsecured, -⟩
      · exact hle
      · exact absurd (hsec.symm.trans hsecured) Bool.false_ne_true
    generalize acceptPkt ⟨true, 0, fr.lqi, fr.rssi, s.time.hive - fr.ago⟩ p s = w at hacc ⊢
    have hwe : w.hive.exch = some e := by rw [hacc]; exact he
    have hwp : parentOf w = some (p.src, false, x) := by rw [hacc, hleases]; exact hparent
    have htime : w.time = s.time := by rw [hacc]
    have hlater : w.later = s.later := by rw [hacc]
    have hbad : w.hive.nsyncbad = s.hive.nsyncbad := by rw [hacc]
    let c : RxCtx := ⟨true, 0, fr.lqi, fr.rssi, s.time.hive - fr.ago⟩
    rw [onSresp_answers hwe hwp (show Answers c p e from ⟨rfl, hext, hlen, ht1⟩)]
    dsimp only
    refine ⟨fun hspoiled => ?_, fun hlow hhigh hclean hvalid => ?_, fun hlow hhigh hclean hvalid => ?_⟩
    · rw [if_pos (show twiceDelay c p e < 0 ∨ 1920 < twiceDelay c p e ∨ e.spoiled = true from hspoiled)]
      exact ⟨_, rfl, rfl, congrArg satInc hbad, htime⟩
    · have hwvalid : w.time.valid = false := by rw [htime]; exact hvalid
      rw [if_neg (twiceDelay_good (x := c) (p := p) hlow hhigh hclean), applySample_waits (show (w.modHive _).time.valid = false from hwvalid),
        roundFrac_half]
      exact ⟨_, rfl, congrArg (· ++ [Later.sample ((twiceTheta c p e + 1) / 2)]) hlater, htime, rfl, hbad⟩
    · have hwvalid : w.time.valid = true := by rw [htime]; exact hvalid
      rw [if_neg (twiceDelay_good (x := c) (p := p) hlow hhigh hclean)]
      generalize hu : w.modHive _ = u
      have hutime : u.time = s.time := by rw [← hu]; exact htime
      have hexch : u.hive.exch = none := by rw [← hu]; rfl
      have huvalid : u.time.valid = true := by rw [hutime]; exact hvalid
      obtain ⟨htheta, hex, hhive⟩ := applySample_theta (th := mkFrac (twiceTheta c p e) 2) (tk := sampleGap u) huvalid
      obtain ⟨hlast, -⟩ := applySample_valid (th := mkFrac (twiceTheta c p e) 2) (tk := sampleGap u) huvalid
      refine ⟨_, rfl, hhive.trans (congrArg _ hutime), hex.trans hexch, hlast.trans ?_, htheta.trans ?_⟩
      · rw [hutime]
      · rw [roundFrac_half]
        rfl

end Sys2Proof.Machine
end

section
/-!
PROOFS. The swarm call and the leases (spec/15_hive_fabric.md section 15.4, R413 to R416, R419, R447).
-/
namespace Sys2Proof.Machine

section
variable {s u : State} {p : RxPkt} {v : Nat}

/-! ## Floods of the device's own -/

/-- A frame of a TYPE is queued for the radio as a broadcast, where the hive has a radio. -/
def SentOn (h : HiveSt) (q : List TxEnt) (typ : Nat) : Prop :=
  h.radio = true → ∃ e ∈ q, e.f.typ = typ ∧ e.dst = 0x7F ∧ e.f.src = .own

theorem floodSend_joined {for_ : TxFor} (h : ∀ id, for_ ≠ .msg id) (f : HFrame) (ok : Peer → Bool) (s : State) :
    ∃ es, Joined es s (floodSend f for_ ok s) ∧ (s.hive.radio = true → ∃ e ∈ es, e.f = f ∧ e.dst = 0x7F) := by
  have hnoted := noteKey_joined (keyOf f (f.src != .short) (uidOf s) s.time.hive) s
  unfold floodSend
  dsimp only
  generalize hw : noteKey _ s = w at hnoted ⊢
  have hradio : w.hive.radio = s.hive.radio := by rw [← hw]; rfl
  rw [hradio]
  by_cases hr : s.hive.radio = true
  · rw [if_pos hr]
    exact ⟨_, (hnoted.trans (enqueueRadio_joined f 0x7F false for_ w)).trans (enqueueTethers_queued h _ _).joined,
      fun _ => ⟨_, List.mem_append_left _ (List.mem_append_right _ (List.mem_singleton_self _)), rfl, rfl⟩⟩
  · rw [if_neg hr]
    exact ⟨_, hnoted.trans (enqueueTethers_queued h _ _).joined, fun e => absurd e hr⟩

/-- What a flood of the device's own changes (R446). -/
theorem floodOwn_only (typ hleft : Nat) (body : List Byte) (s : State) : ∃ lt fc sq ms ps dk tq,
    floodOwn typ hleft body s = { s with later := lt, hive := { s.hive with
      fc := fc, seq := sq, mseq := ms, peers := ps, dups := dk, txq := tq } } ∧ SentOn s.hive tq typ := by
  obtain ⟨es, hes, hsent⟩ := floodSend_joined (for_ := .proto) (fun _ => TxFor.noConfusion)
    (protoFrame typ 0x7F hleft .own body s).1 (fun _ => true) (protoFrame typ 0x7F hleft .own body s).2
  obtain ⟨lt, fc, sq, ms, ps, dk, hflood⟩ := (protoFrame_joined typ 0x7F hleft .own body s).trans hes
  refine ⟨lt, fc, sq, ms, ps, dk, _, hflood, fun hradio => ?_⟩
  obtain ⟨e, he, hf, hdst⟩ := hsent hradio
  exact ⟨e, List.mem_append_right _ (List.mem_append_right _ he), by rw [hf]; rfl, hdst, by rw [hf]; rfl⟩

theorem sendRenew_only (s : State) : ∃ lt fc sq ms ps dk tq, sendRenew s = { s with later := lt, hive := { s.hive with
      fc := fc, seq := sq, mseq := ms, peers := ps, dups := dk, txq := tq } } ∧ SentOn s.hive tq 6 :=
  floodOwn_only ..

theorem sendRenew_answers (l : List Nat) (s : State) : ∃ w, sendRenew (s.modHive (fun h => { h with renewDue := l })) = w ∧
    w.hive.renewDue = l ∧ SentOn s.hive w.hive.txq 6 := by
  obtain ⟨lt, fc, sq, ms, ps, dk, tq, hflood, hsent⟩ := sendRenew_only (s.modHive (fun h => { h with renewDue := l }))
  exact ⟨_, hflood, rfl, hsent⟩

theorem sendRenew_counted (n : Nat) (s : State) : ∃ w, sendRenew (s.modHive (fun h => { h with renewIx := n })) = w ∧
    w.hive.renewIx = n ∧ SentOn s.hive w.hive.txq 6 := by
  obtain ⟨lt, fc, sq, ms, ps, dk, tq, hflood, hsent⟩ := sendRenew_only (s.modHive (fun h => { h with renewIx := n }))
  exact ⟨_, hflood, rfl, hsent⟩

/-! ## The address that a call chooses (R413) -/

theorem first_of_upFrom (q : Nat → Bool) (a n : Nat) (ha : 0 < a) :
    (((upFrom a n).filter q).headD 0 ≠ 0 → ((upFrom a n).filter q).headD 0 < a + n ∧
      q (((upFrom a n).filter q).headD 0) = true) ∧
    ∀ x, a ≤ x → x < a + n → q x = true →
      ((upFrom a n).filter q).headD 0 ≠ 0 ∧ ((upFrom a n).filter q).headD 0 ≤ x := by
  induction n generalizing a with
  | zero => exact ⟨fun h => absurd rfl h, fun x hle hlt => by omega⟩
  | succ n ih =>
    obtain ⟨hsome, hleast⟩ := ih (a + 1) (Nat.succ_pos a)
    rw [upFrom, List.filter_cons]
    cases hq : q a with
    | true => exact ⟨fun _ => ⟨Nat.lt_add_of_pos_right (Nat.succ_pos n), hq⟩, fun x hle _ _ => ⟨Nat.pos_iff_ne_zero.mp ha, hle⟩⟩
    | false =>
      refine ⟨fun h => ⟨Nat.lt_of_lt_of_eq (hsome h).1 (by omega), (hsome h).2⟩, fun x hle hlt hx => ?_⟩
      have hne : a ≠ x := fun e => Bool.false_ne_true ((e ▸ hq).symm.trans hx)
      exact hleast x (by omega) (by omega) hx

theorem lease_taken {h : HiveSt} {x : Nat} :
    h.leaseList.any (fun l => l.addr == x) = true ↔ ∃ l ∈ h.leaseList, l.addr = x := by
  rw [List.any_eq_true]
  exact exists_congr fun l => and_congr_right fun _ => beq_iff_eq

theorem chooseAddr_pref {h : HiveSt} (hp : h.pref ≠ 0) (hfree : ¬∃ l ∈ h.leaseList, l.addr = h.pref) :
    chooseAddr h = h.pref :=
  if_pos ⟨hp, Bool.eq_false_iff.mpr fun e => hfree (lease_taken.mp e)⟩

theorem chooseAddr_lowest {h : HiveSt} (hp : h.pref = 0 ∨ ∃ l ∈ h.leaseList, l.addr = h.pref) :
    (chooseAddr h ≠ 0 → chooseAddr h ≤ 126 ∧ (¬∃ l ∈ h.leaseList, l.addr = chooseAddr h) ∧ chooseAddr h ∉ h.failed) ∧
    ∀ x, 1 ≤ x → x ≤ 126 → (¬∃ l ∈ h.leaseList, l.addr = x) → x ∉ h.failed → chooseAddr h ≠ 0 ∧ chooseAddr h ≤ x := by
  have hscan : chooseAddr h = ((upFrom 1 126).filter
      (fun a => !h.leaseList.any (fun l => l.addr == a) && !h.failed.contains a)).headD 0 := by
    refine if_neg fun hfree => ?_
    rcases hp with hp | hp
    · exact hfree.1 hp
    · exact Bool.false_ne_true (hfree.2.symm.trans (lease_taken.mpr hp))
  have hgood (x : Nat) : (!h.leaseList.any (fun l => l.addr == x) && !h.failed.contains x) = true ↔
      (¬∃ l ∈ h.leaseList, l.addr = x) ∧ x ∉ h.failed := by
    rw [Bool.and_eq_true, Bool.not_eq_true', Bool.not_eq_true', ← lease_taken, Bool.not_eq_true, List.contains_eq_mem,
      decide_eq_false_iff_not]
  obtain ⟨hsome, hleast⟩ := first_of_upFrom
    (fun a => !h.leaseList.any (fun l => l.addr == a) && !h.failed.contains a) 1 126 Nat.one_pos
  rw [← hscan] at hsome hleast
  refine ⟨fun hne => ?_, fun x hlo hhi hfree hfail => hleast x hlo (by omega) ((hgood x).mpr ⟨hfree, hfail⟩)⟩
  obtain ⟨hlt, hq⟩ := hsome hne
  exact ⟨by omega, (hgood _).mp hq⟩

/-! ## Calling (R413, R414) -/

theorem claiming_iff : claiming s = true ↔ s.running = true ∧ (s.hive.st = .ready ∨ s.hive.st = .held) := by
  rw [claiming, Bool.and_eq_true, Bool.or_eq_true, beq_iff_eq, beq_iff_eq]

/-- The state of a call that counts its CLAIM; the first one chooses the address. -/
def claimed (s : State) : State :=
  (if s.hive.claims = 0 then s.modHive (fun h => { h with cand := chooseAddr h, beaten := false }) else s).modHive
    (fun h => { h with claims := h.claims + 1 })

theorem claimed_first (h : s.hive.claims = 0) : claimed s = { s with hive := { s.hive with
    cand := chooseAddr s.hive, beaten := false, claims := s.hive.claims + 1 } } := by
  rw [claimed, if_pos h]
  rfl

theorem claimed_next (h : s.hive.claims ≠ 0) : claimed s = { s with hive := { s.hive with claims := s.hive.claims + 1 } } := by
  rw [claimed, if_neg h]
  rfl

/-- The frame of a CLAIM, if an address is there to claim. -/
def claimFlood (w : State) : State := if w.hive.cand = 0 then w else floodOwn 4 3 [BitVec.ofNat 8 w.hive.cand] w

theorem claimSend_due (hclaim : claiming s = true) (hlt : s.hive.claims < 3)
    (hdue : s.hive.claimAt + s.hive.claims * 3840000 ≤ s.time.hive) : claimSend s = claimFlood (claimed s) :=
  if_pos ⟨hclaim, hlt, hdue⟩

theorem claimFlood_keeps (w : State) : (claimFlood w).hive.claims = w.hive.claims ∧ (claimFlood w).hive.cand = w.hive.cand ∧
    (claimFlood w).hive.beaten = w.hive.beaten ∧ (w.hive.cand ≠ 0 → SentOn w.hive (claimFlood w).hive.txq 4) := by
  unfold claimFlood
  by_cases h : w.hive.cand = 0
  · rw [if_pos h]
    exact ⟨rfl, rfl, rfl, fun e => absurd h e⟩
  · rw [if_neg h]
    obtain ⟨lt, fc, sq, ms, ps, dk, tq, hflood, hsent⟩ := floodOwn_only 4 3 [BitVec.ofNat 8 w.hive.cand] w
    rw [hflood]
    exact ⟨rfl, rfl, rfl, fun _ => hsent⟩

theorem claimSend_idle (h : ¬claiming s = true) : claimSend s = s := if_neg fun e => h e.1

theorem swarmDecide_idle (h : ¬claiming s = true) : swarmDecide s = s := if_neg fun e => h e.1

theorem linkEvent_later (kind addr : Nat) (s : State) : linkEvent kind addr false 0 s =
    s.eventLater 0x71 (BitVec.ofNat 32 (addr % 128 + kind * 2 ^ 28)) s.time.hive := by
  rw [linkEvent, State.eventOf]
  simp [put, bit01, toWord]

theorem holdAddr_holds (s : State) : ∃ w : State, holdAddr s =
    w.eventLater 0x71 (BitVec.ofNat 32 (s.hive.cand % 128 + 2 ^ 28)) s.time.hive ∧
      (holdAddr s).hive.st = .run ∧ (holdAddr s).hive.addr = s.hive.cand ∧ SentOn s.hive (holdAddr s).hive.txq 6 := by
  unfold holdAddr
  dsimp only
  generalize hw : s.modHive _ = w
  have hst : w.hive.st = .run := by rw [← hw]; rfl
  have haddr : w.hive.addr = s.hive.cand := by rw [← hw]; rfl
  have htime : w.time = s.time := by rw [← hw]; rfl
  have hjoin : w.hive.join = s.hive.join := by rw [← hw]; rfl
  obtain ⟨lt, fc, sq, ms, ps, dk, tq, hflood, hsent⟩ := sendRenew_only w
  rw [linkEvent_later, hflood, Nat.one_mul]
  refine ⟨_, congrArg _ (congrArg _ htime), hst, haddr, fun hradio => hsent ?_⟩
  rwa [HiveSt.radio, HiveSt.w, hjoin]

/-! ## Leases (R415, R419) -/

section
variable {h : HiveSt} {g : Lease → Lease}

/-- What refreshes a lease keeps its holder's UID. -/
def KeepsUid (g : Lease → Lease) : Prop := ∀ l, (g l).uid = l.uid

theorem leaseList_map (h : HiveSt) (g : Lease → Lease) :
    { h with leases := vmap (Option.map g) h.leases }.leaseList = h.leaseList.map g := by
  change ((vmap (Option.map g) h.leases).toList).filterMap id = (h.leases.toList.filterMap id).map g
  rw [List.map_filterMap]
  change (h.leases.toList.map (Option.map g)).filterMap id = _
  rw [List.filterMap_map]
  rfl

theorem leaseOf_map (hg : KeepsUid g) (v : Nat) :
    { h with leases := vmap (Option.map g) h.leases }.leaseOf v = (h.leaseOf v).map g := by
  rw [HiveSt.leaseOf, leaseList_map, List.find?_map]
  exact congrArg (Option.map g) (congrArg (h.leaseList.find? ·) (funext fun l => congrArg (· == v) (hg l)))

theorem pickLease_map (hg : KeepsUid g) (l : List Lease) : pickLease (l.map g) = (pickLease l).map g := by
  induction l with
  | nil => rfl
  | cons a r ih =>
    rw [List.map_cons, pickLease, pickLease, ih]
    cases pickLease r with
    | none => rfl
    | some m =>
      change (if (g a).uid ≤ (g m).uid then some (g a) else some (g m)) = _
      rw [hg, hg]
      by_cases hle : a.uid ≤ m.uid
      · have hpick : (if a.uid ≤ m.uid then some a else some m) = some a := if_pos hle
        rw [if_pos hle]
        exact (congrArg (Option.map g) hpick).symm
      · have hpick : (if a.uid ≤ m.uid then some a else some m) = some m := if_neg hle
        rw [if_neg hle]
        exact (congrArg (Option.map g) hpick).symm

theorem leaseAt_map (hg : KeepsUid g) (haddr : ∀ l, (g l).addr = l.addr) (a : Nat) :
    { h with leases := vmap (Option.map g) h.leases }.leaseAt a = (h.leaseAt a).map g := by
  rw [HiveSt.leaseAt, leaseList_map, List.filter_map, pickLease_map hg]
  exact congrArg (fun l => Option.map g (pickLease l))
    (congrArg (h.leaseList.filter ·) (funext fun l => congrArg (· == a) (haddr l)))

theorem leaseOf_congr {k : HiveSt} (e : h.leases = k.leases) (v : Nat) : h.leaseOf v = k.leaseOf v := by
  rw [HiveSt.leaseOf, HiveSt.leaseList, e]
  rfl

theorem mem_leaseList {l : Lease} : l ∈ h.leaseList ↔ some l ∈ h.leases.toList := by
  rw [HiveSt.leaseList, List.mem_filterMap]
  exact ⟨fun ⟨o, ho, e⟩ => (show o = some l from e) ▸ ho, fun hl => ⟨_, hl, rfl⟩⟩

/-- The first free entry is found where one is free. -/
theorem freeLease_found {k : Fin 126} (hk : vget h.leases k = none) :
    ∃ j : Fin 126, (vfind h.leases (·.isNone)).head? = some j.val := by
  have hmem {j : Nat} : j ∈ vfind h.leases (·.isNone) ↔ ∃ a, h.leases.toList[j]? = some a ∧ a.isNone = true := by
    rw [vfind, List.mem_filterMap]
    constructor
    · rintro ⟨x, hx, hj⟩
      obtain ⟨i, a, hi, rfl⟩ := mem_mapIdxFrom.mp hx
      rw [Nat.zero_add] at hj
      by_cases ha : a.isNone = true
      · obtain rfl := Option.some.inj ((if_pos ha).symm.trans hj)
        exact ⟨a, hi, ha⟩
      · exact absurd ((if_neg ha).symm.trans hj) (fun e => by cases e)
    · rintro ⟨a, hi, ha⟩
      exact ⟨(0 + j, a.isNone), mem_mapIdxFrom.mpr ⟨j, a, hi, rfl⟩, (if_pos ha).trans (congrArg some (Nat.zero_add j))⟩
  have hk' : k.val ∈ vfind h.leases (·.isNone) := hmem.mpr ⟨none, getElem?_toList_iff.mpr ⟨k.isLt, hk⟩, rfl⟩
  cases hl : vfind h.leases (·.isNone) with
  | nil => rw [hl] at hk'; exact absurd hk' List.not_mem_nil
  | cons j r =>
    obtain ⟨a, ha, -⟩ := hmem.mp (hl ▸ List.mem_cons_self : j ∈ vfind h.leases (·.isNone))
    obtain ⟨hlt, -⟩ := getElem?_toList_iff.mp ha
    exact ⟨⟨j, hlt⟩, rfl⟩

/-- A lease put into an entry of the table is its holder's lease, where the holder had none. -/
theorem leaseOf_put {j : Fin 126} {l : Lease} (huid : l.uid = v) (hnone : h.leaseOf v = none) :
    { h with leases := vsetD h.leases j.val (some l) }.leaseOf v = some l := by
  have hset : (vsetD h.leases j.val (some l)).toList = h.leases.toList.set j.val (some l) := by
    rw [vsetD, dif_pos j.isLt, Vector.toList_set]
  have hin : l ∈ { h with leases := vsetD h.leases j.val (some l) }.leaseList := by
    rw [mem_leaseList, hset]
    exact List.mem_set (by rw [Vector.length_toList]; exact j.isLt) _
  have honly {x : Lease} (hx : x ∈ { h with leases := vsetD h.leases j.val (some l) }.leaseList) (hu : x.uid = v) :
      x = l := by
    rw [mem_leaseList, hset] at hx
    rcases List.mem_or_eq_of_mem_set hx with hx | hx
    · exact absurd (beq_iff_eq.mpr hu) (List.find?_eq_none.mp hnone x (mem_leaseList.mpr hx))
    · exact Option.some.inj hx
  cases hf : { h with leases := vsetD h.leases j.val (some l) }.leaseOf v with
  | none => exact absurd (beq_iff_eq.mpr huid) (List.find?_eq_none.mp hf l hin)
  | some x =>
    have hu : (x.uid == v) = true := List.find?_some (p := fun l' : Lease => l'.uid == v) hf
    rw [honly (List.mem_of_find?_eq_some hf) (beq_iff_eq.mp hu)]

end

/-! ## What is heard of a device (R415, R419) -/

/-- Device `v` has its lease of address `a` renewed for 30 s, where the table has room. -/
def Leased (v a : Nat) (s : State) (h : HiveSt) : Prop :=
  v ≠ uidOf s → a ≠ 0 → a ≠ 127 → (∃ k, vget s.hive.leases k = none) →
    ∃ l, h.leaseOf v = some l ∧ l.addr = a ∧ l.exp = s.time.hive + 5760000000

/-- What a frame tells of its sender's lease. -/
def heardLease (a exp : Nat) (info : Option (Nat × Nat × Nat × Nat × Byte)) (l : Lease) : Lease :=
  match info with
  | some (rp, rootp, rootu, hops, fl) =>
    { l with addr := a, exp := exp, heard := true, rprio := rp, rootPrio := rootp, rootUid := rootu, hops := hops, flags := fl }
  | none => { l with addr := a, exp := exp }

theorem heardLease_fields (a exp : Nat) (info : Option (Nat × Nat × Nat × Nat × Byte)) (l : Lease) :
    (heardLease a exp info l).uid = l.uid ∧ (heardLease a exp info l).addr = a ∧ (heardLease a exp info l).exp = exp := by
  unfold heardLease
  split <;> exact ⟨rfl, rfl, rfl⟩

/-- The lease table once device `v` was heard on address `a`. -/
def heardLeases (v a exp : Nat) (fc : Option Nat) (info : Option (Nat × Nat × Nat × Nat × Byte)) (h : HiveSt) : HiveSt :=
  if (h.leaseOf v).isSome then modLease v (heardLease a exp info) h
  else match (vfind h.leases (·.isNone)).head? with
    | some k => { h with leases := vsetD h.leases k (some (heardLease a exp info ⟨a, v, exp, false, 0, 0, 0, 0, 0, fc⟩)) }
    | none => h

theorem hearUid_eq (v a : Nat) (p : RxPkt) (info : Option (Nat × Nat × Nat × Nat × Byte)) (s : State) :
    hearUid v a p info s = if v = uidOf s ∨ a = 0 ∨ 0x7F ≤ a then s
      else s.modHive (heardLeases v a (s.time.hive + 5760000000) (if p.sec then some p.fc else none) info) := by
  unfold hearUid heardLeases heardLease
  rcases info with _ | ⟨rp, rootp, rootu, hops, fl⟩ <;> rfl

theorem heardLeases_only (v a exp : Nat) (fc : Option Nat) (info : Option (Nat × Nat × Nat × Nat × Byte)) (h : HiveSt) :
    ∃ le, heardLeases v a exp fc info h = { h with leases := le } := by
  unfold heardLeases modLease
  split
  · exact ⟨_, rfl⟩
  · split
    · exact ⟨_, rfl⟩
    · exact ⟨h.leases, rfl⟩

theorem heardLeases_leased {v a exp : Nat} {fc : Option Nat} {info : Option (Nat × Nat × Nat × Nat × Byte)} {h : HiveSt}
    (hfree : ∃ k, vget h.leases k = none) :
    ∃ l, (heardLeases v a exp fc info h).leaseOf v = some l ∧ l.addr = a ∧ l.exp = exp := by
  unfold heardLeases
  cases hl : h.leaseOf v with
  | some l =>
    rw [if_pos (show (some l).isSome = true from rfl)]
    have huid : l.uid = v := beq_iff_eq.mp (List.find?_some (p := fun l : Lease => l.uid == v) hl)
    have hkeeps : KeepsUid (fun l => if l.uid = v then heardLease a exp info l else l) := by
      intro l
      dsimp only
      split
      · exact (heardLease_fields a exp info l).1
      · rfl
    obtain ⟨-, haddr, hexp⟩ := heardLease_fields a exp info l
    refine ⟨heardLease a exp info l, ?_, haddr, hexp⟩
    rw [modLease, leaseOf_map hkeeps, hl]
    exact congrArg some (if_pos huid)
  | none =>
    obtain ⟨k, hk⟩ := hfree
    obtain ⟨j, hj⟩ := freeLease_found hk
    obtain ⟨huid, haddr, hexp⟩ := heardLease_fields a exp info ⟨a, v, exp, false, 0, 0, 0, 0, 0, fc⟩
    rw [if_neg (show ¬(none : Option Lease).isSome = true from Bool.false_ne_true), hj]
    refine ⟨heardLease a exp info ⟨a, v, exp, false, 0, 0, 0, 0, 0, fc⟩, ?_, haddr, hexp⟩
    exact leaseOf_put (j := j) huid hl

theorem hearUid_leases (v a : Nat) (p : RxPkt) (info : Option (Nat × Nat × Nat × Nat × Byte)) (s : State) (ha : a < 128) :
    ∃ le, hearUid v a p info s = { s with hive := { s.hive with leases := le } } ∧
      Leased v a s { s.hive with leases := le } := by
  rw [hearUid_eq]
  by_cases h : v = uidOf s ∨ a = 0 ∨ 0x7F ≤ a
  · rw [if_pos h]
    refine ⟨s.hive.leases, rfl, fun hv h0 h127 => ?_⟩
    rcases h with h | h | h
    exacts [absurd h hv, absurd h h0, by omega]
  · rw [if_neg h]
    obtain ⟨le, he⟩ := heardLeases_only v a (s.time.hive + 5760000000) (if p.sec then some p.fc else none) info s.hive
    exact ⟨le, congrArg (fun h => { s with hive := h }) he, fun _ _ _ hfree => he ▸ heardLeases_leased hfree⟩

/-! ## Neighbours, the root and the address held -/

theorem nbrRise_only (a : Nat) (s : State) : ∃ lt nb, nbrRise a s = { s with later := lt, hive := { s.hive with nbrs := nb } } ∧
    nb.any (fun n => n.addr == a) = true := by
  unfold nbrRise
  by_cases h : s.hive.nbrUp a = true
  · rw [if_pos h]
    exact ⟨s.later, s.hive.nbrs, rfl, h⟩
  · rw [if_neg h]
    refine ⟨_, _, rfl, ?_⟩
    rw [List.any_append, List.any_cons, beq_self_eq_true]
    simp

theorem yieldAddr_only (s : State) : ∃ lt, yieldAddr s = { s with later := lt, hive := { s.hive with
    st := .held, addr := 0, claimAt := s.time.hive, claims := 0, cand := 0, beaten := false } } := ⟨_, rfl⟩

theorem updateRoot_only (s : State) : ∃ lt tm rp ru, updateRoot s =
    { s with later := lt, time := tm, hive := { s.hive with rootPrio := rp, rootUid := ru } } := by
  unfold updateRoot
  dsimp only
  generalize bestRoot _ _ = r
  split
  · exact ⟨s.later, s.time, s.hive.rootPrio, s.hive.rootUid, rfl⟩
  · split <;> split <;> exact ⟨_, _, _, _, rfl⟩

theorem nbrFall_only (a : Nat) (s : State) : ∃ lt nb cs r n, nbrFall a s = { s with later := lt, hive := { s.hive with
    nbrs := nb, cands := cs, routes := r, advNew := n } } ∧ nb.any (fun n => n.addr == a) = false := by
  unfold nbrFall
  by_cases h : s.hive.nbrUp a = true
  · rw [if_pos h]
    obtain ⟨r, n, he, -⟩ := dropCands_only (fun c => !c.tlink && c.next == a)
      { s.hive with nbrs := s.hive.nbrs.filter (fun n => n.addr != a) }
    rw [State.modHive, he]
    refine ⟨_, _, _, _, _, rfl, ?_⟩
    rw [List.any_eq_false]
    intro x hx e
    have hne := (List.mem_filter.mp hx).2
    rw [bne, e] at hne
    exact Bool.false_ne_true hne
  · rw [if_neg h]
    exact ⟨s.later, s.hive.nbrs, s.hive.cands, s.hive.routes, s.hive.advNew, rfl, Bool.eq_false_iff.mpr h⟩

/-- The lease table without device `v`. -/
def droppedLeases (v : Nat) (h : HiveSt) : HiveSt :=
  { h with leases := vmap (fun o => match o with | some x => if x.uid = v then none else o | none => none) h.leases }

theorem droppedLeases_none (v : Nat) (h : HiveSt) : (droppedLeases v h).leaseOf v = none := by
  rw [HiveSt.leaseOf, List.find?_eq_none]
  intro x hx hu
  have hu' : x.uid = v := beq_iff_eq.mp hu
  obtain ⟨o, -, ho⟩ := List.mem_map.mp (mem_leaseList.mp hx)
  cases o with
  | none => cases ho
  | some y =>
    dsimp only at ho
    by_cases hy : y.uid = v
    · rw [if_pos hy] at ho
      cases ho
    · rw [if_neg hy] at ho
      exact hy ((congrArg Lease.uid (Option.some.inj ho)).trans hu')

theorem dropLease_eq {l : Lease} (hl : s.hive.leaseOf v = some l) : dropLease v s =
    updateRoot ((nbrFall l.addr (s.modHive (droppedLeases v))).modHive (dropCands (fun c => c.next == l.addr))) := by
  unfold dropLease
  rw [hl]
  rfl

/-- A lease that goes takes its neighbour and its candidates with it. -/
theorem dropLease_drops {l : Lease} (hl : s.hive.leaseOf v = some l) : (dropLease v s).hive.leaseOf v = none ∧
    (dropLease v s).hive.nbrUp l.addr = false ∧ ∀ x ∈ (dropLease v s).hive.cands, x.next ≠ l.addr := by
  rw [dropLease_eq hl]
  obtain ⟨lt, nb, cs, r, n, hfall, hgone⟩ := nbrFall_only l.addr (s.modHive (droppedLeases v))
  rw [hfall, State.modHive]
  obtain ⟨r', n', hdrop, -⟩ := dropCands_only (fun c => c.next == l.addr) { (droppedLeases v s.hive) with
    nbrs := nb, cands := cs, routes := r, advNew := n }
  rw [show (State.modHive s (droppedLeases v)).hive = droppedLeases v s.hive from rfl, hdrop]
  generalize hw : ({ s.modHive (droppedLeases v) with later := lt, hive := _ } : State) = w
  obtain ⟨lt', tm, rp, ru, hroot⟩ := updateRoot_only w
  rw [hroot, ← hw]
  refine ⟨droppedLeases_none v s.hive, hgone, fun x hx e => ?_⟩
  have hbad := (List.mem_filter.mp hx).2
  rw [beq_iff_eq.mpr e] at hbad
  exact Bool.false_ne_true hbad

/-! ## Frames heard of the swarm -/

theorem noteFlood_only (x : RxCtx) (p : RxPkt) (s : State) :
    ∃ dk rl, noteFlood x p s = { s with hive := { s.hive with dups := dk, relays := rl } } := by
  unfold noteFlood
  dsimp only
  split
  · exact ⟨s.hive.dups, s.hive.relays, rfl⟩
  · split
    · exact ⟨_, s.hive.relays, rfl⟩
    · exact ⟨_, _, rfl⟩

/-- What accepting and noting a flood may change: counters, the radio's answer, the caches, and what a lease knows beside
its holder and its address. -/
def Noted (g : Lease → Lease) (s u : State) : Prop :=
  ∃ n a nt b o dk rl, u = { s with hive := { s.hive with
    nrx := n, leases := vmap (Option.map g) s.hive.leases, air := a, ntx := nt, busyTo := b, busyFor := o
    dups := dk, relays := rl } }

theorem vmap_same {α : Type} {n : Nat} (v : Vector (Option α) n) : vmap (Option.map id) v = v := by
  refine Vector.toList_inj.mp ?_
  change v.toList.map (Option.map id) = v.toList
  rw [Option.map_id, List.map_id]

theorem noteFlood_noted (lqi rssi : Byte) (rxt : Nat) (p : RxPkt) (s : State) :
    ∃ g, KeepsUid g ∧ (∀ l, (g l).addr = l.addr) ∧
      Noted g s (noteFlood ⟨true, 0, lqi, rssi, rxt⟩ p (acceptPkt ⟨true, 0, lqi, rssi, rxt⟩ p s)) := by
  obtain ⟨le, a, n, b, o, hacc, hle⟩ := acceptPkt_only lqi rssi rxt p s
  obtain ⟨dk, rl, hnote⟩ := noteFlood_only ⟨true, 0, lqi, rssi, rxt⟩ p (acceptPkt ⟨true, 0, lqi, rssi, rxt⟩ p s)
  rw [hnote, hacc]
  rcases hle with rfl | ⟨v, -, rfl⟩
  · exact ⟨id, fun _ => rfl, fun _ => rfl, _, _, _, _, _, _, _, by rw [vmap_same]⟩
  · refine ⟨fun l => if l.uid = v then { l with fc := some p.fc } else l, fun l => ?_, fun l => ?_,
      _, _, _, _, _, _, _, rfl⟩ <;> dsimp only <;> split <;> rfl

theorem uidOf_of_hive (h : HiveSt) (s : State) : uidOf { s with hive := h } = uidOf s := rfl

theorem Noted.uidOf {g : Lease → Lease} (h : Noted g s u) : uidOf u = uidOf s := by
  obtain ⟨_, _, _, _, _, _, _, rfl⟩ := h
  exact uidOf_of_hive ..

theorem Leased.congr {a : Nat} {h k : HiveSt} (e : k.leases = h.leases) (hl : Leased v a s h) : Leased v a s k := by
  intro hv h0 h127 hfree
  obtain ⟨l, hl⟩ := hl hv h0 h127 hfree
  exact ⟨l, (leaseOf_congr e v).trans hl.1, hl.2⟩

theorem Leased.of_noted {g : Lease → Lease} {a : Nat} {h : HiveSt} (hn : Noted g s u) (hl : Leased v a u h) :
    Leased v a s h := by
  intro hv h0 h127 ⟨k, hk⟩
  have huid := hn.uidOf
  obtain ⟨_, _, _, _, _, _, _, rfl⟩ := hn
  exact hl (fun e => hv (e.trans huid)) h0 h127 ⟨k, (vget_vmap _ _ k).trans (congrArg (Option.map g) hk)⟩

theorem fresh_noCopy (h : p.f.htaken ≤ 1) (s : State) : ¬isCopy p s = true := by
  rw [isCopy, Bool.and_eq_true, decide_eq_true_eq]
  exact fun e => absurd e.1 (by omega)

/-- The address that a CLAIM, a DEFEND or a RENEW names, and the UID of its sender. -/
def saidAddr (p : RxPkt) : Nat := (p.f.body.getD 0 0).toNat % 128

def sender (p : RxPkt) : Nat := p.uid.getD p.src

theorem onClaim_eq (p : RxPkt) (s : State) : onClaim p s = (let w := hearUid (sender p) (saidAddr p) p none s
    if sender p = uidOf w then w
    else if w.hive.st = .run ∧ saidAddr p = w.hive.addr then floodOwn 5 3 [BitVec.ofNat 8 (saidAddr p)] w
    else if w.hive.claims ≠ 0 ∧ saidAddr p = w.hive.cand ∧ sender p < uidOf w then
      w.modHive (fun h => { h with beaten := true })
    else w) := rfl

theorem onDefend_eq (p : RxPkt) (s : State) : onDefend p s = (let w := hearUid (sender p) (saidAddr p) p none s
    if sender p = uidOf w then w
    else if w.hive.st = .run ∧ saidAddr p = w.hive.addr ∧ sender p < uidOf w then yieldAddr w
    else if w.hive.claims ≠ 0 ∧ saidAddr p = w.hive.cand then w.modHive (fun h => { h with beaten := true })
    else w) := rfl

theorem onClaim_does (p : RxPkt) (s : State) : Leased (sender p) (saidAddr p) s (onClaim p s).hive ∧
    (onClaim p s).hive.st = s.hive.st ∧ (onClaim p s).hive.addr = s.hive.addr ∧
    (s.hive.st = .run → saidAddr p = s.hive.addr → sender p ≠ uidOf s → SentOn s.hive (onClaim p s).hive.txq 5) ∧
    (s.hive.st ≠ .run → s.hive.claims ≠ 0 → saidAddr p = s.hive.cand → sender p < uidOf s →
      (onClaim p s).hive.beaten = true) := by
  obtain ⟨le, hhear, hleased⟩ := hearUid_leases (sender p) (saidAddr p) p none s (Nat.mod_lt _ (by omega))
  rw [onClaim_eq, hhear]
  dsimp only
  rw [uidOf_of_hive]
  by_cases hown : sender p = uidOf s
  · rw [if_pos hown]
    exact ⟨hleased, rfl, rfl, fun _ _ h => absurd hown h, fun _ _ _ h => absurd hown (Nat.ne_of_lt h)⟩
  rw [if_neg hown]
  by_cases hheld : s.hive.st = .run ∧ saidAddr p = s.hive.addr
  · rw [if_pos hheld]
    obtain ⟨lt, fc, sq, ms, ps, dk, tq, hflood, hsent⟩ := floodOwn_only 5 3 [BitVec.ofNat 8 (saidAddr p)]
      { s with hive := { s.hive with leases := le } }
    rw [hflood]
    exact ⟨hleased.congr rfl, rfl, rfl, fun _ _ _ => hsent, fun h => absurd hheld.1 h⟩
  rw [if_neg hheld]
  by_cases hbeat : s.hive.claims ≠ 0 ∧ saidAddr p = s.hive.cand ∧ sender p < uidOf s
  · rw [if_pos hbeat]
    exact ⟨hleased.congr rfl, rfl, rfl, fun h h' _ => absurd ⟨h, h'⟩ hheld, fun _ _ _ _ => rfl⟩
  · rw [if_neg hbeat]
    exact ⟨hleased, rfl, rfl, fun h h' _ => absurd ⟨h, h'⟩ hheld, fun _ h1 h2 h3 => absurd ⟨h1, h2, h3⟩ hbeat⟩

theorem onDefend_does (p : RxPkt) (s : State) : Leased (sender p) (saidAddr p) s (onDefend p s).hive ∧
    (s.hive.st = .run → saidAddr p = s.hive.addr → sender p < uidOf s → (onDefend p s).hive.st = .held ∧
      (onDefend p s).hive.addr = 0 ∧ (onDefend p s).hive.claims = 0) ∧
    (s.hive.st ≠ .run → s.hive.claims ≠ 0 → saidAddr p = s.hive.cand → sender p ≠ uidOf s →
      (onDefend p s).hive.beaten = true) := by
  obtain ⟨le, hhear, hleased⟩ := hearUid_leases (sender p) (saidAddr p) p none s (Nat.mod_lt _ (by omega))
  rw [onDefend_eq, hhear]
  dsimp only
  rw [uidOf_of_hive]
  by_cases hown : sender p = uidOf s
  · rw [if_pos hown]
    exact ⟨hleased, fun _ _ h => absurd hown (Nat.ne_of_lt h), fun _ _ _ h => absurd hown h⟩
  rw [if_neg hown]
  by_cases hheld : s.hive.st = .run ∧ saidAddr p = s.hive.addr ∧ sender p < uidOf s
  · rw [if_pos hheld]
    exact ⟨hleased.congr rfl, fun _ _ _ => ⟨rfl, rfl, rfl⟩, fun h => absurd hheld.1 h⟩
  rw [if_neg hheld]
  by_cases hbeat : s.hive.claims ≠ 0 ∧ saidAddr p = s.hive.cand
  · rw [if_pos hbeat]
    exact ⟨hleased.congr rfl, fun h1 h2 h3 => absurd ⟨h1, h2, h3⟩ hheld, fun _ _ _ _ => rfl⟩
  · rw [if_neg hbeat]
    exact ⟨hleased, fun h1 h2 h3 => absurd ⟨h1, h2, h3⟩ hheld, fun _ h1 h2 _ => absurd ⟨h1, h2⟩ hbeat⟩

/-- What a RENEW tells of its sender (R415). -/
def renewInfo (p : RxPkt) : Nat × Nat × Nat × Nat × Byte :=
  ((p.f.body.getD 1 0).toNat, (p.f.body.getD 2 0).toNat, leNat ((p.f.body.drop 3).take 8), (p.f.body.getD 11 0).toNat,
    BitVec.ofNat 8 (p.f.body.getD 12 0).toNat)

/-- A RENEW on the radio directly from its sender makes the sender a neighbour, if the link is good. -/
def risen (lqi : Byte) (p : RxPkt) (w : State) : State :=
  if w.hive.lqimin ≤ lqi.toNat ∧ saidAddr p ≠ 0 ∧ saidAddr p ≠ 0x7F then nbrRise (saidAddr p) w else w

theorem onRenew_eq {lqi rssi : Byte} {rxt : Nat} (hlen : 13 ≤ p.f.body.length) (hother : sender p ≠ uidOf s)
    (hfresh : p.f.htaken ≤ 1) : onRenew ⟨true, 0, lqi, rssi, rxt⟩ p s =
      (let w := risen lqi p (hearUid (sender p) (saidAddr p) p (some (renewInfo p)) s)
      updateRoot (if w.hive.st = .run ∧ saidAddr p = w.hive.addr ∧ sender p < uidOf w then yieldAddr w else w)) := by
  have hdirect : decide (p.f.htaken ≤ 1) = true := decide_eq_true hfresh
  unfold onRenew
  rw [if_neg (Nat.not_lt.mpr hlen)]
  dsimp only
  rw [if_neg (show ¬p.uid.getD p.src = uidOf s from hother), hdirect,
    if_neg (show ¬(true = true ∧ true = false) from fun e => Bool.noConfusion e.2)]
  unfold risen
  simp only [true_and]
  rfl

theorem risen_only (lqi : Byte) (p : RxPkt) (s : State) : ∃ lt nb, risen lqi p s =
    { s with later := lt, hive := { s.hive with nbrs := nb } } ∧ (s.hive.lqimin ≤ lqi.toNat → saidAddr p ≠ 0 →
      saidAddr p ≠ 127 → nb.any (fun n => n.addr == saidAddr p) = true) := by
  unfold risen
  by_cases h : s.hive.lqimin ≤ lqi.toNat ∧ saidAddr p ≠ 0 ∧ saidAddr p ≠ 0x7F
  · rw [if_pos h]
    obtain ⟨lt, nb, he, hup⟩ := nbrRise_only (saidAddr p) s
    exact ⟨lt, nb, he, fun _ _ _ => hup⟩
  · rw [if_neg h]
    exact ⟨s.later, s.hive.nbrs, rfl, fun h1 h2 h3 => absurd ⟨h1, h2, h3⟩ h⟩

theorem onRenew_does {lqi rssi : Byte} {rxt : Nat} (hlen : 13 ≤ p.f.body.length) (hother : sender p ≠ uidOf s)
    (hfresh : p.f.htaken ≤ 1) {u : State} (hu : u = onRenew ⟨true, 0, lqi, rssi, rxt⟩ p s) :
    Leased (sender p) (saidAddr p) s u.hive ∧
      (s.hive.lqimin ≤ lqi.toNat → saidAddr p ≠ 0 → saidAddr p ≠ 127 → u.hive.nbrUp (saidAddr p) = true) ∧
      (s.hive.st = .run → saidAddr p = s.hive.addr → sender p < uidOf s → u.hive.st = .held ∧ u.hive.addr = 0) := by
  obtain ⟨le, hhear, hleased⟩ := hearUid_leases (sender p) (saidAddr p) p (some (renewInfo p)) s (Nat.mod_lt _ (by omega))
  rw [onRenew_eq hlen hother hfresh, hhear] at hu
  obtain ⟨lt, nb, hrise, hup⟩ := risen_only lqi p { s with hive := { s.hive with leases := le } }
  rw [hrise] at hu
  dsimp only at hu
  have huid (l : List Later) (h : HiveSt) : uidOf { s with later := l, hive := h } = uidOf s := rfl
  rw [huid] at hu
  by_cases hheld : s.hive.st = .run ∧ saidAddr p = s.hive.addr ∧ sender p < uidOf s
  · rw [if_pos hheld] at hu
    obtain ⟨lt', hyield⟩ := yieldAddr_only { s with later := lt, hive := { s.hive with leases := le, nbrs := nb } }
    rw [hyield] at hu
    obtain ⟨_, _, _, _, hroot⟩ := updateRoot_only _
    rw [hu, hroot]
    exact ⟨hleased.congr rfl, hup, fun _ _ _ => ⟨rfl, rfl⟩⟩
  · rw [if_neg hheld] at hu
    obtain ⟨_, _, _, _, hroot⟩ := updateRoot_only { s with later := lt, hive := { s.hive with leases := le, nbrs := nb } }
    rw [hu, hroot]
    exact ⟨hleased.congr rfl, hup, fun h1 h2 h3 => absurd ⟨h1, h2, h3⟩ hheld⟩

theorem onLeave_drops {g : Lease → Lease} {l : Lease} (hg : KeepsUid g) (haddr : ∀ l, (g l).addr = l.addr)
    (hn : Noted g s u) (hat : s.hive.leaseAt p.f.orig = some l) (hof : s.hive.leaseOf l.uid = some l) :
    (onLeave p u).hive.leaseOf l.uid = none ∧ (onLeave p u).hive.nbrUp l.addr = false := by
  have hat' : u.hive.leaseAt p.f.orig = some (g l) := by
    obtain ⟨_, _, _, _, _, _, _, rfl⟩ := hn
    exact (leaseAt_map (h := s.hive) hg haddr p.f.orig).trans (congrArg (Option.map g) hat)
  have hof' : u.hive.leaseOf l.uid = some (g l) := by
    obtain ⟨_, _, _, _, _, _, _, rfl⟩ := hn
    exact (leaseOf_map (h := s.hive) hg l.uid).trans (congrArg (Option.map g) hof)
  obtain ⟨hnone, hdown, -⟩ := dropLease_drops hof'
  rw [haddr] at hdown
  unfold onLeave
  rw [hat']
  dsimp only
  rw [hg]
  exact ⟨hnone, hdown⟩

theorem onCall_queues (hst : u.hive.st = s.hive.st) (hdues : u.hive.renewDue = s.hive.renewDue) (htime : u.time = s.time)
    (huid : uidOf u = uidOf s) : onCall u = if s.hive.st = .run then
      { u with hive := { u.hive with renewDue := s.hive.renewDue ++ [s.time.hive + uidOf s % 50 * 192000] } } else u := by
  have hat : s.time.hive + uidOf s % 50 * 192000 = u.time.hive + uidOf u % 50 * 192000 := by rw [htime, huid]
  rw [hat, ← hdues, ← hst]
  rfl

section
variable {x : RxCtx}

theorem onFrame_call (h : p.f.typ = 3) : onFrame x p s = onCall (acceptPkt x p s) := by
  unfold onFrame
  simp only [h]

theorem onFrame_claim (h : p.f.typ = 4) (hfresh : p.f.htaken ≤ 1) :
    onFrame x p s = onClaim p (noteFlood x p (acceptPkt x p s)) := by
  unfold onFrame
  simp only [h]
  exact if_neg (fresh_noCopy hfresh _)

theorem onFrame_defend (h : p.f.typ = 5) (hfresh : p.f.htaken ≤ 1) :
    onFrame x p s = onDefend p (noteFlood x p (acceptPkt x p s)) := by
  unfold onFrame
  simp only [h]
  exact if_neg (fresh_noCopy hfresh _)

theorem onFrame_renew (h : p.f.typ = 6) (hfresh : p.f.htaken ≤ 1) :
    onFrame x p s = onRenew x p (noteFlood x p (acceptPkt x p s)) := by
  unfold onFrame
  simp only [h]
  exact if_neg (fresh_noCopy hfresh _)

theorem onFrame_leave (h : p.f.typ = 10) (hfresh : p.f.htaken ≤ 1) :
    onFrame x p s = onLeave p (noteFlood x p (acceptPkt x p s)) := by
  unfold onFrame
  simp only [h]
  exact if_neg (fresh_noCopy hfresh _)

end

theorem renewInstants_from {a : Nat} (h : a * 15000000 ≤ s.time.hive) :
    renewInstants s a = (s.time.hive - a * 15000000) / 1920000000 + 1 := if_neg (Nat.not_lt.mpr h)

end

/-- Settles O34: the address called is the preference or the lowest free one, each frame of the swarm is flooded, and a
frame heard renews its sender's lease. -/
theorem swarmEvents : Obligations.SwarmEvents := by
  unfold Obligations.SwarmEvents
  intro s fr p hearly
  dsimp only
  have hacts (i : Instr) (f : State → State) : Host.Outcome.next (unlessEarly i f s) = (.next (f s) : Out) :=
    congrArg Host.Outcome.next (unlessEarly_acts i f s (by rw [hearly]; exact List.not_mem_nil))
  have hclaim : exec .claimSend s = .next (claimSend s) := hacts ..
  have hdecide : exec .swarmDecide s = .next (swarmDecide s) := hacts ..
  have hcall : exec (.callRx fr) s = .next (radioRx 3 fr s) := hacts ..
  have hanswer : exec .renewAnswer s = .next (renewAnswer s) := hacts ..
  have hrenew : exec .renewSend s = .next (renewSend s) := hacts ..
  have hclaimed : exec (.claimRx fr) s = .next (radioRx 4 fr s) := hacts ..
  have hdefended : exec (.defendRx fr) s = .next (radioRx 5 fr s) := hacts ..
  have hrenewed : exec (.renewRx fr) s = .next (radioRx 6 fr s) := hacts ..
  have hexpiry (k : Fin 128) : exec (.leaseExpiry k) s = .next (leaseExpiry k s) := hacts ..
  have hleft : exec (.leaveRx fr) s = .next (radioRx 10 fr s) := hacts ..
  rw [hclaim, hdecide, hcall, hanswer, hrenew, hclaimed, hdefended, hrenewed, hleft]
  refine ⟨fun hcl hlt hdue => ?_, fun hcl hthree hdue hbad => ?_, fun hcl hthree hdue hclean hcand => ?_, fun hst => ?_,
    fun ⟨hr, hc, ht⟩ => ?_, fun d hrun hst hd => ?_, fun hrun hst hdue => ?_, fun ⟨hr, hc, ht⟩ hfresh => ?_,
    fun ⟨hr, hc, ht⟩ hfresh => ?_, fun ⟨hr, hc, ht⟩ hfresh hlen hother => ?_, fun k l hk hof hrun hexp => ?_,
    fun ⟨hr, hc, ht⟩ hfresh l hat hof => ?_⟩
  · rw [claimSend_due (claiming_iff.mpr hcl) hlt hdue]
    obtain ⟨hclaims, hcand, hbeaten, hsent⟩ := claimFlood_keeps (claimed s)
    refine ⟨_, rfl, ?_⟩
    rw [hclaims, hcand, hbeaten]
    by_cases h0 : s.hive.claims = 0
    · rw [claimed_first h0] at hsent ⊢
      refine ⟨rfl, fun e => absurd h0 e, hsent, fun _ => ⟨rfl, chooseAddr_pref, chooseAddr_lowest⟩⟩
    · rw [claimed_next h0] at hsent ⊢
      exact ⟨rfl, fun _ => rfl, hsent, fun e => absurd e h0⟩
  · refine congrArg Host.Outcome.next ?_
    unfold swarmDecide
    dsimp only
    rw [if_pos (show claiming s = true ∧ _ from ⟨claiming_iff.mpr hcl, hthree, hdue⟩), if_pos hbad]
    rfl
  · have hnot : ¬(s.hive.beaten = true ∨ s.hive.cand = 0) := fun e =>
      e.elim (fun e => Bool.false_ne_true (hclean.symm.trans e)) hcand
    have hholds : swarmDecide s = holdAddr s := by
      unfold swarmDecide
      dsimp only
      rw [if_pos (show claiming s = true ∧ _ from ⟨claiming_iff.mpr hcl, hthree, hdue⟩), if_neg hnot]
    obtain ⟨w, hw, hheld⟩ := holdAddr_holds s
    rw [hholds]
    exact ⟨_, w, rfl, hw, hheld⟩
  · have hnot : ¬claiming s = true := by
      rw [claiming_iff]
      rintro ⟨-, h⟩
      rcases hst with hst | hst <;> rw [hst] at h <;> exact h.elim UState.noConfusion UState.noConfusion
    exact ⟨congrArg Host.Outcome.next (claimSend_idle hnot), congrArg Host.Outcome.next (swarmDecide_idle hnot)⟩
  · rw [radioRx_frame hr hc ht, onFrame_call ht]
    obtain ⟨le, air, n, b, o, hacc, -⟩ := acceptPkt_only fr.lqi fr.rssi (s.time.hive - fr.ago) p s
    generalize acceptPkt ⟨true, 0, fr.lqi, fr.rssi, s.time.hive - fr.ago⟩ p s = w at hacc ⊢
    exact congrArg Host.Outcome.next (onCall_queues (by rw [hacc]) (by rw [hacc]) (by rw [hacc])
      (by rw [hacc]; exact uidOf_of_hive ..))
  · have hdue : renewAnswer s = sendRenew (s.modHive (fun h => { h with renewDue := h.renewDue.erase d })) := by
      unfold renewAnswer
      rw [hd]
      exact if_pos ⟨hrun, hst⟩
    obtain ⟨w, hw, hdues, hsent⟩ := sendRenew_answers (s.hive.renewDue.erase d) s
    exact ⟨w, congrArg Host.Outcome.next (hdue.trans hw), hdues, hsent⟩
  · rw [← renewInstants_from hdue]
    by_cases hix : s.hive.renewIx = renewInstants s s.hive.addr
    · rw [if_pos hix]
      exact congrArg Host.Outcome.next (if_neg fun e => e.2.2 hix)
    · have hsend : renewSend s = sendRenew (s.modHive (fun h => { h with renewIx := renewInstants s s.hive.addr })) :=
        if_pos ⟨hrun, hst, hix⟩
      obtain ⟨w, hw, hcount, hsent⟩ := sendRenew_counted (renewInstants s s.hive.addr) s
      rw [if_neg hix]
      exact ⟨w, congrArg Host.Outcome.next (hsend.trans hw), hcount, hsent⟩
  · rw [radioRx_frame hr hc ht, onFrame_claim ht hfresh]
    obtain ⟨g, -, -, hn⟩ := noteFlood_noted fr.lqi fr.rssi (s.time.hive - fr.ago) p s
    generalize noteFlood _ p _ = w at hn ⊢
    obtain ⟨hleased, hdoes⟩ := onClaim_does p w
    have hleased' := hleased.of_noted hn
    have huid := hn.uidOf
    obtain ⟨_, _, _, _, _, _, _, rfl⟩ := hn
    rw [huid] at hdoes
    exact ⟨_, rfl, hleased', hdoes⟩
  · rw [radioRx_frame hr hc ht, onFrame_defend ht hfresh]
    obtain ⟨g, -, -, hn⟩ := noteFlood_noted fr.lqi fr.rssi (s.time.hive - fr.ago) p s
    generalize noteFlood _ p _ = w at hn ⊢
    obtain ⟨hleased, hdoes⟩ := onDefend_does p w
    have hleased' := hleased.of_noted hn
    have huid := hn.uidOf
    obtain ⟨_, _, _, _, _, _, _, rfl⟩ := hn
    rw [huid] at hdoes
    exact ⟨_, rfl, hleased', hdoes⟩
  · rw [radioRx_frame hr hc ht, onFrame_renew ht hfresh]
    obtain ⟨g, -, -, hn⟩ := noteFlood_noted fr.lqi fr.rssi (s.time.hive - fr.ago) p s
    generalize noteFlood _ p _ = w at hn ⊢
    have huid := hn.uidOf
    obtain ⟨hleased, hup, hheld⟩ := onRenew_does (s := w) (lqi := fr.lqi) (rssi := fr.rssi)
      (rxt := s.time.hive - fr.ago) hlen (huid.symm ▸ hother) hfresh rfl
    have hleased' := hleased.of_noted hn
    rw [huid] at hheld
    obtain ⟨_, _, _, _, _, _, _, rfl⟩ := hn
    exact ⟨_, rfl, hleased', hup, hheld⟩
  · have hdrop : leaseExpiry k s = dropLease l.uid s := by
      unfold leaseExpiry
      rw [hk]
      exact if_pos ⟨hrun, hexp⟩
    rw [hexpiry, hdrop]
    exact ⟨_, rfl, dropLease_drops hof⟩
  · rw [radioRx_frame hr hc ht, onFrame_leave ht hfresh]
    obtain ⟨g, hg, haddr, hn⟩ := noteFlood_noted fr.lqi fr.rssi (s.time.hive - fr.ago) p s
    exact ⟨_, rfl, onLeave_drops hg haddr hn hat hof⟩

end Sys2Proof.Machine
end
